-- ==== Sys2Proof/Word.lean ====
section
/-! DEFINITION. The plain word types of the Yilven Y3 and its register names (05 R124, 11 R264 to R272). -/

namespace Sys2Proof

/-- A G or K register's contents, 64 bits (05 R124). -/
abbrev Word := BitVec 64
/-- One 32-bit lane of a V register (05 R125). -/
abbrev Lane := BitVec 32
/-- One byte of memory. -/
abbrev Byte := BitVec 8
/-- A number of a G or V register (11 R265). -/
abbrev Reg := BitVec 5
/-- A number of a K register (11 R265). -/
abbrev KReg := BitVec 3
/-- A number of a Z tile or an S register (11 R265). -/
abbrev ZReg := BitVec 2
/-- A 64-byte beat (01 R27). -/
abbrev BeatBits := BitVec 512

/-- The 64 lanes of a V register (05 R125). -/
abbrev VReg := Vector Lane 64

/-- A V register given lane by lane. -/
def VReg.ofFn (f : Nat → Lane) : VReg :=
  ⟨((List.range 64).map f).toArray, by simp⟩

/-- Lane `i`; lanes beyond 63 do not exist and read zero. -/
def VReg.lane (v : VReg) (i : Nat) : Lane := v.toArray.getD i 0

/-- A table keyed by a number, sorted by key; a key that is not listed has the table's default. -/
abbrev Tbl (α : Type) := List (Nat × α)

namespace Tbl

/-- The listed value at a key. -/
def find? {α : Type} : Tbl α → Nat → Option α
  | [], _ => none
  | (k, v) :: t, x => if k = x then some v else find? t x

/-- The value at a key, or the default. -/
def getD {α : Type} (t : Tbl α) (d : α) (x : Nat) : α := (find? t x).getD d

/-- Store a value at a key, keeping the keys in rising order. -/
def put {α : Type} : Tbl α → Nat → α → Tbl α
  | [], x, v => [(x, v)]
  | (k, w) :: t, x, v =>
    if x < k then (x, v) :: (k, w) :: t
    else if x = k then (x, v) :: t
    else (k, w) :: put t x v

/-- Remove a key. -/
def del {α : Type} : Tbl α → Nat → Tbl α
  | [], _ => []
  | (k, w) :: t, x => if k = x then del t x else (k, w) :: del t x

/-- Change the value at a key, starting from the default where it is not listed. -/
def upd {α : Type} (t : Tbl α) (d : α) (x : Nat) (f : α → α) : Tbl α := put t x (f (getD t d x))

theorem find?_put_same {α : Type} (t : Tbl α) (x : Nat) (v : α) : find? (put t x v) x = some v := by
  induction t with
  | nil => simp [put, find?]
  | cons h t ih =>
    obtain ⟨k, w⟩ := h
    unfold put
    split
    · simp [find?]
    · split
      · simp [find?]
      · rename_i h1 h2
        have : ¬ k = x := fun e => h2 e.symm
        simp [find?, this, ih]

theorem find?_put_other {α : Type} (t : Tbl α) {x y : Nat} (v : α) (h : y ≠ x) :
    find? (put t x v) y = find? t y := by
  have hxy : ¬ x = y := fun e => h e.symm
  induction t with
  | nil => simp [put, find?, hxy]
  | cons hd t ih =>
    obtain ⟨k, w⟩ := hd
    unfold put
    split
    · simp [find?, hxy]
    · split
      · rename_i h2
        subst h2
        simp [find?, hxy]
      · simp [find?, ih]

@[simp] theorem getD_put_same {α : Type} (t : Tbl α) (d : α) (x : Nat) (v : α) :
    getD (put t x v) d x = v := by simp [getD, find?_put_same]

theorem getD_put_other {α : Type} (t : Tbl α) (d : α) {x y : Nat} (v : α) (h : y ≠ x) :
    getD (put t x v) d y = getD t d y := by simp [getD, find?_put_other t v h]

end Tbl

end Sys2Proof
end

