-- ==== Sys2Proof/Types.lean ====
section
/-! DEFINITION. The plain data that instructions and events carry: guards, immediates, type codes, scopes
(11 R264 to R279), packets (02 R35, R36), and the parameters of events. -/

namespace Sys2Proof

/-- The guard fields K and GN of a slot (11 R265). `k = 0`, `neg = false` is unpredicated; `k = 0`,
`neg = true` is unassigned (WellFormed). -/
structure Guard where
  k : KReg
  neg : Bool
  deriving DecidableEq, Repr

/-- An immediate as it is encoded: the base field and the payloads of its literal slots (11 R267). -/
structure Imm (w : Nat) where
  base : BitVec w
  lits : List (BitVec 26)
  deriving DecidableEq, Repr

/-- The type codes of 11 R272, but for the reserved code 15. -/
inductive Ty where
  | f32 | bf16 | f16 | e4m3 | e5m2 | d8 | s8 | i4 | s16 | s32 | s64 | z8 | z16 | z32 | z64
  deriving DecidableEq, Repr

/-- The scopes of 07 R182, from narrowest to widest. -/
inductive Scope where
  | seq | core | cluster | die | pkg | fabric
  deriving DecidableEq, Repr

/-- The rounding codes of 11 R272 that are assigned. -/
inductive Rc where
  | fmt | rne | rtz | rup | rdn | rna
  deriving DecidableEq, Repr

/-- The ordering of an atomic with the scope its literal carries (11 R279). -/
inductive AOrd where
  | plain | acq (sc : Scope) | rel (sc : Scope) | ar (sc : Scope)
  deriving DecidableEq, Repr

/-- The width of a class 22 atomic (14 R368). -/
inductive AWidth where
  | w32 | w64
  deriving DecidableEq, Repr

/-- The lock modes of 09 R224. -/
inductive LockMode where
  | is | ix | s | inc | x
  deriving DecidableEq, Repr

/-- The four source classes of 01 R13. -/
inductive SrcClass where
  | core | engine | external | control
  deriving DecidableEq, Repr

/-- Which part of a 64-bit register an access addresses (03 R440). -/
inductive Half where
  | full | lo | hi
  deriving DecidableEq, Repr

/-- An exact pooling accumulator of 10 R247: Sum in units of 2^-149 and three flags. `best` keeps the
greatest term of a MAX bag (a dyadic number as sign, magnitude and power of two) where the bag has one. -/
structure Accum where
  sum : Int := 0
  pinf : Bool := false
  ninf : Bool := false
  nan : Bool := false
  best : Option (Bool × Nat × Int) := none
  deriving DecidableEq, Repr

/-- What collective packets carry (10 R256, 15 R415). The wire form is not in the spec, so the event
carries the contents. -/
inductive CollBody where
  /-- The whole source buffer of a COLL member, with the KIND, ROP, ETY, COUNT and NMEMB it uses. -/
  | coll (kind rop ety count nmemb : Nat) (data : List Byte)
  /-- The count of the bucket of a shard, which goes before the bucket (10 R256 step 2). -/
  | count (shard n : Nat)
  /-- An A2A bucket sent to the owner of a shard: the pooling mode, the number of bags, and (bag, index, weight) triples. -/
  | bucket (shard pool nbags : Nat) (items : List (Nat × Nat × BitVec 32))
  /-- What the owner of a shard returns: partial accumulators (bag, element accumulators), the bags with a Bad index, and
  the bags in which it met a poisoned beat, with its address (10 R246, R256). -/
  | partials (shard : Nat) (accs : List (Nat × List Accum)) (bad : List Nat) (poisoned : List (Nat × Nat))
  deriving DecidableEq, Repr

/-- One payload beat of a packet: its 64 bytes and its POISON mark (02 R33). -/
structure Beat where
  data : BeatBits
  poison : Bool
  deriving DecidableEq, Repr

/-- A fabric packet: the header flit of 02 R35, field by field, and its payload flits. The header has no place for
an atomic's operation and a 128-bit atomic's new value, and the spec gives no wire form of collective data: `aop`,
`opnd2`, `opnd3` and `body` carry them beside the header (log entry 3). `headPoison` is the POISON mark of the header flit
(02 R33, R34), `via` the port of this chip whose buffer slots a packet in transit still holds (02 R42), and `mapped` the
local context its FCTX mapped to when it arrived, of a request that waits at its target (02 R44). -/
structure Packet where
  pseq : BitVec 16 := 0
  dst : BitVec 12 := 0
  src : BitVec 12 := 0
  slipn : BitVec 2 := 0
  op : BitVec 8 := 0
  retry : Bool := false
  wantslip : Bool := false
  circuit : Bool := false
  release : Bool := false
  acquire : Bool := false
  fctx : BitVec 16 := 0
  vaddr : BitVec 57 := 0
  srcunit : BitVec 16 := 0
  reqid : BitVec 32 := 0
  tag : BitVec 16 := 0
  size : BitVec 4 := 0
  slip0 : BitVec 32 := 0
  slip1 : BitVec 32 := 0
  collid : BitVec 32 := 0
  opnd0 : BitVec 64 := 0
  opnd1 : BitVec 64 := 0
  tepoch : BitVec 8 := 0
  aop : BitVec 5 := 0
  opnd2 : BitVec 64 := 0
  opnd3 : BitVec 64 := 0
  body : Option CollBody := none
  headPoison : Bool := false
  via : Option Nat := none
  mapped : Option Nat := none
  payload : List Beat := []
  deriving DecidableEq, Repr

/-- The firmware manifest as the Proctor finds it (01 R16): does its signature verify, does its key match
the fused digest, its security version, and the digest of each die by die code. -/
structure Manifest where
  signatureOk : Bool
  keyOk : Bool
  secVersion : BitVec 16
  digests : List (BitVec 384)
  deriving DecidableEq, Repr

/-- A device a CXL port finds at enumeration (02 R58); a multi-logical device lists the capacities of its logical ones. -/
structure CxlDevice where
  port : Nat
  typeNo : Nat
  capacity : Nat
  logical : List Nat := []
  deriving DecidableEq, Repr

/-- A router output that has a timetable (15 R417): die code, kind (0 mesh router, 1 girth crossing,
2 fabric port), index, output. -/
structure RouterOut where
  die : Nat
  kind : Nat
  index : Nat
  out : Nat
  deriving DecidableEq, Repr

/-- The transport header of an Ultra Ethernet packet, so far as 02 R59 tells it: its number on the connection, ordered or
unordered delivery, the entropy value it is sprayed with, whether a switch has trimmed its payload off, and whether it
passes the transport security of its context. -/
structure UetHead where
  psn : Nat
  ordered : Bool
  entropy : Nat
  trimmed : Bool
  auth : Bool
  deriving DecidableEq, Repr

/-- An Ultra Ethernet packet (02 R59): reliable Send, RMA write and RMA read, no transport atomics. A message beyond 4,096
bytes is sent in several packets, its parts, each of which names the contents of the whole. -/
inductive UetPacket where
  | send (conn : Nat) (src dst : BitVec 12) (collid : BitVec 32) (part parts : Nat) (body : CollBody)
  | rmaWrite (conn : Nat) (ctx : Nat) (vaddr : Nat) (data : List Byte)
  | rmaRead (conn : Nat) (ctx : Nat) (vaddr : Nat) (len : Nat)
  /-- The data of an RMA read, and of none where it was refused. -/
  | rmaData (conn : Nat) (vaddr : Nat) (data : List Byte)
  /-- The acknowledgement of a packet by its number, or the request to send a trimmed one again. -/
  | ack (conn : Nat) (psn : Nat) (again : Bool)
  deriving DecidableEq, Repr

/-- The PCIe AtomicOps that arrive through BAR2 (05 R155, 14 R371). -/
inductive PcieAtomic where
  | fetchAdd | swap | cas
  deriving DecidableEq, Repr

/-- A fault as it enters trap mode: code, SLOT, TRAPADDR, TRAPINFO and its class marks (06 R159, R164). -/
structure FaultRec where
  code : BitVec 16
  slot : BitVec 3 := 0
  addr : Word := 0
  info : Word := 0
  deferred : Bool := false
  engine : Bool := false
  deriving DecidableEq, Repr

/-- The kinds of access the Invigilator tells apart (06 R176). -/
inductive AccKind where
  | load | store | atomic
  deriving DecidableEq, Repr

/-- An access as the Invigilator checks it (06 R176). -/
structure IvAccess where
  tid : Word
  ctx : Nat
  /-- The 32-byte sectors it touches, as virtual address / 32, rising. -/
  sectors : List Nat
  /-- The coordinates of the core and sequencer it was made from. -/
  coord : Word
  kind : AccKind
  acq : Option Scope
  rel : Option Scope
  deriving DecidableEq, Repr

/-- A 64-bit engine command word (11 R282). -/
abbrev CmdWord := BitVec 64

/-- What comes with an event: one shape for each kind of event. -/
inductive EvArg where
  | none
  | num (n : Nat)
  | num2 (a b : Nat)
  | num3 (a b c : Nat)
  | flag (b : Bool)
  | numFlag (n : Nat) (b : Bool)
  /-- A task by its TID. -/
  | task (tid : Word)
  /-- A register write: context, hub, queue or offset; entry number; half; value. -/
  | reg (a i : Nat) (h : Half) (v : Word)
  | request (home : Nat) (cls : SrcClass) (port req : Nat)
  | tracker (home : Nat) (cls : SrcClass)
  | claim (home : Nat) (cls : SrcClass) (port : Nat) (null : Bool)
  | manifest (m : Manifest)
  | measure (digest : BitVec 384) (pkgs : List Nat)
  | power (modw compw : BitVec 16)
  | flit (port : Nat) (hdr : BitVec 128) (data : BeatBits)
  | linkPacket (port : Nat) (p : Packet) (ackseq : BitVec 16)
  | seq (port : Nat) (x : BitVec 16)
  | linkUp (port : Nat) (delay : BitVec 8) (epochs : List (Nat × BitVec 8))
  | packet (hub : Nat) (p : Packet)
  | coll (hub : Nat) (p : Packet) (body : CollBody)
  | circuit (router : RouterOut) (input circuit slotCount : Nat) (p : Packet)
  | bank (router : RouterOut) (entries : List (BitVec 32)) (switchAt : Nat)
  | router (router : RouterOut) (slotCount : Nat)
  | devs (devs : List CxlDevice)
  /-- Failed girth links, and the die codes that still reach the Proctor. -/
  | girth (failed : List (Nat × Nat)) (reach : List Nat)
  | access (off bytes : Nat) (write : Bool)
  | bytes (off : Nat) (data : List Byte)
  | pcie (off : Nat) (op : PcieAtomic) (wide : Bool) (operand compare : Word)
  | drive (runner card n q byteOff target die unit : Nat) (cmd : CmdWord)
  | lnch (n q : Nat) (cmd : CmdWord)
  | fault (tid : Word) (f : FaultRec)
  | iv (acc : IvAccess)
  | lock (tid : Word) (lw : Word) (m : LockMode) (id : Nat)
  | fill (n g set way : Nat) (ok : Bool)
  | uet (port : Nat) (h : UetHead) (p : UetPacket)
  deriving DecidableEq, Repr

end Sys2Proof
end

