-- ==== Sys2Proof/Syntax.lean ====
section
/-! DEFINITION. The instructions and events of the Yilven Y3, one constructor for each row of
spec/opcode_table.json: the slot instructions with operands in the table's order, those without, then the
events. A slot instruction carries its operand fields; its guard stands beside it in the bundle (Guard). What
comes with an event stands in EvArg, which a step puts into the state before it runs the event. -/

namespace Sys2Proof

/-- One constructor per row of the opcode table (11 R273 to R283; 95_what_each_step_holds.md). -/
inductive Instr where
  /-- ADD (R297): Gd := Ga + Gb modulo 2^64. -/
  | add (d : Reg) (a : Reg) (b : Reg)
  /-- SUB (R297): Gd := Ga − Gb modulo 2^64. -/
  | sub (d : Reg) (a : Reg) (b : Reg)
  /-- AND (R297): Gd := Ga and Gb. -/
  | and (d : Reg) (a : Reg) (b : Reg)
  /-- OR (R297): Gd := Ga or Gb. -/
  | or (d : Reg) (a : Reg) (b : Reg)
  /-- XOR (R297): Gd := Ga xor Gb. -/
  | xor (d : Reg) (a : Reg) (b : Reg)
  /-- ANDN (R297): Gd := Ga and not Gb. -/
  | andn (d : Reg) (a : Reg) (b : Reg)
  /-- SHL (R297): Gd := Ga shifted left by Gb[5:0]. -/
  | shl (d : Reg) (a : Reg) (b : Reg)
  /-- SHR (R297): Gd := Ga shifted right logically by Gb[5:0]. -/
  | shr (d : Reg) (a : Reg) (b : Reg)
  /-- SAR (R297): Gd := Ga shifted right arithmetically by Gb[5:0]. -/
  | sar (d : Reg) (a : Reg) (b : Reg)
  /-- ROR (R297): Gd := Ga rotated right by Gb[5:0]. -/
  | ror (d : Reg) (a : Reg) (b : Reg)
  /-- MIN_S64 (R297): Gd := the signed minimum of Ga and Gb. -/
  | minS64 (d : Reg) (a : Reg) (b : Reg)
  /-- MAX_S64 (R297): Gd := the signed maximum of Ga and Gb. -/
  | maxS64 (d : Reg) (a : Reg) (b : Reg)
  /-- MIN_Z64 (R297): Gd := the unsigned minimum of Ga and Gb. -/
  | minZ64 (d : Reg) (a : Reg) (b : Reg)
  /-- MAX_Z64 (R297): Gd := the unsigned maximum of Ga and Gb. -/
  | maxZ64 (d : Reg) (a : Reg) (b : Reg)
  /-- ADDX2 (R297): Gd := Ga + 2 × Gb. -/
  | addx2 (d : Reg) (a : Reg) (b : Reg)
  /-- ADDX4 (R297): Gd := Ga + 4 × Gb. -/
  | addx4 (d : Reg) (a : Reg) (b : Reg)
  /-- ADDX8 (R297): Gd := Ga + 8 × Gb. -/
  | addx8 (d : Reg) (a : Reg) (b : Reg)
  /-- ADDI (R298): Gd := Ga + signed immediate. -/
  | addi (d : Reg) (a : Reg) (i : Imm 5)
  /-- ANDI (R298): Gd := Ga and signed immediate. -/
  | andi (d : Reg) (a : Reg) (i : Imm 5)
  /-- ORI (R298): Gd := Ga or signed immediate. -/
  | ori (d : Reg) (a : Reg) (i : Imm 5)
  /-- XORI (R298): Gd := Ga xor signed immediate. -/
  | xori (d : Reg) (a : Reg) (i : Imm 5)
  /-- SHLI (R298): Gd := Ga shifted left by the unsigned immediate's bits [5:0]. -/
  | shli (d : Reg) (a : Reg) (i : Imm 5)
  /-- SHRI (R298): Gd := Ga shifted right logically by an immediate amount. -/
  | shri (d : Reg) (a : Reg) (i : Imm 5)
  /-- SARI (R298): Gd := Ga shifted right arithmetically by an immediate amount. -/
  | sari (d : Reg) (a : Reg) (i : Imm 5)
  /-- RORI (R298): Gd := Ga rotated right by an immediate amount. -/
  | rori (d : Reg) (a : Reg) (i : Imm 5)
  /-- MOVI (R299): Gd := the signed immediate. -/
  | movi (d : Reg) (i : Imm 5)
  /-- ADPC (R300): Gd := the bundle address plus a signed byte offset, modulo 2^57. -/
  | adpc (d : Reg) (i : Imm 5)
  /-- MUL (R301): Gd := the low 64 bits of Ga × Gb. -/
  | mul (d : Reg) (a : Reg) (b : Reg)
  /-- MULH_S64 (R301): Gd := the high 64 bits of the signed product. -/
  | mulhS64 (d : Reg) (a : Reg) (b : Reg)
  /-- MULH_Z64 (R301): Gd := the high 64 bits of the unsigned product. -/
  | mulhZ64 (d : Reg) (a : Reg) (b : Reg)
  /-- DIV_S64 (R301): Gd := the signed quotient truncated towards zero, with a divide-by-zero event for a zero divisor. -/
  | divS64 (d : Reg) (a : Reg) (b : Reg)
  /-- DIV_Z64 (R301): Gd := the unsigned quotient. -/
  | divZ64 (d : Reg) (a : Reg) (b : Reg)
  /-- REM_S64 (R301): Gd := the signed remainder. -/
  | remS64 (d : Reg) (a : Reg) (b : Reg)
  /-- REM_Z64 (R301): Gd := the unsigned remainder. -/
  | remZ64 (d : Reg) (a : Reg) (b : Reg)
  /-- BFX_Z64 (R302): Extracts a zero-extended bit field of Ga set by Gb. -/
  | bfxZ64 (d : Reg) (a : Reg) (b : Reg)
  /-- BFX_S64 (R302): Extracts a sign-extended bit field of Ga set by Gb. -/
  | bfxS64 (d : Reg) (a : Reg) (b : Reg)
  /-- BFI (R302): Inserts the low bits of Ga into a bit field of Gd. -/
  | bfi (d : Reg) (a : Reg) (b : Reg)
  /-- CLZ (R303): Gd := leading zero bits of Ga. -/
  | clz (d : Reg) (a : Reg)
  /-- CTZ (R303): Gd := trailing zero bits of Ga. -/
  | ctz (d : Reg) (a : Reg)
  /-- POPC (R303): Gd := set bits of Ga. -/
  | popc (d : Reg) (a : Reg)
  /-- BREV (R303): Gd := Ga with its bits reversed. -/
  | brev (d : Reg) (a : Reg)
  /-- BSWAP (R303): Gd := Ga with its bytes reversed. -/
  | bswap (d : Reg) (a : Reg)
  /-- CMPEQ (R304): Kd := all ones when Ga equals Gb, else zero. -/
  | cmpeq (d : KReg) (a : Reg) (b : Reg)
  /-- CMPNE (R304): Kd := all ones when Ga differs from Gb. -/
  | cmpne (d : KReg) (a : Reg) (b : Reg)
  /-- CMPLT_S64 (R304): Kd := all ones when Ga < Gb signed. -/
  | cmpltS64 (d : KReg) (a : Reg) (b : Reg)
  /-- CMPLE_S64 (R304): Kd := all ones when Ga ≤ Gb signed. -/
  | cmpleS64 (d : KReg) (a : Reg) (b : Reg)
  /-- CMPLT_Z64 (R304): Kd := all ones when Ga < Gb unsigned. -/
  | cmpltZ64 (d : KReg) (a : Reg) (b : Reg)
  /-- CMPLE_Z64 (R304): Kd := all ones when Ga ≤ Gb unsigned. -/
  | cmpleZ64 (d : KReg) (a : Reg) (b : Reg)
  /-- CMPEQI (R304): Kd := all ones when Ga equals the immediate. -/
  | cmpeqi (d : KReg) (a : Reg) (i : Imm 5)
  /-- CMPNEI (R304): Kd := all ones when Ga differs from the immediate. -/
  | cmpnei (d : KReg) (a : Reg) (i : Imm 5)
  /-- CMPLTI_S64 (R304): Kd := all ones when Ga < immediate signed. -/
  | cmpltiS64 (d : KReg) (a : Reg) (i : Imm 5)
  /-- CMPLEI_S64 (R304): Kd := all ones when Ga ≤ immediate signed. -/
  | cmpleiS64 (d : KReg) (a : Reg) (i : Imm 5)
  /-- CMPLTI_Z64 (R304): Kd := all ones when Ga < immediate unsigned. -/
  | cmpltiZ64 (d : KReg) (a : Reg) (i : Imm 5)
  /-- CMPLEI_Z64 (R304): Kd := all ones when Ga ≤ immediate unsigned. -/
  | cmpleiZ64 (d : KReg) (a : Reg) (i : Imm 5)
  /-- KAND (R305): Kd := Ka and Kb. -/
  | kand (d : KReg) (a : KReg) (b : KReg)
  /-- KOR (R305): Kd := Ka or Kb. -/
  | kor (d : KReg) (a : KReg) (b : KReg)
  /-- KXOR (R305): Kd := Ka xor Kb. -/
  | kxor (d : KReg) (a : KReg) (b : KReg)
  /-- KANDN (R305): Kd := Ka and not Kb. -/
  | kandn (d : KReg) (a : KReg) (b : KReg)
  /-- KNOT (R305): Kd := not Ka. -/
  | knot (d : KReg) (a : KReg)
  /-- KFROMG (R305): Kd := Ga. -/
  | kfromg (d : KReg) (a : Reg)
  /-- GFROMK (R305): Gd := Ka. -/
  | gfromk (d : Reg) (a : KReg)
  /-- CVT_F32_S64 (R306): Converts signed 64-bit Ga to FP32 in Gd under the rounding code. -/
  | cvtF32S64 (d : Reg) (a : Reg) (r : Rc)
  /-- CVT_F32_Z64 (R306): Converts unsigned 64-bit Ga to FP32 in Gd. -/
  | cvtF32Z64 (d : Reg) (a : Reg) (r : Rc)
  /-- CVT_S64_F32 (R306): Converts FP32 Ga[31:0] to a saturated signed 64-bit Gd. -/
  | cvtS64F32 (d : Reg) (a : Reg) (r : Rc)
  /-- CVT_Z64_F32 (R306): Converts FP32 Ga[31:0] to a saturated unsigned 64-bit Gd. -/
  | cvtZ64F32 (d : Reg) (a : Reg) (r : Rc)
  /-- BR (R308): Branches to the bundle address plus a signed word offset. -/
  | br (i : Imm 15)
  /-- CALL (R308): Sets G31 to the next sequential bundle and branches to a relative target. -/
  | call (i : Imm 15)
  /-- JMP (R308): Branches to the address in Ga. -/
  | jmp (a : Reg)
  /-- CALLR (R308): Sets G31 to the next sequential bundle and branches to the address in Ga. -/
  | callr (a : Reg)
  /-- LOOP (R311): Pushes a hardware loop entry with count Ga, or skips the body for a zero count. -/
  | loop (a : Reg) (i : Imm 10)
  /-- LOOPI (R311): Pushes a hardware loop entry with an immediate count, or skips the body for zero. -/
  | loopi (c : BitVec 5) (i : Imm 10)
  /-- LCNT (R313): Gd := the remaining count of loop stack entry n, or 0. -/
  | lcnt (d : Reg) (n : BitVec 5)
  /-- MFS (R315): Gd := the numbered system register, subject to privilege. -/
  | mfs (d : Reg) (n : BitVec 10)
  /-- MTS (R315): Writes Ga to the numbered system register, subject to privilege and access. -/
  | mts (n : BitVec 10) (a : Reg)
  /-- FEAT (R316): Gd := feature word w. -/
  | feat (d : Reg) (w : BitVec 5)
  /-- SETFMT (R317): FMT[13:0] := Ga[13:0], latency class 4. -/
  | setfmt (a : Reg)
  /-- SETFMTI (R317): FMT[13:0] := an immediate of the slot. -/
  | setfmti (v : BitVec 14)
  /-- TRAP (R320): Raises TRAP_SW with the immediate in TRAPINFO. -/
  | trap (i : BitVec 15)
  /-- TRAPRETG (R321): Leaves trap mode as TRAPRET and resumes at the address in Ga. -/
  | trapretg (a : Reg)
  /-- VADD_FP (R331): Adds floating-point elements with one rounding. -/
  | vaddFp (t : Ty) (d : Reg) (a : Reg) (b : Reg)
  /-- VSUB_FP (R331): Subtracts floating-point elements with one rounding. -/
  | vsubFp (t : Ty) (d : Reg) (a : Reg) (b : Reg)
  /-- VMUL_FP (R331): Multiplies floating-point elements with one rounding. -/
  | vmulFp (t : Ty) (d : Reg) (a : Reg) (b : Reg)
  /-- VMIN_FP (R331): Takes the floating-point minimum of elements. -/
  | vminFp (t : Ty) (d : Reg) (a : Reg) (b : Reg)
  /-- VMAX_FP (R331): Takes the floating-point maximum of elements. -/
  | vmaxFp (t : Ty) (d : Reg) (a : Reg) (b : Reg)
  /-- VABS_FP (R331): Clears the sign bit of each element. -/
  | vabsFp (t : Ty) (d : Reg) (a : Reg)
  /-- VNEG (R331): Inverts the sign bit of each element. -/
  | vneg (t : Ty) (d : Reg) (a : Reg)
  /-- VCPYS (R331): Copies a's bits with b's sign bit. -/
  | vcpys (t : Ty) (d : Reg) (a : Reg) (b : Reg)
  /-- VFMA (R332): Computes a × b + d with one rounding. -/
  | vfma (t : Ty) (d : Reg) (a : Reg) (b : Reg)
  /-- VFMS (R332): Computes a × b − d with one rounding. -/
  | vfms (t : Ty) (d : Reg) (a : Reg) (b : Reg)
  /-- VFNMA (R332): Computes d − a × b with one rounding. -/
  | vfnma (t : Ty) (d : Reg) (a : Reg) (b : Reg)
  /-- VFNMS (R332): Computes −(a × b) − d with one rounding. -/
  | vfnms (t : Ty) (d : Reg) (a : Reg) (b : Reg)
  /-- VADD_INT (R334): Adds integer elements modulo their width. -/
  | vaddInt (t : Ty) (d : Reg) (a : Reg) (b : Reg)
  /-- VSUB_INT (R334): Subtracts integer elements modulo their width. -/
  | vsubInt (t : Ty) (d : Reg) (a : Reg) (b : Reg)
  /-- VMIN_INT (R334): Takes the integer minimum of elements. -/
  | vminInt (t : Ty) (d : Reg) (a : Reg) (b : Reg)
  /-- VMAX_INT (R334): Takes the integer maximum of elements. -/
  | vmaxInt (t : Ty) (d : Reg) (a : Reg) (b : Reg)
  /-- VADDS (R334): Adds integer elements with saturation and an overflow event. -/
  | vadds (t : Ty) (d : Reg) (a : Reg) (b : Reg)
  /-- VSUBS (R334): Subtracts integer elements with saturation. -/
  | vsubs (t : Ty) (d : Reg) (a : Reg) (b : Reg)
  /-- VMUL_INT (R334): Multiplies integer elements, keeping the low bits. -/
  | vmulInt (t : Ty) (d : Reg) (a : Reg) (b : Reg)
  /-- VABS_INT (R334): Takes the absolute value of signed integer elements. -/
  | vabsInt (t : Ty) (d : Reg) (a : Reg)
  /-- VCMPEQ (R335): Sets bit i of Kd when lane a equals lane b. -/
  | vcmpeq (t : Ty) (d : KReg) (a : Reg) (b : Reg)
  /-- VCMPNE (R335): Sets bit i of Kd when the lanes differ. -/
  | vcmpne (t : Ty) (d : KReg) (a : Reg) (b : Reg)
  /-- VCMPLT (R335): Sets bit i of Kd when lane a < lane b. -/
  | vcmplt (t : Ty) (d : KReg) (a : Reg) (b : Reg)
  /-- VCMPLE (R335): Sets bit i of Kd when lane a ≤ lane b. -/
  | vcmple (t : Ty) (d : KReg) (a : Reg) (b : Reg)
  /-- VCMPUN (R335): Sets bit i of Kd when either FP32 lane is a NaN. -/
  | vcmpun (d : KReg) (a : Reg) (b : Reg)
  /-- VAND (R336): Lane-wise and. -/
  | vand (d : Reg) (a : Reg) (b : Reg)
  /-- VOR (R336): Lane-wise or. -/
  | vor (d : Reg) (a : Reg) (b : Reg)
  /-- VXOR (R336): Lane-wise xor. -/
  | vxor (d : Reg) (a : Reg) (b : Reg)
  /-- VANDN (R336): Lane-wise and-not. -/
  | vandn (d : Reg) (a : Reg) (b : Reg)
  /-- VNOT (R336): Lane-wise not. -/
  | vnot (d : Reg) (a : Reg)
  /-- VSHL (R336): Shifts each lane left by the other lane's amount. -/
  | vshl (d : Reg) (a : Reg) (b : Reg)
  /-- VSHR (R336): Shifts each lane right logically. -/
  | vshr (d : Reg) (a : Reg) (b : Reg)
  /-- VSAR (R336): Shifts each lane right arithmetically. -/
  | vsar (d : Reg) (a : Reg) (b : Reg)
  /-- VSEL (R337): Selects each lane from a or b by the guard. -/
  | vsel (d : Reg) (a : Reg) (b : Reg)
  /-- VMOV (R337): Copies Va into Vd. -/
  | vmov (d : Reg) (a : Reg)
  /-- VBCST (R337): Broadcasts Ga[31:0] to every lane. -/
  | vbcst (d : Reg) (a : Reg)
  /-- VEXTR (R337): Gd := lane Gb of Va. -/
  | vextr (d : Reg) (a : Reg) (b : Reg)
  /-- VINSR (R337): Writes Ga[31:0] into lane Gb of Vd. -/
  | vinsr (d : Reg) (a : Reg) (b : Reg)
  /-- KPOPC (R337): Gd := set bits of Ka. -/
  | kpopc (d : Reg) (a : KReg)
  /-- KFIRST (R337): Gd := lowest set bit of Ka, or 64. -/
  | kfirst (d : Reg) (a : KReg)
  /-- KLAST (R337): Gd := highest set bit of Ka, or 64. -/
  | klast (d : Reg) (a : KReg)
  /-- CVT_VECTOR (R338): Converts vector elements between types under a rounding code, zeroing the rest of Vd. -/
  | cvtVector (t : Ty) (src : Ty) (r : Rc) (d : Reg) (a : Reg)
  /-- VQNT (R339): Quantises FP32 elements by reciprocals with one rounding to the target type. -/
  | vqnt (t : Ty) (d : Reg) (a : Reg) (b : Reg)
  /-- VDQ (R340): Dequantises elements by scales and biases with one rounding. -/
  | vdq (out : Ty) (src : Ty) (d : Reg) (a : Reg) (b : Reg)
  /-- VPERM (R341): Permutes lanes of Va by indices in Vb. -/
  | vperm (d : Reg) (a : Reg) (b : Reg)
  /-- VROT (R341): Rotates lanes by Gb. -/
  | vrot (d : Reg) (a : Reg) (b : Reg)
  /-- VZIPLO (R341): Interleaves the low halves of Va and Vb. -/
  | vziplo (d : Reg) (a : Reg) (b : Reg)
  /-- VZIPHI (R341): Interleaves the high halves of Va and Vb. -/
  | vziphi (d : Reg) (a : Reg) (b : Reg)
  /-- VCOMP (R342): Compresses the guard-selected lanes to the bottom. -/
  | vcomp (d : Reg) (a : Reg)
  /-- VEXPD (R342): Expands consecutive lanes into the guard-selected lanes. -/
  | vexpd (d : Reg) (a : Reg)
  /-- VIOTA (R342): Writes lane index i into each enabled lane. -/
  | viota (d : Reg)
  /-- VCLMULLO (R343): Carry-less multiplies 64-bit pairs, keeping the low half. -/
  | vclmullo (d : Reg) (a : Reg) (b : Reg)
  /-- VCLMULHI (R343): Carry-less multiplies 64-bit pairs, keeping the high half. -/
  | vclmulhi (d : Reg) (a : Reg) (b : Reg)
  /-- VRSUM (R344): Reduces present elements by a fixed sum tree into element 0. -/
  | vrsum (t : Ty) (d : Reg) (a : Reg)
  /-- VRMAX (R344): Reduces present elements by maximum. -/
  | vrmax (t : Ty) (d : Reg) (a : Reg)
  /-- VRMIN (R344): Reduces present elements by minimum. -/
  | vrmin (t : Ty) (d : Reg) (a : Reg)
  /-- VSCSUM (R345): Computes an inclusive sum scan. -/
  | vscsum (t : Ty) (d : Reg) (a : Reg)
  /-- VSCMAX (R345): Computes an inclusive maximum scan. -/
  | vscmax (t : Ty) (d : Reg) (a : Reg)
  /-- VSCMIN (R345): Computes an inclusive minimum scan. -/
  | vscmin (t : Ty) (d : Reg) (a : Reg)
  /-- VDIV (R333): Divides elements, correctly rounded. -/
  | vdiv (t : Ty) (d : Reg) (a : Reg) (b : Reg)
  /-- VSQRT (R333): Takes the correctly rounded square root. -/
  | vsqrt (t : Ty) (d : Reg) (a : Reg)
  /-- VRCP (R333): Takes the correctly rounded reciprocal. -/
  | vrcp (t : Ty) (d : Reg) (a : Reg)
  /-- VRSQRT (R333): Takes the correctly rounded reciprocal square root. -/
  | vrsqrt (t : Ty) (d : Reg) (a : Reg)
  /-- VEXP2 (R333): Computes 2^a correctly rounded. -/
  | vexp2 (t : Ty) (d : Reg) (a : Reg)
  /-- VLOG2 (R333): Computes log2 a correctly rounded. -/
  | vlog2 (t : Ty) (d : Reg) (a : Reg)
  /-- VTANH (R333): Computes tanh a correctly rounded. -/
  | vtanh (t : Ty) (d : Reg) (a : Reg)
  /-- VSIGM (R333): Computes the logistic sigmoid correctly rounded. -/
  | vsigm (t : Ty) (d : Reg) (a : Reg)
  /-- SBIND (R347): Binds a stream register to a stream descriptor in scratch. -/
  | sbind (d : ZReg) (a : Reg)
  /-- SINT (R348): Starts a stream intersection of two inputs into an output. -/
  | sint (d : ZReg) (a : ZReg) (b : ZReg)
  /-- SUNI (R348): Starts a stream union. -/
  | suni (d : ZReg) (a : ZReg) (b : ZReg)
  /-- SSUB (R348): Starts a stream difference. -/
  | ssub (d : ZReg) (a : ZReg) (b : ZReg)
  /-- SMADD (R348): Starts a stream merge that sums values of equal keys. -/
  | smadd (d : ZReg) (a : ZReg) (b : ZReg)
  /-- SDRAIN (R352): Drains up to 64 keys of an input stream into Vd. -/
  | sdrain (d : Reg) (a : ZReg)
  /-- SCNT (R352): Gd := the count and status word of a stream register. -/
  | scnt (d : Reg) (a : ZReg)
  /-- SFREE (R352): Unbinds a stream register. -/
  | sfree (d : ZReg)
  /-- LD (R360): Loads a scalar into Gd, interlocked. -/
  | ld (t : Ty) (d : Reg) (a : Reg) (i : Imm 5)
  /-- LDACQ (R360): Loads a scalar as an acquire at the encoded scope. -/
  | ldacq (sc : Scope) (t : Ty) (d : Reg) (a : Reg) (i : Imm 5)
  /-- LDS (R360): Loads a scalar at a scratch-relative address. -/
  | lds (t : Ty) (d : Reg) (a : Reg) (i : Imm 5)
  /-- ST (R360): Stores the low bytes of Gd. -/
  | st (t : Ty) (d : Reg) (a : Reg) (i : Imm 5)
  /-- STREL (R360): Stores a scalar as a release at the encoded scope. -/
  | strel (sc : Scope) (t : Ty) (d : Reg) (a : Reg) (i : Imm 5)
  /-- STS (R360): Stores a scalar at a scratch-relative address. -/
  | sts (t : Ty) (d : Reg) (a : Reg) (i : Imm 5)
  /-- VLD (R362): Loads 256 bytes into Vd, lane by enabled lane. -/
  | vld (d : Reg) (a : Reg) (i : Imm 5)
  /-- VLDACQ (R362): Vector load as one acquire at the encoded scope. -/
  | vldacq (sc : Scope) (d : Reg) (a : Reg) (i : Imm 5)
  /-- VLDS (R362): Vector load at a scratch-relative address. -/
  | vlds (d : Reg) (a : Reg) (i : Imm 5)
  /-- VST (R362): Stores the enabled lanes of Vd. -/
  | vst (d : Reg) (a : Reg) (i : Imm 5)
  /-- VSTREL (R362): Vector store as one release at the encoded scope. -/
  | vstrel (sc : Scope) (d : Reg) (a : Reg) (i : Imm 5)
  /-- VSTS (R362): Vector store at a scratch-relative address. -/
  | vsts (d : Reg) (a : Reg) (i : Imm 5)
  /-- FILL (R365): Waits for an EMPTY scratch word, writes Gd and leaves it FULL. -/
  | fill (d : Reg) (a : Reg) (i : Imm 5)
  /-- TAKE (R365): Waits for a FULL word, reads it and leaves it EMPTY. -/
  | take (d : Reg) (a : Reg) (i : Imm 5)
  /-- READF (R365): Waits for a FULL word and reads it, leaving it FULL. -/
  | readf (d : Reg) (a : Reg) (i : Imm 5)
  /-- WRITEF (R365): Writes a word and leaves it FULL without waiting. -/
  | writef (d : Reg) (a : Reg) (i : Imm 5)
  /-- SETE (R365): Writes a word and leaves it EMPTY without waiting. -/
  | sete (d : Reg) (a : Reg) (i : Imm 5)
  /-- VGATH (R363): Gathers 4-byte lanes from base plus lane offsets. -/
  | vgath (d : Reg) (a : Reg) (b : Reg)
  /-- VSCAT (R363): Scatters enabled lanes to base plus lane offsets. -/
  | vscat (d : Reg) (a : Reg) (b : Reg)
  /-- VGATHS (R363): Gathers at scratch-relative addresses. -/
  | vgaths (d : Reg) (a : Reg) (b : Reg)
  /-- VSCATS (R363): Scatters at scratch-relative addresses. -/
  | vscats (d : Reg) (a : Reg) (b : Reg)
  /-- VMCST (R364): Writes Vd to each of up to 16 probed destinations. -/
  | vmcst (d : Reg) (a : Reg) (b : Reg)
  /-- VRDST (R364): Adds Vd atomically into each of up to 16 destinations. -/
  | vrdst (d : Reg) (a : Reg) (b : Reg)
  /-- AADD (R369): Atomically adds Gb to memory and returns the old value. -/
  | aadd (o : AOrd) (w : AWidth) (d : Reg) (a : Reg) (b : Reg)
  /-- AAND (R369): Atomic and. -/
  | aand (o : AOrd) (w : AWidth) (d : Reg) (a : Reg) (b : Reg)
  /-- AOR (R369): Atomic or. -/
  | aor (o : AOrd) (w : AWidth) (d : Reg) (a : Reg) (b : Reg)
  /-- AXOR (R369): Atomic xor. -/
  | axor (o : AOrd) (w : AWidth) (d : Reg) (a : Reg) (b : Reg)
  /-- AMIN_SIGNED (R369): Atomic signed minimum. -/
  | aminSigned (o : AOrd) (w : AWidth) (d : Reg) (a : Reg) (b : Reg)
  /-- AMAX_SIGNED (R369): Atomic signed maximum. -/
  | amaxSigned (o : AOrd) (w : AWidth) (d : Reg) (a : Reg) (b : Reg)
  /-- AMIN_UNSIGNED (R369): Atomic unsigned minimum. -/
  | aminUnsigned (o : AOrd) (w : AWidth) (d : Reg) (a : Reg) (b : Reg)
  /-- AMAX_UNSIGNED (R369): Atomic unsigned maximum. -/
  | amaxUnsigned (o : AOrd) (w : AWidth) (d : Reg) (a : Reg) (b : Reg)
  /-- ASWAP (R369): Atomic swap. -/
  | aswap (o : AOrd) (w : AWidth) (d : Reg) (a : Reg) (b : Reg)
  /-- ACAS (R369): Atomic compare-and-swap with Gd as compare value. -/
  | acas (o : AOrd) (w : AWidth) (d : Reg) (a : Reg) (b : Reg)
  /-- ACASW (R370): 128-bit atomic compare-and-swap on register pairs. -/
  | acasw (o : AOrd) (d : Reg) (a : Reg) (b : Reg)
  /-- ASWAPW (R370): 128-bit atomic swap. -/
  | aswapw (o : AOrd) (d : Reg) (a : Reg) (b : Reg)
  /-- AFADD_F32 (R370): Atomic FP32 add returning the old value. -/
  | afaddF32 (o : AOrd) (d : Reg) (a : Reg) (b : Reg)
  /-- AFADD_BF16 (R370): Atomic BF16 add returning the old value. -/
  | afaddBf16 (o : AOrd) (d : Reg) (a : Reg) (b : Reg)
  /-- VAFADD_F32 (R370): Lane-wise atomic FP32 add at lane addresses. -/
  | vafaddF32 (o : AOrd) (d : Reg) (a : Reg) (b : Reg)
  /-- VAADD_Z32 (R370): Lane-wise atomic 32-bit integer add at lane addresses. -/
  | vaaddZ32 (o : AOrd) (d : Reg) (a : Reg) (b : Reg)
  /-- FENCE_ACQ (R372): Acquire fence at the encoded scope. -/
  | fenceAcq (sc : Scope)
  /-- FENCE_REL (R372): Release fence at the encoded scope. -/
  | fenceRel (sc : Scope)
  /-- FENCE (R372): Full fence at the encoded scope, with the waits of R191 at FABRIC. -/
  | fence (sc : Scope)
  /-- BELLA (R376): Arrives at a bell as a release, completing its generation when all members arrived. -/
  | bella (a : Reg)
  /-- BELLW (R377): Waits for the bell's generation to complete, ending as an acquire. -/
  | bellw (a : Reg)
  /-- BELLM (R375): Sets a bell's membership and owner, or raises BELL_BUSY. -/
  | bellm (a : Reg) (b : Reg)
  /-- ROLLI (R380): Arms a roll with the expected bytes. -/
  | rolli (a : Reg) (b : Reg)
  /-- ROLLA (R380): Adds arriving bytes to a roll as a release, completing its phase at the expected count. -/
  | rolla (a : Reg) (b : Reg)
  /-- ROLLW (R381): Waits while the roll is armed, returns its code word and takes a non-zero code as an engine fault. -/
  | rollw (d : Reg) (a : Reg)
  /-- STSLIP (R383): Stores Gb and returns a slip for it in Gd. -/
  | stslip (d : Reg) (a : Reg) (b : Reg)
  /-- STWAIT1 (R384): Stores Gb carrying one slip, held until it lands. -/
  | stwait1 (d : Reg) (a : Reg) (b : Reg)
  /-- STWAIT2 (R384): Stores Gb carrying two slips. -/
  | stwait2 (d : Reg) (a : Reg) (b : Reg)
  /-- LKREQ (R385): Requests a lock in the encoded mode, waiting or parking until granted. -/
  | lkreq (m : LockMode) (a : Reg)
  /-- LKTRY (R385): Tries a lock, returning 1 when granted and 0 when BUSY. -/
  | lktry (m : LockMode) (d : Reg) (a : Reg)
  /-- LKREL (R385): Releases a lock as a release at PKG scope. -/
  | lkrel (a : Reg)
  /-- CPIN (R387): Sets an L2 range register to a retain range. -/
  | cpin (n : KReg) (a : Reg) (b : Reg)
  /-- CEVF (R387): Sets an L2 range register to an evict-first range. -/
  | cevf (n : KReg) (a : Reg) (b : Reg)
  /-- CUNPIN (R387): Invalidates an L2 range register, making its lines normal. -/
  | cunpin (n : KReg)
  /-- CFLUSH (R388): Writes back dirty L2 lines of a range in the background. -/
  | cflush (a : Reg) (b : Reg)
  /-- CINV (R388): Writes back and evicts L2 lines of a range and invalidates L1 copies. -/
  | cinv (a : Reg) (b : Reg)
  /-- PREF (R388): Prefetches a line into L2 and, where allowed, L1. -/
  | pref (a : Reg) (i : Imm 5)
  /-- MMA (R394): Multiplies a 96-row A block by a 96-column B block into a tile over 64 cycles. -/
  | mma (d : ZReg) (a : Reg) (b : Reg)
  /-- MMAG (R396): MMA gated by a mask that skips B rows. -/
  | mmag (d : ZReg) (a : Reg) (b : Reg)
  /-- MMAB (R397): MMA whose equal B operand is read once for a tandem group. -/
  | mmab (d : ZReg) (a : Reg) (b : Reg)
  /-- ZCLR (R400): Clears an owned tile to +0 once not busy. -/
  | zclr (d : ZReg)
  /-- ZLD (R400): Loads a tile from 36,864 bytes of memory. -/
  | zld (d : ZReg) (a : Reg)
  /-- ZST (R400): Stores a tile to memory once not busy. -/
  | zst (d : ZReg) (a : Reg)
  /-- ZRD (R401): Reads one row or half-row of a tile into Vd. -/
  | zrd (d : Reg) (a : ZReg) (b : Reg)
  /-- ZGET (R399): Allocates a free tile to the task and clears it. -/
  | zget (d : ZReg)
  /-- ZPUT (R399): Releases an owned tile once not busy. -/
  | zput (d : ZReg)
  /-- SCLD (R398): Loads the SB register's 96 column scales. -/
  | scld (a : Reg)
  /-- TGEMM (R403): Runs a chain of MMA steps into one tile from a parameter block. -/
  | tgemm (a : Reg)
  /-- CPY (R408): Issues a copy engine command, optionally with a slip. -/
  | cpy (a : Reg) (b : Reg)
  /-- CPYM (R410): Issues a masked row copy command. -/
  | cpym (a : Reg) (b : Reg)
  /-- IRR (R411): Issues an indexed remote read of scratchpad elements. -/
  | irr (a : Reg) (b : Reg)
  /-- EMBG (R412): Issues an embedding gather that probes and pools bags exactly. -/
  | embg (a : Reg) (b : Reg)
  /-- EMBU (R412): Issues an embedding scatter-update with an optimiser step. -/
  | embu (a : Reg) (b : Reg)
  /-- A2A (R413): Issues an all-to-all pooling over a sharded table. -/
  | a2a (a : Reg) (b : Reg)
  /-- COLL (R414): Issues a fabric collective among member chips. -/
  | coll (a : Reg) (b : Reg)
  /-- HCFG (R416): Loads a projection slot of a front end. -/
  | hcfg (a : Reg) (b : Reg)
  /-- HKST (R261): Stores a key and value row and links the token into its houses. -/
  | hkst (a : Reg) (b : Reg)
  /-- HGTH (R263): Gathers the tokens that share a house with a query, or falls back. -/
  | hgth (a : Reg) (b : Reg)
  /-- TTLOAD (R417): Loads the inactive timetable bank of a router output. -/
  | ttload (a : Reg) (b : Reg)
  /-- NOP (R273): Does nothing and counts as an instruction slot. -/
  | nop
  /-- RET (R308): Branches to the address in G31. -/
  | ret
  /-- MARK (R318): Makes its bundle a marked point. -/
  | mark
  /-- YIELD (R318): Releases the sequencer by cooperative save at a yield point. -/
  | yield
  /-- END (R319): After remote and Invigilator work drains, commits, releases locks and tiles and ends the task. -/
  | endTask
  /-- TRAPRET (R321): Applies pending writes, restores the trap shadow and resumes at TRAPPC. -/
  | trapret
  /-- TRAPRST (R321): Restarts the task from trap mode under R168. -/
  | traprst
  /-- COMMIT (R322): Runs the commit sequence in a versioned task. -/
  | commit
  /-- CLRFEL (R323): Clears the first-event log. -/
  | clrfel
  /-- TANDEM (R324): Arrives at the cluster's tandem group and waits for it to form. -/
  | tandem
  /-- DECOUPLE (R325): Ends a tandem group in lock-step. -/
  | decouple
  /-- REJOIN (R325): Waits until every tandem task of the last group has issued REJOIN or ended. -/
  | rejoin
  /-- REGISTER_WRITE (R7): A write to a register that has no row of its own sets its fields as their Access codes give, ignoring reserved bits. -/
  | registerWrite
  /-- PACKAGE_REQUEST (R13): A request crossing the package network arrives at its home die and is accepted into the tracker of its source class or refused. -/
  | packageRequest
  /-- REQUEST_RETRY (R14): A source port retries a refused request 32 cycles after the refusal. -/
  | requestRetry
  /-- TRACKER_ENTRY_FREE (R14): A tracker entry frees, and with tickets queued the home holds it for the oldest ticket and notifies its port. -/
  | trackerEntryFree
  /-- TICKET_NOTICE_RESEND (R15): With a held entry unclaimed 1,024 cycles after the notice, the home sends the notice again and keeps holding the entry. -/
  | ticketNoticeResend
  /-- TICKET_CLAIM (R15): A source port claims its held tracker entry with its ticketed request, or with a null request that frees the entry at once. -/
  | ticketClaim
  /-- SOURCE_PORT_RESET (R15): The reset of a source port withdraws all its tickets from every ticket queue and lets its held entries lapse. -/
  | sourcePortReset
  /-- PROCTOR_BOOT (R16): The Proctor leaves reset, runs its boot ROM, tests its key store, reads the fuses and releases the boot block of H0. -/
  | proctorBoot
  /-- WELOM_LINK_TRAINED (R17): The boot block of H0 completes training of the Welom Link, after which the Proctor verifies the manifest. -/
  | welomLinkTrained
  /-- MANIFEST_VERIFY (R17): The Proctor completes verification of the signed firmware manifest and either proceeds or fails start-up with MANIFEST_BAD. -/
  | manifestVerify
  /-- DIE_MEASURE_RELEASE (R17): The Proctor completes measuring a die against its manifest digest, loads its slot-0 key and releases it, or fails start-up naming the die. -/
  | dieMeasureRelease
  /-- DEVICE_READY (R17): After the last pannier is released, the Coachman on H0 reports the device READY. -/
  | deviceReady
  /-- POWER_UP (R19): The module's power coming up performs a full reset of every die, zeroising every key. -/
  | powerUp
  /-- MRSTN_ASSERT (R19): The host holding MRSTN low for at least 1 ms performs a full reset of the module. -/
  | mrstnAssert
  /-- MODRST_GO (R19): A write of GO with KEY 0xA5 to MODRST drives the module reset line low for 10 ms and starts a full reset. -/
  | modrstGo
  /-- GET_VERSION (R20): The Proctor answers the SPDM GET_VERSION request. -/
  | getVersion
  /-- GET_CAPABILITIES (R20): The Proctor answers the SPDM GET_CAPABILITIES request. -/
  | getCapabilities
  /-- NEGOTIATE_ALGORITHMS (R20): The Proctor answers the SPDM NEGOTIATE_ALGORITHMS request with its supported algorithms. -/
  | negotiateAlgorithms
  /-- GET_DIGESTS (R20): The Proctor answers the SPDM GET_DIGESTS request for its certificate slots. -/
  | getDigests
  /-- GET_CERTIFICATE (R20): The Proctor returns a certificate of slot 0 or 1. -/
  | getCertificate
  /-- CHALLENGE (R20): The Proctor answers the SPDM CHALLENGE request. -/
  | challenge
  /-- GET_MEASUREMENTS (R20): The Proctor returns measurement blocks 1 to 17. -/
  | getMeasurements
  /-- KEY_EXCHANGE (R20): The Proctor performs the ECDHE key exchange that opens an SPDM session. -/
  | keyExchange
  /-- FINISH (R20): The Proctor completes the SPDM session handshake. -/
  | finish
  /-- HEARTBEAT (R20): The Proctor answers an SPDM HEARTBEAT in a session. -/
  | heartbeat
  /-- KEY_UPDATE (R20): The Proctor updates the session keys of an SPDM session. -/
  | keyUpdate
  /-- END_SESSION (R20): The Proctor ends an SPDM session. -/
  | endSession
  /-- CHUNK_SEND (R20): The Proctor receives one chunk of a long SPDM message. -/
  | chunkSend
  /-- CHUNK_GET (R20): The Proctor returns one chunk of a long SPDM response. -/
  | chunkGet
  /-- ALARM_RAISE (R25): A vendor-defined request in a session raises the alarm level of an event, refusing lowering and bad fields with a status. -/
  | alarmRaise
  /-- SPDM_UNSUPPORTED_REQUEST (R20): The Proctor answers an unsupported SPDM or unrecognised vendor-defined request with ERROR UnsupportedRequest. -/
  | spdmUnsupportedRequest
  /-- KEY_LOAD_CONFIRM (R21): A memory or CXL controller confirms a key load over the sideband. -/
  | keyLoadConfirm
  /-- KEY_LOAD_TIMEOUT (R21): A key load not confirmed within 100 µs is sent again, at most twice, and then fails the start-up step or the context creation. -/
  | keyLoadTimeout
  /-- KEY_ZEROISE_CONFIRM (R22): A controller confirms zeroisation of a destroyed context's slot, and after all confirmations the destruction completes. -/
  | keyZeroiseConfirm
  /-- SENSOR_EXCURSION_START (R23): A supply, clock or temperature sensor leaves its window, starting the 1 µs duration condition. -/
  | sensorExcursionStart
  /-- SENSOR_EXCURSION_PERSIST (R23): An excursion that lasts 1 µs becomes event 0 to 3 and acts at its alarm level. -/
  | sensorExcursionPersist
  /-- SENSOR_EXCURSION_CLEAR (R23): An excursion that clears by itself in under 1 µs is event 6 and acts at its level. -/
  | sensorExcursionClear
  /-- TAMPER_MESH_OPEN (R23): Opening the package tamper mesh raises event 4 at its level, erase by fuse. -/
  | tamperMeshOpen
  /-- DEBUG_PORT_OPEN (R23): Opening the debug port without an authorised token, or a third failed attempt, raises event 5. -/
  | debugPortOpen
  /-- DIE_QUIET (R26): A compute die with no matrix, vector-pipe or HBM4E activity for 256 cycles becomes quiet. -/
  | dieQuiet
  /-- DIE_WAKE_START (R26): The first matrix or vector bundle on a quiet die starts the die's wake, no earlier than 32 cycles after the previous die's. -/
  | dieWakeStart
  /-- CLUSTER_WAKE (R26): Cluster k of a waking die becomes able to issue matrix and vector bundles 8k cycles after the wake starts. -/
  | clusterWake
  /-- POWER_WINDOW_END (R29): At the end of each 100 µs window the power manager moves the clock cap point down, up, or to the TOPPOINT limit. -/
  | powerWindowEnd
  /-- THERMAL_FLOOR_ENTER (R29): A junction temperature above 105 °C forces cap point 6 and sets THERM. -/
  | thermalFloorEnter
  /-- THERMAL_FLOOR_EXIT (R29): The temperature falling below 100 °C releases the forced thermal floor. -/
  | thermalFloorExit
  /-- CLOCK_CHANGE_PAUSE_END (R30): The 256-cycle issue pause after a change of cap point ends. -/
  | clockChangePauseEnd
  /-- PWRCTL_WRITE (R31): A write of PWRCTL sets TOPPOINT, which takes effect at the end of the current window when it forbids the current point. -/
  | pwrctlWrite
  /-- FLIT_RECEIVE (R34): A receiver checks a flit's LCRC and CHECK, discarding failures with their packet or delivering the beat poisoned. -/
  | flitReceive
  /-- LINK_PACKET_RECEIVE (R38): A receiver accepts a packet whose PSEQ is next, counts duplicates, sends a NACK for a gap, and frees replay entries by ACKSEQ. -/
  | linkPacketReceive
  /-- NACK (R39): A NACK link control flit makes the sender replay from the packet after the named PSEQ. -/
  | nack
  /-- REPLAY_TIMEOUT (R39): After 4,096 flit times with unacknowledged packets and no change of ACKSEQ, the sender replays. -/
  | replayTimeout
  /-- LANE_LOSS_OF_LOCK (R40): A lane in use loses lock, starting its retirement within 256 flit times. -/
  | laneLossOfLock
  /-- LANE_RETIRE (R40): A lane is retired and the detecting end starts the retrain by sending RETRAIN flits. -/
  | laneRetire
  /-- LANE_SYMBOL_RATE_EXPIRY (R40): A lane whose corrected-symbol rate stays above threshold for 1 µs is retired. -/
  | laneSymbolRateExpiry
  /-- RETRAIN (R41): A RETRAIN link control flit makes the other end stop new packets, merge the mask, answer and enter STATE 3. -/
  | retrain
  /-- RETRAIN_ANSWER_TIMEOUT (R41): A RETRAIN not answered within 2 µs takes the link down. -/
  | retrainAnswerTimeout
  /-- EQUALISATION_DONE (R41): Equalisation on the chosen lane group completes, and each end sends RESUME and updates LSTAT, or the link goes down on failure. -/
  | equalisationDone
  /-- RESUME (R41): A RESUME link control flit makes the end replay from the peer's last accepted PSEQ and resume new traffic. -/
  | resume
  /-- LINK_TRAINED (R428): A link trains from the down state with empty replay buffers, measures DELAY and teaches each requester the FilterEpoch. -/
  | linkTrained
  /-- RESYNC_SEND (R43): After every 65,536 best-effort flits the sender sends a RESYNC flit carrying its Sent counts. -/
  | resyncSend
  /-- RESYNC (R43): A receiver of RESYNC adds any difference to its freed count and increments RESYNCFIX. -/
  | resync
  /-- FABID_WRITE (R44): A write of FABID sets the chip identifier and domain only while every fabric port is down. -/
  | fabidWrite
  /-- ROUTE_WRITE (R44): A write of a route entry sets its candidates, ignored as a whole when a used candidate names a port above 17. -/
  | routeWrite
  /-- FCTXMAP_WRITE (R44): A write of an FCTXMAP entry maps a fabric context to a local context for requests arriving after it. -/
  | fctxmapWrite
  /-- FWD_CACHE_FLUSH (R44): A write of FLUSH in FWDCTL starts emptying the hub's forward cache and sets BUSY. -/
  | fwdCacheFlush
  /-- FWD_CACHE_FLUSH_DONE (R44): The forward cache flush completes and BUSY clears. -/
  | fwdCacheFlushDone
  /-- REMTO_EXPIRY (R45): A remote request with no reply for REMTO cycles is reissued with RETRY, and after four reissues raises REMOTE_TIMEOUT. -/
  | remtoExpiry
  /-- READ_REQUEST (R45): A read request arrives at the target hub and is filtered, translated and performed or answered with status or forward. -/
  | readRequest
  /-- READ_REPLY (R45): A read reply returns remote load data, possibly poisoned, to the requester. -/
  | readReply
  /-- WRITE (R54): A write packet arrives at the target, performed at once or put in the hold queue when it carries slips. -/
  | writePacket
  /-- WRITE_ACKNOWLEDGEMENT (R51): A write acknowledgement completes a remote store and moves its slip entry from PENDING to LANDED with landed notices. -/
  | writeAcknowledgement
  /-- ATOMIC_REQUEST (R45): An atomic request arrives at the target and is filtered, translated and performed at its atomic place. -/
  | atomicRequest
  /-- ATOMIC_REPLY (R45): An atomic reply returns the old value to the requester. -/
  | atomicReply
  /-- FORWARDING_REPLY (R46): A forwarding reply parks the task, records the new home in the forward cache and reissues the access there. -/
  | forwardingReply
  /-- STATUS_REPLY (R36): A status reply of DENIED, INDETERMINATE, HOLD_FULL, UNMAPPED or SLIP_DROPPED ends or retries a remote request with its fault. -/
  | statusReply
  /-- SLIP_QUERY (R51): A slip query is answered landed, registered or expired from the slip table entry and its EXPMAP. -/
  | slipQuery
  /-- SLIP_ANSWER (R54): A slip answer releases a held write when all its slips have landed, or drops it when one expired. -/
  | slipAnswer
  /-- LANDED_NOTICE (R54): A landed or expired notice settles the held writes that carry that slip. -/
  | landedNotice
  /-- COLLECTIVE_DATA (R56): Collective data for an open collective is taken by a member, or discarded for a completed one. -/
  | collectiveData
  /-- COLLECTIVE_ABORT_FRAME (R56): An abort frame stops an open collective, is sent on once to every member and completes it ABORTED with a dirty range. -/
  | collectiveAbortFrame
  /-- CIRCUIT_DATA (R47): A circuit flit crosses an output in its assigned timetable slot without arbitration or buffer slot. -/
  | circuitData
  /-- TIMETABLE_BANK_WRITE (R48): The driver writes the inactive timetable bank of a router, refused as a whole with TT_CONFLICT on a bad entry. -/
  | timetableBankWrite
  /-- TIMETABLE_BANK_SWITCH (R48): A loaded timetable bank becomes active at the next slot 0 at or after its switch slot. -/
  | timetableBankSwitch
  /-- SLIP_ENTRY_FREE (R51): A LANDED or EXPIRED slip entry becomes FREE 2^20 cycles after it left PENDING. -/
  | slipEntryFree
  /-- HOLD_LIMIT_EXPIRY (R54): A held write still waiting HOLDLIM cycles after entering the queue is dropped with SLIP_DROPPED. -/
  | holdLimitExpiry
  /-- HOLD_FULL_RETRY (R55): A write refused with HOLD_FULL is retried after 4,096 cycles and ticketed at the second refusal. -/
  | holdFullRetry
  /-- COLLECTIVE_LIMIT_TIMEOUT (R56): A member that receives neither data nor an abort frame within the limit completes the collective with TIMEOUT. -/
  | collectiveLimitTimeout
  /-- CXL_ENUMERATION (R58): CXL ports enumerate attached devices, disabling Type 1 and Type 2 devices with an event. -/
  | cxlEnumeration
  /-- GIRTH_CHECK (R60): Every 10 µs each hub checks the other hub and compute dies, and a partition is settled by the Proctor. -/
  | girthCheck
  /-- ADAPTER_UNSUPPORTED_ACCESS (R61): The adapter completes a BAR0 access of the wrong width or alignment with Unsupported Request. -/
  | adapterUnsupportedAccess
  /-- APERTURE_READ (R63): A BAR2 read is performed as an acquire at PKG scope through APCTL, or returns all ones on failure with an event. -/
  | apertureRead
  /-- APERTURE_WRITE (R63): A BAR2 write is performed in order as a release at PKG scope, or dropped on failure with an event. -/
  | apertureWrite
  /-- APERTURE_ATOMIC (R155): A PCIe AtomicOp through BAR2 is performed at the page's HOME or SYSTEM place. -/
  | apertureAtomic
  /-- MAILBOX_GO (R66): A write of GO in MBCTL sends the request in MBIN to the Proctor and sets BUSY, or sets DONE at once for a bad LEN. -/
  | mailboxGo
  /-- CONTEXT_CREATE (R69): CREATE on a FREE context checks the ASID, loads its key pair and invalidates its TLB entries, ending LIVE or back at FREE. -/
  | contextCreate
  /-- CONTEXT_DESTROY (R70): DESTROY on a LIVE context kills its cards and launches, stops engines, invalidates caches and zeroises its key before it becomes FREE. -/
  | contextDestroy
  /-- QUEUE_ENABLE (R71): ENABLE written from 0 to 1 resets the queue indices, or is refused with CTXBUSY or BADBASE. -/
  | queueEnable
  /-- JOB_CARD_LAUNCH (R81): The Coachman reads a KIND 1 card, checks it, its image and its geometry, and creates a launch or completes it with a status. -/
  | jobCardLaunch
  /-- JOB_CARD_DRIVE (R85): The Coachman reads a KIND 2 card, checks it and queues the drive program for a runner. -/
  | jobCardDrive
  /-- JOB_CARD_NULL (R75): The Coachman reads a KIND 3 card, which completes DONE once its dependences are met. -/
  | jobCardNull
  /-- JOB_CARD_INVALID (R75): A card with an invalid KIND or other failed check completes BAD_CARD and runs nothing. -/
  | jobCardInvalid
  /-- CARD_COMPLETE (R77): Once a card's work has ended and its writes are visible, the Coachman writes the completion record, increments QDONE and raises IRQV. -/
  | cardComplete
  /-- DBIND_WRITE (R86): A write of DBIND binds a drive slot to an engine, or is refused with BINDBAD for a combination outside the table. -/
  | dbindWrite
  /-- DRIVE_PROGRAM_START (R85): A free runner starts a drive program, latching its registers and validating every word, completing BAD_DRIVE on failure. -/
  | driveProgramStart
  /-- DRIVE_PERIOD (R420): A runner starts the period of a drive word, sending its live slots, sampling BRANCH or WAIT bits and ending the program at HALT or timeout. -/
  | drivePeriod
  /-- DRIVE_COMMAND_ARRIVE (R88): A drive command reaches its engine at cycle A and takes effect as if a core had issued it, or ends the program with DRIVE_OVERRUN. -/
  | driveCommandArrive
  /-- LNCH (R418): A drive command to the launch unit creates a launch from the job card in its parameter block and writes LSTAT. -/
  | lnch
  /-- PRIORITY_RECOMPUTE (R98): Within 64 cycles of an edge being met or a launch created, the launch unit recomputes effective priorities along waiting chains. -/
  | priorityRecompute
  /-- LAUNCH_RELEASE (R99): An eligible launch whose context has enough free frames is released, reserving one frame per task. -/
  | launchRelease
  /-- TASK_CREATE (R99): The launch unit creates one task of a released launch per cycle in TID order. -/
  | taskCreate
  /-- TASK_BIND (R101): A cluster dispatcher binds one waiting task to a free sequencer, allocating its scratchpad at first bind. -/
  | taskBind
  /-- BIND_COMPLETE (R103): A binding sequencer finishes loading the task's state after 8, 32 or the frame-read time and becomes ACTIVE. -/
  | bindComplete
  /-- AGE_LIMIT (R105): A ready sequencer that has not issued for AGE cycles raises its current priority by one. -/
  | ageLimit
  /-- STALL_ENTRY_COMPLETE (R108): A task's 32-cycle entry into a stall completes, freeing the sequencer. -/
  | stallEntryComplete
  /-- WAIT_EVICTION (R109): A task waiting on its sequencer for 2,048 cycles while another task waits to bind is moved to its frame. -/
  | waitEviction
  /-- MARK_GAP (R111): In a checked launch, a count of MARKGAP bound cycles without a marked point raises MARK_GAP. -/
  | markGap
  /-- PREEMPT_HOLD_WRITE (R112): Setting HOLD in PREEMPT sends a pre-emption request to every bound task of the context and stops binding. -/
  | preemptHoldWrite
  /-- BIND_WAIT_PREEMPT (R112): A task that has waited 1,024 cycles to bind against lower-priority holders sends a pre-emption request to the youngest of them. -/
  | bindWaitPreempt
  /-- FORCED_SAVE (R113): A task with a pre-emption request that reaches no yield point within PDL cycles is force-saved to its frame. -/
  | forcedSave
  /-- FRAME_SAVE_COMPLETE (R122): A task's state has been written to its frame and its sequencer becomes FREE. -/
  | frameSaveComplete
  /-- FRAME_AREA_WRITE (R106): A write of FRBASE or FRCNT sets the frame area, ignored with WRIGN while launches exist or outside HBM4E. -/
  | frameAreaWrite
  /-- TANDEM_GROUP_FORM (R324): When eight tandem arrivals of one launch are bound on a cluster's cores, the group enters lock-step. -/
  | tandemGroupForm
  /-- ISSUE_BUNDLE (R104): A core issues one bundle from its highest-priority ready sequencer, taking queued deferred faults and bundle-level checks first. -/
  | issueBundle
  /-- DEFERRED_FAULT_ARRIVE (R161): A deferred or engine fault enters the task's queue of 8, ending most waits, or is discarded with OVFL when the queue is full. -/
  | deferredFaultArrive
  /-- LOAD_DATA_ARRIVE (R132): Data of an interlocked load or stream result arrives and becomes readable, releasing bundles that wait for it. -/
  | loadDataArrive
  /-- MMA_COMPLETE (R137): An MMA writes its tile after 64 cycles, clears the busy bit, releases its range comparators and records FEL events. -/
  | mmaComplete
  /-- SPCFG_WRITE (R139): A write of SPCFG changes every core's scratchpad split only when no task of any context is bound, otherwise setting SPBUSY. -/
  | spcfgWrite
  /-- PAGE_WALK_COMPLETE (R150): A page walk delivers its outcome to every waiting miss, placing a translation or raising a fault. -/
  | pageWalkComplete
  /-- PAGE_RESOLVE (R154): Writing 1 to PFENT.VALID reports the page resolved, so every waiter translates again. -/
  | pageResolve
  /-- TLBINV_WRITE (R152): A write of TLBINV starts invalidation of the named pages and sets BUSY, or is ignored with WRIGN while busy. -/
  | tlbinvWrite
  /-- TLB_INVALIDATE_COMPLETE (R152): The invalidation completes once no TLB holds the old translation, pins are released and old accesses are visible, and BUSY clears. -/
  | tlbInvalidateComplete
  /-- HOTBASE_WRITE (R156): A write of HOTBASE sets the snapshot area, ignored with WRIGN outside HBM4E. -/
  | hotbaseWrite
  /-- WOUND (R235): A wound reaches a task and restarts it under R168 at the point its state allows. -/
  | wound
  /-- INVIGILATOR_CHECK (R176): The Invigilator checks an access in an armed window against the sector's shadow entry, reporting a race and updating the entry. -/
  | invigilatorCheck
  /-- IVB_WRITE (R174): A write of IVB arms or configures an Invigilator window, ignored with WRIGN while launches exist or the shadow lies outside HBM4E. -/
  | ivbWrite
  /-- RELEASE_SETTLED (R189): A die announces that a PKG or FABRIC release of it is settled, and every die records the count. -/
  | releaseSettled
  /-- STAMPED_MESSAGE_APPLY (R189): A release-carrying message is applied once every entry of its stamp has been heard settled. -/
  | stampedMessageApply
  /-- PREFECT_LOCK_REQUEST (R229): A lock request reaches its home Prefect and is granted, upgraded, queued with wound-wait, or refused for lack of entries. -/
  | prefectLockRequest
  /-- PREFECT_LOCK_TRY (R231): A try request is granted when it would be at once, and otherwise answers BUSY without queueing or wounding. -/
  | prefectLockTry
  /-- PREFECT_LOCK_RELEASE (R233): A release reaches the Prefect, removes the holder and runs the grant step on the object. -/
  | prefectLockRelease
  /-- LOCK_GRANT (R230): A grant reaches the waiting task's stall or frame, and the task joins its bind set. -/
  | lockGrant
  /-- LOCK_REFUSAL_RETRY (R237): A refused lock request is retried 32 cycles later and ticketed at its second refusal. -/
  | lockRefusalRetry
  /-- LKCOMPAT_WRITE (R225): A write of LKCOMPAT replaces the context's compatibility matrix, or is ignored with WRIGN or BAD. -/
  | lkcompatWrite
  /-- HOT_ROW_GROUP_ENABLE (R249): Setting EN of HRGA enables a hot-row group, zeroing its sketch and invalidating every way, or is refused with BAD. -/
  | hotRowGroupEnable
  /-- HOT_ROW_GROUP_FLUSH (R249): A write of FLUSH makes every way of the group invalid for later lookups. -/
  | hotRowGroupFlush
  /-- HOT_ROW_GROUP_READY (R249): An enable or flush of a hot-row group completes and BUSY clears. -/
  | hotRowGroupReady
  /-- HOT_ROW_FILL_COMPLETE (R250): The pannier's copy of a row is written into its slot and the way becomes VALID, or INVALID if the fill fails. -/
  | hotRowFillComplete
  /-- ENGINE_COMPLETE (R406): An engine operation ends, writing back its fields and adding ARRIVE to its roll, or completing the roll with its fault code. -/
  | engineComplete
  /-- STREAM_OPERATION_END (R349): A stream merge ends done, ORDER or FULL, setting status and recording SMADD events into FEL. -/
  | streamOperationEnd
  /-- TGEMM_STEP_COMPLETE (R403): One step of a TGEMM writes its tile after 64 cycles, and the last step clears the busy bit. -/
  | tgemmStepComplete
  /-- FULL_EMPTY_RETRY (R366): A full/empty access refused by a full waiting list is retried 32 cycles later and ticketed at its second refusal. -/
  | fullEmptyRetry
  /-- CACHE_MAINTENANCE_COMPLETE (R388): A background CFLUSH or CINV finishes acting on its range, releasing fences that wait for it. -/
  | cacheMaintenanceComplete
  /-- TILE_LOAD_COMPLETE (R400): The last byte of a ZLD arrives, the tile's busy bit clears and bundles waiting on the tile may issue. -/
  | tileLoadComplete
  /-- STORE_PERFORMED (R179): A store or atomic issued earlier reaches its home (L2 slice, SRAM, controller or host link) and is performed in the location's coherence order, merging partial beats. -/
  | storePerformed
  /-- ULTRA_ETHERNET_PACKET (R59): A packet arrives on an Ultra Ethernet port and is handled by the hub's Ultra Ethernet Transport for all-to-all and collective traffic. -/
  | ultraEthernetPacket
  /-- ULTRA_ETHERNET_PORT_STATE (R83): An Ultra Ethernet port comes up or goes down, changing FEAT word 0 bit UET. -/
  | ultraEthernetPortState
  /-- ADAPTER_ENDPOINT_RESET (R19): A PCIe reset of the Welom host adapter's endpoint resets the adapter and its link logic only, without a full reset of the module. -/
  | adapterEndpointReset
  deriving DecidableEq, Repr

end Sys2Proof
end

