-- ==== Sys2Proof/WellFormed.lean ====
section
/-! DEFINITION. Which instructions are well formed: exactly those that 11 R265, R269 and R271 to R281 assign
an encoding; an event is well formed, since what comes with it stands in the state. -/

namespace Sys2Proof

/-- A guard of K = 0 with GN = 1 is unassigned (11 R265). -/
def Guard.wf (g : Guard) : Bool := !(g.neg && g.k == 0)

/-- At most `n` literal slots (11 R267, R271). -/
def Imm.wf {w : Nat} (i : Imm w) (n : Nat) : Bool := decide (i.lits.length ≤ n)

/-- TY 0 to 2 (11 R276). -/
def Ty.isFp : Ty → Bool
  | .f32 | .bf16 | .f16 => true
  | _ => false

/-- TY 6, 8, 9, 11, 12, 13 (11 R276). -/
def Ty.isVInt : Ty → Bool
  | .s8 | .s16 | .s32 | .z8 | .z16 | .z32 => true
  | _ => false

/-- TY 6, 8, 9 (11 R276). -/
def Ty.isVAbs : Ty → Bool
  | .s8 | .s16 | .s32 => true
  | _ => false

/-- TY 0, 9, 13 (11 R276). -/
def Ty.isVCmp : Ty → Bool
  | .f32 | .s32 | .z32 => true
  | _ => false

/-- TY 0 to 9 and 11 to 13 (11 R277). -/
def Ty.isQuant : Ty → Bool
  | .f32 | .bf16 | .f16 | .e4m3 | .e5m2 | .d8 | .s8 | .i4 | .s16 | .s32 | .z8 | .z16 | .z32 => true
  | _ => false

/-- TY 0 to 2, 6, 8, 9, 11 to 13 (11 R277). -/
def Ty.isRed : Ty → Bool
  | .f32 | .bf16 | .f16 | .s8 | .s16 | .s32 | .z8 | .z16 | .z32 => true
  | _ => false

/-- TY 6 and 8 to 14 (11 R278). -/
def Ty.isMem : Ty → Bool
  | .s8 | .s16 | .s32 | .s64 | .z8 | .z16 | .z32 | .z64 => true
  | _ => false

/-- Every type but the 64-bit ones (11 R277). -/
def Ty.isCvt : Ty → Bool
  | .f32 | .bf16 | .f16 | .e4m3 | .e5m2 | .d8 | .s8 | .i4 | .s16 | .s32 | .z8 | .z16 | .z32 => true
  | _ => false

/-- The quantised types, TY 3 to 7 (11 R277). -/
def Ty.isDq : Ty → Bool
  | .e4m3 | .e5m2 | .d8 | .s8 | .i4 => true
  | _ => false

/-- The system register numbers of 05 R127; any other number is an unassigned encoding. -/
def sysRegAssigned (n : BitVec 10) : Bool :=
  let x := n.toNat
  decide (x ≤ 0x003) || (decide (0x008 ≤ x) && decide (x ≤ 0x00B)) || (decide (0x010 ≤ x) && decide (x ≤ 0x01A)) ||
  (decide (0x020 ≤ x) && decide (x ≤ 0x025)) || (decide (0x028 ≤ x) && decide (x ≤ 0x02D)) ||
  (decide (0x030 ≤ x) && decide (x ≤ 0x035)) || decide (x = 0x038) || (decide (0x040 ≤ x) && decide (x ≤ 0x04F)) ||
  (decide (0x060 ≤ x) && decide (x ≤ 0x063)) || (decide (0x070 ≤ x) && decide (x ≤ 0x075))

/-- Well-formed instructions and events. -/
def Instr.wf : Instr → Bool
  | .add _ _ _ => true
  | .sub _ _ _ => true
  | .and _ _ _ => true
  | .or _ _ _ => true
  | .xor _ _ _ => true
  | .andn _ _ _ => true
  | .shl _ _ _ => true
  | .shr _ _ _ => true
  | .sar _ _ _ => true
  | .ror _ _ _ => true
  | .minS64 _ _ _ => true
  | .maxS64 _ _ _ => true
  | .minZ64 _ _ _ => true
  | .maxZ64 _ _ _ => true
  | .addx2 _ _ _ => true
  | .addx4 _ _ _ => true
  | .addx8 _ _ _ => true
  | .addi _ _ i => i.wf 2
  | .andi _ _ i => i.wf 2
  | .ori _ _ i => i.wf 2
  | .xori _ _ i => i.wf 2
  | .shli _ _ i => i.wf 2
  | .shri _ _ i => i.wf 2
  | .sari _ _ i => i.wf 2
  | .rori _ _ i => i.wf 2
  | .movi _ i => i.wf 2
  | .adpc _ i => i.wf 2
  | .mul _ _ _ => true
  | .mulhS64 _ _ _ => true
  | .mulhZ64 _ _ _ => true
  | .divS64 _ _ _ => true
  | .divZ64 _ _ _ => true
  | .remS64 _ _ _ => true
  | .remZ64 _ _ _ => true
  | .bfxZ64 _ _ _ => true
  | .bfxS64 _ _ _ => true
  | .bfi _ _ _ => true
  | .clz _ _ => true
  | .ctz _ _ => true
  | .popc _ _ => true
  | .brev _ _ => true
  | .bswap _ _ => true
  | .cmpeq _ _ _ => true
  | .cmpne _ _ _ => true
  | .cmpltS64 _ _ _ => true
  | .cmpleS64 _ _ _ => true
  | .cmpltZ64 _ _ _ => true
  | .cmpleZ64 _ _ _ => true
  | .cmpeqi _ _ i => i.wf 2
  | .cmpnei _ _ i => i.wf 2
  | .cmpltiS64 _ _ i => i.wf 2
  | .cmpleiS64 _ _ i => i.wf 2
  | .cmpltiZ64 _ _ i => i.wf 2
  | .cmpleiZ64 _ _ i => i.wf 2
  | .kand _ _ _ => true
  | .kor _ _ _ => true
  | .kxor _ _ _ => true
  | .kandn _ _ _ => true
  | .knot _ _ => true
  | .kfromg _ _ => true
  | .gfromk _ _ => true
  | .cvtF32S64 _ _ _ => true
  | .cvtF32Z64 _ _ _ => true
  | .cvtS64F32 _ _ _ => true
  | .cvtZ64F32 _ _ _ => true
  | .br i => i.wf 1
  | .call i => i.wf 1
  | .jmp _ => true
  | .callr _ => true
  | .loop _ i => i.wf 1
  | .loopi _ i => i.wf 1
  | .lcnt _ n => decide (n.toNat ≤ 5)
  | .mfs _ n => sysRegAssigned n
  | .mts n _ => sysRegAssigned n
  | .feat _ _ => true
  | .setfmt _ => true
  | .setfmti _ => true
  | .trap _ => true
  | .trapretg _ => true
  | .vaddFp t _ _ _ => t.isFp
  | .vsubFp t _ _ _ => t.isFp
  | .vmulFp t _ _ _ => t.isFp
  | .vminFp t _ _ _ => t.isFp
  | .vmaxFp t _ _ _ => t.isFp
  | .vabsFp t _ _ => t.isFp
  | .vneg t _ _ => t.isFp
  | .vcpys t _ _ _ => t.isFp
  | .vfma t _ _ _ => t.isFp
  | .vfms t _ _ _ => t.isFp
  | .vfnma t _ _ _ => t.isFp
  | .vfnms t _ _ _ => t.isFp
  | .vaddInt t _ _ _ => t.isVInt
  | .vsubInt t _ _ _ => t.isVInt
  | .vminInt t _ _ _ => t.isVInt
  | .vmaxInt t _ _ _ => t.isVInt
  | .vadds t _ _ _ => t.isVInt
  | .vsubs t _ _ _ => t.isVInt
  | .vmulInt t _ _ _ => t.isVInt
  | .vabsInt t _ _ => t.isVAbs
  | .vcmpeq t _ _ _ => t.isVCmp
  | .vcmpne t _ _ _ => t.isVCmp
  | .vcmplt t _ _ _ => t.isVCmp
  | .vcmple t _ _ _ => t.isVCmp
  | .vcmpun _ _ _ => true
  | .vand _ _ _ => true
  | .vor _ _ _ => true
  | .vxor _ _ _ => true
  | .vandn _ _ _ => true
  | .vnot _ _ => true
  | .vshl _ _ _ => true
  | .vshr _ _ _ => true
  | .vsar _ _ _ => true
  | .vsel _ _ _ => true
  | .vmov _ _ => true
  | .vbcst _ _ => true
  | .vextr _ _ _ => true
  | .vinsr _ _ _ => true
  | .kpopc _ _ => true
  | .kfirst _ _ => true
  | .klast _ _ => true
  | .cvtVector t src _ _ _ => t.isCvt && src.isCvt && decide (t ≠ src)
  | .vqnt t _ _ _ => t.isQuant
  | .vdq out src _ _ b => out.isFp && src.isDq && decide (b.toNat % 2 = 0)
  | .vperm _ _ _ => true
  | .vrot _ _ _ => true
  | .vziplo _ _ _ => true
  | .vziphi _ _ _ => true
  | .vcomp _ _ => true
  | .vexpd _ _ => true
  | .viota _ => true
  | .vclmullo _ _ _ => true
  | .vclmulhi _ _ _ => true
  | .vrsum t _ _ => t.isRed
  | .vrmax t _ _ => t.isRed
  | .vrmin t _ _ => t.isRed
  | .vscsum t _ _ => t.isRed
  | .vscmax t _ _ => t.isRed
  | .vscmin t _ _ => t.isRed
  | .vdiv t _ _ _ => t.isFp
  | .vsqrt t _ _ => t.isFp
  | .vrcp t _ _ => t.isFp
  | .vrsqrt t _ _ => t.isFp
  | .vexp2 t _ _ => t.isFp
  | .vlog2 t _ _ => t.isFp
  | .vtanh t _ _ => t.isFp
  | .vsigm t _ _ => t.isFp
  | .sbind _ _ => true
  | .sint d a b => decide (d ≠ a) && decide (d ≠ b)
  | .suni d a b => decide (d ≠ a) && decide (d ≠ b)
  | .ssub d a b => decide (d ≠ a) && decide (d ≠ b)
  | .smadd d a b => decide (d ≠ a) && decide (d ≠ b)
  | .sdrain _ _ => true
  | .scnt _ _ => true
  | .sfree _ => true
  | .ld t _ _ i => i.wf 2 && t.isMem
  | .ldacq _ t _ _ i => i.wf 2 && t.isMem
  | .lds t _ _ i => i.wf 2 && t.isMem
  | .st t _ _ i => i.wf 2 && t.isMem
  | .strel _ t _ _ i => i.wf 2 && t.isMem
  | .sts t _ _ i => i.wf 2 && t.isMem
  | .vld _ _ i => i.wf 2
  | .vldacq _ _ _ i => i.wf 2
  | .vlds _ _ i => i.wf 2
  | .vst _ _ i => i.wf 2
  | .vstrel _ _ _ i => i.wf 2
  | .vsts _ _ i => i.wf 2
  | .fill _ _ i => i.wf 2
  | .take _ _ i => i.wf 2
  | .readf _ _ i => i.wf 2
  | .writef _ _ i => i.wf 2
  | .sete _ _ i => i.wf 2
  | .vgath _ _ _ => true
  | .vscat _ _ _ => true
  | .vgaths _ _ _ => true
  | .vscats _ _ _ => true
  | .vmcst _ _ _ => true
  | .vrdst _ _ _ => true
  | .aadd _ _ _ _ _ => true
  | .aand _ _ _ _ _ => true
  | .aor _ _ _ _ _ => true
  | .axor _ _ _ _ _ => true
  | .aminSigned _ _ _ _ _ => true
  | .amaxSigned _ _ _ _ _ => true
  | .aminUnsigned _ _ _ _ _ => true
  | .amaxUnsigned _ _ _ _ _ => true
  | .aswap _ _ _ _ _ => true
  | .acas _ _ _ _ _ => true
  | .acasw _ d _ b => decide (d.toNat % 2 = 0) && decide (b.toNat % 2 = 0)
  | .aswapw _ d _ b => decide (d.toNat % 2 = 0) && decide (b.toNat % 2 = 0)
  | .afaddF32 _ _ _ _ => true
  | .afaddBf16 _ _ _ _ => true
  | .vafaddF32 _ _ _ _ => true
  | .vaaddZ32 _ _ _ _ => true
  | .fenceAcq _ => true
  | .fenceRel _ => true
  | .fence _ => true
  | .bella _ => true
  | .bellw _ => true
  | .bellm _ _ => true
  | .rolli _ _ => true
  | .rolla _ _ => true
  | .rollw _ _ => true
  | .stslip _ _ _ => true
  | .stwait1 _ _ _ => true
  | .stwait2 _ _ _ => true
  | .lkreq _ _ => true
  | .lktry _ _ _ => true
  | .lkrel _ => true
  | .cpin _ _ _ => true
  | .cevf _ _ _ => true
  | .cunpin _ => true
  | .cflush _ _ => true
  | .cinv _ _ => true
  | .pref _ i => i.wf 2
  | .mma _ _ _ => true
  | .mmag _ _ _ => true
  | .mmab _ _ _ => true
  | .zclr _ => true
  | .zld _ _ => true
  | .zst _ _ => true
  | .zrd _ _ _ => true
  | .zget _ => true
  | .zput _ => true
  | .scld _ => true
  | .tgemm _ => true
  | .cpy _ _ => true
  | .cpym _ _ => true
  | .irr _ _ => true
  | .embg _ _ => true
  | .embu _ _ => true
  | .a2a _ _ => true
  | .coll _ _ => true
  | .hcfg _ _ => true
  | .hkst _ _ => true
  | .hgth _ _ => true
  | .ttload _ _ => true
  | .nop => true
  | .ret => true
  | .mark => true
  | .yield => true
  | .endTask => true
  | .trapret => true
  | .traprst => true
  | .commit => true
  | .clrfel => true
  | .tandem => true
  | .decouple => true
  | .rejoin => true
  | .registerWrite => true
  | .packageRequest => true
  | .requestRetry => true
  | .trackerEntryFree => true
  | .ticketNoticeResend => true
  | .ticketClaim => true
  | .sourcePortReset => true
  | .proctorBoot => true
  | .welomLinkTrained => true
  | .manifestVerify => true
  | .dieMeasureRelease => true
  | .deviceReady => true
  | .powerUp => true
  | .mrstnAssert => true
  | .modrstGo => true
  | .getVersion => true
  | .getCapabilities => true
  | .negotiateAlgorithms => true
  | .getDigests => true
  | .getCertificate => true
  | .challenge => true
  | .getMeasurements => true
  | .keyExchange => true
  | .finish => true
  | .heartbeat => true
  | .keyUpdate => true
  | .endSession => true
  | .chunkSend => true
  | .chunkGet => true
  | .alarmRaise => true
  | .spdmUnsupportedRequest => true
  | .keyLoadConfirm => true
  | .keyLoadTimeout => true
  | .keyZeroiseConfirm => true
  | .sensorExcursionStart => true
  | .sensorExcursionPersist => true
  | .sensorExcursionClear => true
  | .tamperMeshOpen => true
  | .debugPortOpen => true
  | .dieQuiet => true
  | .dieWakeStart => true
  | .clusterWake => true
  | .powerWindowEnd => true
  | .thermalFloorEnter => true
  | .thermalFloorExit => true
  | .clockChangePauseEnd => true
  | .pwrctlWrite => true
  | .flitReceive => true
  | .linkPacketReceive => true
  | .nack => true
  | .replayTimeout => true
  | .laneLossOfLock => true
  | .laneRetire => true
  | .laneSymbolRateExpiry => true
  | .retrain => true
  | .retrainAnswerTimeout => true
  | .equalisationDone => true
  | .resume => true
  | .linkTrained => true
  | .resyncSend => true
  | .resync => true
  | .fabidWrite => true
  | .routeWrite => true
  | .fctxmapWrite => true
  | .fwdCacheFlush => true
  | .fwdCacheFlushDone => true
  | .remtoExpiry => true
  | .readRequest => true
  | .readReply => true
  | .writePacket => true
  | .writeAcknowledgement => true
  | .atomicRequest => true
  | .atomicReply => true
  | .forwardingReply => true
  | .statusReply => true
  | .slipQuery => true
  | .slipAnswer => true
  | .landedNotice => true
  | .collectiveData => true
  | .collectiveAbortFrame => true
  | .circuitData => true
  | .timetableBankWrite => true
  | .timetableBankSwitch => true
  | .slipEntryFree => true
  | .holdLimitExpiry => true
  | .holdFullRetry => true
  | .collectiveLimitTimeout => true
  | .cxlEnumeration => true
  | .girthCheck => true
  | .adapterUnsupportedAccess => true
  | .apertureRead => true
  | .apertureWrite => true
  | .apertureAtomic => true
  | .mailboxGo => true
  | .contextCreate => true
  | .contextDestroy => true
  | .queueEnable => true
  | .jobCardLaunch => true
  | .jobCardDrive => true
  | .jobCardNull => true
  | .jobCardInvalid => true
  | .cardComplete => true
  | .dbindWrite => true
  | .driveProgramStart => true
  | .drivePeriod => true
  | .driveCommandArrive => true
  | .lnch => true
  | .priorityRecompute => true
  | .launchRelease => true
  | .taskCreate => true
  | .taskBind => true
  | .bindComplete => true
  | .ageLimit => true
  | .stallEntryComplete => true
  | .waitEviction => true
  | .markGap => true
  | .preemptHoldWrite => true
  | .bindWaitPreempt => true
  | .forcedSave => true
  | .frameSaveComplete => true
  | .frameAreaWrite => true
  | .tandemGroupForm => true
  | .issueBundle => true
  | .deferredFaultArrive => true
  | .loadDataArrive => true
  | .mmaComplete => true
  | .spcfgWrite => true
  | .pageWalkComplete => true
  | .pageResolve => true
  | .tlbinvWrite => true
  | .tlbInvalidateComplete => true
  | .hotbaseWrite => true
  | .wound => true
  | .invigilatorCheck => true
  | .ivbWrite => true
  | .releaseSettled => true
  | .stampedMessageApply => true
  | .prefectLockRequest => true
  | .prefectLockTry => true
  | .prefectLockRelease => true
  | .lockGrant => true
  | .lockRefusalRetry => true
  | .lkcompatWrite => true
  | .hotRowGroupEnable => true
  | .hotRowGroupFlush => true
  | .hotRowGroupReady => true
  | .hotRowFillComplete => true
  | .engineComplete => true
  | .streamOperationEnd => true
  | .tgemmStepComplete => true
  | .fullEmptyRetry => true
  | .cacheMaintenanceComplete => true
  | .tileLoadComplete => true
  | .storePerformed => true
  | .ultraEthernetPacket => true
  | .ultraEthernetPortState => true
  | .adapterEndpointReset => true

/-- The instruction is a slot of a bundle; the other constructors are events. -/
def Instr.isSlot : Instr → Bool
  | .nop  => true
  | .add _ _ _ => true
  | .sub _ _ _ => true
  | .and _ _ _ => true
  | .or _ _ _ => true
  | .xor _ _ _ => true
  | .andn _ _ _ => true
  | .shl _ _ _ => true
  | .shr _ _ _ => true
  | .sar _ _ _ => true
  | .ror _ _ _ => true
  | .minS64 _ _ _ => true
  | .maxS64 _ _ _ => true
  | .minZ64 _ _ _ => true
  | .maxZ64 _ _ _ => true
  | .addx2 _ _ _ => true
  | .addx4 _ _ _ => true
  | .addx8 _ _ _ => true
  | .addi _ _ _ => true
  | .andi _ _ _ => true
  | .ori _ _ _ => true
  | .xori _ _ _ => true
  | .shli _ _ _ => true
  | .shri _ _ _ => true
  | .sari _ _ _ => true
  | .rori _ _ _ => true
  | .movi _ _ => true
  | .adpc _ _ => true
  | .mul _ _ _ => true
  | .mulhS64 _ _ _ => true
  | .mulhZ64 _ _ _ => true
  | .divS64 _ _ _ => true
  | .divZ64 _ _ _ => true
  | .remS64 _ _ _ => true
  | .remZ64 _ _ _ => true
  | .bfxZ64 _ _ _ => true
  | .bfxS64 _ _ _ => true
  | .bfi _ _ _ => true
  | .clz _ _ => true
  | .ctz _ _ => true
  | .popc _ _ => true
  | .brev _ _ => true
  | .bswap _ _ => true
  | .cmpeq _ _ _ => true
  | .cmpne _ _ _ => true
  | .cmpltS64 _ _ _ => true
  | .cmpleS64 _ _ _ => true
  | .cmpltZ64 _ _ _ => true
  | .cmpleZ64 _ _ _ => true
  | .cmpeqi _ _ _ => true
  | .cmpnei _ _ _ => true
  | .cmpltiS64 _ _ _ => true
  | .cmpleiS64 _ _ _ => true
  | .cmpltiZ64 _ _ _ => true
  | .cmpleiZ64 _ _ _ => true
  | .kand _ _ _ => true
  | .kor _ _ _ => true
  | .kxor _ _ _ => true
  | .kandn _ _ _ => true
  | .knot _ _ => true
  | .kfromg _ _ => true
  | .gfromk _ _ => true
  | .cvtF32S64 _ _ _ => true
  | .cvtF32Z64 _ _ _ => true
  | .cvtS64F32 _ _ _ => true
  | .cvtZ64F32 _ _ _ => true
  | .br _ => true
  | .call _ => true
  | .jmp _ => true
  | .callr _ => true
  | .ret  => true
  | .loop _ _ => true
  | .loopi _ _ => true
  | .lcnt _ _ => true
  | .mfs _ _ => true
  | .mts _ _ => true
  | .feat _ _ => true
  | .setfmt _ => true
  | .setfmti _ => true
  | .mark  => true
  | .yield  => true
  | .endTask  => true
  | .trap _ => true
  | .trapret  => true
  | .trapretg _ => true
  | .traprst  => true
  | .commit  => true
  | .clrfel  => true
  | .tandem  => true
  | .decouple  => true
  | .rejoin  => true
  | .vaddFp _ _ _ _ => true
  | .vsubFp _ _ _ _ => true
  | .vmulFp _ _ _ _ => true
  | .vminFp _ _ _ _ => true
  | .vmaxFp _ _ _ _ => true
  | .vabsFp _ _ _ => true
  | .vneg _ _ _ => true
  | .vcpys _ _ _ _ => true
  | .vfma _ _ _ _ => true
  | .vfms _ _ _ _ => true
  | .vfnma _ _ _ _ => true
  | .vfnms _ _ _ _ => true
  | .vaddInt _ _ _ _ => true
  | .vsubInt _ _ _ _ => true
  | .vminInt _ _ _ _ => true
  | .vmaxInt _ _ _ _ => true
  | .vadds _ _ _ _ => true
  | .vsubs _ _ _ _ => true
  | .vmulInt _ _ _ _ => true
  | .vabsInt _ _ _ => true
  | .vcmpeq _ _ _ _ => true
  | .vcmpne _ _ _ _ => true
  | .vcmplt _ _ _ _ => true
  | .vcmple _ _ _ _ => true
  | .vcmpun _ _ _ => true
  | .vand _ _ _ => true
  | .vor _ _ _ => true
  | .vxor _ _ _ => true
  | .vandn _ _ _ => true
  | .vnot _ _ => true
  | .vshl _ _ _ => true
  | .vshr _ _ _ => true
  | .vsar _ _ _ => true
  | .vsel _ _ _ => true
  | .vmov _ _ => true
  | .vbcst _ _ => true
  | .vextr _ _ _ => true
  | .vinsr _ _ _ => true
  | .kpopc _ _ => true
  | .kfirst _ _ => true
  | .klast _ _ => true
  | .cvtVector _ _ _ _ _ => true
  | .vqnt _ _ _ _ => true
  | .vdq _ _ _ _ _ => true
  | .vperm _ _ _ => true
  | .vrot _ _ _ => true
  | .vziplo _ _ _ => true
  | .vziphi _ _ _ => true
  | .vcomp _ _ => true
  | .vexpd _ _ => true
  | .viota _ => true
  | .vclmullo _ _ _ => true
  | .vclmulhi _ _ _ => true
  | .vrsum _ _ _ => true
  | .vrmax _ _ _ => true
  | .vrmin _ _ _ => true
  | .vscsum _ _ _ => true
  | .vscmax _ _ _ => true
  | .vscmin _ _ _ => true
  | .vdiv _ _ _ _ => true
  | .vsqrt _ _ _ => true
  | .vrcp _ _ _ => true
  | .vrsqrt _ _ _ => true
  | .vexp2 _ _ _ => true
  | .vlog2 _ _ _ => true
  | .vtanh _ _ _ => true
  | .vsigm _ _ _ => true
  | .sbind _ _ => true
  | .sint _ _ _ => true
  | .suni _ _ _ => true
  | .ssub _ _ _ => true
  | .smadd _ _ _ => true
  | .sdrain _ _ => true
  | .scnt _ _ => true
  | .sfree _ => true
  | .ld _ _ _ _ => true
  | .ldacq _ _ _ _ _ => true
  | .lds _ _ _ _ => true
  | .st _ _ _ _ => true
  | .strel _ _ _ _ _ => true
  | .sts _ _ _ _ => true
  | .vld _ _ _ => true
  | .vldacq _ _ _ _ => true
  | .vlds _ _ _ => true
  | .vst _ _ _ => true
  | .vstrel _ _ _ _ => true
  | .vsts _ _ _ => true
  | .fill _ _ _ => true
  | .take _ _ _ => true
  | .readf _ _ _ => true
  | .writef _ _ _ => true
  | .sete _ _ _ => true
  | .vgath _ _ _ => true
  | .vscat _ _ _ => true
  | .vgaths _ _ _ => true
  | .vscats _ _ _ => true
  | .vmcst _ _ _ => true
  | .vrdst _ _ _ => true
  | .aadd _ _ _ _ _ => true
  | .aand _ _ _ _ _ => true
  | .aor _ _ _ _ _ => true
  | .axor _ _ _ _ _ => true
  | .aminSigned _ _ _ _ _ => true
  | .amaxSigned _ _ _ _ _ => true
  | .aminUnsigned _ _ _ _ _ => true
  | .amaxUnsigned _ _ _ _ _ => true
  | .aswap _ _ _ _ _ => true
  | .acas _ _ _ _ _ => true
  | .acasw _ _ _ _ => true
  | .aswapw _ _ _ _ => true
  | .afaddF32 _ _ _ _ => true
  | .afaddBf16 _ _ _ _ => true
  | .vafaddF32 _ _ _ _ => true
  | .vaaddZ32 _ _ _ _ => true
  | .fenceAcq _ => true
  | .fenceRel _ => true
  | .fence _ => true
  | .bella _ => true
  | .bellw _ => true
  | .bellm _ _ => true
  | .rolli _ _ => true
  | .rolla _ _ => true
  | .rollw _ _ => true
  | .stslip _ _ _ => true
  | .stwait1 _ _ _ => true
  | .stwait2 _ _ _ => true
  | .lkreq _ _ => true
  | .lktry _ _ _ => true
  | .lkrel _ => true
  | .cpin _ _ _ => true
  | .cevf _ _ _ => true
  | .cunpin _ => true
  | .cflush _ _ => true
  | .cinv _ _ => true
  | .pref _ _ => true
  | .mma _ _ _ => true
  | .mmag _ _ _ => true
  | .mmab _ _ _ => true
  | .zclr _ => true
  | .zld _ _ => true
  | .zst _ _ => true
  | .zrd _ _ _ => true
  | .zget _ => true
  | .zput _ => true
  | .scld _ => true
  | .tgemm _ => true
  | .cpy _ _ => true
  | .cpym _ _ => true
  | .irr _ _ => true
  | .embg _ _ => true
  | .embu _ _ => true
  | .a2a _ _ => true
  | .coll _ _ => true
  | .hcfg _ _ => true
  | .hkst _ _ => true
  | .hgth _ _ => true
  | .ttload _ _ => true
  | _ => false

end Sys2Proof
end

