-- ==== Sys2Proof/Decode.lean ====
section
/-! DEFINITION. From words to instructions and back (11 R264 to R281, R283), and the bundle structure
(R266 to R268). The decoder is total: an unassigned encoding is refused by name. -/

namespace Sys2Proof

/-- Type codes (11 R272). -/
def Ty.code : Ty → Nat
  | .f32 => 0
  | .bf16 => 1
  | .f16 => 2
  | .e4m3 => 3
  | .e5m2 => 4
  | .d8 => 5
  | .s8 => 6
  | .i4 => 7
  | .s16 => 8
  | .s32 => 9
  | .s64 => 10
  | .z8 => 11
  | .z16 => 12
  | .z32 => 13
  | .z64 => 14

/-- The type of a type code; 15 is reserved (11 R272). -/
def Ty.ofCode : Nat → Option Ty
  | 0 => some .f32
  | 1 => some .bf16
  | 2 => some .f16
  | 3 => some .e4m3
  | 4 => some .e5m2
  | 5 => some .d8
  | 6 => some .s8
  | 7 => some .i4
  | 8 => some .s16
  | 9 => some .s32
  | 10 => some .s64
  | 11 => some .z8
  | 12 => some .z16
  | 13 => some .z32
  | 14 => some .z64
  | _ => none

/-- Scope codes (07 R182). -/
def Scope.code : Scope → Nat
  | .seq => 0
  | .core => 1
  | .cluster => 2
  | .die => 3
  | .pkg => 4
  | .fabric => 5

/-- Codes 6 and 7 are reserved (11 R272). -/
def Scope.ofCode : Nat → Option Scope
  | 0 => some .seq
  | 1 => some .core
  | 2 => some .cluster
  | 3 => some .die
  | 4 => some .pkg
  | 5 => some .fabric
  | _ => none

/-- Rounding codes (11 R272). -/
def Rc.code : Rc → Nat
  | .fmt => 0
  | .rne => 1
  | .rtz => 2
  | .rup => 3
  | .rdn => 4
  | .rna => 5

/-- Codes 6 and 7 are reserved (11 R272). -/
def Rc.ofCode : Nat → Option Rc
  | 0 => some .fmt
  | 1 => some .rne
  | 2 => some .rtz
  | 3 => some .rup
  | 4 => some .rdn
  | 5 => some .rna
  | _ => none

/-- Lock mode codes (09 R224). -/
def LockMode.code : LockMode → Nat
  | .is => 0
  | .ix => 1
  | .s => 2
  | .inc => 3
  | .x => 4

/-- Codes 5 to 7 are reserved (09 R224). -/
def LockMode.ofCode : Nat → Option LockMode
  | 0 => some .is
  | 1 => some .ix
  | 2 => some .s
  | 3 => some .inc
  | 4 => some .x
  | _ => none

/-- W of a class 22 atomic (14 R368). -/
def AWidth.code : AWidth → Nat
 | .w32 => 0
 | .w64 => 1

/-- ORDER of an atomic (11 R279). -/
def AOrd.code : AOrd → Nat
  | .plain => 0
  | .acq _ => 1
  | .rel _ => 2
  | .ar _ => 3

/-- The scope literal of an ordered atomic (11 R279). -/
def AOrd.lits : AOrd → List (BitVec 26)
  | .plain => []
  | .acq s | .rel s | .ar s => [BitVec.ofNat 26 s.code]

/-- An atomic's ordering from ORDER and its literals: none without ordering, exactly one with it, whose upper bits are
zero (11 R279). -/
def AOrd.decode (order : Nat) (lits : List (BitVec 26)) : Option AOrd :=
  match order, lits with
  | 0, [] => some .plain
  | 1, [l] => (Scope.ofCode l.toNat).map .acq
  | 2, [l] => (Scope.ofCode l.toNat).map .rel
  | 3, [l] => (Scope.ofCode l.toNat).map .ar
  | _, _ => none

/-- A slot with its literals, field by field (11 R264). -/
structure RawSlot where
  cls : BitVec 5
  d : BitVec 5
  a : BitVec 5
  b : BitVec 5
  k : KReg
  gn : Bool
  op : BitVec 7
  lits : List (BitVec 26)
  deriving DecidableEq, Repr

/-- A field that names a K register holds 0 to 7 (11 R265). -/
def kField (x : BitVec 5) : Option KReg := if x.toNat < 8 then some (x.setWidth 3) else none

/-- A field that names a Z tile or an S register holds 0 to 3 (11 R265). -/
def zField (x : BitVec 5) : Option ZReg := if x.toNat < 4 then some (x.setWidth 2) else none

/-- The fields of a slot instruction under a guard; an event has none. A NOP has no guard (11 R273). -/
def Instr.toRaw (g : Guard) : Instr → Option RawSlot
  | .nop => some ⟨0, 0, 0, 0, 0, false, 0x00, []⟩
  | .add d a b => some ⟨1, d, a, b, g.k, g.neg, 0x00, []⟩
  | .sub d a b => some ⟨1, d, a, b, g.k, g.neg, 0x01, []⟩
  | .and d a b => some ⟨1, d, a, b, g.k, g.neg, 0x02, []⟩
  | .or d a b => some ⟨1, d, a, b, g.k, g.neg, 0x03, []⟩
  | .xor d a b => some ⟨1, d, a, b, g.k, g.neg, 0x04, []⟩
  | .andn d a b => some ⟨1, d, a, b, g.k, g.neg, 0x05, []⟩
  | .shl d a b => some ⟨1, d, a, b, g.k, g.neg, 0x06, []⟩
  | .shr d a b => some ⟨1, d, a, b, g.k, g.neg, 0x07, []⟩
  | .sar d a b => some ⟨1, d, a, b, g.k, g.neg, 0x08, []⟩
  | .ror d a b => some ⟨1, d, a, b, g.k, g.neg, 0x09, []⟩
  | .minS64 d a b => some ⟨1, d, a, b, g.k, g.neg, 0x0A, []⟩
  | .maxS64 d a b => some ⟨1, d, a, b, g.k, g.neg, 0x0B, []⟩
  | .minZ64 d a b => some ⟨1, d, a, b, g.k, g.neg, 0x0C, []⟩
  | .maxZ64 d a b => some ⟨1, d, a, b, g.k, g.neg, 0x0D, []⟩
  | .addx2 d a b => some ⟨1, d, a, b, g.k, g.neg, 0x10, []⟩
  | .addx4 d a b => some ⟨1, d, a, b, g.k, g.neg, 0x11, []⟩
  | .addx8 d a b => some ⟨1, d, a, b, g.k, g.neg, 0x12, []⟩
  | .addi d a i => some ⟨2, d, a, i.base, g.k, g.neg, 0x00, i.lits⟩
  | .andi d a i => some ⟨2, d, a, i.base, g.k, g.neg, 0x02, i.lits⟩
  | .ori d a i => some ⟨2, d, a, i.base, g.k, g.neg, 0x03, i.lits⟩
  | .xori d a i => some ⟨2, d, a, i.base, g.k, g.neg, 0x04, i.lits⟩
  | .shli d a i => some ⟨2, d, a, i.base, g.k, g.neg, 0x06, i.lits⟩
  | .shri d a i => some ⟨2, d, a, i.base, g.k, g.neg, 0x07, i.lits⟩
  | .sari d a i => some ⟨2, d, a, i.base, g.k, g.neg, 0x08, i.lits⟩
  | .rori d a i => some ⟨2, d, a, i.base, g.k, g.neg, 0x09, i.lits⟩
  | .movi d i => some ⟨2, d, 0, i.base, g.k, g.neg, 0x20, i.lits⟩
  | .adpc d i => some ⟨2, d, 0, i.base, g.k, g.neg, 0x21, i.lits⟩
  | .mul d a b => some ⟨3, d, a, b, g.k, g.neg, 0x00, []⟩
  | .mulhS64 d a b => some ⟨3, d, a, b, g.k, g.neg, 0x01, []⟩
  | .mulhZ64 d a b => some ⟨3, d, a, b, g.k, g.neg, 0x02, []⟩
  | .divS64 d a b => some ⟨3, d, a, b, g.k, g.neg, 0x08, []⟩
  | .divZ64 d a b => some ⟨3, d, a, b, g.k, g.neg, 0x09, []⟩
  | .remS64 d a b => some ⟨3, d, a, b, g.k, g.neg, 0x0A, []⟩
  | .remZ64 d a b => some ⟨3, d, a, b, g.k, g.neg, 0x0B, []⟩
  | .bfxZ64 d a b => some ⟨3, d, a, b, g.k, g.neg, 0x10, []⟩
  | .bfxS64 d a b => some ⟨3, d, a, b, g.k, g.neg, 0x11, []⟩
  | .bfi d a b => some ⟨3, d, a, b, g.k, g.neg, 0x12, []⟩
  | .clz d a => some ⟨3, d, a, 0, g.k, g.neg, 0x18, []⟩
  | .ctz d a => some ⟨3, d, a, 0, g.k, g.neg, 0x19, []⟩
  | .popc d a => some ⟨3, d, a, 0, g.k, g.neg, 0x1A, []⟩
  | .brev d a => some ⟨3, d, a, 0, g.k, g.neg, 0x1B, []⟩
  | .bswap d a => some ⟨3, d, a, 0, g.k, g.neg, 0x1C, []⟩
  | .cmpeq d a b => some ⟨4, d.setWidth 5, a, b, g.k, g.neg, 0x00, []⟩
  | .cmpne d a b => some ⟨4, d.setWidth 5, a, b, g.k, g.neg, 0x01, []⟩
  | .cmpltS64 d a b => some ⟨4, d.setWidth 5, a, b, g.k, g.neg, 0x02, []⟩
  | .cmpleS64 d a b => some ⟨4, d.setWidth 5, a, b, g.k, g.neg, 0x03, []⟩
  | .cmpltZ64 d a b => some ⟨4, d.setWidth 5, a, b, g.k, g.neg, 0x04, []⟩
  | .cmpleZ64 d a b => some ⟨4, d.setWidth 5, a, b, g.k, g.neg, 0x05, []⟩
  | .cmpeqi d a i => some ⟨4, d.setWidth 5, a, i.base, g.k, g.neg, 0x10, i.lits⟩
  | .cmpnei d a i => some ⟨4, d.setWidth 5, a, i.base, g.k, g.neg, 0x11, i.lits⟩
  | .cmpltiS64 d a i => some ⟨4, d.setWidth 5, a, i.base, g.k, g.neg, 0x12, i.lits⟩
  | .cmpleiS64 d a i => some ⟨4, d.setWidth 5, a, i.base, g.k, g.neg, 0x13, i.lits⟩
  | .cmpltiZ64 d a i => some ⟨4, d.setWidth 5, a, i.base, g.k, g.neg, 0x14, i.lits⟩
  | .cmpleiZ64 d a i => some ⟨4, d.setWidth 5, a, i.base, g.k, g.neg, 0x15, i.lits⟩
  | .kand d a b => some ⟨4, d.setWidth 5, a.setWidth 5, b.setWidth 5, g.k, g.neg, 0x20, []⟩
  | .kor d a b => some ⟨4, d.setWidth 5, a.setWidth 5, b.setWidth 5, g.k, g.neg, 0x21, []⟩
  | .kxor d a b => some ⟨4, d.setWidth 5, a.setWidth 5, b.setWidth 5, g.k, g.neg, 0x22, []⟩
  | .kandn d a b => some ⟨4, d.setWidth 5, a.setWidth 5, b.setWidth 5, g.k, g.neg, 0x23, []⟩
  | .knot d a => some ⟨4, d.setWidth 5, a.setWidth 5, 0, g.k, g.neg, 0x24, []⟩
  | .kfromg d a => some ⟨4, d.setWidth 5, a, 0, g.k, g.neg, 0x25, []⟩
  | .gfromk d a => some ⟨4, d, a.setWidth 5, 0, g.k, g.neg, 0x26, []⟩
  | .cvtF32S64 d a r => some ⟨5, d, a, BitVec.ofNat 5 r.code, g.k, g.neg, 0x00, []⟩
  | .cvtF32Z64 d a r => some ⟨5, d, a, BitVec.ofNat 5 r.code, g.k, g.neg, 0x01, []⟩
  | .cvtS64F32 d a r => some ⟨5, d, a, BitVec.ofNat 5 r.code, g.k, g.neg, 0x02, []⟩
  | .cvtZ64F32 d a r => some ⟨5, d, a, BitVec.ofNat 5 r.code, g.k, g.neg, 0x03, []⟩
  | .br i => some ⟨6, i.base.extractLsb' 10 5, i.base.extractLsb' 5 5, i.base.extractLsb' 0 5, g.k, g.neg, 0x00, i.lits⟩
  | .call i => some ⟨6, i.base.extractLsb' 10 5, i.base.extractLsb' 5 5, i.base.extractLsb' 0 5, g.k, g.neg, 0x01, i.lits⟩
  | .jmp a => some ⟨6, 0, a, 0, g.k, g.neg, 0x02, []⟩
  | .callr a => some ⟨6, 0, a, 0, g.k, g.neg, 0x03, []⟩
  | .ret => some ⟨6, 0, 0, 0, g.k, g.neg, 0x04, []⟩
  | .loop a i => some ⟨7, i.base.extractLsb' 5 5, a, i.base.extractLsb' 0 5, g.k, g.neg, 0x00, i.lits⟩
  | .loopi c i => some ⟨7, i.base.extractLsb' 5 5, c, i.base.extractLsb' 0 5, g.k, g.neg, 0x01, i.lits⟩
  | .lcnt d n => some ⟨7, d, 0, n, g.k, g.neg, 0x08, []⟩
  | .mfs d n => some ⟨8, d, n.extractLsb' 5 5, n.extractLsb' 0 5, g.k, g.neg, 0x00, []⟩
  | .mts n a => some ⟨8, n.extractLsb' 5 5, a, n.extractLsb' 0 5, g.k, g.neg, 0x01, []⟩
  | .feat d w => some ⟨8, d, 0, w, g.k, g.neg, 0x02, []⟩
  | .setfmt a => some ⟨8, 0, a, 0, g.k, g.neg, 0x03, []⟩
  | .setfmti v => some ⟨8, (v.extractLsb' 10 4).setWidth 5, v.extractLsb' 5 5, v.extractLsb' 0 5, g.k, g.neg, 0x04, []⟩
  | .mark => some ⟨8, 0, 0, 0, g.k, g.neg, 0x08, []⟩
  | .yield => some ⟨8, 0, 0, 0, g.k, g.neg, 0x09, []⟩
  | .endTask => some ⟨8, 0, 0, 0, g.k, g.neg, 0x0A, []⟩
  | .trap i => some ⟨8, i.extractLsb' 10 5, i.extractLsb' 5 5, i.extractLsb' 0 5, g.k, g.neg, 0x0B, []⟩
  | .trapret => some ⟨8, 0, 0, 0, g.k, g.neg, 0x0C, []⟩
  | .trapretg a => some ⟨8, 0, a, 0, g.k, g.neg, 0x0D, []⟩
  | .traprst => some ⟨8, 0, 0, 0, g.k, g.neg, 0x0E, []⟩
  | .commit => some ⟨8, 0, 0, 0, g.k, g.neg, 0x10, []⟩
  | .clrfel => some ⟨8, 0, 0, 0, g.k, g.neg, 0x11, []⟩
  | .tandem => some ⟨8, 0, 0, 0, g.k, g.neg, 0x18, []⟩
  | .decouple => some ⟨8, 0, 0, 0, g.k, g.neg, 0x19, []⟩
  | .rejoin => some ⟨8, 0, 0, 0, g.k, g.neg, 0x1A, []⟩
  | .vaddFp t d a b => some ⟨9, d, a, b, g.k, g.neg, BitVec.ofNat 7 (0x00 + t.code), []⟩
  | .vsubFp t d a b => some ⟨9, d, a, b, g.k, g.neg, BitVec.ofNat 7 (0x10 + t.code), []⟩
  | .vmulFp t d a b => some ⟨9, d, a, b, g.k, g.neg, BitVec.ofNat 7 (0x20 + t.code), []⟩
  | .vminFp t d a b => some ⟨9, d, a, b, g.k, g.neg, BitVec.ofNat 7 (0x30 + t.code), []⟩
  | .vmaxFp t d a b => some ⟨9, d, a, b, g.k, g.neg, BitVec.ofNat 7 (0x40 + t.code), []⟩
  | .vabsFp t d a => some ⟨9, d, a, 0, g.k, g.neg, BitVec.ofNat 7 (0x50 + t.code), []⟩
  | .vneg t d a => some ⟨9, d, a, 0, g.k, g.neg, BitVec.ofNat 7 (0x60 + t.code), []⟩
  | .vcpys t d a b => some ⟨9, d, a, b, g.k, g.neg, BitVec.ofNat 7 (0x70 + t.code), []⟩
  | .vfma t d a b => some ⟨10, d, a, b, g.k, g.neg, BitVec.ofNat 7 (0x00 + t.code), []⟩
  | .vfms t d a b => some ⟨10, d, a, b, g.k, g.neg, BitVec.ofNat 7 (0x10 + t.code), []⟩
  | .vfnma t d a b => some ⟨10, d, a, b, g.k, g.neg, BitVec.ofNat 7 (0x20 + t.code), []⟩
  | .vfnms t d a b => some ⟨10, d, a, b, g.k, g.neg, BitVec.ofNat 7 (0x30 + t.code), []⟩
  | .vaddInt t d a b => some ⟨11, d, a, b, g.k, g.neg, BitVec.ofNat 7 (0x00 + t.code), []⟩
  | .vsubInt t d a b => some ⟨11, d, a, b, g.k, g.neg, BitVec.ofNat 7 (0x10 + t.code), []⟩
  | .vminInt t d a b => some ⟨11, d, a, b, g.k, g.neg, BitVec.ofNat 7 (0x20 + t.code), []⟩
  | .vmaxInt t d a b => some ⟨11, d, a, b, g.k, g.neg, BitVec.ofNat 7 (0x30 + t.code), []⟩
  | .vadds t d a b => some ⟨11, d, a, b, g.k, g.neg, BitVec.ofNat 7 (0x40 + t.code), []⟩
  | .vsubs t d a b => some ⟨11, d, a, b, g.k, g.neg, BitVec.ofNat 7 (0x50 + t.code), []⟩
  | .vmulInt t d a b => some ⟨11, d, a, b, g.k, g.neg, BitVec.ofNat 7 (0x60 + t.code), []⟩
  | .vabsInt t d a => some ⟨11, d, a, 0, g.k, g.neg, BitVec.ofNat 7 (0x70 + t.code), []⟩
  | .vcmpeq t d a b => some ⟨12, d.setWidth 5, a, b, g.k, g.neg, BitVec.ofNat 7 (0x00 + t.code), []⟩
  | .vcmpne t d a b => some ⟨12, d.setWidth 5, a, b, g.k, g.neg, BitVec.ofNat 7 (0x10 + t.code), []⟩
  | .vcmplt t d a b => some ⟨12, d.setWidth 5, a, b, g.k, g.neg, BitVec.ofNat 7 (0x20 + t.code), []⟩
  | .vcmple t d a b => some ⟨12, d.setWidth 5, a, b, g.k, g.neg, BitVec.ofNat 7 (0x30 + t.code), []⟩
  | .vcmpun d a b => some ⟨12, d.setWidth 5, a, b, g.k, g.neg, 0x40, []⟩
  | .vand d a b => some ⟨12, d, a, b, g.k, g.neg, 0x50, []⟩
  | .vor d a b => some ⟨12, d, a, b, g.k, g.neg, 0x51, []⟩
  | .vxor d a b => some ⟨12, d, a, b, g.k, g.neg, 0x52, []⟩
  | .vandn d a b => some ⟨12, d, a, b, g.k, g.neg, 0x53, []⟩
  | .vnot d a => some ⟨12, d, a, 0, g.k, g.neg, 0x54, []⟩
  | .vshl d a b => some ⟨12, d, a, b, g.k, g.neg, 0x55, []⟩
  | .vshr d a b => some ⟨12, d, a, b, g.k, g.neg, 0x56, []⟩
  | .vsar d a b => some ⟨12, d, a, b, g.k, g.neg, 0x57, []⟩
  | .vsel d a b => some ⟨12, d, a, b, g.k, g.neg, 0x58, []⟩
  | .vmov d a => some ⟨12, d, a, 0, g.k, g.neg, 0x59, []⟩
  | .vbcst d a => some ⟨12, d, a, 0, g.k, g.neg, 0x5A, []⟩
  | .vextr d a b => some ⟨12, d, a, b, g.k, g.neg, 0x5B, []⟩
  | .vinsr d a b => some ⟨12, d, a, b, g.k, g.neg, 0x5C, []⟩
  | .kpopc d a => some ⟨12, d, a.setWidth 5, 0, g.k, g.neg, 0x60, []⟩
  | .kfirst d a => some ⟨12, d, a.setWidth 5, 0, g.k, g.neg, 0x61, []⟩
  | .klast d a => some ⟨12, d, a.setWidth 5, 0, g.k, g.neg, 0x62, []⟩
  | .cvtVector t src r d a => some ⟨13, d, a, BitVec.ofNat 5 src.code, g.k, g.neg, BitVec.ofNat 7 (8 * t.code + r.code), []⟩
  | .vqnt t d a b => some ⟨14, d, a, b, g.k, g.neg, BitVec.ofNat 7 (0x00 + t.code), []⟩
  | .vdq out src d a b => some ⟨14, d, a, b, g.k, g.neg, BitVec.ofNat 7 (0x10 + 0x10 * out.code + src.code), []⟩
  | .vperm d a b => some ⟨14, d, a, b, g.k, g.neg, 0x40, []⟩
  | .vrot d a b => some ⟨14, d, a, b, g.k, g.neg, 0x41, []⟩
  | .vziplo d a b => some ⟨14, d, a, b, g.k, g.neg, 0x42, []⟩
  | .vziphi d a b => some ⟨14, d, a, b, g.k, g.neg, 0x43, []⟩
  | .vcomp d a => some ⟨14, d, a, 0, g.k, g.neg, 0x44, []⟩
  | .vexpd d a => some ⟨14, d, a, 0, g.k, g.neg, 0x45, []⟩
  | .viota d => some ⟨14, d, 0, 0, g.k, g.neg, 0x46, []⟩
  | .vclmullo d a b => some ⟨14, d, a, b, g.k, g.neg, 0x48, []⟩
  | .vclmulhi d a b => some ⟨14, d, a, b, g.k, g.neg, 0x49, []⟩
  | .vrsum t d a => some ⟨15, d, a, 0, g.k, g.neg, BitVec.ofNat 7 (0x00 + t.code), []⟩
  | .vrmax t d a => some ⟨15, d, a, 0, g.k, g.neg, BitVec.ofNat 7 (0x10 + t.code), []⟩
  | .vrmin t d a => some ⟨15, d, a, 0, g.k, g.neg, BitVec.ofNat 7 (0x20 + t.code), []⟩
  | .vscsum t d a => some ⟨15, d, a, 0, g.k, g.neg, BitVec.ofNat 7 (0x40 + t.code), []⟩
  | .vscmax t d a => some ⟨15, d, a, 0, g.k, g.neg, BitVec.ofNat 7 (0x50 + t.code), []⟩
  | .vscmin t d a => some ⟨15, d, a, 0, g.k, g.neg, BitVec.ofNat 7 (0x60 + t.code), []⟩
  | .vdiv t d a b => some ⟨16, d, a, b, g.k, g.neg, BitVec.ofNat 7 (0x00 + t.code), []⟩
  | .vsqrt t d a => some ⟨16, d, a, 0, g.k, g.neg, BitVec.ofNat 7 (0x10 + t.code), []⟩
  | .vrcp t d a => some ⟨16, d, a, 0, g.k, g.neg, BitVec.ofNat 7 (0x20 + t.code), []⟩
  | .vrsqrt t d a => some ⟨16, d, a, 0, g.k, g.neg, BitVec.ofNat 7 (0x30 + t.code), []⟩
  | .vexp2 t d a => some ⟨16, d, a, 0, g.k, g.neg, BitVec.ofNat 7 (0x40 + t.code), []⟩
  | .vlog2 t d a => some ⟨16, d, a, 0, g.k, g.neg, BitVec.ofNat 7 (0x50 + t.code), []⟩
  | .vtanh t d a => some ⟨16, d, a, 0, g.k, g.neg, BitVec.ofNat 7 (0x60 + t.code), []⟩
  | .vsigm t d a => some ⟨16, d, a, 0, g.k, g.neg, BitVec.ofNat 7 (0x70 + t.code), []⟩
  | .sbind d a => some ⟨17, d.setWidth 5, a, 0, g.k, g.neg, 0x00, []⟩
  | .sint d a b => some ⟨17, d.setWidth 5, a.setWidth 5, b.setWidth 5, g.k, g.neg, 0x01, []⟩
  | .suni d a b => some ⟨17, d.setWidth 5, a.setWidth 5, b.setWidth 5, g.k, g.neg, 0x02, []⟩
  | .ssub d a b => some ⟨17, d.setWidth 5, a.setWidth 5, b.setWidth 5, g.k, g.neg, 0x03, []⟩
  | .smadd d a b => some ⟨17, d.setWidth 5, a.setWidth 5, b.setWidth 5, g.k, g.neg, 0x04, []⟩
  | .sdrain d a => some ⟨17, d, a.setWidth 5, 0, g.k, g.neg, 0x05, []⟩
  | .scnt d a => some ⟨17, d, a.setWidth 5, 0, g.k, g.neg, 0x06, []⟩
  | .sfree d => some ⟨17, d.setWidth 5, 0, 0, g.k, g.neg, 0x07, []⟩
  | .ld t d a i => some ⟨18, d, a, i.base, g.k, g.neg, BitVec.ofNat 7 (0x00 + t.code), i.lits⟩
  | .ldacq sc t d a i => some ⟨18, d, a, i.base, g.k, g.neg, BitVec.ofNat 7 (0x10 * (sc.code + 1) + t.code), i.lits⟩
  | .lds t d a i => some ⟨18, d, a, i.base, g.k, g.neg, BitVec.ofNat 7 (0x70 + t.code), i.lits⟩
  | .st t d a i => some ⟨19, d, a, i.base, g.k, g.neg, BitVec.ofNat 7 (0x00 + t.code), i.lits⟩
  | .strel sc t d a i => some ⟨19, d, a, i.base, g.k, g.neg, BitVec.ofNat 7 (0x10 * (sc.code + 1) + t.code), i.lits⟩
  | .sts t d a i => some ⟨19, d, a, i.base, g.k, g.neg, BitVec.ofNat 7 (0x70 + t.code), i.lits⟩
  | .vld d a i => some ⟨20, d, a, i.base, g.k, g.neg, 0x00, i.lits⟩
  | .vldacq sc d a i => some ⟨20, d, a, i.base, g.k, g.neg, BitVec.ofNat 7 (0x10 * (sc.code + 1) + 0), i.lits⟩
  | .vlds d a i => some ⟨20, d, a, i.base, g.k, g.neg, 0x70, i.lits⟩
  | .vst d a i => some ⟨20, d, a, i.base, g.k, g.neg, 0x01, i.lits⟩
  | .vstrel sc d a i => some ⟨20, d, a, i.base, g.k, g.neg, BitVec.ofNat 7 (0x10 * (sc.code + 1) + 1), i.lits⟩
  | .vsts d a i => some ⟨20, d, a, i.base, g.k, g.neg, 0x71, i.lits⟩
  | .fill d a i => some ⟨21, d, a, i.base, g.k, g.neg, 0x00, i.lits⟩
  | .take d a i => some ⟨21, d, a, i.base, g.k, g.neg, 0x01, i.lits⟩
  | .readf d a i => some ⟨21, d, a, i.base, g.k, g.neg, 0x02, i.lits⟩
  | .writef d a i => some ⟨21, d, a, i.base, g.k, g.neg, 0x03, i.lits⟩
  | .sete d a i => some ⟨21, d, a, i.base, g.k, g.neg, 0x04, i.lits⟩
  | .vgath d a b => some ⟨21, d, a, b, g.k, g.neg, 0x10, []⟩
  | .vscat d a b => some ⟨21, d, a, b, g.k, g.neg, 0x11, []⟩
  | .vgaths d a b => some ⟨21, d, a, b, g.k, g.neg, 0x12, []⟩
  | .vscats d a b => some ⟨21, d, a, b, g.k, g.neg, 0x13, []⟩
  | .vmcst d a b => some ⟨21, d, a, b, g.k, g.neg, 0x14, []⟩
  | .vrdst d a b => some ⟨21, d, a, b, g.k, g.neg, 0x15, []⟩
  | .aadd o w d a b => some ⟨22, d, a, b, g.k, g.neg, BitVec.ofNat 7 (0x00 + 2 * o.code + w.code), o.lits⟩
  | .aand o w d a b => some ⟨22, d, a, b, g.k, g.neg, BitVec.ofNat 7 (0x08 + 2 * o.code + w.code), o.lits⟩
  | .aor o w d a b => some ⟨22, d, a, b, g.k, g.neg, BitVec.ofNat 7 (0x10 + 2 * o.code + w.code), o.lits⟩
  | .axor o w d a b => some ⟨22, d, a, b, g.k, g.neg, BitVec.ofNat 7 (0x18 + 2 * o.code + w.code), o.lits⟩
  | .aminSigned o w d a b => some ⟨22, d, a, b, g.k, g.neg, BitVec.ofNat 7 (0x20 + 2 * o.code + w.code), o.lits⟩
  | .amaxSigned o w d a b => some ⟨22, d, a, b, g.k, g.neg, BitVec.ofNat 7 (0x28 + 2 * o.code + w.code), o.lits⟩
  | .aminUnsigned o w d a b => some ⟨22, d, a, b, g.k, g.neg, BitVec.ofNat 7 (0x30 + 2 * o.code + w.code), o.lits⟩
  | .amaxUnsigned o w d a b => some ⟨22, d, a, b, g.k, g.neg, BitVec.ofNat 7 (0x38 + 2 * o.code + w.code), o.lits⟩
  | .aswap o w d a b => some ⟨22, d, a, b, g.k, g.neg, BitVec.ofNat 7 (0x40 + 2 * o.code + w.code), o.lits⟩
  | .acas o w d a b => some ⟨22, d, a, b, g.k, g.neg, BitVec.ofNat 7 (0x48 + 2 * o.code + w.code), o.lits⟩
  | .acasw o d a b => some ⟨29, d, a, b, g.k, g.neg, BitVec.ofNat 7 (0x00 + 2 * o.code), o.lits⟩
  | .aswapw o d a b => some ⟨29, d, a, b, g.k, g.neg, BitVec.ofNat 7 (0x08 + 2 * o.code), o.lits⟩
  | .afaddF32 o d a b => some ⟨29, d, a, b, g.k, g.neg, BitVec.ofNat 7 (0x10 + 2 * o.code), o.lits⟩
  | .afaddBf16 o d a b => some ⟨29, d, a, b, g.k, g.neg, BitVec.ofNat 7 (0x18 + 2 * o.code), o.lits⟩
  | .vafaddF32 o d a b => some ⟨29, d, a, b, g.k, g.neg, BitVec.ofNat 7 (0x20 + 2 * o.code), o.lits⟩
  | .vaaddZ32 o d a b => some ⟨29, d, a, b, g.k, g.neg, BitVec.ofNat 7 (0x28 + 2 * o.code), o.lits⟩
  | .fenceAcq sc => some ⟨23, 0, 0, 0, g.k, g.neg, BitVec.ofNat 7 (0x00 + sc.code), []⟩
  | .fenceRel sc => some ⟨23, 0, 0, 0, g.k, g.neg, BitVec.ofNat 7 (0x08 + sc.code), []⟩
  | .fence sc => some ⟨23, 0, 0, 0, g.k, g.neg, BitVec.ofNat 7 (0x10 + sc.code), []⟩
  | .bella a => some ⟨23, 0, a, 0, g.k, g.neg, 0x20, []⟩
  | .bellw a => some ⟨23, 0, a, 0, g.k, g.neg, 0x21, []⟩
  | .bellm a b => some ⟨23, 0, a, b, g.k, g.neg, 0x22, []⟩
  | .rolli a b => some ⟨23, 0, a, b, g.k, g.neg, 0x28, []⟩
  | .rolla a b => some ⟨23, 0, a, b, g.k, g.neg, 0x29, []⟩
  | .rollw d a => some ⟨23, d, a, 0, g.k, g.neg, 0x2A, []⟩
  | .stslip d a b => some ⟨23, d, a, b, g.k, g.neg, 0x30, []⟩
  | .stwait1 d a b => some ⟨23, d, a, b, g.k, g.neg, 0x31, []⟩
  | .stwait2 d a b => some ⟨23, d, a, b, g.k, g.neg, 0x32, []⟩
  | .lkreq m a => some ⟨24, 0, a, 0, g.k, g.neg, BitVec.ofNat 7 (0x00 + m.code), []⟩
  | .lktry m d a => some ⟨24, d, a, 0, g.k, g.neg, BitVec.ofNat 7 (0x08 + m.code), []⟩
  | .lkrel a => some ⟨24, 0, a, 0, g.k, g.neg, 0x10, []⟩
  | .cpin n a b => some ⟨25, n.setWidth 5, a, b, g.k, g.neg, 0x00, []⟩
  | .cevf n a b => some ⟨25, n.setWidth 5, a, b, g.k, g.neg, 0x01, []⟩
  | .cunpin n => some ⟨25, n.setWidth 5, 0, 0, g.k, g.neg, 0x02, []⟩
  | .cflush a b => some ⟨25, 0, a, b, g.k, g.neg, 0x08, []⟩
  | .cinv a b => some ⟨25, 0, a, b, g.k, g.neg, 0x09, []⟩
  | .pref a i => some ⟨25, 0, a, i.base, g.k, g.neg, 0x0A, i.lits⟩
  | .mma d a b => some ⟨26, d.setWidth 5, a, b, g.k, g.neg, 0x00, []⟩
  | .mmag d a b => some ⟨26, d.setWidth 5, a, b, g.k, g.neg, 0x01, []⟩
  | .mmab d a b => some ⟨26, d.setWidth 5, a, b, g.k, g.neg, 0x02, []⟩
  | .zclr d => some ⟨27, d.setWidth 5, 0, 0, g.k, g.neg, 0x00, []⟩
  | .zld d a => some ⟨27, d.setWidth 5, a, 0, g.k, g.neg, 0x01, []⟩
  | .zst d a => some ⟨27, d.setWidth 5, a, 0, g.k, g.neg, 0x02, []⟩
  | .zrd d a b => some ⟨27, d, a.setWidth 5, b, g.k, g.neg, 0x03, []⟩
  | .zget d => some ⟨27, d.setWidth 5, 0, 0, g.k, g.neg, 0x04, []⟩
  | .zput d => some ⟨27, d.setWidth 5, 0, 0, g.k, g.neg, 0x05, []⟩
  | .scld a => some ⟨27, 0, a, 0, g.k, g.neg, 0x08, []⟩
  | .tgemm a => some ⟨27, 0, a, 0, g.k, g.neg, 0x10, []⟩
  | .cpy a b => some ⟨28, 0, a, b, g.k, g.neg, 0x01, []⟩
  | .cpym a b => some ⟨28, 0, a, b, g.k, g.neg, 0x02, []⟩
  | .irr a b => some ⟨28, 0, a, b, g.k, g.neg, 0x03, []⟩
  | .embg a b => some ⟨28, 0, a, b, g.k, g.neg, 0x08, []⟩
  | .embu a b => some ⟨28, 0, a, b, g.k, g.neg, 0x09, []⟩
  | .a2a a b => some ⟨28, 0, a, b, g.k, g.neg, 0x0A, []⟩
  | .coll a b => some ⟨28, 0, a, b, g.k, g.neg, 0x0B, []⟩
  | .hcfg a b => some ⟨28, 0, a, b, g.k, g.neg, 0x10, []⟩
  | .hkst a b => some ⟨28, 0, a, b, g.k, g.neg, 0x11, []⟩
  | .hgth a b => some ⟨28, 0, a, b, g.k, g.neg, 0x12, []⟩
  | .ttload a b => some ⟨28, 0, a, b, g.k, g.neg, 0x18, []⟩
  | _ => none

/-- Class 0 (11 R273 to R283). -/
def decodeClass0 (r : RawSlot) : Option Instr :=
  if r.k == 0 && !r.gn && r.op == 0 && r.lits.isEmpty && r.d == 0 && r.a == 0 && r.b == 0 then some (.nop) else none

/-- Class 1 (11 R273 to R283). -/
def decodeClass1 (r : RawSlot) : Option Instr :=
  match r.op.toNat with
  | 0x00 => if r.lits.isEmpty then some (.add r.d r.a r.b) else none
  | 0x01 => if r.lits.isEmpty then some (.sub r.d r.a r.b) else none
  | 0x02 => if r.lits.isEmpty then some (.and r.d r.a r.b) else none
  | 0x03 => if r.lits.isEmpty then some (.or r.d r.a r.b) else none
  | 0x04 => if r.lits.isEmpty then some (.xor r.d r.a r.b) else none
  | 0x05 => if r.lits.isEmpty then some (.andn r.d r.a r.b) else none
  | 0x06 => if r.lits.isEmpty then some (.shl r.d r.a r.b) else none
  | 0x07 => if r.lits.isEmpty then some (.shr r.d r.a r.b) else none
  | 0x08 => if r.lits.isEmpty then some (.sar r.d r.a r.b) else none
  | 0x09 => if r.lits.isEmpty then some (.ror r.d r.a r.b) else none
  | 0x0A => if r.lits.isEmpty then some (.minS64 r.d r.a r.b) else none
  | 0x0B => if r.lits.isEmpty then some (.maxS64 r.d r.a r.b) else none
  | 0x0C => if r.lits.isEmpty then some (.minZ64 r.d r.a r.b) else none
  | 0x0D => if r.lits.isEmpty then some (.maxZ64 r.d r.a r.b) else none
  | 0x10 => if r.lits.isEmpty then some (.addx2 r.d r.a r.b) else none
  | 0x11 => if r.lits.isEmpty then some (.addx4 r.d r.a r.b) else none
  | 0x12 => if r.lits.isEmpty then some (.addx8 r.d r.a r.b) else none
  | _ => none

/-- Class 2 (11 R273 to R283). -/
def decodeClass2 (r : RawSlot) : Option Instr :=
  match r.op.toNat with
  | 0x00 => if decide (r.lits.length ≤ 2) then some (.addi r.d r.a ⟨r.b, r.lits⟩) else none
  | 0x02 => if decide (r.lits.length ≤ 2) then some (.andi r.d r.a ⟨r.b, r.lits⟩) else none
  | 0x03 => if decide (r.lits.length ≤ 2) then some (.ori r.d r.a ⟨r.b, r.lits⟩) else none
  | 0x04 => if decide (r.lits.length ≤ 2) then some (.xori r.d r.a ⟨r.b, r.lits⟩) else none
  | 0x06 => if decide (r.lits.length ≤ 2) then some (.shli r.d r.a ⟨r.b, r.lits⟩) else none
  | 0x07 => if decide (r.lits.length ≤ 2) then some (.shri r.d r.a ⟨r.b, r.lits⟩) else none
  | 0x08 => if decide (r.lits.length ≤ 2) then some (.sari r.d r.a ⟨r.b, r.lits⟩) else none
  | 0x09 => if decide (r.lits.length ≤ 2) then some (.rori r.d r.a ⟨r.b, r.lits⟩) else none
  | 0x20 => if decide (r.lits.length ≤ 2) && r.a == 0 then some (.movi r.d ⟨r.b, r.lits⟩) else none
  | 0x21 => if decide (r.lits.length ≤ 2) && r.a == 0 then some (.adpc r.d ⟨r.b, r.lits⟩) else none
  | _ => none

/-- Class 3 (11 R273 to R283). -/
def decodeClass3 (r : RawSlot) : Option Instr :=
  match r.op.toNat with
  | 0x00 => if r.lits.isEmpty then some (.mul r.d r.a r.b) else none
  | 0x01 => if r.lits.isEmpty then some (.mulhS64 r.d r.a r.b) else none
  | 0x02 => if r.lits.isEmpty then some (.mulhZ64 r.d r.a r.b) else none
  | 0x08 => if r.lits.isEmpty then some (.divS64 r.d r.a r.b) else none
  | 0x09 => if r.lits.isEmpty then some (.divZ64 r.d r.a r.b) else none
  | 0x0A => if r.lits.isEmpty then some (.remS64 r.d r.a r.b) else none
  | 0x0B => if r.lits.isEmpty then some (.remZ64 r.d r.a r.b) else none
  | 0x10 => if r.lits.isEmpty then some (.bfxZ64 r.d r.a r.b) else none
  | 0x11 => if r.lits.isEmpty then some (.bfxS64 r.d r.a r.b) else none
  | 0x12 => if r.lits.isEmpty then some (.bfi r.d r.a r.b) else none
  | 0x18 => if r.lits.isEmpty && r.b == 0 then some (.clz r.d r.a) else none
  | 0x19 => if r.lits.isEmpty && r.b == 0 then some (.ctz r.d r.a) else none
  | 0x1A => if r.lits.isEmpty && r.b == 0 then some (.popc r.d r.a) else none
  | 0x1B => if r.lits.isEmpty && r.b == 0 then some (.brev r.d r.a) else none
  | 0x1C => if r.lits.isEmpty && r.b == 0 then some (.bswap r.d r.a) else none
  | _ => none

/-- Class 4 (11 R273 to R283). -/
def decodeClass4 (r : RawSlot) : Option Instr :=
  match r.op.toNat with
  | 0x00 => if r.lits.isEmpty then (kField r.d).bind fun d => some (.cmpeq d r.a r.b) else none
  | 0x01 => if r.lits.isEmpty then (kField r.d).bind fun d => some (.cmpne d r.a r.b) else none
  | 0x02 => if r.lits.isEmpty then (kField r.d).bind fun d => some (.cmpltS64 d r.a r.b) else none
  | 0x03 => if r.lits.isEmpty then (kField r.d).bind fun d => some (.cmpleS64 d r.a r.b) else none
  | 0x04 => if r.lits.isEmpty then (kField r.d).bind fun d => some (.cmpltZ64 d r.a r.b) else none
  | 0x05 => if r.lits.isEmpty then (kField r.d).bind fun d => some (.cmpleZ64 d r.a r.b) else none
  | 0x10 => if decide (r.lits.length ≤ 2) then (kField r.d).bind fun d => some (.cmpeqi d r.a ⟨r.b, r.lits⟩) else none
  | 0x11 => if decide (r.lits.length ≤ 2) then (kField r.d).bind fun d => some (.cmpnei d r.a ⟨r.b, r.lits⟩) else none
  | 0x12 => if decide (r.lits.length ≤ 2) then (kField r.d).bind fun d => some (.cmpltiS64 d r.a ⟨r.b, r.lits⟩) else none
  | 0x13 => if decide (r.lits.length ≤ 2) then (kField r.d).bind fun d => some (.cmpleiS64 d r.a ⟨r.b, r.lits⟩) else none
  | 0x14 => if decide (r.lits.length ≤ 2) then (kField r.d).bind fun d => some (.cmpltiZ64 d r.a ⟨r.b, r.lits⟩) else none
  | 0x15 => if decide (r.lits.length ≤ 2) then (kField r.d).bind fun d => some (.cmpleiZ64 d r.a ⟨r.b, r.lits⟩) else none
  | 0x20 => if r.lits.isEmpty then (kField r.d).bind fun d => (kField r.a).bind fun a => (kField r.b).bind fun b => some (.kand d a b) else none
  | 0x21 => if r.lits.isEmpty then (kField r.d).bind fun d => (kField r.a).bind fun a => (kField r.b).bind fun b => some (.kor d a b) else none
  | 0x22 => if r.lits.isEmpty then (kField r.d).bind fun d => (kField r.a).bind fun a => (kField r.b).bind fun b => some (.kxor d a b) else none
  | 0x23 => if r.lits.isEmpty then (kField r.d).bind fun d => (kField r.a).bind fun a => (kField r.b).bind fun b => some (.kandn d a b) else none
  | 0x24 => if r.lits.isEmpty && r.b == 0 then (kField r.d).bind fun d => (kField r.a).bind fun a => some (.knot d a) else none
  | 0x25 => if r.lits.isEmpty && r.b == 0 then (kField r.d).bind fun d => some (.kfromg d r.a) else none
  | 0x26 => if r.lits.isEmpty && r.b == 0 then (kField r.a).bind fun a => some (.gfromk r.d a) else none
  | _ => none

/-- Class 5 (11 R273 to R283). -/
def decodeClass5 (r : RawSlot) : Option Instr :=
  match r.op.toNat with
  | 0x00 => if r.lits.isEmpty then (Rc.ofCode r.b.toNat).bind fun rc => some (.cvtF32S64 r.d r.a rc) else none
  | 0x01 => if r.lits.isEmpty then (Rc.ofCode r.b.toNat).bind fun rc => some (.cvtF32Z64 r.d r.a rc) else none
  | 0x02 => if r.lits.isEmpty then (Rc.ofCode r.b.toNat).bind fun rc => some (.cvtS64F32 r.d r.a rc) else none
  | 0x03 => if r.lits.isEmpty then (Rc.ofCode r.b.toNat).bind fun rc => some (.cvtZ64F32 r.d r.a rc) else none
  | _ => none

/-- Class 6 (11 R273 to R283). -/
def decodeClass6 (r : RawSlot) : Option Instr :=
  match r.op.toNat with
  | 0x00 => if decide (r.lits.length ≤ 1) then some (.br ⟨r.d ++ r.a ++ r.b, r.lits⟩) else none
  | 0x01 => if decide (r.lits.length ≤ 1) then some (.call ⟨r.d ++ r.a ++ r.b, r.lits⟩) else none
  | 0x02 => if r.lits.isEmpty && r.d == 0 && r.b == 0 then some (.jmp r.a) else none
  | 0x03 => if r.lits.isEmpty && r.d == 0 && r.b == 0 then some (.callr r.a) else none
  | 0x04 => if r.lits.isEmpty && r.d == 0 && r.a == 0 && r.b == 0 then some (.ret) else none
  | _ => none

/-- Class 7 (11 R273 to R283). -/
def decodeClass7 (r : RawSlot) : Option Instr :=
  match r.op.toNat with
  | 0x00 => if decide (r.lits.length ≤ 1) then some (.loop r.a ⟨r.d ++ r.b, r.lits⟩) else none
  | 0x01 => if decide (r.lits.length ≤ 1) then some (.loopi r.a ⟨r.d ++ r.b, r.lits⟩) else none
  | 0x08 => if r.lits.isEmpty && decide (r.b.toNat ≤ 5) && r.a == 0 then some (.lcnt r.d r.b) else none
  | _ => none

/-- Class 8 (11 R273 to R283). -/
def decodeClass8 (r : RawSlot) : Option Instr :=
  match r.op.toNat with
  | 0x00 => if r.lits.isEmpty && sysRegAssigned (r.a ++ r.b) then some (.mfs r.d (r.a ++ r.b)) else none
  | 0x01 => if r.lits.isEmpty && sysRegAssigned (r.d ++ r.b) then some (.mts (r.d ++ r.b) r.a) else none
  | 0x02 => if r.lits.isEmpty && r.a == 0 then some (.feat r.d r.b) else none
  | 0x03 => if r.lits.isEmpty && r.d == 0 && r.b == 0 then some (.setfmt r.a) else none
  | 0x04 => if r.lits.isEmpty && decide (r.d.toNat < 16) then some (.setfmti (r.d.setWidth 4 ++ r.a ++ r.b)) else none
  | 0x08 => if r.lits.isEmpty && r.d == 0 && r.a == 0 && r.b == 0 then some (.mark) else none
  | 0x09 => if r.lits.isEmpty && r.d == 0 && r.a == 0 && r.b == 0 then some (.yield) else none
  | 0x0A => if r.lits.isEmpty && r.d == 0 && r.a == 0 && r.b == 0 then some (.endTask) else none
  | 0x0B => if r.lits.isEmpty then some (.trap (r.d ++ r.a ++ r.b)) else none
  | 0x0C => if r.lits.isEmpty && r.d == 0 && r.a == 0 && r.b == 0 then some (.trapret) else none
  | 0x0D => if r.lits.isEmpty && r.d == 0 && r.b == 0 then some (.trapretg r.a) else none
  | 0x0E => if r.lits.isEmpty && r.d == 0 && r.a == 0 && r.b == 0 then some (.traprst) else none
  | 0x10 => if r.lits.isEmpty && r.d == 0 && r.a == 0 && r.b == 0 then some (.commit) else none
  | 0x11 => if r.lits.isEmpty && r.d == 0 && r.a == 0 && r.b == 0 then some (.clrfel) else none
  | 0x18 => if r.lits.isEmpty && r.d == 0 && r.a == 0 && r.b == 0 then some (.tandem) else none
  | 0x19 => if r.lits.isEmpty && r.d == 0 && r.a == 0 && r.b == 0 then some (.decouple) else none
  | 0x1A => if r.lits.isEmpty && r.d == 0 && r.a == 0 && r.b == 0 then some (.rejoin) else none
  | _ => none

/-- Class 9 (11 R273 to R283). -/
def decodeClass9 (r : RawSlot) : Option Instr :=
  match r.op.toNat / 16 with
  | 0 => if r.lits.isEmpty then (Ty.ofCode (r.op.toNat % 16)).bind fun t => if t.isFp then some (.vaddFp t r.d r.a r.b) else none else none
  | 1 => if r.lits.isEmpty then (Ty.ofCode (r.op.toNat % 16)).bind fun t => if t.isFp then some (.vsubFp t r.d r.a r.b) else none else none
  | 2 => if r.lits.isEmpty then (Ty.ofCode (r.op.toNat % 16)).bind fun t => if t.isFp then some (.vmulFp t r.d r.a r.b) else none else none
  | 3 => if r.lits.isEmpty then (Ty.ofCode (r.op.toNat % 16)).bind fun t => if t.isFp then some (.vminFp t r.d r.a r.b) else none else none
  | 4 => if r.lits.isEmpty then (Ty.ofCode (r.op.toNat % 16)).bind fun t => if t.isFp then some (.vmaxFp t r.d r.a r.b) else none else none
  | 5 => if r.lits.isEmpty && r.b == 0 then (Ty.ofCode (r.op.toNat % 16)).bind fun t => if t.isFp then some (.vabsFp t r.d r.a) else none else none
  | 6 => if r.lits.isEmpty && r.b == 0 then (Ty.ofCode (r.op.toNat % 16)).bind fun t => if t.isFp then some (.vneg t r.d r.a) else none else none
  | 7 => if r.lits.isEmpty then (Ty.ofCode (r.op.toNat % 16)).bind fun t => if t.isFp then some (.vcpys t r.d r.a r.b) else none else none
  | _ => none

/-- Class 10 (11 R273 to R283). -/
def decodeClass10 (r : RawSlot) : Option Instr :=
  match r.op.toNat / 16 with
  | 0 => if r.lits.isEmpty then (Ty.ofCode (r.op.toNat % 16)).bind fun t => if t.isFp then some (.vfma t r.d r.a r.b) else none else none
  | 1 => if r.lits.isEmpty then (Ty.ofCode (r.op.toNat % 16)).bind fun t => if t.isFp then some (.vfms t r.d r.a r.b) else none else none
  | 2 => if r.lits.isEmpty then (Ty.ofCode (r.op.toNat % 16)).bind fun t => if t.isFp then some (.vfnma t r.d r.a r.b) else none else none
  | 3 => if r.lits.isEmpty then (Ty.ofCode (r.op.toNat % 16)).bind fun t => if t.isFp then some (.vfnms t r.d r.a r.b) else none else none
  | _ => none

/-- Class 11 (11 R273 to R283). -/
def decodeClass11 (r : RawSlot) : Option Instr :=
  match r.op.toNat / 16 with
  | 0 => if r.lits.isEmpty then (Ty.ofCode (r.op.toNat % 16)).bind fun t => if t.isVInt then some (.vaddInt t r.d r.a r.b) else none else none
  | 1 => if r.lits.isEmpty then (Ty.ofCode (r.op.toNat % 16)).bind fun t => if t.isVInt then some (.vsubInt t r.d r.a r.b) else none else none
  | 2 => if r.lits.isEmpty then (Ty.ofCode (r.op.toNat % 16)).bind fun t => if t.isVInt then some (.vminInt t r.d r.a r.b) else none else none
  | 3 => if r.lits.isEmpty then (Ty.ofCode (r.op.toNat % 16)).bind fun t => if t.isVInt then some (.vmaxInt t r.d r.a r.b) else none else none
  | 4 => if r.lits.isEmpty then (Ty.ofCode (r.op.toNat % 16)).bind fun t => if t.isVInt then some (.vadds t r.d r.a r.b) else none else none
  | 5 => if r.lits.isEmpty then (Ty.ofCode (r.op.toNat % 16)).bind fun t => if t.isVInt then some (.vsubs t r.d r.a r.b) else none else none
  | 6 => if r.lits.isEmpty then (Ty.ofCode (r.op.toNat % 16)).bind fun t => if t.isVInt then some (.vmulInt t r.d r.a r.b) else none else none
  | 7 => if r.lits.isEmpty && r.b == 0 then (Ty.ofCode (r.op.toNat % 16)).bind fun t => if t.isVAbs then some (.vabsInt t r.d r.a) else none else none
  | _ => none

/-- Class 12 (11 R273 to R283). -/
def decodeClass12 (r : RawSlot) : Option Instr :=
  match r.op.toNat / 16 with
  | 0 => if r.lits.isEmpty then (Ty.ofCode (r.op.toNat % 16)).bind fun t => (kField r.d).bind fun d => if t.isVCmp then some (.vcmpeq t d r.a r.b) else none else none
  | 1 => if r.lits.isEmpty then (Ty.ofCode (r.op.toNat % 16)).bind fun t => (kField r.d).bind fun d => if t.isVCmp then some (.vcmpne t d r.a r.b) else none else none
  | 2 => if r.lits.isEmpty then (Ty.ofCode (r.op.toNat % 16)).bind fun t => (kField r.d).bind fun d => if t.isVCmp then some (.vcmplt t d r.a r.b) else none else none
  | 3 => if r.lits.isEmpty then (Ty.ofCode (r.op.toNat % 16)).bind fun t => (kField r.d).bind fun d => if t.isVCmp then some (.vcmple t d r.a r.b) else none else none
  | _ => match r.op.toNat with
    | 0x40 => if r.lits.isEmpty then (kField r.d).bind fun d => some (.vcmpun d r.a r.b) else none
    | 0x50 => if r.lits.isEmpty then some (.vand r.d r.a r.b) else none
    | 0x51 => if r.lits.isEmpty then some (.vor r.d r.a r.b) else none
    | 0x52 => if r.lits.isEmpty then some (.vxor r.d r.a r.b) else none
    | 0x53 => if r.lits.isEmpty then some (.vandn r.d r.a r.b) else none
    | 0x54 => if r.lits.isEmpty && r.b == 0 then some (.vnot r.d r.a) else none
    | 0x55 => if r.lits.isEmpty then some (.vshl r.d r.a r.b) else none
    | 0x56 => if r.lits.isEmpty then some (.vshr r.d r.a r.b) else none
    | 0x57 => if r.lits.isEmpty then some (.vsar r.d r.a r.b) else none
    | 0x58 => if r.lits.isEmpty then some (.vsel r.d r.a r.b) else none
    | 0x59 => if r.lits.isEmpty && r.b == 0 then some (.vmov r.d r.a) else none
    | 0x5A => if r.lits.isEmpty && r.b == 0 then some (.vbcst r.d r.a) else none
    | 0x5B => if r.lits.isEmpty then some (.vextr r.d r.a r.b) else none
    | 0x5C => if r.lits.isEmpty then some (.vinsr r.d r.a r.b) else none
    | 0x60 => if r.lits.isEmpty && r.b == 0 then (kField r.a).bind fun a => some (.kpopc r.d a) else none
    | 0x61 => if r.lits.isEmpty && r.b == 0 then (kField r.a).bind fun a => some (.kfirst r.d a) else none
    | 0x62 => if r.lits.isEmpty && r.b == 0 then (kField r.a).bind fun a => some (.klast r.d a) else none
    | _ => none

/-- Class 13 (11 R273 to R283). -/
def decodeClass13 (r : RawSlot) : Option Instr :=
  if r.lits.isEmpty then (Ty.ofCode (r.op.toNat / 8)).bind fun t => (Ty.ofCode (r.b.toNat)).bind fun src => (Rc.ofCode (r.op.toNat % 8)).bind fun rc => if t.isCvt && src.isCvt && decide (t ≠ src) then some (.cvtVector t src rc r.d r.a) else none else none

/-- Class 14 (11 R273 to R283). -/
def decodeClass14 (r : RawSlot) : Option Instr :=
  match r.op.toNat / 16 with
  | 0 => if r.lits.isEmpty then (Ty.ofCode (r.op.toNat % 16)).bind fun t => if t.isQuant then some (.vqnt t r.d r.a r.b) else none else none
  | 1 | 2 | 3 => if r.lits.isEmpty && decide (r.b.toNat % 2 = 0) then (Ty.ofCode (r.op.toNat / 16 - 1)).bind fun out => (Ty.ofCode (r.op.toNat % 16)).bind fun src => if out.isFp && src.isDq then some (.vdq out src r.d r.a r.b) else none else none
  | _ => match r.op.toNat with
    | 0x40 => if r.lits.isEmpty then some (.vperm r.d r.a r.b) else none
    | 0x41 => if r.lits.isEmpty then some (.vrot r.d r.a r.b) else none
    | 0x42 => if r.lits.isEmpty then some (.vziplo r.d r.a r.b) else none
    | 0x43 => if r.lits.isEmpty then some (.vziphi r.d r.a r.b) else none
    | 0x44 => if r.lits.isEmpty && r.b == 0 then some (.vcomp r.d r.a) else none
    | 0x45 => if r.lits.isEmpty && r.b == 0 then some (.vexpd r.d r.a) else none
    | 0x46 => if r.lits.isEmpty && r.a == 0 && r.b == 0 then some (.viota r.d) else none
    | 0x48 => if r.lits.isEmpty then some (.vclmullo r.d r.a r.b) else none
    | 0x49 => if r.lits.isEmpty then some (.vclmulhi r.d r.a r.b) else none
    | _ => none

/-- Class 15 (11 R273 to R283). -/
def decodeClass15 (r : RawSlot) : Option Instr :=
  match r.op.toNat / 16 with
  | 0 => if r.lits.isEmpty && r.b == 0 then (Ty.ofCode (r.op.toNat % 16)).bind fun t => if t.isRed then some (.vrsum t r.d r.a) else none else none
  | 1 => if r.lits.isEmpty && r.b == 0 then (Ty.ofCode (r.op.toNat % 16)).bind fun t => if t.isRed then some (.vrmax t r.d r.a) else none else none
  | 2 => if r.lits.isEmpty && r.b == 0 then (Ty.ofCode (r.op.toNat % 16)).bind fun t => if t.isRed then some (.vrmin t r.d r.a) else none else none
  | 4 => if r.lits.isEmpty && r.b == 0 then (Ty.ofCode (r.op.toNat % 16)).bind fun t => if t.isRed then some (.vscsum t r.d r.a) else none else none
  | 5 => if r.lits.isEmpty && r.b == 0 then (Ty.ofCode (r.op.toNat % 16)).bind fun t => if t.isRed then some (.vscmax t r.d r.a) else none else none
  | 6 => if r.lits.isEmpty && r.b == 0 then (Ty.ofCode (r.op.toNat % 16)).bind fun t => if t.isRed then some (.vscmin t r.d r.a) else none else none
  | _ => none

/-- Class 16 (11 R273 to R283). -/
def decodeClass16 (r : RawSlot) : Option Instr :=
  match r.op.toNat / 16 with
  | 0 => if r.lits.isEmpty then (Ty.ofCode (r.op.toNat % 16)).bind fun t => if t.isFp then some (.vdiv t r.d r.a r.b) else none else none
  | 1 => if r.lits.isEmpty && r.b == 0 then (Ty.ofCode (r.op.toNat % 16)).bind fun t => if t.isFp then some (.vsqrt t r.d r.a) else none else none
  | 2 => if r.lits.isEmpty && r.b == 0 then (Ty.ofCode (r.op.toNat % 16)).bind fun t => if t.isFp then some (.vrcp t r.d r.a) else none else none
  | 3 => if r.lits.isEmpty && r.b == 0 then (Ty.ofCode (r.op.toNat % 16)).bind fun t => if t.isFp then some (.vrsqrt t r.d r.a) else none else none
  | 4 => if r.lits.isEmpty && r.b == 0 then (Ty.ofCode (r.op.toNat % 16)).bind fun t => if t.isFp then some (.vexp2 t r.d r.a) else none else none
  | 5 => if r.lits.isEmpty && r.b == 0 then (Ty.ofCode (r.op.toNat % 16)).bind fun t => if t.isFp then some (.vlog2 t r.d r.a) else none else none
  | 6 => if r.lits.isEmpty && r.b == 0 then (Ty.ofCode (r.op.toNat % 16)).bind fun t => if t.isFp then some (.vtanh t r.d r.a) else none else none
  | 7 => if r.lits.isEmpty && r.b == 0 then (Ty.ofCode (r.op.toNat % 16)).bind fun t => if t.isFp then some (.vsigm t r.d r.a) else none else none
  | _ => none

/-- Class 17 (11 R273 to R283). -/
def decodeClass17 (r : RawSlot) : Option Instr :=
  match r.op.toNat with
  | 0x00 => if r.lits.isEmpty && r.b == 0 then (zField r.d).bind fun d => some (.sbind d r.a) else none
  | 0x01 => if r.lits.isEmpty then (zField r.d).bind fun d => (zField r.a).bind fun a => (zField r.b).bind fun b => if decide (d ≠ a) && decide (d ≠ b) then some (.sint d a b) else none else none
  | 0x02 => if r.lits.isEmpty then (zField r.d).bind fun d => (zField r.a).bind fun a => (zField r.b).bind fun b => if decide (d ≠ a) && decide (d ≠ b) then some (.suni d a b) else none else none
  | 0x03 => if r.lits.isEmpty then (zField r.d).bind fun d => (zField r.a).bind fun a => (zField r.b).bind fun b => if decide (d ≠ a) && decide (d ≠ b) then some (.ssub d a b) else none else none
  | 0x04 => if r.lits.isEmpty then (zField r.d).bind fun d => (zField r.a).bind fun a => (zField r.b).bind fun b => if decide (d ≠ a) && decide (d ≠ b) then some (.smadd d a b) else none else none
  | 0x05 => if r.lits.isEmpty && r.b == 0 then (zField r.a).bind fun a => some (.sdrain r.d a) else none
  | 0x06 => if r.lits.isEmpty && r.b == 0 then (zField r.a).bind fun a => some (.scnt r.d a) else none
  | 0x07 => if r.lits.isEmpty && r.a == 0 && r.b == 0 then (zField r.d).bind fun d => some (.sfree d) else none
  | _ => none

/-- Class 18 (11 R273 to R283). -/
def decodeClass18 (r : RawSlot) : Option Instr :=
  match r.op.toNat / 16 with
  | 0 => if decide (r.lits.length ≤ 2) then (Ty.ofCode (r.op.toNat % 16)).bind fun t => if t.isMem then some (.ld t r.d r.a ⟨r.b, r.lits⟩) else none else none
  | 7 => if decide (r.lits.length ≤ 2) then (Ty.ofCode (r.op.toNat % 16)).bind fun t => if t.isMem then some (.lds t r.d r.a ⟨r.b, r.lits⟩) else none else none
  | _ => if decide (r.lits.length ≤ 2) then (Scope.ofCode (r.op.toNat / 16 - 1)).bind fun sc => (Ty.ofCode (r.op.toNat % 16)).bind fun t => if t.isMem then some (.ldacq sc t r.d r.a ⟨r.b, r.lits⟩) else none else none

/-- Class 19 (11 R273 to R283). -/
def decodeClass19 (r : RawSlot) : Option Instr :=
  match r.op.toNat / 16 with
  | 0 => if decide (r.lits.length ≤ 2) then (Ty.ofCode (r.op.toNat % 16)).bind fun t => if t.isMem then some (.st t r.d r.a ⟨r.b, r.lits⟩) else none else none
  | 7 => if decide (r.lits.length ≤ 2) then (Ty.ofCode (r.op.toNat % 16)).bind fun t => if t.isMem then some (.sts t r.d r.a ⟨r.b, r.lits⟩) else none else none
  | _ => if decide (r.lits.length ≤ 2) then (Scope.ofCode (r.op.toNat / 16 - 1)).bind fun sc => (Ty.ofCode (r.op.toNat % 16)).bind fun t => if t.isMem then some (.strel sc t r.d r.a ⟨r.b, r.lits⟩) else none else none

/-- Class 20 (11 R273 to R283). -/
def decodeClass20 (r : RawSlot) : Option Instr :=
  match r.op.toNat % 16 with
  | 0 => match r.op.toNat / 16 with
    | 0 => if decide (r.lits.length ≤ 2) then some (.vld r.d r.a ⟨r.b, r.lits⟩) else none
    | 7 => if decide (r.lits.length ≤ 2) then some (.vlds r.d r.a ⟨r.b, r.lits⟩) else none
    | _ => if decide (r.lits.length ≤ 2) then (Scope.ofCode (r.op.toNat / 16 - 1)).bind fun sc => some (.vldacq sc r.d r.a ⟨r.b, r.lits⟩) else none
  | 1 => match r.op.toNat / 16 with
    | 0 => if decide (r.lits.length ≤ 2) then some (.vst r.d r.a ⟨r.b, r.lits⟩) else none
    | 7 => if decide (r.lits.length ≤ 2) then some (.vsts r.d r.a ⟨r.b, r.lits⟩) else none
    | _ => if decide (r.lits.length ≤ 2) then (Scope.ofCode (r.op.toNat / 16 - 1)).bind fun sc => some (.vstrel sc r.d r.a ⟨r.b, r.lits⟩) else none
  | _ => none

/-- Class 21 (11 R273 to R283). -/
def decodeClass21 (r : RawSlot) : Option Instr :=
  match r.op.toNat with
  | 0x00 => if decide (r.lits.length ≤ 2) then some (.fill r.d r.a ⟨r.b, r.lits⟩) else none
  | 0x01 => if decide (r.lits.length ≤ 2) then some (.take r.d r.a ⟨r.b, r.lits⟩) else none
  | 0x02 => if decide (r.lits.length ≤ 2) then some (.readf r.d r.a ⟨r.b, r.lits⟩) else none
  | 0x03 => if decide (r.lits.length ≤ 2) then some (.writef r.d r.a ⟨r.b, r.lits⟩) else none
  | 0x04 => if decide (r.lits.length ≤ 2) then some (.sete r.d r.a ⟨r.b, r.lits⟩) else none
  | 0x10 => if r.lits.isEmpty then some (.vgath r.d r.a r.b) else none
  | 0x11 => if r.lits.isEmpty then some (.vscat r.d r.a r.b) else none
  | 0x12 => if r.lits.isEmpty then some (.vgaths r.d r.a r.b) else none
  | 0x13 => if r.lits.isEmpty then some (.vscats r.d r.a r.b) else none
  | 0x14 => if r.lits.isEmpty then some (.vmcst r.d r.a r.b) else none
  | 0x15 => if r.lits.isEmpty then some (.vrdst r.d r.a r.b) else none
  | _ => none

/-- Class 22 (11 R273 to R283). -/
def decodeClass22 (r : RawSlot) : Option Instr :=
  match r.op.toNat / 8 with
  | 0 => (AOrd.decode (r.op.toNat / 2 % 4) r.lits).bind fun o => some (.aadd o (if r.op.toNat % 2 = 0 then .w32 else .w64) r.d r.a r.b)
  | 1 => (AOrd.decode (r.op.toNat / 2 % 4) r.lits).bind fun o => some (.aand o (if r.op.toNat % 2 = 0 then .w32 else .w64) r.d r.a r.b)
  | 2 => (AOrd.decode (r.op.toNat / 2 % 4) r.lits).bind fun o => some (.aor o (if r.op.toNat % 2 = 0 then .w32 else .w64) r.d r.a r.b)
  | 3 => (AOrd.decode (r.op.toNat / 2 % 4) r.lits).bind fun o => some (.axor o (if r.op.toNat % 2 = 0 then .w32 else .w64) r.d r.a r.b)
  | 4 => (AOrd.decode (r.op.toNat / 2 % 4) r.lits).bind fun o => some (.aminSigned o (if r.op.toNat % 2 = 0 then .w32 else .w64) r.d r.a r.b)
  | 5 => (AOrd.decode (r.op.toNat / 2 % 4) r.lits).bind fun o => some (.amaxSigned o (if r.op.toNat % 2 = 0 then .w32 else .w64) r.d r.a r.b)
  | 6 => (AOrd.decode (r.op.toNat / 2 % 4) r.lits).bind fun o => some (.aminUnsigned o (if r.op.toNat % 2 = 0 then .w32 else .w64) r.d r.a r.b)
  | 7 => (AOrd.decode (r.op.toNat / 2 % 4) r.lits).bind fun o => some (.amaxUnsigned o (if r.op.toNat % 2 = 0 then .w32 else .w64) r.d r.a r.b)
  | 8 => (AOrd.decode (r.op.toNat / 2 % 4) r.lits).bind fun o => some (.aswap o (if r.op.toNat % 2 = 0 then .w32 else .w64) r.d r.a r.b)
  | 9 => (AOrd.decode (r.op.toNat / 2 % 4) r.lits).bind fun o => some (.acas o (if r.op.toNat % 2 = 0 then .w32 else .w64) r.d r.a r.b)
  | _ => none

/-- Class 29 (11 R273 to R283). -/
def decodeClass29 (r : RawSlot) : Option Instr :=
  match r.op.toNat / 8 with
  | 0 => if decide (r.d.toNat % 2 = 0) && decide (r.b.toNat % 2 = 0) && decide (r.op.toNat % 2 = 0) then (AOrd.decode (r.op.toNat / 2 % 4) r.lits).bind fun o => some (.acasw o r.d r.a r.b) else none
  | 1 => if decide (r.d.toNat % 2 = 0) && decide (r.b.toNat % 2 = 0) && decide (r.op.toNat % 2 = 0) then (AOrd.decode (r.op.toNat / 2 % 4) r.lits).bind fun o => some (.aswapw o r.d r.a r.b) else none
  | 2 => if decide (r.op.toNat % 2 = 0) then (AOrd.decode (r.op.toNat / 2 % 4) r.lits).bind fun o => some (.afaddF32 o r.d r.a r.b) else none
  | 3 => if decide (r.op.toNat % 2 = 0) then (AOrd.decode (r.op.toNat / 2 % 4) r.lits).bind fun o => some (.afaddBf16 o r.d r.a r.b) else none
  | 4 => if decide (r.op.toNat % 2 = 0) then (AOrd.decode (r.op.toNat / 2 % 4) r.lits).bind fun o => some (.vafaddF32 o r.d r.a r.b) else none
  | 5 => if decide (r.op.toNat % 2 = 0) then (AOrd.decode (r.op.toNat / 2 % 4) r.lits).bind fun o => some (.vaaddZ32 o r.d r.a r.b) else none
  | _ => none

/-- Class 23 (11 R273 to R283). -/
def decodeClass23 (r : RawSlot) : Option Instr :=
  match r.op.toNat / 8 with
  | 0 => if r.lits.isEmpty && r.d == 0 && r.a == 0 && r.b == 0 then (Scope.ofCode (r.op.toNat % 8)).bind fun sc => some (.fenceAcq sc) else none
  | 1 => if r.lits.isEmpty && r.d == 0 && r.a == 0 && r.b == 0 then (Scope.ofCode (r.op.toNat % 8)).bind fun sc => some (.fenceRel sc) else none
  | 2 => if r.lits.isEmpty && r.d == 0 && r.a == 0 && r.b == 0 then (Scope.ofCode (r.op.toNat % 8)).bind fun sc => some (.fence sc) else none
  | _ => match r.op.toNat with
    | 0x20 => if r.lits.isEmpty && r.d == 0 && r.b == 0 then some (.bella r.a) else none
    | 0x21 => if r.lits.isEmpty && r.d == 0 && r.b == 0 then some (.bellw r.a) else none
    | 0x22 => if r.lits.isEmpty && r.d == 0 then some (.bellm r.a r.b) else none
    | 0x28 => if r.lits.isEmpty && r.d == 0 then some (.rolli r.a r.b) else none
    | 0x29 => if r.lits.isEmpty && r.d == 0 then some (.rolla r.a r.b) else none
    | 0x2A => if r.lits.isEmpty && r.b == 0 then some (.rollw r.d r.a) else none
    | 0x30 => if r.lits.isEmpty then some (.stslip r.d r.a r.b) else none
    | 0x31 => if r.lits.isEmpty then some (.stwait1 r.d r.a r.b) else none
    | 0x32 => if r.lits.isEmpty then some (.stwait2 r.d r.a r.b) else none
    | _ => none

/-- Class 24 (11 R273 to R283). -/
def decodeClass24 (r : RawSlot) : Option Instr :=
  match r.op.toNat / 8 with
  | 0 => if r.lits.isEmpty && r.d == 0 && r.b == 0 then (LockMode.ofCode (r.op.toNat % 8)).bind fun m => some (.lkreq m r.a) else none
  | 1 => if r.lits.isEmpty && r.b == 0 then (LockMode.ofCode (r.op.toNat % 8)).bind fun m => some (.lktry m r.d r.a) else none
  | _ => match r.op.toNat with
    | 0x10 => if r.lits.isEmpty && r.d == 0 && r.b == 0 then some (.lkrel r.a) else none
    | _ => none

/-- Class 25 (11 R273 to R283). -/
def decodeClass25 (r : RawSlot) : Option Instr :=
  match r.op.toNat with
  | 0x00 => if r.lits.isEmpty then (kField r.d).bind fun n => some (.cpin n r.a r.b) else none
  | 0x01 => if r.lits.isEmpty then (kField r.d).bind fun n => some (.cevf n r.a r.b) else none
  | 0x02 => if r.lits.isEmpty && r.a == 0 && r.b == 0 then (kField r.d).bind fun n => some (.cunpin n) else none
  | 0x08 => if r.lits.isEmpty && r.d == 0 then some (.cflush r.a r.b) else none
  | 0x09 => if r.lits.isEmpty && r.d == 0 then some (.cinv r.a r.b) else none
  | 0x0A => if decide (r.lits.length ≤ 2) && r.d == 0 then some (.pref r.a ⟨r.b, r.lits⟩) else none
  | _ => none

/-- Class 26 (11 R273 to R283). -/
def decodeClass26 (r : RawSlot) : Option Instr :=
  match r.op.toNat with
  | 0x00 => if r.lits.isEmpty then (zField r.d).bind fun d => some (.mma d r.a r.b) else none
  | 0x01 => if r.lits.isEmpty then (zField r.d).bind fun d => some (.mmag d r.a r.b) else none
  | 0x02 => if r.lits.isEmpty then (zField r.d).bind fun d => some (.mmab d r.a r.b) else none
  | _ => none

/-- Class 27 (11 R273 to R283). -/
def decodeClass27 (r : RawSlot) : Option Instr :=
  match r.op.toNat with
  | 0x00 => if r.lits.isEmpty && r.a == 0 && r.b == 0 then (zField r.d).bind fun d => some (.zclr d) else none
  | 0x01 => if r.lits.isEmpty && r.b == 0 then (zField r.d).bind fun d => some (.zld d r.a) else none
  | 0x02 => if r.lits.isEmpty && r.b == 0 then (zField r.d).bind fun d => some (.zst d r.a) else none
  | 0x03 => if r.lits.isEmpty then (zField r.a).bind fun a => some (.zrd r.d a r.b) else none
  | 0x04 => if r.lits.isEmpty && r.a == 0 && r.b == 0 then (zField r.d).bind fun d => some (.zget d) else none
  | 0x05 => if r.lits.isEmpty && r.a == 0 && r.b == 0 then (zField r.d).bind fun d => some (.zput d) else none
  | 0x08 => if r.lits.isEmpty && r.d == 0 && r.b == 0 then some (.scld r.a) else none
  | 0x10 => if r.lits.isEmpty && r.d == 0 && r.b == 0 then some (.tgemm r.a) else none
  | _ => none

/-- Class 28 (11 R273 to R283). -/
def decodeClass28 (r : RawSlot) : Option Instr :=
  match r.op.toNat with
  | 0x01 => if r.lits.isEmpty && r.d == 0 then some (.cpy r.a r.b) else none
  | 0x02 => if r.lits.isEmpty && r.d == 0 then some (.cpym r.a r.b) else none
  | 0x03 => if r.lits.isEmpty && r.d == 0 then some (.irr r.a r.b) else none
  | 0x08 => if r.lits.isEmpty && r.d == 0 then some (.embg r.a r.b) else none
  | 0x09 => if r.lits.isEmpty && r.d == 0 then some (.embu r.a r.b) else none
  | 0x0A => if r.lits.isEmpty && r.d == 0 then some (.a2a r.a r.b) else none
  | 0x0B => if r.lits.isEmpty && r.d == 0 then some (.coll r.a r.b) else none
  | 0x10 => if r.lits.isEmpty && r.d == 0 then some (.hcfg r.a r.b) else none
  | 0x11 => if r.lits.isEmpty && r.d == 0 then some (.hkst r.a r.b) else none
  | 0x12 => if r.lits.isEmpty && r.d == 0 then some (.hgth r.a r.b) else none
  | 0x18 => if r.lits.isEmpty && r.d == 0 then some (.ttload r.a r.b) else none
  | _ => none

/-- The instruction of a slot's fields, guard apart; none for an unassigned encoding (11 R269). -/
def RawSlot.instr (r : RawSlot) : Option Instr :=
  match r.cls.toNat with
  | 0 => decodeClass0 r
  | 1 => decodeClass1 r
  | 2 => decodeClass2 r
  | 3 => decodeClass3 r
  | 4 => decodeClass4 r
  | 5 => decodeClass5 r
  | 6 => decodeClass6 r
  | 7 => decodeClass7 r
  | 8 => decodeClass8 r
  | 9 => decodeClass9 r
  | 10 => decodeClass10 r
  | 11 => decodeClass11 r
  | 12 => decodeClass12 r
  | 13 => decodeClass13 r
  | 14 => decodeClass14 r
  | 15 => decodeClass15 r
  | 16 => decodeClass16 r
  | 17 => decodeClass17 r
  | 18 => decodeClass18 r
  | 19 => decodeClass19 r
  | 20 => decodeClass20 r
  | 21 => decodeClass21 r
  | 22 => decodeClass22 r
  | 29 => decodeClass29 r
  | 23 => decodeClass23 r
  | 24 => decodeClass24 r
  | 25 => decodeClass25 r
  | 26 => decodeClass26 r
  | 27 => decodeClass27 r
  | 28 => decodeClass28 r
  | _ => none

/-- The guard and the instruction of a slot (11 R265, R269). -/
def RawSlot.decode (r : RawSlot) : Option (Guard × Instr) :=
  let g : Guard := ⟨r.k, r.gn⟩
  if g.wf then r.instr.map (g, ·) else none

/-- The fields of an instruction slot's word, with the payloads of its literal slots (11 R264). -/
def RawSlot.ofWord (w : BitVec 32) (lits : List (BitVec 26)) : RawSlot :=
  ⟨w.extractLsb' 26 5, w.extractLsb' 21 5, w.extractLsb' 16 5, w.extractLsb' 11 5, w.extractLsb' 8 3,
   w.getLsbD 7, w.extractLsb' 0 7, lits⟩

/-- The word of a slot, STOP clear (11 R264). -/
def RawSlot.word (r : RawSlot) : BitVec 32 :=
  (0 : BitVec 1) ++ r.cls ++ r.d ++ r.a ++ r.b ++ r.k ++ BitVec.ofBool r.gn ++ r.op

/-- The word of a literal slot, STOP clear (11 R264). -/
def litWord (p : BitVec 26) : BitVec 32 := (0 : BitVec 1) ++ (31 : BitVec 5) ++ p

/-- STOP of a word (11 R264). -/
def wordStop (w : BitVec 32) : Bool := w.getLsbD 31
/-- CLASS of a word. -/
def wordClass (w : BitVec 32) : BitVec 5 := w.extractLsb' 26 5
/-- Set STOP. -/
def setStop (w : BitVec 32) : BitVec 32 := w ||| 0x80000000#32

/-- The guard and the instruction of one slot's word with its literals; STOP is no part of them. -/
def decodeSlot (w : BitVec 32) (lits : List (BitVec 26)) : Option (Guard × Instr) :=
  (RawSlot.ofWord w lits).decode

/-- The words of a guarded instruction, its literal slots behind it, STOP clear on all of them; none for an event. -/
def encode (g : Guard) (i : Instr) : Option (List (BitVec 32)) :=
  (i.toRaw g).map fun r => r.word :: r.lits.map litWord

/-- Decode the words of one instruction: a slot and the literal slots behind it. -/
def decodeWords : List (BitVec 32) → Option (Guard × Instr)
  | [] => none
  | w :: ls => if ls.all (fun l => wordClass l == 31) then decodeSlot w (ls.map (·.extractLsb' 0 26)) else none

/-- Four bytes, least significant first (00 R5), as a word. -/
def wordOfBytes (b0 b1 b2 b3 : Byte) : BitVec 32 := b3 ++ b2 ++ b1 ++ b0

/-- The bytes of a word in memory order (00 R5). -/
def bytesOfWord (w : BitVec 32) : List Byte :=
  [w.extractLsb' 0 8, w.extractLsb' 8 8, w.extractLsb' 16 8, w.extractLsb' 24 8]

/-- The 32-bit words of a run of bytes; bytes beyond the last whole word are left. -/
def wordsOfBytes : List Byte → List (BitVec 32)
  | b0 :: b1 :: b2 :: b3 :: rest => wordOfBytes b0 b1 b2 b3 :: wordsOfBytes rest
  | _ => []

/-- Why bytes are no instruction: too few of them, or an encoding 11 R269 leaves unassigned. -/
inductive DecodeErr where
  | tooShort
  | unassigned (w : BitVec 32)
  deriving DecidableEq, Repr

/-- Decode one slot without literals from bytes, with the rest of the bytes. -/
def decodeBytes : List Byte → Except DecodeErr (Guard × Instr × List Byte)
  | b0 :: b1 :: b2 :: b3 :: rest =>
    match decodeSlot (wordOfBytes b0 b1 b2 b3) [] with
    | some (g, i) => .ok (g, i, rest)
    | none => .error (.unassigned (wordOfBytes b0 b1 b2 b3))
  | _ => .error .tooShort

/-- The instruction the decoder reads from a table row's word: one 32-bit slot, laid out as its bytes. -/
def decodeTableWord (_nbits w : Nat) : Option Instr :=
  match decodeBytes (bytesOfWord (BitVec.ofNat 32 w)) with
  | .ok (_, i, _) => some i
  | .error _ => none

/-! ## Bundles (11 R266 to R268) -/

/-- The slot kinds of 05 R129 and 11 R273. -/
inductive SlotKind where
  | none | scalar | control | vector | memory | matrix
  deriving DecidableEq, Repr

/-- The kind of a major class (11 R273); class 30 counts toward no kind. -/
def slotKind (cls : Nat) : SlotKind :=
  if cls = 0 then .none
  else if cls ≤ 5 then .scalar
  else if cls ≤ 8 then .control
  else if cls ≤ 17 then .vector
  else if cls ≤ 25 then .memory
  else if cls ≤ 28 then .matrix
  else if cls = 29 then .memory
  else .none

/-- How many slots of each kind a bundle may hold (05 R129). -/
def kindLimit : SlotKind → Nat
  | .none => 8
  | .scalar => 2
  | .control => 1
  | .vector => 4
  | .memory => 1
  | .matrix => 1

/-- An instruction slot with the literals attached to it (11 R267). -/
abbrev SlotWord := BitVec 32 × List (BitVec 26)

/-- The words of a bundle, through the first STOP and at most sixteen of them; the mark says that a STOP was
found (11 R266, R268). -/
def takeBundle : Nat → List (BitVec 32) → List (BitVec 32) × Bool
  | 0, _ => ([], false)
  | _ + 1, [] => ([], false)
  | n + 1, w :: ws =>
    if wordStop w then ([w], true)
    else ((w :: (takeBundle n ws).1), (takeBundle n ws).2)

/-- Attach literal slots to the instruction slots before them; none when the first slot is a literal. -/
def groupSlots : List (BitVec 32) → Option (List SlotWord)
  | [] => some []
  | w :: ws =>
    if wordClass w == 31 then none
    else some (go w [] ws)
where
  /-- The slot `w` with the literals `ls` met so far, and the words behind them. -/
  go (w : BitVec 32) (ls : List (BitVec 26)) : List (BitVec 32) → List SlotWord
    | [] => [(w, ls)]
    | x :: xs =>
      if wordClass x == 31 then go w (ls ++ [x.extractLsb' 0 26]) xs
      else (w, ls) :: go x [] xs

/-- Slots of a kind in a bundle. -/
def countKind (k : SlotKind) (ss : List SlotWord) : Nat :=
  ss.countP fun s => slotKind (wordClass s.1).toNat == k

/-- A bundle's slots, or the number of instruction slots that ILLEGAL_BUNDLE reports (11 R268). -/
def parseBundle (ws : List (BitVec 32)) (stopped : Bool) : Except Nat (List SlotWord) :=
  let n := ws.countP fun w => wordClass w != 31
  match groupSlots ws with
  | none => .error n
  | some ss =>
    if stopped && decide (4 ≤ n) && decide (n ≤ 8) && ss.all (fun s => decide (s.2.length ≤ 2)) &&
        ([SlotKind.scalar, .control, .vector, .memory, .matrix].all fun k =>
          decide (countKind k ss ≤ kindLimit k))
    then .ok ss else .error n

/-- The instructions of a bundle's slots, or the index and word of the first unassigned one (11 R269). -/
def decodeBundle : Nat → List SlotWord → Except (Nat × BitVec 32) (List (Guard × Instr))
  | _, [] => .ok []
  | j, (w, ls) :: rest =>
    match decodeSlot w ls with
    | none => .error (j, w)
    | some i =>
      match decodeBundle (j + 1) rest with
      | .ok is => .ok (i :: is)
      | .error e => .error e

end Sys2Proof
end

