-- ==== Sys2Proof/Config.lean ====
section
/-! DEFINITION. What an implementation fixes and the free values: constants without a body, so that no
proof can see their value (log entries 9 and 12). -/

namespace Sys2Proof.Config

/-- An unspecified byte (00 R10); its argument is the counter `freeCtr` of the state. -/
opaque freeByte : Nat → Byte
/-- An unspecified 64-bit value (00 R10), by the same counter. -/
opaque freeWord : Nat → Word
/-- A duration the spec leaves open (00 R441), in cycles, by the same counter. -/
opaque latency : Nat → Nat
/-- A choice the spec leaves open among several permitted ones (02 R45, 04 R101), by the same counter. -/
opaque choice : Nat → Nat
/-- The data and tweak keys that key number `n` stands for (01 R21). -/
opaque keyData : Nat → BitVec 256 × BitVec 256
/-- The fused minimum security version of the manifest (01 R16). -/
opaque fusedMinVersion : BitVec 16
/-- The PCIe vendor identifier of the adapter (01 R25). -/
opaque vendorId : BitVec 16

end Sys2Proof.Config
end

