-- ==== Sys2Proof/Machine/State.lean ====
section
/-! DEFINITION. The state of the Yilven Y3 as plain data: everything the spec gives the machine, the model's
own fields beside it (INVENTORY.md, '## State'), and the state after a full reset. -/

namespace Sys2Proof.Machine

open Sys2Proof

/-! ## Package and Proctor (01_package_and_proctor.md) -/

/-- A request tracker of a home die for one source class (01 R13, R14, R15). -/
structure Tracker where
  /-- Entries that hold an accepted request; with those held for ports, at most 256. -/
  used : Nat := 0
  /-- Entries held for ticketed ports: port, request, and the cycle of the last notice. -/
  held : List (Nat × Nat × Nat) := []
  /-- The ticket queue, oldest first: source ports with the request each wants to make. -/
  tickets : List (Nat × Nat) := []
  /-- Requests refused once, each to be retried: source port and request. -/
  refused : List (Nat × Nat) := []
  /-- Requests that wait in their port behind its ticketed one: source port, request, and whether the request has been
  refused once before. -/
  behind : List (Nat × Nat × Bool) := []
  deriving DecidableEq, Repr

/-- Where the Proctor's start-up stands (01 R16 to R19, 03 R67). -/
inductive BootPhase where
  | reset | booting | ready | failed | halted
  deriving DecidableEq, Repr

/-- The three alarm levels (01 R23, R25). -/
inductive AlarmLevel where
  | log | halt | erase
  deriving DecidableEq, Repr

/-- A key load a controller has not confirmed yet (01 R21). -/
structure KeyLoad where
  keySlot : Nat
  ctl : Nat
  resends : Nat
  /-- The time at which the 100 µs of the last sending end. -/
  deadline : Nat := 0
  deriving DecidableEq, Repr

/-- A sensor excursion under way (01 R23): the levels its own event and event 6 had when it began (01 R25), and the time
at which it began. -/
structure Excursion where
  code : Nat
  die : Nat
  level : AlarmLevel
  shortLevel : AlarmLevel
  since : Nat
  deriving DecidableEq, Repr

/-- A long SPDM message that travels in chunks (01 R20, 03 R66): its handle, the number of the next chunk, the message's
size, and the bytes that have come, or that are still to be fetched. -/
structure ChunkBuf where
  handle : Nat
  seq : Nat
  size : Nat
  bytes : List Byte
  deriving DecidableEq, Repr

/-- The wake state of a compute die (01 R26). -/
structure DieWake where
  awake : Bool := false
  /-- The cycle the wake starts, once requested. -/
  start : Option Nat := none
  /-- Clusters that can issue matrix and vector bundles. -/
  clusters : List Nat := []
  /-- The cycle of the last matrix, vector-pipe or HBM4E activity. -/
  lastActive : Nat := 0
  deriving DecidableEq, Repr

/-- The Proctor, the key store, the alarms and the power manager. -/
structure Package where
  phase : BootPhase := .reset
  /-- Step of 01 R17 in progress, or the step that failed. -/
  bootStep : Nat := 0
  /-- Die code whose measurement comes next. -/
  nextDie : Nat := 0
  cause : Nat := 0
  causeDie : Nat := 0
  secver : BitVec 16 := 0
  manifest : Option Manifest := none
  /-- Dies released by the Proctor and not held (die codes of 03 R65). -/
  released : List Nat := []
  held : List Nat := []
  bootBlock : Bool := false
  /-- MODRST.INRESET (01 R19). -/
  inReset : Bool := false
  /-- The cycle in which the last full reset ended (03 R65). -/
  bootCycle : Nat := 0
  /-- LPDDR packages found on each pannier (01 R442). -/
  pkgs : List Nat := []
  capGib : Nat := 0
  /-- The key store: slot number to key number (01 R21); a slot not listed is zeroised. -/
  keys : Tbl Nat := []
  /-- The number of the next key drawn from the random bit generator. -/
  nextKey : Nat := 1
  keyLoads : List KeyLoad := []
  /-- Controllers that have not confirmed a zeroisation (01 R22): slot and controller. -/
  zeroising : List (Nat × Nat) := []
  alarms : List AlarmLevel := [.halt, .halt, .halt, .erase, .erase, .halt, .log]
  /-- Excursions that have begun and not yet lasted 1 µs (01 R23). -/
  excursions : List Excursion := []
  debugFails : Nat := 0
  /-- SPDM: requests answered so far towards a connection, and the open session (01 R20). -/
  spdmPhase : Nat := 0
  spdmSession : Bool := false
  spdmHandshake : Bool := false
  /-- A long request being received in chunks. -/
  spdmChunks : Option ChunkBuf := none
  /-- A long response being fetched in chunks. -/
  spdmReply : Option ChunkBuf := none
  /-- The long request that its last chunk has completed, while it is answered: handle, number of the last chunk, bytes. -/
  spdmInner : Option (Nat × Nat × List Byte) := none
  trackers : List (Nat × SrcClass × Tracker) := []
  wakes : Tbl DieWake := []
  /-- The cycle of the last die wake start (01 R26). -/
  lastWake : Option Nat := none
  /-- PWRCTL (01 R31). -/
  point : Nat := 0
  therm : Bool := false
  topPoint : Nat := 0
  modw : BitVec 16 := 0
  compw : BitVec 16 := 0
  lowWindows : Nat := 0
  topMove : Bool := false
  /-- Issue on every core pauses until the clock change ends (01 R30). -/
  pause : Bool := false
  deriving DecidableEq, Repr

/-! ## Links and fabric (02_fabric_and_links.md) -/

/-- LSTAT.STATE (02 R38). -/
inductive LinkPhase where
  | down | training | up | retraining
  deriving DecidableEq, Repr

/-- A link control flit a port has sent (02 R38, R41, R43). -/
inductive LinkCtl where
  | nack (seq : BitVec 16)
  | retrain (mask : BitVec 16)
  | resume (seq : BitVec 16)
  | resync (sentReq sentRpl : Nat)
  deriving DecidableEq, Repr

/-- A packet being received flit by flit (02 R34, R35), with the slot class of its flits. -/
structure RxPacket where
  head : Packet
  cls : Option Bool
  left : Nat
  beats : List Beat
  deriving DecidableEq, Repr

/-- One fabric port: LSTAT, sequence numbers, replay buffer and slot counts (02 R37 to R43). -/
structure Link where
  phase : LinkPhase := .down
  width : Nat := 0
  failed : BitVec 16 := 0
  group : Nat := 0
  degraded : Bool := false
  delay : BitVec 8 := 0
  replays : Nat := 0
  discards : Nat := 0
  resyncFix : Nat := 0
  duplicates : Nat := 0
  txSeq : BitVec 16 := 0xFFFF
  replay : List Packet := []
  rxSeq : BitVec 16 := 0xFFFF
  /-- The last ACKSEQ received. -/
  acked : BitVec 16 := 0xFFFF
  /-- The time at which the 4,096 flit times of the replay timer end, while it runs (02 R39). -/
  replayAt : Option Nat := none
  /-- New packets are stopped (02 R37, R41). -/
  stopped : Bool := false
  sentReq : Nat := 0
  sentRpl : Nat := 0
  retReq : Nat := 0
  retRpl : Nat := 0
  freedReq : Nat := 0
  freedRpl : Nat := 0
  gotReq : Nat := 0
  gotRpl : Nat := 0
  /-- Best-effort flits sent since the last RESYNC (02 R43). -/
  sinceResync : Nat := 0
  rx : Option RxPacket := none
  /-- The rest of the packet in reception is discarded (02 R34). -/
  dropRest : Bool := false
  /-- Lanes that have lost lock and are not retired yet (02 R40). -/
  lossOfLock : List Nat := []
  /-- This end has sent RETRAIN and waits for the answer (02 R41), until this time. -/
  waitAnswer : Bool := false
  answerAt : Nat := 0
  /-- The width and group chosen in a retrain, and the time its equalisation ends (02 R41 steps 3 and 4). -/
  chosen : Option (Nat × Nat) := none
  equalAt : Nat := 0
  /-- Control flits put on the wire, oldest first. -/
  ctlOut : List LinkCtl := []
  /-- The flits of packets put on the wire, header and data, newest first (02 R33, R35). -/
  wire : List (BitVec 128 × BeatBits) := []
  /-- Packets waiting for buffer slots or for the link (02 R42, R37). -/
  txWait : List Packet := []
  deriving DecidableEq, Repr

/-- Where a checked piece of a store is performed: memory of this chip, a scratchpad, or a page of a peer. -/
inductive StorePlace where
  | phys (pa : Nat)
  | sram (core off : Nat)
  | peer (chip : BitVec 12) (fctx : BitVec 16)
  deriving DecidableEq, Repr

/-- Who waits for a remote request: a register write, a store, an atomic, a chunk of an engine operation. -/
inductive RemoteUse where
  /-- A load or atomic whose value goes to in-flight writes; `lane` names the lane of a vector form. -/
  | load (tid : Word) (inflId : Nat) (lane : Option Nat) (bytes : Nat) (sext : Bool) (own : List (Option Byte))
  /-- A load of a task that has restarted since, or ended: its reply is dropped (06 R168). -/
  | gone
  /-- The two registers of a 128-bit atomic. -/
  | pair (tid : Word) (lo hi : Nat)
  | store (tid : Word)
  /-- A remote read of an engine operation. -/
  | engineRead (op : Nat)
  | engineWrite (op : Nat)
  /-- A held slip-carrying store to memory of this chip (14 R384). -/
  | localHold (tid : Word) (place : StorePlace)
  deriving DecidableEq, Repr

/-- A remote request in flight (02 R45, R46). -/
structure RemoteReq where
  id : Nat
  pkt : Packet
  hub : Nat
  port : Option Nat
  /-- The cycle its REMTO ends (02 R45). -/
  deadline : Nat
  reissues : Nat := 0
  forwards : Nat := 0
  /-- Held at the fabric unit: no candidate port is up, or an earlier access to the line is unacknowledged. -/
  heldAtUnit : Bool := false
  /-- Refused once with HOLD_FULL (02 R55). -/
  refusals : Nat := 0
  ctx : Nat
  use : RemoteUse
  /-- It follows a release fence of FABRIC scope: the fence's number (07 R187, R190). -/
  mark : Option Nat := none
  deriving DecidableEq, Repr

/-- The duplicate filter of one source unit at this chip (02 R45). -/
structure DupFilter where
  newest : BitVec 32 := 0
  done : List (BitVec 32 × Packet) := []
  inProgress : List (BitVec 32) := []
  deriving DecidableEq, Repr

/-- The states of a slip-table entry (02 R50). -/
inductive SlipPhase where
  | free | pending | landed | expired
  deriving DecidableEq, Repr

/-- A slip-table entry (02 R50, R51). -/
structure SlipEntry where
  count : BitVec 8 := 0
  phase : SlipPhase := .free
  leftAt : Nat := 0
  interest : BitVec 512 := 0
  expmap : BitVec 256 := 0
  deriving DecidableEq, Repr

/-- A write in a hold queue (02 R54). -/
structure HeldWrite where
  id : Nat
  pkt : Packet
  /-- Slips not yet known to have landed. -/
  waiting : List (BitVec 32)
  enteredAt : Nat
  deriving DecidableEq, Repr

/-- An entry of a hub's forward cache (02 R46). -/
structure FwdEntry where
  fctx : BitVec 16
  chip : BitVec 12
  vpage : Nat
  pgsz : Nat
  pool : Bool
  newChip : BitVec 12
  ppage : Nat
  /-- The context whose access recorded it. -/
  ctx : Nat
  deriving DecidableEq, Repr

/-- One bank pair of a router output's timetable (02 R47, R48). -/
structure Timetable where
  bank0 : List (BitVec 32) := []
  bank1 : List (BitVec 32) := []
  active : Bool := false
  /-- Slot count at or after which the loaded bank becomes active. -/
  switchAt : Option Nat := none
  /-- The slot count from which the output can take the next circuit flit (02 R47, R49). -/
  free : Nat := 0
  deriving DecidableEq, Repr

/-- A hub: its registers, route table, hold queue and forward cache (02 R44 to R55). -/
structure Hub where
  chip : BitVec 12 := 0
  domain : BitVec 9 := 0
  flushBusy : Bool := false
  routes : Tbl (BitVec 23) := []
  holdLim : Nat := 0x1000000
  remto : Nat := 0x400000
  hold : List HeldWrite := []
  /-- Reservation tickets for hold-queue entries, oldest first (02 R55, 01 R14). -/
  holdTickets : List (BitVec 12 × BitVec 16 × BitVec 32) := []
  /-- Writes for which a free entry is held (01 R14, R15). -/
  holdHeld : List (BitVec 12 × BitVec 16 × BitVec 32) := []
  /-- Writes refused once, by identity. -/
  holdRefused : List (BitVec 12 × BitVec 16 × BitVec 32) := []
  fwd : List FwdEntry := []
  epoch : BitVec 8 := 0
  deriving DecidableEq, Repr

/-- A CXL port (02 R58). -/
structure CxlPort where
  enabled : Bool := false
  capacity : Nat := 0
  deriving DecidableEq, Repr

/-- A request of a peer that waits at this chip for a page (02 R45, 05 R153): hub, packet, context, address, KIND. -/
structure TargetWait where
  hub : Nat
  pkt : Packet
  ctx : Nat
  va : Nat
  cow : Bool
  deriving DecidableEq, Repr

/-- Collective data that has come from a member: 0 by circuit, 1 best-effort, 2 over an Ultra Ethernet connection. -/
structure CollPart where
  src : BitVec 12
  path : Nat
  conn : Nat
  body : CollBody
  deriving DecidableEq, Repr

/-- A circuit flit that waits at an input of a router for a slot of its circuit (02 R47). -/
structure CircFlit where
  router : RouterOut
  input : Nat
  circuit : Nat
  pkt : Packet
  /-- Flits that have still to cross. -/
  left : Nat
  deriving DecidableEq, Repr

/-- One end of a reliable connection of the Ultra Ethernet Transport (02 R59): the next packet number to send, the packets
sent and not acknowledged, the lowest number not yet taken, the numbers above it that have been taken or, for ordered
delivery, have come early, and, by the number of its first packet, which parts of a message of several packets have come. -/
structure UetConn where
  sent : Nat := 0
  unacked : List (Nat × UetPacket) := []
  next : Nat := 0
  taken : List Nat := []
  early : List (Nat × UetPacket) := []
  parts : Tbl (List Nat) := []
  deriving DecidableEq, Repr

/-- The fabric side of the chip. -/
structure Fabric where
  targetWaits : List TargetWait := []
  links : Tbl Link := []
  hubs : Tbl Hub := []
  /-- FCTXMAP: valid entries and their local contexts (02 R44). -/
  fctxmap : Tbl (BitVec 7) := []
  /-- The next REQID of each issuing unit (02 R45). -/
  reqids : Tbl (BitVec 32) := []
  remotes : List RemoteReq := []
  filters : List ((BitVec 12 × BitVec 16) × DupFilter) := []
  /-- FilterEpoch of each peer chip as learned at link training. -/
  peerEpochs : Tbl (BitVec 8) := []
  slips : Tbl SlipEntry := []
  timetables : List (RouterOut × Timetable) := []
  /-- Circuit packets that have crossed an output, newest first. -/
  circuitOut : List (RouterOut × Packet) := []
  /-- Circuit flits that wait for their slots, oldest first (02 R47). -/
  circuitWait : List CircFlit := []
  /-- Circuit data ejected at a hub of this chip, newest first (02 R36, R49). -/
  circuitIn : List (Nat × Packet) := []
  /-- Collectives this chip has completed, with the cycle of completion (02 R56). -/
  collDone : List (BitVec 32 × Nat) := []
  /-- Collective data that came before this chip opened its collective. -/
  collEarly : List (BitVec 32 × CollPart) := []
  cxl : Tbl CxlPort := []
  /-- The ports over which the CXL pool is interleaved: none, 2 or 4 ways (02 R58). -/
  cxlWays : Nat := 1
  uet : Tbl Bool := []
  /-- Ultra Ethernet connections: hub index * 65,536 + connection number. -/
  uetConns : Tbl UetConn := []
  /-- Packets put on Ultra Ethernet ports: hub, transport header, packet. -/
  uetOut : List (Nat × UetHead × UetPacket) := []
  /-- Girth links found failed (02 R60), as pairs of die codes. -/
  girthDown : List (Nat × Nat) := []
  /-- Dies whose sideband to the Proctor has failed (02 R60). -/
  sidebandDown : List Nat := []
  deriving DecidableEq, Repr

/-! ## Host interface and Coachman (03_host_and_coachman.md) -/

/-- An event-table entry that is VALID (03 R65). -/
structure EventRec where
  valid : Bool := true
  source : Nat
  die : Nat
  code : Nat
  time : Nat
  detailA : Nat
  detailB : Nat
  deriving DecidableEq, Repr

/-- A page-fault table entry (05 R153). -/
structure PfEnt where
  cow : Bool
  level : Nat
  vpage : BitVec 41
  waiters : Nat
  engine : Bool
  deriving DecidableEq, Repr

/-- An Invigilator log entry (06 R177). -/
structure IvLogEnt where
  kind : Bool
  win : Nat
  tid : Word
  wtid : Word
  va : BitVec 57
  deriving DecidableEq, Repr

/-- A drive-slot binding DBIND(i) (03 R86). -/
structure DBind where
  target : BitVec 4 := 0
  die : BitVec 4 := 0
  unit : BitVec 2 := 0
  deriving DecidableEq, Repr

/-- CTXCTL.STATE (03 R68). -/
inductive CtxPhase where
  | free | creating | live | destroying
  deriving DecidableEq, Repr

/-- A hot-row way (10 R250). -/
inductive WayPhase where
  | invalid | filling | valid
  deriving DecidableEq, Repr

/-- A hot-row group: registers, directory and LOOKS (10 R249 to R251); the counters of its sketch lie in HBM4E. -/
structure HotGroup where
  en : Bool := false
  busy : Bool := false
  bad : Bool := false
  base : BitVec 36 := 0
  log2sets : BitVec 5 := 0
  slot : BitVec 8 := 1
  hits : Nat := 0
  admits : Nat := 0
  refused : Nat := 0
  /-- Ways in use: (set, way) by key set*8+way, with state and tag. -/
  ways : Tbl (WayPhase × BitVec 64) := []
  /-- Least recently used order of ways, oldest first. -/
  lru : List Nat := []
  looks : Nat := 0
  deriving DecidableEq, Repr

/-- An Invigilator window's registers (06 R174, R175). -/
structure IvWindow where
  arm : Bool := false
  mode : Bool := false
  bell : BitVec 5 := 0
  bellv : Bool := false
  base : BitVec 41 := 0
  len : BitVec 41 := 0
  shadow : BitVec 40 := 0
  interval : BitVec 32 := 0
  deriving DecidableEq, Repr

/-- One context block (03 R68, 04 R106, 05 R145, R152, R153, R156, 06 R173, R174, 09 R225, R238, 10 R249,
15 R417). -/
structure Ctx where
  phase : CtxPhase := .free
  wrign : Bool := false
  dupasid : Bool := false
  keyfail : Bool := false
  asid : BitVec 16 := 0
  ptbase : BitVec 40 := 0
  hwb : BitVec 41 := 0
  hwl : BitVec 41 := 0
  hwo : BitVec 48 := 0
  tvec : BitVec 55 := 0
  dperiod : Nat := 64
  driveRun : Bool := false
  bindbad : Bool := false
  driveWord : BitVec 16 := 0
  dbind : List DBind := []
  dskew : List (BitVec 10) := []
  dcond : BitVec 64 := 0
  frbase : BitVec 36 := 0
  frcnt : BitVec 16 := 0
  /-- Frames reserved for tasks. -/
  frames : List Nat := []
  age : BitVec 16 := 4096
  pdl : BitVec 32 := 20000
  markgap : BitVec 32 := 50000
  hold : Bool := false
  hotbase : BitVec 40 := 0
  /-- BYTES and STALLS of each buffer number (05 R156). -/
  hot : Tbl (Nat × Nat) := []
  tlbBusy : Bool := false
  tlbSize : Nat := 0
  tlbPage : Nat := 0
  pfIrqv : BitVec 6 := 0
  pfent : Tbl PfEnt := []
  /-- Page faults kept while the table is full (05 R153). -/
  pfKept : List (Bool × Nat × Nat × Bool) := []
  pinb : Tbl Word := []
  pinl : Tbl Word := []
  vdlast : Word := 0
  vdcnt : Nat := 0
  vdcause : BitVec 16 := 0
  ivIrqv : BitVec 6 := 0
  iv : Tbl IvWindow := []
  ivlost : Nat := 0
  ivlog : Tbl IvLogEnt := []
  lkcompat : BitVec 25 := 0x5956F
  lkbad : Bool := false
  lkWounds : Nat := 0
  lkRefusals : Nat := 0
  ttAllow : Bool := false
  hrg : Tbl HotGroup := []
  deriving DecidableEq, Repr

/-- The registers of a job-card queue (03 R71). -/
structure Queue where
  enable : Bool := false
  ctx : BitVec 6 := 0
  prio : BitVec 3 := 0
  weight : BitVec 8 := 1
  irqv : BitVec 6 := 0
  overrun : Bool := false
  /-- No more cards are read until ENABLE is cleared and set again (03 R72). -/
  stopped : Bool := false
  badbase : Bool := false
  ctxbusy : Bool := false
  base : BitVec 51 := 0
  log2 : BitVec 5 := 4
  wr : BitVec 32 := 0
  rd : BitVec 32 := 0
  done : BitVec 32 := 0
  deriving DecidableEq, Repr

/-- A job card that has been read and has not completed (03 R74, R77). -/
structure Card where
  id : Nat
  queue : Nat
  ctx : Nat
  /-- QRD when the card was read (03 R76). -/
  pos : BitVec 32
  bits : BitVec 512
  /-- Edges still unmet, by edge number; and whether a waited predecessor did not complete DONE. -/
  edges : List Nat
  depFailed : Bool := false
  /-- The launch number of a KIND 1 card, once created. -/
  lnum : Option (BitVec 32) := none
  /-- Status, FCODE and DETAIL once the work has ended. -/
  status : Option (Nat × BitVec 16 × Word) := none
  /-- A card read from a LNCH command: the number of that operation. -/
  fromDrive : Option Nat := none
  deriving DecidableEq, Repr

/-- A drive runner playing a program (03 R85, 15 R420). -/
structure Runner where
  card : Nat
  ctx : Nat
  period : Nat
  dbind : List DBind
  dskew : List (BitVec 10)
  /-- The drive words as validated (03 R92). -/
  prog : List (BitVec 512)
  w : Nat := 0
  startAt : Nat
  /-- REPEAT in progress: first word of the body, its length, runs left. -/
  rep : Option (Nat × Nat × Nat) := none
  dead : List (Nat × Nat) := []
  /-- Periods the WAIT word in progress has taken. -/
  waited : Nat := 0
  /-- The program ends at the end of its current period, with this status (03 R70, R91). -/
  ending : Option (Nat × Word) := none
  deriving DecidableEq, Repr

/-- The Coachman's side: contexts, queues, cards, runners, and what the host sees. -/
structure HostSide where
  welomUp : Bool := false
  apMode : Bool := false
  apCtx : BitVec 6 := 0
  apBase : BitVec 27 := 0
  events : Tbl EventRec := []
  evlost : Nat := 0
  /-- MSI-X vectors raised, newest first. -/
  msix : List Nat := []
  /-- The adapter's MSI-X table in 64-bit words, two for each of its 64 vectors (03 R61). -/
  msixTable : Tbl Word := []
  /-- The data of the last aperture or adapter read that completed, newest first. -/
  replies : List (List Byte) := []
  mbBusy : Bool := false
  mbDone : Bool := false
  mbLen : BitVec 13 := 0
  mbLenOut : BitVec 13 := 0
  mbIn : List Host.Cell := []
  mbOut : List Host.Cell := []
  ctxs : Tbl Ctx := []
  queues : Tbl Queue := []
  /-- Round robin of each priority: the queue served last and the cards it has taken this turn (03 R73). -/
  rr : Tbl (Nat × Nat) := []
  nextRead : Nat := 0
  cards : List Card := []
  nextCard : Nat := 0
  /-- Statuses of completed cards: (queue, position) and status (03 R76). -/
  cardStatus : List ((Nat × BitVec 32) × Nat) := []
  /-- Validated images: context, address, CHECK (03 R81). -/
  images : List (Nat × Nat × BitVec 32) := []
  driveWaiting : List Nat := []
  runners : Tbl Runner := []
  /-- Drive commands accepted by an engine and not ended: engine key and count (03 R91). -/
  driveEntries : Tbl Nat := []
  /-- Which hub's Coachman is active: H0 (die 4) or H1 (die 5); none after both halt (02 R60). -/
  activeHub : Option Nat := some 4
  deriving DecidableEq, Repr

/-! ## Tasks (04, 05, 06, 13) -/

/-- A register an exposed or interlocked write goes to (04 R119). -/
inductive RegId where
  | g (r : Reg) | k (r : KReg) | v (r : Reg) | fmt
  deriving DecidableEq, Repr

/-- The value of a register write. -/
inductive RegVal where
  | word (w : Word)
  | vec (v : VReg)
  deriving DecidableEq, Repr

/-- An exposed write that is not yet visible to the next bundle (05 R131 to R133). `remain = n` makes it
visible to the n-th next bundle; `mask` holds the lanes or bits it still replaces. -/
structure Pend where
  reg : RegId
  mask : BitVec 64
  val : RegVal
  remain : Nat
  ord : Nat
  /-- The slot that made it (05 R132). -/
  slot : Nat := 0
  deriving DecidableEq, Repr

/-- An interlocked write in flight (05 R132). -/
structure Infl where
  id : Nat
  reg : RegId
  mask : BitVec 64
  val : RegVal
  ord : Nat
  visible : Bool := false
  /-- The result of a remote access parks its readers (04 R107, 14 R358). -/
  remote : Bool := false
  /-- It is the data of a load from memory (04 R113). -/
  load : Bool := false
  /-- The slot that made it (05 R132). -/
  slot : Nat := 0
  /-- The buffer number a load carries (05 R156). -/
  buf : BitVec 8 := 0
  /-- It was in flight at trap entry and lands in the shadow if its register is shadowed (06 R163). -/
  toShadow : Bool := false
  /-- The reading access consumed a poisoned beat: its physical address, and its stage and die (01 R28). -/
  poison : Option (Nat × Nat) := none
  deriving DecidableEq, Repr

/-- An entry of the loop stack (05 R136). -/
structure LoopEnt where
  start : BitVec 57
  stop : BitVec 57
  count : Word
  deriving DecidableEq, Repr

/-- The first-event log's three words (08 R212). -/
structure Fel where
  w0 : Word := 0
  w1 : Word := 0
  w2 : Word := 0
  deriving DecidableEq, Repr

/-- A stream register (13 R353). -/
structure Stream where
  bind : BitVec 2 := 0
  kty : Bool := false
  vty : BitVec 2 := 0
  lastv : Bool := false
  op : BitVec 3 := 0
  srca : BitVec 2 := 0
  srcb : BitVec 2 := 0
  pend : Bool := false
  pfrom : BitVec 2 := 0
  status : BitVec 4 := 0
  opslot : BitVec 3 := 0
  rm : BitVec 3 := 0
  kaddr : Word := 0
  vaddr : Word := 0
  len : BitVec 32 := 0
  pos : BitVec 32 := 0
  lastkey : Word := 0
  pkey : Word := 0
  pval : BitVec 32 := 0
  opevt : BitVec 32 := 0
  opbaddr : Word := 0
  deriving DecidableEq, Repr

/-- TGEMM state (15 R404). -/
structure Tgemm where
  block : List Byte
  done : Nat := 0
  slot : BitVec 3
  fmt : Word
  baddr : BitVec 57
  /-- A step is in flight, so that none is started beside it. -/
  running : Bool := false
  deriving DecidableEq, Repr

/-- What a task waits for (04 R107). -/
inductive Wait where
  | bell (bell : Nat) (gen : BitVec 32)
  | roll (addr : Nat) (inflId : Nat) (d : Reg)
  | fullEmpty (id : Nat)
  | tandem
  | rejoin
  /-- A granted lock ends it; `refused` counts refusals (09 R232, R237). -/
  | lock (lw : Word) (m : LockMode)
  /-- A remote load's result by in-flight number. -/
  | remote (inflId : Nat)
  | pageFault (va : Nat) (cow : Bool)
  | forward (reqId : Nat)
  /-- The conditions of END, for a task that has been moved to its frame meanwhile (12 R319; 04 R109). -/
  | ending
  deriving DecidableEq, Repr

/-- An acquire fence or a full fence whose condition the task's next bundle waits for (14 R372; 07 R187, R191). -/
structure Fence where
  full : Bool
  scope : Scope
  /-- It was issued in trap mode, and holds the handler's bundles only. -/
  trap : Bool
  deriving DecidableEq, Repr

/-- What a release fence asks of the task's later writes (07 R187, R189, R190): they follow every access with a lower number,
at FABRIC scope remote ones too, and wait on another die for the stamp. -/
structure RelMark where
  before : Nat
  fabric : Bool
  stamp : List Nat
  deriving DecidableEq, Repr

/-- The states of a task (04 R121). -/
inductive TaskPhase where
  | created | bound | stalled | framed | ended
  deriving DecidableEq, Repr

/-- Why a task waits for its MMAs in flight with its sequencer held: it ends, or it restarts (06 R168; 12 R319). -/
inductive Leaving where
  | finish | restart
  deriving DecidableEq, Repr

/-- A deferred remote or engine operation of a versioned task (06 R170). -/
inductive CommitOp where
  /-- A store: its pieces as virtual addresses, places and bytes, the slips it carries, the in-flight number of a
  returned slip, and its TAG. -/
  | store (pieces : List (Nat × StorePlace × List Byte)) (slips : List (BitVec 32)) (slipTo : Option Nat) (tag : BitVec 16)
  | engine (cmd : CmdWord) (eop : Nat)
  deriving DecidableEq, Repr

/-- The architectural registers of a sequencer's task (05 R124). -/
structure Regs where
  pc : BitVec 57 := 0
  g : Vector Word 32 := Vector.replicate 32 0
  k : Vector Word 8 := Vector.replicate 8 0
  v : Vector VReg 32 := Vector.replicate 32 (Vector.replicate 64 0)
  fmt : Word := 0
  fel : Fel := {}
  loops : List LoopEnt := []
  streams : Vector Stream 4 := Vector.replicate 4 {}
  sb : List (BitVec 32) := []
  buf : BitVec 8 := 0
  dbg : BitVec 2 := 0
  deriving DecidableEq, Repr

/-- Trap state (06 R163, R164). -/
structure TrapRegs where
  mode : Bool := false
  pc : Word := 0
  code : Word := 0
  info : Word := 0
  addr : Word := 0
  /-- TrapShadow: G24 to G31, then K6 and K7. -/
  shadow : List Word := []
  deriving DecidableEq, Repr

/-- A task (04 R96 to R122). -/
structure Task where
  tid : Word
  ctx : Nat
  phase : TaskPhase := .created
  /-- The core it is bound to or returns to, linear number 0 to 767, and its sequencer while bound. -/
  core : Option Nat := none
  sq : Option Nat := none
  /-- Stage entry PC, ARGS and COUNT for the state of 04 R97. -/
  entry : BitVec 57
  args : Word
  count : Nat
  /-- PLACE, DIE, CLUSTER and CORE of its stage entry (04 R93, R94). -/
  place : BitVec 28
  scrBytes : Nat
  /-- Scratchpad allocation: offset and size on its core (05 R140). -/
  alloc : Option (Nat × Nat) := none
  frame : Nat
  prio : Nat
  /-- It has run before: it returns from a stall or frame, or restarts (04 R101, R103). -/
  returning : Bool := false
  restarted : Bool := false
  readyToBind : Bool := true
  /-- The cycle it began to wait for a bind, and the task its last request went to (04 R112). -/
  waitSince : Nat := 0
  bindReq : Option Word := none
  r : Regs := {}
  issued : Word := 0
  pend : List Pend := []
  infl : List Infl := []
  ordCtr : Nat := 0
  felClear : Bool := false
  trap : TrapRegs := {}
  faults : List FaultRec := []
  ovfl : Bool := false
  locks : List (Word × LockMode) := []
  bells : List (Nat × BitVec 32) := []
  commitQ : List CommitOp := []
  tgemm : Option Tgemm := none
  /-- The translations its TGEMM's pins hold: 64 KiB page and physical address (10 R245). -/
  tgPinned : List (Nat × Nat) := []
  wait : Option Wait := none
  /-- Fences that hold its next bundle, and what its last release fence asks (07 R187). -/
  fences : List Fence := []
  relMark : Option RelMark := none
  /-- A pre-emption request has arrived (04 R112), and the save in progress: REASON of 04 R118. -/
  preempt : Bool := false
  saving : Option Nat := none
  /-- A stall entry in progress (04 R108). -/
  stalling : Bool := false
  /-- A wound waits for the end of a save (04 R121). -/
  wounded : Bool := false
  /-- It ends or restarts once its MMAs in flight have completed. -/
  leaving : Option Leaving := none
  /-- It is parked on a load's result since a cycle, with the load's buffer number (05 R156). -/
  heldLoad : Option (Nat × BitVec 8) := none
  /-- Tiles owned when it was written to its frame (04 R118). -/
  tilesHeld : List Nat := []
  /-- Tandem: it is in lock-step; the cluster and number of the group it was last part of (12 R325). -/
  lockstep : Bool := false
  tandemOf : Option (Nat × Nat) := none
  rejoined : Bool := false
  /-- Highest release count of each die carried through its acquires (07 R189). -/
  clock : List Nat := []
  /-- Walk outcomes delivered to this task's waiting misses: page, access kind, code and info. -/
  walkFault : Option (Nat × AccKind × Bool × BitVec 16 × Word) := none
  /-- Slots nullified at the next bundle (12 R311). -/
  nullNext : Bool := false
  /-- Cycle at which the trap entry's 24 cycles end (06 R163). -/
  busyUntil : Nat := 0
  /-- The last bundle was a marked point (04 R110). -/
  marked : Bool := false
  /-- Address and loop stack of the bundle it waits in, which issues again after a fault that ends the wait
  (06 R162). -/
  redo : Option (BitVec 57 × List LoopEnt) := none
  deriving DecidableEq, Repr

/-! ## The launch unit (04 R93 to R100, R120) -/

/-- The states of a launch (04 R120). -/
inductive LaunchPhase where
  | waiting | eligible | running | retiring
  deriving DecidableEq, Repr

/-- A launch in the launch unit. -/
structure Launch where
  lnum : BitVec 32
  ctx : Nat
  card : Nat
  prio : Nat
  eff : Nat
  vers : Bool
  checked : Bool
  phase : LaunchPhase := .waiting
  args : Word
  scratch : Nat
  /-- Stage entry addresses and stage entry words, in stage order. -/
  stages : List (BitVec 57 × BitVec 64)
  hwb : BitVec 41
  hwl : BitVec 41
  hwo : BitVec 48
  tvec : BitVec 55
  age : BitVec 16
  pdl : BitVec 32
  markgap : BitVec 32
  /-- Tasks still to create: (stage, index), and frames reserved. -/
  toCreate : List (Nat × Nat) := []
  framesLeft : List Nat := []
  live : Nat := 0
  status : Nat := 0
  fcode : BitVec 16 := 0
  ftid : Word := 0
  deriving DecidableEq, Repr

/-! ## Cores (04 R104 to R109, R122; 05) -/

/-- The states of a sequencer (04 R122). -/
inductive SeqPhase where
  | free | binding | active | saving
  deriving DecidableEq, Repr

/-- A sequencer (04 R104, R105, R111, R122). -/
structure Seq where
  phase : SeqPhase := .free
  task : Option Word := none
  prio : Nat := 0
  readyCount : Nat := 0
  boundCount : Nat := 0
  /-- The cycle its wait of the first row of 04 R107 began. -/
  waitAt : Option Nat := none
  deriving DecidableEq, Repr

/-- A Z tile (05 R124, R126). -/
structure Tile where
  data : List Lane := []
  owner : Option Word := none
  /-- Held for a task that waits to bind again (04 R103). -/
  heldFor : Option Word := none
  /-- MMAs, loads and macro-operations that still write it; the tile is busy while there are any. -/
  writers : Nat := 0
  /-- Events of its MMAs and TGEMM steps, recorded when the tile is no longer busy (08 R213): bundle address, slot,
  classes. -/
  events : List (BitVec 57 × Nat × List Nat) := []
  deriving DecidableEq, Repr

/-- A translation in a TLB (05 R151). -/
structure TlbEnt where
  asid : BitVec 16
  vpage : Nat
  /-- Level of the leaf: 0, 1 or 2. -/
  level : Nat
  leaf : BitVec 64
  deriving DecidableEq, Repr

/-- An MMA, or a step of a TGEMM, in flight (05 R137, R138; 15 R393). -/
structure MmaOp where
  id : Nat
  tid : Word
  tile : Nat
  /-- Addresses of the A block, and of the B block or gated B block. -/
  aAddr : Nat
  bAddr : Nat
  /-- The mask of a gated B block. -/
  gate : Option Nat
  /-- FMT and SB as read at issue. -/
  fmt : Word
  sb : List (BitVec 32)
  baddr : BitVec 57
  slot : Nat
  /-- The 64-byte lines each operand reads: virtual line number and physical granule. -/
  readA : List (Nat × Nat)
  readB : List (Nat × Nat)
  /-- Those lines' bytes as they stood at issue; an empty list for a poisoned line. -/
  seenA : List (List Byte)
  seenB : List (List Byte)
  /-- Operand ranges held by its comparators, in physical 64-byte granules. -/
  granA : List Nat
  granB : List Nat
  /-- A TGEMM step (15 R403). -/
  step : Bool := false
  /-- Members of a group whose MMAB reads the same B block share one number, and one reading of it (15 R397). -/
  shared : Option Nat := none
  /-- The B lines another member has read for all, with the poisoned beat among them. -/
  fixedB : Option (List (Nat × List Byte) × Option Nat) := none
  issuedAt : Nat := 0
  deriving DecidableEq, Repr

/-- A full/empty access waiting at a core's SRAM (14 R366). -/
structure FeWait where
  id : Nat
  tid : Word
  /-- 0 FILL, 1 TAKE, 2 READF. -/
  kind : Nat
  word : Nat
  data : Word
  inflId : Nat
  deriving DecidableEq, Repr

/-- Where a full/empty access stands that a waiting list has had no place for (14 R366; 01 R14, R15). -/
inductive FePhase where
  /-- It arrives when its FULL_EMPTY_RETRY comes; `refused`: once before. -/
  | coming (refused : Bool)
  /-- It waits in its core's port behind a ticketed one. -/
  | behind (refused : Bool)
  | ticket
  /-- A place is held for it. -/
  | held
  deriving DecidableEq, Repr

/-- A core's trace buffer (05 R157, R158). -/
structure Trace where
  ctl : BitVec 21 := 0
  frozen : Bool := false
  pos : BitVec 9 := 0
  idx : Word := 0
  trig : Word := 0
  recs : Tbl (BitVec 128) := []
  ctx : Option Nat := none
  /-- Records still to be written after the trigger. -/
  post : Option Nat := none
  deriving DecidableEq, Repr

/-- A core. -/
structure CoreSt where
  seqs : Vector Seq 4 := Vector.replicate 4 {}
  rr : Nat := 3
  /-- The cycle a bundle last issued on it (04 R104). -/
  lastIssue : Option Nat := none
  /-- The sequencer whose stream operation took an element last (13 R350). -/
  streamLast : Nat := 3
  tiles : Vector Tile 4 := Vector.replicate 4 {}
  /-- L1 lines: physical line number, number of the key it was read under, and data, newest first (05 R142, 01 R21). -/
  l1 : List (Nat × Nat × BeatBits) := []
  tlb : List TlbEnt := []
  /-- Instruction cache lines by ASID and virtual line (03 R69, R81). -/
  icache : List (BitVec 16 × Nat × BeatBits) := []
  stalls : List Word := []
  mmas : List MmaOp := []
  /-- The cycle the matrix unit is free of the MMAs queued so far. -/
  matrixFree : Nat := 0
  feWaits : List FeWait := []
  /-- Accesses that its waiting list has no place for, in their order: (access, this core, where it stands). -/
  feRefused : List (FeWait × Nat × FePhase) := []
  /-- Scratchpad allocations: offset, size, task, context (05 R140). -/
  allocs : List (Nat × Nat × Word × Nat) := []
  trace : Trace := {}
  deriving DecidableEq, Repr

/-- A tandem group of a cluster (04 R115, 12 R324, R325). -/
structure Tandem where
  /-- Arrived tasks, oldest first. -/
  arrived : List Word := []
  /-- The tasks in lock-step, by core number in the cluster, when a group is formed. -/
  group : List Word := []
  /-- The groups that have ended, each with its number and its tandem tasks (12 R325). -/
  last : List (Nat × List Word) := []
  deriving DecidableEq, Repr

/-- A bell (14 R374); OWNER none is a bell with no membership. -/
structure Bell where
  owner : Option Nat := none
  memb : BitVec 32 := 0
  arr : BitVec 32 := 0
  gen : BitVec 32 := 0
  isOpen : Bool := false
  /-- Launches whose tasks have arrived at the open generation (17 R425). -/
  arrivers : List (BitVec 32) := []
  deriving DecidableEq, Repr

/-- The cores and what hangs on them. -/
structure Cores where
  cores : Tbl CoreSt := []
  tandems : Tbl Tandem := []
  bells : Tbl Bell := []
  clusterTlb : Tbl (List TlbEnt) := []
  fabricTlb : List TlbEnt := []
  spSplit : Nat := 0
  spBusy : Bool := false
  deriving DecidableEq, Repr

/-! ## Memory (05, 06, 07) -/

/-- The class of an L2 line (05 R145). -/
inductive LineClass where
  | normal | retain | evictFirst
  deriving DecidableEq, Repr

/-- A line an L2 slice holds (05 R144 to R146). -/
structure L2Line where
  line : Nat
  cls : LineClass
  dirty : Bool
  ctx : Nat
  /-- The range register that gave the class, if one did (05 R145). -/
  reg : Option Nat
  deriving DecidableEq, Repr

/-- A version line (06 R169). -/
structure VLine where
  tid : Word
  line : Nat
  mask : BitVec 64
  data : BeatBits
  ctx : Nat
  deriving DecidableEq, Repr

/-- A waiter on a page walk (05 R151). -/
structure Walk where
  id : Nat
  die : Nat
  ctx : Nat
  asid : BitVec 16
  page : Nat
  kind : AccKind
  fetch : Bool
  waiters : List Word
  /-- It has one of the die's 64 walkers. -/
  active : Bool
  deriving DecidableEq, Repr

/-- A piece of a store or atomic that has issued and has not been performed (07 R179). -/
inductive MemOp where
  /-- Plain bytes to physical memory: address, bytes, enabled bytes' key context. -/
  | phys (pa : Nat) (data : List Byte)
  | sram (core : Nat) (off : Nat) (data : List Byte)
  /-- A write-through to host memory. -/
  | host (pa : Nat) (data : List Byte)
  deriving DecidableEq, Repr

/-- An issued store waiting for its home (07 R179, 05 R138). -/
structure PendStore where
  id : Nat
  tid : Word
  ctx : Nat
  /-- The issuing core, whose L1 copy the store updates (05 R142). -/
  core : Nat
  ops : List MemOp
  release : Option Scope
  /-- STSLIP on a page of this chip returns the null slip once performed (14 R383). -/
  slipTo : Option Nat := none
  /-- The stamp of a release that another die applies; empty for none (07 R189). -/
  stamp : List Nat := []
  /-- It follows a release fence (07 R187). -/
  mark : Option RelMark := none
  deriving DecidableEq, Repr

/-- A CFLUSH or CINV in progress (14 R388). -/
structure CacheOp where
  id : Nat
  tid : Word
  ctx : Nat
  /-- The range of virtual addresses. -/
  lo : Nat
  len : Nat
  /-- The heap window of the task: HWB, HWL, HWO in bytes. -/
  heap : Nat × Nat × Nat
  evict : Bool
  core : Nat
  deriving DecidableEq, Repr

/-- Memory, caches and what moves between them. -/
structure Mem where
  /-- Device and host memory by 52-bit physical address (05 R143). -/
  bytes : List Host.Cell := []
  /-- Scratchpad SRAM by core * 2^21 + offset (05 R140). -/
  sram : List Host.Cell := []
  /-- FULL words of the scratchpads, by (core * 2^21 + offset) / 8, rising (05 R140). -/
  full : List Nat := []
  /-- Poisoned beats by physical line number, each with the stage code in bits [3:0] and the die code in bits [11:4]
  of where its check failed (01 R28, 06 R160). -/
  poison : Tbl Nat := []
  /-- The key number each written line of device memory is encrypted under (01 R21, R22). -/
  lineKey : Tbl Nat := []
  l2 : List L2Line := []
  versions : List VLine := []
  walks : List Walk := []
  stores : List PendStore := []
  cacheOps : List CacheOp := []
  /-- Tile loads in flight: id, core, tile, task. -/
  tileLoads : List (Nat × Nat × Nat × Word) := []
  /-- Pages pinned by engine commands and TGEMMs: holder, context, virtual 64 KiB page (10 R245). -/
  pins : List (Nat × Nat × Nat) := []
  /-- Invigilator checks not yet made, oldest first (06 R176). -/
  ivQueue : List IvAccess := []
  deriving DecidableEq, Repr

/-! ## Ordering (07 R189) -/

/-- What a release-carrying message does when the receiving die applies it (07 R189). -/
inductive StampAct where
  /-- An issued store is performed. -/
  | store (id : Nat)
  /-- A task's arrival at a bell. -/
  | bell (key : Nat) (tid : Word) (bit : BitVec 32)
  /-- Bytes arrive at a roll. -/
  | roll (core off n : Nat)
  deriving DecidableEq, Repr

/-- A release-carrying message that waits for its stamp, and for the issued stores it carries. -/
structure Stamped where
  id : Nat
  die : Nat
  stamp : List Nat
  act : StampAct
  after : List Nat := []
  deriving DecidableEq, Repr

/-- A release that is not settled: its die and number, its task, and the issued stores it carries (07 R189). -/
structure Unsettled where
  die : Nat
  count : Nat
  tid : Word
  stores : List Nat
  deriving DecidableEq, Repr

/-- Vector clocks. -/
structure Clocks where
  /-- Releases made by each die (48-bit counts). -/
  counts : Tbl Nat := []
  /-- Settled counts heard: key receiver * 16 + sender. -/
  heard : Tbl Nat := []
  unsettled : List Unsettled := []
  waiting : List Stamped := []
  deriving DecidableEq, Repr

/-! ## Prefects (09) -/

/-- A lock object (09 R223). -/
structure LockObj where
  asid : BitVec 16
  lw : Word
  /-- Holders: task, mode, and whether it has been wounded. -/
  holders : List (Word × LockMode × Bool) := []
  /-- Waiting requests in TID order, oldest first: task and mode. -/
  queue : List (Word × LockMode) := []
  deriving DecidableEq, Repr

/-- A lock request that a Prefect refused for lack of entries or records (09 R237). -/
structure LockRefusal where
  tid : Word
  lw : Word
  mode : LockMode
  /-- 0 while it waits in its port for its first try, 1 once refused, 2 with a ticket or an entry held for it. -/
  refusals : Nat
  /-- The core whose port it comes from. -/
  core : Nat := 0
  deriving DecidableEq, Repr

/-- The four Prefects. -/
structure Prefects where
  objs : List LockObj := []
  refused : List LockRefusal := []
  /-- Tickets of each Prefect in order: home and task. -/
  tickets : List (Nat × Word) := []
  /-- Requests for which an entry and a record are held (09 R237, R240: RESERVED). -/
  held : List (Nat × Word) := []
  /-- Requests that wait in their core's port behind its ticketed one (01 R14). -/
  behind : List (Nat × Word) := []
  deriving DecidableEq, Repr

/-! ## Engines (10, 15) -/

/-- A projection slot of a front end (10 R258). -/
structure ProjSlot where
  ctx : Option Nat
  b : Nat
  l : Nat
  d : Nat
  hdesc : Nat
  /-- Matrix rows as 256-bit masks, row 16*l+j. -/
  rows : Tbl (BitVec 256)
  deriving DecidableEq, Repr

/-- An open collective (02 R56; 15 R413 to R415; 10 R256). -/
structure CollState where
  collid : BitVec 32
  members : List (BitVec 12)
  fctx : BitVec 16
  limit : Nat
  lastProgress : Nat
  /-- What has arrived: of a COLL all of it, of an A2A what is not handled yet. -/
  arrived : List CollPart := []
  /-- A2A: the owner of each shard of the map. -/
  shards : List (BitVec 12) := []
  /-- A2A: the bucket counts that have come: member, shard, count. -/
  counts : List (BitVec 12 × Nat × Nat) := []
  /-- A2A: the buckets that have been answered, by member and shard, and the shards whose answers have come. -/
  served : List (BitVec 12 × Nat) := []
  answered : List Nat := []
  /-- A2A: the indices in each bag, the bags marked Bad, the bags with a poisoned beat at an owner, and the merged
  accumulators by bag. -/
  bags : List Nat := []
  bad : List Nat := []
  poisoned : List (Nat × Nat) := []
  accs : Tbl (List Accum) := []
  deriving DecidableEq, Repr

/-- An engine operation in flight (15 R405 to R417). -/
structure EngineOp where
  id : Nat
  eop : Nat
  ctx : Nat
  /-- The issuing task, or none for a drive slot. -/
  tid : Option Word
  core : Option Nat
  /-- The engine: die code and engine number (02 R45). -/
  die : Nat
  unit : Nat
  /-- Window offsets of the parameter block and the roll. -/
  pblk : Nat
  roll : Nat
  /-- The parameter block as read at the fork (15 R406). -/
  block : List Byte
  /-- Spans it has read from peers: chip, fabric context, address, and their bytes. -/
  got : List ((BitVec 12 × BitVec 16 × Nat) × List Byte) := []
  /-- What it reads once, by address and length: descriptors, tables, index lists (10 R241, R244). -/
  read : List ((Nat × Nat) × List Byte) := []
  /-- The outcome of the probe so far, by bag or index: is it good (10 R244)? -/
  judged : Tbl Bool := []
  /-- The translations its pins hold: 64 KiB page, physical address, EVF (10 R245). -/
  pinned : List (Nat × Nat × Bool) := []
  /-- The rows of an HKST are on their way to a peer: the first of the blocks reserved for its links (10 R261). -/
  linkFrom : Option Nat := none
  /-- Stores and atomics of its issuer to other chips that were unacknowledged when the command issued: they come before
  its first access to a peer (07 R198). -/
  after : List Nat := []
  /-- Its work on this chip is done; it waits for its remote writes, or for its launch. -/
  started : Bool := false
  /-- Its roll has been written; it stays until its slipped writes are acknowledged (15 R409). -/
  ended : Bool := false
  /-- A fault code with FADDR that a remote access ended with (15 R407). -/
  fault : Option (BitVec 16 × Word) := none
  slip : Option Nat := none
  coll : Option CollState := none
  /-- It waits in a page-fault table (05 R153). -/
  parked : Option (Nat × Bool) := none
  /-- What its fork edge carries, as a stamp (07 R189, R198). -/
  clock : List Nat := []
  /-- The number of the release its end makes, while the roll's die has not heard it settled (07 R189, R199). -/
  release : Option Nat := none
  /-- A drive entry of its engine is taken (03 R91). -/
  driveKey : Option Nat := none
  /-- The command word's PBLK field, whose low bits are the TAG of its remote accesses (15 R406). -/
  cmd : CmdWord
  deriving DecidableEq, Repr

/-- Panniers, front ends and the other engines. -/
structure Engines where
  ops : List EngineOp := []
  proj : Tbl ProjSlot := []
  deriving DecidableEq, Repr

/-! ## The bundle being issued, and the schedule (model's own, log entries 10 and 11) -/

/-- A bundle that ISSUE_BUNDLE has opened for a task; it is closed before the step ends. -/
structure Cur where
  tid : Word
  core : Nat
  pc : BitVec 57
  /-- Physical slots of the bundle (11 R266). -/
  phys : Nat
  slots : List (Guard × Instr)
  /-- The slot whose meaning runs, and its 32-bit word. -/
  slot : Nat := 0
  /-- The guard of that slot (11 R265). -/
  guard : Guard := ⟨0, false⟩
  words : List (BitVec 32) := []
  /-- Writes of this bundle so far, newest last. -/
  writes : List Pend := []
  inter : List Infl := []
  /-- Taken branch (12 R308) and whether it acts on the loop stack (12 R309). -/
  branch : Option (BitVec 57 × Bool) := none
  /-- A loop entry to push, or a zero-count loop's END (12 R311, R312). -/
  push : Option LoopEnt := none
  skipTo : Option (BitVec 57) := none
  /-- The bundle holds an enabled END, TRAPRET or TRAPRETG, TRAPRST, COMMIT, CLRFEL, MARK, YIELD. -/
  ending : Bool := false
  ret : Option (BitVec 57) := none
  rst : Bool := false
  commit : Bool := false
  clrFel : Bool := false
  mark : Bool := false
  yieldReq : Bool := false
  decouple : Bool := false
  /-- MTS writes of the bundle, visible to the next one (05 R127). -/
  sysWrites : List (Nat × Word) := []
  /-- Arithmetic events of the bundle: slot, lane, class code (08 R213). -/
  events : List (Nat × Nat × Nat) := []
  /-- The wait the task enters after the bundle, and the fence its next bundle waits for. -/
  wait : Option Wait := none
  fence : Option Fence := none
  /-- Members of the tandem group that issue this bundle, or only the task itself. -/
  members : List Word := []
  /-- Every slot is nullified (12 R311). -/
  nullified : Bool := false
  /-- The slot behind the decoded ones that is no instruction, with its word (11 R269). -/
  bad : Option (Nat × BitVec 32) := none
  /-- Stream registers its slots have set, which the next bundle sees (05 R130). -/
  streams : List (ZReg × Stream) := []
  /-- Memory accesses to trace: slot, size, STORE, address (05 R158). -/
  traced : List (Nat × Nat × Bool × Word) := []
  deriving DecidableEq, Repr

/-- The whole machine. -/
structure State where
  /-- Cycles counted since the state of reset; the end of full reset is `Package.bootCycle` (03 R65). -/
  cycle : Nat := 0
  /-- The time, for what the spec states in microseconds or flit times (00 R441): 1,651,860,000 units make 1 µs. -/
  time : Nat := 0
  package : Package := {}
  fabric : Fabric := {}
  host : HostSide := {}
  launches : List Launch := []
  nextLnum : BitVec 32 := 0
  tasks : List Task := []
  cores : Cores := {}
  mem : Mem := {}
  clocks : Clocks := {}
  prefects : Prefects := {}
  engines : Engines := {}
  /-- Index of the next free value (log entry 9). -/
  freeCtr : Nat := 0
  /-- Numbers given to operations in flight, packets and walks. -/
  nextId : Nat := 0
  cur : Option Cur := none
  /-- Events from outside, oldest first. -/
  inputs : List (Instr × EvArg) := []
  /-- Events the machine has posted to itself, with the cycle each is due. -/
  due : List (Nat × Instr × EvArg) := []
  /-- Events the machine has posted to itself, with the time each is due. -/
  timers : List (Nat × Instr × EvArg) := []
  /-- What is still to be done in this cycle. -/
  turns : List (Instr × EvArg) := []
  /-- What came with the event that runs. -/
  arg : EvArg := .none
  deriving DecidableEq, Repr

/-- The machine stops with a fault. No meaning of this model raises one: every fault of the spec is taken as
a trap, a status or an event (06 R159). -/
inductive Fault where
  /-- Raised by nothing; it stands for a state no rule reaches. Safe: nothing is claimed of such a run. -/
  | unreachable
  deriving DecidableEq, Repr

/-- An instruction without a meaning. -/
inductive Refusal where
  /-- Raised by an arm of exec whose instruction has no meaning yet. Safe: no next state is claimed. -/
  | notModelled (mnemonic : String)
  deriving DecidableEq, Repr

/-- The machine right after a full reset: every field at the value the spec states for reset (INVENTORY.md),
and every field it states none for at the value the log names (entries 1 to 8). -/
def State.reset : State := {}

end Sys2Proof.Machine
end

