-- ==== Sys2Proof/Machine/Base.lean ====
section
/-! DEFINITION. Access to the parts of the state: tasks, cores, contexts, and the registers and guard of the
slot that runs (05 R124 to R130, 12 R293, R294). -/

namespace Sys2Proof.Machine

open Sys2Proof

/-- What a meaning answers. -/
abbrev Out := Host.Outcome State Fault Refusal

/-! ## Updates of one part of the state -/

/-- The state with its package part changed. -/
def State.onPackage (s : State) (f : Package → Package) : State := { s with package := f s.package }
/-- The state with its fabric part changed. -/
def State.onFabric (s : State) (f : Fabric → Fabric) : State := { s with fabric := f s.fabric }
/-- The state with its host part changed. -/
def State.onHost (s : State) (f : HostSide → HostSide) : State := { s with host := f s.host }
/-- The state with its cores changed. -/
def State.onCores (s : State) (f : Cores → Cores) : State := { s with cores := f s.cores }
/-- The state with its memory part changed. -/
def State.onMem (s : State) (f : Mem → Mem) : State := { s with mem := f s.mem }
/-- The state with its engines changed. -/
def State.onEngines (s : State) (f : Engines → Engines) : State := { s with engines := f s.engines }
/-- The state with its Prefects changed. -/
def State.onPrefects (s : State) (f : Prefects → Prefects) : State := { s with prefects := f s.prefects }
/-- The state with its clocks changed. -/
def State.onClocks (s : State) (f : Clocks → Clocks) : State := { s with clocks := f s.clocks }
/-- The open bundle changed. -/
def State.onCur (s : State) (f : Cur → Cur) : State := { s with cur := s.cur.map f }

/-! ## Numbers, free values, and the schedule -/

/-- A fresh number for an operation in flight. -/
def State.fresh (s : State) : Nat × State := (s.nextId, { s with nextId := s.nextId + 1 })

/-- The free counter advanced. -/
def State.bumpFree (s : State) (n : Nat) : State := { s with freeCtr := s.freeCtr + n }

/-- `n` unspecified bytes (00 R10). -/
def State.freeBytes (s : State) (n : Nat) : List Byte × State :=
  ((List.range n).map fun i => Config.freeByte (s.freeCtr + i), s.bumpFree n)

/-- An unspecified 64-bit value (00 R10). -/
def State.freeWord (s : State) : Word × State := (Config.freeWord s.freeCtr, s.bumpFree 1)

/-- A choice among `n` that the spec leaves open, as an index below `n` (0 where `n` is 0). -/
def State.choose (s : State) (n : Nat) : Nat × State :=
  (if n ≤ 1 then 0 else Config.choice s.freeCtr % n, s.bumpFree 1)

/-- Insert an event among those due, after those due no later. -/
def insertDue (t : Nat) (i : Instr) (a : EvArg) : List (Nat × Instr × EvArg) → List (Nat × Instr × EvArg)
  | [] => [(t, i, a)]
  | (u, x) :: rest => if t < u then (t, i, a) :: (u, x) :: rest else (u, x) :: insertDue t i a rest

/-- Post an event to the machine itself, due `dt` cycles from now. -/
def State.post (s : State) (dt : Nat) (i : Instr) (a : EvArg := .none) : State :=
  { s with due := insertDue (s.cycle + dt) i a s.due }

/-- One microsecond in units of `State.time` (log entry 79): every clock period of 01 R29 and every flit time of 02 R32
is a whole number of them. -/
def usUnits : Nat := 1651860000

/-- The arithmetic clock at a cap point, in MHz (01 R29). -/
def pointMhz (point : Nat) : Nat := [1350, 1250, 1150, 1050, 950, 800].getD point 600

/-- The clock period at a cap point. -/
def periodUnits (point : Nat) : Nat := usUnits / pointMhz point

/-- One flit time at 16 lanes: a 7,000th of a microsecond, 142.86 ps (02 R32). -/
def flitUnits : Nat := usUnits / 7000

/-- Post an event to the machine itself, due `dt` units of time from now. -/
def State.postTime (s : State) (dt : Nat) (i : Instr) (a : EvArg := .none) : State :=
  { s with timers := insertDue (s.time + dt) i a s.timers }

/-- Drop events of one kind posted by time. -/
def State.untime (s : State) (i : Instr) (a : EvArg) : State :=
  { s with timers := s.timers.filter fun d => !(decide (d.2.1 = i) && decide (d.2.2 = a)) }

/-- Cycles since the end of full reset (03 R65). -/
def State.sinceReset (s : State) : Nat := s.cycle - s.package.bootCycle

/-- Post an event whose time the spec does not state (00 R441): at least one cycle from now (log entry 5). -/
def State.postFree (s : State) (i : Instr) (a : EvArg := .none) : State :=
  (s.bumpFree 1).post (Config.latency s.freeCtr + 1) i a

/-- Drop posted events of one kind. -/
def State.unpost (s : State) (i : Instr) (a : EvArg) : State :=
  { s with due := s.due.filter fun d => !(decide (d.2.1 = i) && decide (d.2.2 = a)) }

/-! ## Tasks and cores -/

/-- The task of a TID. -/
def State.task? (s : State) (tid : Word) : Option Task := s.tasks.find? fun t => t.tid == tid

/-- Change the task of a TID. -/
def State.modTask (s : State) (tid : Word) (f : Task → Task) : State :=
  { s with tasks := s.tasks.map fun t => if t.tid == tid then f t else t }

/-- LNUM of a TID (04 R96). -/
def tidLnum (tid : Word) : BitVec 32 := tid.extractLsb' 32 32

/-- The launch of a launch number. -/
def State.launch? (s : State) (n : BitVec 32) : Option Launch := s.launches.find? fun l => l.lnum == n

/-- Change a launch. -/
def State.modLaunch (s : State) (n : BitVec 32) (f : Launch → Launch) : State :=
  { s with launches := s.launches.map fun l => if l.lnum == n then f l else l }

/-- The state of a core by its linear number: 192 * die + 8 * cluster + core (00 R2). -/
def State.core (s : State) (c : Nat) : CoreSt := s.cores.cores.getD {} c

/-- Change a core. -/
def State.modCore (s : State) (c : Nat) (f : CoreSt → CoreSt) : State :=
  s.onCores fun cs => { cs with cores := cs.cores.upd {} c f }

/-- A context block. -/
def State.ctx (s : State) (n : Nat) : Ctx := s.host.ctxs.getD {} n

/-- Change a context block. -/
def State.modCtx (s : State) (n : Nat) (f : Ctx → Ctx) : State :=
  s.onHost fun h => { h with ctxs := h.ctxs.upd {} n f }

/-- The die of a core. -/
def coreDie (c : Nat) : Nat := c / 192
/-- The cluster of a core within its die. -/
def coreCluster (c : Nat) : Nat := c % 192 / 8
/-- The number of a core within its cluster. -/
def coreIndex (c : Nat) : Nat := c % 8

/-! ## The running slot -/

/-- The task whose bundle is open. -/
def State.me? (s : State) : Option Task :=
  match s.cur with
  | none => none
  | some c => s.task? c.tid

/-- Its registers as they stand before the bundle (05 R130); zeros where no bundle is open. -/
def State.regs (s : State) : Regs :=
  match s.me? with
  | none => {}
  | some t => t.r

/-- A G register; G0 reads zero (05 R124). -/
def Regs.getG (r : Regs) (n : Reg) : Word := if n = 0 then 0 else r.g.toArray.getD n.toNat 0
/-- A K register; K0 reads all ones (05 R124). -/
def Regs.getK (r : Regs) (n : KReg) : Word := if n = 0 then BitVec.allOnes 64 else r.k.toArray.getD n.toNat 0
/-- A V register (05 R124). -/
def Regs.getV (r : Regs) (n : Reg) : VReg := r.v.toArray.getD n.toNat (Vector.replicate 64 0)
/-- A stream register. -/
def Regs.getS (r : Regs) (n : ZReg) : Stream := r.streams.toArray.getD n.toNat {}

/-- The mask a guard gives: bit i enables lane i (05 R125). -/
def Regs.mask (r : Regs) (g : Guard) : Word := if g.neg then ~~~(r.getK g.k) else r.getK g.k

/-- A G register of the running slot. -/
def State.getG (s : State) (n : Reg) : Word := s.regs.getG n
/-- A K register of the running slot. -/
def State.getK (s : State) (n : KReg) : Word := s.regs.getK n
/-- A V register of the running slot. -/
def State.getV (s : State) (n : Reg) : VReg := s.regs.getV n
/-- FMT as the running slot reads it (08 R207). -/
def State.fmt (s : State) : Word := s.regs.fmt

/-- The guard mask of the running slot; no lane where no bundle is open or the bundle is nullified (12 R311). -/
def State.mask (s : State) : Word :=
  match s.cur with
  | none => 0
  | some c => if c.nullified then 0 else s.regs.mask c.guard

/-- Does the guard enable the running scalar, memory-scalar or control slot: bit 0 alone (05 R125, 12 R294). -/
def State.enabled (s : State) : Bool := s.mask.getLsbD 0

/-- The address of the open bundle. -/
def State.bundlePc (s : State) : BitVec 57 :=
  match s.cur with
  | none => 0
  | some c => c.pc

/-- The core the open bundle issues on. -/
def State.curCore (s : State) : Nat :=
  match s.cur with
  | none => 0
  | some c => c.core

/-- The running task's TID. -/
def State.curTid (s : State) : Word :=
  match s.cur with
  | none => 0
  | some c => c.tid

/-- The context of the running task. -/
def State.curCtx (s : State) : Nat :=
  match s.me? with
  | none => 0
  | some t => t.ctx

/-- A launch as the running task's, where it has one. -/
def State.curLaunch? (s : State) : Option Launch :=
  match s.me? with
  | none => none
  | some t => s.launch? (tidLnum t.tid)

/-- A scalar, control or memory-scalar slot: its effect when its guard enables it, else none (12 R294). -/
def State.whenOn (s : State) (f : State → State) : State := if s.enabled then f s else s

/-- Record an exposed write of the running slot, latency `lat` bundles, in the bits or lanes of `mask`. -/
def State.putWrite (s : State) (lat : Nat) (reg : RegId) (mask : Word) (v : RegVal) : State :=
  s.onCur fun c => { c with writes := c.writes ++ [⟨reg, mask, v, lat, 0, c.slot⟩] }

/-- Record an exposed write of a G register. -/
def State.putG (s : State) (lat : Nat) (d : Reg) (v : Word) : State :=
  s.putWrite lat (.g d) (BitVec.allOnes 64) (.word v)

/-- Record an exposed write of a K register. -/
def State.putK (s : State) (lat : Nat) (d : KReg) (v : Word) : State :=
  s.putWrite lat (.k d) (BitVec.allOnes 64) (.word v)

/-- Record an exposed write of a V register in the lanes of a mask. -/
def State.putV (s : State) (lat : Nat) (d : Reg) (mask : Word) (v : VReg) : State :=
  s.putWrite lat (.v d) mask (.vec v)

/-- Record an arithmetic event of the running slot (08 R213). -/
def State.arith (s : State) (lane : Nat) (evs : List Nat) : State :=
  s.onCur fun c => { c with events := c.events ++ evs.map fun e => (c.slot, lane, e) }

/-- A register write beyond the mailbox: it reaches the device only once READY and while the Welom Link is up
(03 R62). -/
def State.whenBar (s : State) (f : State → State) : State :=
  if s.host.welomUp && s.package.phase == .ready then f s else s

/-- A write of a register of one of the 64 context blocks. -/
def State.whenCtxBar (s : State) (n : Nat) (f : State → State) : State := if n < 64 then s.whenBar f else s

/-! ## What the driver is told (03 R65) -/

/-- MSI-X vector raised (03 R66). -/
def State.raiseVector (s : State) (v : Nat) : State := s.onHost fun h => { h with msix := v :: h.msix }

/-- Record an event in the lowest free entry of the table, and raise vector 0; with none free it is lost (03 R65). -/
def State.recordEvent (s : State) (source die code a b : Nat) : State :=
  match (List.range 64).find? fun i => !((Tbl.find? s.host.events i).any (·.valid)) with
  | none => s.onHost fun h => { h with evlost := min (h.evlost + 1) (2 ^ 32 - 1) }
  | some i =>
    let e : EventRec := { source := source, die := die, code := code, time := s.sinceReset, detailA := a, detailB := b }
    (s.onHost fun h => { h with events := h.events.put i e }).raiseVector 0

/-! ## The wake of a compute die (01 R26) -/

/-- The die code of the active Coachman (03 R65). -/
def State.coachDie (s : State) : Nat := s.host.activeHub.getD 4

/-- The wake state of a die. -/
def State.dieWake (s : State) (die : Nat) : DieWake := s.package.wakes.getD {} die

/-- Change the wake state of a die. -/
def State.modWake (s : State) (die : Nat) (f : DieWake → DieWake) : State :=
  s.onPackage fun p => { p with wakes := p.wakes.upd {} die f }

/-- A die's wake starts: cluster 0 is able at once, cluster k follows 8k cycles later (01 R26). -/
def State.wakeDie (s : State) (die : Nat) : State :=
  if (s.dieWake die).awake then s
  else
    let s1 := s.modWake die fun w =>
      { w with awake := true, start := some s.cycle, clusters := [0], lastActive := s.cycle }
    let s2 := (List.range 23).foldl (fun s k => s.post (8 * (k + 1)) .clusterWake (.num2 die (k + 1))) s1
    s2.post 256 .dieQuiet (.num die)

/-- Matrix, vector-pipe or HBM4E activity on a die keeps it awake (01 R26). -/
def State.markActive (s : State) (die : Nat) : State := s.modWake die fun w => { w with lastActive := s.cycle }

end Sys2Proof.Machine
end

