-- ==== Sys2Proof/Machine/Memory.lean ====
section
/-! DEFINITION. Memory: cells in one canonical form, byte order (00 R5), the physical map (05 R143), keys and
poison (01 R21, R22, R28), scratchpads and full/empty bits (05 R140), L1 and L2 (05 R142 to R146), version lines
(06 R169), and the hotness counters (05 R156). -/

namespace Sys2Proof.Machine

open Sys2Proof

/-! ## Cells -/

/-- The byte at an address; an address that is not listed reads zero (log entry 1). -/
def cellGet : List Host.Cell → Nat → Byte
  | [], _ => 0
  | (k, b) :: t, a => if k = a then b else cellGet t a

/-- Remove an address. -/
def cellDel : List Host.Cell → Nat → List Host.Cell
  | [], _ => []
  | (k, b) :: t, a => if k = a then t else (k, b) :: cellDel t a

/-- List an address with a byte, keeping the addresses rising. -/
def cellPut : List Host.Cell → Nat → Byte → List Host.Cell
  | [], a, x => [(a, x)]
  | (k, b) :: t, a, x =>
    if a < k then (a, x) :: (k, b) :: t
    else if a = k then (a, x) :: t
    else (k, b) :: cellPut t a x

/-- Write a byte: zero removes the entry, so that equal memories are equal lists. -/
def cellSet (m : List Host.Cell) (a : Nat) (x : Byte) : List Host.Cell :=
  if x = 0 then cellDel m a else cellPut m a x

/-- `n` bytes from an address. -/
def cellsRead (m : List Host.Cell) (a n : Nat) : List Byte := (List.range n).map fun i => cellGet m (a + i)

/-- Write bytes from an address upwards. -/
def cellsWrite (m : List Host.Cell) (a : Nat) : List Byte → List Host.Cell
  | [] => m
  | b :: bs => cellsWrite (cellSet m a b) (a + 1) bs

/-- Every address in the list lies above `a`, rising, and no entry is zero. -/
def cellsAbove : Option Nat → List Host.Cell → Bool
  | _, [] => true
  | none, (k, b) :: t => b != 0 && cellsAbove (some k) t
  | some a, (k, b) :: t => decide (a < k) && b != 0 && cellsAbove (some k) t

/-- The canonical form: addresses strictly rising, no entry equal to what an unlisted address reads as. -/
def cellsWf (m : List Host.Cell) : Bool := cellsAbove none m

/-- The memory keeps its canonical form. -/
def Mem.wf (m : Mem) : Bool := cellsWf m.bytes && cellsWf m.sram

/-! ## Byte order (00 R5) -/

/-- Bytes as a number, least significant first. -/
def leNat : List Byte → Nat
  | [] => 0
  | b :: bs => b.toNat + 256 * leNat bs

/-- The `n` low bytes of a number, least significant first. -/
def natLe : Nat → Nat → List Byte
  | 0, _ => []
  | n + 1, x => BitVec.ofNat 8 x :: natLe n (x / 256)

/-- Bytes as a word. -/
def leWord (bs : List Byte) : Word := BitVec.ofNat 64 (leNat bs)
/-- The bytes of a V register (05 R125). -/
def vecBytes (v : VReg) : List Byte := (List.range 64).flatMap fun i => natLe 4 (v.lane i).toNat
/-- A V register from its bytes. -/
def vecOfBytes (bs : List Byte) : VReg := VReg.ofFn fun i => BitVec.ofNat 32 (leNat ((bs.drop (4 * i)).take 4))

/-! ## The physical map (05 R143) -/

/-- Where a physical address lies. -/
inductive Region where
  | hbm (die : Nat) | lpddr (pannier : Nat) | cxl (hub : Nat) | host
  deriving DecidableEq, Repr

/-- The atomic place of a page (05 R149, R155). -/
inductive Place where
  | near | home | system
  deriving DecidableEq, Repr

/-- The pool capacity of a CXL port. -/
def State.cxlCap (s : State) (p : Nat) : Nat :=
  let c := s.fabric.cxl.getD {} p
  if c.enabled then c.capacity else 0

/-- The pool in all: ports 0 and 1 on H0, 2 and 3 on H1, one after another (02 R58, log entry 6). -/
def State.cxlBelow (s : State) : Nat → Nat
  | 0 => 0
  | p + 1 => s.cxlBelow p + s.cxlCap p

/-- The port whose device holds an offset of the pool: ports lie one after another, two of a hub interleaved, or all four,
at 4 KiB (02 R58, log entry 6). -/
def State.cxlPort (s : State) (off : Nat) : Nat :=
  let half := s.cxlBelow 2
  if s.fabric.cxlWays = 4 then off / 4096 % 4
  else if s.fabric.cxlWays = 2 then (if off < half then off / 4096 % 2 else 2 + (off - half) / 4096 % 2)
  else if off < s.cxlBelow 1 then 0 else if off < half then 1 else if off < s.cxlBelow 3 then 2 else 3

/-- The region of an address, or none where 05 R143 makes it reserved. -/
def regionOf (s : State) (pa : Nat) : Option Region :=
  if 2 ^ 52 ≤ pa then none
  else if 2 ^ 51 ≤ pa then some .host
  else if pa < 0x6000000000 then some (.hbm (pa / 0x1800000000))
  else if 0x40000000000 ≤ pa ∧ pa < 0x80000000000 then some (.lpddr ((pa - 0x40000000000) / 0x8000000000))
  else if 0x100000000000 ≤ pa ∧ pa < 0x200000000000 then
    some (.cxl (if s.cxlPort (pa - 0x100000000000) < 2 then 4 else 5))
  else none

/-- Does the address exist: fitted LPDDR and enumerated pool only (05 R143). -/
def physExists (s : State) (pa : Nat) : Bool :=
  match regionOf s pa with
  | none => false
  | some (.hbm _) => true
  | some (.lpddr p) =>
    decide ((pa - 0x40000000000) % 0x8000000000 < s.package.pkgs.getD p 0 * 2 ^ 36)
  | some (.cxl _) => decide (pa - 0x100000000000 < s.cxlBelow 4)
  | some .host => true

/-- The compute die of a pannier (00 R2, 01 R11). -/
def pannierDie (p : Nat) : Nat := p / 2

/-- The home die of an address's L2 line (05 R143). -/
def homeDie (s : State) (pa : Nat) : Option Nat :=
  match regionOf s pa with
  | some (.hbm d) => some d
  | some (.lpddr p) => some (pannierDie p)
  | some (.cxl h) => some (if h = 4 then 1 else 0)
  | _ => none

/-- Is the memory cached in L2: every region but host memory (05 R143, R144). -/
def isCacheable (s : State) (pa : Nat) : Bool := (homeDie s pa).isSome

/-- HBM4E (05 R143). -/
def isHbm (pa : Nat) : Bool := decide (pa < 0x6000000000)

/-! ## Keys (01 R21, R22) and poison (01 R28) -/

/-- The number of the key a slot holds; 0 when it is zeroised. -/
def State.keyNum (s : State) (slot : Nat) : Nat := s.package.keys.getD 0 slot

/-- The key slot of a context's memory (01 R21). -/
def ctxSlot (ctx : Nat) : Nat := ctx + 1

/-- Does a line read as what was written, under a slot: it was never written, or written under the same key. -/
def State.lineReadable (s : State) (slot line : Nat) : Bool :=
  decide (2 ^ 45 ≤ line) ||
  match s.mem.lineKey.find? line with
  | none => true
  | some k => k == s.keyNum slot

/-- The lines that `n` bytes from `pa` touch. -/
def linesOf (pa n : Nat) : List Nat :=
  if n = 0 then [] else (List.range ((pa + n - 1) / 64 - pa / 64 + 1)).map fun i => pa / 64 + i

/-- A byte of physical memory under a key slot; the `j`-th free value where the line's key is another one. -/
def State.physByte (s : State) (slot pa j : Nat) : Byte :=
  if s.lineReadable slot (pa / 64) then cellGet s.mem.bytes pa else Config.freeByte (s.freeCtr + j)

/-- Read physical memory under a key slot (01 R21, R22). -/
def State.physRead (s : State) (slot pa n : Nat) : List Byte × State :=
  ((List.range n).map fun i => s.physByte slot (pa + i) i,
   if (linesOf pa n).all (s.lineReadable slot) then s else s.bumpFree n)

/-- Make a line one of the slot's key: the bytes written under another key become unspecified. -/
def State.rekey (s : State) (slot line : Nat) : State :=
  if 2 ^ 45 ≤ line then s
  else
    let k := s.keyNum slot
    let s1 := if s.lineReadable slot line then s
      else
        let (bs, s0) := s.freeBytes 64
        s0.onMem fun m => { m with bytes := cellsWrite m.bytes (line * 64) bs }
    s1.onMem fun m => { m with lineKey := m.lineKey.put line k }

/-- Insert into a rising list of numbers. -/
def insertNat (a : Nat) : List Nat → List Nat
  | [] => [a]
  | b :: t => if a < b then a :: b :: t else if a = b then b :: t else b :: insertNat a t

/-- Is it an address of host memory while the Welom Link is down (03 R64)? -/
def State.hostDown (s : State) (pa : Nat) : Bool := decide (2 ^ 51 ≤ pa) && !s.host.welomUp

/-- Write physical memory under a key slot. A whole line that is written is no longer poisoned (01 R28); a write to
host memory while the link is down is discarded (03 R64). -/
def State.physWrite (s : State) (slot pa : Nat) (bs : List Byte) : State :=
  if s.hostDown pa then s else
  let s1 := (linesOf pa bs.length).foldl (fun s l => s.rekey slot l) s
  s1.onMem fun m =>
    { m with
      bytes := cellsWrite m.bytes pa bs
      poison := m.poison.filter fun x => !(decide (pa ≤ x.1 * 64) && decide (x.1 * 64 + 64 ≤ pa + bs.length)) }

/-- The first poisoned line among those `n` bytes touch; host memory reads as poison while the link is down
(03 R64). -/
def State.poisonedLine (s : State) (pa n : Nat) : Option Nat :=
  (linesOf pa n).find? fun l => (s.mem.poison.find? l).isSome || s.hostDown (l * 64)

/-- The stage code and die code INTEGRITY reports for a poisoned line: those of the check that failed. Host memory that
the link fails to read is stage 0x1 at the Coachman's hub (01 R28; 03 R64). -/
def State.poisonInfo (s : State) (l : Nat) : Nat := s.mem.poison.getD (1 + s.host.activeHub.getD 4 * 16) l

/-- Mark a line poisoned, its check having failed at a stage of a die (01 R28). -/
def State.poisonLine (s : State) (stage die l : Nat) : State :=
  s.onMem fun m => { m with poison := m.poison.put l (stage + die * 16) }

/-! ## Scratchpads (05 R139 to R141) -/

/-- The key of a scratchpad byte. -/
def sramKey (core off : Nat) : Nat := core * 2 ^ 21 + off

/-- Read a scratchpad. -/
def State.sramRead (s : State) (core off n : Nat) : List Byte := cellsRead s.mem.sram (sramKey core off) n

/-- Write a scratchpad. -/
def State.sramWrite (s : State) (core off : Nat) (bs : List Byte) : State :=
  s.onMem fun m => { m with sram := cellsWrite m.sram (sramKey core off) bs }

/-- Is a scratchpad word FULL (05 R140)? `off` is aligned to 8. -/
def State.wordFull (s : State) (core off : Nat) : Bool := s.mem.full.contains (sramKey core off / 8)

/-- Set a word's full/empty bit. -/
def State.setFull (s : State) (core off : Nat) (b : Bool) : State :=
  s.onMem fun m =>
    let k := sramKey core off / 8
    { m with full := if b then insertNat k m.full else m.full.filter (· != k) }

/-- Scratchpad and L1 bytes by SPCFG.SPLIT (05 R139). -/
def scratchBytes (split : Nat) : Nat :=
  if split = 0 then 0x140000 else if split = 1 then 0x100000 else 0xC0000
/-- L1 lines by SPCFG.SPLIT. -/
def l1Lines (split : Nat) : Nat := (0x180000 - scratchBytes split) / 64

/-- Zero an allocation and set its words EMPTY (05 R140). -/
def State.clearSram (s : State) (core off n : Nat) : State :=
  let lo := sramKey core off
  s.onMem fun m =>
    { m with
      sram := m.sram.filter fun c => !(decide (lo ≤ c.1) && decide (c.1 < lo + n))
      full := m.full.filter fun w => !(decide (lo ≤ w * 8) && decide (w * 8 < lo + n)) }

/-! ## L2 (05 R144 to R146) -/

/-- The slice of a line on its home die (05 R144). -/
def l2Slice (line : Nat) : Nat := line % 24
/-- The set of a line within its slice (05 R144). -/
def l2Set (line : Nat) : Nat := line / 24 % (if line % 24 < 16 then 5461 else 5462)

/-- Two lines of one set of one slice of one die. -/
def sameSet (s : State) (a b : Nat) : Bool :=
  homeDie s (a * 64) == homeDie s (b * 64) && l2Slice a == l2Slice b && l2Set a == l2Set b

/-- Version lines in a line's set (06 R169). -/
def State.versionWays (s : State) (line : Nat) : Nat :=
  s.mem.versions.countP fun v => sameSet s v.line line

/-- Demote the least recently used retained line of a set; the list is oldest first. -/
def demoteRetained (same : Nat → Bool) : List L2Line → List L2Line
  | [] => []
  | l :: t => if same l.line && l.cls == .retain then { l with cls := .normal } :: t else l :: demoteRetained same t

/-- An access to HBM4E itself: a fill of a line, or the write of one (01 R26). -/
def State.hbmActive (s : State) (line : Nat) : State :=
  if isHbm (line * 64) then s.markActive (line * 64 / 0x1800000000) else s

/-- A line leaves L2: a dirty one is written back, and the mismatch of a poisoned one, which nothing consumes there, is
reported to the host with the stage and die of its check (01 R28, 03 R65). -/
def State.leaveL2 (s : State) (l : L2Line) : State :=
  let s1 := if l.dirty then s.hbmActive l.line else s
  let s2 := s1.onMem fun m => { m with l2 := m.l2.filter fun x => x.line != l.line }
  match s.mem.poison.find? l.line with
  | some p => s2.recordEvent 2 (p / 16) (p % 16) (l.line * 64) 0
  | none => s2

/-- Take a line out of L2, if it is there. -/
def State.evictL2 (s : State) (line : Nat) : State :=
  match s.mem.l2.find? fun l => l.line == line with
  | some l => s.leaveL2 l
  | none => s

/-- The victim of a set, of lines that are neither retained nor version lines: the least recently used evict-first line,
else the least recently used normal one (05 R146). -/
def l2Victim (same : Nat → Bool) (l : List L2Line) : Option L2Line :=
  match l.find? fun x => same x.line && x.cls == .evictFirst with
  | some x => some x
  | none => l.find? fun x => same x.line && x.cls == .normal

/-- A way of a line's set is made free, where none is invalid (05 R144, R146). -/
def State.makeWay (s : State) (line : Nat) : State :=
  let same := sameSet s line
  if (s.mem.l2.countP fun l => same l.line) + s.versionWays line < 16 then s
  else
    match l2Victim same s.mem.l2 with
    | some v => s.leaveL2 v
    | none => s

/-- An access that fills or hits an L2 line with a class, the list least recently used first (05 R145, R146). -/
def State.touchL2 (s : State) (ctx pa : Nat) (how : LineClass × Option Nat) (dirty : Bool) : State :=
  if !isCacheable s pa then s
  else
    let line := pa / 64
    let cls := how.1
    let same := sameSet s line
    let held := s.mem.l2.any fun l => l.line == line
    let wasDirty := s.mem.l2.any fun l => l.line == line && l.dirty
    let s1 := if held then s else (s.makeWay line).hbmActive line
    let rest := s1.mem.l2.filter fun l => l.line != line
    let rest2 :=
      if cls == .retain && decide (4 ≤ rest.countP fun l => same l.line && l.cls == .retain)
      then demoteRetained same rest else rest
    s1.onMem fun m => { m with l2 := rest2 ++ [⟨line, cls, dirty || wasDirty, ctx, how.2⟩] }

/-- Before an atomic at a HOME or SYSTEM place, the home slice writes its line back and invalidates it (05 R155). -/
def State.atHome (s : State) (place : Place) (pa : Nat) : State :=
  if place = .near then s else (s.evictL2 (pa / 64)).hbmActive (pa / 64)

/-- The class a context's range registers and the page's EVF bit give an access, with the register (05 R145, R149). -/
def accessClass (c : Ctx) (va : Nat) (evf : Bool) : LineClass × Option Nat :=
  let hit := (List.range 8).find? fun i =>
    let b := c.pinb.getD 0 i
    let l := c.pinl.getD 0 i
    let lo := b.toNat / 2 ^ 16 % 2 ^ 41 * 2 ^ 16
    b.getLsbD 0 && decide (lo ≤ va) && decide (va < lo + l.toNat / 2 ^ 16 % 2 ^ 41 * 2 ^ 16)
  match hit with
  | some i => (if (c.pinb.getD 0 i).getLsbD 1 then .evictFirst else .retain, some i)
  | none => (if evf then .evictFirst else .normal, none)

/-! ## L1 (05 R142) -/

/-- The core's copy of a line as a context's key decrypts it: a copy under another key is not this context's
(00 R10, 01 R21). -/
def State.l1Line (s : State) (ctx core line : Nat) : Option BeatBits :=
  ((s.core core).l1.find? fun x => x.1 == line && x.2.1 == s.keyNum (ctxSlot ctx)).map (·.2.2)

/-- Sixty-four bytes as a beat. -/
def beatOf (bs : List Byte) : BeatBits := BitVec.ofNat 512 (leNat bs)
/-- A beat's bytes. -/
def beatBytes (b : BeatBits) : List Byte := natLe 64 b.toNat

/-- Place a line in the core's L1, dropping the oldest beyond its size. -/
def State.fillL1 (s : State) (ctx core line : Nat) (b : BeatBits) : State :=
  s.modCore core fun c =>
    { c with
      l1 := ((line, s.keyNum (ctxSlot ctx), b) :: c.l1.filter (·.1 != line)).take (l1Lines s.cores.spSplit) }

/-- Invalidate a core's L1 (05 R142). -/
def State.dropL1 (s : State) (core : Nat) : State := s.modCore core fun c => { c with l1 := [] }

/-- Overwrite bytes of a list from a position. -/
def overlayBytes (base : List Byte) (off : Nat) (bs : List Byte) : List Byte :=
  base.take off ++ bs ++ base.drop (off + bs.length)

/-- Invalidate a core's copy of a line. -/
def State.dropL1Line (s : State) (core line : Nat) : State :=
  s.modCore core fun c => { c with l1 := c.l1.filter (·.1 != line) }

/-- Update the core's copies of the lines a store of a context writes (05 R142). -/
def State.storeL1 (s : State) (ctx core pa : Nat) (bs : List Byte) : State :=
  let key := s.keyNum (ctxSlot ctx)
  s.modCore core fun c =>
    { c with l1 := c.l1.map fun (l, k, b) =>
        if k = key ∧ pa < l * 64 + 64 ∧ l * 64 < pa + bs.length then
          let skip := l * 64 - pa
          let at0 := pa - l * 64
          (l, k, beatOf (overlayBytes (beatBytes b) at0 ((bs.drop skip).take (64 - at0))))
        else (l, k, b) }

/-! ## Version lines (06 R169) -/

/-- The version line of a task. -/
def State.vline? (s : State) (tid : Word) (line : Nat) : Option VLine :=
  s.mem.versions.find? fun v => v.tid == tid && v.line == line

/-- A byte of a task's version, where it has written it. -/
def State.versionByte (s : State) (tid : Word) (pa : Nat) : Option Byte :=
  match s.vline? tid (pa / 64) with
  | none => none
  | some v => if v.mask.getLsbD (pa % 64) then some (v.data.extractLsb' (8 * (pa % 64)) 8) else none

/-- Write bytes into a task's version, taking new version lines, each in a way of its set, where needed. -/
def State.versionWrite (s : State) (tid : Word) (ctx : Nat) (pa : Nat) (bs : List Byte) : State :=
  let put (s : State) (x : Nat × Byte) : State :=
    let (a, b) := x
    let line := a / 64
    let s1 := if (s.vline? tid line).isSome then s
      else (s.makeWay line).onMem fun m => { m with versions := m.versions ++ [⟨tid, line, 0, 0, ctx⟩] }
    s1.onMem fun m =>
      { m with versions := m.versions.map fun v =>
          if v.tid == tid && v.line == line then
            let o := a % 64
            let keep : BeatBits := ~~~((0xFF : BeatBits) <<< (8 * o))
            { v with
              mask := v.mask ||| (1#64 <<< o)
              data := (v.data &&& keep) ||| (b.setWidth 512 <<< (8 * o)) }
          else v }
  ((List.range bs.length).zip bs |>.map fun (i, b) => (pa + i, b)).foldl put s

/-- A store of a version would need a line in a set that already holds four (06 R169). -/
def State.versionFull (s : State) (tid : Word) (pa n : Nat) : Bool :=
  (linesOf pa n).any fun l => (s.vline? tid l).isNone && decide (4 ≤ s.versionWays l)

/-- Discard a task's version (06 R173). -/
def State.versionDrop (s : State) (tid : Word) : State :=
  s.onMem fun m => { m with versions := m.versions.filter (·.tid != tid) }

/-- Write a task's version lines into their home lines and free them (06 R172). -/
def State.versionCommit (s : State) (tid : Word) : State :=
  let mine := s.mem.versions.filter (·.tid == tid)
  let writeLine (s : State) (v : VLine) : State :=
    (List.range 64).foldl (fun s i =>
      if v.mask.getLsbD i then s.physWrite (ctxSlot v.ctx) (v.line * 64 + i) [v.data.extractLsb' (8 * i) 8] else s) s
  (mine.foldl writeLine s).versionDrop tid

/-! ## Hotness counters (05 R156) -/

/-- Add to a buffer's BYTES, saturating. -/
def State.countBytes (s : State) (ctx : Nat) (buf n : Nat) : State :=
  s.modCtx ctx fun c =>
    { c with hot := c.hot.upd (0, 0) buf fun (b, w) => (min (b + n) (2 ^ 64 - 1), w) }

/-- Add to a buffer's STALLS, saturating. -/
def State.countStalls (s : State) (ctx : Nat) (buf n : Nat) : State :=
  s.modCtx ctx fun c =>
    { c with hot := c.hot.upd (0, 0) buf fun (b, w) => (b, min (w + n) (2 ^ 64 - 1)) }

end Sys2Proof.Machine
end

