-- ==== Sys2Proof/Machine/Crc.lean ====
section
/-! DEFINITION. The check values: CRC-32C of a beat and of a code image (01 R27; 03 R81), and the LCRC of a flit
(02 R33). -/

namespace Sys2Proof.Machine

open Sys2Proof

/-- One bit of a reflected CRC-32. -/
def crcBit (poly c : BitVec 32) : BitVec 32 := if c.getLsbD 0 then (c >>> 1) ^^^ poly else c >>> 1

/-- One byte of a reflected CRC-32. -/
def crcByte (poly c : BitVec 32) (b : Byte) : BitVec 32 :=
  (List.range 8).foldl (fun c _ => crcBit poly c) (c ^^^ b.setWidth 32)

/-- A reflected CRC-32 with initial value and final exclusive-or of all ones. -/
def crcOf (poly : BitVec 32) (bs : List Byte) : BitVec 32 := ~~~(bs.foldl (crcByte poly) 0xFFFFFFFF)

/-- CRC-32C: polynomial 0x1EDC_6F41, reflected (01 R27). -/
def crc32c (bs : List Byte) : BitVec 32 := crcOf 0x82F63B78 bs

/-- The CRC of LCRC: polynomial 0x04C1_1DB7, reflected (02 R33). -/
def crc32 (bs : List Byte) : BitVec 32 := crcOf 0xEDB88320 bs

/-- The check value of a beat at a physical address (01 R27). -/
def beatCheck (data : BeatBits) (pa : Nat) : BitVec 32 := crc32c (beatBytes data ++ natLe 8 pa)

end Sys2Proof.Machine
end

