-- ==== Sys2Proof/Machine/Prefects.lean ====
section
/-! DEFINITION. The Prefects' lock objects: compatibility, the parent rule, the queue, the grant step and
wound-wait (09 R222 to R240). -/

namespace Sys2Proof.Machine

open Sys2Proof

/-! ## Age (04 R96) -/

/-- Is task `a` older than task `b`: earlier LNUM over a window of 2^31, then smaller bits [18:0] (04 R96)? -/
def tidOlder (a b : Word) : Bool :=
  if tidLnum a = tidLnum b then decide (a.extractLsb' 0 19 < b.extractLsb' 0 19)
  else decide (0 < (tidLnum b - tidLnum a).toNat) && decide ((tidLnum b - tidLnum a).toNat < 2 ^ 31)

/-! ## Lock words (09 R222, R223) -/

/-- LINE of a lock word. -/
def lwLine (w : Word) : Nat := w.toNat % 2 ^ 12
/-- TILE of a lock word. -/
def lwTile (w : Word) : Nat := w.toNat / 2 ^ 12 % 2 ^ 20
/-- LEVEL of a lock word. -/
def lwLevel (w : Word) : Nat := w.toNat / 2 ^ 56 % 4
/-- HOME of a lock word. -/
def lwHome (w : Word) : Nat := w.toNat / 2 ^ 58 % 4

/-- A malformed lock word (09 R222). -/
def lwBad (w : Word) : Bool :=
  lwLevel w == 3 || decide (2 ^ 60 ≤ w.toNat) || (lwLevel w != 2 && lwLine w != 0) || (lwLevel w == 0 && lwTile w != 0)

/-- The parent's lock word (09 R223). -/
def lwParent (w : Word) : Option Word :=
  match lwLevel w with
  | 1 => some (BitVec.ofNat 64 (w.toNat / 2 ^ 58 * 2 ^ 58 + w.toNat / 2 ^ 32 % 2 ^ 24 * 2 ^ 32))
  | 2 => some (BitVec.ofNat 64 (w.toNat / 2 ^ 58 * 2 ^ 58 + 2 ^ 56 + w.toNat / 2 ^ 12 % 2 ^ 44 * 2 ^ 12))
  | _ => none

/-! ## Modes (09 R224 to R227) -/

/-- The code of a mode (09 R224). -/
def modeCode : LockMode → Nat
  | .is => 0
  | .ix => 1
  | .s => 2
  | .inc => 3
  | .x => 4

/-- Bit 5a + b of the matrix (09 R224). -/
def modesCompat (matrix : BitVec 25) (a b : LockMode) : Bool := matrix.getLsbD (5 * modeCode a + modeCode b)

/-- The load check of 09 R225: symmetric, and X compatible with nothing. -/
def matrixOk (m : BitVec 25) : Bool :=
  (List.range 5).all fun a =>
    !(m.getLsbD (20 + a)) && !(m.getLsbD (5 * a + 4)) &&
    (List.range 5).all fun b => m.getLsbD (5 * a + b) == m.getLsbD (5 * b + a)

/-- Parent modes that allow a requested mode (09 R226). -/
def parentAllows (parent req : LockMode) : Bool :=
  match req with
  | .is | .s => parent == .is || parent == .ix || parent == .s || parent == .x
  | .ix | .x => parent == .ix || parent == .x
  | .inc => parent == .ix || parent == .inc || parent == .x

/-- What 09 R227 says of a request for an object that is held. -/
inductive HeldReq where
  | granted | upgrade | wrong
  deriving DecidableEq, Repr

/-- The table of 09 R227. -/
def heldRequest (held req : LockMode) : HeldReq :=
  if held = req then .granted
  else
    match held, req with
    | .x, _ => .granted
    | .is, .ix | .is, .s => .upgrade
    | .ix, .x => .upgrade
    | .s, .x => .upgrade
    | .s, .is => .granted
    | .inc, .x => .upgrade
    | .inc, .is => .granted
    | .ix, .is => .granted
    | _, _ => .wrong

/-! ## Objects -/

/-- Put a request into a queue by age (09 R229). -/
def queueByAge (tid : Word) (m : LockMode) : List (Word × LockMode) → List (Word × LockMode)
  | [] => [(tid, m)]
  | q :: qs => if tidOlder tid q.1 then (tid, m) :: q :: qs else q :: queueByAge tid m qs

/-- Compatible with every holder other than the requester (09 R229). -/
def compatHolders (mx : BitVec 25) (o : LockObj) (tid : Word) (m : LockMode) : Bool :=
  o.holders.all fun h => h.1 == tid || modesCompat mx h.2.1 m

/-- Set a holder's mode, or add it. -/
def addHolder (o : LockObj) (tid : Word) (m : LockMode) : LockObj :=
  if o.holders.any (·.1 == tid) then
    { o with holders := o.holders.map fun h => if h.1 == tid then (tid, m, h.2.2) else h }
  else { o with holders := o.holders ++ [(tid, m, false)] }

/-- Would a request be granted at once (09 R229)? -/
def grantAtOnce (mx : BitVec 25) (o : LockObj) (tid : Word) (m : LockMode) : Bool :=
  compatHolders mx o tid m && o.queue.all fun q => tidOlder tid q.1

/-- The grant step (09 R230): grants from the head of the queue; `fuel` bounds the walk. -/
def grantStep (mx : BitVec 25) : Nat → LockObj → LockObj × List (Word × LockMode)
  | 0, o => (o, [])
  | n + 1, o =>
    match o.queue with
    | [] => (o, [])
    | (t, m) :: qs =>
      if compatHolders mx o t m then
        let (o', gs) := grantStep mx n { addHolder o t m with queue := qs }
        (o', (t, m) :: gs)
      else (o, [])

/-- Holders a queued request wounds: younger, incompatible, not wounded yet (09 R234). -/
def woundsOf (mx : BitVec 25) (o : LockObj) (tid : Word) (m : LockMode) : List Word :=
  (o.holders.filter fun h => h.1 != tid && !h.2.2 && !modesCompat mx h.2.1 m && tidOlder tid h.1).map (·.1)

/-- The object of a context's ASID and a lock word. -/
def State.lockObj (s : State) (asid : BitVec 16) (lw : Word) : LockObj :=
  (s.prefects.objs.find? fun o => o.asid == asid && o.lw == lw).getD ⟨asid, lw, [], []⟩

/-- Store an object; one without holder and waiter is freed (09 R237, R240). -/
def State.setLockObj (s : State) (o : LockObj) : State :=
  s.onPrefects fun p =>
    let rest := p.objs.filter fun q => !(q.asid == o.asid && q.lw == o.lw)
    { p with objs := if o.holders.isEmpty && o.queue.isEmpty then rest else rest ++ [o] }

/-- Entries, and as many records, that a Prefect holds for tickets (09 R237). -/
def State.pfHeld (s : State) (home : Nat) : Nat := s.prefects.held.countP fun k => k.1 == home

/-- Lock entries of a Prefect in use, RESERVED ones with them (09 R238, R240). -/
def State.pfEntries (s : State) (home : Nat) : Nat :=
  (s.prefects.objs.countP fun o => lwHome o.lw == home) + s.pfHeld home

/-- Request records of a Prefect in use (09 R237, R238). -/
def State.pfRecords (s : State) (home : Nat) : Nat :=
  ((s.prefects.objs.filter fun o => lwHome o.lw == home).map fun o => o.holders.length + o.queue.length).sum + s.pfHeld home

/-- An entry and a record are held for each of the oldest tickets of a Prefect while both are free; the notice reaches the
core, which claims them within 64 cycles (01 R14, R15; 09 R237). `n` bounds the tickets served. -/
def State.offerLocks (s : State) (home : Nat) : Nat → State
  | 0 => s
  | n + 1 =>
    match s.prefects.tickets.find? fun k => k.1 == home with
    | none => s
    | some k =>
      if s.pfEntries home < 65536 ∧ s.pfRecords home < 262144 then
        let (d, s1) := s.choose 65
        ((s1.onPrefects fun p => { p with tickets := p.tickets.erase k, held := p.held ++ [k] }).post d .lockRefusalRetry
          (.task k.2)).offerLocks home n
      else s

/-- Offer what is free to the tickets of a Prefect. -/
def State.offerLock (s : State) (home : Nat) : State := s.offerLocks home s.prefects.tickets.length

/-- Has a core's port a ticketed request at a Prefect? -/
def State.portTicket (s : State) (core home : Nat) : Bool :=
  s.prefects.refused.any fun r => r.core == core && lwHome r.lw == home && r.refusals == 2

/-- The requests that waited in a core's port behind its ticketed one are made: for the first time, or as retries. -/
def State.freeBehind (s : State) (core home : Nat) : State :=
  let mine := s.prefects.refused.filter fun r =>
    r.core == core && lwHome r.lw == home && s.prefects.behind.contains (home, r.tid)
  mine.foldl (fun s r =>
    let s1 := s.onPrefects fun p =>
      { p with
        behind := p.behind.filter (· != (home, r.tid))
        refused := if r.refusals = 0 then p.refused.filter (·.tid != r.tid) else p.refused }
    if r.refusals = 0 then s1.post 0 .prefectLockRequest (.lock r.tid r.lw r.mode 0)
    else s1.post 0 .lockRefusalRetry (.task r.tid)) s

/-- Nothing waits any more of a task's request that was refused; a ticketed one leaves its port. -/
def State.dropRefusal (s : State) (tid : Word) : State :=
  let mine := s.prefects.refused.filter fun r => r.tid == tid && r.refusals == 2
  let s1 := s.onPrefects fun p =>
    { p with
      refused := p.refused.filter (·.tid != tid), tickets := p.tickets.filter (·.2 != tid)
      held := p.held.filter (·.2 != tid), behind := p.behind.filter (·.2 != tid) }
  mine.foldl (fun s r => s.freeBehind r.core (lwHome r.lw)) s1

/-- Tell the granted tasks (09 R230). -/
def State.sendGrants (s : State) (gs : List (Word × LockMode)) : State :=
  gs.foldl (fun s g => s.post 0 .lockGrant (.task g.1)) s

/-- Run the grant step of an object and send its grants. -/
def State.runGrants (s : State) (mx : BitVec 25) (o : LockObj) : State :=
  let (o', gs) := grantStep mx o.queue.length o
  (s.setLockObj o').sendGrants gs

/-- A task leaves an object as holder and as waiter (09 R228, R232, R235). -/
def LockObj.leave (o : LockObj) (tid : Word) : LockObj :=
  { o with holders := o.holders.filter (·.1 != tid), queue := o.queue.filter (·.1 != tid) }

/-- Is a posted event a try of a task that has not reached its Prefect? -/
def isTryOf (tid : Word) (d : Nat × Instr × EvArg) : Bool :=
  match d.2.1, d.2.2 with
  | .prefectLockTry, .lock u _ _ _ => u == tid
  | _, _ => false

/-- A task leaves every object, children before parents, and what it has asked of the Prefects is withdrawn: an entry held
for it is claimed with a null request (09 R228, R232, R240; 01 R15). -/
def State.prefectLeave (s : State) (tid : Word) (ctx : Nat) : State :=
  let mx := (s.ctx ctx).lkcompat
  let mine := s.prefects.objs.filter fun o => o.holders.any (·.1 == tid) || o.queue.any (·.1 == tid)
  let byLevel := mine.filter (lwLevel ·.lw == 2) ++ mine.filter (lwLevel ·.lw == 1) ++ mine.filter (lwLevel ·.lw == 0)
  let s1 := byLevel.foldl (fun s o => s.runGrants mx ((s.lockObj o.asid o.lw).leave tid)) s
  let s2 := s1.dropRefusal tid
  let s3 := { s2 with due := s2.due.filter fun d => !isTryOf tid d }
  (List.range 4).foldl State.offerLock s3

/-- Has a holder been wounded by a task that waits for it, with its restart still to come (09 R234)? -/
def State.woundSent (s : State) (tid : Word) : Bool :=
  s.prefects.objs.any fun o => o.holders.any fun h => h.1 == tid && h.2.2

/-- Does a message that arrives in this cycle come before the request of a task at a Prefect: a holder that leaves, or a
request of an older task (09 R229, R240)? -/
def State.lockFirst (s : State) (tid : Word) (home : Nat) (d : Nat × Instr × EvArg) : Bool :=
  decide (d.1 ≤ s.cycle) &&
  match d.2.1, d.2.2 with
  | .prefectLockRelease, .lock _ lw _ _ => lwHome lw == home
  | .prefectLockRequest, .lock u lw _ _ => lwHome lw == home && tidOlder u tid
  | .prefectLockTry, .lock u lw _ _ => lwHome lw == home && tidOlder u tid
  | .lockRefusalRetry, .task u =>
    tidOlder u tid && s.prefects.refused.any fun r => r.tid == u && lwHome r.lw == home
  | _, _ => false

/-- A request reaches its Prefect after the messages of the same cycle that come before it (09 R229, R240). -/
def State.inLockOrder (s : State) (tid : Word) (home : Nat) (i : Instr) (f : State → State) : State :=
  if s.due.any (s.lockFirst tid home) then s.post 0 i s.arg else f s

end Sys2Proof.Machine
end

