-- ==== Sys2Proof/Machine/RegFile.lean ====
section
/-! DEFINITION. When register writes become visible (05 R131 to R133): the pending-write queue, interlocked
writes, and their order. -/

namespace Sys2Proof.Machine

open Sys2Proof

/-- The word of a register value. -/
def RegVal.toWord : RegVal → Word
  | .word w => w
  | .vec _ => 0

/-- The vector of a register value. -/
def RegVal.toVec : RegVal → VReg
  | .vec v => v
  | .word _ => Vector.replicate 64 0

/-- The bits of `old` replaced by those of `new` where the mask is set (05 R132). -/
def mergeBits (old new mask : Word) : Word := (old &&& ~~~mask) ||| (new &&& mask)

/-- The lanes of `old` replaced by those of `new` where the mask is set (05 R132). -/
def mergeLanes (old new : VReg) (mask : Word) : VReg :=
  VReg.ofFn fun i => if mask.getLsbD i then new.lane i else old.lane i

/-- A G, K, V or FMT register takes a value in the bits or lanes of a mask; G0 and K0 discard it (05 R124). -/
def Regs.write (r : Regs) (reg : RegId) (mask : Word) (v : RegVal) : Regs :=
  match reg with
  | .g n => if n = 0 then r else { r with g := r.g.set n.toNat (mergeBits (r.getG n) v.toWord mask) (by exact n.isLt) }
  | .k n => if n = 0 then r else { r with k := r.k.set n.toNat (mergeBits (r.getK n) v.toWord mask) (by exact n.isLt) }
  | .v n => { r with v := r.v.set n.toNat (mergeLanes (r.getV n) v.toVec mask) (by exact n.isLt) }
  | .fmt => { r with fmt := mergeBits r.fmt v.toWord mask }

/-- Is the register one that trap entry shadows: G24 to G31, K6, K7 (06 R163)? -/
def shadowIndex : RegId → Option Nat
  | .g n => if 24 ≤ n.toNat then some (n.toNat - 24) else none
  | .k n => if 6 ≤ n.toNat then some (n.toNat + 2) else none
  | _ => none

/-- Take away, in writes of the same register that were issued earlier, the bits that a now visible write covers
(05 R132). -/
def coverPend (reg : RegId) (ord : Nat) (mask : Word) (l : List Pend) : List Pend :=
  l.map fun p => if p.reg = reg ∧ p.ord < ord then { p with mask := p.mask &&& ~~~mask } else p

/-- The same for interlocked writes in flight. -/
def coverInfl (reg : RegId) (ord : Nat) (mask : Word) (l : List Infl) : List Infl :=
  l.map fun p => if p.reg = reg ∧ p.ord < ord ∧ !p.toShadow then { p with mask := p.mask &&& ~~~mask } else p

/-- One exposed write becomes visible: the register takes it, and earlier writes are covered. -/
def Task.show (t : Task) (p : Pend) : Task :=
  { t with
    r := t.r.write p.reg p.mask p.val
    pend := coverPend p.reg p.ord p.mask t.pend
    infl := coverInfl p.reg p.ord p.mask t.infl }

/-- Mark an interlocked write visible, so that it covers what was issued before it. -/
def Task.showInfl (t : Task) (e : Infl) : Task :=
  { t with
    pend := coverPend e.reg e.ord e.mask t.pend
    infl := (coverInfl e.reg e.ord e.mask t.infl).map fun x => if x.id = e.id then { x with visible := true } else x }

/-- The next bundle comes: every entry is one bundle nearer, and those that arrive become visible in issue order,
an entry's later cover having been taken away (05 R131 to R133). -/
def Task.advance (t : Task) : Task :=
  let stepped := t.pend.map fun p => { p with remain := p.remain - 1 }
  let due := stepped.filter (·.remain == 0)
  let t1 := { t with pend := stepped.filter (·.remain != 0) }
  due.foldl (fun t p => t.show p) t1

/-- The numbers one slot's writes take up in a task's issue order: exposed ones, then interlocked ones. -/
def slotStride : Nat := 4096

/-- The numbers a bundle takes up in a task's issue order. -/
def bundleStride : Nat := 16 * slotStride

/-- Put a write among others of its bundle, which are in slot order, behind those of its own slot. -/
def insertWrite (p : Pend) : List Pend → List Pend
  | [] => [p]
  | q :: t => if p.slot < q.slot then p :: q :: t else q :: insertWrite p t

/-- The writes of a bundle in slot order (05 R132). -/
def slotSorted (ws : List Pend) : List Pend := ws.foldl (fun l p => insertWrite p l) []

/-- Number the writes of a bundle in issue order, slot by slot (05 R132). -/
def numberWrites (n : Nat) (ws : List Pend) (es : List Infl) : List Pend × List Infl :=
  ((slotSorted ws).zipIdx.map fun (p, i) => { p with ord := n + slotStride * p.slot + i },
   es.zipIdx.map fun (e, i) => { e with ord := n + slotStride * e.slot + slotStride / 2 + i })

/-- The writes of a bundle join the task's queues; interlocked ones are visible to the next bundle (05 R132, R133). -/
def Task.join (t : Task) (ws : List Pend) (es : List Infl) : Task :=
  let (ps, is) := numberWrites t.ordCtr ws es
  let t1 := { t with pend := t.pend ++ ps, infl := t.infl ++ is, ordCtr := t.ordCtr + bundleStride }
  is.foldl (fun t e => t.showInfl e) t1

/-- The writes of a bundle join the task at its issue, and the queue advances: writes of class 1 are visible to the next
bundle, the rest wait (05 R131, R133). -/
def Task.enter (t : Task) (ws : List Pend) (es : List Infl) : Task := (t.join ws es).advance

/-- The values K registers take as the queue advances, in issue order: slot, register and value (05 R158). -/
def Task.shownK (t : Task) : List (Nat × KReg × Word) :=
  ((t.pend.filter (·.remain == 1)).foldl (fun (x : Task × List (Nat × KReg × Word)) p =>
    let u := x.1.show p
    match p.reg with
    | .k n => (u, if n = 0 then x.2 else x.2 ++ [(p.slot, n, u.r.k.toArray.getD n.toNat 0)])
    | _ => (u, x.2)) (t, [])).2

/-- Entries the queue holds while the next bundle issues (05 R133). -/
def Task.pendCount (t : Task) : Nat := t.pend.length

/-- Apply every entry of the queue now, in issue order (06 R163). -/
def Task.applyAll (t : Task) : Task :=
  t.pend.foldl (fun t p => t.show p) { t with pend := [] }

/-- Does a load in flight hold a bundle that reads these registers (05 R132)? -/
def Task.waitsFor (t : Task) (reads : List RegId) : Option Infl :=
  t.infl.find? fun e => e.visible && e.mask != 0 && !e.toShadow && reads.contains e.reg

/-- The data of an interlocked write arrives: it lands in its register, or in the trap shadow (05 R132, 06 R163). -/
def Task.land (t : Task) (id : Nat) (v : RegVal) : Task :=
  match t.infl.find? (·.id == id) with
  | none => t
  | some e =>
    let t1 := { t with infl := t.infl.filter (·.id != id) }
    if e.toShadow then
      match shadowIndex e.reg with
      | some i =>
        let old := t.trap.shadow.getD i 0
        { t1 with trap := { t1.trap with shadow := t1.trap.shadow.set i (mergeBits old v.toWord e.mask) } }
      | none => t1
    else { t1 with r := t1.r.write e.reg e.mask v }

end Sys2Proof.Machine
end

