-- ==== Sys2Proof/Machine/Translate.lean ====
section
/-! DEFINITION. Address translation (05 R141, R147 to R152): the scratch window, the heap window, page-table
walks and TLBs, and the checks of one access. -/

namespace Sys2Proof.Machine

open Sys2Proof

/-- Where an access is performed. -/
inductive Loc where
  /-- A scratchpad SRAM: core and offset. -/
  | sram (core off : Nat)
  /-- Memory of this chip, with the page's atomic place and EVF. -/
  | phys (pa : Nat) (place : Place) (evf : Bool)
  /-- A page of a peer chip: chip, fabric context, virtual address. -/
  | peer (chip : BitVec 12) (fctx : BitVec 16) (va : Nat)
  deriving DecidableEq, Repr

/-- What the checks of an access find (05 R150, 14 R356). -/
inductive Chk (α : Type) where
  | ok (a : α)
  /-- A precise fault: code, TRAPADDR, TRAPINFO. -/
  | bad (code : Nat) (addr info : Nat)
  /-- No TLB holds the page: a walk is needed. -/
  | miss (va : Nat) (kind : AccKind) (fetch : Bool)
  /-- A resolvable outcome: COW_WRITE or PAGE_NOT_PRESENT with its level. -/
  | resolve (va : Nat) (cow : Bool) (level : Nat)
  deriving DecidableEq, Repr

/-! ## The scratch window (05 R141) -/

/-- The first address of the scratch window. -/
def scratchBase : Nat := 0x1FFFFFF80000000

/-- Is the address in the scratch window? -/
def inScratch (va : Nat) : Bool := decide (scratchBase ≤ va) && decide (va < 2 ^ 57)

/-- The window address of a byte of a core's scratchpad (05 R141). -/
def scratchAddr (core off : Nat) : Nat :=
  scratchBase + coreDie core * 2 ^ 29 + coreCluster core * 2 ^ 24 + coreIndex core * 2 ^ 21 + off

/-- The cluster field of a window address. -/
def scratchCluster (va : Nat) : Nat := va / 2 ^ 24 % 32
/-- The core a window address names. -/
def scratchCore (va : Nat) : Nat := va / 2 ^ 29 % 4 * 192 + scratchCluster va * 8 + va / 2 ^ 21 % 8

/-- Do the `n` bytes at an offset lie in one allocation of the context, or in several that join? Byte by byte
(05 R141). -/
def State.scratchCovered (s : State) (ctx core off n : Nat) : Bool :=
  (List.range n).all fun i =>
    (s.core core).allocs.any fun a => a.2.2.2 == ctx && decide (a.1 ≤ off + i) && decide (off + i < a.1 + a.2.1)

/-- The check of a scratch-window access (05 R141). -/
def State.checkScratch (s : State) (ctx va n : Nat) : Chk Loc :=
  let core := scratchCore va
  let off := va % 2 ^ 21
  if 24 ≤ scratchCluster va || !s.scratchCovered ctx core off n then .bad 0x010B va 0
  else .ok (.sram core off)

/-! ## Page tables (05 R148 to R150) -/

/-- The index of a virtual address at a level (05 R148). -/
def ptIndex (level va : Nat) : Nat :=
  match level with
  | 4 => va / 2 ^ 48 % 512
  | 3 => va / 2 ^ 39 % 512
  | 2 => va / 2 ^ 30 % 512
  | 1 => va / 2 ^ 21 % 512
  | _ => va / 2 ^ 16 % 32

/-- Bytes a leaf of a level maps, as a power of two (05 R148). -/
def pageBits (level : Nat) : Nat := if level = 0 then 16 else if level = 1 then 21 else 30

/-- The fault code of each kind of access in PERM's TRAPINFO (06 R160). -/
def permInfo (kind : AccKind) (fetch : Bool) : Nat :=
  if fetch then 3 else match kind with
    | .load => 0 | .store => 1 | .atomic => 2

/-- What a leaf allows an access (05 R150, R147): the fault or resolvable outcome it gives, or none. -/
def leafOutcome (leaf : BitVec 64) (va : Nat) (kind : AccKind) (fetch : Bool) : Option (Chk Unit) :=
  let r := leaf.getLsbD 2
  let w := leaf.getLsbD 3
  let x := leaf.getLsbD 4
  let cow := leaf.getLsbD 5
  if fetch then
    (if !x || leaf.getLsbD 8 then some (.bad 0x0110 va 3) else none)
  else
    match kind with
    | .load => if r then none else some (.bad 0x0110 va 0)
    | .store => if cow then some (.resolve va true 0) else if w then none else some (.bad 0x0110 va 1)
    | .atomic => if cow then some (.resolve va true 0) else if w then none else some (.bad 0x0110 va 2)

/-- The reserved-bit and alignment check of a TABLE or LEAF entry (05 R149, R150). -/
def pteBad (level : Nat) (e : BitVec 64) : Bool :=
  let n := e.toNat
  let field (lo w : Nat) : Nat := n / 2 ^ lo % 2 ^ w
  if n % 4 = 2 then
    level == 0 || field 2 6 != 0 || field 52 12 != 0 ||
    (if level = 1 then false else field 8 4 != 0)
  else if n % 4 = 3 then
    decide (3 ≤ level) || field 11 5 != 0 || field 52 12 != 0 || field 6 2 == 3 ||
    (if e.getLsbD 8 then field 44 8 != 0 else field 16 36 % 2 ^ (pageBits level - 16) != 0)
  else false

/-- The outcome of a walk. -/
inductive WalkRes where
  | leaf (level : Nat) (e : BitVec 64)
  | bad (code info : Nat)
  | notPresent (level : Nat)
  deriving DecidableEq, Repr

/-- Walk from a node: `fuel` is one more than the level of the node (05 R150). Entries are read under key slot 0. -/
def State.walkFrom (s : State) (va : Nat) : Nat → Nat → WalkRes
  | 0, _ => .bad 0x010F 0
  | level + 1, node =>
    let pa := node + 8 * ptIndex level va
    if !physExists s pa then .bad 0x010D pa
    else
      let e : BitVec 64 := leWord (s.physRead 0 pa 8).1
      match e.toNat % 4 with
      | 0 => .bad 0x010E level
      | 1 => if pteBad level e then .bad 0x010F level else .notPresent level
      | 2 => if pteBad level e then .bad 0x010F level else s.walkFrom va level (e.toNat / 2 ^ 8 % 2 ^ 44 * 2 ^ 8)
      | _ => if pteBad level e then .bad 0x010F level else .leaf level e

/-- A walk of a context's page tables (05 R148, R150). -/
def State.walk (s : State) (ctx va : Nat) : WalkRes :=
  s.walkFrom va 5 ((s.ctx ctx).ptbase.toNat * 2 ^ 12)

/-- The place of a leaf's ATOM field (05 R149). -/
def leafPlace (e : BitVec 64) : Place :=
  match e.toNat / 64 % 4 with
  | 0 => .near
  | 1 => .home
  | _ => .system

/-- Where a leaf sends an address (05 R149), R143 applied to a local page. -/
def leafLoc (s : State) (level : Nat) (e : BitVec 64) (va : Nat) : Chk Loc :=
  if e.getLsbD 8 then .ok (.peer (e.extractLsb' 16 12) (e.extractLsb' 28 16) va)
  else
    let pa := e.toNat / 2 ^ 16 % 2 ^ 36 * 2 ^ 16 + va % 2 ^ pageBits level
    if physExists s pa then .ok (.phys pa (leafPlace e) (e.getLsbD 9)) else .bad 0x010D va pa

/-! ## TLBs (05 R151) -/

/-- Does a TLB entry translate an address of an ASID? -/
def TlbEnt.hits (t : TlbEnt) (asid : BitVec 16) (va : Nat) : Bool :=
  t.asid == asid && t.vpage / 2 ^ (pageBits t.level - 16) == va / 2 ^ pageBits t.level

/-- Move a hit to the most recently used place. -/
def tlbTouch (t : TlbEnt) (l : List TlbEnt) : List TlbEnt := t :: l.filter (· != t)

/-- The ways of a cluster TLB's set (05 R151): entries with the same set index, at most eight. -/
def tlbSetOf (vpage : Nat) : Nat := vpage % 512

/-- Place an entry in a fully associative TLB of `n` entries, least recently used out. -/
def tlbPlace (n : Nat) (t : TlbEnt) (l : List TlbEnt) : List TlbEnt := (tlbTouch t l).take n

/-- Keep at most `n` entries of one set, the most recently used ones first in the list. -/
def tlbTrim (set n : Nat) : List TlbEnt → List TlbEnt
  | [] => []
  | t :: ts =>
    if tlbSetOf t.vpage = set then
      match n with
      | 0 => tlbTrim set 0 ts
      | n + 1 => t :: tlbTrim set n ts
    else t :: tlbTrim set n ts

/-- Place an entry in a cluster TLB: 8 ways of each set. -/
def clusterPlace (t : TlbEnt) (l : List TlbEnt) : List TlbEnt := tlbTrim (tlbSetOf t.vpage) 8 (tlbTouch t l)

/-- The cluster of a core, numbered through the package. -/
def clusterOf (core : Nat) : Nat := core / 8

/-- The TLB entry a core finds for an address, core TLB first. -/
def State.tlbFind (s : State) (core : Nat) (asid : BitVec 16) (va : Nat) : Option TlbEnt :=
  match (s.core core).tlb.find? (·.hits asid va) with
  | some t => some t
  | none => (s.cores.clusterTlb.getD [] (clusterOf core)).find? (·.hits asid va)

/-- An access has used the translation of an address: in the TLB that holds it, the core's first, it is the most recently
used (05 R151). -/
def State.tlbUse (s : State) (core : Nat) (asid : BitVec 16) (va : Nat) : State :=
  match (s.core core).tlb.find? (·.hits asid va) with
  | some t => s.modCore core fun c => { c with tlb := tlbTouch t c.tlb }
  | none =>
    match (s.cores.clusterTlb.getD [] (clusterOf core)).find? (·.hits asid va) with
    | some t => s.onCores fun cs => { cs with clusterTlb := cs.clusterTlb.upd [] (clusterOf core) (tlbTouch t) }
    | none => s

/-- Place a translation in a core's TLB and its cluster's (05 R150, R151). -/
def State.tlbInsert (s : State) (core : Nat) (t : TlbEnt) : State :=
  let s1 := s.modCore core fun c => { c with tlb := tlbPlace 256 t c.tlb }
  s1.onCores fun cs => { cs with clusterTlb := cs.clusterTlb.upd [] (clusterOf core) (clusterPlace t) }

/-! ## One access -/

/-- The heap window's values an access uses: the launch's latched ones for a task (03 R68), the context's own
for an access that belongs to no launch (05 R147). -/
structure HeapWin where
  hwb : Nat
  hwl : Nat
  hwo : Nat
  deriving DecidableEq, Repr

/-- The context's registers as they stand. -/
def Ctx.heap (c : Ctx) : HeapWin := ⟨c.hwb.toNat * 2 ^ 16, c.hwl.toNat * 2 ^ 16, c.hwo.toNat * 2 ^ 16⟩

/-- Rule 2 of 05 R147: the heap window. -/
def heapCheck (s : State) (h : HeapWin) (va : Nat) : Option (Chk Loc) :=
  if h.hwl ≠ 0 ∧ h.hwb ≤ va ∧ va < h.hwb + h.hwl then
    let pa := (va + h.hwo) % 2 ^ 57
    if 2 ^ 51 ≤ pa ∨ regionOf s pa = none then some (.bad 0x010C va pa)
    else if physExists s pa then some (.ok (.phys pa .near false))
    else some (.bad 0x010D va pa)
  else none

/-- Rule 3 through a page-table leaf. -/
def leafCheck (s : State) (level : Nat) (e : BitVec 64) (va : Nat) (kind : AccKind) (fetch : Bool) : Chk Loc :=
  match leafOutcome e va kind fetch with
  | some (.bad c a i) => .bad c a i
  | some (.resolve v c l) => .resolve v c l
  | some (.miss v k f) => .miss v k f
  | _ => leafLoc s level e va

/-- An access that belongs to no task walks without a TLB (05 R147): its outcome at once. -/
def State.ctxAccess (s : State) (ctx : Nat) (va n : Nat) (kind : AccKind) : Chk Loc :=
  if inScratch va then s.checkScratch ctx va n
  else
    match heapCheck s (s.ctx ctx).heap va with
    | some r => r
    | none =>
      match s.walk ctx va with
      | .bad c i => .bad c va i
      | .notPresent l => .resolve va false l
      | .leaf l e => leafCheck s l e va kind false

/-- The heap window a task's data accesses use: the values its launch latched (03 R68, 05 R147). -/
def State.taskHeap (s : State) (t : Task) : HeapWin :=
  match s.launch? (tidLnum t.tid) with
  | some l => ⟨l.hwb.toNat * 2 ^ 16, l.hwl.toNat * 2 ^ 16, l.hwo.toNat * 2 ^ 16⟩
  | none => (s.ctx t.ctx).heap

/-- A task's access on a core through its TLBs. A walk's fault outcome that waits for the task counts as found, whatever
access began the walk: one that joined it receives its outcome (05 R151). -/
def State.taskAccess (s : State) (t : Task) (core : Nat) (va n : Nat) (kind : AccKind) : Chk Loc :=
  if inScratch va then s.checkScratch t.ctx va n
  else
    match heapCheck s (s.taskHeap t) va with
    | some r => r
    | none =>
      match s.tlbFind core (s.ctx t.ctx).asid va with
      | some e => leafCheck s e.level e.leaf va kind false
      | none =>
        match t.walkFault with
        | some (page, _, _, code, info) =>
          if page = va / 2 ^ 16 then .bad code.toNat va info.toNat else .miss va kind false
        | none => .miss va kind false

/-- A fetch by a task: always rule 3, X permission (05 R147). -/
def State.fetchAccess (s : State) (t : Task) (core : Nat) (va : Nat) : Chk Loc :=
  match s.tlbFind core (s.ctx t.ctx).asid va with
  | some e => leafCheck s e.level e.leaf va .load true
  | none =>
    match t.walkFault with
    | some (page, _, _, code, info) =>
      if page = va / 2 ^ 16 then .bad code.toNat va info.toNat else .miss va .load true
    | none => .miss va .load true

/-- Atomics a place allows (05 R155, 14 R371): `pcie` tells whether the operation exists as a PCIe AtomicOp. -/
def placeOk (s : State) (l : Loc) (pcie : Bool) : Bool :=
  match l with
  | .phys pa .near _ => isCacheable s pa && !(decide (0x100000000000 ≤ pa) && decide (pa < 0x200000000000))
  | .phys pa _ _ => decide (pa < 2 ^ 51) || pcie
  | _ => true

end Sys2Proof.Machine
end

