-- ==== Sys2Proof/Machine/Frame.lean ====
section
/-! DEFINITION. The context frame: what a save writes and a restore reads (04 R118, R119; 13 R353; 15 R404;
09 R239; 14 R378; 06 R163). -/

namespace Sys2Proof.Machine

open Sys2Proof

/-- The physical address of a task's frame (04 R106). -/
def State.framePa (s : State) (t : Task) : Nat := (s.ctx t.ctx).frbase.toNat * 2 ^ 16 + 0x28000 * t.frame

/-- Bits of a number from `lo`, `w` wide. -/
def bitsOf (x lo w : Nat) : Nat := x / 2 ^ lo % 2 ^ w
/-- A flag as a number. -/
def flag (b : Bool) : Nat := if b then 1 else 0

/-- Zero bytes. -/
def zeros (n : Nat) : List Byte := List.replicate n 0

/-! ## Streams (13 R353) -/

/-- SSTATE. -/
def Stream.state (x : Stream) : Nat :=
  x.bind.toNat + flag x.kty * 2 ^ 2 + x.vty.toNat * 2 ^ 3 + flag x.lastv * 2 ^ 5 + x.op.toNat * 2 ^ 6 +
  x.srca.toNat * 2 ^ 9 + x.srcb.toNat * 2 ^ 11 + flag x.pend * 2 ^ 13 + x.pfrom.toNat * 2 ^ 14 +
  x.status.toNat * 2 ^ 16 + x.opslot.toNat * 2 ^ 20 + x.rm.toNat * 2 ^ 23

/-- The 256 bytes of a stream register. -/
def Stream.bytes (x : Stream) : List Byte :=
  natLe 8 x.state ++ natLe 8 x.kaddr.toNat ++ natLe 8 x.vaddr.toNat ++ natLe 4 x.len.toNat ++ natLe 4 x.pos.toNat ++
  natLe 8 x.lastkey.toNat ++ natLe 8 x.pkey.toNat ++ natLe 4 x.pval.toNat ++ natLe 4 x.opevt.toNat ++
  natLe 8 x.opbaddr.toNat ++ zeros 192

/-- A field of a byte list. -/
def fieldAt (bs : List Byte) (off n : Nat) : Nat := leNat ((bs.drop off).take n)

/-- A stream area no execution could have produced (13 R353). -/
def streamAreaBad (bs : List Byte) : Bool :=
  let st := fieldAt bs 0 8
  decide (2 ^ 26 ≤ st) || decide (4 < bitsOf st 6 3) || decide (4 < bitsOf st 23 3) ||
  (bitsOf st 0 2 != 2 && (bitsOf st 6 3 != 0 || bitsOf st 13 1 != 0)) ||
  (bitsOf st 0 2 == 3 && bitsOf st 19 1 == 0) ||
  decide (2 ^ 20 < fieldAt bs 0x18 4) || decide (fieldAt bs 0x18 4 < fieldAt bs 0x1C 4) ||
  decide (2 ^ 7 ≤ fieldAt bs 0x34 4) || (bs.drop 0x40).any (· != 0)

/-- A stream register from its frame area; a malformed one is BAD (13 R353). -/
def Stream.ofBytes (bs : List Byte) : Stream :=
  if streamAreaBad bs then { bind := 3, status := 8 }
  else
    let st := fieldAt bs 0 8
    let b (lo w : Nat) : Nat := bitsOf st lo w
    { bind := BitVec.ofNat 2 (b 0 2), kty := b 2 1 == 1, vty := BitVec.ofNat 2 (b 3 2), lastv := b 5 1 == 1
      op := BitVec.ofNat 3 (b 6 3), srca := BitVec.ofNat 2 (b 9 2), srcb := BitVec.ofNat 2 (b 11 2)
      pend := b 13 1 == 1, pfrom := BitVec.ofNat 2 (b 14 2), status := BitVec.ofNat 4 (b 16 4)
      opslot := BitVec.ofNat 3 (b 20 3), rm := BitVec.ofNat 3 (b 23 3)
      kaddr := BitVec.ofNat 64 (fieldAt bs 8 8), vaddr := BitVec.ofNat 64 (fieldAt bs 0x10 8)
      len := BitVec.ofNat 32 (fieldAt bs 0x18 4), pos := BitVec.ofNat 32 (fieldAt bs 0x1C 4)
      lastkey := BitVec.ofNat 64 (fieldAt bs 0x20 8), pkey := BitVec.ofNat 64 (fieldAt bs 0x28 8)
      pval := BitVec.ofNat 32 (fieldAt bs 0x30 4), opevt := BitVec.ofNat 32 (fieldAt bs 0x34 4)
      opbaddr := BitVec.ofNat 64 (fieldAt bs 0x38 8) }

/-! ## Pending writes (04 R119) -/

/-- CLASS and register number of a register. -/
def RegId.code : RegId → Nat × Nat
  | .g n => (0, n.toNat)
  | .k n => (1, n.toNat)
  | .v n => (2, n.toNat)
  | .fmt => (3, 0)

/-- The register of a CLASS and number. -/
def RegId.ofCode (cls n : Nat) : RegId :=
  match cls with
  | 0 => .g (BitVec.ofNat 5 n)
  | 1 => .k (BitVec.ofNat 3 n)
  | 2 => .v (BitVec.ofNat 5 n)
  | _ => .fmt

/-- An FPEND entry: REMAIN counts bundles up to the one that sees the write (04 R114, R119). The mask of bits that
a later write has covered is saved with MASKED set. -/
def Pend.bytes (p : Pend) : List Byte :=
  let (c, n) := p.reg.code
  let masked := p.mask != BitVec.allOnes 64
  natLe 8 (c + n * 4 + (p.remain + 1) * 128 + flag masked * 2 ^ 11) ++ natLe 8 p.mask.toNat ++
  (match p.val with
   | .word w => natLe 8 w.toNat ++ zeros 248
   | .vec v => vecBytes v)

/-- An FPEND entry read back, with its place in the task's issue order. -/
def Pend.ofBytes (ord : Nat) (bs : List Byte) : Pend :=
  let h := fieldAt bs 0 8
  let reg := RegId.ofCode (h % 4) (bitsOf h 2 5)
  { reg := reg
    mask := if bitsOf h 11 1 = 1 then BitVec.ofNat 64 (fieldAt bs 8 8) else BitVec.allOnes 64
    val := match reg with
      | .v _ => .vec (vecOfBytes (bs.drop 16))
      | _ => .word (BitVec.ofNat 64 (fieldAt bs 16 8))
    remain := bitsOf h 7 4 - 1
    ord := ord }

/-! ## The frame -/

/-- A list padded with zeros, or cut, to `n` bytes. -/
def padTo (n : Nat) (bs : List Byte) : List Byte := bs.take n ++ zeros (n - bs.length)

/-- The remote request whose data an in-flight write waits for. -/
def RemoteUse.fills : RemoteUse → Nat → Bool
  | .load _ id _ _ _ _, k => id == k
  | .pair _ lo hi, k => lo == k || hi == k
  | _, _ => false

/-- The scratch word a full/empty access waits for: its core and number. -/
def State.feWord? (s : State) (id : Nat) : Option (Nat × Nat) :=
  s.cores.cores.findSome? fun (c, x) =>
    match x.feWaits.find? (·.id == id) with
    | some w => some (c, w.word)
    | none => (x.feRefused.find? (·.1.id == id)).map fun r => (r.2.1, r.1.word)

/-- FWAIT: the address or identifier of a task's wait (04 R118, 09 R239): a bell, a roll's or scratch word's address, a
lock word, a page's address, the address of a remote access, the cluster of a tandem group. -/
def State.waitWord (s : State) (t : Task) : Word :=
  let remote (p : RemoteReq → Bool) (id : Nat) : Word :=
    match s.fabric.remotes.find? p with
    | some r => r.pkt.vaddr.setWidth 64
    | none => BitVec.ofNat 64 id
  match t.wait with
  | some (.bell b _) => BitVec.ofNat 64 b
  | some (.roll a _ _) => BitVec.ofNat 64 a
  | some (.fullEmpty id) =>
    match s.feWord? id with
    | some (c, w) => BitVec.ofNat 64 (scratchAddr c (8 * w))
    | none => 0
  | some .tandem | some .rejoin => BitVec.ofNat 64 (t.core.getD 0 / 8)
  | some (.lock lw _) => lw
  | some (.remote id) => remote (fun r => r.use.fills id) id
  | some (.pageFault va _) => BitVec.ofNat 64 va
  | some (.forward id) => remote (fun r => r.id == id) id
  | some .ending | none => 0

/-- The bytes of the frame below the tile areas (04 R118). -/
def frameBytes (t : Task) (wait : Word) (reason : Nat) (tiles : List Nat) : List Byte :=
  let tileMask := (tiles.map (2 ^ ·)).sum
  let tandemCore := match t.core with
    | some c => coreIndex c
    | none => 0
  let fstate := 1 + reason * 2 + flag t.trap.mode * 2 ^ 4 + t.pend.length * 2 ^ 5 + tileMask * 2 ^ 10 +
    (if t.lockstep then tandemCore * 2 ^ 14 + 2 ^ 18 else 0)
  natLe 8 fstate ++ natLe 8 t.tid.toNat ++ natLe 8 t.r.pc.toNat ++
  natLe 8 wait.toNat ++
  natLe 8 (t.r.buf.toNat + t.r.dbg.toNat * 2 ^ 8) ++ zeros 24 ++
  padTo 144 (t.r.loops.flatMap fun e => natLe 8 e.start.toNat ++ natLe 8 e.stop.toNat ++ natLe 8 e.count.toNat) ++
  zeros 48 ++
  ((List.range 32).flatMap fun i => natLe 8 (t.r.getG (BitVec.ofNat 5 i)).toNat) ++
  ((List.range 8).flatMap fun i => natLe 8 (t.r.getK (BitVec.ofNat 3 i)).toNat) ++
  natLe 8 t.r.fmt.toNat ++ natLe 8 t.r.fel.w0.toNat ++ natLe 8 t.r.fel.w1.toNat ++ natLe 8 t.r.fel.w2.toNat ++
  zeros 32 ++
  ((List.range 4).flatMap fun i => (t.r.getS (BitVec.ofNat 2 i)).bytes) ++
  padTo 1024 (t.locks.flatMap fun l => natLe 8 l.1.toNat ++ natLe 8 (modeCode l.2 + 128)) ++
  padTo 4352 (t.pend.flatMap fun p => p.bytes) ++
  padTo 80 (if t.trap.mode then t.trap.shadow.flatMap fun w => natLe 8 w.toNat else []) ++
  zeros 48 ++
  ((List.range 32).flatMap fun i => vecBytes (t.r.getV (BitVec.ofNat 5 i))) ++
  padTo 128 (t.bells.flatMap fun b => natLe 8 b.1 ++ natLe 4 b.2.toNat ++ natLe 4 1) ++
  padTo 384 (t.r.sb.flatMap fun x => natLe 4 x.toNat) ++
  padTo 88 (match t.tgemm with
    | none => []
    | some g => padTo 64 g.block ++ natLe 8 (g.done + 2 ^ 16 + g.slot.toNat * 2 ^ 17) ++ natLe 8 g.fmt.toNat ++
        natLe 8 g.baddr.toNat) ++
  zeros 424

/-- The bytes of a tile, row-major (04 R118). -/
def tileBytes (lanes : List Lane) : List Byte := padTo 36864 (lanes.flatMap fun x => natLe 4 x.toNat)

/-- The elements of a tile from its bytes. -/
def tileOfBytes (bs : List Byte) : List Lane := (List.range 9216).map fun i => BitVec.ofNat 32 (fieldAt bs (4 * i) 4)

/-- SB at its reset value: 96 scales of one (15 R398). -/
def sbReset : List (BitVec 32) := List.replicate 96 0x3F800000

/-- Registers read back from a frame (04 R114, R118). -/
def regsOfFrame (bs : List Byte) : Regs :=
  let w (off : Nat) : Word := BitVec.ofNat 64 (fieldAt bs off 8)
  let loopAt (i : Nat) : LoopEnt :=
    ⟨(w (0x40 + 24 * i)).setWidth 57, (w (0x48 + 24 * i)).setWidth 57, w (0x50 + 24 * i)⟩
  let loops := (List.range 6).map loopAt |>.filter fun e => e.count != 0
  { pc := (w 0x10).setWidth 57
    g := ⟨((List.range 32).map fun i => w (0x100 + 8 * i)).toArray, by simp⟩
    k := ⟨((List.range 8).map fun i => w (0x200 + 8 * i)).toArray, by simp⟩
    v := ⟨((List.range 32).map fun i => vecOfBytes ((bs.drop (0x1C00 + 256 * i)).take 256)).toArray, by simp⟩
    fmt := fmtStoredBits (w 0x240)
    fel := ⟨w 0x248, w 0x250, w 0x258⟩
    loops := loops
    streams := ⟨((List.range 4).map fun i => Stream.ofBytes ((bs.drop (0x280 + 256 * i)).take 256)).toArray, by simp⟩
    sb := (List.range 96).map fun i => BitVec.ofNat 32 (fieldAt bs (0x3C80 + 4 * i) 4)
    buf := (w 0x20).setWidth 8
    dbg := (w 0x20).extractLsb' 8 2 }
where
  /-- FMT keeps its fourteen bits (08 R207). -/
  fmtStoredBits (x : Word) : Word := x &&& 0x3FFF

/-- A task read back from its frame. -/
def Task.ofFrame (t : Task) (bs : List Byte) : Task :=
  let st := fieldAt bs 0 8
  let r := regsOfFrame bs
  let npend := min 16 (bitsOf st 5 5)
  let sh := (List.range 10).map fun i => (BitVec.ofNat 64 (fieldAt bs (0x1B80 + 8 * i) 8) : Word)
  let gact := fieldAt bs 0x3E40 8
  { t with
    r := r
    pend := (List.range npend).map fun i =>
      Pend.ofBytes ((t.pend[i]?.map (·.ord)).getD (t.ordCtr + i)) ((bs.drop (0xA80 + 272 * i)).take 272)
    ordCtr := t.ordCtr + npend
    trap := if bitsOf st 4 1 = 1 then { t.trap with shadow := sh } else t.trap
    bells := (List.range 8).filterMap fun i =>
      let o := 0x3C00 + 16 * i
      if fieldAt bs (o + 12) 1 % 2 = 1 then some (fieldAt bs o 8, BitVec.ofNat 32 (fieldAt bs (o + 8) 4)) else none
    tgemm :=
      if bitsOf gact 16 1 = 1 then
        some { block := (bs.drop 0x3E00).take 64, done := gact % 2 ^ 16, slot := BitVec.ofNat 3 (bitsOf gact 17 3)
               fmt := BitVec.ofNat 64 (fieldAt bs 0x3E48 8), baddr := BitVec.ofNat 57 (fieldAt bs 0x3E50 8) }
      else none }

/-- Write a task's frame, and the areas of the tiles it owns. -/
def State.writeFrame (s : State) (t : Task) (reason : Nat) (tiles : List (Nat × List Lane)) : State :=
  let pa := s.framePa t
  let s1 := s.physWrite (ctxSlot t.ctx) pa (frameBytes t (s.waitWord t) reason (tiles.map (·.1)))
  tiles.foldl (fun s z => s.physWrite (ctxSlot t.ctx) (pa + 0x4000 + 0x9000 * z.1) (tileBytes z.2)) s1

/-- Read a frame back. -/
def State.readFrame (s : State) (t : Task) : Task × State :=
  let (bs, s1) := s.physRead (ctxSlot t.ctx) (s.framePa t) 0x4000
  (t.ofFrame bs, s1)

/-- A register's place in the frame: offset and bytes (04 R118). -/
def frameSlot : RegId → Nat × Nat
  | .g n => (0x100 + 8 * n.toNat, 8)
  | .k n => (0x200 + 8 * n.toNat, 8)
  | .v n => (0x1C00 + 256 * n.toNat, 256)
  | .fmt => (0x240, 8)

/-- Where data that lands for a framed task goes: the saved register, or its place in the saved trap shadow (06 R163,
14 R367). -/
def Infl.frameSlot (e : Infl) : Nat × Nat :=
  match e.toShadow, shadowIndex e.reg with
  | true, some i => (0x1B80 + 8 * i, 8)
  | _, _ => Sys2Proof.Machine.frameSlot e.reg

/-- Data that arrives for a framed task is written into its frame (14 R367). -/
def State.landFrame (s : State) (t : Task) (e : Infl) (v : RegVal) : State :=
  let (off, n) := e.frameSlot
  let pa := s.framePa t + off
  let (old, s1) := s.physRead (ctxSlot t.ctx) pa n
  let new := match v with
    | .word w => natLe 8 (mergeBits (leWord old) w e.mask).toNat
    | .vec x => vecBytes (mergeLanes (vecOfBytes old) x e.mask)
  s1.physWrite (ctxSlot t.ctx) pa new

/-- The data of an interlocked write arrives for a task, in its registers, its trap shadow or its frame
(05 R132, 06 R163, 14 R367). -/
def State.landFor (s : State) (tid : Word) (id : Nat) (v : RegVal) : State :=
  match s.task? tid with
  | none => s
  | some t =>
    match t.infl.find? (·.id == id) with
    | none => s
    | some e =>
      let s1 := if t.phase = .framed ∧ t.saving = none then s.landFrame t e v else s
      s1.modTask tid fun t => t.land id v

end Sys2Proof.Machine
end

