-- ==== Sys2Proof/Machine/Ordering.lean ====
section
/-! DEFINITION. Issued stores and when they are performed, releases and acquires, and the vector clocks
(07 R178 to R203). -/

namespace Sys2Proof.Machine

open Sys2Proof

/-! ## Packets and pieces of stores -/

/-- Bytes a request covers. A read or write of a copy whose length is no power of two carries it in `opnd2`, since SIZE
cannot (18 R429; log entry 3). -/
def pktBytes (p : Packet) : Nat :=
  if (p.op == 0x01 || p.op == 0x03) && p.opnd2 != 0 then p.opnd2.toNat else 2 ^ p.size.toNat

/-- The bytes a payload carries. -/
def payloadBytes (p : Packet) : List Byte := (p.payload.flatMap fun b => beatBytes b.data).take (pktBytes p)

/-- A piece of a store that stays on this chip. -/
def StorePlace.memOp (p : StorePlace) (bs : List Byte) : Option MemOp :=
  match p with
  | .phys pa => some (if 2 ^ 51 ≤ pa then .host pa bs else .phys pa bs)
  | .sram c o => some (.sram c o bs)
  | .peer _ _ => none

/-! ## Stores that have issued (07 R179 to R181) -/

/-- The bytes of physical memory a piece writes, if it writes any. -/
def MemOp.physSpan : MemOp → Option (Nat × List Byte)
  | .phys pa d => some (pa, d)
  | .host pa d => some (pa, d)
  | .sram _ _ _ => none

/-- Perform one piece at its home. -/
def State.performOp (s : State) (ctx core : Nat) : MemOp → State
  | .phys pa d => (s.physWrite (ctxSlot ctx) pa d).storeL1 ctx core pa d
  | .host pa d => s.physWrite (ctxSlot ctx) pa d
  | .sram c o d => s.sramWrite c o d

/-- The null slip (14 R382). -/
def nullSlip : Word := 0xFFFFFFFF

/-- Perform a store that has issued. -/
def State.performStore (s : State) (p : PendStore) : State :=
  let s1 := p.ops.foldl (fun s op => s.performOp p.ctx p.core op) s
  let s2 := s1.onMem fun m => { m with stores := m.stores.filter (·.id != p.id) }
  match p.slipTo with
  | some k => s2.landFor p.tid k (.word nullSlip)
  | none => s2

/-- Do two pieces touch a common byte, or do both go to host memory, whose order a task keeps? -/
def MemOp.meets (a b : MemOp) : Bool :=
  match a, b with
  | .sram c o d, .sram c' o' d' => c == c' && decide (o < o' + d'.length) && decide (o' < o + d.length)
  | .host _ _, .host _ _ => true
  | a, b =>
    match a.physSpan, b.physSpan with
    | some (p, d), some (q, e) => decide (p < q + e.length) && decide (q < p + d.length)
    | _, _ => false

/-- Do two issued stores meet? -/
def PendStore.meets (a b : PendStore) : Bool := a.ops.any fun x => b.ops.any fun y => x.meets y

/-- The stores of the same task that come before a store and must be performed before it, oldest first: all of them
for a release, else those it meets, directly or through others. -/
def storesBefore (l : List PendStore) (p : PendStore) : List PendStore :=
  let earlier := l.filter fun q => q.tid == p.tid && decide (q.id < p.id)
  if p.release.isSome then earlier
  else
    (earlier.foldr (fun q acc => if q.meets p || acc.any fun r => q.meets r then q :: acc else acc) [])

/-! ## Remote accesses of a task (07 R191, R192) -/

/-- The task a remote request belongs to. -/
def RemoteUse.tid? : RemoteUse → Option Word
  | .load t _ _ _ _ _ => some t
  | .pair t _ _ => some t
  | .store t => some t
  | .localHold t _ => some t
  | _ => none

/-- Is a request a write or an atomic? -/
def RemoteReq.writes (r : RemoteReq) : Bool := r.pkt.op == 0x03 || r.pkt.op == 0x05

/-- A task's remote stores, atomics and loads that have not come back, and its stores in the hold queue. -/
def State.remoteBusy (s : State) (tid : Word) : Bool :=
  s.fabric.remotes.any fun r => r.use.tid? == some tid

/-- Highest settled count die `d` has heard from die `j`. -/
def Clocks.heardOf (c : Clocks) (d j : Nat) : Nat := c.heard.getD 0 (d * 16 + j)

/-- The dies that perform a store. -/
def State.storeDies (s : State) (p : PendStore) : List Nat :=
  p.ops.filterMap fun op =>
    match op with
    | .phys pa _ => homeDie s pa
    | .host _ _ => s.host.activeHub
    | .sram c _ _ => some (coreDie c)

/-- Is a count at or below another, modulo 2^48 (07 R189)? -/
def countLe (a b : Nat) : Bool := decide ((b + 2 ^ 48 - a) % 2 ^ 48 < 2 ^ 47)

/-- Has a die heard everything a stamp names settled (07 R189)? -/
def Clocks.heardAll (c : Clocks) (die : Nat) (stamp : List Nat) : Bool :=
  (List.range stamp.length).all fun j => countLe (stamp.getD j 0) (c.heardOf die j)

/-- The die, other than the issuing one, at which a release store waits for its stamp. -/
def State.stampWaits (s : State) (p : PendStore) : Option Nat :=
  if p.stamp.isEmpty then none
  else (s.storeDies p).find? fun d => d != coreDie p.core && !s.clocks.heardAll d p.stamp

/-- The stores of a task to this chip that wait in the hold queue for their slips, as stores still to be performed
(14 R384; 07 R180). -/
def State.slipStores (s : State) (tid : Word) : List PendStore :=
  s.fabric.remotes.filterMap fun r =>
    match r.use with
    | .localHold t place =>
      if t = tid then
        (place.memOp (payloadBytes r.pkt)).map fun op =>
          { id := r.id, tid := t, ctx := r.ctx, core := 0, ops := [op], release := none }
      else none
    | _ => none

/-- A task's stores that are still to be performed, in the order of their issue (07 R180). -/
def State.ownStores (s : State) (tid : Word) : List PendStore :=
  let held := s.slipStores tid
  let mine := s.mem.stores.filter (·.tid == tid)
  held.foldl (fun l p => (l.filter fun q => decide (q.id < p.id)) ++ [p] ++ l.filter fun q => decide (p.id < q.id)) mine

/-- Does a store wait for accesses of its task before it: a release at FABRIC scope for the acknowledgements of remote
ones (07 R190), a write after a release fence for all that the fence carries (07 R187), any store for one to its bytes
that waits for slips (07 R180)? -/
def State.storeHeldBack (s : State) (p : PendStore) : Bool :=
  let remote (n : Nat) : Bool := s.fabric.remotes.any fun r => r.use.tid? == some p.tid && r.writes && decide (r.id < n)
  (p.release == some .fabric && remote p.id) ||
  p.mark.any (fun m => (m.fabric && remote m.before) || s.mem.stores.any fun q => q.tid == p.tid && decide (q.id < m.before)) ||
  (s.slipStores p.tid).any fun q => decide (q.id < p.id) && (p.release.isSome || q.meets p)

/-- Can a store not be performed now? -/
def State.storeBlocked (s : State) (p : PendStore) : Bool := (s.stampWaits p).isSome || s.storeHeldBack p

/-- Are any of some issued stores still to be performed? -/
def State.anyPending (s : State) (ids : List Nat) : Bool := s.mem.stores.any fun p => ids.contains p.id

/-- Perform every issued store of a task that can be performed, in order: a release may find them performed at any time
(07 R181). -/
def State.flushStores (s : State) (tid : Word) : State :=
  (s.mem.stores.filter (·.tid == tid)).foldl (fun s p =>
    if s.storeBlocked p || !(storesBefore s.mem.stores p).isEmpty then s else s.performStore p) s

/-- Has a task stores that are still to be performed? -/
def State.storesLeft (s : State) (tid : Word) : Bool := !(s.ownStores tid).isEmpty

/-- Do some pieces meet a store of the task that is still to be performed? -/
def State.ownMeets (s : State) (tid : Word) (ops : List MemOp) : Bool :=
  (s.ownStores tid).any fun p => p.ops.any fun x => ops.any fun y => x.meets y

/-- The bytes of a task's own stores that are still to be performed, laid over a read of memory (07 R180). -/
def overlayStores (stores : List PendStore) (pa : Nat) (bs : List Byte) : List Byte :=
  bs.zipIdx.map fun (b, i) =>
    stores.foldl (fun b p => p.ops.foldl (fun b op =>
      match op.physSpan with
      | some (a, d) => if a ≤ pa + i ∧ pa + i < a + d.length then d.getD (pa + i - a) b else b
      | none => b) b) b

/-- The same for a scratchpad. -/
def overlaySram (stores : List PendStore) (core off : Nat) (bs : List Byte) : List Byte :=
  bs.zipIdx.map fun (b, i) =>
    stores.foldl (fun b p => p.ops.foldl (fun b op =>
      match op with
      | .sram c o d => if c = core ∧ o ≤ off + i ∧ off + i < o + d.length then d.getD (off + i - o) b else b
      | _ => b) b) b

/-! ## Vector clocks (07 R189) -/

/-- The die code of a core's die. -/
def State.nextCount (s : State) (die : Nat) : Nat := (s.clocks.counts.getD 0 die + 1) % 2 ^ 48

/-- A release of PKG or FABRIC scope by a die: it takes the next number, and settles once the stores it carries
have been performed (07 R189). -/
def State.countRelease (s : State) (die : Nat) (tid : Word) : State :=
  let k := s.nextCount die
  let carried := (s.mem.stores.filter (·.tid == tid)).map (·.id)
  (s.onClocks fun c =>
    { c with
      counts := c.counts.put die k
      unsettled := c.unsettled ++ [{ die := die, count := k, tid := tid, stores := carried }] }).post 0
      .releaseSettled (.num2 die k)

/-- A release at a scope by a task on a core: everything it has issued on this chip is performed, and a release
of PKG or FABRIC scope is numbered. -/
def State.releaseBy (s : State) (tid : Word) (core : Nat) (sc : Scope) : State :=
  let s1 := s.flushStores tid
  match sc with
  | .pkg | .fabric => s1.countRelease (coreDie core) tid
  | _ => s1

/-- The later of two counts, modulo 2^48 over a window of 2^47 (07 R189). -/
def laterCount (a b : Nat) : Nat := if countLe a b then b else a

/-- The later of two lists of counts, entry by entry, over fourteen dies. -/
def joinClock (a b : List Nat) : List Nat := (List.range 14).map fun j => laterCount (a.getD j 0) (b.getD j 0)

/-- The stamp of a release of PKG or FABRIC scope by a task on a core, once numbered (07 R189). -/
def State.stampOf (s : State) (t : Task) (core : Nat) : List Nat :=
  (joinClock t.clock []).set (coreDie core) (s.clocks.counts.getD 0 (coreDie core))

/-- Must a message of a task to a die wait: for the stamp of a release from another die, or for stores it carries that
could not be performed (07 R189)? -/
def State.messageWaits (s : State) (t : Task) (core die : Nat) : Bool :=
  (die != coreDie core && !s.clocks.heardAll die (s.stampOf t core)) || s.mem.stores.any (·.tid == t.tid)

/-- A message of a task waits to be applied by a die. -/
def State.sendStamped (s : State) (t : Task) (core die : Nat) (act : StampAct) : State :=
  let (id, s1) := s.fresh
  let after := (s1.mem.stores.filter (·.tid == t.tid)).map (·.id)
  (s1.onClocks fun c =>
    { c with waiting := c.waiting ++
        [{ id := id, die := die, stamp := if die = coreDie core then [] else s.stampOf t core, act := act
           after := after }] }).postFree .stampedMessageApply (.num id)

/-- Go on once everything a task has issued to this chip has been performed, as an operation that releases and takes effect
at once needs (07 R184, R190); the bundle is held while a store still waits (log entry 7). -/
def State.onPerformed (s : State) (tid : Word) (f : State → State) (hold : State) : State :=
  let s1 := s.flushStores tid
  if s1.storesLeft tid then hold else f s1

/-- Go on once no store of the task to some bytes is still to be performed (07 R180). -/
def State.onOwn (s : State) (tid : Word) (ops : List MemOp) (f : State → State) (hold : State) : State :=
  let s1 := s.flushStores tid
  if s1.ownMeets tid ops then hold else f s1

/-- What a die has heard settled, as a clock. -/
def Clocks.heardClock (c : Clocks) (die : Nat) : List Nat := (List.range 14).map fun j => c.heardOf die j

/-- An acquire at a scope by a task on a core: the core's L1 is invalidated at CLUSTER or wider (05 R142, 07 R187),
and an acquire of PKG or FABRIC scope carries what its die has heard settled (07 R189). -/
def State.acquireBy (s : State) (tid : Word) (core : Nat) (sc : Scope) : State :=
  match sc with
  | .seq | .core => s
  | .cluster | .die => s.dropL1 core
  | .pkg | .fabric =>
    (s.dropL1 core).modTask tid fun t =>
      { t with clock := joinClock t.clock (s.clocks.heardClock (coreDie core)) }

end Sys2Proof.Machine
end

