-- ==== Sys2Proof/Machine/Flags.lean ====
section
/-! DEFINITION. The first-event log (08 R212, R213) and the format register's fields (08 R207, R208). -/

namespace Sys2Proof.Machine

open Sys2Proof

/-- A saturating 16-bit count one higher. -/
def sat16 (n : BitVec 16) : BitVec 16 := if n = 0xFFFF then n else n + 1

/-- The event counters of FEL.W2, one added for each class in the list (08 R213). -/
def felCount (w2 : Word) (cls : List Nat) : Word :=
  let c (i : Nat) (k : Nat) : BitVec 16 :=
    let x := w2.extractLsb' (16 * i) 16
    if cls.contains k then sat16 x else x
  c 3 4 ++ c 2 3 ++ c 1 2 ++ c 0 1

/-- The sticky bits of FEL.W1 (08 R212). -/
def felSticky (cls : List Nat) : Word :=
  (if cls.contains 1 then 0x10000#64 else 0) ||| (if cls.contains 2 then 0x20000#64 else 0) |||
  (if cls.contains 3 then 0x40000#64 else 0) ||| (if cls.contains 4 then 0x80000#64 else 0)

/-- The earlier of two events of one recording: lowest slot, then lane, then class (08 R213). -/
def evBefore (a b : Nat × Nat × Nat) : Bool :=
  decide (a.1 < b.1) || (a.1 == b.1 && (decide (a.2.1 < b.2.1) || (a.2.1 == b.2.1 && decide (a.2.2 < b.2.2))))

/-- The first event of a list (08 R213). -/
def evFirst : List (Nat × Nat × Nat) → Option (Nat × Nat × Nat)
  | [] => none
  | e :: es =>
    match evFirst es with
    | none => some e
    | some f => some (if evBefore f e then f else e)

/-- The classes one slot raises, each once. -/
def slotClasses (slot : Nat) (evs : List (Nat × Nat × Nat)) : List Nat :=
  [1, 2, 3, 4].filter fun k => evs.any fun e => e.1 == slot && e.2.2 == k

/-- Record the events of one bundle, or of one MMA, in the log (08 R213). -/
def felRecord (f : Fel) (pc : BitVec 57) (mma : Bool) (evs : List (Nat × Nat × Nat)) : Fel :=
  match evFirst evs with
  | none => f
  | some (slot, lane, cls) =>
    let w2 := (List.range 8).foldl (fun w j => felCount w (slotClasses j evs)) f.w2
    let all := [1, 2, 3, 4].filter fun k => evs.any fun e => e.2.2 == k
    let w1 := f.w1 ||| felSticky all
    if f.w1.extractLsb' 0 3 = 0 then
      { w0 := (0 : BitVec 4) ++ BitVec.ofNat 3 slot ++ pc
        w1 := w1 ||| BitVec.ofNat 64 (cls + (if mma then 8 else 0) + lane * 16)
        w2 := w2 }
    else { f with w1 := w1, w2 := w2 }

/-- A field of FMT with its reserved codes stored as 0 (08 R208). -/
def fmtField (x limit : Nat) : Nat := if x < limit then x else 0

/-- The value FMT takes when `w` is written to it (08 R207, R208). -/
def fmtStored (w : Word) : Word :=
  let n := w.toNat
  BitVec.ofNat 64 (fmtField (n % 8) 5 + (n / 8 % 2) * 8 + fmtField (n / 16 % 16) 8 * 16 +
    fmtField (n / 256 % 16) 8 * 256 + (n / 4096 % 4) * 4096)

/-- FMT.RM (08 R207). -/
def fmtRm (fmt : Word) : Nat := fmt.toNat % 8
/-- FMT.SAT. -/
def fmtSat (fmt : Word) : Bool := fmt.getLsbD 3
/-- FMT.AFMT. -/
def fmtA (fmt : Word) : Nat := fmt.toNat / 16 % 16
/-- FMT.BFMT. -/
def fmtB (fmt : Word) : Nat := fmt.toNat / 256 % 16
/-- FMT.SCALE. -/
def fmtScale (fmt : Word) : Nat := fmt.toNat / 4096 % 4

end Sys2Proof.Machine
end

