-- ==== Sys2Proof/Machine/Fp.lean ====
section
/-! DEFINITION. Exact arithmetic in the number formats of 08_number_formats.md: decoding a code to its value,
rounding an exact value to a type (R209 to R211), conversion (R215), and the FP operations that round once. -/

namespace Sys2Proof.Machine

open Sys2Proof

/-- A value before rounding: a NaN, an infinity, or (-1)^neg * m * 2^e exactly. -/
inductive FpVal where
  | nan
  | inf (neg : Bool)
  | fin (neg : Bool) (m : Nat) (e : Int)
  deriving DecidableEq, Repr

/-- The parameters of an IEEE-like format (08 R204). -/
structure FpFmt where
  ebits : Nat
  mbits : Nat
  bias : Nat
  hasInf : Bool
  deriving DecidableEq, Repr

/-- The format of a floating type other than D8 (08 R204). -/
def fpFmt : Ty → Option FpFmt
  | .f32 => some ⟨8, 23, 127, true⟩
  | .bf16 => some ⟨8, 7, 127, true⟩
  | .f16 => some ⟨5, 10, 15, true⟩
  | .e4m3 => some ⟨4, 3, 7, false⟩
  | .e5m2 => some ⟨5, 2, 15, true⟩
  | _ => none

/-- The width of a type in bits (08 R204, 11 R272). -/
def tyBits : Ty → Nat
  | .f32 | .s32 | .z32 => 32
  | .bf16 | .f16 | .s16 | .z16 => 16
  | .e4m3 | .e5m2 | .d8 | .s8 | .z8 => 8
  | .i4 => 4
  | .s64 | .z64 => 64

/-- An integer type. -/
def tyIsInt : Ty → Bool
  | .s8 | .i4 | .s16 | .s32 | .s64 | .z8 | .z16 | .z32 | .z64 => true
  | _ => false

/-- A signed integer type. -/
def tySigned : Ty → Bool
  | .s8 | .i4 | .s16 | .s32 | .s64 => true
  | _ => false

/-- The type of an MMA format code (08 R204). -/
def tyOfFmtCode : Nat → Ty
  | 0 => .f32 | 1 => .bf16 | 2 => .f16 | 3 => .e4m3 | 4 => .e5m2 | 5 => .d8 | 6 => .s8 | _ => .i4

/-- The canonical NaN of a floating type (08 R205). -/
def canonNaN : Ty → Nat
  | .f32 => 0x7FC00000
  | .bf16 => 0x7FC0
  | .f16 => 0x7E00
  | .e4m3 => 0x7F
  | .e5m2 => 0x7E
  | .d8 => 0x80
  | _ => 0

/-- A nat shifted by a possibly negative power of two, rounded down. -/
def shiftInt (m : Nat) (k : Int) : Nat := if 0 ≤ k then m <<< k.toNat else m >>> (-k).toNat

/-! ## Decoding (08 R204 to R206) -/

/-- The value of a code of an IEEE-like format (08 R205). -/
def decodeFp (f : FpFmt) (x : Nat) : FpVal :=
  let neg := (x >>> (f.ebits + f.mbits)) % 2 == 1
  let e := (x >>> f.mbits) % 2 ^ f.ebits
  let m := x % 2 ^ f.mbits
  if e = 2 ^ f.ebits - 1 ∧ f.hasInf then
    if m = 0 then .inf neg else .nan
  else if !f.hasInf ∧ e = 2 ^ f.ebits - 1 ∧ m = 2 ^ f.mbits - 1 then .nan
  else if e = 0 then .fin neg m (1 - (f.bias : Int) - f.mbits)
  else .fin neg (2 ^ f.mbits + m) ((e : Int) - f.bias - f.mbits)

/-- The position of the marker of a D8 code: its lowest set bit (08 R206). -/
def d8Marker (x : Nat) : Nat :=
  if x % 2 = 1 then 0 else if x / 2 % 2 = 1 then 1 else if x / 4 % 2 = 1 then 2 else if x / 8 % 2 = 1 then 3
  else if x / 16 % 2 = 1 then 4 else if x / 32 % 2 = 1 then 5 else 6

/-- The value of a D8 code (08 R206). -/
def decodeD8 (x : Nat) : FpVal :=
  let neg := x / 128 % 2 == 1
  let b := x % 128
  if b = 0 then (if neg then .nan else .fin false 0 0)
  else
    match d8Marker b with
    | 0 => .fin neg (64 + b / 2) (-6)
    | 1 => .fin neg (16 + b / 4 % 16) ((if b / 64 = 1 then 1 else -1) - 4)
    | 2 =>
      let c := b / 32
      .fin neg (4 + b / 8 % 4) ((if 2 ≤ c then (c : Int) else (c : Int) - 3) - 2)
    | 3 =>
      let c := b / 16
      .fin neg 1 (if 4 ≤ c then (c : Int) else (c : Int) - 7)
    | 4 =>
      let c := b / 32
      .fin neg 1 (if 2 ≤ c then (c : Int) + 6 else (c : Int) - 9)
    | 5 => .fin neg 1 (if b / 64 = 1 then 10 else -10)
    | _ => .fin neg 1 11

/-- The value of an integer. -/
def fpOfInt (i : Int) : FpVal := .fin (decide (i < 0)) i.natAbs 0

/-- The value of the low bits of `x` read as a type. -/
def decodeTy (t : Ty) (x : Nat) : FpVal :=
  match fpFmt t with
  | some f => decodeFp f x
  | none =>
    if t = .d8 then decodeD8 x
    else
      let n := tyBits t
      let u := x % 2 ^ n
      fpOfInt (if tySigned t ∧ 2 ^ (n - 1) ≤ u then (u : Int) - 2 ^ n else u)

/-! ## Rounding (08 R209) -/

/-- Rounding modes of FMT.RM (08 R207). -/
inductive RMode where
  | rne | rtz | rup | rdn | rna
  deriving DecidableEq, Repr

/-- The mode of FMT.RM's code; the reserved codes never stand in FMT (08 R208). -/
def RMode.ofCode : Nat → RMode
  | 1 => .rtz | 2 => .rup | 3 => .rdn | 4 => .rna | _ => .rne

/-- Does a magnitude that lies `cmp` (below, at, above) the midpoint of two neighbours, strictly between them,
round to the upper one; `odd` tells whether the lower one is odd (08 R209). -/
def roundsUp (mode : RMode) (neg : Bool) (cmp : Ordering) (odd : Bool) : Bool :=
  match mode with
  | .rne => cmp == .gt || (cmp == .eq && odd)
  | .rna => cmp != .lt
  | .rtz => false
  | .rup => !neg
  | .rdn => neg

/-- m * 2^e rounded to a whole multiple of 2^q, as the multiple, with the mark of inexactness. -/
def roundQuantum (mode : RMode) (neg : Bool) (m : Nat) (e q : Int) : Nat × Bool :=
  if q ≤ e then (m <<< (e - q).toNat, false)
  else
    let k := (q - e).toNat
    let lo := m >>> k
    let r := m - (lo <<< k)
    if r = 0 then (lo, false)
    else (if roundsUp mode neg (compare (2 * r) (1 <<< k)) (lo % 2 == 1) then lo + 1 else lo, true)

/-- The exponent of the leading bit of m * 2^e, m not zero. -/
def leadExp (m : Nat) (e : Int) : Int := (m.log2 : Int) + e

/-- The quantum of an IEEE-like format at m * 2^e, exponent unbounded above (08 R209). -/
def fpQuantum (f : FpFmt) (m : Nat) (e : Int) : Int :=
  max (leadExp m e) (1 - (f.bias : Int)) - f.mbits

/-- The largest finite code of a format, sign clear (08 R204). -/
def maxCode (f : FpFmt) : Nat :=
  if f.hasInf then (2 ^ f.ebits - 1) * 2 ^ f.mbits - 1 else 2 ^ (f.ebits + f.mbits) - 2

/-- The sign bit of a format. -/
def signBit (f : FpFmt) (neg : Bool) : Nat := if neg then 2 ^ (f.ebits + f.mbits) else 0

/-- The code, sign clear, of c * 2^q on a format's grid; it may exceed the largest finite code. -/
def gridCode (f : FpFmt) (c : Nat) (q : Int) : Nat :=
  -- field E less one, times 2^mbits, plus the significand with its leading bit
  let base := (q + f.mbits + f.bias - 1).toNat
  base * 2 ^ f.mbits + c

/-- FEL class codes (08 R210). -/
abbrev evInvalid : Nat := 1
/-- Divide by zero. -/
abbrev evDivZero : Nat := 2
/-- Overflow. -/
abbrev evOverflow : Nat := 3
/-- Underflow. -/
abbrev evUnderflow : Nat := 4

/-- What overflow gives in an IEEE-like format (08 R211). -/
def overflowCode (f : FpFmt) (t : Ty) (mode : RMode) (sat neg : Bool) : Nat :=
  let toInf := match mode with
    | .rne | .rna => true
    | .rup => !neg
    | .rdn => neg
    | .rtz => false
  if !sat && toInf then
    (if f.hasInf then signBit f neg + (2 ^ f.ebits - 1) * 2 ^ f.mbits else canonNaN t)
  else signBit f neg + maxCode f

/-- A finite exact value to an IEEE-like format (08 R209 to R211, R215). -/
def roundFp (f : FpFmt) (t : Ty) (mode : RMode) (sat neg : Bool) (m : Nat) (e : Int) : Nat × List Nat :=
  if m = 0 then (signBit f neg, [])
  else
    let q := fpQuantum f m e
    let (c, inexact) := roundQuantum mode neg m e q
    let code := gridCode f c q
    if maxCode f < code then (overflowCode f t mode sat neg, [evOverflow])
    else
      let tiny := decide (leadExp m e < 1 - (f.bias : Int))
      (signBit f neg + code, if tiny && inexact then [evUnderflow] else [])

/-- A D8 magnitude's ordinal at or below m * 2^e, m not zero (08 R206, R209); 2^12 has ordinal 128. -/
def d8Floor (m : Nat) (e : Int) : Nat :=
  let E := leadExp m e
  let frac (nf : Nat) : Nat := shiftInt m (e - E + nf) - 2 ^ nf
  if E < -10 then 0
  else if E ≤ -4 then (E + 11).toNat
  else if E = -3 then 8 + frac 2
  else if E = -2 then 12 + frac 2
  else if E = -1 then 16 + frac 4
  else if E = 0 then 32 + frac 6
  else if E = 1 then 96 + frac 4
  else if E = 2 then 112 + frac 2
  else if E = 3 then 116 + frac 2
  else if E ≤ 11 then (E + 116).toNat
  else 128

/-- The magnitude of an ordinal, in units of 2^-10 (08 R206). -/
def d8Mag (o : Nat) : Nat :=
  if o = 0 then 0
  else if o ≤ 7 then 2 ^ (o - 1)
  else if o ≤ 11 then (4 + (o - 8)) * 2 ^ 5
  else if o ≤ 15 then (4 + (o - 12)) * 2 ^ 6
  else if o ≤ 31 then (16 + (o - 16)) * 2 ^ 5
  else if o ≤ 95 then (64 + (o - 32)) * 2 ^ 4
  else if o ≤ 111 then (16 + (o - 96)) * 2 ^ 7
  else if o ≤ 115 then (4 + (o - 112)) * 2 ^ 10
  else if o ≤ 119 then (4 + (o - 116)) * 2 ^ 11
  else 2 ^ (o - 106)

/-- The code, sign clear, of an ordinal up to 127 (08 R206). -/
def d8Code (o : Nat) : Nat :=
  if o = 0 then 0
  else if o = 1 then 0x20
  else if o ≤ 3 then (o - 2) * 32 + 16
  else if o ≤ 7 then (o - 4) * 16 + 8
  else if o ≤ 15 then (o - 8) * 8 + 4
  else if o ≤ 31 then (o - 16) * 4 + 2
  else if o ≤ 95 then (o - 32) * 2 + 1
  else if o ≤ 111 then 64 + (o - 96) * 4 + 2
  else if o ≤ 119 then 64 + (o - 112) * 8 + 4
  else if o ≤ 123 then 64 + (o - 120) * 16 + 8
  else if o ≤ 125 then 64 + (o - 124) * 32 + 16
  else if o = 126 then 0x60
  else 0x40

/-- A finite exact value to D8: always RNE, always saturating (08 R208, R209, R211). -/
def roundD8 (neg : Bool) (m : Nat) (e : Int) : Nat × List Nat :=
  if m = 0 then (0, [])
  else
    let lo := d8Floor m e
    if 128 ≤ lo then ((if neg then 128 else 0) + 0x40, [evOverflow])
    else
      -- compare in units of 2^-11 scaled to the exponent of m
      let k := (max 0 (-(e + 11))).toNat
      let x2 := shiftInt (2 * m) (e + 11 + k)
      let a := (d8Mag lo * 2) <<< k
      let b := (d8Mag (lo + 1) * 2) <<< k
      let o := if x2 = 2 * a then lo
               else if roundsUp .rne neg (compare x2 (a + b)) (lo % 2 == 1) then lo + 1 else lo
      let exact := decide (x2 = 2 * a)
      if 128 ≤ o then ((if neg then 128 else 0) + 0x40, [evOverflow])
      else
        let tiny := decide (leadExp m e < -10)
        ((if neg ∧ o ≠ 0 then 128 else 0) + d8Code o, if tiny && !exact then [evUnderflow] else [])

/-- The least and the greatest value of an integer type. -/
def intRange (t : Ty) : Int × Int :=
  let n := tyBits t
  if tySigned t then (-(2 ^ (n - 1)), 2 ^ (n - 1) - 1) else (0, 2 ^ n - 1)

/-- An integer as the code of a type of `n` bits. -/
def intCode (n : Nat) (i : Int) : Nat := (i % 2 ^ n).toNat

/-- A finite exact value to an integer type, saturating (08 R209, R211, R215). -/
def roundIntTy (t : Ty) (mode : RMode) (neg : Bool) (m : Nat) (e : Int) : Nat × List Nat :=
  let (c, _) := roundQuantum mode neg m e 0
  let y : Int := if neg then -(c : Int) else c
  let (lo, hi) := intRange t
  if y < lo then (intCode (tyBits t) lo, [evOverflow])
  else if hi < y then (intCode (tyBits t) hi, [evOverflow])
  else (intCode (tyBits t) y, [])

/-- convert of 08 R215: an exact value, an infinity or a NaN to a type, with the events it raises. -/
def convert (x : FpVal) (t : Ty) (mode : RMode) (sat : Bool) : Nat × List Nat :=
  match x with
  | .nan => if tyIsInt t then (0, [evInvalid]) else (canonNaN t, [])
  | .inf neg =>
    if tyIsInt t then
      (intCode (tyBits t) (if neg then (intRange t).1 else (intRange t).2), [evOverflow])
    else
      match fpFmt t with
      | none => ((if neg then 128 else 0) + 0x40, [evOverflow])
      | some f =>
        if f.hasInf && !sat then (signBit f neg + (2 ^ f.ebits - 1) * 2 ^ f.mbits, [])
        else if !f.hasInf && !sat then (canonNaN t, [evInvalid])
        else (signBit f neg + maxCode f, [evOverflow])
  | .fin neg m e =>
    match fpFmt t with
    | some f => roundFp f t mode sat neg m e
    | none => if t = .d8 then roundD8 neg m e else roundIntTy t mode neg m e

/-! ## Exact operations -/

/-- A signed magnitude. -/
def signed (neg : Bool) (m : Nat) : Int := if neg then -(m : Int) else m

/-- The exact sum of two finite values, zero sign under 08 R209. -/
def addFin (mode : RMode) (n1 : Bool) (m1 : Nat) (e1 : Int) (n2 : Bool) (m2 : Nat) (e2 : Int) : FpVal :=
  let e := min e1 e2
  let s := signed n1 (m1 <<< (e1 - e).toNat) + signed n2 (m2 <<< (e2 - e).toNat)
  if s = 0 then
    (if m1 = 0 ∧ m2 = 0 ∧ n1 = n2 then .fin n1 0 0 else .fin (mode == .rdn) 0 0)
  else .fin (decide (s < 0)) s.natAbs e

/-- Exact addition with NaN and infinity handling; the events are those of 08 R210. -/
def addVal (mode : RMode) : FpVal → FpVal → FpVal × List Nat
  | .nan, _ => (.nan, [])
  | _, .nan => (.nan, [])
  | .inf a, .inf b => if a = b then (.inf a, []) else (.nan, [evInvalid])
  | .inf a, .fin _ _ _ => (.inf a, [])
  | .fin _ _ _, .inf b => (.inf b, [])
  | .fin n1 m1 e1, .fin n2 m2 e2 => (addFin mode n1 m1 e1 n2 m2 e2, [])

/-- The negation of a value; a NaN stays. -/
def negVal : FpVal → FpVal
  | .nan => .nan
  | .inf a => .inf (!a)
  | .fin n m e => .fin (!n) m e

/-- Exact multiplication. -/
def mulVal : FpVal → FpVal → FpVal × List Nat
  | .nan, _ => (.nan, [])
  | _, .nan => (.nan, [])
  | .inf a, .inf b => (.inf (a != b), [])
  | .inf a, .fin n m _ => if m = 0 then (.nan, [evInvalid]) else (.inf (a != n), [])
  | .fin n m _, .inf b => if m = 0 then (.nan, [evInvalid]) else (.inf (n != b), [])
  | .fin n1 m1 e1, .fin n2 m2 e2 => (.fin (n1 != n2) (m1 * m2) (e1 + e2), [])

/-- a * b + c exactly, the FMA before its one rounding (08 R208). -/
def fmaVal (mode : RMode) (a b c : FpVal) : FpVal × List Nat :=
  match c with
  | .nan =>
    match a, b with
    | _, _ => (.nan, [])
  | _ =>
    let (p, ev) := mulVal a b
    match ev with
    | [] => addVal mode p c
    | _ => (.nan, ev)

/-- A quotient of magnitudes with at least `bits` bits, its lowest bit sticky, as m * 2^e. -/
def divMag (bits : Nat) (m1 : Nat) (e1 : Int) (m2 : Nat) (e2 : Int) : Nat × Int :=
  let k := bits + m2.log2 + 2 - m1.log2
  let n := m1 <<< k
  let q := n / m2
  (2 * q + (if n % m2 = 0 then 0 else 1), e1 - e2 - k - 1)

/-- Division before its rounding (08 R208, R210). -/
def divVal : FpVal → FpVal → FpVal × List Nat
  | .nan, _ => (.nan, [])
  | _, .nan => (.nan, [])
  | .inf _, .inf _ => (.nan, [evInvalid])
  | .inf a, .fin n _ _ => (.inf (a != n), [])
  | .fin n _ _, .inf b => (.fin (n != b) 0 0, [])
  | .fin n1 m1 e1, .fin n2 m2 e2 =>
    if m2 = 0 then
      (if m1 = 0 then (.nan, [evInvalid]) else (.inf (n1 != n2), [evDivZero]))
    else if m1 = 0 then (.fin (n1 != n2) 0 0, [])
    else
      let (m, e) := divMag 64 m1 e1 m2 e2
      (.fin (n1 != n2) m e, [])

/-- The integer square root by binary digits: `fuel` halvings of the bit. -/
def isqrtGo : Nat → Nat → Nat → Nat
  | 0, _, r => r
  | k + 1, n, r =>
    let c := r + 2 ^ k
    isqrtGo k n (if c * c ≤ n then c else r)

/-- The integer square root, rounded down. -/
def isqrt (n : Nat) : Nat := isqrtGo (n.log2 / 2 + 1) n 0

/-- The square root of a magnitude with enough bits, lowest bit sticky. -/
def sqrtMag (bits : Nat) (m : Nat) (e : Int) : Nat × Int :=
  let k0 := 2 * bits - m.log2
  let k := if (e - k0) % 2 = 0 then k0 else k0 + 1
  let n := m <<< k
  let r := isqrt n
  (2 * r + (if r * r = n then 0 else 1), (e - k) / 2 - 1)

/-- Square root before its rounding (08 R208, R210): a value below -0 is invalid; -0 stays. -/
def sqrtVal : FpVal → FpVal × List Nat
  | .nan => (.nan, [])
  | .inf neg => if neg then (.nan, [evInvalid]) else (.inf false, [])
  | .fin neg m e =>
    if m = 0 then (.fin neg 0 0, [])
    else if neg then (.nan, [evInvalid])
    else
      let (r, x) := sqrtMag 64 m e
      (.fin false r x, [])

/-- Exact comparison of two values that are no NaNs: -0 equals +0. -/
def cmpVal : FpVal → FpVal → Ordering
  | .inf a, .inf b => compare (if a then 0 else 1) (if b then 0 else 1)
  | .inf a, _ => if a then .lt else .gt
  | _, .inf b => if b then .gt else .lt
  | .fin n1 m1 e1, .fin n2 m2 e2 =>
    let e := min e1 e2
    compare (signed n1 (m1 <<< (e1 - e).toNat)) (signed n2 (m2 <<< (e2 - e).toNat))
  | _, _ => .eq

/-- Is the sign set? -/
def valNeg : FpVal → Bool
  | .nan => false
  | .inf n => n
  | .fin n _ _ => n

/-- Comparison with -0 below +0 (08 R220). -/
def cmpValZ (a b : FpVal) : Ordering :=
  match cmpVal a b with
  | .eq => if valNeg a && !valNeg b then .lt else if !valNeg a && valNeg b then .gt else .eq
  | o => o

/-- Is the value a NaN? -/
def valIsNan : FpVal → Bool
  | .nan => true
  | _ => false

/-- Is the value zero? -/
def valIsZero : FpVal → Bool
  | .fin _ m _ => m == 0
  | _ => false

/-- Is the value infinite? -/
def valIsInf : FpVal → Bool
  | .inf _ => true
  | _ => false

/-- One FP operation's exact result rounded once to a type, events of both kept (08 R208). -/
def roundRes (t : Ty) (mode : RMode) (r : FpVal × List Nat) : Nat × List Nat :=
  match r.2 with
  | [] => convert r.1 t mode false
  | ev => ((convert r.1 t mode false).1, ev)

/-- VQNT of one element (08 R216). -/
def vqntElem (x rs : FpVal) (t : Ty) (mode : RMode) (sat : Bool) : Nat × List Nat :=
  if valIsNan x || valIsNan rs then convert .nan t mode sat
  else if (valIsInf x && valIsZero rs) || (valIsZero x && valIsInf rs) then
    (if tyIsInt t then 0 else canonNaN t, [evInvalid])
  else convert (mulVal x rs).1 t mode sat

/-- VDQ of one element (08 R216). -/
def vdqElem (q sc b : FpVal) (out : Ty) (mode : RMode) : Nat × List Nat :=
  let r := fmaVal mode q sc b
  match r.2 with
  | [] => convert r.1 out mode false
  | ev => (canonNaN out, ev)

end Sys2Proof.Machine
end

