-- ==== Sys2Proof/Machine/FpFun.lean ====
section
/-! DEFINITION. The functions of class 16 that have no exact quotient or root: 2^a, log2 a, tanh a and the
logistic function, each correctly rounded (13 R333). A result is enclosed between two dyadic numbers in integer
arithmetic; when both round alike, that is the result, else the precision grows. -/

namespace Sys2Proof.Machine

open Sys2Proof

/-! ## Enclosures in units of 2^-p -/

/-- Slack that covers the rounding errors of a series of `n` terms. -/
def seriesSlack (n : Nat) : Nat := 8 * n + 64

/-- The sum of `z^(2k+1) / (2k+1)` from below: `pw` is the current power. -/
def atanhGo (p z2 : Nat) : Nat → Nat → Nat → Nat → Nat
  | 0, _, _, acc => acc
  | n + 1, k, pw, acc => atanhGo p z2 n (k + 2) (pw * z2 / 2 ^ p) (acc + pw / k)

/-- atanh of `z` (at most a third) from below. -/
def atanhLo (p z : Nat) : Nat := atanhGo p (z * z / 2 ^ p) (p / 3 + 5) 1 z 0

/-- ln 2 from below; it lies within `seriesSlack p` of this. -/
def ln2Lo (p : Nat) : Nat := 2 * atanhLo p (2 ^ p / 3)

/-- The sum of `y^k / k!` from below, `y` below one. -/
def expGo (p y : Nat) : Nat → Nat → Nat → Nat → Nat
  | 0, _, _, acc => acc
  | n + 1, k, tm, acc => expGo p y n (k + 1) (tm * y / (k * 2 ^ p)) (acc + tm)

/-- e^y from below, `y` below one. -/
def expLo (p y : Nat) : Nat := expGo p y p 1 (2 ^ p) 0

/-- e^y for y = m * 2^e at least zero: n, lo, hi with lo * 2^n ≤ e^y * 2^p ≤ hi * 2^n. -/
def expEnclose (p m : Nat) (e : Int) : Nat × Nat × Nat :=
  let y := shiftInt m (e + p)
  let l := ln2Lo p
  let lh := l + seriesSlack p
  let n := y / lh
  let r := y - n * lh
  let lo := expLo p r
  (n, lo, lo + seriesSlack p + 3 * (n * seriesSlack p + 2))

/-! ## Rounding an enclosure -/

/-- Round both ends of an enclosure; equal results decide. -/
def roundEnclosure (t : Ty) (mode : RMode) (neg : Bool) (lo hi : Nat) (e : Int) : Option (Nat × List Nat) :=
  let a := convert (.fin neg lo e) t mode false
  let b := convert (.fin neg hi e) t mode false
  if a = b then some a else none

/-- Try precisions in turn; the last one decides. -/
def tryPrec (f : Nat → Bool × Nat × Nat × Int) (t : Ty) (mode : RMode) : List Nat → Nat × List Nat
  | [] => (0, [])
  | [p] => let (neg, lo, _, e) := f p; convert (.fin neg (2 * lo + 1) (e - 1)) t mode false
  | p :: ps =>
    let (neg, lo, hi, e) := f p
    match roundEnclosure t mode neg lo hi e with
    | some r => r
    | none => tryPrec f t mode ps

/-- The precisions tried. -/
def precisions : List Nat := [160, 320, 640]

/-- A value a little above (`up`) or below m * 2^e, nearer than any rounding boundary. -/
def nudge (neg : Bool) (m : Nat) (e : Int) (up : Bool) : FpVal :=
  .fin neg (if up then m * 2 ^ 60 + 1 else m * 2 ^ 60 - 1) (e - 60)

/-! ## The functions -/

/-- 2^a. -/
def exp2Elem (t : Ty) (mode : RMode) : FpVal → Nat × List Nat
  | .nan => (canonNaN t, [])
  | .inf neg => if neg then convert (.fin false 0 0) t mode false else convert (.inf false) t mode false
  | .fin neg m e =>
    if m = 0 then convert (.fin false 1 0) t mode false
    else if 12 ≤ leadExp m e then convert (.fin false 1 (if neg then -4096 else 4096)) t mode false
    else if leadExp m e < -40 then convert (nudge false 1 0 (!neg)) t mode false
    else
      let k := shiftInt m e
      let whole : Bool := decide (0 ≤ e) || m % 2 ^ (-e).toNat == 0
      if whole then convert (.fin false 1 (if neg then -(k : Int) else k)) t mode false
      else
        let f (p : Nat) : Bool × Nat × Nat × Int :=
          let x := shiftInt m (e + p)
          let n : Int := if neg then -(x / 2 ^ p : Nat) - 1 else (x / 2 ^ p : Nat)
          let fr := if neg then 2 ^ p - x % 2 ^ p else x % 2 ^ p
          let y := fr * ln2Lo p / 2 ^ p
          let lo := expLo p y
          (false, lo, lo + 4 * seriesSlack p, n - p)
        tryPrec f t mode precisions

/-- log2 a. -/
def log2Elem (t : Ty) (mode : RMode) : FpVal → Nat × List Nat
  | .nan => (canonNaN t, [])
  | .inf neg => if neg then (canonNaN t, [evInvalid]) else convert (.inf false) t mode false
  | .fin neg m e =>
    if m = 0 then ((convert (.inf true) t mode false).1, [evDivZero])
    else if neg then (canonNaN t, [evInvalid])
    else
      let ex := leadExp m e
      let w := 2 ^ m.log2
      if m = w then convert (fpOfInt ex) t mode false
      else
        let f (p : Nat) : Bool × Nat × Nat × Int :=
          let z := (m - w) * 2 ^ p / (m + w)
          let lnf := 2 * atanhLo p z
          let lo := lnf * 2 ^ p / (ln2Lo p + seriesSlack p)
          let hi := (lnf + seriesSlack p) * 2 ^ p / ln2Lo p + 1
          let a := ex * 2 ^ p + lo
          let b := ex * 2 ^ p + hi
          if a < 0 then (true, (-b).toNat, (-a).toNat, -p) else (false, a.toNat, b.toNat, -p)
        tryPrec f t mode precisions

/-- tanh a. -/
def tanhElem (t : Ty) (mode : RMode) : FpVal → Nat × List Nat
  | .nan => (canonNaN t, [])
  | .inf neg => convert (.fin neg 1 0) t mode false
  | .fin neg m e =>
    if m = 0 then convert (.fin neg 0 0) t mode false
    else if leadExp m e < -13 then convert (nudge neg m e false) t mode false
    else if 5 ≤ leadExp m e then convert (nudge neg 1 0 false) t mode false
    else
      let f (p : Nat) : Bool × Nat × Nat × Int :=
        let (n, lo, hi) := expEnclose p m (e + 1)
        let a := lo <<< n
        let b := hi <<< n
        (neg, (a - 2 ^ p) * 2 ^ p / (a + 2 ^ p), (b - 2 ^ p) * 2 ^ p / (b + 2 ^ p) + 1, -p)
      tryPrec f t mode precisions

/-- 1 / (1 + e^-a). -/
def sigmElem (t : Ty) (mode : RMode) : FpVal → Nat × List Nat
  | .nan => (canonNaN t, [])
  | .inf neg => if neg then convert (.fin false 0 0) t mode false else convert (.fin false 1 0) t mode false
  | .fin neg m e =>
    if m = 0 then convert (.fin false 1 (-1)) t mode false
    else if leadExp m e < -40 then convert (nudge false 1 (-1) (!neg)) t mode false
    else if !neg && decide (6 ≤ leadExp m e) then convert (nudge false 1 0 false) t mode false
    else if 10 ≤ leadExp m e then convert (.fin false 1 (-4096)) t mode false
    else
      let f (p : Nat) : Bool × Nat × Nat × Int :=
        let (n, lo, hi) := expEnclose p m e
        let a := lo <<< n
        let b := hi <<< n
        if neg then
          (false, 2 ^ (2 * p + n) / (b + 2 ^ p), 2 ^ (2 * p + n) / (a + 2 ^ p) + 1, -(p : Int) - n)
        else (false, a * 2 ^ p / (a + 2 ^ p), b * 2 ^ p / (b + 2 ^ p) + 1, -p)
      tryPrec f t mode precisions

/-- The reciprocal 1 / a (13 R333). -/
def rcpVal (a : FpVal) : FpVal × List Nat := divVal (.fin false 1 0) a

/-- 1 / √a (13 R333): the quotient of 1 and the root, with one sticky bit, enclosed tightly. -/
def rsqrtVal : FpVal → FpVal × List Nat
  | .nan => (.nan, [])
  | .inf neg => if neg then (.nan, [evInvalid]) else (.fin false 0 0, [])
  | .fin neg m e =>
    if m = 0 then (.inf neg, [evDivZero])
    else if neg then (.nan, [evInvalid])
    else
      -- 1/√(m 2^e) = √(2^k / m) * 2^(-(e + k)/2) with e + k even and k large
      let k0 := 160 + m.log2
      let k := if (e + k0) % 2 = 0 then k0 else k0 + 1
      let n := 2 ^ k / m
      let r := isqrt n
      let exact := decide (r * r = n) && decide (2 ^ k % m = 0)
      (.fin false (2 * r + (if exact then 0 else 1)) (-(e + k) / 2 - 1), [])

end Sys2Proof.Machine
end

