-- ==== Sys2Proof/Machine/StreamUnit.lean ====
section
/-! DEFINITION. The stream unit: taking the elements of two inputs into an output (13 R348 to R351, R354). -/

namespace Sys2Proof.Machine

open Sys2Proof

/-- A stream register changed. -/
def Regs.setS (r : Regs) (n : ZReg) (x : Stream) : Regs := { r with streams := r.streams.set n.toNat x (by exact n.isLt) }

/-- Bytes of a key (13 R346). -/
def Stream.keyBytes (x : Stream) : Nat := if x.kty then 8 else 4

/-- Is the register an input, an output, BAD (13 R353)? -/
def Stream.isIn (x : Stream) : Bool := x.bind == 1
def Stream.isOut (x : Stream) : Bool := x.bind == 2
def Stream.isBad (x : Stream) : Bool := x.bind == 3

/-- STATUS bits of 13 R352: ORDER, FULL, ROLE, BAD. -/
def stOrder : BitVec 4 := 1
def stFull : BitVec 4 := 2
def stRole : BitVec 4 := 4
def stBad : BitVec 4 := 8

/-- Status bits gather until the register is bound again (13 R349). -/
def Stream.mark (x : Stream) (b : BitVec 4) : Stream := { x with status := x.status ||| b }

/-- The key at an index of a stream's array, on its task's core. -/
def State.streamKey (s : State) (core : Nat) (x : Stream) (i : Nat) : Nat :=
  leNat (s.sramRead core ((x.kaddr.toNat + i * x.keyBytes) % 2 ^ 21) x.keyBytes)

/-- The key at an input's POS, or none at its end. -/
def State.streamNext (s : State) (core : Nat) (x : Stream) : Option Nat :=
  if x.pos.toNat < x.len.toNat then some (s.streamKey core x x.pos.toNat) else none

/-- The value at an input's POS; zero where the stream has no values. -/
def State.streamVal (s : State) (core : Nat) (x : Stream) : BitVec 32 :=
  if x.vty = 0 then 0 else BitVec.ofNat 32 (leNat (s.sramRead core ((x.vaddr.toNat + 4 * x.pos.toNat) % 2 ^ 21) 4))

/-- The registers of the operation in progress: output, inputs (13 R350). -/
def Regs.streamOp? (r : Regs) : Option (ZReg × ZReg × ZReg) :=
  ((List.range 4).map (BitVec.ofNat 2)).findSome? fun d =>
    let x := r.getS d
    if x.isOut && x.op != 0 then some (d, x.srca, x.srcb) else none

/-- Is a register in use (13 R350)? -/
def Regs.streamInUse (r : Regs) (n : ZReg) : Bool :=
  match r.streamOp? with
  | some (d, a, b) => n == d || n == a || n == b
  | none => false

/-- Add an event to OPEVT: the first class, and the sticky bits (13 R353). -/
def opevtAdd (w : BitVec 32) (evs : List Nat) : BitVec 32 :=
  evs.foldl (fun w c =>
    let first := if w.extractLsb' 0 3 = 0 then w ||| BitVec.ofNat 32 c else w
    first ||| BitVec.ofNat 32 (2 ^ (2 + c))) w

/-- SMADD adds a value (13 R348): floats round once in the mode read at issue, integers wrap. -/
def streamAdd (x : Stream) (v : BitVec 32) : Stream :=
  if x.vty = 0 then x
  else if x.vty = 1 then
    let m := RMode.ofCode x.rm.toNat
    let (r, evs) := roundRes .f32 m (addVal m (decodeTy .f32 x.pval.toNat) (decodeTy .f32 v.toNat))
    { x with pval := BitVec.ofNat 32 r, opevt := opevtAdd x.opevt evs }
  else { x with pval := x.pval + v }

/-- The key being merged takes an element met in input A (1) or B (2) (13 R348). -/
def streamFold (x : Stream) (v : BitVec 32) (from_ : BitVec 2) : Stream :=
  let y := if x.pfrom = 0 then { x with pval := v } else if x.op = 4 then streamAdd x v else x
  { y with pfrom := y.pfrom ||| from_ }

/-- The arrays of a stream: its keys, its values (13 R346). -/
def Stream.keys (x : Stream) : Nat × Nat := (x.kaddr.toNat, x.len.toNat * x.keyBytes)
def Stream.vals (x : Stream) : Nat × Nat := (x.vaddr.toNat, if x.vty = 0 then 0 else x.len.toNat * 4)

/-- Does an array hold the byte at an address? -/
def inArray (a : Nat) (r : Nat × Nat) : Bool := decide (r.1 ≤ a) && decide (a < r.1 + r.2)

/-- Write bytes of an output array; those that another array of the operation holds are unspecified (13 R351). -/
def State.streamPut (s : State) (core a : Nat) (bs : List Byte) (others : List (Nat × Nat)) : State :=
  let shared (i : Nat) : Bool := others.any (inArray (a + i))
  if (List.range bs.length).any shared then
    let (fs, s1) := s.freeBytes bs.length
    s1.sramWrite core (a % 2 ^ 21) ((bs.zip fs).zipIdx.map fun x => if shared x.2 then x.1.2 else x.1.1)
  else s.sramWrite core (a % 2 ^ 21) bs

/-- write_key (13 R348), beside the arrays of the inputs. -/
def State.streamWriteKey (s : State) (core : Nat) (x : Stream) (ins : List (Nat × Nat)) : Stream × State :=
  let keep := x.op == 2 || x.op == 4 || (x.op == 1 && x.pfrom == 3) || (x.op == 3 && x.pfrom == 1)
  if keep then
    let s1 := s.streamPut core (x.kaddr.toNat + x.pos.toNat * x.keyBytes) (natLe x.keyBytes x.pkey.toNat) (x.vals :: ins)
    let s2 := if x.vty = 0 then s1 else
      s1.streamPut core (x.vaddr.toNat + 4 * x.pos.toNat) (natLe 4 x.pval.toNat) (x.keys :: ins)
    ({ x with pos := x.pos + 1, lastkey := x.pkey, lastv := true, pend := false }, s2)
  else ({ x with pend := false }, s)

/-- Write the pending key where it lies below the next key, or where no key is left. -/
def State.streamFlushKey (s : State) (core : Nat) (x : Stream) (ins : List (Nat × Nat)) (below : Option Nat) :
    Stream × State :=
  let due := match below with
    | some k => decide (x.pkey.toNat < k)
    | none => true
  if x.pend && due then s.streamWriteKey core x ins else (x, s)

/-- An input takes its next element (13 R348). -/
def Stream.take (x : Stream) (k : Nat) : Stream :=
  { x with pos := x.pos + 1, lastkey := BitVec.ofNat 64 k, lastv := true }

/-- Is an input's next key below its LASTKEY (13 R349)? -/
def Stream.unordered (x : Stream) (k : Option Nat) : Bool :=
  match k with
  | some k => x.lastv && decide (k < x.lastkey.toNat)
  | none => false

/-- What one round of `run` does (13 R348): go on, or end. -/
structure StreamRound where
  s : State
  d : Stream
  a : Stream
  b : Stream
  ended : Bool

/-- One round of `run`. With `same`, the two inputs are one register, whose elements count as met in both. -/
def State.streamRound (s : State) (core : Nat) (same : Bool) (d a b : Stream) : StreamRound :=
  let ka := s.streamNext core a
  let kb := if same then ka else s.streamNext core b
  let ins := [a.keys, a.vals, b.keys, b.vals]
  let oa := a.unordered ka
  let ob := if same then oa else b.unordered kb
  if oa || ob then
    ⟨s, d.mark stOrder, if oa then a.mark stOrder else a, if ob then b.mark stOrder else b, true⟩
  else
    match ka, kb with
    | none, none =>
      let (d1, s1) := s.streamFlushKey core d ins none
      ⟨s1, d1, a, b, true⟩
    | _, _ =>
      let k := match ka, kb with
        | some x, some y => min x y
        | some x, none => x
        | none, some y => y
        | none, none => 0
      let (d1, s1) := s.streamFlushKey core d ins (some k)
      if !d1.pend && d1.pos.toNat == d1.len.toNat then ⟨s1, d1.mark stFull, a, b, true⟩
      else
        let d2 := if d1.pend then d1 else { d1 with pend := true, pkey := BitVec.ofNat 64 k, pfrom := 0 }
        if same then
          let v := s1.streamVal core a
          let a1 := a.take k
          ⟨s1, streamFold (streamFold d2 v 1) v 2, a1, a1, false⟩
        else if ka == some k then ⟨s1, streamFold d2 (s1.streamVal core a) 1, a.take k, b, false⟩
        else ⟨s1, streamFold d2 (s1.streamVal core b) 2, a, b.take k, false⟩

/-- `n` rounds, or fewer to the end. -/
def State.streamRounds (core : Nat) (same : Bool) : Nat → StreamRound → StreamRound
  | 0, r => r
  | n + 1, r => if r.ended then r else State.streamRounds core same n (r.s.streamRound core same r.d r.a r.b)

/-- The events of an SMADD reach FEL when it ends, one count for each class, the first one named (13 R354). -/
def streamEvents (x : Stream) (f : Fel) : Fel :=
  let first := x.opevt.toNat % 8
  let cls := [1, 2, 3, 4].filter fun c => x.opevt.getLsbD (2 + c)
  felRecord f (x.opbaddr.setWidth 57) false
    (cls.map fun c => (x.opslot.toNat, if c = first then 0 else 1, c))

/-- The operation of an output is over: its state leaves the register (13 R353). -/
def Stream.endOp (x : Stream) : Stream :=
  { x with op := 0, srca := 0, srcb := 0, pend := false, pfrom := 0, pkey := 0, pval := 0, opevt := 0, opbaddr := 0
           opslot := 0, rm := 0 }

/-- Take at most `n` elements of a task's operation in progress; at its end its state is cleared and its events are
recorded (13 R348, R349, R354). -/
def State.streamAdvance (s : State) (tid : Word) (n : Nat) : State :=
  match s.task? tid with
  | none => s
  | some t =>
    match t.r.streamOp?, t.core with
    | some (d, a, b), some core =>
      let r := State.streamRounds core (a == b) n ⟨s, t.r.getS d, t.r.getS a, t.r.getS b, false⟩
      let dx := if r.ended then r.d.endOp else r.d
      r.s.modTask tid fun t =>
        let r1 := ((t.r.setS b r.b).setS a r.a).setS d dx
        { t with r := if r.ended then { r1 with fel := streamEvents r.d r1.fel } else r1 }
    | _, _ => s

/-- Rounds that bring any operation to its end. -/
def streamAll : Nat := 2 ^ 21 + 1

/-- An operation runs to its end. -/
def State.streamRun (s : State) (tid : Word) : State := s.streamAdvance tid streamAll

/-! ## The unit of a core (13 R350) -/

/-- Does a task's operation advance: it is in progress, and the task is bound and is not being saved or stalled? -/
def Task.streaming (t : Task) : Bool :=
  t.r.streamOp?.isSome && t.phase == .bound && t.saving.isNone && !t.stalling

/-- The sequencer a core's stream unit serves next, with its task: round robin over those with an operation to
advance. -/
def State.streamServes (s : State) (core : Nat) : Option (Nat × Task) :=
  ((List.range 4).map fun i => ((s.core core).streamLast + 1 + i) % 4).findSome? fun q =>
    (s.tasks.find? fun t => t.core == some core && t.sq == some q && t.streaming).map fun t => (q, t)

/-- Has an operation no element to take next: its next round ends it (13 R349)? -/
def State.streamAtEnd (s : State) (t : Task) : Bool :=
  match t.r.streamOp?, t.core with
  | some (d, a, b), some core => (s.streamRound core (a == b) (t.r.getS d) (t.r.getS a) (t.r.getS b)).ended
  | _, _ => false

/-- One cycle of a core's stream unit: it takes one element, or the operation it serves comes to its end. -/
def State.streamTurn (s : State) (core : Nat) : State :=
  match s.streamServes core with
  | none => s
  | some (q, t) =>
    let s1 := s.modCore core fun c => { c with streamLast := q }
    if s.streamAtEnd t then s1.post 0 .streamOperationEnd (.task t.tid) else s1.streamAdvance t.tid 1

/-- The cores whose stream unit has work. -/
def State.streamCores (s : State) : List Nat := ((s.tasks.filter Task.streaming).filterMap (·.core)).eraseDups

end Sys2Proof.Machine
end

