-- ==== Sys2Proof/Machine/Tasks.lean ====
section
/-! DEFINITION. The life of a task: its start state (04 R97), waiting and parking (04 R107 to R109), saves
(04 R113), restart (06 R168) and its end (04 R100, R121). -/

namespace Sys2Proof.Machine

open Sys2Proof

/-! ## Start (04 R97) -/

/-- COORD in the layout of G3 (04 R97). -/
def coordWord (core sq : Nat) : Word :=
  BitVec.ofNat 64 (coreDie core + coreCluster core * 4 + coreIndex core * 128 + sq * 1024)

/-- The registers a task starts and restarts with, on the core and sequencer where it binds (04 R97). -/
def startRegs (t : Task) (core sq : Nat) : Regs :=
  let r : Regs := { pc := t.entry, sb := sbReset }
  let r1 := { r with k := Vector.replicate 8 (0 : Word) }
  let r2 := r1.write (.g 1) (BitVec.allOnes 64) (.word t.args)
  let r3 := r2.write (.g 2) (BitVec.allOnes 64) (.word t.tid)
  let r4 := r3.write (.g 3) (BitVec.allOnes 64) (.word (coordWord core sq))
  r4.write (.g 4) (BitVec.allOnes 64) (.word (BitVec.ofNat 64 t.count))

/-- A task as it was created, keeping what a restart keeps: TID, frame, core and allocation (06 R168). -/
def Task.fresh (t : Task) : Task :=
  { tid := t.tid, ctx := t.ctx, entry := t.entry, args := t.args, count := t.count, place := t.place
    scrBytes := t.scrBytes, frame := t.frame, prio := t.prio, core := t.core, alloc := t.alloc }

/-! ## Sequencers -/

/-- Change one sequencer of a core. -/
def State.modSeq (s : State) (core sq : Nat) (f : Seq → Seq) : State :=
  s.modCore core fun c => { c with seqs := c.seqs.zipIdx.map fun (q, i) => if i = sq then f q else q }

/-- A sequencer of a core. -/
def State.seq (s : State) (core sq : Nat) : Seq := (s.core core).seqs.toArray.getD sq {}

/-- The sequencer that holds a task becomes FREE (04 R122). -/
def State.freeSeq (s : State) (t : Task) : State :=
  match t.core, t.sq with
  | some c, some q => (s.modSeq c q fun _ => {}).unpost .bindComplete (.num2 c q)
  | _, _ => s

/-- Is any task of a context bound (PREEMPT.QUIET, 04 R106)? -/
def State.quiet (s : State) (ctx : Nat) : Bool := !(s.tasks.any fun t => t.ctx == ctx && t.sq.isSome)

/-! ## Waiting (04 R107 to R109) -/

/-- The task waits on its sequencer (04 R107); it may be evicted after 2,048 cycles (04 R109). -/
def State.waitOnSeq (s : State) (tid : Word) (w : Wait) : State :=
  match s.task? tid with
  | none => s
  | some t =>
    let s1 := s.modTask tid fun t => { t with wait := some w }
    match t.core, t.sq with
    | some c, some q =>
      (s1.modSeq c q fun x => { x with waitAt := some s.cycle }).post 2048 .waitEviction (.task tid)
    | _, _ => s1

/-- Begin to write the task to its frame (04 R113, R118). -/
def State.frameOut (s : State) (tid : Word) (reason : Nat) : State :=
  match s.task? tid with
  | none => s
  | some t =>
    let s1 := s.modTask tid fun t => { t with phase := .framed, saving := some reason, readyToBind := false }
    let s2 := match t.core, t.sq with
      | some c, some q => s1.modSeq c q fun x => { x with phase := .saving, waitAt := none }
      | _, _ => s1
    s2.postFree .frameSaveComplete (.task tid)

/-- Park a task in a stall of its core, or in its frame when all sixteen are taken (04 R107, R108). -/
def State.parkStall (s : State) (tid : Word) (w : Wait) : State :=
  match s.task? tid with
  | none => s
  | some t =>
    let s1 := s.modTask tid fun t => { t with wait := some w }
    match t.core, t.sq with
    | some c, some q =>
      if (s.core c).stalls.length < 16 then
        let s2 := s1.modCore c fun x => { x with stalls := x.stalls ++ [tid] }
        let s3 := s2.modTask tid fun t => { t with phase := .stalled, stalling := true, readyToBind := false }
        (s3.modSeq c q fun x => { x with phase := .saving, waitAt := none }).post 32 .stallEntryComplete (.task tid)
      else s1.frameOut tid 5
    | _, _ => s1

/-- Park a task in its frame for a page fault (2) or a forward (3) (04 R107). -/
def State.parkFrame (s : State) (tid : Word) (w : Wait) (reason : Nat) : State :=
  (s.modTask tid fun t => { t with wait := some w }).frameOut tid reason

/-- The task joins its bind set (04 R101). -/
def Task.joinBind (t : Task) (cycle : Nat) : Task :=
  { t with readyToBind := true, returning := true, waitSince := cycle }

/-- Tiles that a returning task needs are held for it as they are free (04 R103). -/
def State.holdTiles (s : State) (t : Task) : State :=
  match t.core with
  | none => s
  | some c =>
    s.modCore c fun x =>
      { x with tiles := x.tiles.zipIdx.map fun (z, i) =>
          if t.tilesHeld.contains i && z.owner.isNone && z.heldFor.isNone then { z with heldFor := some t.tid } else z }

/-- Freed tiles of a core go to the tasks that wait to bind and need them (04 R103). -/
def State.offerTiles (s : State) (core : Nat) : State :=
  (s.tasks.filter fun t => t.phase == .framed && t.readyToBind && t.core == some core).foldl (fun s t => s.holdTiles t) s

/-- The cycles for which a parked task's bundle has waited on a load count as its buffer's STALLS (05 R156). -/
def State.countHeldLoad (s : State) (t : Task) : State :=
  match t.heldLoad with
  | some (c, buf) => s.countStalls t.ctx buf.toNat (s.cycle - c)
  | none => s

/-- The wait of a task ends (04 R107): on its sequencer it is ready again; in a stall or frame it joins its bind
set once its entry or save is complete. -/
def State.wake (s : State) (tid : Word) : State :=
  match s.task? tid with
  | none => s
  | some t =>
    let s1 := (s.countHeldLoad t).modTask tid fun t => { t with wait := none, heldLoad := none }
    match t.phase with
    | .bound =>
      match t.core, t.sq with
      | some c, some q => s1.modSeq c q fun x => { x with waitAt := none }
      | _, _ => s1
    | .stalled => if t.stalling then s1 else s1.modTask tid fun t => t.joinBind s.cycle
    | .framed =>
      if t.saving.isSome then s1
      else (s1.modTask tid fun t => t.joinBind s.cycle).holdTiles t
    | _ => s1

/-! ## Leaving everything a task holds -/

/-- Does a task have MMAs, or a step of a TGEMM, in flight? -/
def State.mmaBusy (s : State) (t : Task) : Bool :=
  match t.core with
  | some c => (s.core c).mmas.any fun m => m.tid == t.tid
  | none => false

/-- The number under which a task's TGEMM holds its pins (15 R403). -/
def tgemmPin (tid : Word) : Nat := 2 ^ 64 + tid.toNat

/-- Free the tiles a task owns or waits for, with what still loads them and the pins of its TGEMM, once its MMAs have
completed (15 R399, R403; 12 R319). -/
def State.releaseTiles (s : State) (t : Task) : State :=
  match t.core with
  | none => s
  | some c =>
    let s1 := s.modCore c fun x =>
      { x with
        tiles := x.tiles.map fun z =>
          if z.owner == some t.tid || z.heldFor == some t.tid then { z with owner := none, heldFor := none, writers := 0, events := [] } else z
        stalls := x.stalls.filter (· != t.tid) }
    (s1.onMem fun m =>
      { m with tileLoads := m.tileLoads.filter (·.2.2.2 != t.tid), pins := m.pins.filter (·.1 != tgemmPin t.tid) }).offerTiles c

/-- A page-fault waiter leaves (05 R154). -/
def State.leavePageFault (s : State) (t : Task) : State :=
  match t.wait with
  | some (.pageFault va cow) =>
    s.modCtx t.ctx fun c =>
      { c with pfent := c.pfent.map fun (i, e) =>
          if e.vpage.toNat = va / 2 ^ 16 ∧ e.cow = cow then (i, { e with waiters := e.waiters - 1 }) else (i, e) }
  | _ => s

/-! ## Places in a full/empty waiting list (14 R366; 01 R14, R15) -/

/-- The core a task is on, or returns to. -/
def Task.onCore (t : Task) : Nat := t.core.getD 0

/-- The core from whose port an access comes. -/
def State.feSource (s : State) (w : FeWait) : Nat :=
  match s.task? w.tid with
  | some t => Task.onCore t
  | none => 0

/-- Places of a waiting list in use: by accesses, and held for tickets. -/
def State.fePlaces (s : State) (core : Nat) : Nat :=
  (s.core core).feWaits.length + (s.core core).feRefused.countP fun r => r.2.2 == .held

/-- Does a ticket wait for a place? -/
def State.feTicketed (s : State) (core : Nat) : Bool := (s.core core).feRefused.any fun r => r.2.2 == .ticket

/-- Has a port a ticketed access to a core's words? -/
def State.fePort (s : State) (core src : Nat) : Bool :=
  (s.core core).feRefused.any fun r => (r.2.2 == .ticket || r.2.2 == .held) && s.feSource r.1 == src

/-- An access that has no place stands elsewhere. -/
def State.setFe (s : State) (core id : Nat) (p : FePhase) : State :=
  s.modCore core fun c => { c with feRefused := c.feRefused.map fun r => if r.1.id == id then (r.1, r.2.1, p) else r }

/-- Free places are held for the oldest tickets, which their ports claim within 64 cycles; `n` bounds the tickets. -/
def State.feOffer (s : State) (core : Nat) : Nat → State
  | 0 => s
  | n + 1 =>
    match (s.core core).feRefused.find? fun r => r.2.2 == .ticket with
    | none => s
    | some r =>
      if s.fePlaces core < 32 then
        let (d, s1) := s.choose 65
        ((s1.setFe core r.1.id .held).post d .fullEmptyRetry (.num r.1.id)).feOffer core n
      else s

/-- Accesses whose port has no ticketed one any more arrive. -/
def State.feRelease (s : State) (core : Nat) : State :=
  (s.core core).feRefused.foldl (fun s r =>
    match r.2.2 with
    | .behind b =>
      if s.fePort core (s.feSource r.1) then s
      else (s.setFe core r.1.id (.coming b)).post 0 .fullEmptyRetry (.num r.1.id)
    | _ => s) s

/-- A place, or a ticket, of a waiting list is free. -/
def State.feFreed (s : State) (core : Nat) : State :=
  if (s.core core).feRefused.isEmpty then s else (s.feOffer core (s.core core).feRefused.length).feRelease core

/-- Accesses are withdrawn from a waiting list and from the ports to it. -/
def State.feDrop (s : State) (core : Nat) (p : FeWait → Bool) : State :=
  (s.modCore core fun c =>
    { c with feWaits := c.feWaits.filter fun w => !p w, feRefused := c.feRefused.filter fun r => !p r.1 }).feFreed core

/-- Accesses are withdrawn wherever they wait (14 R367). -/
def State.feWithdraw (s : State) (p : FeWait → Bool) : State :=
  (s.cores.cores.filter fun x => x.2.feWaits.any p || x.2.feRefused.any fun r => p r.1).foldl
    (fun s x => s.feDrop x.1 p) s

/-- Withdraw what a task still waits for anywhere: full/empty waiters (14 R367), walks, tandem arrivals (12 R326). -/
def State.withdraw (s : State) (t : Task) : State :=
  let s1 := (s.leavePageFault t).feWithdraw (·.tid == t.tid)
  let s2 := s1.onCores fun cs =>
    { cs with
      tandems := cs.tandems.map fun (i, g) =>
        (i, { g with arrived := g.arrived.filter (· != t.tid), group := g.group.filter (· != t.tid) }) }
  s2.onMem fun m =>
    { m with walks := m.walks.map fun w => { w with waiters := w.waiters.filter (· != t.tid) } }

/-- Record a discarded version (06 R173). -/
def State.discardVersion (s : State) (t : Task) (cause : Nat) : State :=
  let versioned := match s.launch? (tidLnum t.tid) with
    | some l => l.vers
    | none => false
  let s1 := (s.versionDrop t.tid).modTask t.tid fun t => { t with commitQ := [] }
  if versioned then
    s1.modCtx t.ctx fun c =>
      { c with vdlast := t.tid, vdcnt := min (c.vdcnt + 1) (2 ^ 32 - 1), vdcause := BitVec.ofNat 16 cause }
  else s1

/-- Has each tandem task of an ended group rejoined, or restarted, ended or joined another group (12 R325)? -/
def State.rejoinDone (s : State) (g : Nat × Nat) (ms : List Word) : Bool :=
  ms.all fun u =>
    match s.task? u with
    | none => true
    | some t => t.tandemOf != some g || t.rejoined

/-- Let the tandem tasks of an ended group, named by its cluster and number, go on when each has rejoined, restarted or
ended (12 R325). -/
def State.checkRejoin (s : State) (g : Nat × Nat) : State :=
  match (s.cores.tandems.getD {} g.1).last.find? (·.1 == g.2) with
  | none => s
  | some (_, ms) =>
    if s.rejoinDone g ms then
      let s1 := ms.foldl (fun s u =>
        match s.task? u with
        | some t =>
          if t.tandemOf == some g && t.rejoined then
            (s.wake u).modTask u fun t => { t with tandemOf := none, rejoined := false }
          else s
        | none => s) s
      s1.onCores fun cs =>
        { cs with tandems := cs.tandems.upd {} g.1 fun x => { x with last := x.last.filter (·.1 != g.2) } }
    else s

/-- A task that leaves its ended group counts as ended for the REJOIN of the others (12 R325). -/
def State.leaveTandem (s : State) (t : Task) : State :=
  match t.tandemOf with
  | some g => s.checkRejoin g
  | none => s

/-- Free a task's scratchpad allocation (04 R121). -/
def State.freeAlloc (s : State) (t : Task) : State :=
  match t.core with
  | some c => s.modCore c fun x => { x with allocs := x.allocs.filter (·.2.2.1 != t.tid) }
  | none => s

/-- Free a task's frame (04 R121). -/
def State.freeFrame (s : State) (ctx f : Nat) : State :=
  s.modCtx ctx fun c => { c with frames := c.frames.filter (· != f) }

/-! ## The end of a task (04 R100, R121; 12 R319) -/

/-- A launch that did not end normally: the open generations its tasks arrived at are closed (17 R425). -/
def State.closeBells (s : State) (n : BitVec 32) : State :=
  let close (b : Bell) : Bell :=
    if b.isOpen && b.arrivers.contains n then { b with arr := 0, isOpen := false, arrivers := [] } else b
  s.onCores fun c => { c with bells := c.bells.map fun (k, b) => (k, close b) }

/-- The launch counts one task fewer; with none left it retires (04 R120). -/
def State.launchMinus (s : State) (n : BitVec 32) : State :=
  match s.launch? n with
  | none => s
  | some l =>
    let l1 := { l with live := l.live - 1 }
    if l1.live = 0 ∧ l1.toCreate = [] then
      ((if l.status = 0 then s else s.closeBells n).modLaunch n fun _ => { l1 with phase := .retiring }).post 0
        .cardComplete (.num l.card)
    else s.modLaunch n fun _ => l1

/-- A task releases every lock it holds, each release a release at PKG scope (09 R228, R233, R235; 12 R319). -/
def State.releaseLocks (s : State) (t : Task) : State :=
  (t.locks.foldl (fun s _ => s.releaseBy t.tid (t.core.getD 0) .pkg) s).prefectLeave t.tid t.ctx

/-- The second part of a task's end: its tiles, sequencer, allocation and frame are free, and its launch counts it
(04 R100, R121). -/
def State.endTail (s : State) (t : Task) : State :=
  let s1 := (s.releaseTiles t).freeSeq t
  let s2 := (s1.freeAlloc t).freeFrame t.ctx t.frame
  let s3 := { s2 with tasks := s2.tasks.filter (·.tid != t.tid) }
  (s3.leaveTandem t).launchMinus (tidLnum t.tid)

/-- The task leaves once its MMAs in flight have completed: now, or with the last of them (06 R168; 12 R319). -/
def State.leaveWith (s : State) (t : Task) (l : Leaving) (f : State → Task → State) : State :=
  if s.mmaBusy t then
    s.modTask t.tid fun t => { t with phase := .ended, leaving := some l, wait := none, saving := none, preempt := false }
  else f s t

/-- End one task: `cause` is the code of a task that ended with a fault or with its launch, whose version is
discarded; none for END, whose commit sequence has run. -/
def State.endOne (s : State) (t : Task) (cause : Option Nat) : State :=
  match t.leaving with
  | some .finish => s
  | some .restart => (s.releaseLocks t).leaveWith t .finish State.endTail
  | none =>
    let s1 := match cause with
      | some c => s.discardVersion t c
      | none => s
    (((s1.flushStores t.tid).releaseLocks t).withdraw t).leaveWith t .finish State.endTail

/-- A launch creates no more tasks: the frames of those not created are free. -/
def State.stopCreating (s : State) (n : BitVec 32) : State :=
  match s.launch? n with
  | none => s
  | some l =>
    let s0 := s.modLaunch n fun l => { l with toCreate := [], framesLeft := [] }
    l.framesLeft.foldl (fun s f => s.freeFrame l.ctx f) s0

/-- The launch unit ends every other task of a launch and creates no more (04 R100). -/
def State.endLaunchTasks (s : State) (n : BitVec 32) (cause : Nat) : State :=
  let s1 := s.stopCreating n
  (s1.tasks.filter fun t => tidLnum t.tid == n).foldl (fun s t => s.endOne t (some cause)) s1

/-- A task ends with a fault: the launch is FAULTED by the first one, and its other tasks end (04 R100). -/
def State.endFault (s : State) (tid : Word) (code : Nat) : State :=
  match s.task? tid with
  | none => s
  | some t =>
    let n := tidLnum tid
    let s1 := s.modLaunch n fun l =>
      if l.status = 0 then { l with status := 1, fcode := BitVec.ofNat 16 code, ftid := tid } else l
    ((s1.stopCreating n).endOne t (some code)).endLaunchTasks n code

/-! ## Restart (06 R168) -/

/-- Replies to a task's outstanding remote loads are dropped; the value an atomic returns is, too. -/
def State.dropReplies (s : State) (tid : Word) : State :=
  s.onFabric fun x =>
    { x with remotes := x.remotes.map fun r =>
        if r.use.tid? == some tid then
          match r.use with
          | .load _ _ _ _ _ _ => if r.pkt.op = 0x01 then { r with use := .gone } else { r with use := .store tid }
          | .pair _ _ _ => { r with use := .store tid }
          | _ => r
        else r }

/-- The second part of a restart: tiles and then locks are released, and the task is CREATED at its core. -/
def State.restartTail (s : State) (t : Task) : State :=
  let s1 := ((s.releaseTiles t).releaseLocks t).freeSeq t
  let s2 := s1.modTask t.tid fun t =>
    { t.fresh with readyToBind := true, restarted := true, waitSince := s.cycle }
  s2.leaveTandem t

/-- Restart a task: by a wound, or by the handler with the code it handles. Its version goes first, its MMAs in flight
complete, and then it leaves what it holds. -/
def State.restart (s : State) (tid : Word) (cause : Nat) : State :=
  match s.task? tid with
  | none => s
  | some t =>
    if t.leaving.isSome then s
    else
      let s1 := ((s.discardVersion t cause).dropReplies tid).withdraw t
      (s1.modTask tid fun t => { t with faults := [] }).leaveWith t .restart State.restartTail

/-- A task that leaves goes on to do so when its last MMA in flight has completed. -/
def State.leaveOn (s : State) (tid : Word) : State :=
  match s.task? tid with
  | none => s
  | some t =>
    if s.mmaBusy t then s
    else
      match t.leaving with
      | some .finish => s.endTail t
      | some .restart => s.restartTail t
      | none => s

/-! ## Tandem groups (04 R116, R117; 12 R325) -/

/-- A group dissolves: its members go on alone, each with the loop stack they share in lock-step, and are the tandem
tasks of the group that has ended. -/
def State.dissolve (s : State) (cluster : Nat) : State :=
  let g := s.cores.tandems.getD {} cluster
  if g.group = [] then s
  else
    let (n, s0) := s.fresh
    let s1 := g.group.foldl (fun s u => s.modTask u fun t =>
      { t with lockstep := false, tandemOf := some (cluster, n), rejoined := false }) s0
    s1.onCores fun cs =>
      { cs with tandems := cs.tandems.upd {} cluster fun g =>
          { g with group := [], last := g.last ++ [(n, g.group)] } }

end Sys2Proof.Machine
end

