-- ==== Sys2Proof/Machine/Tracing.lean ====
section
/-! DEFINITION. The trace buffer of a core: records and triggers (05 R157, R158). -/

namespace Sys2Proof.Machine

open Sys2Proof

/-- A bit of TRCCTL. -/
def Trace.bit (t : Trace) (i : Nat) : Bool := t.ctl.getLsbD i
/-- TRCCTL.TRIG; the reserved codes act as 0. -/
def Trace.trigKind (t : Trace) : Nat := (t.ctl.extractLsb' 5 3).toNat
/-- TRCCTL.POST. -/
def Trace.postCount (t : Trace) : Nat := (t.ctl.extractLsb' 12 9).toNat

/-- Does the buffer take note of a task: EN set, not frozen, its context, its DBG.TRACE? -/
def Trace.sees (t : Trace) (task : Task) : Bool :=
  t.bit 0 && !t.frozen && t.ctx == some task.ctx && task.r.dbg.getLsbD 1

/-- Write one record at TRCPOS; after the trigger, count down POST and freeze (05 R157). -/
def Trace.write (t : Trace) (r : BitVec 128) : Trace :=
  let t1 := { t with recs := t.recs.put t.pos.toNat r, pos := t.pos + 1 }
  match t.post with
  | none => t1
  | some n => if n ≤ 1 then { t1 with post := none, frozen := true } else { t1 with post := some (n - 1) }

/-- The trigger condition occurs: POST more records, then FROZEN (05 R157). -/
def Trace.fire (t : Trace) : Trace :=
  if t.post.isSome then t
  else if t.postCount = 0 then { t with frozen := true } else { t with post := some t.postCount }

/-- A record (05 R158): kind 0 branch, 1 K write, 2 memory access. -/
def traceRec (cycle sq kind aux : Nat) (store : Bool) (val : Word) : BitVec 128 :=
  val ++ BitVec.ofNat 64 (cycle % 2 ^ 40 + sq * 2 ^ 40 + kind * 2 ^ 42 + aux % 16 * 2 ^ 44 + (if store then 2 ^ 48 else 0))

/-- Record an event of a task on its core if EVENTS and SEQMASK select it. -/
def State.traceEvent (s : State) (tid : Word) (kind aux : Nat) (store : Bool) (val : Word) : State :=
  match s.task? tid with
  | none => s
  | some t =>
    match t.core, t.sq with
    | some c, some q =>
      let tr := (s.core c).trace
      if tr.sees t && tr.bit (2 + kind) && tr.bit (8 + q) then
        s.modCore c fun x => { x with trace := x.trace.write (traceRec s.sinceReset q kind aux store val) }
      else s
    | _, _ => s

/-- A trigger condition of a kind, for a task on its core. -/
def State.traceTrigger (s : State) (tid : Word) (kind : Nat) (hit : Trace → Bool) : State :=
  match s.task? tid with
  | none => s
  | some t =>
    match t.core with
    | some c =>
      let tr := (s.core c).trace
      if tr.sees t && tr.trigKind == kind && hit tr then s.modCore c fun x => { x with trace := x.trace.fire } else s
    | none => s

/-- What a bundle traces: a slot with a taken branch, a K write or a memory access. -/
inductive TraceEv where
  | branch (target : Word)
  | kwrite (k : Nat) (v : Word)
  | access (log2 : Nat) (store : Bool) (va : Word)
  deriving DecidableEq, Repr

/-- Record an event; a memory access may meet the trigger on TRIGADDR (05 R157, R158). -/
def State.traceOne (s : State) (tid : Word) (slot : Nat) : TraceEv → State
  | .branch target => s.traceEvent tid 0 slot false target
  | .kwrite k v => s.traceEvent tid 1 k false v
  | .access n store va =>
    (s.traceEvent tid 2 n store va).traceTrigger tid 3 fun tr => tr.trig.extractLsb' 6 51 == va.extractLsb' 6 51

/-- A memory access of a task: one of the open bundle is traced when the bundle issues, any other now. -/
def State.traceAccess (s : State) (tid : Word) (va size : Nat) (store : Bool) : State :=
  let w : Word := BitVec.ofNat 64 va
  match s.cur with
  | some c =>
    if c.tid = tid then s.onCur fun c => { c with traced := c.traced ++ [(c.slot, size.log2, store, w)] }
    else s.traceOne tid 0 (.access size.log2 store w)
  | none => s.traceOne tid 0 (.access size.log2 store w)

/-- Put an event among others, which are in slot order, behind those of its own slot. -/
def insertTrace (e : Nat × TraceEv) : List (Nat × TraceEv) → List (Nat × TraceEv)
  | [] => [e]
  | x :: t => if e.1 < x.1 then e :: x :: t else x :: insertTrace e t

/-- Record the events of one cycle in slot order (05 R158). -/
def State.traceAll (s : State) (tid : Word) (es : List (Nat × TraceEv)) : State :=
  (es.foldl (fun l e => insertTrace e l) []).foldl (fun s e => s.traceOne tid e.1 e.2) s

end Sys2Proof.Machine
end

