-- ==== Sys2Proof/Machine/Ops.lean ====
section
/-! DEFINITION. Taking a fault and returning from one, each as one shared operation (06 R159 to R168), and what a
slot does when its checks fail: a precise fault, a page walk, a park. -/

namespace Sys2Proof.Machine

open Sys2Proof

/-! ## Fault codes (06 R160) -/

def cPageNotPresent : Nat := 0x0001
def cCowWrite : Nat := 0x0002
def cForwarded : Nat := 0x0003
def cLockWait : Nat := 0x0004
def cIllegalInstruction : Nat := 0x0100
def cIllegalBundle : Nat := 0x0101
def cPendOverflow : Nat := 0x0102
def cLoopDepth : Nat := 0x0103
def cShadowRead : Nat := 0x0104
def cSysregAccess : Nat := 0x0105
def cPrivilege : Nat := 0x0106
def cTileOwner : Nat := 0x0107
def cTrapSw : Nat := 0x0108
def cMarkGap : Nat := 0x0109
def cMisaligned : Nat := 0x010A
def cScratchRange : Nat := 0x010B
def cHeapRange : Nat := 0x010C
def cPhysUnmapped : Nat := 0x010D
def cTranslation : Nat := 0x010E
def cPteBad : Nat := 0x010F
def cPerm : Nat := 0x0110
def cAtomicPlace : Nat := 0x0111
def cRemoteUnreachable : Nat := 0x0112
def cBellBusy : Nat := 0x0113
def cLockHierarchy : Nat := 0x0114
def cLockLimit : Nat := 0x0115
def cVersionFull : Nat := 0x0116
def cIntegrity : Nat := 0x0200
def cRemoteTimeout : Nat := 0x0201
def cRemoteIndeterminate : Nat := 0x0202
def cRemoteForwardLoop : Nat := 0x0203
def cRemoteFault : Nat := 0x0204
def cSlipExpired : Nat := 0x0205
def cRace : Nat := 0x0206
def cEngineParam : Nat := 0x0300
def cRollOverrun : Nat := 0x0301
def cEmbgAbort : Nat := 0x0302
def cLshFallback : Nat := 0x0303
def cWound : Nat := 0x0400
def cDoubleFault : Nat := 0x0401

/-! ## Trap entry (06 R163, R164, R165) -/

/-- TRAPCODE (06 R164). -/
def trapCode (f : FaultRec) (ovfl : Bool) : Word :=
  BitVec.ofNat 64 (f.code.toNat + f.slot.toNat * 2 ^ 16 + flag f.deferred * 2 ^ 19 + flag f.engine * 2 ^ 20 +
    flag ovfl * 2 ^ 21)

/-- G24 to G31, then K6 and K7 (06 R163). -/
def Regs.shadow (r : Regs) : List Word :=
  ((List.range 8).map fun i => r.getG (BitVec.ofNat 5 (24 + i))) ++ [r.getK 6, r.getK 7]

/-- The task's registers at trap entry: pending writes applied, the shadow taken, the trap registers written, the
PC at TVEC; interlocked writes to shadowed registers will land in the shadow (06 R163). -/
def Task.enterTrap (t : Task) (f : FaultRec) (pc tvec : BitVec 57) (cycle : Nat) : Task :=
  let t1 := t.applyAll
  { t1 with
    trap := { mode := true, pc := pc.setWidth 64, code := trapCode f t.ovfl, info := f.info, addr := f.addr
              shadow := t1.r.shadow }
    infl := t1.infl.map fun e => if (shadowIndex e.reg).isSome then { e with toShadow := true } else e
    r := { t1.r with pc := tvec }
    ovfl := false
    nullNext := false
    walkFault := none
    busyUntil := cycle + 24 }

/-- TVEC as the task's launch latched it (03 R68). -/
def State.tvec (s : State) (t : Task) : BitVec 57 :=
  match s.launch? (tidLnum t.tid) with
  | some l => l.tvec ++ (0 : BitVec 2)
  | none => 0

/-- A fault of class P, D or E (06 R163): in trap mode the task ends with DOUBLE_FAULT, without a handler it ends
with the code, otherwise it enters trap mode with the PC saved. -/
def State.trapEntry (s : State) (tid : Word) (f : FaultRec) (pc : BitVec 57) : State :=
  match s.task? tid with
  | none => s
  | some t =>
    let s1 := s.traceTrigger tid 1 fun _ => true
    if t.trap.mode then s1.endFault tid cDoubleFault
    else if s.tvec t = 0 then s1.endFault tid f.code.toNat
    else s1.modTask tid fun t => t.enterTrap f pc (s.tvec t) s.cycle

/-- Leave trap mode at an address: the handler's pending writes are applied, then the shadow is restored
(06 R166). -/
def Task.leaveTrap (t : Task) (target : BitVec 57) : Task :=
  let t1 := t.applyAll
  let g (i : Nat) : Word := t.trap.shadow.getD i 0
  let r1 := (List.range 8).foldl (fun r i => r.write (.g (BitVec.ofNat 5 (24 + i))) (BitVec.allOnes 64) (.word (g i))) t1.r
  let r2 := (r1.write (.k 6) (BitVec.allOnes 64) (.word (g 8))).write (.k 7) (BitVec.allOnes 64) (.word (g 9))
  { t1 with
    trap := { t.trap with mode := false, shadow := [] }
    infl := (t1.infl.filter fun e => e.toShadow || (shadowIndex e.reg).isNone).map fun e => { e with toShadow := false }
    r := { r2 with pc := target } }

/-! ## Deferred and engine faults (06 R161, R162) -/

/-- The waiting bundle issues again: the task's PC and loop stack go back to it (06 R162). -/
def Task.toRedo (t : Task) : Task :=
  match t.redo with
  | some (pc, loops) => { t with redo := none, nullNext := false, r := { t.r with pc := pc, loops := loops } }
  | none => t

/-- A fault ends a wait (06 R162): what the task waited for is withdrawn, and the waiting bundle will issue again. -/
def State.cancelWait (s : State) (t : Task) (w : Wait) : State :=
  match w with
  | .fullEmpty id =>
    (s.feWithdraw (·.id == id)).modTask t.tid fun t => Task.toRedo { t with infl := t.infl.filter (·.id != id) }
  | .roll _ id _ => s.modTask t.tid fun t => Task.toRedo { t with infl := t.infl.filter (·.id != id) }
  | .bell _ _ => s.modTask t.tid Task.toRedo
  | .tandem | .rejoin =>
    let s1 := s.onCores fun cs =>
      { cs with tandems := cs.tandems.map fun (i, g) => (i, { g with arrived := g.arrived.filter (· != t.tid) }) }
    s1.modTask t.tid fun t => Task.toRedo { t with rejoined := false }
  | .pageFault _ _ => s.leavePageFault t
  | _ => s

/-- A deferred or engine fault joins the task's queue of eight, or is discarded with OVFL set; it ends a wait,
but for a task in trap mode or one that waits for a lock (06 R161, R162). -/
def State.queueFault (s : State) (tid : Word) (f : FaultRec) : State :=
  match s.task? tid with
  | none => s
  | some t =>
    let s1 := s.modTask tid fun t =>
      if t.faults.length < 8 then { t with faults := t.faults ++ [f] } else { t with ovfl := true }
    match t.wait with
    | some (.lock _ _) => s1
    | some w => if t.trap.mode then s1 else (s1.cancelWait t w).wake tid
    | none => s1

/-! ## What a slot's failed check does -/

/-- The bundle is not issued: nothing of it takes effect. -/
def State.hold (s : State) : State := { s with cur := none }

/-- The running slot raises a precise fault: the bundle has no effect, TRAPPC names it (06 R159). -/
def State.raise (s : State) (code addr info : Nat) : State :=
  match s.cur with
  | none => s
  | some c =>
    s.hold.trapEntry c.tid
      { code := BitVec.ofNat 16 code, slot := BitVec.ofNat 3 c.slot, addr := BitVec.ofNat 64 addr
        info := BitVec.ofNat 64 info } c.pc

/-- Start a walk of a page, or join the one in flight (05 R151); the bundle is held meanwhile. -/
def State.startWalk (s : State) (tid : Word) (core : Nat) (va : Nat) (kind : AccKind) (fetch : Bool) : State :=
  match s.task? tid with
  | none => s
  | some t =>
    let page := va / 2 ^ 16
    let asid := (s.ctx t.ctx).asid
    let same (w : Walk) : Bool := w.asid == asid && w.page == page
    if s.mem.walks.any same then
      s.onMem fun m =>
        { m with walks := m.walks.map fun w =>
            if same w && !w.waiters.contains tid then { w with waiters := w.waiters ++ [tid] } else w }
    else
      let (id, s1) := s.fresh
      let die := coreDie core
      let busy := s.mem.walks.countP fun w => w.die == die && w.active
      let active := decide (busy < 64)
      let s2 := s1.onMem fun m =>
        { m with walks := m.walks ++ [{ id := id, die := die, ctx := t.ctx, asid := asid, page := page, kind := kind
                                        fetch := fetch, waiters := [tid], active := active }] }
      if active then s2.postFree .pageWalkComplete (.num id) else s2

/-- Place a page fault in a free table entry, or keep it until one frees (05 R153). -/
def State.recordPageFault (s : State) (ctx : Nat) (va : Nat) (cow : Bool) (level : Nat) (engine : Bool) : State :=
  let c := s.ctx ctx
  let vp := va / 2 ^ 16
  match List.find? (fun (e : Nat × PfEnt) => e.2.vpage.toNat == vp && e.2.cow == cow) c.pfent with
  | some _ =>
    s.modCtx ctx fun c =>
      { c with pfent := c.pfent.map fun (i, e) =>
          if e.vpage.toNat = vp ∧ e.cow = cow then
            (i, { e with waiters := min (e.waiters + 1) 0xFFFF, engine := e.engine || engine }) else (i, e) }
  | none =>
    match (List.range 32).find? fun i => (Tbl.find? c.pfent i).isNone with
    | some i =>
      (s.modCtx ctx fun c =>
        { c with pfent := c.pfent.put i ⟨cow, if cow then 0 else level, BitVec.ofNat 41 vp, 1, engine⟩ }).raiseVector
        c.pfIrqv.toNat
    | none => s.modCtx ctx fun c => { c with pfKept := c.pfKept ++ [(cow, level, va, engine)] }

/-- A task parks for a page its driver must resolve (05 R153, R154). -/
def State.parkPage (s : State) (tid : Word) (va : Nat) (cow : Bool) (level : Nat) : State :=
  match s.task? tid with
  | none => s
  | some t => (s.recordPageFault t.ctx va cow level false).parkFrame tid (.pageFault va cow) 2

/-- What a check's outcome does to the running bundle: it goes on with the location, raises, holds for a walk, or
parks (14 R356). -/
def State.onChk {α : Type} (s : State) (r : Chk α) (f : α → State) : State :=
  match r with
  | .ok a => f a
  | .bad c va i => s.raise c va i
  | .miss va k fetch => s.hold.startWalk s.curTid s.curCore va k fetch
  | .resolve va cow level => s.hold.parkPage s.curTid va cow level

/-- The running slot is an unassigned use of its encoding: ILLEGAL_INSTRUCTION with the slot's word (06 R160). -/
def State.illegal (s : State) : State :=
  match s.cur with
  | none => s
  | some c => s.raise cIllegalInstruction 0 (c.words.getD c.slot 0).toNat

end Sys2Proof.Machine
end

