-- ==== Sys2Proof/Machine/Fabric.lean ====
section
/-! DEFINITION. The sending side of the fabric: slots and sequence numbers of a link, routes, the forward cache,
slip tables, and remote requests until they are sent (02 R32 to R53; 07 R190, R192). -/

namespace Sys2Proof.Machine

open Sys2Proof

/-! ## Links (02 R37, R42, R43) -/

/-- Operations that travel in the reply class: those that answer a request (02 R36; log entry 3). -/
def opIsReply (op : Nat) : Bool := [0x02, 0x04, 0x06, 0x07, 0x08, 0x0A].contains op

/-- Flits of a packet. -/
def pktFlits (p : Packet) : Nat := 1 + p.payload.length

/-- Free slots of a class at the receiver (02 R42). -/
def freeSlots (sent returned : Nat) : Nat := 512 - (sent - returned) % 4096

/-- Is the packet carried in buffer slots of the reply class, the request class, or in none? -/
def pktSlotClass (p : Packet) : Option Bool := if p.circuit then none else some (opIsReply p.op.toNat)

/-- A link may take one more new packet (02 R37, R42). -/
def Link.canSend (l : Link) (p : Packet) : Bool :=
  l.phase == .up && !l.stopped && decide (l.replay.length < 32767) &&
  decide (((l.replay.map pktFlits).sum + pktFlits p) * 64 ≤ 2 ^ 20) &&
  match pktSlotClass p with
  | none => true
  | some true => decide (pktFlits p ≤ freeSlots l.sentRpl l.retRpl)
  | some false => decide (pktFlits p ≤ freeSlots l.sentReq l.retReq)

/-- Count the flits of a packet put on the wire, new or replayed. -/
def Link.countSent (l : Link) (p : Packet) : Link :=
  match pktSlotClass p with
  | none => l
  | some true => { l with sentRpl := l.sentRpl + pktFlits p, sinceResync := l.sinceResync + pktFlits p }
  | some false => { l with sentReq := l.sentReq + pktFlits p, sinceResync := l.sinceResync + pktFlits p }

/-- CLASS of a packet's flits (02 R33). -/
def pktClass (p : Packet) : Nat :=
  match pktSlotClass p with
  | some false => 0
  | some true => 1
  | none => 2

/-- The packet header flit (02 R35). -/
def packetHeader (p : Packet) : BeatBits :=
  let at_ {w : Nat} (x : BitVec w) (pos : Nat) : Nat := x.toNat * 2 ^ pos
  BitVec.ofNat 512
    (at_ p.pseq 0 + at_ p.dst 16 + at_ p.src 28 + p.payload.length % 64 * 2 ^ 40 + at_ p.slipn 46 + at_ p.op 48 +
      flag p.retry * 2 ^ 56 + flag p.wantslip * 2 ^ 57 + flag p.circuit * 2 ^ 58 + flag p.release * 2 ^ 59 +
      flag p.acquire * 2 ^ 60 + at_ p.fctx 64 + at_ p.vaddr 80 + at_ p.srcunit 144 + at_ p.reqid 160 + at_ p.tag 192 +
      at_ p.size 208 + at_ p.slip0 224 + at_ p.slip1 256 + at_ p.collid 288 + at_ p.opnd0 320 + at_ p.opnd1 384 +
      at_ p.tepoch 448)

/-- The address that CHECK of payload flit `i` covers: that of its beat in the context the packet names, the only address
that both ends of the link know (log entry 37). -/
def checkAddr (p : Packet) (i : Nat) : Nat := p.vaddr.toNat + 64 * i

/-- A flit with its header: KIND, LAST, POISON, CLASS, ACKSEQ, the cumulative counts of freed slots, CHECK and LCRC
(02 R33). `addr` is what CHECK covers, zero for a header flit. -/
def Link.flit (l : Link) (ret : Nat × Nat) (kind cls : Nat) (last poison : Bool) (addr : Nat) (d : BeatBits) :
    BitVec 128 × BeatBits :=
  let low := kind + flag last * 4 + flag poison * 8 + cls * 16 + l.rxSeq.toNat * 2 ^ 8 + ret.1 % 4096 * 2 ^ 24 +
    ret.2 % 4096 * 2 ^ 36 + (beatCheck d addr).toNat * 2 ^ 64
  (BitVec.ofNat 128 (low + (crc32 (beatBytes d ++ natLe 12 low)).toNat * 2 ^ 96), d)

/-- The flits of a packet, in order (02 R33, R35). -/
def Link.flits (l : Link) (ret : Nat × Nat) (p : Packet) : List (BitVec 128 × BeatBits) :=
  let n := p.payload.length
  l.flit ret 1 (pktClass p) (n == 0) p.headPoison 0 (packetHeader p) ::
    p.payload.zipIdx.map fun (b, i) => l.flit ret 2 (pktClass p) (i + 1 == n) b.poison (checkAddr p i) b.data

/-- Put a packet on the wire, new or replayed: its flits are counted and leave. -/
def Link.putWire (l : Link) (ret : Nat × Nat) (p : Packet) : Link :=
  let l1 := l.countSent p
  { l1 with wire := (l.flits ret p).reverse ++ l1.wire }

/-- Send a new packet: it takes the next PSEQ and a place in the replay buffer. -/
def Link.send (l : Link) (ret : Nat × Nat) (p : Packet) : Link :=
  let n := l.txSeq + 1
  let q := { p with pseq := n, via := none }
  ({ l with txSeq := n, replay := l.replay ++ [q] }).putWire ret q

/-- Send what waits while the link can take it, the packets of each class in order; a class whose slots are used up holds
back no other (02 R42, R47). `held` lists the packets passed over. -/
def Link.pump (l : Link) (ret : Nat × Nat) (held : List Packet) : List Packet → Link
  | [] => { l with txWait := held }
  | p :: ps =>
    if l.canSend p && held.all fun q => pktSlotClass q != pktSlotClass p then (l.send ret p).pump ret held ps
    else l.pump ret (held ++ [p]) ps

/-- A flit time at the width in use (02 R32). -/
def Link.flitTime (l : Link) : Nat := flitUnits * 2 ^ l.width

/-- When the replay timer ends (02 R39): it runs while packets are unacknowledged and STATE is 2, from zero at a change of
ACKSEQ and on the return to STATE 2. `l` is the port before a change, `l1` after it. -/
def Link.replayDue (l l1 : Link) (now : Nat) : Option Nat :=
  if l1.phase ≠ .up ∨ l1.replay.isEmpty = true then none
  else if l.phase = .up ∧ l.acked = l1.acked ∧ l1.replayAt.isSome = true then l1.replayAt
  else some (now + 4096 * l1.flitTime)

/-- A port of the chip. -/
def State.link (s : State) (p : Nat) : Link := s.fabric.links.getD {} p

/-- Change a port. -/
def State.modLink (s : State) (p : Nat) (f : Link → Link) : State :=
  s.onFabric fun x => { x with links := x.links.upd {} p f }

/-- Change a port in what it has sent, what is acknowledged, or its STATE: the replay timer follows (02 R39), and after
65,536 best-effort flits a RESYNC is due (02 R43). -/
def State.onLink (s : State) (p : Nat) (f : Link → Link) : State :=
  let l := s.link p
  let l1 := f l
  let due := l.replayDue l1 s.time
  let s1 := s.modLink p fun _ => { l1 with replayAt := due }
  let s2 := match due with
    | some t => if l1.replayAt = some t then s1 else s1.postTime (t - s.time) .replayTimeout (.num p)
    | none => s1
  if l.sinceResync < 65536 ∧ 65536 ≤ l1.sinceResync then s2.post 0 .resyncSend (.num p) else s2

/-- Flits of a class that came in at a port and have not gone on yet: those of packets in transit that wait at an output
(02 R42). -/
def State.inTransit (s : State) (p : Nat) (cls : Bool) : Nat :=
  (s.fabric.links.map fun x =>
    ((x.2.txWait.filter fun q => q.via == some p && pktSlotClass q == some cls).map pktFlits).sum).sum

/-- The cumulative counts of freed slots that a port's flit headers carry, by class (02 R42). -/
def State.returns (s : State) (p : Nat) : Nat × Nat :=
  let l := s.link p
  (l.freedReq - s.inTransit p false, l.freedRpl - s.inTransit p true)

/-- Let a port send what waits. -/
def State.pumpLink (s : State) (p : Nat) : State := s.onLink p fun l => l.pump (s.returns p) [] l.txWait

/-- Queue a packet at a port. -/
def State.linkSend (s : State) (port : Nat) (p : Packet) : State :=
  (s.modLink port fun l => { l with txWait := l.txWait ++ [p] }).pumpLink port

/-! ## Hubs and routes (02 R44) -/

/-- Change a hub. -/
def State.modHub (s : State) (h : Nat) (f : Hub → Hub) : State :=
  s.onFabric fun x => { x with hubs := x.hubs.upd {} h f }

/-- A hub's registers. -/
def State.hubOf (s : State) (h : Nat) : Hub := s.fabric.hubs.getD {} h

/-- The die code of the hub nearer a die (02 R45, R53). -/
def nearHub (die : Nat) : Nat := if [1, 3, 4, 8, 9, 12, 13].contains die then 4 else 5

/-- The hub that handles a die's requests: the other one while the nearer is held (02 R45, R53). -/
def State.handlingHub (s : State) (die : Nat) : Nat :=
  let h := nearHub die
  if s.package.held.contains h then 9 - h else h

/-- The chip's own identifier, as a hub holds it. -/
def State.ownChip (s : State) (h : Nat) : BitVec 12 := (s.hubOf h).chip

/-- The route entry of a hub for a chip. -/
def State.route (s : State) (h : Nat) (chip : BitVec 12) : BitVec 23 :=
  if chip.toNat < 512 then (s.hubOf h).routes.getD 0 chip.toNat else 0

/-- The candidate ports of a route entry. -/
def candidates (r : BitVec 23) : List Nat :=
  (List.range ((r.extractLsb' 1 2).toNat + 1)).map fun i => (r.extractLsb' (3 + 5 * i) 5).toNat

/-- Is a chip reachable from a die: its route entry is VALID, or it is this chip, whose entry is not used. -/
def State.reachable (s : State) (die : Nat) (chip : BitVec 12) : Bool :=
  let h := s.handlingHub die
  chip == s.ownChip h || (s.route h chip).getLsbD 0

/-- Flits a port still owes the peer: its occupancy. -/
def Link.occupancy (l : Link) : Nat := ((l.replay ++ l.txWait).map pktFlits).sum

/-- The least-occupied candidate that is up, a choice among equals, but for a port to be avoided where another is up; none
where none is up (02 R44, R45). -/
def State.pickPortBut (s : State) (h : Nat) (chip : BitVec 12) (avoid : Option Nat) : Option Nat × State :=
  let r := s.route h chip
  let all := if r.getLsbD 0 then (candidates r).filter fun p => (s.link p).phase == .up else []
  let others := all.filter fun p => some p != avoid
  let up := if others.isEmpty then all else others
  match (up.map fun p => (s.link p).occupancy).min? with
  | none => (none, s)
  | some m =>
    let best := up.filter fun p => (s.link p).occupancy == m
    let (i, s1) := s.choose best.length
    (best[i]?, s1)

/-- The candidate that takes a packet of a hub for a chip. -/
def State.pickPort (s : State) (h : Nat) (chip : BitVec 12) : Option Nat × State := s.pickPortBut h chip none

/-- The event with which a packet arrives at its destination hub, by operation (02 R36). -/
def packetEvent (op : Nat) : Option Instr :=
  match op with
  | 0x01 => some .readRequest
  | 0x02 => some .readReply
  | 0x03 => some .writePacket
  | 0x04 => some .writeAcknowledgement
  | 0x05 => some .atomicRequest
  | 0x06 => some .atomicReply
  | 0x07 => some .forwardingReply
  | 0x08 => some .statusReply
  | 0x09 => some .slipQuery
  | 0x0A => some .slipAnswer
  | 0x0B => some .landedNotice
  | 0x0C => some .collectiveData
  | 0x0D => some .collectiveAbortFrame
  | 0x0E => some .circuitData
  | _ => none

/-- What comes with that event. -/
def packetArg (hub : Nat) (p : Packet) : EvArg :=
  match p.op.toNat, p.body with
  | 0x0C, some b => .coll hub p b
  | _, _ => .packet hub p

/-- A packet is delivered to a hub of this chip. -/
def State.deliver (s : State) (hub : Nat) (p : Packet) : State :=
  match packetEvent p.op.toNat with
  | some i => s.post 0 i (packetArg hub p)
  | none => s

/-- Send a packet from a hub: to this chip itself it is delivered, otherwise a candidate port takes it; with none
up a reply is lost, and its requester reissues (02 R45). -/
def State.sendPacket (s : State) (hub : Nat) (p : Packet) : State :=
  if p.dst = s.ownChip hub then s.deliver hub p
  else
    let (port, s1) := s.pickPort hub p.dst
    match port with
    | some n => s1.linkSend n p
    | none => s1

/-! ## The forward cache (02 R46) -/

/-- Does an entry cover an access? -/
def FwdEntry.covers (e : FwdEntry) (fctx : BitVec 16) (chip : BitVec 12) (va : Nat) : Bool :=
  let bits := if e.pgsz = 0 then 16 else if e.pgsz = 1 then 21 else 30
  e.fctx == fctx && e.chip == chip && e.vpage / 2 ^ (bits - 16) == va / 2 ^ bits

/-- The entry of a hub's forward cache that an access finds. -/
def State.fwdFind (s : State) (hub : Nat) (fctx : BitVec 16) (chip : BitVec 12) (va : Nat) : Option FwdEntry :=
  (s.hubOf hub).fwd.find? fun e => e.covers fctx chip va

/-- Record or use an entry: it is the most recently used of 64 (02 R46). -/
def State.fwdInsert (s : State) (hub : Nat) (e : FwdEntry) : State :=
  s.modHub hub fun h => { h with fwd := (e :: h.fwd.filter (· != e)).take 64 }

/-- The forward-cache entry that an access of a die to a peer's page goes by, if there is one. -/
def State.fwdOf (s : State) (die : Nat) (loc : Loc) : Option FwdEntry :=
  match loc with
  | .peer chip fctx a => s.fwdFind (s.handlingHub die) fctx chip a
  | _ => none

/-- An access has gone by an entry, if by one. -/
def State.fwdUse (s : State) (die : Nat) (e : Option FwdEntry) : State :=
  match e with
  | some x => s.fwdInsert (s.handlingHub die) x
  | none => s

/-- Where an access through a PEER leaf goes: the new home the forward cache names, or the leaf's own; a page that
moved to the CXL pool is an access to memory. An unreachable chip is a fault at issue (02 R45). -/
def State.viaForward (s : State) (die : Nat) (loc : Loc) (va : Nat) : Chk Loc :=
  match loc with
  | .peer chip fctx a =>
    match s.fwdFind (s.handlingHub die) fctx chip a with
    | some e =>
      if e.pool then
        let pa := e.ppage * 2 ^ 16 + a % 2 ^ (if e.pgsz = 0 then 16 else if e.pgsz = 1 then 21 else 30)
        if physExists s pa then .ok (.phys pa .home false) else .bad cPhysUnmapped va pa
      else if s.reachable die e.newChip then .ok (.peer e.newChip fctx a)
      else .bad cRemoteUnreachable va e.newChip.toNat
    | none => if s.reachable die chip then .ok loc else .bad cRemoteUnreachable va chip.toNat
  | _ => .ok loc

/-! ## The order of hold-queue entries (02 R55; 01 R14, R15) -/

/-- Free entries of a hold queue are held for the oldest tickets; `n` bounds the tickets served. -/
def Hub.offerHold (h : Hub) : Nat → Hub
  | 0 => h
  | n + 1 =>
    match h.holdTickets with
    | [] => h
    | t :: rest =>
      if h.hold.length + h.holdHeld.length < 256 then
        Hub.offerHold { h with holdTickets := rest, holdHeld := h.holdHeld ++ [t] } n
      else h

/-- Offer what is free to the tickets. An issuer on this chip claims within 64 cycles of the notice; the fabric has no
packet for a notice, so a peer claims with its retry (01 R15; log entry 80). -/
def State.offerHold (s : State) (hub : Nat) : State :=
  let h := s.hubOf hub
  let h1 := h.offerHold h.holdTickets.length
  let s1 := s.modHub hub fun _ => h1
  (h1.holdHeld.filter fun w => !h.holdHeld.contains w && w.1 == s.ownChip hub).foldl (fun s w =>
    match s.fabric.remotes.find? fun r => (r.pkt.src, r.pkt.srcunit, r.pkt.reqid) == w with
    | some r =>
      let (n, s2) := s.choose 65
      (s2.unpost .holdFullRetry (.num r.id)).post n .holdFullRetry (.num r.id)
    | none => s) s1

/-! ## Slip tables (02 R50 to R53) -/

/-- A slip-table entry. -/
def State.slipEntry (s : State) (i : Nat) : SlipEntry := s.fabric.slips.getD {} i

/-- Change a slip-table entry. -/
def State.modSlip (s : State) (i : Nat) (f : SlipEntry → SlipEntry) : State :=
  s.onFabric fun x => { x with slips := x.slips.upd {} i f }

/-- The first index of the half of the table that a die uses (02 R53). -/
def State.slipHalf (s : State) (die : Nat) : Nat := if s.handlingHub die = 4 then 0 else 2048

/-- The lowest FREE entry of a die's half. -/
def State.slipFree? (s : State) (die : Nat) : Option Nat :=
  ((List.range 2048).map (s.slipHalf die + ·)).find? fun i => (s.slipEntry i).phase == .free

/-- The token of an entry as it stands (02 R50). -/
def State.slipToken (s : State) (hub i : Nat) : BitVec 32 :=
  s.ownChip hub ++ BitVec.ofNat 12 i ++ (s.slipEntry i).count

/-- Take an entry: COUNT advances and EXPMAP's bit clears (02 R51). -/
def State.slipTake (s : State) (i : Nat) : State :=
  s.modSlip i fun e =>
    let c := e.count + 1
    { e with count := c, phase := .pending, expmap := e.expmap &&& ~~~(1#256 <<< c.toNat), interest := 0 }

/-- The hub that holds a slip index. -/
def slipHub (i : Nat) : Nat := if i < 2048 then 4 else 5

/-- An entry leaves PENDING: its notices go to the chips of the interest map, and it frees 2^20 cycles later
(02 R51). -/
def State.slipLeave (s : State) (i : Nat) (landed : Bool) : State :=
  let e := s.slipEntry i
  if e.phase != .pending then s
  else
    let hub := slipHub i
    let tok := s.slipToken hub i
    let s1 := s.modSlip i fun e =>
      { e with
        phase := if landed then .landed else .expired
        expmap := if landed then e.expmap else e.expmap ||| (1#256 <<< e.count.toNat)
        leftAt := s.cycle
        interest := 0 }
    let chips := (List.range 512).filter fun c => e.interest.getLsbD c
    let s2 := chips.foldl (fun s c => s.sendPacket hub
      { op := 0x0B, dst := BitVec.ofNat 12 c, src := s.ownChip hub, slip0 := tok
        opnd0 := if landed then 0 else 1 }) s1
    s2.post (2 ^ 20) .slipEntryFree (.num i)

/-- The entry a request's slip was taken from, if it asked for one. -/
def pktOwnSlip? (p : Packet) : Option Nat := if p.wantslip then some (p.slip0.toNat / 2 ^ 8 % 2 ^ 12) else none

/-! ## Remote requests (02 R45; 07 R190, R192) -/

/-- SRCUNIT of a sequencer (02 R35). -/
def seqUnit (core sq : Nat) : BitVec 16 :=
  BitVec.ofNat 16 (coreDie core + coreCluster core * 16 + coreIndex core * 512 + sq * 4096)

/-- SRCUNIT of an engine (02 R45). -/
def engineUnit (die n : Nat) : BitVec 16 := BitVec.ofNat 16 (die + (24 + n) * 16)

/-- Who issued a request: the accesses of one task, or of one engine operation, to one line keep their order. -/
def RemoteUse.owner : RemoteUse → Nat
  | .load t _ _ _ _ _ => t.toNat
  | .pair t _ _ => t.toNat
  | .store t => t.toNat
  | .localHold t _ => t.toNat
  | .engineRead op => 2 ^ 64 + op
  | .engineWrite op => 2 ^ 64 + op
  | .gone => 2 ^ 128

/-- Do two requests touch one 64-byte line of one chip? -/
def samePeerLine (a b : Packet) : Bool :=
  a.dst == b.dst && a.fctx == b.fctx &&
  decide (a.vaddr.toNat / 64 ≤ (b.vaddr.toNat + pktBytes b - 1) / 64) &&
  decide (b.vaddr.toNat / 64 ≤ (a.vaddr.toNat + pktBytes a - 1) / 64)

/-- May a request be sent now, given the requests before it that are outstanding: the window of 4,096 REQIDs
(02 R45), one access at a time to a line (07 R192), and a release after every earlier write and atomic (07 R190). -/
def RemoteReq.maySend (r : RemoteReq) (before : List RemoteReq) : Bool :=
  before.all fun b =>
    !(b.pkt.srcunit == r.pkt.srcunit && decide (4096 ≤ (r.pkt.reqid - b.pkt.reqid).toNat)) &&
    !(b.use.owner == r.use.owner && samePeerLine b.pkt r.pkt) &&
    !(r.pkt.release && b.writes) &&
    !(r.mark.any (fun m => decide (b.id < m)) && b.use.tid? == r.use.tid? && b.writes)

/-- Have the writes on this chip that a release request, or one after a release fence of FABRIC scope, carries been
performed and settled (07 R190)? -/
def State.releaseReady (s : State) (r : RemoteReq) : Bool :=
  match r.use.tid? with
  | none => true
  | some tid =>
    let bound := if r.pkt.release then some r.id else r.mark
    bound.all fun n =>
      (s.ownStores tid).all (fun p => decide (n ≤ p.id)) && s.clocks.unsettled.all fun u => u.tid != tid

/-- Change a remote request. -/
def State.modRemote (s : State) (id : Nat) (f : RemoteReq → RemoteReq) : State :=
  s.onFabric fun x => { x with remotes := x.remotes.map fun r => if r.id == id then f r else r }

/-- The packet of a request as it goes out: RETRY on a reissue. With WANTSLIP, SLIP0 tells the target the slip its
acknowledgement returns (02 R35, R36; log entry 3). -/
def RemoteReq.wire (r : RemoteReq) : Packet := { r.pkt with retry := decide (0 < r.reissues) }

/-- The hub that handles a request: the other one once its own is held (02 R45). -/
def State.requestHub (s : State) (hub : Nat) : Nat := if s.package.held.contains hub then 9 - hub else hub

/-- Put a request on its way: a candidate port that is up takes it, another one than `avoid` where there is one, or it is
held at the fabric unit until one comes up; REMTO runs from now (02 R45). -/
def State.transmitBut (s : State) (r0 : RemoteReq) (avoid : Option Nat) : State :=
  let hub := s.requestHub r0.hub
  let r := { r0 with hub := hub }
  let timed (s : State) (port : Option Nat) : State :=
    (s.modRemote r.id fun x =>
      { x with heldAtUnit := false, hub := hub, port := port, deadline := s.cycle + (s.hubOf r.hub).remto }).post
      (s.hubOf r.hub).remto .remtoExpiry (.num r.id)
  if r.pkt.dst = s.ownChip r.hub then timed (s.deliver r.hub r.wire) (some 18)
  else
    let (port, s1) := s.pickPortBut r.hub r.pkt.dst avoid
    match port with
    | some n => timed (s1.linkSend n r.wire) (some n)
    | none => timed s1 none

/-- Put a request on its way. -/
def State.transmit (s : State) (r : RemoteReq) : State := s.transmitBut r none

/-- Send every request that no earlier one holds back; `before` lists the requests already passed. -/
def pumpList (s : State) (before : List RemoteReq) : List RemoteReq → State
  | [] => s
  | r :: rs =>
    let s1 := if r.heldAtUnit && r.maySend before && s.releaseReady r then s.transmit r else s
    pumpList s1 (before ++ [r]) rs

/-- Send what can be sent. -/
def State.pumpRemotes (s : State) : State := pumpList s [] s.fabric.remotes

/-- The number of the release fence of FABRIC scope that the writes of a task follow (07 R187). -/
def State.fenceMark (s : State) (use : RemoteUse) : Option Nat :=
  match (use.tid?.bind s.task?).bind (·.relMark) with
  | some m => if m.fabric then some m.before else none
  | none => none

/-- Issue a remote request through a hub: it takes its unit's next REQID and waits at the fabric unit until it may
be sent. The packet comes with OP, DST, FCTX, VADDR, SIZE, TAG, operands and flags. -/
def State.remoteSendVia (s : State) (hub : Nat) (unit : BitVec 16) (ctx : Nat) (p : Packet) (use : RemoteUse) : State :=
  let rid := s.fabric.reqids.getD 0 unit.toNat
  let (id, s1) := s.fresh
  let pkt := { p with
    src := s.ownChip hub, srcunit := unit, reqid := rid
    tepoch := if p.dst = s.ownChip hub then (s.hubOf hub).epoch else s.fabric.peerEpochs.getD 0 p.dst.toNat }
  let r : RemoteReq :=
    { id := id, pkt := pkt, hub := hub, port := none, deadline := 0, heldAtUnit := true, ctx := ctx, use := use }
  let s2 := s1.onFabric fun x =>
    { x with
      reqids := x.reqids.put unit.toNat (rid + 1)
      remotes := x.remotes ++ [{ r with mark := if r.writes then s.fenceMark use else none }] }
  s2.pumpRemotes

/-- Issue a remote request from a unit of a die, through the hub that handles it (02 R45). -/
def State.remoteSend (s : State) (die : Nat) (unit : BitVec 16) (ctx : Nat) (p : Packet) (use : RemoteUse) : State :=
  s.remoteSendVia (s.handlingHub die) unit ctx p use

/-- The payload flits of some bytes: 64-byte beats, the last one filled with zeros. -/
def beatsOf : Nat → List Byte → List Beat
  | 0, _ => []
  | n + 1, bs => if bs.isEmpty then [] else ⟨beatOf (bs.take 64 ++ List.replicate (64 - bs.length) 0), false⟩ :: beatsOf n (bs.drop 64)

/-- The payload of some bytes. -/
def payloadOf (bs : List Byte) : List Beat := beatsOf 32 bs

/-- log2 of an access size. -/
def sizeCode (n : Nat) : BitVec 4 := BitVec.ofNat 4 n.log2

end Sys2Proof.Machine
end

