-- ==== Sys2Proof/Machine/Operands.lean ====
section
/-! DEFINITION. Operand forms: immediates built from a base field and literals (11 R267, R271), branch offsets
(12 R307) and the sign extensions they use. -/

namespace Sys2Proof.Machine

open Sys2Proof

/-- The raw value of an immediate: base field, then each literal 26 bits further up (11 R267). -/
def immRaw : Nat → Nat → List (BitVec 26) → Nat × Nat
  | raw, w, [] => (raw, w)
  | raw, w, l :: ls => immRaw (raw + l.toNat * 2 ^ w) (w + 26) ls

/-- The immediate read as signed, in 64 bits (11 R267). -/
def immS {w : Nat} (i : Imm w) : Word :=
  let (raw, n) := immRaw i.base.toNat w i.lits
  if 2 ^ (n - 1) ≤ raw then BitVec.ofInt 64 ((raw : Int) - 2 ^ n) else BitVec.ofNat 64 raw

/-- The immediate read as unsigned, in 64 bits (11 R267). -/
def immU {w : Nat} (i : Imm w) : Word := BitVec.ofNat 64 (immRaw i.base.toNat w i.lits).1

/-- A branch target: the bundle's address plus four times the signed offset (12 R307). -/
def branchTarget (pc : BitVec 57) (i : Imm 15) : BitVec 57 := pc + 4 * (immS i).setWidth 57

/-- A loop's END: the bundle's address plus four times the unsigned offset (12 R310). -/
def loopEnd (pc : BitVec 57) (i : Imm 10) : BitVec 57 := pc + 4 * (immU i).setWidth 57

/-- An address taken from a G register: bits [56:2], four-byte aligned (12 R307). -/
def jumpAddr (g : Word) : BitVec 57 := g.extractLsb' 2 55 ++ (0 : BitVec 2)

end Sys2Proof.Machine
end

