-- ==== Sys2Proof/Machine/Control.lean ====
section
/-! DEFINITION. The control classes 6 and 7: branches, calls and loops (12 R307 to R313; 05 R136). -/

namespace Sys2Proof.Machine

open Sys2Proof

/-! ## The loop stack (05 R136) -/

/-- A bundle at the END of the top entries issues: the stack, top first, and the next PC where a loop goes back. -/
def loopStep (pc : BitVec 57) : List LoopEnt → List LoopEnt × Option (BitVec 57)
  | [] => ([], none)
  | e :: es =>
    if e.stop = pc then
      if 1 < e.count.toNat then ({ e with count := e.count - 1 } :: es, some e.start) else loopStep pc es
    else (e :: es, none)

/-- The loop-back rule on a stack that lists entry 0, the outermost, first. -/
def loopAct (pc : BitVec 57) (l : List LoopEnt) : List LoopEnt × Option (BitVec 57) :=
  let r := loopStep pc l.reverse
  (r.1.reverse, r.2)

/-- Does the bundle lie at the END of the top entry? -/
def atLoopEnd (pc : BitVec 57) (l : List LoopEnt) : Bool :=
  match l.getLast? with
  | none => false
  | some e => e.stop == pc

/-- A taken BR or JMP pops the entries whose range its target leaves, top first (05 R136). -/
def branchPop (target : BitVec 57) : List LoopEnt → List LoopEnt
  | [] => []
  | e :: es => if target < e.start ∨ e.stop < target then branchPop target es else e :: es

/-- The branch rule on a stack that lists the outermost entry first. -/
def branchAct (target : BitVec 57) (l : List LoopEnt) : List LoopEnt := (branchPop target l.reverse).reverse

/-! ## Branches (12 R307 to R309) -/

/-- The address of the next sequential bundle (12 R308). -/
def State.nextSeq (s : State) : BitVec 57 :=
  match s.cur with
  | none => 0
  | some c => c.pc + 4 * BitVec.ofNat 57 c.phys

/-- A taken branch of the running slot; `pops` tells whether it acts on the loop stack. -/
def State.take (s : State) (target : BitVec 57) (pops : Bool) : State :=
  s.onCur fun c => { c with branch := some (target, pops) }

/-- BR. -/
def execBr (i : Imm 15) (s : State) : Out := .next (s.whenOn fun s => s.take (branchTarget s.bundlePc i) true)

/-- CALL: the link is of class 1. -/
def execCall (i : Imm 15) (s : State) : Out :=
  .next (s.whenOn fun s => (s.putG 1 31 (s.nextSeq.setWidth 64)).take (branchTarget s.bundlePc i) false)

/-- JMP. -/
def execJmp (a : Reg) (s : State) : Out := .next (s.whenOn fun s => s.take (jumpAddr (s.getG a)) true)

/-- CALLR: the target is read before the bundle. -/
def execCallr (a : Reg) (s : State) : Out :=
  .next (s.whenOn fun s => (s.putG 1 31 (s.nextSeq.setWidth 64)).take (jumpAddr (s.getG a)) false)

/-- RET. -/
def execRet (s : State) : Out := .next (s.whenOn fun s => s.take (jumpAddr (s.getG 31)) false)

/-! ## Loops (12 R310 to R313) -/

/-- LOOP and LOOPI with count `n` (12 R311, R312): the loop-back rule acts first on the stack as it stands. -/
def State.loopSetup (s : State) (n : Word) (i : Imm 10) : State :=
  let l := s.regs.loops
  let stop := loopEnd s.bundlePc i
  if n = 0 then
    (if atLoopEnd s.bundlePc l then s else s.onCur fun c => { c with skipTo := some stop })
  else if 6 ≤ (loopAct s.bundlePc l).1.length then s.raise cLoopDepth 0 0
  else s.onCur fun c => { c with push := some ⟨s.nextSeq, stop, n⟩ }

/-- LOOP. -/
def execLoop (a : Reg) (i : Imm 10) (s : State) : Out := .next (s.whenOn fun s => s.loopSetup (s.getG a) i)

/-- LOOPI. -/
def execLoopi (c : BitVec 5) (i : Imm 10) (s : State) : Out :=
  .next (s.whenOn fun s => s.loopSetup (c.setWidth 64) i)

/-- The remaining count of a loop entry, 0 beyond LDEPTH (12 R313). -/
def loopCount (l : List LoopEnt) (n : Nat) : Word :=
  match l[n]? with
  | some e => e.count
  | none => 0

/-- LCNT. -/
def execLcnt (d : Reg) (n : BitVec 5) (s : State) : Out :=
  .next (s.whenOn fun s => s.putG 1 d (loopCount s.regs.loops n.toNat))

end Sys2Proof.Machine
end

