-- ==== Sys2Proof/Machine/System.lean ====
section
/-! DEFINITION. Class 8 and NOP: system registers, features, FMT, marks, END, traps and returns, COMMIT, CLRFEL,
tandem groups (12 R314 to R326; 05 R127). What END, a return, COMMIT and the tandem instructions do happens when
their bundle closes (Issue). -/

namespace Sys2Proof.Machine

open Sys2Proof

/-- NOP (11 R273). -/
def execNop (s : State) : Out := .next s

/-! ## Reading system registers (05 R127, 12 R315) -/

/-- A latched value of the running task's launch. -/
def State.latched (s : State) (f : Launch → Word) : Word :=
  match s.curLaunch? with
  | some l => f l
  | none => 0

/-- SCRBASE and SCRSIZE of a task on a core (05 R127). -/
def scratchRegs (t : Task) (core : Nat) : Word × Word :=
  match t.alloc with
  | some (off, n) => (BitVec.ofNat 64 (scratchAddr core off), BitVec.ofNat 64 n)
  | none => (BitVec.ofNat 64 (scratchAddr core 0), 0)

/-- Record TRCIDX modulo 512; zero where none is written (05 R158). -/
def Trace.record (t : Trace) : BitVec 128 := t.recs.getD 0 (t.idx.toNat % 512)

/-- TRCCTL as read. -/
def Trace.ctlWord (t : Trace) : Word :=
  (t.ctl.setWidth 64 &&& ~~~(2#64)) ||| (if t.frozen then 2 else 0)

/-- The value of a system register for the running task (05 R127). -/
def State.sysRead (s : State) (n : Nat) : Word :=
  match s.me? with
  | none => 0
  | some t =>
    let c := s.ctx t.ctx
    let tr := (s.core s.curCore).trace
    let sq := t.sq.getD 0
    if n = 0x000 then t.r.fmt
    else if n = 0x001 then t.r.fel.w0
    else if n = 0x002 then t.r.fel.w1
    else if n = 0x003 then t.r.fel.w2
    else if n = 0x008 then t.tid
    else if n = 0x009 then coordWord s.curCore sq
    else if n = 0x00A then BitVec.ofNat 64 s.sinceReset
    else if n = 0x00B then t.issued
    else if n = 0x010 then s.latched fun l => l.hwb.setWidth 64 <<< 16
    else if n = 0x011 then s.latched fun l => l.hwl.setWidth 64 <<< 16
    else if n = 0x012 then s.latched fun l => l.hwo.setWidth 64 <<< 16
    else if n = 0x013 then s.latched fun l => l.age.setWidth 64
    else if n = 0x014 then s.latched fun l => l.pdl.setWidth 64
    else if n = 0x015 then s.latched fun l => l.markgap.setWidth 64
    else if n = 0x016 then (scratchRegs t s.curCore).1
    else if n = 0x017 then (scratchRegs t s.curCore).2
    else if n = 0x018 then t.r.buf.setWidth 64
    else if n = 0x019 then t.r.dbg.setWidth 64
    else if n = 0x01A then BitVec.ofNat 64 t.pendCount
    else if 0x020 ≤ n ∧ n ≤ 0x025 then
      match t.r.loops[n - 0x020]? with
      | some e => e.start.setWidth 64
      | none => 0
    else if 0x028 ≤ n ∧ n ≤ 0x02D then
      match t.r.loops[n - 0x028]? with
      | some e => e.stop.setWidth 64
      | none => 0
    else if 0x030 ≤ n ∧ n ≤ 0x035 then loopCount t.r.loops (n - 0x030)
    else if n = 0x038 then BitVec.ofNat 64 t.r.loops.length
    else if 0x040 ≤ n ∧ n ≤ 0x047 then c.pinb.getD 0 (n - 0x040)
    else if 0x048 ≤ n ∧ n ≤ 0x04F then c.pinl.getD 0 (n - 0x048)
    else if n = 0x060 then t.trap.pc
    else if n = 0x061 then t.trap.code
    else if n = 0x062 then t.trap.info
    else if n = 0x063 then t.trap.addr
    else if n = 0x070 then tr.ctlWord
    else if n = 0x071 then tr.pos.setWidth 64
    else if n = 0x072 then tr.idx
    else if n = 0x073 then tr.record.extractLsb' 0 64
    else if n = 0x074 then tr.record.extractLsb' 64 64
    else if n = 0x075 then tr.trig
    else 0

/-- Registers of privilege Trap (05 R127). -/
def sysTrapOnly (n : Nat) : Bool := decide (0x060 ≤ n)
/-- Registers MTS may write (05 R127). -/
def sysWritable (n : Nat) : Bool := n == 0 || n == 0x018 || n == 0x019 || n == 0x070 || n == 0x072 || n == 0x075

/-- Is the running task in trap mode? -/
def State.inTrap (s : State) : Bool :=
  match s.me? with
  | some t => t.trap.mode
  | none => false

/-- MFS (12 R315). -/
def execMfs (d : Reg) (n : BitVec 10) (s : State) : Out :=
  .next (s.whenOn fun s =>
    if sysTrapOnly n.toNat && !s.inTrap then s.raise cSysregAccess 0 n.toNat
    else s.putG 1 d (s.sysRead n.toNat))

/-- MTS (12 R315): FMT is of class 4, the other registers are written for the next bundle. -/
def execMts (n : BitVec 10) (a : Reg) (s : State) : Out :=
  .next (s.whenOn fun s =>
    if (sysTrapOnly n.toNat && !s.inTrap) || !sysWritable n.toNat then s.raise cSysregAccess 0 n.toNat
    else if n = 0 then s.putWrite 4 .fmt (BitVec.allOnes 64) (.word (fmtStored (s.getG a)))
    else s.onCur fun c => { c with sysWrites := c.sysWrites ++ [(n.toNat, s.getG a)] })

/-- TRCCTL written by a task of a context (05 R157): another context's write clears the buffer; FROZEN is W1C. -/
def Trace.setCtl (t : Trace) (ctx : Nat) (w : Word) : Trace :=
  let t1 := if t.ctx == some ctx then t else { t with recs := [], pos := 0 }
  { t1 with
    ctl := w.setWidth 21 &&& ~~~(2#21)
    frozen := t.frozen && !w.getLsbD 1
    post := if t.ctx == some ctx then t.post else none
    ctx := some ctx }

/-- An MTS write takes effect for the task on its core (05 R127, R128, R157). -/
def State.sysWrite (s : State) (t : Task) (core : Nat) (n : Nat) (w : Word) : State :=
  if n = 0x018 then s.modTask t.tid fun t => { t with r := { t.r with buf := w.setWidth 8 } }
  else if n = 0x019 then s.modTask t.tid fun t => { t with r := { t.r with dbg := w.setWidth 2 } }
  else if n = 0x070 then s.modCore core fun c => { c with trace := c.trace.setCtl t.ctx w }
  else if n = 0x072 then s.modCore core fun c => { c with trace := { c.trace with idx := w } }
  else if n = 0x075 then s.modCore core fun c => { c with trace := { c.trace with trig := w } }
  else s

/-! ## Features and FMT (03 R83, 12 R316, R317) -/

/-- Scratchpad size in 256 KiB units (03 R83). -/
def scratchUnits (split : Nat) : Nat := scratchBytes split / 0x40000

/-- The active hub's registers. -/
def State.hub (s : State) (h : Nat) : Hub := s.fabric.hubs.getD {} h

/-- A feature word (03 R83). -/
def State.featureWord (s : State) (w : Nat) : Word :=
  if w = 0 then
    BitVec.ofNat 64 (3 + 0x1FF00 + (if s.cxlBelow 4 = 0 then 0 else 2 ^ 17) +
      (if s.fabric.uet.any (·.2) then 2 ^ 18 else 0))
  else if w = 1 then
    BitVec.ofNat 64 (4 + 24 * 2 ^ 8 + 8 * 2 ^ 16 + 4 * 2 ^ 20 + scratchUnits s.cores.spSplit * 2 ^ 24)
  else if w = 2 then
    let h := s.hub (s.host.activeHub.getD 4)
    BitVec.ofNat 64 (h.chip.toNat + (h.domain.toNat + 1) * 2 ^ 12 + s.package.capGib * 2 ^ 22)
  else 0

/-- FEAT. -/
def execFeat (d : Reg) (w : BitVec 5) (s : State) : Out :=
  .next (s.whenOn fun s => s.putG 1 d (s.featureWord w.toNat))

/-- SETFMT, class 4 (12 R317). -/
def execSetfmt (a : Reg) (s : State) : Out :=
  .next (s.whenOn fun s => s.putWrite 4 .fmt (BitVec.allOnes 64) (.word (fmtStored (s.getG a))))

/-- SETFMTI, class 4 (12 R317). -/
def execSetfmti (v : BitVec 14) (s : State) : Out :=
  .next (s.whenOn fun s => s.putWrite 4 .fmt (BitVec.allOnes 64) (.word (fmtStored (v.setWidth 64))))

/-! ## Marks, yields and END (12 R318, R319) -/

/-- MARK makes the bundle a marked point. -/
def execMark (s : State) : Out := .next (s.whenOn fun s => s.onCur fun c => { c with mark := true })

/-- YIELD asks for a cooperative save at a yield point (04 R110). -/
def execYield (s : State) : Out := .next (s.whenOn fun s => s.onCur fun c => { c with yieldReq := true })

/-- The conditions of 12 R319 for an END bundle of a task. -/
def State.endReady (s : State) (tid : Word) : Bool :=
  !s.remoteBusy tid && !(s.mem.ivQueue.any (·.tid == tid))

/-- The other tasks that issue the open bundle: the rest of a group in lock-step (04 R115). -/
def State.curOthers (s : State) : List Word :=
  match s.cur with
  | some c => c.members.filter (· != c.tid)
  | none => []

/-- END: not ready until the conditions hold, in lock-step for every member; the wait holds the sequencer and may be
evicted (04 R109). -/
def execEndTask (s : State) : Out :=
  .next (s.whenOn fun s =>
    if s.endReady s.curTid && s.curOthers.all s.endReady then s.onCur fun c => { c with ending := true }
    else
      match s.me? with
      | some t =>
        let core := s.curCore
        let sq := t.sq.getD 0
        if (s.seq core sq).waitAt.isSome then s.hold
        else (s.hold.modSeq core sq fun q => { q with waitAt := some s.cycle }).post 2048 .waitEviction (.task t.tid)
      | none => s)

/-! ## Traps (12 R320, R321) -/

/-- TRAP raises TRAP_SW. -/
def execTrap (i : BitVec 15) (s : State) : Out := .next (s.whenOn fun s => s.raise cTrapSw 0 i.toNat)

/-- TRAPRET resumes at TRAPPC; outside trap mode PRIVILEGE. -/
def execTrapret (s : State) : Out :=
  .next (s.whenOn fun s =>
    match s.me? with
    | some t =>
      if t.trap.mode then s.onCur fun c => { c with ret := some (t.trap.pc.setWidth 57) } else s.raise cPrivilege 0 0
    | none => s)

/-- TRAPRETG resumes at the address in Ga. -/
def execTrapretg (a : Reg) (s : State) : Out :=
  .next (s.whenOn fun s =>
    if s.inTrap then s.onCur fun c => { c with ret := some (jumpAddr (s.getG a)) } else s.raise cPrivilege 0 0)

/-- TRAPRST restarts the task. -/
def execTraprst (s : State) : Out :=
  .next (s.whenOn fun s => if s.inTrap then s.onCur fun c => { c with rst := true } else s.raise cPrivilege 0 0)

/-! ## COMMIT and CLRFEL (12 R322, R323) -/

/-- Is the running task's launch versioned? -/
def State.versioned (s : State) : Bool :=
  match s.curLaunch? with
  | some l => l.vers
  | none => false

/-- COMMIT: without a version it has no effect. -/
def execCommit (s : State) : Out :=
  .next (s.whenOn fun s => if s.versioned then s.onCur fun c => { c with commit := true } else s)

/-- CLRFEL. -/
def execClrfel (s : State) : Out := .next (s.whenOn fun s => s.onCur fun c => { c with clrFel := true })

/-! ## Tandem groups (12 R324, R325) -/

/-- TANDEM: no effect in lock-step or in trap mode. -/
def execTandem (s : State) : Out :=
  .next (s.whenOn fun s =>
    match s.me? with
    | some t => if t.lockstep || t.trap.mode then s else s.onCur fun c => { c with wait := some .tandem }
    | none => s)

/-- DECOUPLE: outside lock-step it has no effect. -/
def execDecouple (s : State) : Out :=
  .next (s.whenOn fun s =>
    match s.me? with
    | some t => if t.lockstep then s.onCur fun c => { c with decouple := true } else s
    | none => s)

/-- REJOIN: no effect in lock-step, or for a task that has never been in a group. -/
def execRejoin (s : State) : Out :=
  .next (s.whenOn fun s =>
    match s.me? with
    | some t => if t.lockstep || t.tandemOf.isNone then s else s.onCur fun c => { c with wait := some .rejoin }
    | none => s)

end Sys2Proof.Machine
end

