-- ==== Sys2Proof/Machine/Access.lean ====
section
/-! DEFINITION. One access of a task: its address checks (14 R355, R356; 05 R138), the bytes it reads, and what the
Invigilator, the counters, the trace and the caches note of it (05 R142, R145, R156, R158; 06 R176). -/

namespace Sys2Proof.Machine

open Sys2Proof

/-! ## Checks (14 R356) -/

/-- A checked piece of an access: lane, virtual address, where it is performed, and the forward-cache entry that sent it
there (02 R46). -/
structure Piece where
  lane : Nat
  va : Nat
  loc : Loc
  fwd : Option FwdEntry := none
  deriving DecidableEq, Repr

/-- Go on with a check's result. -/
def Chk.bind {α β : Type} (r : Chk α) (f : α → Chk β) : Chk β :=
  match r with
  | .ok a => f a
  | .bad c v i => .bad c v i
  | .miss v k e => .miss v k e
  | .resolve v c l => .resolve v c l

/-- An address: base plus offset, modulo 2^57 (14 R359). -/
def eaOf (base off : Word) : Nat := (base + off).toNat % 2 ^ 57

/-- What an access asks of its address: bytes, alignment with its TRAPINFO, kind, and, for an atomic, whether it
exists as a PCIe AtomicOp (14 R371). -/
structure AccReq where
  n : Nat
  align : Nat
  info : Nat
  kind : AccKind
  pcie : Bool := false
  deriving DecidableEq, Repr

/-- The request of a scalar access of `n` bytes (14 R360). -/
def scalarReq (n : Nat) (kind : AccKind) : AccReq := { n := n, align := n, info := n.log2, kind := kind }

/-- The atomic place of the page allows the access (05 R155, 14 R371). -/
def checkPlace (s : State) (q : AccReq) (va : Nat) (loc : Loc) : Chk Loc :=
  if q.kind == .atomic && !placeOk s loc q.pcie then .bad cAtomicPlace va 0 else .ok loc

/-- The checks of one address in the order of 14 R356: alignment, scratch range, translation and place. `rel` is the
scratch-relative form, whose address is an offset into the task's allocation (14 R359, 05 R140). -/
def State.checkOne (s : State) (t : Task) (core : Nat) (rel : Bool) (a lane : Nat) (q : AccReq) : Chk Piece :=
  let (base, size) := scratchRegs t core
  let va := if rel then (base.toNat + a) % 2 ^ 57 else a
  if va % q.align ≠ 0 then .bad cMisaligned va q.info
  else if rel then
    (if size.toNat < a + q.n then .bad cScratchRange va 0
     else .ok { lane := lane, va := va, loc := .sram core (base.toNat % 2 ^ 21 + a) })
  else
    (s.taskAccess t core va q.n q.kind).bind fun loc =>
      (s.viaForward (coreDie core) loc va).bind fun dest =>
        (checkPlace s q va dest).bind fun dest => .ok { lane := lane, va := va, loc := dest, fwd := s.fwdOf (coreDie core) loc }

/-- Check the lanes of a vector form, in ascending order; the first that fails is reported (14 R356). -/
def State.checkLanes (s : State) (t : Task) (core : Nat) (rel : Bool) (q : AccReq) : List (Nat × Nat) → Chk (List Piece)
  | [] => .ok []
  | (lane, a) :: rest =>
    (s.checkOne t core rel a lane q).bind fun p => (s.checkLanes t core rel q rest).bind fun ps => .ok (p :: ps)

/-- The lanes a guard mask enables. -/
def maskLanes (m : Word) : List Nat := (List.range 64).filter fun i => m.getLsbD i

/-! ## Operand ranges of MMAs (05 R138) -/

/-- The 64-byte granules of a location, physical memory below 2^46 and scratchpads above. -/
def Loc.granules (l : Loc) (n : Nat) : List Nat :=
  match l with
  | .phys pa _ _ => linesOf pa n
  | .sram c o => (linesOf (sramKey c o) n).map (2 ^ 46 + ·)
  | .peer _ _ _ => []

/-- Does a store of the core meet an operand range of an MMA in flight on it (05 R138)? -/
def State.rangeHeld (s : State) (core : Nat) (ps : List Piece) (n : Nat) : Bool :=
  (s.core core).mmas.any fun m => ps.any fun p => (p.loc.granules n).any fun g => m.granA.contains g || m.granB.contains g

/-! ## Reading -/

/-- Does a versioned task's store to this address go to a version line: HBM4E and LPDDR (06 R169)? -/
def versionable (pa : Nat) : Bool := decide (pa < 0x80000000000)

/-- Is a line ever placed in L1: cacheable, and no pool page of SYSTEM place (05 R142)? -/
def l1Able (s : State) (pa : Nat) (place : Place) : Bool :=
  isCacheable s pa && !(decide (0x80000000000 ≤ pa) && place == .system)

/-- The bytes of one line's part of physical memory as a core reads them: its L1 copy where it has one, else the home,
which fills L1 where 05 R142 allows. -/
def State.readThroughL1 (s : State) (ctx core pa n : Nat) (place : Place) : List Byte × State :=
  match (if l1Able s pa place then s.l1Line ctx core (pa / 64) else none) with
  | some b => (((beatBytes b).drop (pa % 64)).take n, s)
  | none =>
    if l1Able s pa place then
      let (line, s1) := s.physRead (ctxSlot ctx) (pa / 64 * 64) 64
      ((line.drop (pa % 64)).take n, s1.fillL1 ctx core (pa / 64) (beatOf line))
    else s.physRead (ctxSlot ctx) pa n

/-- Queued commit-queue stores of a versioned task laid over a read, by virtual address (07 R180, 06 R170). -/
def commitOver (q : List CommitOp) (va n : Nat) : List (Option Byte) :=
  (List.range n).map fun i =>
    q.foldl (fun b op =>
      match op with
      | .store pieces _ _ _ =>
        pieces.foldl (fun b (a, _, d) => if a ≤ va + i ∧ va + i < a + d.length then some (d.getD (va + i - a) 0) else b) b
      | .engine _ _ => b) none

/-- Bytes with some of them replaced. -/
def overBytes (bs : List Byte) (own : List (Option Byte)) : List Byte :=
  bs.zipIdx.map fun (b, i) => (own.getD i none).getD b

/-- Does a read of `n` bytes take something of a line from its home beat: the core has no copy of the line in L1, the
task's own stores still to be performed do not write all of it, and its version does not hold all the bytes read
(05 R142, 06 R169, 07 R180)? -/
def State.takesBeat (s : State) (t : Task) (core pa n : Nat) (place : Place) (l : Nat) : Bool :=
  let mine := s.ownStores t.tid
  let held := l1Able s pa place && (s.l1Line t.ctx core l).isSome
  let written := (List.range 64).all fun i => mine.any fun p => p.ops.any fun op =>
    match op.physSpan with
    | some (a, d) => decide (a ≤ l * 64 + i) && decide (l * 64 + i < a + d.length)
    | none => false
  let versioned := (List.range n).all fun i => (pa + i) / 64 != l || (s.versionByte t.tid (pa + i)).isSome
  !held && !written && !versioned

/-- The poisoned line a read of a task consumes (01 R28). -/
def State.poisonTaken (s : State) (t : Task) (core pa n : Nat) (place : Place) : Option Nat :=
  (linesOf pa n).find? fun l =>
    ((s.mem.poison.find? l).isSome || s.hostDown (l * 64)) && s.takesBeat t core pa n place l

/-- The bytes a task reads at a place of this chip: its version first, then its stores still to be performed, over what
L1 or the home holds (07 R180, 06 R169); with the poisoned beat it consumes, whose bytes are unspecified (01 R28). -/
def State.readLocal (s : State) (t : Task) (core : Nat) (va n : Nat) (loc : Loc) :
    List Byte × Option (Nat × Nat) × State :=
  let mine := s.ownStores t.tid
  match loc with
  | .sram c o => (overlaySram mine c o (s.sramRead c o n), none, s)
  | .phys pa place _ =>
    match s.poisonTaken t core pa n place with
    | some l =>
      let (bs, s1) := s.freeBytes n
      (bs, some (l * 64, s.poisonInfo l), s1)
    | none =>
      let (bs, s1) := s.readThroughL1 t.ctx core pa n place
      let bs1 := overlayStores mine pa bs
      let bs2 := bs1.zipIdx.map fun (b, i) => (s.versionByte t.tid (pa + i)).getD b
      (overBytes bs2 (commitOver t.commitQ va n), none, s1)
  | .peer _ _ _ => ([], none, s)

/-! ## What notes an access -/


/-- The sectors of 32 bytes that pieces touch, rising (06 R174). -/
def sectorsOf (ps : List Piece) (n : Nat) : List Nat :=
  (ps.flatMap fun p => (List.range ((p.va + n - 1) / 32 - p.va / 32 + 1)).map (p.va / 32 + ·)).foldl
    (fun l x => insertNat x l) []

/-- The lowest-numbered armed window of a context that holds an address (06 R176). -/
def Ctx.ivWindow (c : Ctx) (va : Nat) : Option Nat :=
  (List.range 16).find? fun i =>
    let w := c.iv.getD {} i
    w.arm && decide (w.base.toNat * 2 ^ 16 ≤ va) && decide (va < w.base.toNat * 2 ^ 16 + w.len.toNat * 2 ^ 16)


/-- The class and place in L2 of a piece; an atomic at a HOME or SYSTEM place leaves no line in L2 (05 R155). -/
def State.noteL2 (s : State) (t : Task) (kind : AccKind) (p : Piece) : State :=
  match p.loc with
  | .phys pa place evf =>
    if kind = .atomic ∧ place ≠ .near then s
    else s.touchL2 t.ctx pa (accessClass (s.ctx t.ctx) p.va evf) (kind != .load)
  | _ => s

/-- What a piece of an access leaves in the caches, in the forward cache it went by, and in the TLB (05 R145, R151; 02
R46). -/
def State.notePiece (s : State) (t : Task) (core : Nat) (kind : AccKind) (p : Piece) : State :=
  ((s.noteL2 t kind p).fwdUse (coreDie core) p.fwd).tlbUse core (s.ctx t.ctx).asid p.va

/-- What an issued access leaves behind: a trace record, a check for the Invigilator, counts in its buffer, and what its
pieces leave (05 R156, R158; 06 R176). `n` is the bytes of each piece. -/
def State.noteAccess (s : State) (t : Task) (core : Nat) (kind : AccKind) (ps : List Piece) (n : Nat)
    (acq rel : Option Scope) : State :=
  match ps with
  | [] => s
  | p :: _ =>
    let s1 := s.traceAccess t.tid p.va (n * ps.length) (kind != .load)
    let watched := (sectorsOf ps n).filter fun x => ((s.ctx t.ctx).ivWindow (x * 32)).isSome
    let s2 := if watched.isEmpty then s1 else
      let acc : IvAccess :=
        { tid := t.tid, ctx := t.ctx, sectors := watched, coord := coordWord core (t.sq.getD 0), kind := kind
          acq := acq, rel := rel }
      (s1.onMem fun m => { m with ivQueue := m.ivQueue ++ [acc] }).post 0 .invigilatorCheck (.iv acc)
    let s3 := s2.countBytes t.ctx t.r.buf.toNat (n * ps.length)
    ps.foldl (fun s p => s.notePiece t core kind p) s3

/-! ## Interlocked results -/

/-- Enter an interlocked write of the running bundle (05 R132). -/
def State.putInfl (s : State) (e : Infl) : State := s.onCur fun c => { c with inter := c.inter ++ [{ e with slot := c.slot }] }

/-- An interlocked result whose value is known, arriving later (05 R132). -/
def State.putKnown (s : State) (e : Infl) : State :=
  let (id, s1) := s.fresh
  (s1.putInfl { e with id := id }).postFree .loadDataArrive (.num id)

/-- The data of a load of this chip, with the poisoned beat it consumed. -/
def State.putLoad (s : State) (t : Task) (reg : RegId) (mask : Word) (v : RegVal) (poison : Option (Nat × Nat)) : State :=
  s.putKnown { id := 0, reg := reg, mask := mask, val := v, ord := 0, load := true, buf := t.r.buf, poison := poison }

/-- An interlocked result that is no load's. -/
def State.putResult (s : State) (reg : RegId) (mask : Word) (v : RegVal) : State :=
  s.putKnown { id := 0, reg := reg, mask := mask, val := v, ord := 0 }

/-- TAG of a remote access: bits [17:2] of the bundle's address (14 R358). -/
def State.tagOf (s : State) : BitVec 16 := s.bundlePc.extractLsb' 2 16

/-- SRCUNIT of a task on its core. -/
def taskUnit (t : Task) (core : Nat) : BitVec 16 := seqUnit core (t.sq.getD 0)

end Sys2Proof.Machine
end

