-- ==== Sys2Proof/Machine/Fork.lean ====
section
/-! DEFINITION. Taking an engine command: the command word and its checks (11 R282, R284), the engine that carries it
out (02 R45, R53; 15 R412, R416), and the fork, which reads the parameter block (15 R406; 07 R198). -/

namespace Sys2Proof.Machine

open Sys2Proof

/-- EOP of a command word (11 R282). -/
def cmdEop (c : CmdWord) : Nat := c.toNat % 256
/-- Window offset of the parameter block. -/
def cmdBlock (c : CmdWord) : Nat := c.toNat / 2 ^ 8 % 2 ^ 25 * 64
/-- Window offset of the roll. -/
def cmdRoll (c : CmdWord) : Nat := c.toNat / 2 ^ 33 % 2 ^ 27 * 16
/-- TAG of the command's remote accesses: bits [15:0] of PBLK (15 R406). -/
def cmdTag (c : CmdWord) : BitVec 16 := BitVec.ofNat 16 (c.toNat / 2 ^ 8)

/-- The command word a core builds from a slot (11 R284). -/
def cmdWord (eop : Nat) (block roll : Nat) : CmdWord :=
  BitVec.ofNat 64 (eop + (block - scratchBase) % 2 ^ 31 / 64 * 2 ^ 8 + (roll - scratchBase) % 2 ^ 31 / 16 * 2 ^ 33)

/-- Bytes of an operation's parameter block (15 R405). -/
def blockBytes (eop : Nat) : Nat := if [0x08, 0x09, 0x0A, 0x0B, 0x20].contains eop then 128 else 64

/-- A window offset as core and offset of a scratchpad (05 R141). -/
def windowPlace (off : Nat) : Nat × Nat := (scratchCore (scratchBase + off), off % 2 ^ 21)

/-- Does a range lie wholly in one allocation of a context on its core? -/
def State.inOneAlloc (s : State) (ctx core off n : Nat) : Bool :=
  (s.core core).allocs.any fun a => a.2.2.2 == ctx && decide (a.1 ≤ off) && decide (off + n ≤ a.1 + a.2.1)

/-- Do `n` bytes at a window offset lie in one allocation of a context? A cluster number above 23 names no core (05 R141). -/
def State.windowAlloc (s : State) (ctx off n : Nat) : Bool :=
  let (c, o) := windowPlace off
  decide (scratchCluster (scratchBase + off) < 24) && s.inOneAlloc ctx c o n

/-- Read bytes at a window offset. -/
def State.windowRead (s : State) (off n : Nat) : List Byte :=
  let (c, o) := windowPlace off
  s.sramRead c o n

/-- Write bytes at a window offset. -/
def State.windowWrite (s : State) (off : Nat) (bs : List Byte) : State :=
  let (c, o) := windowPlace off
  s.sramWrite c o bs

/-- The engine that carries out an operation a core issues: die code and engine number (02 R45, R53; 15 R412, R416).
Which of a die's four copy engines takes a copy is open. -/
def State.engineFor (s : State) (die eop : Nat) (block : List Byte) : Nat × Nat × State :=
  if eop = 0x08 ∨ eop = 0x09 then (die, 4, s)
  else if eop = 0x0A then (s.handlingHub die, 0, s)
  else if eop = 0x0B then (s.handlingHub die, 1, s)
  else if eop = 0x10 ∨ eop = 0x11 ∨ eop = 0x12 then (fieldAt block 0x10 1 / 64, 4, s)
  else
    let (k, s1) := s.choose 4
    (die, k, s1)

/-- Bulk operations a core has in flight (11 R284). -/
def State.bulkCount (s : State) (core : Nat) : Nat := s.engines.ops.countP fun o => o.core == some core && !o.ended

/-- An engine takes a command: the block is read now, the work is done when it completes. -/
def State.forkOp (s : State) (op : EngineOp) : State :=
  let (id, s1) := s.fresh
  (s1.onEngines fun e => { e with ops := e.ops ++ [{ op with id := id }] }).postFree .engineComplete (.num id)

/-- The fork of a core's command: everything the task has issued on this chip is performed, and the release of the
command's scope is counted; an operation that reaches a peer also waits for the acknowledgements of the task's remote
stores (07 R198). -/
def State.forkCore (s : State) (tid : Word) (ctx core eop : Nat) (cmd : CmdWord) : State :=
  let s1 := s.releaseBy tid core .pkg
  let out := (s.fabric.remotes.filter fun r => r.use.tid? == some tid && (r.pkt.op == 0x03 || r.pkt.op == 0x05)).map (·.id)
  let block := s1.windowRead (cmdBlock cmd) (blockBytes eop)
  let (die, unit, s2) := s1.engineFor (coreDie core) eop block
  s2.forkOp
    { id := 0, eop := eop, ctx := ctx, tid := some tid, core := some core, die := die, unit := unit
      pblk := cmdBlock cmd, roll := cmdRoll cmd, block := block, cmd := cmd, after := out
      clock := match s2.task? tid with
        | some t => if die = coreDie core then [] else s2.stampOf t core
        | none => [] }

/-- The checks of the two addresses of an engine slot (11 R284). -/
def State.checkEngine (s : State) (ctx eop : Nat) (block roll : Nat) : Chk Unit :=
  if block % 64 ≠ 0 then .bad cMisaligned block 6
  else if roll % 16 ≠ 0 then .bad cMisaligned roll 4
  else if !inScratch block || decide (24 ≤ scratchCluster block) ||
      !s.inOneAlloc ctx (scratchCore block) (block % 2 ^ 21) (blockBytes eop) then .bad cScratchRange block 0
  else if !inScratch roll || decide (24 ≤ scratchCluster roll) ||
      !s.inOneAlloc ctx (scratchCore roll) (roll % 2 ^ 21) 16 then .bad cScratchRange roll 0
  else .ok ()

/-- A class 28 slot (11 R284): its checks, the limit of 64 bulk operations, then the command forks, or enters the
commit queue of a versioned task (06 R170). -/
def State.engineSlot (s : State) (eop : Nat) (a b : Reg) : State :=
  s.whenOn fun s =>
    match s.me? with
    | none => s
    | some t =>
      let block := (s.getG a).toNat
      let roll := (s.getG b).toNat
      s.onChk (s.checkEngine t.ctx eop block roll) fun _ =>
        let cmd := cmdWord eop block roll
        if s.versioned then
          (if 64 ≤ t.commitQ.length then s.raise cVersionFull 0 1
           else s.modTask t.tid fun t => { t with commitQ := t.commitQ ++ [.engine cmd eop] })
        else if 64 ≤ s.bulkCount s.curCore then s.hold
        else s.onPerformed t.tid (fun s => s.forkCore t.tid t.ctx s.curCore eop cmd) s.hold

/-- CPY (15 R408). -/
def execCpy (a b : Reg) (s : State) : Out := .next (s.engineSlot 0x01 a b)
/-- CPYM (15 R410). -/
def execCpym (a b : Reg) (s : State) : Out := .next (s.engineSlot 0x02 a b)
/-- IRR (15 R411). -/
def execIrr (a b : Reg) (s : State) : Out := .next (s.engineSlot 0x03 a b)
/-- EMBG (15 R412). -/
def execEmbg (a b : Reg) (s : State) : Out := .next (s.engineSlot 0x08 a b)
/-- EMBU (15 R412). -/
def execEmbu (a b : Reg) (s : State) : Out := .next (s.engineSlot 0x09 a b)
/-- A2A (15 R413). -/
def execA2a (a b : Reg) (s : State) : Out := .next (s.engineSlot 0x0A a b)
/-- COLL (15 R414). -/
def execColl (a b : Reg) (s : State) : Out := .next (s.engineSlot 0x0B a b)
/-- HCFG (15 R416). -/
def execHcfg (a b : Reg) (s : State) : Out := .next (s.engineSlot 0x10 a b)
/-- HKST (15 R416). -/
def execHkst (a b : Reg) (s : State) : Out := .next (s.engineSlot 0x11 a b)
/-- HGTH (15 R416). -/
def execHgth (a b : Reg) (s : State) : Out := .next (s.engineSlot 0x12 a b)
/-- TTLOAD (15 R417). -/
def execTtload (a b : Reg) (s : State) : Out := .next (s.engineSlot 0x18 a b)

end Sys2Proof.Machine
end

