-- ==== Sys2Proof/Machine/Commit.lean ====
section
/-! DEFINITION. Remote and held stores, and the commit sequence of a versioned task (06 R169 to R172; 14 R382 to
R384). -/

namespace Sys2Proof.Machine

open Sys2Proof

/-- The place of a checked piece. -/
def Loc.place : Loc → StorePlace
  | .sram c o => .sram c o
  | .phys pa _ _ => .phys pa
  | .peer chip fctx _ => .peer chip fctx

/-- A remote write packet (02 R35, R36). -/
def writePkt (chip : BitVec 12) (fctx : BitVec 16) (va : Nat) (bs : List Byte) (tag : BitVec 16) : Packet :=
  { op := 0x03, dst := chip, fctx := fctx, vaddr := BitVec.ofNat 57 va, size := sizeCode bs.length, tag := tag
    payload := payloadOf bs }

/-- The slips a write carries (02 R35). -/
def Packet.carrySlips (p : Packet) (slips : List (BitVec 32)) : Packet :=
  { p with slipn := BitVec.ofNat 2 slips.length, slip0 := slips.getD 0 0, slip1 := slips.getD 1 0 }

/-- The hub whose hold queue takes a slip-carrying write to this chip (14 R384). -/
def State.holdHub (s : State) : Nat := s.host.activeHub.getD 4

/-- Send a store that carries slips (14 R384): to a peer as a write with SLIPN, to any other page into the hold queue,
as if it had arrived from a peer. -/
def State.sendWithSlips (s : State) (t : Task) (core : Nat) (va : Nat) (place : StorePlace) (bs : List Byte)
    (slips : List (BitVec 32)) (tag : BitVec 16) : State :=
  match place with
  | .peer chip fctx =>
    s.remoteSend (coreDie core) (taskUnit t core) t.ctx (Packet.carrySlips (writePkt chip fctx va bs tag) slips)
      (.store t.tid)
  | p =>
    let hub := s.holdHub
    s.remoteSendVia hub (taskUnit t core) t.ctx
      (Packet.carrySlips (writePkt (s.ownChip hub) 0 va bs tag) slips) (.localHold t.tid p)

/-- Send a store that asks for a slip to a peer (14 R383): a slip-table entry is taken and its slip delivered. -/
def State.sendWantSlip (s : State) (t : Task) (core : Nat) (va : Nat) (chip : BitVec 12) (fctx : BitVec 16)
    (bs : List Byte) (tag : BitVec 16) (entry slipTo : Nat) : State :=
  let s1 := s.slipTake entry
  let tok := s1.slipToken (slipHub entry) entry
  let s2 := s1.remoteSend (coreDie core) (taskUnit t core) t.ctx
    { writePkt chip fctx va bs tag with wantslip := true, slip0 := tok } (.store t.tid)
  s2.landFor t.tid slipTo (.word (tok.setWidth 64))

/-- Perform a piece of a queued store, or send it (06 R172). -/
def State.sendPiece (s : State) (t : Task) (core : Nat) (tag : BitVec 16) (x : Nat × StorePlace × List Byte) : State :=
  match x.2.1 with
  | .peer chip fctx =>
    s.remoteSend (coreDie core) (taskUnit t core) t.ctx (writePkt chip fctx x.1 x.2.2 tag) (.store t.tid)
  | p =>
    match p.memOp x.2.2 with
    | some op => s.performOp t.ctx core op
    | none => s

/-- Send one entry of the commit queue (06 R172). -/
def State.sendQueued (s : State) (t : Task) (core : Nat) (op : CommitOp) : State :=
  match op with
  | .engine cmd eop => s.forkCore t.tid t.ctx core eop cmd
  | .store pieces slips slipTo tag =>
    if slips ≠ [] then
      pieces.foldl (fun s x => s.sendWithSlips t core x.1 x.2.1 x.2.2 slips tag) s
    else
      match slipTo, pieces with
      | some k, [(va, .peer chip fctx, bs)] =>
        match s.slipFree? (coreDie core) with
        | some e => s.sendWantSlip t core va chip fctx bs tag e k
        | none => s
      | some k, _ => (pieces.foldl (fun s x => s.sendPiece t core tag x) s).landFor t.tid k (.word nullSlip)
      | none, _ => pieces.foldl (fun s x => s.sendPiece t core tag x) s

/-- Does an entry need a slip-table entry when it is sent? -/
def CommitOp.needsSlip : CommitOp → Bool
  | .store [(_, .peer _ _, _)] [] (some _) _ => true
  | _ => false

/-- The commit sequence may run: enough slip-table entries are FREE for the queued stores that ask for one
(02 R51). -/
def State.commitReady (s : State) (t : Task) (core : Nat) : Bool :=
  let need := t.commitQ.countP CommitOp.needsSlip
  need == 0 ||
    decide (need ≤ ((List.range 2048).map (s.slipHalf (coreDie core) + ·)).countP fun i => (s.slipEntry i).phase == .free)

/-- The bytes of a task's version update the copies in its core's L1 (05 R142, 07 R180). -/
def State.versionToL1 (s : State) (tid : Word) (core : Nat) : State :=
  (s.mem.versions.filter (·.tid == tid)).foldl (fun s v =>
    (List.range 64).foldl (fun s i =>
      if v.mask.getLsbD i then s.storeL1 v.ctx core (v.line * 64 + i) [v.data.extractLsb' (8 * i) 8] else s) s) s

/-- The commit sequence (06 R172): issued stores are performed, the version becomes visible as one release at PKG
scope, and the commit queue is sent in order. -/
def State.commitSeq (s : State) (tid : Word) (core : Nat) : State :=
  match s.task? tid with
  | none => s
  | some t =>
    let s1 := ((s.flushStores tid).versionToL1 tid core).versionCommit tid
    let s2 := (s1.countRelease (coreDie core) tid).modTask tid fun t => { t with commitQ := [] }
    t.commitQ.foldl (fun s op => s.sendQueued t core op) s2

/-- Run the commit sequence of a versioned running task before something at PKG or FABRIC scope (06 R171), then go
on; the bundle is held while no slip-table entry is free for it. -/
def State.afterCommit (s : State) (need : Bool) (f : State → State) : State :=
  if need && s.versioned then
    match s.me? with
    | some t =>
      if s.commitReady t s.curCore && !(s.flushStores t.tid).storesLeft t.tid then f (s.commitSeq t.tid s.curCore)
      else s.hold
    | none => s
  else f s

/-- PKG or FABRIC scope. -/
def scopeWide : Scope → Bool
  | .pkg | .fabric => true
  | _ => false

end Sys2Proof.Machine
end

