-- ==== Sys2Proof/Machine/Scalar.lean ====
section
/-! DEFINITION. The scalar classes 1 to 5 (12 R293 to R306). -/

namespace Sys2Proof.Machine

open Sys2Proof

/-! ## Shared forms -/

/-- Gd := f Ga Gb with a latency class, when the guard enables the slot (12 R293, R294). -/
def State.aluRRR (s : State) (lat : Nat) (d a b : Reg) (f : Word → Word → Word) : State :=
  s.whenOn fun s => s.putG lat d (f (s.getG a) (s.getG b))

/-- Gd := f Ga imm, class 1 (12 R298). -/
def State.aluRRI (s : State) (d a : Reg) (v : Word) (f : Word → Word → Word) : State :=
  s.whenOn fun s => s.putG 1 d (f (s.getG a) v)

/-- Gd := f Ga, class 1 (12 R303). -/
def State.aluRR (s : State) (d a : Reg) (f : Word → Word) : State :=
  s.whenOn fun s => s.putG 1 d (f (s.getG a))

/-- All ones or zero (12 R304). -/
def kOfBool (b : Bool) : Word := if b then BitVec.allOnes 64 else 0

/-- A register compare into a K register (12 R304). -/
def State.cmpRRR (s : State) (d : KReg) (a b : Reg) (f : Word → Word → Bool) : State :=
  s.whenOn fun s => s.putK 1 d (kOfBool (f (s.getG a) (s.getG b)))

/-- An immediate compare into a K register (12 R304). -/
def State.cmpRRI (s : State) (d : KReg) (a : Reg) (i : Imm 5) (f : Word → Word → Bool) : State :=
  s.whenOn fun s => s.putK 1 d (kOfBool (f (s.getG a) (immS i)))

/-- A predicate operation of two K registers (12 R305). -/
def State.kRRR (s : State) (d a b : KReg) (f : Word → Word → Word) : State :=
  s.whenOn fun s => s.putK 1 d (f (s.getK a) (s.getK b))

/-! ## Class 1 (12 R297) -/

/-- The shift amount in bits [5:0]. -/
def amount (w : Word) : Nat := w.toNat % 64

/-- The smaller as signed. -/
def minS (a b : Word) : Word := if a.slt b then a else b
/-- The larger as signed. -/
def maxS (a b : Word) : Word := if a.slt b then b else a
/-- The smaller as unsigned. -/
def minU (a b : Word) : Word := if a.ult b then a else b
/-- The larger as unsigned. -/
def maxU (a b : Word) : Word := if a.ult b then b else a

def execAdd (d a b : Reg) (s : State) : Out := .next (s.aluRRR 1 d a b fun x y => x + y)
def execSub (d a b : Reg) (s : State) : Out := .next (s.aluRRR 1 d a b fun x y => x - y)
def execAnd (d a b : Reg) (s : State) : Out := .next (s.aluRRR 1 d a b fun x y => x &&& y)
def execOr (d a b : Reg) (s : State) : Out := .next (s.aluRRR 1 d a b fun x y => x ||| y)
def execXor (d a b : Reg) (s : State) : Out := .next (s.aluRRR 1 d a b fun x y => x ^^^ y)
def execAndn (d a b : Reg) (s : State) : Out := .next (s.aluRRR 1 d a b fun x y => x &&& ~~~y)
def execShl (d a b : Reg) (s : State) : Out := .next (s.aluRRR 1 d a b fun x y => x <<< amount y)
def execShr (d a b : Reg) (s : State) : Out := .next (s.aluRRR 1 d a b fun x y => x >>> amount y)
def execSar (d a b : Reg) (s : State) : Out := .next (s.aluRRR 1 d a b fun x y => x.sshiftRight (amount y))
def execRor (d a b : Reg) (s : State) : Out := .next (s.aluRRR 1 d a b fun x y => x.rotateRight (amount y))
def execMinS64 (d a b : Reg) (s : State) : Out := .next (s.aluRRR 1 d a b minS)
def execMaxS64 (d a b : Reg) (s : State) : Out := .next (s.aluRRR 1 d a b maxS)
def execMinZ64 (d a b : Reg) (s : State) : Out := .next (s.aluRRR 1 d a b minU)
def execMaxZ64 (d a b : Reg) (s : State) : Out := .next (s.aluRRR 1 d a b maxU)
def execAddx2 (d a b : Reg) (s : State) : Out := .next (s.aluRRR 1 d a b fun x y => x + 2 * y)
def execAddx4 (d a b : Reg) (s : State) : Out := .next (s.aluRRR 1 d a b fun x y => x + 4 * y)
def execAddx8 (d a b : Reg) (s : State) : Out := .next (s.aluRRR 1 d a b fun x y => x + 8 * y)

/-! ## Class 2 (12 R298 to R300) -/

def execAddi (d a : Reg) (i : Imm 5) (s : State) : Out := .next (s.aluRRI d a (immS i) fun x y => x + y)
def execAndi (d a : Reg) (i : Imm 5) (s : State) : Out := .next (s.aluRRI d a (immS i) fun x y => x &&& y)
def execOri (d a : Reg) (i : Imm 5) (s : State) : Out := .next (s.aluRRI d a (immS i) fun x y => x ||| y)
def execXori (d a : Reg) (i : Imm 5) (s : State) : Out := .next (s.aluRRI d a (immS i) fun x y => x ^^^ y)
def execShli (d a : Reg) (i : Imm 5) (s : State) : Out := .next (s.aluRRI d a (immU i) fun x y => x <<< amount y)
def execShri (d a : Reg) (i : Imm 5) (s : State) : Out := .next (s.aluRRI d a (immU i) fun x y => x >>> amount y)
def execSari (d a : Reg) (i : Imm 5) (s : State) : Out :=
  .next (s.aluRRI d a (immU i) fun x y => x.sshiftRight (amount y))
def execRori (d a : Reg) (i : Imm 5) (s : State) : Out :=
  .next (s.aluRRI d a (immU i) fun x y => x.rotateRight (amount y))

/-- MOVI (12 R299). -/
def execMovi (d : Reg) (i : Imm 5) (s : State) : Out := .next (s.whenOn fun s => s.putG 1 d (immS i))

/-- ADPC: the bundle's address plus the signed byte offset, modulo 2^57 (12 R300). -/
def execAdpc (d : Reg) (i : Imm 5) (s : State) : Out :=
  .next (s.whenOn fun s => s.putG 1 d ((s.bundlePc + (immS i).setWidth 57).setWidth 64))

/-! ## Class 3 (12 R301 to R303) -/

/-- Bits [127:64] of the exact signed product. -/
def mulhS (a b : Word) : Word := BitVec.ofInt 64 (a.toInt * b.toInt / 2 ^ 64)
/-- Bits [127:64] of the exact unsigned product. -/
def mulhU (a b : Word) : Word := BitVec.ofNat 64 (a.toNat * b.toNat / 2 ^ 64)

def execMul (d a b : Reg) (s : State) : Out := .next (s.aluRRR 3 d a b fun x y => x * y)
def execMulhS64 (d a b : Reg) (s : State) : Out := .next (s.aluRRR 3 d a b mulhS)
def execMulhZ64 (d a b : Reg) (s : State) : Out := .next (s.aluRRR 3 d a b mulhU)

/-- A division of class 8: a zero divisor gives `z Ga` and a divide-by-zero event with LANE 0 (12 R301). -/
def State.divide (s : State) (d a b : Reg) (z : Word → Word) (f : Word → Word → Word) : State :=
  s.whenOn fun s =>
    let x := s.getG a
    let y := s.getG b
    if y = 0 then (s.putG 8 d (z x)).arith 0 [evDivZero] else s.putG 8 d (f x y)

/-- Signed quotient towards zero; -2^63 / -1 is -2^63 (12 R301). -/
def quotS (a b : Word) : Word := BitVec.ofInt 64 (a.toInt.tdiv b.toInt)
/-- Signed remainder with the dividend's sign (12 R301). -/
def remS (a b : Word) : Word := BitVec.ofInt 64 (a.toInt.tmod b.toInt)

def execDivS64 (d a b : Reg) (s : State) : Out := .next (s.divide d a b (fun _ => BitVec.allOnes 64) quotS)
def execDivZ64 (d a b : Reg) (s : State) : Out :=
  .next (s.divide d a b (fun _ => BitVec.allOnes 64) fun x y => x / y)
def execRemS64 (d a b : Reg) (s : State) : Out := .next (s.divide d a b (fun x => x) remS)
def execRemZ64 (d a b : Reg) (s : State) : Out := .next (s.divide d a b (fun x => x) fun x y => x % y)

/-- POS of a bit-field operand (12 R302). -/
def bfPos (w : Word) : Nat := w.toNat % 64
/-- E, the bits the field really has (12 R302). -/
def bfLen (w : Word) : Nat := min (min (w.toNat / 256 % 128) 64) (64 - bfPos w)
/-- A mask of `n` ones. -/
def onesMask (n : Nat) : Word := BitVec.ofNat 64 (2 ^ n - 1)

/-- BFX.z64 (12 R302). -/
def bfxZ (a b : Word) : Word := (a >>> bfPos b) &&& onesMask (bfLen b)
/-- BFX.s64 (12 R302). -/
def bfxS (a b : Word) : Word :=
  if bfLen b = 0 then 0 else ((a >>> bfPos b) <<< (64 - bfLen b)).sshiftRight (64 - bfLen b)
/-- BFI (12 R302): the low bits of `a` into the field of `d`. -/
def bfi (d a b : Word) : Word :=
  let m := onesMask (bfLen b) <<< bfPos b
  (d &&& ~~~m) ||| ((a <<< bfPos b) &&& m)

def execBfxZ64 (d a b : Reg) (s : State) : Out := .next (s.aluRRR 1 d a b bfxZ)
def execBfxS64 (d a b : Reg) (s : State) : Out := .next (s.aluRRR 1 d a b bfxS)
def execBfi (d a b : Reg) (s : State) : Out := .next (s.aluRRR 1 d a b fun x y => bfi (s.getG d) x y)

/-- Leading zeros of the low `n` bits. -/
def clzGo (w : Word) : Nat → Nat
  | 0 => 0
  | n + 1 => if w.getLsbD n then 0 else 1 + clzGo w n
/-- Trailing zeros from bit `i`, looking at `n` bits. -/
def ctzGo (w : Word) (i : Nat) : Nat → Nat
  | 0 => 0
  | n + 1 => if w.getLsbD i then 0 else 1 + ctzGo w (i + 1) n
/-- Set bits among the low `n`. -/
def popGo (w : Word) : Nat → Nat
  | 0 => 0
  | n + 1 => (if w.getLsbD n then 1 else 0) + popGo w n
/-- Byte i moved to byte 7 - i (12 R303). -/
def bswap (w : Word) : Word :=
  w.extractLsb' 0 8 ++ w.extractLsb' 8 8 ++ w.extractLsb' 16 8 ++ w.extractLsb' 24 8 ++
  w.extractLsb' 32 8 ++ w.extractLsb' 40 8 ++ w.extractLsb' 48 8 ++ w.extractLsb' 56 8

def execClz (d a : Reg) (s : State) : Out := .next (s.aluRR d a fun x => BitVec.ofNat 64 (clzGo x 64))
def execCtz (d a : Reg) (s : State) : Out := .next (s.aluRR d a fun x => BitVec.ofNat 64 (ctzGo x 0 64))
def execPopc (d a : Reg) (s : State) : Out := .next (s.aluRR d a fun x => BitVec.ofNat 64 (popGo x 64))
def execBrev (d a : Reg) (s : State) : Out := .next (s.aluRR d a fun x => x.reverse)
def execBswap (d a : Reg) (s : State) : Out := .next (s.aluRR d a bswap)

/-! ## Class 4: compares and predicate logic (12 R304, R305) -/

def execCmpeq (d : KReg) (a b : Reg) (s : State) : Out := .next (s.cmpRRR d a b fun x y => x == y)
def execCmpne (d : KReg) (a b : Reg) (s : State) : Out := .next (s.cmpRRR d a b fun x y => x != y)
def execCmpltS64 (d : KReg) (a b : Reg) (s : State) : Out := .next (s.cmpRRR d a b fun x y => x.slt y)
def execCmpleS64 (d : KReg) (a b : Reg) (s : State) : Out := .next (s.cmpRRR d a b fun x y => x.sle y)
def execCmpltZ64 (d : KReg) (a b : Reg) (s : State) : Out := .next (s.cmpRRR d a b fun x y => x.ult y)
def execCmpleZ64 (d : KReg) (a b : Reg) (s : State) : Out := .next (s.cmpRRR d a b fun x y => x.ule y)
def execCmpeqi (d : KReg) (a : Reg) (i : Imm 5) (s : State) : Out := .next (s.cmpRRI d a i fun x y => x == y)
def execCmpnei (d : KReg) (a : Reg) (i : Imm 5) (s : State) : Out := .next (s.cmpRRI d a i fun x y => x != y)
def execCmpltiS64 (d : KReg) (a : Reg) (i : Imm 5) (s : State) : Out := .next (s.cmpRRI d a i fun x y => x.slt y)
def execCmpleiS64 (d : KReg) (a : Reg) (i : Imm 5) (s : State) : Out := .next (s.cmpRRI d a i fun x y => x.sle y)
def execCmpltiZ64 (d : KReg) (a : Reg) (i : Imm 5) (s : State) : Out := .next (s.cmpRRI d a i fun x y => x.ult y)
def execCmpleiZ64 (d : KReg) (a : Reg) (i : Imm 5) (s : State) : Out := .next (s.cmpRRI d a i fun x y => x.ule y)

def execKand (d a b : KReg) (s : State) : Out := .next (s.kRRR d a b fun x y => x &&& y)
def execKor (d a b : KReg) (s : State) : Out := .next (s.kRRR d a b fun x y => x ||| y)
def execKxor (d a b : KReg) (s : State) : Out := .next (s.kRRR d a b fun x y => x ^^^ y)
def execKandn (d a b : KReg) (s : State) : Out := .next (s.kRRR d a b fun x y => x &&& ~~~y)
def execKnot (d a : KReg) (s : State) : Out := .next (s.whenOn fun s => s.putK 1 d (~~~(s.getK a)))
def execKfromg (d : KReg) (a : Reg) (s : State) : Out := .next (s.whenOn fun s => s.putK 1 d (s.getG a))
def execGfromk (d : Reg) (a : KReg) (s : State) : Out := .next (s.whenOn fun s => s.putG 1 d (s.getK a))

/-! ## Class 5: conversions (12 R306) -/

/-- The rounding mode of a rounding code: RC 0 takes FMT.RM (11 R272, 12 R306). -/
def rcMode (r : Rc) (fmt : Word) : RMode :=
  match r with
  | .fmt => RMode.ofCode (fmtRm fmt)
  | .rne => .rne
  | .rtz => .rtz
  | .rup => .rup
  | .rdn => .rdn
  | .rna => .rna

/-- A scalar conversion, latency class 4, events at LANE 0 (12 R306). -/
def State.scalarCvt (s : State) (d a : Reg) (r : Rc) (src tgt : Ty) : State :=
  s.whenOn fun s =>
    let c := convert (decodeTy src (s.getG a).toNat) tgt (rcMode r s.fmt) (fmtSat s.fmt)
    (s.putG 4 d (BitVec.ofNat 64 c.1)).arith 0 c.2

def execCvtF32S64 (d a : Reg) (r : Rc) (s : State) : Out := .next (s.scalarCvt d a r .s64 .f32)
def execCvtF32Z64 (d a : Reg) (r : Rc) (s : State) : Out := .next (s.scalarCvt d a r .z64 .f32)
def execCvtS64F32 (d a : Reg) (r : Rc) (s : State) : Out := .next (s.scalarCvt d a r .f32 .s64)
def execCvtZ64F32 (d a : Reg) (r : Rc) (s : State) : Out := .next (s.scalarCvt d a r .f32 .z64)

end Sys2Proof.Machine
end

