-- ==== Sys2Proof/Machine/Vector.lean ====
section
/-! DEFINITION. The vector classes 9 to 16: elements and lanes (13 R327 to R329), arithmetic, compares, logic, moves,
conversions, quantisation, permutes, reductions and scans (13 R331 to R345). -/

namespace Sys2Proof.Machine

open Sys2Proof

/-! ## Elements and lanes (13 R327) -/

/-- Elements of a type in a V register. -/
def elemCount (t : Ty) : Nat := 2048 / tyBits t

/-- Element `j` of width `w` bits. -/
def vElem (v : VReg) (w j : Nat) : Nat := (v.lane (j * w / 32)).toNat / 2 ^ (j * w % 32) % 2 ^ w

/-- The lane that holds element `j` of width `w`. -/
def laneOf (w j : Nat) : Nat := j * w / 32

/-- Elements of width `w`, in order, packed into one lane. -/
def packLane (w : Nat) : List Nat → Nat
  | [] => 0
  | x :: xs => x % 2 ^ w + 2 ^ w * packLane w xs

/-- A V register from its elements of width `w`; missing elements are zero. -/
def vOfElems (w : Nat) (xs : List Nat) : VReg :=
  let a := xs.toArray
  VReg.ofFn fun i => BitVec.ofNat 32 (packLane w ((List.range (32 / w)).map fun k => a.getD (i * (32 / w) + k) 0))

/-! ## Shared forms (13 R328, R329) -/

/-- Record the events of elements, each with its lane. -/
def State.arithAll (s : State) (evs : List (Nat × List Nat)) : State :=
  s.onCur fun c => { c with events := c.events ++ evs.flatMap fun (lane, es) => es.map fun e => (c.slot, lane, e) }

/-- A masked element-wise write: `n` elements of width `w`, each computed where the guard enables its lane, the
rest of the register zero (13 R328, R338). -/
def State.vecElems (s : State) (lat : Nat) (d : Reg) (w n : Nat) (f : Nat → Nat × List Nat) : State :=
  let m := s.mask
  let rs := (List.range n).map fun j => if m.getLsbD (laneOf w j) then f j else (0, [])
  (s.putV lat d m (vOfElems w (rs.map (·.1)))).arithAll (rs.zipIdx.map fun (r, j) => (laneOf w j, r.2))

/-- An FP operation of two registers, class 9 or 16. -/
def State.vFp2 (s : State) (lat : Nat) (t : Ty) (d a b : Reg) (f : FpVal → FpVal → Nat × List Nat) : State :=
  let x := s.getV a
  let y := s.getV b
  let w := tyBits t
  s.vecElems lat d w (elemCount t) fun j => f (decodeTy t (vElem x w j)) (decodeTy t (vElem y w j))

/-- An FP operation of one register. -/
def State.vFp1 (s : State) (lat : Nat) (t : Ty) (d a : Reg) (f : FpVal → Nat × List Nat) : State :=
  let x := s.getV a
  let w := tyBits t
  s.vecElems lat d w (elemCount t) fun j => f (decodeTy t (vElem x w j))

/-- An operation on the bits of the elements of two registers. -/
def State.vBits2 (s : State) (lat : Nat) (t : Ty) (d a b : Reg) (f : Nat → Nat → Nat × List Nat) : State :=
  let x := s.getV a
  let y := s.getV b
  let w := tyBits t
  s.vecElems lat d w (elemCount t) fun j => f (vElem x w j) (vElem y w j)

/-- FMT.RM as read at issue (08 R207). -/
def State.rm (s : State) : RMode := RMode.ofCode (fmtRm s.fmt)

/-! ## Class 9 (13 R331) -/

/-- The smaller, -0 below +0, canonical NaN for a NaN (13 R331, 08 R220). -/
def fpMinCode (t : Ty) (x y : Nat) : Nat :=
  let a := decodeTy t x
  let b := decodeTy t y
  if valIsNan a || valIsNan b then canonNaN t else if cmpValZ b a == .lt then y else x

/-- The larger, under the same rules. -/
def fpMaxCode (t : Ty) (x y : Nat) : Nat :=
  let a := decodeTy t x
  let b := decodeTy t y
  if valIsNan a || valIsNan b then canonNaN t else if cmpValZ a b == .lt then y else x

/-- The sign bit of a floating type's code. -/
def signMask (t : Ty) : Nat := 2 ^ (tyBits t - 1)

def execVaddFp (t : Ty) (d a b : Reg) (s : State) : Out :=
  .next (s.vFp2 4 t d a b fun x y => roundRes t s.rm (addVal s.rm x y))
def execVsubFp (t : Ty) (d a b : Reg) (s : State) : Out :=
  .next (s.vFp2 4 t d a b fun x y => roundRes t s.rm (addVal s.rm x (negVal y)))
def execVmulFp (t : Ty) (d a b : Reg) (s : State) : Out :=
  .next (s.vFp2 4 t d a b fun x y => roundRes t s.rm (mulVal x y))
def execVminFp (t : Ty) (d a b : Reg) (s : State) : Out :=
  .next (s.vBits2 2 t d a b fun x y => (fpMinCode t x y, []))
def execVmaxFp (t : Ty) (d a b : Reg) (s : State) : Out :=
  .next (s.vBits2 2 t d a b fun x y => (fpMaxCode t x y, []))
def execVabsFp (t : Ty) (d a : Reg) (s : State) : Out :=
  .next (s.vBits2 2 t d a a fun x _ => (x % signMask t, []))
def execVneg (t : Ty) (d a : Reg) (s : State) : Out :=
  .next (s.vBits2 2 t d a a fun x _ => ((x + signMask t) % (2 * signMask t), []))
def execVcpys (t : Ty) (d a b : Reg) (s : State) : Out :=
  .next (s.vBits2 2 t d a b fun x y => (x % signMask t + y / signMask t * signMask t, []))

/-! ## Class 10: the FMA family (13 R332) -/

/-- Vd := ±(a × b) ± d, one rounding; Vd is read as the addend. -/
def State.vFma (s : State) (t : Ty) (d a b : Reg) (negP negC : Bool) : State :=
  let x := s.getV a
  let y := s.getV b
  let z := s.getV d
  let w := tyBits t
  s.vecElems 4 d w (elemCount t) fun j =>
    let p := decodeTy t (vElem x w j)
    let c := decodeTy t (vElem z w j)
    roundRes t s.rm
      (fmaVal s.rm (if negP then negVal p else p) (decodeTy t (vElem y w j)) (if negC then negVal c else c))

def execVfma (t : Ty) (d a b : Reg) (s : State) : Out := .next (s.vFma t d a b false false)
def execVfms (t : Ty) (d a b : Reg) (s : State) : Out := .next (s.vFma t d a b false true)
def execVfnma (t : Ty) (d a b : Reg) (s : State) : Out := .next (s.vFma t d a b true false)
def execVfnms (t : Ty) (d a b : Reg) (s : State) : Out := .next (s.vFma t d a b true true)

/-! ## Class 16 (13 R333) -/

def execVdiv (t : Ty) (d a b : Reg) (s : State) : Out :=
  .next (s.vFp2 8 t d a b fun x y => roundRes t s.rm (divVal x y))
def execVsqrt (t : Ty) (d a : Reg) (s : State) : Out := .next (s.vFp1 8 t d a fun x => roundRes t s.rm (sqrtVal x))
def execVrcp (t : Ty) (d a : Reg) (s : State) : Out := .next (s.vFp1 8 t d a fun x => roundRes t s.rm (rcpVal x))
def execVrsqrt (t : Ty) (d a : Reg) (s : State) : Out := .next (s.vFp1 8 t d a fun x => roundRes t s.rm (rsqrtVal x))
def execVexp2 (t : Ty) (d a : Reg) (s : State) : Out := .next (s.vFp1 8 t d a (exp2Elem t s.rm))
def execVlog2 (t : Ty) (d a : Reg) (s : State) : Out := .next (s.vFp1 8 t d a (log2Elem t s.rm))
def execVtanh (t : Ty) (d a : Reg) (s : State) : Out := .next (s.vFp1 8 t d a (tanhElem t s.rm))
def execVsigm (t : Ty) (d a : Reg) (s : State) : Out := .next (s.vFp1 8 t d a (sigmElem t s.rm))

/-! ## Class 11 (13 R334) -/

/-- The integer a code of a type stands for. -/
def intOf (t : Ty) (x : Nat) : Int := if tySigned t ∧ 2 ^ (tyBits t - 1) ≤ x then (x : Int) - 2 ^ tyBits t else x

/-- An integer saturated to a type, with an overflow event when it saturates (13 R334). -/
def satInt (t : Ty) (i : Int) : Nat × List Nat :=
  let (lo, hi) := intRange t
  if i < lo then (intCode (tyBits t) lo, [evOverflow])
  else if hi < i then (intCode (tyBits t) hi, [evOverflow])
  else (intCode (tyBits t) i, [])

/-- An integer operation of two registers. -/
def State.vInt2 (s : State) (lat : Nat) (t : Ty) (d a b : Reg) (f : Int → Int → Nat × List Nat) : State :=
  s.vBits2 lat t d a b fun x y => f (intOf t x) (intOf t y)

def execVaddInt (t : Ty) (d a b : Reg) (s : State) : Out :=
  .next (s.vInt2 2 t d a b fun x y => (intCode (tyBits t) (x + y), []))
def execVsubInt (t : Ty) (d a b : Reg) (s : State) : Out :=
  .next (s.vInt2 2 t d a b fun x y => (intCode (tyBits t) (x - y), []))
def execVminInt (t : Ty) (d a b : Reg) (s : State) : Out :=
  .next (s.vInt2 2 t d a b fun x y => (intCode (tyBits t) (min x y), []))
def execVmaxInt (t : Ty) (d a b : Reg) (s : State) : Out :=
  .next (s.vInt2 2 t d a b fun x y => (intCode (tyBits t) (max x y), []))
def execVadds (t : Ty) (d a b : Reg) (s : State) : Out := .next (s.vInt2 2 t d a b fun x y => satInt t (x + y))
def execVsubs (t : Ty) (d a b : Reg) (s : State) : Out := .next (s.vInt2 2 t d a b fun x y => satInt t (x - y))
def execVmulInt (t : Ty) (d a b : Reg) (s : State) : Out :=
  .next (s.vInt2 4 t d a b fun x y => (intCode (tyBits t) (x * y), []))
def execVabsInt (t : Ty) (d a : Reg) (s : State) : Out :=
  .next (s.vInt2 2 t d a a fun x _ => (intCode (tyBits t) x.natAbs, []))

/-! ## Compares (13 R335) -/

/-- A lane compare into bits of Kd, merged bit by bit under the guard (13 R328). -/
def State.vCmp (s : State) (d : KReg) (a b : Reg) (f : Lane → Lane → Bool) : State :=
  let x := s.getV a
  let y := s.getV b
  let bits := ((List.range 64).map fun i => if f (x.lane i) (y.lane i) then 2 ^ i else 0).sum
  s.putWrite 2 (.k d) s.mask (.word (BitVec.ofNat 64 bits))

/-- Compare two lanes as a type: FP32, signed or unsigned; `ord` answers for ordered operands, `nan` for a NaN. -/
def laneCmp (t : Ty) (nan : Bool) (ord : Ordering → Bool) (x y : Lane) : Bool :=
  let a := decodeTy t x.toNat
  let b := decodeTy t y.toNat
  if valIsNan a || valIsNan b then nan else ord (cmpVal a b)

def execVcmpeq (t : Ty) (d : KReg) (a b : Reg) (s : State) : Out :=
  .next (s.vCmp d a b (laneCmp t false fun o => o == .eq))
def execVcmpne (t : Ty) (d : KReg) (a b : Reg) (s : State) : Out :=
  .next (s.vCmp d a b (laneCmp t true fun o => o != .eq))
def execVcmplt (t : Ty) (d : KReg) (a b : Reg) (s : State) : Out :=
  .next (s.vCmp d a b (laneCmp t false fun o => o == .lt))
def execVcmple (t : Ty) (d : KReg) (a b : Reg) (s : State) : Out :=
  .next (s.vCmp d a b (laneCmp t false fun o => o != .gt))
def execVcmpun (d : KReg) (a b : Reg) (s : State) : Out :=
  .next (s.vCmp d a b (laneCmp .f32 true fun _ => false))

/-! ## Logic, shifts, selection and moves (13 R336, R337) -/

/-- A masked lane-wise write. -/
def State.vLanes (s : State) (lat : Nat) (d : Reg) (f : Nat → Lane) : State := s.putV lat d s.mask (VReg.ofFn f)

/-- A lane operation of two registers, class 2. -/
def State.vLane2 (s : State) (d a b : Reg) (f : Lane → Lane → Lane) : State :=
  let x := s.getV a
  let y := s.getV b
  s.vLanes 2 d fun i => f (x.lane i) (y.lane i)

/-- The amount of a lane shift: bits [5:0] (13 R336). -/
def laneAmt (b : Lane) : Nat := b.toNat % 64

def execVand (d a b : Reg) (s : State) : Out := .next (s.vLane2 d a b fun x y => x &&& y)
def execVor (d a b : Reg) (s : State) : Out := .next (s.vLane2 d a b fun x y => x ||| y)
def execVxor (d a b : Reg) (s : State) : Out := .next (s.vLane2 d a b fun x y => x ^^^ y)
def execVandn (d a b : Reg) (s : State) : Out := .next (s.vLane2 d a b fun x y => x &&& ~~~y)
def execVnot (d a : Reg) (s : State) : Out := .next (s.vLane2 d a a fun x _ => ~~~x)
def execVshl (d a b : Reg) (s : State) : Out := .next (s.vLane2 d a b fun x y => x <<< laneAmt y)
def execVshr (d a b : Reg) (s : State) : Out := .next (s.vLane2 d a b fun x y => x >>> laneAmt y)
def execVsar (d a b : Reg) (s : State) : Out := .next (s.vLane2 d a b fun x y => x.sshiftRight (laneAmt y))

/-- VSEL writes every lane: the guard chooses between a and b. -/
def execVsel (d a b : Reg) (s : State) : Out :=
  let m := s.mask
  let x := s.getV a
  let y := s.getV b
  .next (s.putV 2 d (BitVec.allOnes 64) (VReg.ofFn fun i => if m.getLsbD i then x.lane i else y.lane i))

def execVmov (d a : Reg) (s : State) : Out := .next (s.vLane2 d a a fun x _ => x)
def execVbcst (d a : Reg) (s : State) : Out := .next (s.vLanes 2 d fun _ => (s.getG a).setWidth 32)

/-- VEXTR: bit 0 of the guard alone decides (13 R328). -/
def execVextr (d a b : Reg) (s : State) : Out :=
  .next (s.whenOn fun s => s.putG 2 d (((s.getV a).lane ((s.getG b).toNat % 64)).setWidth 64))

/-- VINSR: one lane, and that only when the guard enables it. -/
def execVinsr (d a b : Reg) (s : State) : Out :=
  let one : Word := 1#64 <<< ((s.getG b).toNat % 64)
  .next (s.putV 2 d (s.mask &&& one) (VReg.ofFn fun _ => (s.getG a).setWidth 32))

def execKpopc (d : Reg) (a : KReg) (s : State) : Out :=
  .next (s.whenOn fun s => s.putG 2 d (BitVec.ofNat 64 (popGo (s.getK a) 64)))
def execKfirst (d : Reg) (a : KReg) (s : State) : Out :=
  .next (s.whenOn fun s => s.putG 2 d (BitVec.ofNat 64 (ctzGo (s.getK a) 0 64)))
def execKlast (d : Reg) (a : KReg) (s : State) : Out :=
  .next (s.whenOn fun s =>
    let k := s.getK a
    s.putG 2 d (if k = 0 then 64 else BitVec.ofNat 64 (63 - clzGo k 64)))

/-! ## Conversions and quantisation (13 R338 to R340) -/

/-- CVT between element types: the low min(E(src), E(dst)) elements, the rest of Vd zero (13 R338). -/
def execCvtVector (t src : Ty) (rc : Rc) (d a : Reg) (s : State) : Out :=
  let x := s.getV a
  let n := min (elemCount src) (elemCount t)
  .next (s.vecElems 4 d (tyBits t) n fun j =>
    convert (decodeTy src (vElem x (tyBits src) j)) t (rcMode rc s.fmt) (fmtSat s.fmt))

/-- VQNT: 64 FP32 elements times 64 reciprocals, rounded once to the target (13 R339). -/
def execVqnt (t : Ty) (d a b : Reg) (s : State) : Out :=
  let x := s.getV a
  let y := s.getV b
  .next (s.vecElems 4 d (tyBits t) 64 fun j =>
    vqntElem (decodeTy .f32 (x.lane j).toNat) (decodeTy .f32 (y.lane j).toNat) t s.rm (fmtSat s.fmt))

/-- VDQ: 64 quantised elements times the scales of Vb plus the biases of V(b+1) (13 R340). -/
def execVdq (out src : Ty) (d a b : Reg) (s : State) : Out :=
  let x := s.getV a
  let y := s.getV b
  let z := s.getV (b + 1)
  .next (s.vecElems 4 d (tyBits out) 64 fun j =>
    vdqElem (decodeTy src (vElem x (tyBits src) j)) (decodeTy .f32 (y.lane j).toNat) (decodeTy .f32 (z.lane j).toNat)
      out s.rm)

/-! ## Permutes, compress, expand and iota (13 R341 to R343) -/

def execVperm (d a b : Reg) (s : State) : Out :=
  let x := s.getV a
  let y := s.getV b
  .next (s.vLanes 2 d fun i => x.lane ((y.lane i).toNat % 64))
def execVrot (d a b : Reg) (s : State) : Out :=
  let x := s.getV a
  .next (s.vLanes 2 d fun i => x.lane ((i + (s.getG b).toNat % 64) % 64))
def execVziplo (d a b : Reg) (s : State) : Out :=
  let x := s.getV a
  let y := s.getV b
  .next (s.vLanes 2 d fun i => if i % 2 = 0 then x.lane (i / 2) else y.lane (i / 2))
def execVziphi (d a b : Reg) (s : State) : Out :=
  let x := s.getV a
  let y := s.getV b
  .next (s.vLanes 2 d fun i => if i % 2 = 0 then x.lane (32 + i / 2) else y.lane (32 + i / 2))

/-- Lanes the mask enables, in order. -/
def compress (x : VReg) (m : Word) : List Lane :=
  ((List.range 64).filter fun i => m.getLsbD i).map fun i => x.lane i

/-- VCOMP: the enabled lanes moved down, zeros above; every lane is written. -/
def execVcomp (d a : Reg) (s : State) : Out :=
  let l := (compress (s.getV a) s.mask).toArray
  .next (s.putV 2 d (BitVec.allOnes 64) (VReg.ofFn fun i => l.getD i 0))

/-- VEXPD: successive lanes spread over the enabled ones, zeros elsewhere; every lane is written. -/
def execVexpd (d a : Reg) (s : State) : Out :=
  let m := s.mask
  let x := s.getV a
  .next (s.putV 2 d (BitVec.allOnes 64)
    (VReg.ofFn fun i => if m.getLsbD i then x.lane (popGo m i) else 0))

def execViota (d : Reg) (s : State) : Out := .next (s.vLanes 2 d fun i => BitVec.ofNat 32 i)

/-- The carry-less product of two 64-bit values: `n` bits of `y` from bit `k` (13 R343). -/
def clmulGo (x y : Nat) (k : Nat) : Nat → Nat
  | 0 => 0
  | n + 1 => (if y.testBit k then x <<< k else 0) ^^^ clmulGo x y (k + 1) n

/-- Lane pairs of a register as 64-bit values. -/
def lanePair (v : VReg) (i : Nat) : Nat := (v.lane (2 * i)).toNat + (v.lane (2 * i + 1)).toNat * 2 ^ 32

/-- The carry-less multiplies, latency class 3; `hi` takes bits [127:64]. -/
def State.vClmul (s : State) (d a b : Reg) (hi : Bool) : State :=
  let x := s.getV a
  let y := s.getV b
  s.vLanes 3 d fun i =>
    let p := clmulGo (lanePair x (i / 2)) (lanePair y (i / 2)) 0 64
    BitVec.ofNat 32 (p / 2 ^ ((if hi then 64 else 0) + 32 * (i % 2)))

def execVclmullo (d a b : Reg) (s : State) : Out := .next (s.vClmul d a b false)
def execVclmulhi (d a b : Reg) (s : State) : Out := .next (s.vClmul d a b true)

/-! ## Reductions and scans (08 R220, R221; 13 R344, R345) -/

/-- What a reduction combines. -/
inductive RedOp where
  | sum | max | min
  deriving DecidableEq, Repr

/-- One node of a reduction on codes of a type. -/
def redNode (t : Ty) (mode : RMode) (op : RedOp) (x y : Nat) : Nat × List Nat :=
  if tyIsInt t then
    match op with
    | .sum => (intCode (tyBits t) (intOf t x + intOf t y), [])
    | .max => (intCode (tyBits t) (max (intOf t x) (intOf t y)), [])
    | .min => (intCode (tyBits t) (min (intOf t x) (intOf t y)), [])
  else
    match op with
    | .sum => roundRes t mode (addVal mode (decodeTy t x) (decodeTy t y))
    | .max => (fpMaxCode t x y, [])
    | .min => (fpMinCode t x y, [])

/-- The identity of a reduction (08 R220). -/
def redIdentity (t : Ty) (op : RedOp) : Nat :=
  if tyIsInt t then
    match op with
    | .sum => 0
    | .max => intCode (tyBits t) (intRange t).1
    | .min => intCode (tyBits t) (intRange t).2
  else
    match op with
    | .sum => 0
    | .max => (convert (.inf true) t .rne false).1
    | .min => (convert (.inf false) t .rne false).1

/-- Combine two elements, either of which may be absent. -/
def redPair (node : Nat → Nat → Nat × List Nat) : Option Nat → Option Nat → Option Nat × List Nat
  | none, y => (y, [])
  | x, none => (x, [])
  | some x, some y => (some (node x y).1, (node x y).2)

/-- One level of the tree. -/
def redLevel (node : Nat → Nat → Nat × List Nat) : List (Option Nat) → List (Option Nat) × List Nat
  | x :: y :: rest =>
    let (z, e) := redPair node x y
    let (zs, es) := redLevel node rest
    (z :: zs, e ++ es)
  | l => (l, [])

/-- The whole tree: `n` levels. -/
def redTree (node : Nat → Nat → Nat × List Nat) : Nat → List (Option Nat) → Option Nat × List Nat
  | 0, l => (l.headD none, [])
  | n + 1, l =>
    let (l1, e) := redLevel node l
    let (r, es) := redTree node n l1
    (r, e ++ es)

/-- The elements of a register, absent where the guard disables their lane. -/
def presentElems (v : VReg) (m : Word) (t : Ty) : List (Option Nat) :=
  (List.range (elemCount t)).map fun j =>
    if m.getLsbD (laneOf (tyBits t) j) then some (vElem v (tyBits t) j) else none

/-- A result that is a NaN is the canonical NaN of its type (13 R329). -/
def canonResult (t : Ty) (x : Nat) : Nat := if !tyIsInt t && decodeTy t x == .nan then canonNaN t else x

/-- Each class once. -/
def dedupEv (l : List Nat) : List Nat := [1, 2, 3, 4].filter fun k => l.contains k

/-- A reduction into element 0, every other byte zero (13 R344). -/
def State.vReduce (s : State) (t : Ty) (d a : Reg) (op : RedOp) : State :=
  let node := redNode t s.rm op
  let (r, ev) := redTree node (elemCount t).log2 (presentElems (s.getV a) s.mask t)
  (s.putV 6 d (BitVec.allOnes 64) (vOfElems (tyBits t) [canonResult t (r.getD (redIdentity t op))])).arith 0 (dedupEv ev)

def execVrsum (t : Ty) (d a : Reg) (s : State) : Out := .next (s.vReduce t d a .sum)
def execVrmax (t : Ty) (d a : Reg) (s : State) : Out := .next (s.vReduce t d a .max)
def execVrmin (t : Ty) (d a : Reg) (s : State) : Out := .next (s.vReduce t d a .min)

/-- One step of a scan with distance `dist` (08 R221). -/
def scanStep (node : Nat → Nat → Nat × List Nat) (dist : Nat) (l : List (Option Nat)) : List (Option Nat) × List Nat :=
  let before := List.replicate dist none ++ l
  let rs := (before.zip l).map fun (x, y) => redPair node x y
  (rs.map (·.1), rs.flatMap (·.2))

/-- The scan: `n` steps, the distance doubling. -/
def scanTree (node : Nat → Nat → Nat × List Nat) : Nat → Nat → List (Option Nat) → List (Option Nat) × List Nat
  | 0, _, l => (l, [])
  | n + 1, dist, l =>
    let (l1, e) := scanStep node dist l
    let (r, es) := scanTree node n (2 * dist) l1
    (r, e ++ es)

/-- An inclusive scan, written in the enabled lanes (13 R345). -/
def State.vScan (s : State) (t : Ty) (d a : Reg) (op : RedOp) : State :=
  let node := redNode t s.rm op
  let (r, ev) := scanTree node (elemCount t).log2 1 (presentElems (s.getV a) s.mask t)
  (s.putV 6 d s.mask (vOfElems (tyBits t) (r.map fun x => canonResult t (x.getD (redIdentity t op))))).arith 0 (dedupEv ev)

def execVscsum (t : Ty) (d a : Reg) (s : State) : Out := .next (s.vScan t d a .sum)
def execVscmax (t : Ty) (d a : Reg) (s : State) : Out := .next (s.vScan t d a .max)
def execVscmin (t : Ty) (d a : Reg) (s : State) : Out := .next (s.vScan t d a .min)

end Sys2Proof.Machine
end

