-- ==== Sys2Proof/Machine/LoadStore.lean ====
section
/-! DEFINITION. Loads and stores, scalar, vector, gather and scatter, and stores to several destinations (14 R359 to
R364; 07 R197). -/

namespace Sys2Proof.Machine

open Sys2Proof

/-! ## Loads -/

/-- Bytes as a 64-bit register value, sign- or zero-extended (14 R360). -/
def extBytes (sext : Bool) (bs : List Byte) : Word :=
  let n := 8 * bs.length
  let x := leNat bs
  if sext && decide (0 < n) && decide (2 ^ (n - 1) ≤ x) then BitVec.ofInt 64 ((x : Int) - 2 ^ n) else BitVec.ofNat 64 x

/-- A V register with one lane set. -/
def laneVec (lane : Nat) (x : Nat) : VReg := VReg.ofFn fun i => if i = lane then BitVec.ofNat 32 x else 0

/-- A remote read whose data goes to an interlocked write (14 R358; 07 R190). -/
def State.remoteLoad (s : State) (t : Task) (core : Nat) (chip : BitVec 12) (fctx : BitVec 16) (va n : Nat)
    (acquire : Bool) (reg : RegId) (mask : Word) (lane : Option Nat) (sext : Bool) : State :=
  let (id, s1) := s.fresh
  let s2 := s1.putInfl
    { id := id, reg := reg, mask := mask, val := .word 0, ord := 0, remote := true, load := true, buf := t.r.buf }
  s2.remoteSend (coreDie core) (taskUnit t core) t.ctx
    { op := 0x01, dst := chip, fctx := fctx, vaddr := BitVec.ofNat 57 va, size := sizeCode n, tag := s.tagOf
      acquire := acquire }
    (.load t.tid id lane n sext (commitOver t.commitQ va n))

/-- The acquire of a load, made before its read (05 R142; 07 R185). -/
def State.acquireOpt (s : State) (tid : Word) (core : Nat) (acq : Option Scope) : State :=
  match acq with
  | some sc => s.acquireBy tid core sc
  | none => s

/-- A scalar load (14 R360, R361). -/
def State.loadSlot (s : State) (rel : Bool) (acq : Option Scope) (ty : Ty) (d a : Reg) (i : Imm 5) : State :=
  s.whenOn fun s =>
    match s.me? with
    | none => s
    | some t =>
      let core := s.curCore
      let n := tyBits ty / 8
      s.onChk (s.checkOne t core rel (eaOf (s.getG a) (immS i)) 0 (scalarReq n .load)) fun p =>
        let s1 := (s.acquireOpt t.tid core acq).noteAccess t core .load [p] n acq none
        match p.loc with
        | .peer chip fctx va =>
          s1.remoteLoad t core chip fctx va n (acq == some .fabric) (.g d) (BitVec.allOnes 64) none (tySigned ty)
        | loc =>
          let (bs, poison, s2) := s1.readLocal t core p.va n loc
          s2.putLoad t (.g d) (BitVec.allOnes 64) (.word (extBytes (tySigned ty) bs)) poison

/-- LD. -/
def execLd (t : Ty) (d a : Reg) (i : Imm 5) (s : State) : Out := .next (s.loadSlot false none t d a i)
/-- LDACQ. -/
def execLdacq (sc : Scope) (t : Ty) (d a : Reg) (i : Imm 5) (s : State) : Out :=
  .next (s.loadSlot false (some sc) t d a i)
/-- LDS. -/
def execLds (t : Ty) (d a : Reg) (i : Imm 5) (s : State) : Out := .next (s.loadSlot true none t d a i)

/-- Read the local pieces of a vector load into lanes, with the first poisoned beat. -/
def readLanes (t : Task) (core : Nat) : List Piece → State → List (Nat × Nat) × Option (Nat × Nat) × State
  | [], s => ([], none, s)
  | p :: ps, s =>
    match p.loc with
    | .peer _ _ _ => readLanes t core ps s
    | loc =>
      let (bs, poison, s1) := s.readLocal t core p.va 4 loc
      let (rest, poison2, s2) := readLanes t core ps s1
      ((p.lane, leNat bs) :: rest, (match poison with | some x => some x | none => poison2), s2)

/-- A V register of given lanes. -/
def vecOfLanes (xs : List (Nat × Nat)) : VReg :=
  VReg.ofFn fun i =>
    match xs.find? (·.1 == i) with
    | some x => BitVec.ofNat 32 x.2
    | none => 0

/-- The mask of some lanes. -/
def laneMask (xs : List Nat) : Word := xs.foldl (fun m i => m ||| (1#64 <<< i)) 0

/-- A vector read of 4-byte pieces, one interlocked write for the pieces of this chip and one for each remote lane
(14 R362, R363). -/
def State.loadPieces (s : State) (t : Task) (d : Reg) (ps : List Piece) (acq : Option Scope) : State :=
  let core := s.curCore
  let s1 := (s.acquireOpt t.tid core acq).noteAccess t core .load ps 4 acq none
  let (xs, poison, s2) := readLanes t core ps s1
  let s3 := if xs.isEmpty then s2 else s2.putLoad t (.v d) (laneMask (xs.map (·.1))) (.vec (vecOfLanes xs)) poison
  ps.foldl (fun s p =>
    match p.loc with
    | .peer chip fctx va =>
      s.remoteLoad t core chip fctx va 4 (acq == some .fabric) (.v d) (1#64 <<< p.lane) (some p.lane) false
    | _ => s) s3

/-- A vector load of the enabled lanes from given addresses; with no lane enabled it makes an empty write. -/
def State.vloadSlot (s : State) (rel : Bool) (acq : Option Scope) (d : Reg) (addr : Nat → Nat) : State :=
  match s.me? with
  | none => s
  | some t =>
    let lanes := maskLanes s.mask
    if lanes.isEmpty then s.putV 1 d 0 (Vector.replicate 64 0)
    else
      s.onChk (s.checkLanes t s.curCore rel (scalarReq 4 .load) (lanes.map fun i => (i, addr i)))
        fun ps => s.loadPieces t d ps acq

/-- Lane addresses of a contiguous vector access (14 R362). -/
def vaddrSeq (base off : Word) (i : Nat) : Nat := (eaOf base off + 4 * i) % 2 ^ 57

/-- Lane addresses of a gather or scatter (14 R363). -/
def vaddrIdx (base : Word) (v : VReg) (i : Nat) : Nat := eaOf base ((v.lane i).signExtend 64)

/-- VLD. -/
def execVld (d a : Reg) (i : Imm 5) (s : State) : Out := .next (s.vloadSlot false none d (vaddrSeq (s.getG a) (immS i)))
/-- VLDACQ. -/
def execVldacq (sc : Scope) (d a : Reg) (i : Imm 5) (s : State) : Out :=
  .next (s.vloadSlot false (some sc) d (vaddrSeq (s.getG a) (immS i)))
/-- VLDS. -/
def execVlds (d a : Reg) (i : Imm 5) (s : State) : Out := .next (s.vloadSlot true none d (vaddrSeq (s.getG a) (immS i)))
/-- VGATH. -/
def execVgath (d a b : Reg) (s : State) : Out := .next (s.vloadSlot false none d (vaddrIdx (s.getG a) (s.getV b)))
/-- VGATHS. -/
def execVgaths (d a b : Reg) (s : State) : Out := .next (s.vloadSlot true none d (vaddrIdx (s.getG a) (s.getV b)))

/-! ## Stores -/

/-- Does a piece of a versioned task's store go to the commit queue: a peer page, host memory, the pool (06 R170)? -/
def Piece.queued (p : Piece) : Bool :=
  match p.loc with
  | .peer _ _ _ => true
  | .phys pa _ _ => !versionable pa
  | .sram _ _ => false

/-- Write pieces into version lines; the address of the first that finds no way free (06 R169). -/
def versionStores (t : Task) : List (Piece × List Byte) → State → Option Nat × State
  | [], s => (none, s)
  | (p, bs) :: rest, s =>
    match p.loc with
    | .phys pa _ _ =>
      if s.versionFull t.tid pa bs.length then (some p.va, s)
      else versionStores t rest (s.versionWrite t.tid t.ctx pa bs)
    | _ => versionStores t rest s

/-- Issue a store to memory or scratchpads of this chip: it is performed later (07 R179). One after a release fence carries
what the fence does (07 R187). -/
def State.issueStore (s : State) (t : Task) (core : Nat) (ops : List MemOp) (rel : Option Scope) (slipTo : Option Nat)
    (stamp : List Nat) : State :=
  if ops.isEmpty then s
  else
    let (id, s1) := s.fresh
    (s1.onMem fun m =>
      { m with stores := m.stores ++
          [{ id := id, tid := t.tid, ctx := t.ctx, core := core, ops := ops, release := rel, slipTo := slipTo
             stamp := if stamp.isEmpty then (t.relMark.map (·.stamp)).getD [] else stamp
             mark := t.relMark }] }).postFree .storePerformed (.num id)

/-- The home die of a piece: the die of its scratchpad, or of its L2 line. -/
def Piece.homeDie (s : State) (p : Piece) : Option Nat :=
  match p.loc with
  | .phys pa _ _ => Sys2Proof.Machine.homeDie s pa
  | .sram c _ => some (coreDie c)
  | .peer _ _ _ => none

/-- The stamp of a release store of PKG or FABRIC scope, once numbered (07 R189). -/
def releaseStamp (s : State) (t : Task) (core : Nat) (rel : Option Scope) : List Nat :=
  match rel with
  | some sc => if scopeWide sc then s.stampOf t core else []
  | none => []

/-- The 64-byte line of a piece of a store. -/
def MemOp.line : MemOp → Nat × Nat × Nat
  | .phys pa _ => (0, 0, pa / 64)
  | .sram c off _ => (1, c, off / 64)
  | .host pa _ => (2, 0, pa / 64)

/-- The requests of a store's pieces: those of one line together in their order, lines apart (14 R363; 07 R178). -/
def lineGroups (ops : List MemOp) : List (List MemOp) :=
  ((ops.map MemOp.line).eraseDups).map fun l => ops.filter fun o => o.line == l

/-- What issues together: the lines of a plain store apart, a release whole (log entry 36). -/
def storeGroups (rel : Option Scope) (ops : List MemOp) : List (List MemOp) :=
  if rel.isSome then [ops] else lineGroups ops

/-- The store of checked pieces with their bytes, none of them versioned: local pieces issue, remote ones are sent. -/
def State.storeNow (s : State) (t : Task) (core : Nat) (rel : Option Scope) (xs : List (Piece × List Byte)) : State :=
  let s0 := if rel == some .fabric && (xs.any fun x => x.1.loc.place.memOp [] == none) then s.flushStores t.tid else s
  let s1 := match rel with
    | some sc => if scopeWide sc then s0.countRelease (coreDie core) t.tid else s0
    | none => s0
  let ops := xs.filterMap fun (p, bs) => p.loc.place.memOp bs
  let s2 := (storeGroups rel ops).foldl (fun s g => s.issueStore t core g rel none (releaseStamp s1 t core rel)) s1
  xs.foldl (fun s (p, bs) =>
    match p.loc with
    | .peer chip fctx va =>
      s.remoteSend (coreDie core) (taskUnit t core) t.ctx
        { writePkt chip fctx va bs s.tagOf with release := rel == some .fabric } (.store t.tid)
    | _ => s) s2

/-- The store of a versioned task (06 R169, R170): scratchpads at once, version lines, one commit-queue entry for the
rest. A fault leaves the state `s0` before the access was noted (06 R159), and names `ea`, or the lane's own address
(14 R361). -/
def State.storeVersioned (s0 s : State) (t : Task) (core : Nat) (xs : List (Piece × List Byte)) (rel : Option Scope)
    (ea : Option Nat) : State :=
  let scratch := xs.filter fun x => match x.1.loc with
    | .sram _ _ => true
    | _ => false
  let queue := xs.filter (·.1.queued)
  match versionStores t (xs.filter fun x => !x.1.queued) s with
  | (some va, _) => s0.raise cVersionFull (ea.getD va) 0
  | (none, s1) =>
    let s2 := (storeGroups rel (scratch.filterMap fun (p, bs) => p.loc.place.memOp bs)).foldl
      (fun s g => s.issueStore t core g rel none []) s1
    if queue.isEmpty then s2
    else if 64 ≤ t.commitQ.length then s0.raise cVersionFull (ea.getD ((queue.map (·.1.va)).headD 0)) 1
    else
      s2.modTask t.tid fun t =>
        { t with commitQ := t.commitQ ++ [.store (queue.map fun (p, bs) => (p.va, p.loc.place, bs)) [] none s.tagOf] }

/-- The store of checked pieces to each of some destinations, destinations performed apart (14 R360, R361, R364; 07 R197):
held while it meets an operand range (05 R138). -/
def State.storeEach (s : State) (t : Task) (xss : List (List (Piece × List Byte))) (rel : Option Scope)
    (ea : Option Nat) : State :=
  let core := s.curCore
  let xs := xss.flatten
  let n := (xs.map (·.2.length)).headD 0
  if s.rangeHeld core (xs.map (·.1)) n then s.hold
  else
    let note (s : State) : State := s.noteAccess t core .store (xs.map (·.1)) n none rel
    let wide := match rel with
      | some sc => scopeWide sc
      | none => false
    if s.versioned && !wide then s.storeVersioned (note s) t core xs rel ea
    else s.afterCommit wide fun s => xss.foldl (fun s xs => s.storeNow t core rel xs) (note s)

/-- The store of checked pieces to one destination. -/
def State.storePieces (s : State) (t : Task) (xs : List (Piece × List Byte)) (rel : Option Scope) (ea : Option Nat) :
    State := s.storeEach t [xs] rel ea

/-- A scalar store (14 R360, R361). -/
def State.storeSlot (s : State) (rel : Bool) (order : Option Scope) (ty : Ty) (d a : Reg) (i : Imm 5) : State :=
  s.whenOn fun s =>
    match s.me? with
    | none => s
    | some t =>
      let n := tyBits ty / 8
      s.onChk (s.checkOne t s.curCore rel (eaOf (s.getG a) (immS i)) 0 (scalarReq n .store)) fun p =>
        s.storePieces t [(p, natLe n (s.getG d).toNat)] order none

/-- ST. -/
def execSt (t : Ty) (d a : Reg) (i : Imm 5) (s : State) : Out := .next (s.storeSlot false none t d a i)
/-- STREL. -/
def execStrel (sc : Scope) (t : Ty) (d a : Reg) (i : Imm 5) (s : State) : Out :=
  .next (s.storeSlot false (some sc) t d a i)
/-- STS. -/
def execSts (t : Ty) (d a : Reg) (i : Imm 5) (s : State) : Out := .next (s.storeSlot true none t d a i)

/-- A vector store of the enabled lanes to given addresses, in ascending lane order; `ea` is that of VST. -/
def State.vstoreSlot (s : State) (rel : Bool) (order : Option Scope) (d : Reg) (addr : Nat → Nat) (ea : Option Nat) :
    State :=
  match s.me? with
  | none => s
  | some t =>
    let lanes := maskLanes s.mask
    if lanes.isEmpty then s
    else
      let v := s.getV d
      s.onChk (s.checkLanes t s.curCore rel (scalarReq 4 .store) (lanes.map fun i => (i, addr i)))
        fun ps => s.storePieces t (ps.map fun p => (p, natLe 4 (v.lane p.lane).toNat)) order ea

/-- VST. -/
def execVst (d a : Reg) (i : Imm 5) (s : State) : Out := .next (s.vstoreSlot false none d (vaddrSeq (s.getG a) (immS i)) (some (eaOf (s.getG a) (immS i))))
/-- VSTREL. -/
def execVstrel (sc : Scope) (d a : Reg) (i : Imm 5) (s : State) : Out :=
  .next (s.vstoreSlot false (some sc) d (vaddrSeq (s.getG a) (immS i)) (some (eaOf (s.getG a) (immS i))))
/-- VSTS. -/
def execVsts (d a : Reg) (i : Imm 5) (s : State) : Out :=
  .next (s.vstoreSlot true none d (vaddrSeq (s.getG a) (immS i)) none)
/-- VSCAT. -/
def execVscat (d a b : Reg) (s : State) : Out := .next (s.vstoreSlot false none d (vaddrIdx (s.getG a) (s.getV b)) none)
/-- VSCATS. -/
def execVscats (d a b : Reg) (s : State) : Out := .next (s.vstoreSlot true none d (vaddrIdx (s.getG a) (s.getV b)) none)

/-! ## Stores to several destinations (14 R364; 07 R197) -/

/-- The list of destinations: in an allocation of the task on its own core, or SCRATCH_RANGE. -/
def State.destList (s : State) (t : Task) (core : Nat) (va n : Nat) : Chk (List Nat) :=
  if va % 8 ≠ 0 then .bad cMisaligned va 3
  else
    let off := va % 2 ^ 21
    let mine := match t.alloc with
      | some (o, size) => decide (o ≤ off) && decide (off + 8 * n ≤ o + size)
      | none => false
    if !inScratch va || scratchCore va != core || decide (24 ≤ scratchCluster va) || !mine then .bad cScratchRange va 0
    else
      let bs := overlaySram (s.ownStores t.tid) core off (s.sramRead core off (8 * n))
      .ok ((List.range n).map fun j => fieldAt bs (8 * j) 8 % 2 ^ 57)

/-- Every destination aligned to 256 bytes (14 R364). -/
def alignedAll : List Nat → Chk Unit
  | [] => .ok ()
  | a :: as => if a % 256 ≠ 0 then .bad cMisaligned a 8 else alignedAll as

/-- The probe of one destination: a peer page or host memory denies, with PERM, and so does a place that does not allow an
atomic (07 R197; 14 R364). -/
def State.probeDest (s : State) (t : Task) (core : Nat) (kind : AccKind) (lanes : List Nat) (a : Nat) : Chk (List Piece) :=
  let q : AccReq := { n := 4, align := 4, info := 2, kind := kind }
  (s.taskAccess t core a 256 kind).bind fun l0 =>
    let deny := match l0 with
      | .peer _ _ _ => true
      | .phys pa _ _ => decide (2 ^ 51 ≤ pa)
      | .sram _ _ => false
    if deny then .bad cPerm a 1
    else (checkPlace s q a l0).bind fun _ => s.checkLanes t core false q (lanes.map fun i => (i, (a + 4 * i) % 2 ^ 57))

/-- The probe of every destination, from 0 upwards. -/
def State.probeAll (s : State) (t : Task) (core : Nat) (kind : AccKind) (lanes : List Nat) :
    List Nat → Chk (List (List Piece))
  | [] => .ok []
  | a :: as => (s.probeDest t core kind lanes a).bind fun ps => (s.probeAll t core kind lanes as).bind fun r => .ok (ps :: r)

/-- The common part of VMCST and VRDST: count, list, alignment, probe, then `f` on the destinations' pieces. -/
def State.multiDest (s : State) (kind : AccKind) (a b : Reg) (f : State → Task → List (List Piece) → State) : State :=
  match s.me? with
  | none => s
  | some t =>
    let lanes := maskLanes s.mask
    let n := min (s.getG b).toNat 16
    if lanes.isEmpty || n == 0 then s
    else
      let core := s.curCore
      s.onChk (s.destList t core (s.getG a).toNat n) fun ds =>
        s.onChk (alignedAll ds) fun _ =>
          s.onChk (s.probeAll t core kind lanes ds) fun pss => f s t pss

/-- VMCST. -/
def execVmcst (d a b : Reg) (s : State) : Out :=
  .next (s.multiDest .store a b fun s t pss =>
    let v := s.getV d
    s.storeEach t (pss.map fun ps => ps.map fun p => (p, natLe 4 (v.lane p.lane).toNat)) none none)

end Sys2Proof.Machine
end

