-- ==== Sys2Proof/Machine/Atomic.lean ====
section
/-! DEFINITION. Atomics (14 R368 to R371; 07 R194 to R196; 05 R155), and reducing stores (14 R364). -/

namespace Sys2Proof.Machine

open Sys2Proof

/-! ## The step of an atomic (14 R369, R370; 07 R196) -/

/-- Operations as the model numbers them: 0 to 9 as AOP of class 22, then the wide and floating ones. -/
def aopCasW : Nat := 10
def aopSwapW : Nat := 11
def aopFaddF32 : Nat := 12
def aopFaddBf16 : Nat := 13

/-- An atomic: operation, bytes, operand, and compare value. -/
structure AtomSpec where
  aop : Nat
  n : Nat
  op : Nat
  cmp : Nat := 0
  deriving DecidableEq, Repr

/-- A floating-point atomic add (07 R196). -/
def fpAtomicAdd (t : Ty) (old addend : Nat) : Nat := (roundRes t .rne (addVal .rne (decodeTy t old) (decodeTy t addend))).1

/-- A number read as signed in `bits` bits. -/
def signedOf (bits x : Nat) : Int := if 2 ^ (bits - 1) ≤ x then (x : Int) - 2 ^ bits else x

/-- The new value, or none where nothing is written (14 R369, R370). -/
def AtomSpec.eval (a : AtomSpec) (old : Nat) : Option Nat :=
  let bits := 8 * a.n
  let so := signedOf bits old
  let sp := signedOf bits a.op
  match a.aop with
  | 0 => some ((old + a.op) % 2 ^ bits)
  | 1 => some (old &&& a.op)
  | 2 => some (old ||| a.op)
  | 3 => some (old ^^^ a.op)
  | 4 => some (if so ≤ sp then old else a.op)
  | 5 => some (if sp ≤ so then old else a.op)
  | 6 => some (min old a.op)
  | 7 => some (max old a.op)
  | 8 => some a.op
  | 9 => if old = a.cmp then some a.op else none
  | 10 => if old = a.cmp then some a.op else none
  | 11 => some a.op
  | 12 => some (fpAtomicAdd .f32 old a.op)
  | 13 => some (fpAtomicAdd .bf16 old a.op)
  | _ => none

/-- Is there a PCIe AtomicOp for it (14 R371)? -/
def AtomSpec.pcie (a : AtomSpec) : Bool := a.aop == 0 || a.aop == 8 || a.aop == 9 || a.aop == 10

/-- Perform an atomic on physical memory under a key slot: the old value, or none on a poisoned beat (14 R369; 01 R28). -/
def State.atomKey (s : State) (slot pa : Nat) (a : AtomSpec) : Option Nat × State :=
  match s.poisonedLine pa a.n with
  | some _ => (none, s)
  | none =>
    let (bs, s1) := s.physRead slot pa a.n
    let old := leNat bs
    match a.eval old with
    | some new => (some old, s1.physWrite slot pa (natLe a.n new))
    | none => (some old, s1)

/-- Perform an atomic on physical memory under a context's key. -/
def State.atomPhys (s : State) (ctx pa : Nat) (a : AtomSpec) : Option Nat × State := s.atomKey (ctxSlot ctx) pa a

/-- Perform an atomic on a scratchpad. -/
def State.atomSram (s : State) (core off : Nat) (a : AtomSpec) : Nat × State :=
  let old := leNat (s.sramRead core off a.n)
  match a.eval old with
  | some new => (old, s.sramWrite core off (natLe a.n new))
  | none => (old, s)

/-- Perform an atomic of a task at a place of this chip, its core's L1 copy following, where nothing is written too: what
it has read is what the core reads from then on (05 R142, R155; 07 R179, R195). The old value, or the address of a
poisoned beat. -/
def State.atomLocal (s : State) (ctx core : Nat) (loc : Loc) (a : AtomSpec) : (Nat ⊕ Nat) × State :=
  match loc with
  | .phys pa place _ =>
    match s.atomPhys ctx pa a with
    | (some old, s1) => (.inl old, (s1.atHome place pa).storeL1 ctx core pa (natLe a.n ((a.eval old).getD old)))
    | (none, s1) => (.inr (pa / 64 * 64), s1)
  | .sram c o =>
    let (old, s1) := s.atomSram c o a
    (.inl old, s1)
  | .peer _ _ _ => (.inl 0, s)

/-! ## Issue -/

/-- The acquire scope of an ordering. -/
def AOrd.acqScope : AOrd → Option Scope
  | .acq sc => some sc
  | .ar sc => some sc
  | _ => none
/-- The release scope of an ordering. -/
def AOrd.relScope : AOrd → Option Scope
  | .rel sc => some sc
  | .ar sc => some sc
  | _ => none

/-- The remote request of an atomic (02 R35, R36; 14 R371). -/
def atomPkt (chip : BitVec 12) (fctx : BitVec 16) (va : Nat) (a : AtomSpec) (o : AOrd) (tag : BitVec 16) : Packet :=
  let word (x i : Nat) : BitVec 64 := BitVec.ofNat 64 (x / 2 ^ (64 * i))
  let cas := a.aop == 9 || a.aop == 10
  let first := if cas then a.cmp else a.op
  { op := 0x05, dst := chip, fctx := fctx, vaddr := BitVec.ofNat 57 va, size := sizeCode a.n, tag := tag
    aop := BitVec.ofNat 5 a.aop
    release := AOrd.relScope o == some .fabric, acquire := AOrd.acqScope o == some .fabric
    opnd0 := word first 0
    opnd1 := if a.n = 16 then word first 1 else if cas then word a.op 0 else 0
    opnd2 := if a.n = 16 ∧ cas then word a.op 0 else 0
    opnd3 := if a.n = 16 ∧ cas then word a.op 1 else 0 }

/-- The atomic an arriving request asks for. -/
def atomOfPkt (p : Packet) : AtomSpec :=
  let aop := p.aop.toNat
  let n := pktBytes p
  let wide (lo hi : BitVec 64) : Nat := lo.toNat + hi.toNat * 2 ^ 64
  let cut (x : Nat) : Nat := x % 2 ^ (8 * n)
  if n = 16 then
    (if aop = 10 then ⟨aop, n, wide p.opnd2 p.opnd3, wide p.opnd0 p.opnd1⟩ else ⟨aop, n, wide p.opnd0 p.opnd1, 0⟩)
  else if aop = 9 then ⟨aop, n, cut p.opnd1.toNat, cut p.opnd0.toNat⟩
  else ⟨aop, n, cut p.opnd0.toNat, 0⟩

/-- The result of an atomic that is not performed for poison: INTEGRITY, and no register is written (01 R28,
14 R371). -/
def State.integrity (s : State) (tid : Word) (pa : Nat) : State :=
  s.post 0 .deferredFaultArrive (.fault tid
    { code := BitVec.ofNat 16 cIntegrity, addr := BitVec.ofNat 64 pa
      info := BitVec.ofNat 64 (s.poisonInfo (pa / 64)), deferred := true })

/-- Where an atomic's old value goes. -/
inductive AtomRet where
  | none
  | g (d : Reg) (sext : Bool)
  | pair (d : Reg)
  | lane (d : Reg) (i : Nat)
  deriving DecidableEq, Repr

/-- Deliver the old value of an atomic performed on this chip, interlocked (14 R369, R370). -/
def State.atomResult (s : State) (r : AtomRet) (n old : Nat) : State :=
  let ones : Word := BitVec.allOnes 64
  match r with
  | .none => s
  | .g d sext => s.putResult (.g d) ones (.word (extBytes sext (natLe n old)))
  | .pair d =>
    (s.putResult (.g d) ones (.word (BitVec.ofNat 64 old))).putResult (.g (d + 1)) ones
      (.word (BitVec.ofNat 64 (old / 2 ^ 64)))
  | .lane d i => s.putResult (.v d) (1#64 <<< i) (.vec (laneVec i old))

/-- Send an atomic to a peer, its old value to come back as an interlocked write (14 R358, R371). -/
def State.atomRemote (s : State) (t : Task) (core : Nat) (r : AtomRet) (p : Packet) (n : Nat) : State :=
  let ones : Word := BitVec.allOnes 64
  let entry (id : Nat) (reg : RegId) (m : Word) : Infl :=
    { id := id, reg := reg, mask := m, val := .word 0, ord := 0, remote := true }
  let (id, s1) := s.fresh
  let (id2, s2) := s1.fresh
  let send (s : State) (use : RemoteUse) : State := s.remoteSend (coreDie core) (taskUnit t core) t.ctx p use
  match r with
  | .none => send s2 (.store t.tid)
  | .g d sext => send (s2.putInfl (entry id (.g d) ones)) (.load t.tid id none n sext [])
  | .pair d => send ((s2.putInfl (entry id (.g d) ones)).putInfl (entry id2 (.g (d + 1)) ones)) (.pair t.tid id id2)
  | .lane d i => send (s2.putInfl (entry id (.v d) (1#64 <<< i))) (.load t.tid id (some i) n false [])

/-- Is any piece in global memory (06 R171)? -/
def anyGlobal (ps : List Piece) : Bool :=
  ps.any fun p => match p.loc with
    | .sram _ _ => false
    | _ => true

/-- Must an atomic of a task wait: for stores of the task to its bytes, for what a release of it, or a release fence before
it, carries, or for the stamp at another die (07 R180, R187, R189, R190; log entry 7)? -/
def State.atomHeld (s : State) (t : Task) (core : Nat) (rel : Option Scope) (xs : List (Piece × AtomSpec × AtomRet)) : Bool :=
  let ops := xs.filterMap fun x => x.1.loc.place.memOp (List.replicate x.2.1.n 0)
  let dies := (xs.filterMap fun x => x.1.homeDie s).filter (· != coreDie core)
  let early (n : Nat) : Bool := s.fabric.remotes.any fun r => r.use.tid? == some t.tid && r.writes && decide (r.id < n)
  s.ownMeets t.tid ops ||
  (!ops.isEmpty && t.relMark.any fun m =>
    (m.fabric && early m.before) || ((s.ownStores t.tid).any fun p => decide (p.id < m.before)) ||
    dies.any fun d => !s.clocks.heardAll d m.stamp) ||
  (match rel with
   | some sc => s.storesLeft t.tid || (scopeWide sc && dies.any fun d => !s.clocks.heardAll d (s.stampOf t core))
   | none => false)

/-- Perform one checked atomic of the running task. -/
def State.atomOne (s : State) (t : Task) (core : Nat) (o : AOrd) (x : Piece × AtomSpec × AtomRet) : State :=
  let (p, a, r) := x
  match p.loc with
  | .peer chip fctx va => s.atomRemote t core r (atomPkt chip fctx va a o s.tagOf) a.n
  | loc =>
    match s.atomLocal t.ctx core loc a with
    | (.inl old, s1) => s1.atomResult r a.n old
    | (.inr pa, s1) => s1.integrity t.tid pa

/-- Checked atomics of a slot: they wait for operand ranges, run a versioned task's commit sequence where one of them
is to global memory, release before and acquire after (14 R368; 07 R194; 06 R171). -/
def State.atomPieces (s : State) (t : Task) (o : AOrd) (xs : List (Piece × AtomSpec × AtomRet)) : State :=
  let core := s.curCore
  let ps := xs.map (·.1)
  let n := (xs.map (·.2.1.n)).headD 4
  if s.rangeHeld core ps n || (AOrd.relScope o == some .fabric && s.remoteBusy t.tid) ||
      (s.flushStores t.tid).atomHeld t core (AOrd.relScope o) xs then s.hold
  else
    let wide := match AOrd.relScope o with
      | some sc => scopeWide sc
      | none => false
    s.afterCommit (anyGlobal ps || wide) fun s =>
      let s1 := s.noteAccess t core .atomic ps n (AOrd.acqScope o) (AOrd.relScope o)
      let s2 := match AOrd.relScope o with
        | some sc => s1.releaseBy t.tid core sc
        | none => s1.flushStores t.tid
      let s3 := s2.acquireOpt t.tid core (AOrd.acqScope o)
      xs.foldl (fun s x => s.atomOne t core o x) s3

/-- A scalar atomic at Ga. -/
def State.atomSlot (s : State) (o : AOrd) (a : Reg) (spec : AtomSpec) (r : AtomRet) : State :=
  s.whenOn fun s =>
    match s.me? with
    | none => s
    | some t =>
      let q : AccReq := { scalarReq spec.n .atomic with pcie := spec.pcie }
      s.onChk (s.checkOne t s.curCore false (eaOf (s.getG a) 0) 0 q) fun p => s.atomPieces t o [(p, spec, r)]

/-- Bytes of a width. -/
def awBytes : AWidth → Nat
  | .w32 => 4
  | .w64 => 8

/-- A class 22 atomic (14 R369). -/
def State.atom22 (s : State) (aop : Nat) (o : AOrd) (w : AWidth) (d a b : Reg) : State :=
  let n := awBytes w
  let cut (x : Word) : Nat := x.toNat % 2 ^ (8 * n)
  s.atomSlot o a ⟨aop, n, cut (s.getG b), cut (s.getG d)⟩ (.g d ((aop == 4 || aop == 5) && n == 4))

/-- AADD. -/
def execAadd (o : AOrd) (w : AWidth) (d a b : Reg) (s : State) : Out := .next (s.atom22 0 o w d a b)
/-- AAND. -/
def execAand (o : AOrd) (w : AWidth) (d a b : Reg) (s : State) : Out := .next (s.atom22 1 o w d a b)
/-- AOR. -/
def execAor (o : AOrd) (w : AWidth) (d a b : Reg) (s : State) : Out := .next (s.atom22 2 o w d a b)
/-- AXOR. -/
def execAxor (o : AOrd) (w : AWidth) (d a b : Reg) (s : State) : Out := .next (s.atom22 3 o w d a b)
/-- AMIN, signed. -/
def execAminSigned (o : AOrd) (w : AWidth) (d a b : Reg) (s : State) : Out := .next (s.atom22 4 o w d a b)
/-- AMAX, signed. -/
def execAmaxSigned (o : AOrd) (w : AWidth) (d a b : Reg) (s : State) : Out := .next (s.atom22 5 o w d a b)
/-- AMIN, unsigned. -/
def execAminUnsigned (o : AOrd) (w : AWidth) (d a b : Reg) (s : State) : Out := .next (s.atom22 6 o w d a b)
/-- AMAX, unsigned. -/
def execAmaxUnsigned (o : AOrd) (w : AWidth) (d a b : Reg) (s : State) : Out := .next (s.atom22 7 o w d a b)
/-- ASWAP. -/
def execAswap (o : AOrd) (w : AWidth) (d a b : Reg) (s : State) : Out := .next (s.atom22 8 o w d a b)
/-- ACAS. -/
def execAcas (o : AOrd) (w : AWidth) (d a b : Reg) (s : State) : Out := .next (s.atom22 9 o w d a b)

/-- A pair of G registers as one number, the lower register lower; G0 reads zero (14 R370). -/
def State.getPair (s : State) (d : Reg) : Nat := (s.getG d).toNat + (s.getG (d + 1)).toNat * 2 ^ 64

/-- ACASW. -/
def execAcasw (o : AOrd) (d a b : Reg) (s : State) : Out :=
  .next (s.atomSlot o a ⟨aopCasW, 16, s.getPair b, s.getPair d⟩ (.pair d))
/-- ASWAPW. -/
def execAswapw (o : AOrd) (d a b : Reg) (s : State) : Out :=
  .next (s.atomSlot o a ⟨aopSwapW, 16, s.getPair b, 0⟩ (.pair d))
/-- AFADD.f32. -/
def execAfaddF32 (o : AOrd) (d a b : Reg) (s : State) : Out :=
  .next (s.atomSlot o a ⟨aopFaddF32, 4, (s.getG b).toNat % 2 ^ 32, 0⟩ (.g d false))
/-- AFADD.bf16. -/
def execAfaddBf16 (o : AOrd) (d a b : Reg) (s : State) : Out :=
  .next (s.atomSlot o a ⟨aopFaddBf16, 2, (s.getG b).toNat % 2 ^ 16, 0⟩ (.g d false))

/-- A vector atomic: the lanes' addresses as a gather's, each lane's operand in Vd (14 R370). -/
def State.vatomSlot (s : State) (aop : Nat) (o : AOrd) (d a b : Reg) : State :=
  match s.me? with
  | none => s
  | some t =>
    let lanes := maskLanes s.mask
    if lanes.isEmpty then s.putV 1 d 0 (Vector.replicate 64 0)
    else
      let v := s.getV d
      let addr := vaddrIdx (s.getG a) (s.getV b)
      let q := scalarReq 4 .atomic
      s.onChk (s.checkLanes t s.curCore false q (lanes.map fun i => (i, addr i))) fun ps =>
        s.atomPieces t o (ps.map fun p => (p, ⟨aop, 4, (v.lane p.lane).toNat, 0⟩, .lane d p.lane))

/-- VAFADD.f32. -/
def execVafaddF32 (o : AOrd) (d a b : Reg) (s : State) : Out := .next (s.vatomSlot aopFaddF32 o d a b)
/-- VAADD.z32. -/
def execVaaddZ32 (o : AOrd) (d a b : Reg) (s : State) : Out := .next (s.vatomSlot 0 o d a b)

/-- VRDST: an atomic add at every destination, no value returned (14 R364). -/
def execVrdst (d a b : Reg) (s : State) : Out :=
  .next (s.multiDest .atomic a b fun s t pss =>
    let v := s.getV d
    s.atomPieces t .plain (pss.flatten.map fun p => (p, ⟨aopFaddF32, 4, (v.lane p.lane).toNat, 0⟩, .none)))

end Sys2Proof.Machine
end

