-- ==== Sys2Proof/Machine/Sync.lean ====
section
/-! DEFINITION. Full/empty words (14 R365 to R367; 07 R202), fences (14 R372; 07 R187, R191), bells (14 R373 to R378;
07 R200), rolls (14 R379 to R381) and slip stores (14 R382 to R384). -/

namespace Sys2Proof.Machine

open Sys2Proof

/-! ## Full/empty words (14 R365, R366) -/

/-- The kinds of full/empty access that wait: FILL needs EMPTY, TAKE and READF need FULL. -/
def feReady (full : Bool) (kind : Nat) : Bool := if kind = 0 then !full else full

/-- Perform a waiting access: its data, its bit, its result, its acquire, and the end of the task's wait. -/
def State.performFe (s : State) (core : Nat) (w : FeWait) : State :=
  let off := w.word * 8
  let data := leWord (s.sramRead core off 8)
  let s1 := s.feDrop core (·.id == w.id)
  let acquired (s : State) : State :=
    match s.task? w.tid with
    | some t => s.acquireBy w.tid (Task.onCore t) .pkg
    | none => s
  if w.kind = 0 then ((s1.sramWrite core off (natLe 8 w.data.toNat)).setFull core off true).wake w.tid
  else
    let s2 := if w.kind = 1 then s1.setFull core off false else s1
    ((acquired s2).landFor w.tid w.inflId (.word data)).wake w.tid

/-- Examine the waiters on a word in arrival order while one of them can be performed (14 R366); `fuel` is their
number. -/
def State.feExamine (s : State) (core word : Nat) : Nat → State
  | 0 => s
  | n + 1 =>
    match (s.core core).feWaits.find? fun w => w.word == word && feReady (s.wordFull core (word * 8)) w.kind with
    | some w => (s.performFe core w).feExamine core word n
    | none => s

/-- A word has changed state. -/
def State.feChanged (s : State) (core word : Nat) : State := s.feExamine core word (s.core core).feWaits.length

/-- An access that finds no place, or that its port keeps. -/
def State.feKeep (s : State) (core : Nat) (w : FeWait) (p : FePhase) : State :=
  s.modCore core fun c => { c with feRefused := c.feRefused ++ [(w, core, p)] }

/-- An access takes a place in the waiting list. -/
def State.feList (s : State) (core : Nat) (w : FeWait) : State :=
  s.modCore core fun c => { c with feWaits := c.feWaits ++ [w] }

/-- An access arrives whose condition does not hold: it takes a place in the waiting list of 32; or it is refused and
retried 32 cycles later; or, at its second refusal, it has a ticket (14 R366; 01 R14). -/
def State.feQueue (s : State) (core : Nat) (w : FeWait) (refused : Bool) : State :=
  if s.fePlaces core < 32 ∧ (refused ∨ s.feTicketed core = false) then s.feList core w
  else if refused then s.feKeep core w .ticket
  else (s.feKeep core w (.coming true)).post 32 .fullEmptyRetry (.num w.id)

/-- A full/empty access arrives at its SRAM: performed at once, or queued (14 R366). -/
def State.feArrive (s : State) (core : Nat) (w : FeWait) (refused : Bool) : State :=
  if feReady (s.wordFull core (w.word * 8)) w.kind then (s.performFe core w).feChanged core w.word
  else s.feQueue core w refused

/-- A full/empty access that comes again, from where it stands: a claim of a held place uses it or frees it
(14 R366; 01 R14, R15). -/
def State.feAgain (s : State) (core : Nat) (w : FeWait) (p : FePhase) : State :=
  let s1 := s.modCore core fun c => { c with feRefused := c.feRefused.filter (·.1.id != w.id) }
  match p with
  | .coming b => if s1.fePort core (s1.feSource w) then s.setFe core w.id (.behind b) else s1.feArrive core w b
  | .held =>
    if feReady (s.wordFull core (w.word * 8)) w.kind then ((s1.performFe core w).feChanged core w.word).feFreed core
    else (s1.feList core w).feRelease core
  | .behind _ | .ticket => s

/-- The checks of a full/empty address: aligned, and in the scratch window (14 R365). -/
def State.checkFe (s : State) (t : Task) (core a : Nat) (kind : AccKind) : Chk Piece :=
  (s.checkOne t core false a 0 (scalarReq 8 kind)).bind fun p =>
    match p.loc with
    | .sram _ _ => .ok p
    | _ => .bad cScratchRange a 0

/-- A full/empty address outside the scratch window raises SCRATCH_RANGE whatever it translates to. -/
def State.feAddr (s : State) (t : Task) (core a : Nat) (kind : AccKind) : Chk Piece :=
  if a % 8 ≠ 0 then .bad cMisaligned a 3
  else if !inScratch a then .bad cScratchRange a 0
  else s.checkFe t core a kind

/-- FILL (kind 0), TAKE (1) and READF (2): performed now, or the task waits after the bundle (14 R365). -/
def State.feWaitSlot (s : State) (kind : Nat) (d a : Reg) (i : Imm 5) : State :=
  s.whenOn fun s =>
    match s.me? with
    | none => s
    | some t =>
      let core := s.curCore
      s.onChk (s.feAddr t core (eaOf (s.getG a) (immS i)) (if kind = 0 then .store else .load)) fun p =>
        match p.loc with
        | .sram c off =>
          if (kind = 0 && s.rangeHeld core [p] 8) ||
              (if kind = 0 then (s.flushStores t.tid).storesLeft t.tid
               else (s.flushStores t.tid).ownMeets t.tid [.sram c off (List.replicate 8 0)]) then s.hold
          else
            let s0 := s.noteAccess t core (if kind = 0 then .store else .load) [p] 8
              (if kind = 0 then none else some .pkg) (if kind = 0 then some .pkg else none)
            let s1 := if kind = 0 then s0.releaseBy t.tid core .pkg else s0.flushStores t.tid
            let word := off / 8
            if feReady (s1.wordFull c off) kind && !s1.fePort c core then
              (if kind = 0 then
                ((s1.sramWrite c off (natLe 8 (s.getG d).toNat)).setFull c off true).feChanged c word
               else
                let v := leWord (s1.sramRead c off 8)
                let s2 := if kind = 1 then (s1.setFull c off false).feChanged c word else s1
                (s2.acquireBy t.tid core .pkg).putLoad t (.g d) (BitVec.allOnes 64) (.word v) none)
            else
              let (id, s2) := s1.fresh
              let w : FeWait := { id := id, tid := t.tid, kind := kind, word := word, data := s.getG d, inflId := id }
              let s3 := if kind = 0 then s2 else s2.putInfl
                { id := id, reg := .g d, mask := BitVec.allOnes 64, val := .word 0, ord := 0, buf := t.r.buf }
              (if s3.fePort c core then s3.feKeep c w (.behind false) else s3.feQueue c w false).onCur fun x => { x with wait := some (.fullEmpty id) }
        | _ => s

/-- FILL. -/
def execFill (d a : Reg) (i : Imm 5) (s : State) : Out := .next (s.feWaitSlot 0 d a i)
/-- TAKE. -/
def execTake (d a : Reg) (i : Imm 5) (s : State) : Out := .next (s.feWaitSlot 1 d a i)
/-- READF. -/
def execReadf (d a : Reg) (i : Imm 5) (s : State) : Out := .next (s.feWaitSlot 2 d a i)

/-- WRITEF and SETE: performed whatever the bit is (14 R365); WRITEF is a release, SETE is none (14 R365; 07 R202). -/
def State.feSet (s : State) (full : Bool) (d a : Reg) (i : Imm 5) : State :=
  s.whenOn fun s =>
    match s.me? with
    | none => s
    | some t =>
      let core := s.curCore
      s.onChk (s.feAddr t core (eaOf (s.getG a) (immS i)) .store) fun p =>
        match p.loc with
        | .sram c off =>
          if s.rangeHeld core [p] 8 ||
              (if full then (s.flushStores t.tid).storesLeft t.tid
               else (s.flushStores t.tid).ownMeets t.tid [.sram c off (List.replicate 8 0)]) then s.hold
          else
            let s0 := s.noteAccess t core .store [p] 8 none (if full then some .pkg else none)
            let s1 := if full then s0.releaseBy t.tid core .pkg else s0.flushStores t.tid
            ((s1.sramWrite c off (natLe 8 (s.getG d).toNat)).setFull c off full).feChanged c (off / 8)
        | _ => s

/-- WRITEF. -/
def execWritef (d a : Reg) (i : Imm 5) (s : State) : Out := .next (s.feSet true d a i)
/-- SETE. -/
def execSete (d a : Reg) (i : Imm 5) (s : State) : Out := .next (s.feSet false d a i)

/-! ## Fences (14 R372) -/

/-- Does a task have a CFLUSH or CINV running? -/
def State.cacheBusy (s : State) (tid : Word) : Bool := s.mem.cacheOps.any (·.tid == tid)

/-- Has a remote load or valued atomic of a task not returned? -/
def State.readsRemote (s : State) (tid : Word) : Bool :=
  s.fabric.remotes.any fun r =>
    match r.use with
    | .load t _ _ _ _ _ => t == tid
    | .pair t _ _ => t == tid
    | _ => false

/-- Has what a fence waits for come about (14 R372; 07 R187, R191)? An acquire fence: the task's remote reads have
returned. A full fence: every access of the task has been performed, at PKG and wider no cache control of it runs, and
at FABRIC its counted releases have settled. At SEQ a fence orders nothing that is not ordered already. -/
def State.fenceDone (s : State) (tid : Word) (f : Fence) : Bool :=
  f.scope == .seq ||
  (if f.full then
     !s.remoteBusy tid && !s.storesLeft tid && (!scopeWide f.scope || !s.cacheBusy tid) &&
     (f.scope != .fabric || s.clocks.unsettled.all fun u => u.tid != tid)
   else !s.readsRemote tid)

/-- The task's next bundle waits for the fence (14 R372). -/
def State.fenceWait (s : State) (full : Bool) (sc : Scope) : State :=
  match s.me? with
  | some t => s.onCur fun c => { c with fence := some ⟨full, sc, t.trap.mode⟩ }
  | none => s

/-- The writes of the running task that follow a release fence carry what it does (07 R187). -/
def State.markRelease (s : State) (sc : Scope) : State :=
  match s.me? with
  | some t =>
    let stamp := if scopeWide sc then s.stampOf t s.curCore else []
    s.modTask t.tid fun t => { t with relMark := some ⟨s.nextId, sc == .fabric, stamp⟩ }
  | none => s

/-- FENCE.ACQ. -/
def execFenceAcq (sc : Scope) (s : State) : Out :=
  .next (s.whenOn fun s => (s.acquireBy s.curTid s.curCore sc).fenceWait false sc)

/-- FENCE.REL: the sequencer does not stall for it (07 R187, R189). -/
def execFenceRel (sc : Scope) (s : State) : Out :=
  .next (s.whenOn fun s => s.afterCommit (scopeWide sc) fun s => (s.releaseBy s.curTid s.curCore sc).markRelease sc)

/-- FENCE, full. -/
def execFence (sc : Scope) (s : State) : Out :=
  .next (s.whenOn fun s => s.afterCommit (scopeWide sc) fun s =>
    (((s.releaseBy s.curTid s.curCore sc).markRelease sc).acquireBy s.curTid s.curCore sc).fenceWait true sc)

/-! ## Bells (14 R373 to R378) -/

/-- LEVEL of a bell identifier. -/
def bellLevel (b : Nat) : Nat := b / 2 ^ 7 % 4
/-- NUMBER of a bell identifier. -/
def bellNumber (b : Nat) : Nat := b % 2 ^ 7

/-- A malformed identifier (14 R373). -/
def bellBad (b : Nat) : Bool :=
  let level := bellLevel b
  let cluster := b / 2 ^ 9 % 2 ^ 5
  let die := b / 2 ^ 14 % 4
  let own := b / 2 ^ 16 % 2 == 1
  level == 3 || decide (2 ^ 17 ≤ b) ||
  (level == 0 && decide (64 ≤ bellNumber b)) || (level == 2 && decide (32 ≤ bellNumber b)) ||
  decide (24 ≤ cluster) ||
  ((level != 0 || own) && cluster != 0) || ((level == 2 || own) && die != 0)

/-- The identifier with OWN resolved for a core (14 R373, R378). -/
def bellKey (b core : Nat) : Nat :=
  let level := bellLevel b
  let base := b % 2 ^ 9
  if b / 2 ^ 16 % 2 = 1 then
    (if level = 0 then base + coreCluster core * 2 ^ 9 + coreDie core * 2 ^ 14
     else if level = 1 then base + coreDie core * 2 ^ 14 else base)
  else b

/-- Is a core inside a bell's cluster or die? -/
def bellCovers (key core : Nat) : Bool :=
  let die := key / 2 ^ 14 % 4
  if bellLevel key = 0 then die == coreDie core && key / 2 ^ 9 % 2 ^ 5 == coreCluster core
  else if bellLevel key = 1 then die == coreDie core else true

/-- The scope of a bell's level (07 R183). -/
def bellScope (key : Nat) : Scope := if bellLevel key = 0 then .cluster else if bellLevel key = 1 then .die else .pkg

/-- A bell. -/
def State.bell (s : State) (key : Nat) : Bell := s.cores.bells.getD {} key
/-- Set a bell. -/
def State.setBell (s : State) (key : Nat) (b : Bell) : State :=
  s.onCores fun c => { c with bells := c.bells.put key b }

/-- Is a generation count later than another, over a window of 2^31 (14 R374)? -/
def genLater (a b : BitVec 32) : Bool := decide (0 < (a - b).toNat) && decide ((a - b).toNat < 2 ^ 31)

/-- Record (bell, generation) as the task's most recent of eight (14 R378). -/
def Task.recordBell (t : Task) (key : Nat) (gen : BitVec 32) : Task :=
  { t with bells := ((key, gen) :: t.bells.filter (·.1 != key)).take 8 }

/-- The bit of a sequencer in a cluster bell's masks (14 R374). -/
def bellBit (core sq : Nat) : BitVec 32 := 1#32 <<< (4 * coreIndex core + sq)

/-- End the BELLW waits on a bell that satisfy a test. -/
def State.bellWake (s : State) (key : Nat) (acquire : Bool) (p : BitVec 32 → Bool) : State :=
  s.tasks.foldl (fun s t =>
    match t.wait with
    | some (.bell k gen) =>
      if k = key ∧ p gen = true then
        let s1 := if acquire then s.acquireBy t.tid (Task.onCore t) (bellScope key) else s
        s1.wake t.tid
      else s
    | _ => s) s

/-- A package bell's generation ends: DCOND of its owner, and the Invigilator's intervals (03 R89; 06 R175). -/
def State.pkgBellRang (s : State) (owner : Option Nat) (number : Nat) : State :=
  let s1 := match owner with
    | some n => s.modCtx n fun c => { c with dcond := c.dcond ||| (1#64 <<< number) }
    | none => s
  s1.onHost fun h =>
    { h with ctxs := h.ctxs.map fun (i, c) =>
        (i, { c with iv := c.iv.map fun (j, w) =>
          (j, if w.arm && w.bellv && w.bell.toNat == number then { w with interval := w.interval + 1 } else w) }) }

/-- An arrival completes its generation when ARR equals MEMB (14 R376). -/
def State.bellArrive (s : State) (key : Nat) (b : Bell) : State :=
  if b.arr = b.memb then
    let b1 := { b with gen := b.gen + 1, arr := 0, isOpen := false, arrivers := [] }
    let s1 := s.setBell key b1
    let s2 := if bellLevel key = 2 then s1.pkgBellRang b.owner (bellNumber key) else s1
    s2.bellWake key true fun gen => genLater b1.gen gen
  else s.setBell key b

/-- A task's arrival at a bell is applied (14 R376; 07 R189). -/
def State.bellCount (s : State) (key : Nat) (tid : Word) (bit : BitVec 32) : State :=
  let b := s.bell key
  if b.owner.isNone ∨ (bellLevel key = 0 ∧ b.arr &&& bit ≠ 0) then s
  else
    s.bellArrive key
      { b with isOpen := true, arrivers := tidLnum tid :: b.arrivers.filter (· != tidLnum tid)
               arr := if bellLevel key = 0 then b.arr ||| bit else b.arr + 1 }

/-- The die that keeps a bell: its own, or for a package bell the Coachman's (log entry 39). -/
def State.bellHome (s : State) (key : Nat) : Nat := if bellLevel key = 2 then s.coachDie else key / 2 ^ 14 % 4

/-- A message of a task that delivers a release to a die: applied at once, or once its stamp is heard and what it carries
is performed (07 R189). -/
def State.sendRelease (s : State) (t : Task) (core die : Nat) (act : StampAct) (now : State → State) : State :=
  if s.messageWaits t core die then s.sendStamped t core die act else now s

/-- The bell a slot names, where the task may arrive or wait at it (14 R376, R377). -/
def State.bellFor (s : State) (t : Task) (g : Word) : Option (Nat × Bell) :=
  if bellBad g.toNat then none
  else
    let key := bellKey g.toNat s.curCore
    let b := s.bell key
    if b.owner == some t.ctx && bellCovers key s.curCore &&
        (bellLevel key != 0 || b.memb &&& bellBit s.curCore (t.sq.getD 0) != 0) then some (key, b) else none

/-- BELLA. -/
def execBella (a : Reg) (s : State) : Out :=
  .next (s.whenOn fun s =>
    match s.me? with
    | none => s
    | some t =>
      match s.bellFor t (s.getG a) with
      | none => s
      | some (key, b) =>
        let bit := bellBit s.curCore (t.sq.getD 0)
        if bellLevel key = 0 ∧ b.arr &&& bit ≠ 0 then s
        else
          let s1 := s.releaseBy t.tid s.curCore (bellScope key)
          let s2 := s1.modTask t.tid fun t => Task.recordBell t key b.gen
          s2.sendRelease t s.curCore (s.bellHome key) (.bell key t.tid bit) fun s => s.bellCount key t.tid bit)

/-- BELLW. -/
def execBellw (a : Reg) (s : State) : Out :=
  .next (s.whenOn fun s =>
    match s.me? with
    | none => s
    | some t =>
      match s.bellFor t (s.getG a) with
      | none => s
      | some (key, b) =>
        let gen := match t.bells.find? (·.1 == key) with
          | some r => r.2
          | none => b.gen
        let s1 := s.modTask t.tid fun t => Task.recordBell t key gen
        if genLater b.gen gen then s1.acquireBy t.tid s.curCore (bellScope key)
        else s1.onCur fun c => { c with wait := some (.bell key gen) })

/-- BELLM. -/
def execBellm (a b : Reg) (s : State) : Out :=
  .next (s.whenOn fun s =>
    match s.me? with
    | none => s
    | some t =>
      let g := s.getG a
      let key := bellKey g.toNat s.curCore
      let old := s.bell key
      if bellBad g.toNat || !bellCovers key s.curCore || old.isOpen || (old.owner.isSome && old.owner != some t.ctx) then
        s.raise cBellBusy 0 g.toNat
      else
        let m : BitVec 32 := if bellLevel key = 0 then (s.getG b).setWidth 32 else ((s.getG b).setWidth 16).setWidth 32
        let s1 := s.setBell key { old with memb := m, arr := 0, arrivers := [], owner := if m = 0 then none else some t.ctx }
        if m = 0 then s1.bellWake key false fun _ => true else s1)

/-! ## Rolls (14 R379 to R381) -/

/-- A roll's fields. -/
structure Roll where
  expect : Nat
  arrived : Nat
  phase : Bool
  armed : Bool
  code : Nat
  deriving DecidableEq, Repr

/-- A roll from its 16 bytes. -/
def Roll.ofBytes (bs : List Byte) : Roll :=
  let hi := fieldAt bs 8 8
  { expect := fieldAt bs 0 4, arrived := fieldAt bs 4 4, phase := bitsOf hi 0 1 == 1, armed := bitsOf hi 1 1 == 1
    code := bitsOf hi 16 16 }

/-- Bits [127:64] of a roll, the reserved ones zero. -/
def Roll.high (r : Roll) : Nat := flag r.phase + 2 * flag r.armed + r.code * 2 ^ 16

/-- The 16 bytes of a roll. -/
def Roll.bytes (r : Roll) : List Byte := natLe 4 r.expect ++ natLe 4 r.arrived ++ natLe 8 r.high

/-- `complete` of 14 R380. -/
def Roll.complete (r : Roll) (code : Nat) : Roll := { r with code := code, phase := !r.phase, armed := false }

/-- ROLLI. -/
def Roll.init (r : Roll) (expect : Nat) : Roll :=
  let r1 := { r with expect := expect, arrived := 0, code := 0, armed := true }
  if expect = 0 then r1.complete 0 else r1

/-- Bytes arrive: ROLLA and the engines (14 R380). -/
def Roll.arrive (r : Roll) (n : Nat) : Roll :=
  let r1 := { r with arrived := min (r.arrived + n) (2 ^ 32 - 1) }
  if r1.expect < r1.arrived then
    let r2 := { r1 with code := cRollOverrun }
    if r2.armed then r2.complete cRollOverrun else r2
  else if r1.armed ∧ r1.arrived = r1.expect then r1.complete 0 else r1

/-- A roll at a place of a scratchpad. -/
def State.roll (s : State) (core off : Nat) : Roll := Roll.ofBytes (s.sramRead core off 16)

/-- End the ROLLW waits on rolls that are not armed (14 R381): the value lands, the wait is an acquire, and a code is
taken as an engine fault with FADDR. -/
def State.pokeRolls (s : State) (faddr : Nat) : State :=
  s.tasks.foldl (fun s t =>
    match t.wait with
    | some (.roll a id _) =>
      let bs := s.sramRead (scratchCore a) (a % 2 ^ 21) 16
      let r := Roll.ofBytes bs
      if r.armed then s
      else
        let s1 := (s.landFor t.tid id (.word (leWord (bs.drop 8)))).acquireBy t.tid (Task.onCore t) .pkg
        let s2 := (s1.modTask t.tid fun t => { t with redo := none }).wake t.tid
        if r.code = 0 then s2
        else s2.queueFault t.tid
          { code := BitVec.ofNat 16 r.code, addr := BitVec.ofNat 64 faddr, info := BitVec.ofNat 64 a
            deferred := true, engine := true }
    | _ => s) s

/-- Change a roll and end the waits that this ends. -/
def State.setRoll (s : State) (core off : Nat) (r : Roll) (faddr : Nat) : State :=
  (s.sramWrite core off r.bytes).pokeRolls faddr

/-- The checks of a roll address (14 R380). -/
def State.checkRoll (s : State) (ctx a : Nat) : Chk (Nat × Nat) :=
  if a % 16 ≠ 0 then .bad cMisaligned a 4
  else if !inScratch a then .bad cScratchRange a 0
  else
    match s.checkScratch ctx a 16 with
    | .ok (.sram c o) => .ok (c, o)
    | _ => .bad cScratchRange a 0

/-- A roll operation of the running task. -/
def State.rollSlot (s : State) (a : Reg) (f : State → Task → Nat → Nat → Nat → State) : State :=
  s.whenOn fun s =>
    match s.me? with
    | none => s
    | some t =>
      let g := (s.getG a).toNat
      s.onChk (s.checkRoll t.ctx g) fun (c, o) =>
        s.onOwn t.tid [.sram c o (List.replicate 16 0)] (fun s => f s t g c o) s.hold

/-- ROLLI. -/
def execRolli (a b : Reg) (s : State) : Out :=
  .next (s.rollSlot a fun s _ _ c o => s.setRoll c o ((s.roll c o).init ((s.getG b).toNat % 2 ^ 32)) 0)

/-- ROLLA, a release at PKG scope. -/
def execRolla (a b : Reg) (s : State) : Out :=
  .next (s.rollSlot a fun s t _ c o =>
    let n := (s.getG b).toNat % 2 ^ 32
    (s.releaseBy t.tid s.curCore .pkg).sendRelease t s.curCore (coreDie c) (.roll c o n) fun s =>
      s.setRoll c o ((s.roll c o).arrive n) 0)

/-- ROLLW: it waits while the roll is armed; otherwise the value and the code are taken at once. -/
def execRollw (d a : Reg) (s : State) : Out :=
  .next (s.rollSlot a fun s t g c o =>
    let bs := s.sramRead c o 16
    let r := Roll.ofBytes bs
    if r.armed then
      let (id, s1) := s.fresh
      (s1.putInfl { id := id, reg := .g d, mask := BitVec.allOnes 64, val := .word 0, ord := 0 }).onCur
        fun x => { x with wait := some (.roll g id d) }
    else
      let s1 := (s.acquireBy t.tid s.curCore .pkg).putResult (.g d) (BitVec.allOnes 64) (.word (leWord (bs.drop 8)))
      if r.code = 0 then s1
      else s1.queueFault t.tid
        { code := BitVec.ofNat 16 r.code, info := BitVec.ofNat 64 g, deferred := true, engine := true })

/-! ## Slip stores (14 R382 to R384) -/

/-- The checks and waits common to the slip stores. -/
def State.slipSlot (s : State) (a : Reg) (f : State → Task → Piece → State) : State :=
  s.whenOn fun s =>
    match s.me? with
    | none => s
    | some t =>
      s.onChk (s.checkOne t s.curCore false (eaOf (s.getG a) 0) 0 (scalarReq 8 .store)) fun p =>
        if s.rangeHeld s.curCore [p] 8 then s.hold
        else f (s.noteAccess t s.curCore .store [p] 8 none none) t p

/-- Put a slip store of a versioned task into its commit queue (06 R170). -/
def State.queueSlip (s : State) (t : Task) (op : CommitOp) (va : Nat) (s0 : State) : State :=
  if 64 ≤ t.commitQ.length then s0.raise cVersionFull va 1
  else s.modTask t.tid fun t => { t with commitQ := t.commitQ ++ [op] }

/-- STSLIP. -/
def execStslip (d a b : Reg) (s0 : State) : Out :=
  .next (s0.slipSlot a fun s t p =>
    let bs := natLe 8 (s.getG b).toNat
    let core := s.curCore
    let ones : Word := BitVec.allOnes 64
    let (id, s1) := s.fresh
    let wait (s : State) : State :=
      s.putInfl { id := id, reg := .g d, mask := ones, val := .word 0, ord := 0 }
    if s.versioned then
      (wait s1).queueSlip t (.store [(p.va, p.loc.place, bs)] [] (some id) s.tagOf) p.va s0
    else
      match p.loc with
      | .peer chip fctx va =>
        match s.slipFree? (coreDie core) with
        | none => s0.hold
        | some e =>
          let s2 := s1.slipTake e
          let tok := s2.slipToken (slipHub e) e
          let s3 := s2.remoteSend (coreDie core) (taskUnit t core) t.ctx
            { writePkt chip fctx va bs s.tagOf with wantslip := true, slip0 := tok } (.store t.tid)
          s3.putResult (.g d) ones (.word (tok.setWidth 64))
      | loc => (wait s1).issueStore t core (loc.place.memOp bs).toList none (some id) [])

/-- STWAIT1 and STWAIT2: the store goes out with the slips it carries. -/
def State.stwait (s0 : State) (two : Bool) (d a b : Reg) : State :=
  s0.slipSlot a fun s t p =>
    let bs := natLe 8 (s.getG b).toNat
    let g := s.getG d
    let slips : List (BitVec 32) := if two then [g.extractLsb' 0 32, g.extractLsb' 32 32] else [g.extractLsb' 0 32]
    if s.versioned then s.queueSlip t (.store [(p.va, p.loc.place, bs)] slips none s.tagOf) p.va s0
    else
      s.onOwn t.tid (p.loc.place.memOp bs).toList
        (fun s => s.sendWithSlips t s.curCore p.va p.loc.place bs slips s.tagOf) s0.hold

/-- STWAIT1. -/
def execStwait1 (d a b : Reg) (s : State) : Out := .next (s.stwait false d a b)
/-- STWAIT2. -/
def execStwait2 (d a b : Reg) (s : State) : Out := .next (s.stwait true d a b)

end Sys2Proof.Machine
end

