-- ==== Sys2Proof/Machine/LockCache.lean ====
section
/-! DEFINITION. Lock instructions at issue (14 R385; 09 R222 to R228, R238) and cache controls (14 R386 to R388;
05 R145, R146). -/

namespace Sys2Proof.Machine

open Sys2Proof

/-! ## Locks -/

/-- The mode a task holds an object in. -/
def Task.holds (t : Task) (lw : Word) : Option LockMode := (t.locks.find? (·.1 == lw)).map (·.2)

/-- A lock is granted to a task: new, or its mode raised in place (09 R227, R239). -/
def Task.addLock (t : Task) (lw : Word) (m : LockMode) : Task :=
  if (Task.holds t lw).isSome then
    { t with locks := t.locks.map fun l => if l.1 == lw then (lw, m) else l }
  else { t with locks := t.locks ++ [(lw, m)] }

/-- What the checks of a request find: granted with no message, a message, or a fault with its code (09 R222, R226,
R227, R238). -/
inductive LockCheck where
  | done | send | bad (code : Nat)
  deriving DecidableEq, Repr

/-- The checks of a request or a try, against the task's own held locks. -/
def lockCheck (t : Task) (lw : Word) (m : LockMode) : LockCheck :=
  if lwBad lw then .bad cLockHierarchy
  else
    let parentOk := match lwParent lw with
      | none => true
      | some p =>
        match Task.holds t p with
        | some h => parentAllows h m
        | none => false
    if !parentOk then .bad cLockHierarchy
    else
      match Task.holds t lw with
      | some h =>
        match heldRequest h m with
        | .granted => .done
        | .upgrade => .send
        | .wrong => .bad cLockHierarchy
      | none => if 64 ≤ t.locks.length then .bad cLockLimit else .send

/-- TRAPINFO of a lock fault (06 R160). -/
def lockInfo (code : Nat) (lw : Word) : Nat := if code = cLockHierarchy then lw.toNat else 0

/-- LKREQ: the next bundle does not issue until the request is granted (14 R385). -/
def execLkreq (m : LockMode) (a : Reg) (s : State) : Out :=
  .next (s.whenOn fun s =>
    match s.me? with
    | none => s
    | some t =>
      let lw := s.getG a
      match lockCheck t lw m with
      | .bad c => s.raise c 0 (lockInfo c lw)
      | .done => s
      | .send =>
        (s.post 1 .prefectLockRequest (.lock t.tid lw m 0)).onCur fun c => { c with wait := some (.lock lw m) })

/-- LKTRY: Gd is 1 when granted, 0 when BUSY (09 R231). -/
def execLktry (m : LockMode) (d a : Reg) (s : State) : Out :=
  .next (s.whenOn fun s =>
    match s.me? with
    | none => s
    | some t =>
      let lw := s.getG a
      match lockCheck t lw m with
      | .bad c => s.raise c 0 (lockInfo c lw)
      | .done => s.putResult (.g d) (BitVec.allOnes 64) (.word 1)
      | .send =>
        let (id, s1) := s.fresh
        (s1.putInfl { id := id, reg := .g d, mask := BitVec.allOnes 64, val := .word 0, ord := 0 }).post 1
          .prefectLockTry (.lock t.tid lw m id))

/-- Does the task hold a child of an object (09 R223, R228)? -/
def Task.holdsChild (t : Task) (lw : Word) : Bool := t.locks.any fun l => lwParent l.1 == some lw

/-- LKREL: a release at PKG scope; of a lock held to write, after a versioned task's commit sequence (09 R233). -/
def execLkrel (a : Reg) (s : State) : Out :=
  .next (s.whenOn fun s =>
    match s.me? with
    | none => s
    | some t =>
      let lw := s.getG a
      if lwBad lw || Task.holdsChild t lw then s.raise cLockHierarchy 0 lw.toNat
      else
        match Task.holds t lw with
        | none => s.raise cLockHierarchy 0 lw.toNat
        | some m =>
          s.afterCommit (m == .ix || m == .inc || m == .x) fun s => s.onPerformed t.tid (hold := s.hold) fun s =>
            let s1 := s.releaseBy t.tid s.curCore .pkg
            (s1.modTask t.tid fun t => { t with locks := t.locks.filter (·.1 != lw) }).post 1 .prefectLockRelease
              (.lock t.tid lw m 0))

/-! ## Range registers (14 R387; 05 R145, R146) -/

/-- Every line held under a register becomes normal. -/
def State.unpin (s : State) (ctx n : Nat) : State :=
  s.onMem fun m =>
    { m with l2 := m.l2.map fun l =>
        if l.ctx == ctx && l.reg == some n then { l with cls := .normal, reg := none } else l }

/-- Set a register to a range, or make it invalid where the length is 0. -/
def State.setRange (s : State) (ctx n : Nat) (evict : Bool) (a b : Word) : State :=
  let s1 := if (s.ctx ctx).pinb.getD 0 n |>.getLsbD 0 then s.unpin ctx n else s
  let base := a.toNat / 2 ^ 16 % 2 ^ 41
  let len := min ((a.toNat % 2 ^ 16 + b.toNat + (2 ^ 16 - 1)) / 2 ^ 16) (2 ^ 41 - base)
  s1.modCtx ctx fun c =>
    if len = 0 then { c with pinb := c.pinb.put n 0, pinl := c.pinl.put n 0 }
    else
      { c with
        pinb := c.pinb.put n (BitVec.ofNat 64 (1 + 2 * flag evict + base * 2 ^ 16))
        pinl := c.pinl.put n (BitVec.ofNat 64 (len % 2 ^ 41 * 2 ^ 16)) }

/-- CPIN. -/
def execCpin (n : KReg) (a b : Reg) (s : State) : Out :=
  .next (s.whenOn fun s => s.setRange s.curCtx n.toNat false (s.getG a) (s.getG b))
/-- CEVF. -/
def execCevf (n : KReg) (a b : Reg) (s : State) : Out :=
  .next (s.whenOn fun s => s.setRange s.curCtx n.toNat true (s.getG a) (s.getG b))
/-- CUNPIN. -/
def execCunpin (n : KReg) (s : State) : Out :=
  .next (s.whenOn fun s => (s.unpin s.curCtx n.toNat).modCtx s.curCtx fun c =>
    { c with pinb := c.pinb.put n.toNat 0, pinl := c.pinl.put n.toNat 0 })

/-! ## CFLUSH, CINV and PREF (14 R388) -/

/-- Start a cache operation on [Ga, Ga + Gb); it runs in the background. -/
def State.cacheSlot (s : State) (evict : Bool) (a b : Reg) : State :=
  s.whenOn fun s =>
    match s.me? with
    | none => s
    | some t =>
      let len := (s.getG b).toNat
      if len = 0 then s
      else
        let (id, s1) := s.fresh
        let h := s.taskHeap t
        (s1.onMem fun m =>
          { m with cacheOps := m.cacheOps ++
              [{ id := id, tid := t.tid, ctx := t.ctx, lo := (s.getG a).toNat, len := len
                 heap := (h.hwb, h.hwl, h.hwo), evict := evict, core := s.curCore }] }).postFree
          .cacheMaintenanceComplete (.num id)

/-- CFLUSH. -/
def execCflush (a b : Reg) (s : State) : Out := .next (s.cacheSlot false a b)
/-- CINV. -/
def execCinv (a b : Reg) (s : State) : Out := .next (s.cacheSlot true a b)

/-- The local leaves of a page table that map addresses in [lo, hi): virtual base, physical base, bytes. `fuel` is one
more than the level of the node. -/
def State.leavesFrom (s : State) (lo hi : Nat) : Nat → Nat → Nat → List (Nat × Nat × Nat)
  | 0, _, _ => []
  | level + 1, node, va =>
    let bits := if level = 0 then 16 else if level = 1 then 21 else if level = 2 then 30 else if level = 3 then 39 else 48
    let n := if level = 0 then 32 else 512
    (List.range n).flatMap fun i =>
      let base := va + i * 2 ^ bits
      let pa := node + 8 * i
      if hi ≤ base ∨ base + 2 ^ bits ≤ lo ∨ !physExists s pa ∨ 2 ^ 51 ≤ pa then []
      else
        let e : BitVec 64 := leWord (s.physRead 0 pa 8).1
        match e.toNat % 4 with
        | 2 => if pteBad level e then [] else s.leavesFrom lo hi level (e.toNat / 2 ^ 8 % 2 ^ 44 * 2 ^ 8) base
        | 3 => if pteBad level e || e.getLsbD 8 then [] else [(base, e.toNat / 2 ^ 16 % 2 ^ 36 * 2 ^ 16, 2 ^ bits)]
        | _ => []

/-- Does a physical line hold bytes of a cache operation's range? -/
def cacheTouches (leaves : List (Nat × Nat × Nat)) (op : CacheOp) (line : Nat) : Bool :=
  let hi := op.lo + op.len
  let inRange (va : Nat) : Bool := decide (va < hi) && decide (op.lo < va + 64)
  let inHeap (va : Nat) : Bool := decide (op.heap.1 ≤ va) && decide (va < op.heap.1 + op.heap.2.1)
  let heapVa := (line * 64 + (2 ^ 57 - op.heap.2.2 % 2 ^ 57)) % 2 ^ 57
  (inHeap heapVa && inRange heapVa) ||
  leaves.any fun (va, pa, n) =>
    decide (pa ≤ line * 64) && decide (line * 64 < pa + n) && inRange (va + (line * 64 - pa)) &&
      !inHeap (va + (line * 64 - pa))

/-- A cache operation is done: dirty lines of its range are clean, and CINV's leave L2 and the core's L1. -/
def State.cacheDone (s : State) (op : CacheOp) : State :=
  let leaves := s.leavesFrom op.lo (op.lo + op.len) 5 ((s.ctx op.ctx).ptbase.toNat * 2 ^ 12) 0
  let hit := cacheTouches leaves op
  let s0 := s.onMem fun m => { m with cacheOps := m.cacheOps.filter (·.id != op.id) }
  let lines := s.mem.l2.filter fun l => hit l.line
  let s1 := if op.evict then lines.foldl (fun s l => s.leaveL2 l) s0
    else (lines.filter (·.dirty)).foldl (fun s l => s.hbmActive l.line) (s0.onMem fun m =>
      { m with l2 := m.l2.map fun l => if hit l.line then { l with dirty := false } else l })
  if op.evict then s1.modCore op.core fun c => { c with l1 := c.l1.filter fun l => !hit l.1 } else s1

/-- CACHE_MAINTENANCE_COMPLETE. -/
def execCacheMaintenanceComplete (s : State) : Out :=
  .next (match s.arg with
    | .num id =>
      match s.mem.cacheOps.find? (·.id == id) with
      | some op => s.cacheDone op
      | none => s
    | _ => s)

/-- Where PREF's address lies, walked without a TLB; none where it does not translate to memory of this chip. -/
def State.prefPlace (s : State) (t : Task) (va : Nat) : Option (Nat × Place × Bool) :=
  let r := match heapCheck s (s.taskHeap t) va with
    | some r => r
    | none =>
      match s.walk t.ctx va with
      | .leaf l e => leafCheck s l e va .load false
      | .bad c i => .bad c va i
      | .notPresent l => .resolve va false l
  match r with
  | .ok (.phys pa place evf) => if inScratch va then none else some (pa, place, evf)
  | _ => none

/-- PREF: the line comes into its L2 slice and, where allowed, into the core's L1. -/
def execPref (a : Reg) (i : Imm 5) (s : State) : Out :=
  .next (s.whenOn fun s =>
    match s.me? with
    | none => s
    | some t =>
      let va := eaOf (s.getG a) (immS i)
      match s.prefPlace t va with
      | none => s
      | some (pa, place, evf) =>
        if !isCacheable s pa then s
        else
          let s1 := s.touchL2 t.ctx pa (accessClass (s.ctx t.ctx) va evf) false
          if l1Able s pa place && (s.poisonedLine pa 1).isNone && (s.l1Line t.ctx s.curCore (pa / 64)).isNone then
            (s1.readThroughL1 t.ctx s.curCore pa 1 place).2
          else s1)

end Sys2Proof.Machine
end

