-- ==== Sys2Proof/Machine/MatrixUnit.lean ====
section
/-! DEFINITION. The matrix unit: exact sums (08 R217 to R219), operand blocks (15 R392, R396), tiles and their busy
bits (05 R126, R137), and an MMA's result (15 R394). -/

namespace Sys2Proof.Machine

open Sys2Proof

/-! ## Exact sums (08 R218) -/

/-- Terms of an element summed so far: what special values they held, and the exact sum in units of 2^-300. -/
structure MmaAcc where
  nan : Bool := false
  zeroInf : Bool := false
  pinf : Bool := false
  ninf : Bool := false
  sum : Int := 0
  deriving DecidableEq, Repr

/-- One product joins the sum. -/
def mmaTerm (x : MmaAcc) (a b : FpVal) : MmaAcc :=
  match a, b with
  | .nan, _ => { x with nan := true }
  | _, .nan => { x with nan := true }
  | .fin n1 m1 e1, .fin n2 m2 e2 =>
    { x with sum := x.sum + signed (n1 != n2) ((m1 * m2) * 2 ^ (e1 + e2 + 300).toNat) }
  | a, b =>
    if valIsZero a || valIsZero b then { x with zeroInf := true }
    else if valNeg a != valNeg b then { x with ninf := true } else { x with pinf := true }

/-- The canonical NaN of FP32. -/
def qnan32 : Nat := canonNaN .f32

/-- mma_element (08 R218): the new element and its events. -/
def mmaElement (z : Nat) (x : MmaAcc) (sa sb : FpVal) : Nat × List Nat :=
  let zv := decodeTy .f32 z
  let sum : FpVal := if x.pinf then .inf false else if x.ninf then .inf true
    else .fin (decide (x.sum < 0)) x.sum.natAbs (-300)
  let zero := valIsZero sum || valIsZero sa || valIsZero sb
  let inf := valIsInf sum || valIsInf sa || valIsInf sb
  if x.nan || valIsNan zv || valIsNan sa || valIsNan sb then (qnan32, [])
  else if x.zeroInf || (x.pinf && x.ninf) || (zero && inf) then (qnan32, [evInvalid])
  else
    let t := (mulVal (mulVal sum sa).1 sb).1
    if valIsZero t then (z, []) else roundRes .f32 .rne (addVal .rne zv t)

/-! ## Operand elements (15 R392) -/

/-- Element of `w` bits at a bit offset of a byte array. -/
def bitsAt (bs : Array Byte) (w bit : Nat) : Nat :=
  let n := (w + 7) / 8
  let x := ((List.range n).map fun i => (bs.getD (bit / 8 + i) 0).toNat * 2 ^ (8 * i)).sum
  x / 2 ^ (bit % 8) % 2 ^ w

/-- Elements of an operand row of 128 bytes: K of 08 R217. -/
def mmaK (w : Nat) : Nat := 1024 / w

/-- The 96 by 96 results of an MMA, row by row, each with its events (15 R394). An element whose terms are all skipped
keeps its bits (08 R219). -/
def mmaTile (fmt : Word) (sb : List (BitVec 32)) (a b : Array Byte) (present : List Nat) (z : List Lane) :
    List (Nat × List Nat) :=
  let ta := tyOfFmtCode (fmtA fmt)
  let tb := tyOfFmtCode (fmtB fmt)
  let w := tyBits ta
  let sc := fmtScale fmt
  let zs := z.toArray
  let one : FpVal := .fin false 1 0
  (List.range 96).flatMap fun i =>
    let row := present.map fun k => (k, decodeTy ta (bitsAt a w (1024 * i + k * w)))
    let sa := if sc = 1 ∨ sc = 3 then decodeTy .f32 (bitsAt a 32 (8 * (12288 + 4 * i))) else one
    (List.range 96).map fun j =>
      let old := (zs.getD (96 * i + j) 0).toNat
      let sbj := if sc = 2 ∨ sc = 3 then decodeTy .f32 ((sb.getD j 0).toNat) else one
      if present.isEmpty then (old, [])
      else mmaElement old (row.foldl (fun x (k, av) => mmaTerm x av (decodeTy tb (bitsAt b w (96 * w * k + j * w)))) {}) sa sbj

/-! ## Lines of an operand -/

/-- The first address in each 64-byte line of a range. -/
def linePoints (va n : Nat) : List Nat :=
  (List.range ((va + n - 1) / 64 - va / 64 + 1)).map fun i => max va ((va / 64 + i) * 64)

/-- The same for several rising ranges, each line once. -/
def linePointsAll (rs : List (Nat × Nat)) : List Nat :=
  rs.foldl (fun l r => l ++ (linePoints r.1 r.2).filter fun p => !(l.any fun q => q / 64 == p / 64)) []

/-- Does a place deny matrix operands: a peer chip or host memory (15 R393)? -/
def Loc.foreign : Loc → Bool
  | .peer _ _ _ => true
  | .phys pa _ _ => decide (2 ^ 51 ≤ pa)
  | .sram _ _ => false

/-- The 64-byte granule of a line's location (05 R138). -/
def Loc.granule : Loc → Nat
  | .phys pa _ _ => pa / 64
  | .sram c o => 2 ^ 46 + sramKey c o / 64
  | .peer _ _ _ => 0

/-- Translate lines one after another (15 R393): PERM with `info` for a peer chip or host memory. -/
def checkLines (acc : Nat → Chk Loc) (info : Nat) : List Nat → Chk (List (Nat × Loc))
  | [] => .ok []
  | p :: ps =>
    (acc p).bind fun loc =>
      if loc.foreign then .bad cPerm p info
      else (checkLines acc info ps).bind fun rest => .ok ((p, loc) :: rest)

/-- An access of a task that walks without its TLBs, with the heap window its launch latched (05 R147). -/
def State.walkAccess (s : State) (t : Task) (va n : Nat) (kind : AccKind) : Chk Loc :=
  if inScratch va then s.checkScratch t.ctx va n
  else
    match heapCheck s (s.taskHeap t) va with
    | some r => r
    | none =>
      match s.walk t.ctx va with
      | .bad c i => .bad c va i
      | .notPresent l => .resolve va false l
      | .leaf l e => leafCheck s l e va kind false

/-- Translate the line of an address for a task on a core. -/
def State.lineAcc (s : State) (t : Task) (core : Nat) (kind : AccKind) (va : Nat) : Chk Loc :=
  s.taskAccess t core (va % 2 ^ 57) 1 kind

/-- Pieces of 64 bytes, or the rest of a line, for what notes an access. -/
def linePieces (ls : List (Nat × Loc)) : List Piece := ls.map fun (va, loc) => { lane := 0, va := va / 64 * 64, loc := loc }

/-- Lines as an MMA keeps them: virtual line and granule. -/
def lineKeys (ls : List (Nat × Loc)) : List (Nat × Nat) := ls.map fun (va, loc) => (va / 64, loc.granule)

/-- The bytes of one line as a task's load on a core reads them, with the poisoned beat it would consume: its version
and its stores still to be performed come first (05 R142, R138; 06 R169; 07 R180). -/
def State.readGranule (s : State) (t : Task) (core line g : Nat) : List Byte × Option Nat :=
  let mine := s.ownStores t.tid
  if 2 ^ 46 ≤ g then
    let k := (g - 2 ^ 46) * 64
    (overlaySram mine (k / 2 ^ 21) (k % 2 ^ 21) (s.sramRead (k / 2 ^ 21) (k % 2 ^ 21) 64), none)
  else
    let pa := g * 64
    let bs := match s.l1Line t.ctx core g with
      | some b => beatBytes b
      | none => (s.physRead (ctxSlot t.ctx) pa 64).1
    let bs1 := overlayStores mine pa bs
    let bs2 := bs1.zipIdx.map fun (b, i) => (s.versionByte t.tid (pa + i)).getD b
    (overBytes bs2 (commitOver t.commitQ (line * 64) 64), s.poisonTaken t core pa 64 .near)

/-- Lines' bytes as they stand; an empty list for a poisoned one. -/
def State.seeLines (s : State) (t : Task) (core : Nat) (ls : List (Nat × Nat)) : List (List Byte) :=
  ls.map fun (line, g) =>
    match s.readGranule t core line g with
    | (bs, none) => bs
    | (_, some _) => []

/-- The granule of a TGEMM step's line that no longer translates; its bytes are unspecified. -/
def noGranule : Nat := 2 ^ 60

/-- The bytes the matrix unit reads of a line: as at issue or as now, one of the two for each granule (05 R138), and
unspecified where it is poisoned (01 R28). -/
def State.unitLine (s : State) (t : Task) (core : Nat) (line g : Nat) (seen : List Byte) : List Byte × Option Nat × State :=
  if noGranule ≤ g then
    let (bs, s1) := s.freeBytes 64
    (bs, none, s1)
  else match s.readGranule t core line g with
  | (_, some p) =>
    let (bs, s1) := s.freeBytes 64
    (bs, some (p * 64), s1)
  | (bs, none) =>
    if seen.isEmpty || seen == bs then (bs, none, s)
    else
      let (k, s1) := s.choose 2
      (if k = 0 then seen else bs, none, s1)

/-- The lines of one operand, with the first poisoned beat. -/
def unitLines (t : Task) (core : Nat) : List (Nat × Nat) → List (List Byte) → State →
    List (Nat × List Byte) × Option Nat × State
  | [], _, s => ([], none, s)
  | (line, g) :: ls, seen, s =>
    let (bs, p, s1) := s.unitLine t core line g (seen.headD [])
    let (rest, q, s2) := unitLines t core ls seen.tail s1
    ((line, bs) :: rest, (match p with | some x => some x | none => q), s2)

/-- `n` bytes from an address, put together from lines; bytes of lines not read are zero. -/
def assembleLines (va n : Nat) (ls : List (Nat × List Byte)) : Array Byte :=
  ((List.range ((n + 63) / 64)).flatMap fun i =>
    match ls.find? fun l => l.1 == va / 64 + i with
    | some l => l.2
    | none => zeros 64).toArray

/-! ## Operands of one MMA -/

/-- Bytes of an A block with its row scales (15 R392). -/
def aBytes (fmt : Word) : Nat := if fmtScale fmt = 1 ∨ fmtScale fmt = 3 then 12672 else 12288

/-- Width of the operands. -/
def mmaW (fmt : Word) : Nat := tyBits (tyOfFmtCode (fmtA fmt))

/-- The present k of a gated block's mask, or all (15 R396). -/
def presentK (fmt : Word) (gate : Option Nat) : List Nat :=
  match gate with
  | none => List.range (mmaK (mmaW fmt))
  | some m => (List.range (mmaK (mmaW fmt))).filter fun k => m.testBit k

/-- The ranges of B an MMA reads: the block, or a gated block's mask and present rows (15 R396). -/
def bRanges (fmt : Word) (b : Nat) (gate : Option Nat) : List (Nat × Nat) :=
  match gate with
  | none => [(b, 12288)]
  | some _ => (b, 64) :: (presentK fmt gate).map fun k => (b + 64 + 12 * mmaW fmt * k, 12 * mmaW fmt)

/-- The range of B its comparator holds (15 R396). -/
def bHeld (fmt : Word) (b : Nat) (gate : Option Nat) : Nat × Nat :=
  match gate with
  | none => (b, 12288)
  | some _ =>
    match (presentK fmt gate).getLast? with
    | none => (b, 64)
    | some k => (b, 64 + 12 * mmaW fmt * (k + 1))

/-- Granules of the lines of a range that translate. -/
def heldGranules (acc : Nat → Chk Loc) (r : Nat × Nat) : List Nat :=
  (linePoints r.1 r.2).filterMap fun p =>
    match acc p with
    | .ok loc => if loc.foreign then none else some loc.granule
    | _ => none

/-- The mask of a gated B block as a task reads it (15 R396): 32 bytes at its start. -/
def State.gateMask (s : State) (t : Task) (core b : Nat) (loc : Loc) : Nat × Option Nat × State :=
  let (bs, p, s1) := s.unitLine t core (b / 64) loc.granule []
  (leNat (bs.take 32), p, s1)

/-! ## Tiles (05 R126, R137) -/

/-- A tile of a core. -/
def State.tile (s : State) (core z : Nat) : Tile := (s.core core).tiles.toArray.getD z {}

/-- Change a tile. -/
def State.modTile (s : State) (core z : Nat) (f : Tile → Tile) : State :=
  s.modCore core fun c => { c with tiles := c.tiles.zipIdx.map fun (x, i) => if i = z then f x else x }

/-- Is the tile's busy bit set? -/
def Tile.busy (z : Tile) : Bool := decide (0 < z.writers)

/-- An element of a tile; one never written is +0. -/
def Tile.elem (z : Tile) (i : Nat) : Lane := z.data.getD i 0

/-- The place of an MMA's events among those recorded together: by slot, then by class (08 R213). -/
def tileEventKey (e : BitVec 57 × Nat × List Nat) : Nat := e.2.1 * 8 + e.2.2.min?.getD 7

/-- Put an MMA's events among others, behind those of its own place. -/
def insertTileEvent (e : BitVec 57 × Nat × List Nat) : List (BitVec 57 × Nat × List Nat) → List (BitVec 57 × Nat × List Nat)
  | [] => [e]
  | x :: t => if tileEventKey e < tileEventKey x then e :: x :: t else x :: insertTileEvent e t

/-- The events of a tile's MMAs and TGEMM steps, recorded together: FIRST is that of the lowest slot and class
(08 R213). -/
def recordTile (f : Fel) (evs : List (BitVec 57 × Nat × List Nat)) : Fel :=
  (evs.foldl (fun l e => insertTileEvent e l) []).foldl (fun f (pc, slot, cls) =>
    felRecord f pc true (cls.map fun c => (slot, 0, c))) f

/-- One writer of a tile has finished: with the last, the busy bit clears and the events are recorded (08 R213). -/
def State.tileDone (s : State) (core z : Nat) (tid : Word) : State :=
  let x := s.tile core z
  let left := x.writers - 1
  if left = 0 then
    (s.modTile core z fun x => { x with writers := 0, events := [] }).modTask tid fun t =>
      { t with r := { t.r with fel := recordTile t.r.fel x.events } }
  else s.modTile core z fun x => { x with writers := left }

/-- May an MMA of a task use a tile as its destination: not busy, or busy only with one earlier MMA of the same task
(05 R137)? -/
def State.mmaTileFree (s : State) (core z : Nat) (tid : Word) : Bool :=
  let x := s.tile core z
  let own := (s.core core).mmas.countP fun m => m.tile == z && m.tid == tid && !m.step
  !x.busy || (x.writers == own && decide (own < 2))

/-! ## Starting and finishing an MMA -/

/-- The matrix unit takes one more MMA: it runs them one after another, 64 cycles each (15 R393). -/
def State.mmaQueue (s : State) (core : Nat) (op : MmaOp) : State :=
  let (id, s1) := s.fresh
  let start := max s.cycle (s1.core core).matrixFree
  let s2 := s1.modCore core fun c => { c with mmas := c.mmas ++ [{ op with id := id }], matrixFree := start + 64 }
  if op.step then s2.post (start + 64 - s.cycle) .tgemmStepComplete (.task op.tid)
  else s2.post (start + 64 - s.cycle) .mmaComplete (.num id)

/-- An operation with its operands' lines as they stand at issue. -/
def State.mmaSee (s : State) (t : Task) (core : Nat) (op : MmaOp) : MmaOp :=
  { op with seenA := s.seeLines t core op.readA, seenB := s.seeLines t core op.readB }

/-- The B lines of an operation: those another member of its group has read, or its own reading, which is then every
member's (15 R397). -/
def State.mmaReadB (s : State) (t : Task) (core : Nat) (op : MmaOp) : List (Nat × List Byte) × Option Nat × State :=
  match op.fixedB with
  | some (ls, p) => (ls, p, s)
  | none =>
    let (ls, p, s1) := unitLines t core op.readB op.seenB s
    match op.shared with
    | none => (ls, p, s1)
    | some k =>
      (ls, p, s1.onCores fun cs =>
        { cs with cores := cs.cores.map fun (i, c) =>
            (i, { c with mmas := c.mmas.map fun m =>
                if m.shared == some k then { m with fixedB := some (ls, p) } else m }) })

/-- The result of an MMA reaches its tile; what it read poisoned raises INTEGRITY (15 R394, R395; 01 R28). Members that
share a B block see the bytes of the first one's reading (15 R397). -/
def State.mmaFinish (s : State) (core : Nat) (op : MmaOp) : State :=
  match s.task? op.tid with
  | none => s.modCore core fun c => { c with mmas := c.mmas.filter (·.id != op.id) }
  | some t =>
    let (la, pa, s1) := unitLines t core op.readA op.seenA s
    let (lb, pb, s2) := s1.mmaReadB t core op
    let b0 := match op.gate with
      | none => op.bAddr
      | some _ => op.bAddr + 64
    let res := mmaTile op.fmt op.sb (assembleLines op.aAddr (aBytes op.fmt) la) (assembleLines b0 12288 lb)
      (presentK op.fmt op.gate) ((List.range 9216).map (s.tile core op.tile).elem)
    let cls := [1, 2, 3, 4].filter fun k => res.any fun r => r.2.contains k
    let s3 := s2.modCore core fun c => { c with mmas := c.mmas.filter (·.id != op.id) }
    let s4 := (s3.markActive (coreDie core)).modTile core op.tile fun z =>
      { z with data := res.map fun r => BitVec.ofNat 32 r.1, events := z.events ++ [(op.baddr, op.slot, cls)] }
    match pa, pb with
    | some p, _ => s4.integrity op.tid p
    | none, some p => s4.integrity op.tid p
    | none, none => s4

end Sys2Proof.Machine
end

