-- ==== Sys2Proof/Machine/Matrix.lean ====
section
/-! DEFINITION. Classes 26 and 27: MMAs, tiles, column scales and TGEMM, and what completes them (15 R391 to R404). -/

namespace Sys2Proof.Machine

open Sys2Proof

/-! ## Shared checks (15 R393, R400) -/

/-- An address operand. -/
def State.addrG (s : State) (a : Reg) : Nat := (s.getG a).toNat % 2 ^ 57

/-- The tile is owned by the task, or TILE_OWNER (05 R126). -/
def State.ownTile (s : State) (t : Task) (core z : Nat) : Chk Unit :=
  if (s.tile core z).owner = some t.tid then .ok () else .bad cTileOwner 0 z

/-- A 64-byte aligned address, or MISALIGNED with TRAPINFO 6. -/
def aligned64 (va : Nat) : Chk Unit := if va % 64 ≠ 0 then .bad cMisaligned va 6 else .ok ()

/-- A slot of these classes that its guard enables. -/
def State.matrixSlot (s : State) (f : State → Task → Nat → State) : State :=
  s.whenOn fun s =>
    match s.me? with
    | none => s
    | some t => f s t s.curCore

/-! ## MMA, MMAG, MMAB (15 R393 to R397) -/

/-- The lines of the gated B block: the mask first, then the present rows. -/
def State.checkGate (s : State) (t : Task) (core b : Nat) : Chk (Nat × Loc) :=
  (checkLines (s.lineAcc t core .load) 0 [b]).bind fun ls =>
    match ls with
    | [x] => .ok x
    | _ => .bad cPerm b 0

/-- The number by which members of a lock-step group share one reading of B: that of an MMAB of the same bundle with the
same address on another core of the cluster, or a new one (15 R397). -/
def State.shareOf (s : State) (t : Task) (core b : Nat) : Option Nat × State :=
  if !t.lockstep then (none, s)
  else
    let members := (s.cores.tandems.getD {} (clusterOf core)).group
    let found := ((List.range 8).map fun i => s.core (core / 8 * 8 + i)).findSome? fun c =>
      c.mmas.findSome? fun m =>
        if m.bAddr == b && m.issuedAt == s.cycle && m.baddr == s.bundlePc && members.contains m.tid then m.shared else none
    match found with
    | some k => (some k, s)
    | none =>
      let (k, s1) := s.fresh
      (some k, s1)

/-- The last part of an MMA slot: it waits for the matrix unit and the tile, or issues. -/
def State.mmaIssue (s : State) (t : Task) (core z : Nat) (multi : Bool) (a b : Nat) (gate : Option Nat)
    (la lb : List (Nat × Loc)) : State :=
  if 4 ≤ (s.core core).mmas.length || !s.mmaTileFree core z t.tid then s.hold
  else
    let (share, s1) := if multi then s.shareOf t core b else (none, s)
    let slot := match s.cur with
      | some c => c.slot
      | none => 0
    let acc := s.lineAcc t core .load
    let op : MmaOp :=
      { id := 0, tid := t.tid, tile := z, aAddr := a, bAddr := b, gate := gate, fmt := s.fmt, sb := t.r.sb
        baddr := s.bundlePc, slot := slot, readA := lineKeys la, readB := lineKeys lb, seenA := [], seenB := []
        granA := (la.map fun x => x.2.granule), granB := heldGranules acc (bHeld s.fmt b gate), shared := share
        issuedAt := s.cycle }
    let s2 := s1.noteAccess t core .load (linePieces (la ++ lb)) 64 none none
    (s2.mmaQueue core (s2.mmaSee t core op)).modTile core z fun x => { x with writers := x.writers + 1 }

/-- An MMA slot: the checks of 15 R393 in order. -/
def State.mmaSlot (s : State) (d : ZReg) (ga gb : Reg) (gated multi : Bool) : State :=
  s.matrixSlot fun s t core =>
    let z := d.toNat
    let a := s.addrG ga
    let b := s.addrG gb
    s.onChk (s.ownTile t core z) fun _ =>
      if tyBits (tyOfFmtCode (fmtA s.fmt)) ≠ tyBits (tyOfFmtCode (fmtB s.fmt)) then s.illegal
      else
        s.onChk (aligned64 a) fun _ => s.onChk (aligned64 b) fun _ =>
          s.onChk (checkLines (s.lineAcc t core .load) 0 (linePoints a (aBytes s.fmt))) fun la =>
            if gated then
              s.onChk (s.checkGate t core b) fun m =>
                let (mask, poison, s1) := s.gateMask t core b m.2
                s.onChk (checkLines (s.lineAcc t core .load) 0 (linePointsAll (bRanges s.fmt b (some mask)))) fun lb =>
                  let s2 := match poison with
                    | some p => s1.integrity t.tid p
                    | none => s1
                  s2.mmaIssue t core z false a b (some mask) la lb
            else
              s.onChk (checkLines (s.lineAcc t core .load) 0 (linePoints b 12288)) fun lb =>
                s.mmaIssue t core z multi a b none la lb

/-- MMA. -/
def execMma (d : ZReg) (a b : Reg) (s : State) : Out := .next (s.mmaSlot d a b false false)
/-- MMAG. -/
def execMmag (d : ZReg) (a b : Reg) (s : State) : Out := .next (s.mmaSlot d a b true false)
/-- MMAB. -/
def execMmab (d : ZReg) (a b : Reg) (s : State) : Out := .next (s.mmaSlot d a b false true)

/-! ## Tile instructions (15 R399 to R401) -/

/-- ZGET. -/
def execZget (d : ZReg) (s : State) : Out :=
  .next (s.matrixSlot fun s t core =>
    let x := s.tile core d.toNat
    if x.owner = some t.tid then s
    else if x.owner.isNone && x.heldFor.isNone then
      s.modTile core d.toNat fun _ => { owner := some t.tid }
    else s.raise cTileOwner 0 d.toNat)

/-- ZPUT: waits while the tile is busy; a tile it frees may be held for a returning task. -/
def execZput (d : ZReg) (s : State) : Out :=
  .next (s.matrixSlot fun s t core =>
    s.onChk (s.ownTile t core d.toNat) fun _ =>
      if (s.tile core d.toNat).busy then s.hold
      else (s.modTile core d.toNat fun _ => {}).offerTiles core)

/-- ZCLR. -/
def execZclr (d : ZReg) (s : State) : Out :=
  .next (s.matrixSlot fun s t core =>
    s.onChk (s.ownTile t core d.toNat) fun _ =>
      if (s.tile core d.toNat).busy then s.hold
      else s.modTile core d.toNat fun x => { x with data := [] })

/-- Bytes of a tile in memory. -/
def tileSize : Nat := 36864

/-- Read lines whole, as loads do at issue; with the first poisoned beat. -/
def State.loadLines (s : State) (t : Task) (core : Nat) (ls : List (Nat × Loc)) : List Byte × Option Nat × State :=
  let (xs, p, s1) := unitLines t core (lineKeys ls) [] s
  (xs.flatMap (·.2), p, s1)

/-- Report a poisoned beat that a load consumed. -/
def State.integrityOpt (s : State) (tid : Word) (p : Option Nat) : State :=
  match p with
  | some pa => s.integrity tid pa
  | none => s

/-- ZLD: the tile is busy until the last byte arrives. -/
def execZld (d : ZReg) (a : Reg) (s : State) : Out :=
  .next (s.matrixSlot fun s t core =>
    let z := d.toNat
    let va := s.addrG a
    s.onChk (s.ownTile t core z) fun _ => s.onChk (aligned64 va) fun _ =>
      s.onChk (checkLines (s.lineAcc t core .load) 0 (linePoints va tileSize)) fun ls =>
        if (s.tile core z).busy then s.hold
        else
          let s1 := s.noteAccess t core .load (linePieces ls) 64 none none
          let (bs, p, s2) := s1.loadLines t core ls
          let (id, s3) := s2.fresh
          let s4 := s3.modTile core z fun x => { x with data := tileOfBytes bs, writers := x.writers + 1 }
          ((s4.onMem fun m => { m with tileLoads := m.tileLoads ++ [(id, core, z, t.tid)] }).postFree .tileLoadComplete
            (.num id)).integrityOpt t.tid p)

/-- The store of whole lines by a versioned task: version lines are reserved for all of them before any is written
(15 R400), other places take one entry of the commit queue. A fault leaves the state `s0` before the access was noted
(06 R159). -/
def State.versionedLines (s0 s : State) (t : Task) (core va : Nat) (xs : List (Piece × List Byte)) : State :=
  let queue := xs.filter (·.1.queued)
  let scratch := xs.filter fun x => match x.1.loc with
    | .sram _ _ => true
    | _ => false
  match versionStores t (xs.filter fun x => !x.1.queued) s with
  | (some _, _) => s0.raise cVersionFull va 0
  | (none, s1) =>
    let s2 := scratch.foldl (fun s (p, bs) =>
      s.issueStore t core ((p.loc.place.memOp bs).toList) none none []) s1
    if queue.isEmpty then s2
    else if 64 ≤ t.commitQ.length then s0.raise cVersionFull va 1
    else
      s2.modTask t.tid fun t =>
        { t with commitQ := t.commitQ ++ [.store (queue.map fun (p, bs) => (p.va, p.loc.place, bs)) [] none s.tagOf] }

/-- ZST: its lines are stores of the task, performed one by one in any order. -/
def execZst (d : ZReg) (a : Reg) (s : State) : Out :=
  .next (s.matrixSlot fun s t core =>
    let z := d.toNat
    let va := s.addrG a
    s.onChk (s.ownTile t core z) fun _ => s.onChk (aligned64 va) fun _ =>
      s.onChk (checkLines (s.lineAcc t core .store) 1 (linePoints va tileSize)) fun ls =>
        let ps := linePieces ls
        if (s.tile core z).busy || s.rangeHeld core ps 64 then s.hold
        else
          let bs := tileBytes ((List.range 9216).map (s.tile core z).elem)
          let xs := ps.zipIdx.map fun (p, i) => (p, (bs.drop (64 * i)).take 64)
          let s1 := s.noteAccess t core .store ps 64 none none
          if s.versioned then s.versionedLines s1 t core va xs
          else xs.foldl (fun s (p, bs) => s.issueStore t core ((p.loc.place.memOp bs).toList) none none []) s1)

/-- Row `r`, half `h` of a tile as ZRD reads it (15 R401). -/
def Tile.row (z : Tile) (r h : Nat) : VReg :=
  VReg.ofFn fun i =>
    if 96 ≤ r then 0
    else if h = 0 then z.elem (96 * r + i)
    else if i < 32 then z.elem (96 * r + 64 + i)
    else 0

/-- ZRD: an interlocked write of the lanes its guard enables. -/
def execZrd (d : Reg) (a : ZReg) (b : Reg) (s : State) : Out :=
  .next (match s.me? with
    | none => s
    | some t =>
      let core := s.curCore
      s.onChk (s.ownTile t core a.toNat) fun _ =>
        let z := s.tile core a.toNat
        let g := (s.getG b).toNat
        if z.busy then s.hold
        else s.putResult (.v d) s.mask (.vec (z.row (g % 128) (g / 128 % 2))))

/-! ## Column scales (15 R398) -/

/-- SCLD. -/
def execScld (a : Reg) (s : State) : Out :=
  .next (s.matrixSlot fun s t core =>
    let va := s.addrG a
    s.onChk (aligned64 va) fun _ =>
      s.onChk (checkLines (s.lineAcc t core .load) 0 (linePoints va 384)) fun ls =>
        if t.tgemm.isSome then s.hold
        else
          let s1 := s.noteAccess t core .load (linePieces ls) 64 none none
          let (bs, p, s2) := s1.loadLines t core ls
          let sb := (List.range 96).map fun j => BitVec.ofNat 32 (fieldAt bs (4 * j) 4)
          (s2.modTask t.tid fun t => { t with r := { t.r with sb := sb } }).integrityOpt t.tid p)

/-! ## TGEMM (15 R402 to R404) -/

/-- A signed 64-bit field of a block. -/
def sfieldAt (bs : List Byte) (off : Nat) : Int := (BitVec.ofNat 64 (fieldAt bs off 8)).toInt

/-- NSTEP of a TGEMM's block. -/
def tgSteps (bs : List Byte) : Nat := fieldAt bs 0x20 2
/-- TILE. -/
def tgTile (bs : List Byte) : Nat := fieldAt bs 0x24 1 % 4
/-- FLAGS.GATE. -/
def tgGate (bs : List Byte) : Bool := fieldAt bs 0x25 1 % 2 == 1
/-- FLAGS.ZERO. -/
def tgZero (bs : List Byte) : Bool := fieldAt bs 0x25 1 / 2 % 2 == 1

/-- The address of step `i`'s A block (0) or B block (1). -/
def tgAddr (bs : List Byte) (b : Bool) (i : Nat) : Nat :=
  let o := if b then 8 else 0
  ((sfieldAt bs o + (i : Int) * sfieldAt bs (o + 0x10)) % 2 ^ 57).toNat

/-- The first misaligned address of any step: bases and distances that are multiples of 64 leave none, so steps 0 and 1
show it (15 R403). -/
def tgAlign (bs : List Byte) : Chk Unit :=
  (((List.range (min 2 (tgSteps bs))).flatMap fun i => [tgAddr bs false i, tgAddr bs true i]).foldl (fun r va =>
    r.bind fun _ => aligned64 va) (.ok ()))

/-- An access of a TGEMM: through the translation that a pin holds, or by a walk before its pages are pinned (10 R245,
15 R403). -/
def State.tgAccess (s : State) (t : Task) (va : Nat) : Chk Loc :=
  match t.tgPinned.find? fun p => p.1 == va / 2 ^ 16 with
  | some p => .ok (.phys (p.2 + va % 2 ^ 16) .near false)
  | none => s.walkAccess t va 1 .load

/-- The mask of a gated step, as it stands. -/
def State.tgMask (s : State) (t : Task) (core b : Nat) : Option Nat :=
  match s.tgAccess t (b % 2 ^ 57) with
  | .ok loc => some (leNat ((s.readGranule t core (b / 64) loc.granule).1.take 32))
  | _ => none

/-- The lines of one step's operands, checked (15 R403). -/
def State.tgStepLines (s : State) (t : Task) (core : Nat) (fmt : Word) (bs : List Byte) (i : Nat) :
    Chk (List (Nat × Loc)) :=
  let acc (va : Nat) : Chk Loc := s.tgAccess t (va % 2 ^ 57)
  let a := tgAddr bs false i
  let b := tgAddr bs true i
  (checkLines acc 0 (linePoints a (aBytes fmt))).bind fun la =>
    if tgGate bs then
      (checkLines acc 0 [b]).bind fun _ =>
        (checkLines acc 0 (linePointsAll (bRanges fmt b (s.tgMask t core b)))).bind fun lb => .ok (la ++ lb)
    else (checkLines acc 0 (linePoints b 12288)).bind fun lb => .ok (la ++ lb)

/-- A line's page and its translation join the pages found; the scratch window has none. -/
def pinLine (l : List (Nat × Nat)) (x : Nat × Loc) : List (Nat × Nat) :=
  match x.2 with
  | .phys pa _ _ => if l.any (·.1 == x.1 / 2 ^ 16) then l else (x.1 / 2 ^ 16, pa - x.1 % 2 ^ 16) :: l
  | _ => l

/-- The pages of steps `i`, `i + 1`, … (`n` of them), each once with its physical address. -/
def State.tgPages (s : State) (t : Task) (core : Nat) (fmt : Word) (bs : List Byte) :
    Nat → Nat → Chk (List (Nat × Nat))
  | 0, _ => .ok []
  | n + 1, i =>
    (s.tgStepLines t core fmt bs i).bind fun ls =>
      (s.tgPages t core fmt bs n (i + 1)).bind fun rest =>
        .ok (ls.foldl pinLine rest)

/-- Lines of a range as a TGEMM step reads them. -/
def State.tgLines (s : State) (t : Task) (rs : List (Nat × Nat)) : List (Nat × Nat) :=
  (linePointsAll rs).map fun va =>
    match s.tgAccess t (va % 2 ^ 57) with
    | .ok loc => (va / 64, if loc.foreign then noGranule else loc.granule)
    | _ => (va / 64, noGranule)

/-- Start the next step of a task's TGEMM when it is on its core and the matrix unit has room (15 R403). -/
def State.tgemmStep (s : State) (tid : Word) : State :=
  match s.task? tid with
  | none => s
  | some t =>
    match t.tgemm, t.core with
    | some g, some core =>
      let onCore := t.saving.isNone && (t.phase == .bound || t.phase == .stalled)
      if !onCore || g.running || decide (tgSteps g.block ≤ g.done) || decide (4 ≤ (s.core core).mmas.length) then s
      else
        let a := tgAddr g.block false g.done
        let b := tgAddr g.block true g.done
        let gate := if tgGate g.block then some ((s.tgMask t core b).getD 0) else none
        let readA := s.tgLines t [(a, aBytes g.fmt)]
        let readB := s.tgLines t (bRanges g.fmt b gate)
        let held := s.tgLines t [bHeld g.fmt b gate]
        let op : MmaOp :=
          { id := 0, tid := tid, tile := tgTile g.block, aAddr := a, bAddr := b, gate := gate, fmt := g.fmt
            sb := t.r.sb, baddr := g.baddr, slot := g.slot.toNat, readA := readA, readB := readB, seenA := [], seenB := []
            granA := readA.map (·.2), granB := held.map (·.2), step := true, issuedAt := s.cycle }
        let loc (g : Nat) : Loc := if 2 ^ 46 ≤ g then .sram ((g - 2 ^ 46) * 64 / 2 ^ 21) ((g - 2 ^ 46) * 64 % 2 ^ 21)
          else .phys (g * 64) .near false
        let ps := ((readA ++ readB).filter fun x => decide (x.2 < noGranule)).map fun x => ({ lane := 0, va := x.1 * 64, loc := loc x.2 } : Piece)
        let s1 := s.noteAccess t core .load ps 64 none none
        (s1.mmaQueue core (s1.mmaSee t core op)).modTask tid fun t =>
          { t with tgemm := some { g with running := true } }
    | _, _ => s

/-- Steps that waited for room on a core start (05 R138). -/
def State.tgemmKick (s : State) (core : Nat) : State :=
  (s.tasks.filter fun t => t.core == some core && t.tgemm.isSome).foldl (fun s t => s.tgemmStep t.tid) s

/-- TGEMM: its checks in order, then its steps one after another. -/
def execTgemm (a : Reg) (s : State) : Out :=
  .next (s.matrixSlot fun s t core =>
    let va := s.addrG a
    s.onChk (aligned64 va) fun _ =>
      s.onChk (checkLines (s.lineAcc t core .load) 0 [va]) fun ls =>
        let (bs, p, s1) := s.loadLines t core ls
        let z := tgTile bs
        s.onChk (s.ownTile t core z) fun _ =>
          if tyBits (tyOfFmtCode (fmtA s.fmt)) ≠ tyBits (tyOfFmtCode (fmtB s.fmt)) then s.illegal
          else
            s.onChk (tgAlign bs) fun _ =>
              s.onChk (s.tgPages t core s.fmt bs (tgSteps bs) 0) fun pages =>
                if t.tgemm.isSome || (s.tile core z).busy || decide (4 ≤ (s.core core).mmas.length) then s.hold
                else
                  let slot := match s.cur with
                    | some c => c.slot
                    | none => 0
                  let s2 := (s1.noteAccess t core .load (linePieces ls) 64 none none).integrityOpt t.tid p
                  let s3 := if tgZero bs then s2.modTile core z fun x => { x with data := [] } else s2
                  if tgSteps bs = 0 then s3
                  else
                    let s4 := s3.modTile core z fun x => { x with writers := x.writers + 1 }
                    let s5 := s4.onMem fun m =>
                      { m with pins := m.pins ++ pages.map fun pg => (tgemmPin t.tid, t.ctx, pg.1) }
                    let g : Tgemm := { block := bs, slot := BitVec.ofNat 3 slot, fmt := s.fmt, baddr := s.bundlePc }
                    (s5.modTask t.tid fun t => { t with tgemm := some g, tgPinned := pages }).tgemmStep t.tid)

/-! ## Completion -/

/-- MMA_COMPLETE (15 R393, R394): the result is written, and the tile may become free of writers. -/
def execMmaComplete (s : State) : Out :=
  .next (match s.arg with
    | .num id =>
      match s.cores.cores.findSome? fun (c, x) => (x.mmas.find? fun m => m.id == id && !m.step).map (c, ·) with
      | some (core, op) => (((s.mmaFinish core op).tileDone core op.tile op.tid).tgemmKick core).leaveOn op.tid
      | none => s
    | _ => s)

/-- TGEMM_STEP_COMPLETE (15 R403): the step's result is written; the last step ends the TGEMM and its pins. -/
def execTgemmStepComplete (s : State) : Out :=
  .next (match s.arg with
    | .task tid =>
      match s.cores.cores.findSome? fun (c, x) => (x.mmas.find? fun m => m.tid == tid && m.step).map (c, ·) with
      | some (core, op) =>
        let s1 := s.mmaFinish core op
        match s1.task? tid with
        | some t =>
          match t.tgemm with
          | some g =>
            let done := g.done + 1
            if tgSteps g.block ≤ done then
              let s2 := s1.modTask tid fun t => { t with tgemm := none, tgPinned := [] }
              let s3 := s2.onMem fun m => { m with pins := m.pins.filter (·.1 != tgemmPin tid) }
              ((s3.tileDone core op.tile tid).tgemmKick core).leaveOn tid
            else
              (s1.modTask tid fun t => { t with tgemm := some { g with done := done, running := false } }).tgemmKick core |>.leaveOn tid
          | none => s1
        | none => s1
      | none => s
    | _ => s)

/-- TILE_LOAD_COMPLETE (15 R400): the last byte has arrived. -/
def execTileLoadComplete (s : State) : Out :=
  .next (match s.arg with
    | .num id =>
      match s.mem.tileLoads.find? (·.1 == id) with
      | some (_, core, z, tid) =>
        (s.onMem fun m => { m with tileLoads := m.tileLoads.filter (·.1 != id) }).tileDone core z tid
      | none => s
    | _ => s)

end Sys2Proof.Machine
end

