-- ==== Sys2Proof/Machine/Reads.lean ====
section
/-! DEFINITION. The registers each instruction reads, for the interlock on results in flight (05 R132) and the shadow
check (05 R134); a read of FMT counts where the instruction rounds or converts. -/

namespace Sys2Proof.Machine

open Sys2Proof

/-- A read of FMT, where there is one. -/
def fmtIf (b : Bool) : List RegId := if b then [.fmt] else []

/-- Does a vector conversion read FMT: SAT for an FP result, RM where the mode is FMT's and the conversion rounds, neither
for D8, which fixes both (08 R208, R215; 13 R338)? -/
def cvtReadsFmt (t src : Ty) (rc : Rc) : Bool :=
  t != .d8 && (!tyIsInt t || (!tyIsInt src && rc == .fmt))

/-- Registers an instruction reads besides its guard; events read none. -/
def instrReads : Instr → List RegId
  | .add _ a b => [.g a, .g b]
  | .sub _ a b => [.g a, .g b]
  | .and _ a b => [.g a, .g b]
  | .or _ a b => [.g a, .g b]
  | .xor _ a b => [.g a, .g b]
  | .andn _ a b => [.g a, .g b]
  | .shl _ a b => [.g a, .g b]
  | .shr _ a b => [.g a, .g b]
  | .sar _ a b => [.g a, .g b]
  | .ror _ a b => [.g a, .g b]
  | .minS64 _ a b => [.g a, .g b]
  | .maxS64 _ a b => [.g a, .g b]
  | .minZ64 _ a b => [.g a, .g b]
  | .maxZ64 _ a b => [.g a, .g b]
  | .addx2 _ a b => [.g a, .g b]
  | .addx4 _ a b => [.g a, .g b]
  | .addx8 _ a b => [.g a, .g b]
  | .addi _ a _ => [.g a]
  | .andi _ a _ => [.g a]
  | .ori _ a _ => [.g a]
  | .xori _ a _ => [.g a]
  | .shli _ a _ => [.g a]
  | .shri _ a _ => [.g a]
  | .sari _ a _ => [.g a]
  | .rori _ a _ => [.g a]
  | .movi _ _ => []
  | .adpc _ _ => []
  | .mul _ a b => [.g a, .g b]
  | .mulhS64 _ a b => [.g a, .g b]
  | .mulhZ64 _ a b => [.g a, .g b]
  | .divS64 _ a b => [.g a, .g b]
  | .divZ64 _ a b => [.g a, .g b]
  | .remS64 _ a b => [.g a, .g b]
  | .remZ64 _ a b => [.g a, .g b]
  | .bfxZ64 _ a b => [.g a, .g b]
  | .bfxS64 _ a b => [.g a, .g b]
  | .bfi d a b => [.g a, .g b, .g d]
  | .clz _ a => [.g a]
  | .ctz _ a => [.g a]
  | .popc _ a => [.g a]
  | .brev _ a => [.g a]
  | .bswap _ a => [.g a]
  | .cmpeq _ a b => [.g a, .g b]
  | .cmpne _ a b => [.g a, .g b]
  | .cmpltS64 _ a b => [.g a, .g b]
  | .cmpleS64 _ a b => [.g a, .g b]
  | .cmpltZ64 _ a b => [.g a, .g b]
  | .cmpleZ64 _ a b => [.g a, .g b]
  | .cmpeqi _ a _ => [.g a]
  | .cmpnei _ a _ => [.g a]
  | .cmpltiS64 _ a _ => [.g a]
  | .cmpleiS64 _ a _ => [.g a]
  | .cmpltiZ64 _ a _ => [.g a]
  | .cmpleiZ64 _ a _ => [.g a]
  | .kand _ a b => [.k a, .k b]
  | .kor _ a b => [.k a, .k b]
  | .kxor _ a b => [.k a, .k b]
  | .kandn _ a b => [.k a, .k b]
  | .knot _ a => [.k a]
  | .kfromg _ a => [.g a]
  | .gfromk _ a => [.k a]
  | .cvtF32S64 _ a _ => [.g a, .fmt]
  | .cvtF32Z64 _ a _ => [.g a, .fmt]
  | .cvtS64F32 _ a r => .g a :: fmtIf (r == .fmt)
  | .cvtZ64F32 _ a r => .g a :: fmtIf (r == .fmt)
  | .br _ => []
  | .call _ => []
  | .jmp a => [.g a]
  | .callr a => [.g a]
  | .loop a _ => [.g a]
  | .loopi _ _ => []
  | .lcnt _ _ => []
  | .mfs _ n => if n = 0 then [.fmt] else []
  | .mts _ a => [.g a]
  | .feat _ _ => []
  | .setfmt a => [.g a]
  | .setfmti _ => []
  | .trap _ => []
  | .trapretg a => [.g a]
  | .vaddFp _ _ a b => [.v a, .v b, .fmt]
  | .vsubFp _ _ a b => [.v a, .v b, .fmt]
  | .vmulFp _ _ a b => [.v a, .v b, .fmt]
  | .vminFp _ _ a b => [.v a, .v b]
  | .vmaxFp _ _ a b => [.v a, .v b]
  | .vabsFp _ _ a => [.v a]
  | .vneg _ _ a => [.v a]
  | .vcpys _ _ a b => [.v a, .v b]
  | .vfma _ d a b => [.v a, .v b, .v d, .fmt]
  | .vfms _ d a b => [.v a, .v b, .v d, .fmt]
  | .vfnma _ d a b => [.v a, .v b, .v d, .fmt]
  | .vfnms _ d a b => [.v a, .v b, .v d, .fmt]
  | .vaddInt _ _ a b => [.v a, .v b]
  | .vsubInt _ _ a b => [.v a, .v b]
  | .vminInt _ _ a b => [.v a, .v b]
  | .vmaxInt _ _ a b => [.v a, .v b]
  | .vadds _ _ a b => [.v a, .v b]
  | .vsubs _ _ a b => [.v a, .v b]
  | .vmulInt _ _ a b => [.v a, .v b]
  | .vabsInt _ _ a => [.v a]
  | .vcmpeq _ _ a b => [.v a, .v b]
  | .vcmpne _ _ a b => [.v a, .v b]
  | .vcmplt _ _ a b => [.v a, .v b]
  | .vcmple _ _ a b => [.v a, .v b]
  | .vcmpun _ a b => [.v a, .v b]
  | .vand _ a b => [.v a, .v b]
  | .vor _ a b => [.v a, .v b]
  | .vxor _ a b => [.v a, .v b]
  | .vandn _ a b => [.v a, .v b]
  | .vnot _ a => [.v a]
  | .vshl _ a b => [.v a, .v b]
  | .vshr _ a b => [.v a, .v b]
  | .vsar _ a b => [.v a, .v b]
  | .vsel _ a b => [.v a, .v b]
  | .vmov _ a => [.v a]
  | .vbcst _ a => [.g a]
  | .vextr _ a b => [.v a, .g b]
  | .vinsr _ a b => [.g a, .g b]
  | .kpopc _ a => [.k a]
  | .kfirst _ a => [.k a]
  | .klast _ a => [.k a]
  | .cvtVector t src rc _ a => .v a :: fmtIf (cvtReadsFmt t src rc)
  | .vqnt t _ a b => .v a :: .v b :: fmtIf (t != .d8)
  | .vdq _ _ _ a b => [.v a, .v b, .v (b + 1), .fmt]
  | .vperm _ a b => [.v a, .v b]
  | .vrot _ a b => [.v a, .g b]
  | .vziplo _ a b => [.v a, .v b]
  | .vziphi _ a b => [.v a, .v b]
  | .vcomp _ a => [.v a]
  | .vexpd _ a => [.v a]
  | .viota _ => []
  | .vclmullo _ a b => [.v a, .v b]
  | .vclmulhi _ a b => [.v a, .v b]
  | .vrsum t _ a => .v a :: fmtIf (!tyIsInt t)
  | .vrmax _ _ a => [.v a]
  | .vrmin _ _ a => [.v a]
  | .vscsum t _ a => .v a :: fmtIf (!tyIsInt t)
  | .vscmax _ _ a => [.v a]
  | .vscmin _ _ a => [.v a]
  | .vdiv _ _ a b => [.v a, .v b, .fmt]
  | .vsqrt _ _ a => [.v a, .fmt]
  | .vrcp _ _ a => [.v a, .fmt]
  | .vrsqrt _ _ a => [.v a, .fmt]
  | .vexp2 _ _ a => [.v a, .fmt]
  | .vlog2 _ _ a => [.v a, .fmt]
  | .vtanh _ _ a => [.v a, .fmt]
  | .vsigm _ _ a => [.v a, .fmt]
  | .sbind _ a => [.g a]
  | .sint _ _ _ => []
  | .suni _ _ _ => []
  | .ssub _ _ _ => []
  | .smadd _ _ _ => [.fmt]
  | .sdrain _ _ => []
  | .scnt _ _ => []
  | .sfree _ => []
  | .ld _ _ a _ => [.g a]
  | .ldacq _ _ _ a _ => [.g a]
  | .lds _ _ a _ => [.g a]
  | .st _ d a _ => [.g a, .g d]
  | .strel _ _ d a _ => [.g a, .g d]
  | .sts _ d a _ => [.g a, .g d]
  | .vld _ a _ => [.g a]
  | .vldacq _ _ a _ => [.g a]
  | .vlds _ a _ => [.g a]
  | .vst d a _ => [.g a, .v d]
  | .vstrel _ d a _ => [.g a, .v d]
  | .vsts d a _ => [.g a, .v d]
  | .fill d a _ => [.g a, .g d]
  | .take _ a _ => [.g a]
  | .readf _ a _ => [.g a]
  | .writef d a _ => [.g a, .g d]
  | .sete d a _ => [.g a, .g d]
  | .vgath _ a b => [.g a, .v b]
  | .vscat d a b => [.g a, .v b, .v d]
  | .vgaths _ a b => [.g a, .v b]
  | .vscats d a b => [.g a, .v b, .v d]
  | .vmcst d a b => [.g a, .g b, .v d]
  | .vrdst d a b => [.g a, .g b, .v d]
  | .aadd _ _ _ a b => [.g a, .g b]
  | .aand _ _ _ a b => [.g a, .g b]
  | .aor _ _ _ a b => [.g a, .g b]
  | .axor _ _ _ a b => [.g a, .g b]
  | .aminSigned _ _ _ a b => [.g a, .g b]
  | .amaxSigned _ _ _ a b => [.g a, .g b]
  | .aminUnsigned _ _ _ a b => [.g a, .g b]
  | .amaxUnsigned _ _ _ a b => [.g a, .g b]
  | .aswap _ _ _ a b => [.g a, .g b]
  | .acas _ _ d a b => [.g a, .g b, .g d]
  | .acasw _ d a b => [.g a, .g b, .g (b + 1), .g d, .g (d + 1)]
  | .aswapw _ _ a b => [.g a, .g b, .g (b + 1)]
  | .afaddF32 _ _ a b => [.g a, .g b]
  | .afaddBf16 _ _ a b => [.g a, .g b]
  | .vafaddF32 _ d a b => [.g a, .v b, .v d]
  | .vaaddZ32 _ d a b => [.g a, .v b, .v d]
  | .fenceAcq _ => []
  | .fenceRel _ => []
  | .fence _ => []
  | .bella a => [.g a]
  | .bellw a => [.g a]
  | .bellm a b => [.g a, .g b]
  | .rolli a b => [.g a, .g b]
  | .rolla a b => [.g a, .g b]
  | .rollw _ a => [.g a]
  | .stslip _ a b => [.g a, .g b]
  | .stwait1 d a b => [.g a, .g b, .g d]
  | .stwait2 d a b => [.g a, .g b, .g d]
  | .lkreq _ a => [.g a]
  | .lktry _ _ a => [.g a]
  | .lkrel a => [.g a]
  | .cpin _ a b => [.g a, .g b]
  | .cevf _ a b => [.g a, .g b]
  | .cunpin _ => []
  | .cflush a b => [.g a, .g b]
  | .cinv a b => [.g a, .g b]
  | .pref a _ => [.g a]
  | .mma _ a b => [.g a, .g b, .fmt]
  | .mmag _ a b => [.g a, .g b, .fmt]
  | .mmab _ a b => [.g a, .g b, .fmt]
  | .zclr _ => []
  | .zld _ a => [.g a]
  | .zst _ a => [.g a]
  | .zrd _ _ b => [.g b]
  | .zget _ => []
  | .zput _ => []
  | .scld a => [.g a]
  | .tgemm a => [.g a, .fmt]
  | .cpy a b => [.g a, .g b]
  | .cpym a b => [.g a, .g b]
  | .irr a b => [.g a, .g b]
  | .embg a b => [.g a, .g b]
  | .embu a b => [.g a, .g b]
  | .a2a a b => [.g a, .g b]
  | .coll a b => [.g a, .g b]
  | .hcfg a b => [.g a, .g b]
  | .hkst a b => [.g a, .g b]
  | .hgth a b => [.g a, .g b]
  | .ttload a b => [.g a, .g b]
  | .nop => []
  | .ret => [.g 31]
  | .mark => []
  | .yield => []
  | .endTask => []
  | .trapret => []
  | .traprst => []
  | .commit => []
  | .clrfel => []
  | .tandem => []
  | .decouple => []
  | .rejoin => []
  | _ => []

/-- Registers a slot reads, its guard among them; G0 and K0 are no registers that are written (05 R124, R134). -/
def slotReads (x : Guard × Instr) : List RegId :=
  ((.k x.1.k) :: instrReads x.2).filter fun r => r != .g 0 && r != .k 0

/-- Stream registers a slot names, and whether it starts an operation (13 R350). -/
def streamRegs : Instr → List ZReg × Bool
  | .sbind d _ => ([d], false)
  | .sfree d => ([d], false)
  | .scnt _ a => ([a], false)
  | .sdrain _ a => ([a], false)
  | .sint d a b => ([d, a, b], true)
  | .suni d a b => ([d, a, b], true)
  | .ssub d a b => ([d, a, b], true)
  | .smadd d a b => ([d, a, b], true)
  | _ => ([], false)

/-- Slots of classes 26 to 28: they act after the bundle's other slots, so that an engine command forks after the memory
slot (14 R389) and an MMA holds its operands from then on (05 R138). -/
def isMatrixSlot : Instr → Bool
  | .mma _ _ _ => true
  | .mmag _ _ _ => true
  | .mmab _ _ _ => true
  | .zclr _ => true
  | .zld _ _ => true
  | .zst _ _ => true
  | .zrd _ _ _ => true
  | .zget _ => true
  | .zput _ => true
  | .scld _ => true
  | .tgemm _ => true
  | .cpy _ _ => true
  | .cpym _ _ => true
  | .irr _ _ => true
  | .embg _ _ => true
  | .embu _ _ => true
  | .a2a _ _ => true
  | .coll _ _ => true
  | .hcfg _ _ => true
  | .hkst _ _ => true
  | .hgth _ _ => true
  | .ttload _ _ => true
  | _ => false

/-- Branches and calls. -/
def isBranchSlot : Instr → Bool
  | .br _ | .call _ | .jmp _ | .callr _ | .ret => true
  | _ => false

/-- Branch and loop slots, which a group in lock-step takes from its leader (04 R115). -/
def isFlowSlot : Instr → Bool
  | .loop _ _ | .loopi _ _ => true
  | i => isBranchSlot i

end Sys2Proof.Machine
end

