-- ==== Sys2Proof/Machine/Stream.lean ====
section
/-! DEFINITION. Class 17: binding stream registers, the four merges, draining and counting (13 R346 to R354). -/

namespace Sys2Proof.Machine

open Sys2Proof

/-- A class 17 slot of the running task, which reads its stream registers as they stand before the bundle (05 R130). A
bundle whose registers are in use is held (13 R350). -/
def State.streamSlot (s : State) (f : State → Task → State) : State :=
  match s.me? with
  | none => s
  | some t => f s t

/-- The running slot sets a stream register, for the next bundle. -/
def State.setStream (s : State) (n : ZReg) (x : Stream) : State :=
  s.onCur fun c => { c with streams := c.streams ++ [(n, x)] }

/-- A stream register of a task takes a value a bundle has set; where another slot of the bundle has put it in use, or
started an operation that this one follows, that operation ends first (13 R350). -/
def State.takeStream (s : State) (tid : Word) (x : ZReg × Stream) : State :=
  let s1 := match s.task? tid with
    | some t => if t.r.streamOp?.isSome && (x.2.op != 0 || t.r.streamInUse x.1) then s.streamRun tid else s
    | none => s
  s1.modTask tid fun t => { t with r := t.r.setS x.1 x.2 }

/-- Do `n` bytes at an address lie wholly in a task's own allocation on its core (05 R140, R141)? -/
def inOwn (base size : Word) (a n : Nat) : Bool :=
  n == 0 || (decide (base.toNat ≤ a) && decide (a + n ≤ base.toNat + size.toNat))

/-- A stream register as SBIND binds it from a descriptor (13 R346, R347). A BAD register keeps the descriptor's key and
value types for SCNT. -/
def streamOfDesc (base size : Word) (bs : List Byte) : Stream :=
  let kaddr := fieldAt bs 0 8
  let vaddr := fieldAt bs 8 8
  let len := fieldAt bs 0x10 4
  let kty := fieldAt bs 0x14 1
  let vty := fieldAt bs 0x15 1
  let dir := fieldAt bs 0x16 1
  let ks := if kty = 1 then 8 else 4
  let bad := (bs.drop 0x17).any (· != 0) || decide (1 < kty) || decide (3 < vty) || decide (1 < dir) ||
    decide (2 ^ 20 < len) || kaddr % ks != 0 || vaddr % 4 != 0 || (vty == 0 && vaddr != 0) ||
    !inOwn base size kaddr (len * ks) || (vty != 0 && !inOwn base size vaddr (len * 4))
  let types : Stream := { kty := kty % 2 == 1, vty := BitVec.ofNat 2 vty }
  if bad then { types with bind := 3, status := stBad }
  else
    { types with
      bind := if dir = 1 then 2 else 1
      kaddr := BitVec.ofNat 64 kaddr
      vaddr := BitVec.ofNat 64 vaddr
      len := BitVec.ofNat 32 len }

/-- SBIND (13 R347): alignment and range are precise faults, anything else wrong binds BAD. -/
def State.sbindOp (s : State) (t : Task) (d : ZReg) (a : Word) : State :=
  let (base, size) := scratchRegs t s.curCore
  let at_ := a.toNat
  if at_ % 32 ≠ 0 then s.raise cMisaligned at_ 5
  else if !inOwn base size at_ 32 then s.raise cScratchRange at_ 0
  else
    let s1 := s.flushStores t.tid
    s1.setStream d (streamOfDesc base size (s1.sramRead s.curCore (at_ % 2 ^ 21) 32))

def execSbind (d : ZReg) (a : Reg) (s : State) : Out :=
  .next (s.whenOn fun s => s.streamSlot fun s1 t => s1.sbindOp t d (s.getG a))

/-- Do the three registers of an operation agree in role and types (13 R349)? -/
def roleOk (d a b : Stream) : Bool :=
  d.isOut && a.isIn && b.isIn && a.kty == d.kty && b.kty == d.kty && a.vty == d.vty && b.vty == d.vty

/-- Start an operation (13 R348, R349): its arrays hold every earlier write of the task (R351), and it ends later. -/
def State.streamStart (s : State) (op : BitVec 3) (d a b : ZReg) : State :=
  s.whenOn fun s => s.streamSlot fun s1 t =>
    let x := t.r.getS d
    let y := t.r.getS a
    let z := t.r.getS b
    if x.bind = 0 then s1
    else if x.isBad || y.isBad || z.isBad then s1.setStream d (x.mark stBad)
    else if !roleOk x y z then s1.setStream d (x.mark stRole)
    else
      let slot := match s.cur with
        | some c => c.slot
        | none => 0
      (s1.flushStores t.tid).setStream d
        { x with
          op := op, srca := a, srcb := b, pend := false, pfrom := 0, opevt := 0
          opslot := BitVec.ofNat 3 slot, rm := BitVec.ofNat 3 (fmtRm s.fmt)
          opbaddr := s.bundlePc.setWidth 64 }

def execSint (d a b : ZReg) (s : State) : Out := .next (s.streamStart 1 d a b)
def execSuni (d a b : ZReg) (s : State) : Out := .next (s.streamStart 2 d a b)
def execSsub (d a b : ZReg) (s : State) : Out := .next (s.streamStart 3 d a b)
def execSmadd (d a b : ZReg) (s : State) : Out := .next (s.streamStart 4 d a b)

/-- The next keys of an input as the lanes SDRAIN writes, all ones beyond them (13 R352). -/
def State.drainKeys (s : State) (core : Nat) (x : Stream) : List Nat :=
  let c := min (x.len.toNat - x.pos.toNat) (if x.kty then 32 else 64)
  (List.range c).map fun m => s.streamKey core x (x.pos.toNat + m)

/-- SDRAIN (13 R352): the guard masks lanes, and POS advances whatever the guard. -/
def State.sdrainOp (s : State) (d : Reg) (a : ZReg) : State :=
  s.streamSlot fun s1 t =>
    let x := t.r.getS a
    let s2 := s1.flushStores t.tid
    let keys := if x.isIn then s2.drainKeys s.curCore x else []
    let lanes := if x.kty then keys.flatMap fun k => [k % 2 ^ 32, k / 2 ^ 32] else keys
    let v := VReg.ofFn fun i => BitVec.ofNat 32 (lanes.getD i 0xFFFFFFFF)
    let x1 := match keys.getLast? with
      | some k => { x with pos := x.pos + BitVec.ofNat 32 keys.length, lastkey := BitVec.ofNat 64 k, lastv := true }
      | none => x
    (s2.setStream a x1).putResult (.v d) s.mask (.vec v)

def execSdrain (d : Reg) (a : ZReg) (s : State) : Out := .next (if s.cur.isSome then s.sdrainOp d a else s)

/-- The word SCNT returns (13 R352). -/
def Stream.count (x : Stream) : Nat :=
  (if x.isIn then x.len.toNat - x.pos.toNat else if x.isOut then x.pos.toNat else 0) +
  x.status.toNat * 2 ^ 32 + x.bind.toNat * 2 ^ 36 + flag x.kty * 2 ^ 38 + x.vty.toNat * 2 ^ 39

def execScnt (d : Reg) (a : ZReg) (s : State) : Out :=
  .next (s.whenOn fun s => s.streamSlot fun s1 t =>
    s1.putResult (.g d) (BitVec.allOnes 64) (.word (BitVec.ofNat 64 (t.r.getS a).count)))

/-- SFREE (13 R352). -/
def execSfree (d : ZReg) (s : State) : Out :=
  .next (s.whenOn fun s => s.streamSlot fun s1 _ => s1.setStream d {})

/-- STREAM_OPERATION_END (13 R349, R350): an operation ends while its task is bound; otherwise it goes on when the task
is bound again. -/
def execStreamOperationEnd (s : State) : Out :=
  .next (match s.arg with
    | .task tid =>
      match s.task? tid with
      | some t => if t.phase = .bound then s.streamRun tid else s
      | none => s
    | _ => s)

end Sys2Proof.Machine
end

