-- ==== Sys2Proof/Machine/Issue.lean ====
section
/-! DEFINITION. Issuing a bundle: choosing a sequencer (04 R104, R105), fetch and the checks of the whole bundle
(11 R266 to R270; 05 R132, R134), running its slots, and closing it (05 R131 to R136; 12 R308 to R326; 04 R110, R111,
R115 to R117). -/

namespace Sys2Proof.Machine

open Sys2Proof

/-! ## Fetch (11 R266, R270) -/

/-- The beat of code at an address through the instruction cache: one whose memory has changed is fetched old or new
(11 R270); a poisoned one is no code (01 R28). -/
def State.fetchBeat (s : State) (t : Task) (core va pa : Nat) : Chk BeatBits × State :=
  let asid := (s.ctx t.ctx).asid
  let line := va / 64
  let (bs, s1) := s.physRead (ctxSlot t.ctx) (pa / 64 * 64) 64
  let fresh : Chk BeatBits × State :=
    match s.poisonedLine pa 4 with
    | some l => (.bad cIntegrity va (s.poisonInfo l), s)
    | none =>
      let b := beatOf bs
      (.ok b, s1.modCore core fun c =>
        { c with icache := (asid, line, b) :: c.icache.filter fun e => !(e.1 == asid && e.2.1 == line) })
  match (s.core core).icache.find? fun e => e.1 == asid && e.2.1 == line with
  | none => fresh
  | some (_, _, old) =>
    match fresh with
    | (.ok now, s2) =>
      if old = now then (.ok old, s1)
      else
        let (k, s3) := s1.choose 2
        if k = 0 then (.ok old, s3) else (.ok now, { s2 with freeCtr := s3.freeCtr })
    | (r, _) =>
      let (k, s3) := s.choose 2
      if k = 0 then (.ok old, s3) else (r, s3)

/-- The words of the bundle at an address through its first STOP, at most `n`, each beat fetched once; the mark says that
a STOP was found. -/
def State.fetchWords (s : State) (t : Task) (core : Nat) (beat : Option (Nat × BeatBits)) :
    Nat → Nat → Chk (List (BitVec 32) × Bool) × State
  | 0, _ => (.ok ([], false), s)
  | n + 1, va =>
    let go (b : BeatBits) (s : State) : Chk (List (BitVec 32) × Bool) × State :=
      let w : BitVec 32 := b.extractLsb' (8 * (va % 64)) 32
      if wordStop w then (.ok ([w], true), s)
      else
        match s.fetchWords t core (some (va / 64, b)) n ((va + 4) % 2 ^ 57) with
        | (.ok (ws, e), s2) => (.ok (w :: ws, e), s2)
        | (r, s2) => (r, s2)
    match beat.filter (·.1 == va / 64) with
    | some (_, b) => go b s
    | none =>
      match s.fetchAccess t core va with
      | .ok (.phys pa _ _) =>
        match s.fetchBeat t core va pa with
        | (.ok b, s1) => go b s1
        | (.bad c a i, s1) => (.bad c a i, s1)
        | (.miss v k f, s1) => (.miss v k f, s1)
        | (.resolve v c l, s1) => (.resolve v c l, s1)
      | .ok _ => (.bad cPerm va 3, s)
      | .bad c a i => (.bad c a i, s)
      | .miss v k f => (.miss v k f, s)
      | .resolve v c l => (.resolve v c l, s)

/-- A fetched bundle of legal form. -/
structure NextBundle where
  /-- Physical slots. -/
  phys : Nat
  /-- The instruction slots, up to the first that is no instruction. -/
  slots : List (Guard × Instr)
  /-- The words of the instruction slots. -/
  words : List (BitVec 32)
  /-- The first slot that is no instruction, with its word (11 R269). -/
  bad : Option (Nat × BitVec 32) := none
  deriving DecidableEq, Repr

/-- What fetching and decoding the next bundle of a task finds. -/
inductive Prep where
  | ready (b : NextBundle)
  /-- A precise fault of the bundle. -/
  | fault (f : FaultRec)
  | walk (va : Nat)
  | park (va : Nat) (cow : Bool) (level : Nat)
  deriving DecidableEq, Repr

/-- ILLEGAL_BUNDLE is a fault of the whole bundle, ILLEGAL_INSTRUCTION one of its slot (11 R268, R269); a nullified
bundle's slots raise nothing (12 R311). -/
def prepBundle (nullified : Bool) (ws : List (BitVec 32)) (stopped : Bool) : Prep :=
  if nullified then .ready ⟨ws.length, [], [], none⟩
  else
    match parseBundle ws stopped with
    | .error n => .fault { code := BitVec.ofNat 16 cIllegalBundle, info := BitVec.ofNat 64 n }
    | .ok ss =>
      match decodeBundle 0 ss with
      | .ok xs => .ready ⟨ws.length, xs, ss.map (·.1), none⟩
      | .error (j, w) =>
        let xs := match decodeBundle 0 (ss.take j) with
          | .ok xs => xs
          | .error _ => []
        .ready ⟨ws.length, xs, ss.map (·.1), some (j, w)⟩

/-- Fetch and check the next bundle of a task; a fetch fault names the bundle's address (06 R160). -/
def State.nextBundle (s : State) (t : Task) (core : Nat) : Prep × State :=
  match s.fetchWords t core none 16 t.r.pc.toNat with
  | (.ok (ws, e), s1) => (prepBundle t.nullNext ws e, s1)
  | (.bad c _ i, s1) =>
    (.fault
      { code := BitVec.ofNat 16 c, addr := t.r.pc.setWidth 64, info := BitVec.ofNat 64 i, deferred := c == cIntegrity }, s1)
  | (.miss v _ _, s1) => (.walk v, s1)
  | (.resolve v c l, s1) => (.park v c l, s1)

/-! ## Interlocks (05 R132, R134; 13 R350; 14 R358; 01 R26) -/

/-- The register with an exposed write not yet visible that a slot reads (05 R134). -/
def shadowRead (t : Task) (x : Guard × Instr) : Option RegId :=
  (slotReads x).find? fun r => t.pend.any fun p => p.reg == r

/-- Does a slot wait for a stream operation in progress? -/
def streamHeld (t : Task) (slots : List (Guard × Instr)) : Bool :=
  t.r.streamOp?.isSome && slots.any fun x =>
    let r := streamRegs x.2
    r.2 || r.1.any t.r.streamInUse

/-- Does a bundle need a vector pipe or the matrix unit (01 R26)? -/
def needsPipe (words : List (BitVec 32)) : Bool :=
  words.any fun w =>
    let c := (wordClass w).toNat
    (decide (9 ≤ c) && decide (c ≤ 17)) || c == 26 || c == 27

/-- Can the core's cluster issue matrix and vector bundles (01 R26)? -/
def State.clusterAwake (s : State) (core : Nat) : Bool :=
  (s.package.wakes.getD {} (coreDie core)).clusters.contains (coreCluster core)

/-- The first matrix or vector bundle on a quiet die asks for its wake, which starts at once, or 32 cycles after the one
before (01 R26). -/
def State.askWake (s : State) (die : Nat) : State :=
  let w := s.package.wakes.getD {} die
  if w.awake || w.start.isSome then s
  else
    let at_ := match s.package.lastWake with
      | some c => max s.cycle (c + 32)
      | none => s.cycle
    let s1 := s.onPackage fun p =>
      { p with wakes := p.wakes.upd {} die fun w => { w with start := some at_ }, lastWake := some at_ }
    if at_ = s.cycle then s1.wakeDie die else s1.post (at_ - s.cycle) .dieWakeStart (.num die)

/-- What holds a checked bundle of a task. -/
inductive Held where
  | no
  /-- A result in flight. -/
  | result
  /-- A remote access's result: the task parks (04 R107). -/
  | remote (e : Infl)
  | wake
  | other
  deriving DecidableEq, Repr

/-- The interlocks of a bundle on a core. -/
def State.heldBy (s : State) (t : Task) (core : Nat) (b : NextBundle) : Held :=
  match t.waitsFor (b.slots.flatMap slotReads) with
  | some e => if e.remote then .remote e else .result
  | none =>
    if streamHeld t b.slots then .other
    else if s.fabric.remotes.any fun r => r.use.tid? == some t.tid && r.pkt.acquire then .other
    else if needsPipe b.words && !s.clusterAwake core then .wake
    else .no

/-- The load that a bundle of a task waits on (05 R132, R156). -/
def Task.loadAwaited (t : Task) (b : NextBundle) : Option Infl :=
  let reads := b.slots.flatMap slotReads
  t.infl.find? fun e => e.load && e.visible && e.mask != 0 && !e.toShadow && reads.contains e.reg

/-! ## Choosing a sequencer (04 R104, R105, R116) -/

/-- The group in lock-step on a core's cluster; none while all of it is off its sequencers (04 R116, R117). -/
def State.groupOf (s : State) (core : Nat) : List Word :=
  let g := (s.cores.tandems.getD {} (clusterOf core)).group
  if (g.filterMap s.task?).any fun t => t.phase == .bound then g else []

/-- The tasks that issue when a sequencer's task does: its group in lock-step, leader first, or itself. -/
def State.membersOf (s : State) (core : Nat) (t : Task) : List Word := if t.lockstep then s.groupOf core else [t.tid]

/-- Does a fence hold the next bundle of a task (14 R372)? One issued in trap mode holds the handler, and only it. -/
def Task.fenced (t : Task) : Bool := t.fences.any fun f => f.trap == t.trap.mode

/-- May a sequencer's task issue, but for its bundle: bound, active, not waiting, and, while its cluster holds a group in
lock-step, the group's leader (04 R104, R116). -/
def State.mayIssue (s : State) (core sq : Nat) : Option Task :=
  let q := s.seq core sq
  match q.task with
  | none => none
  | some tid =>
    match s.task? tid with
    | none => none
    | some t =>
      let lead := s.groupOf core
      let free := if lead.isEmpty then true else lead.head? == some tid
      if q.phase == .active && t.phase == .bound && t.wait.isNone && t.saving.isNone && decide (t.busyUntil ≤ s.cycle) && !t.fenced && free
      then some t else none

/-- Sequencers in the order of choice: highest current priority first, then round robin after the last one. -/
def State.seqOrder (s : State) (core : Nat) : List Nat :=
  let c := s.core core
  let rr := (List.range 4).map fun i => (c.rr + 1 + i) % 4
  (List.range 8).flatMap fun i => rr.filter fun q => (s.seq core q).prio == 7 - i

/-- The members of a group, apart from their bundle, may all issue. -/
def State.groupReady (s : State) (ms : List Word) : Bool :=
  ms.all fun u =>
    match s.task? u with
    | some t => t.phase == .bound && t.wait.isNone && t.saving.isNone && decide (t.busyUntil ≤ s.cycle) && !t.fenced &&
        (match t.core, t.sq with
         | some c, some q => (s.seq c q).phase == .active
         | _, _ => false)
    | none => false

/-! ## Before a bundle (06 R161; 04 R111; 14 R372) -/

/-- The group of a task ends: at a fault, a wound (04 R117). -/
def State.dissolveOf (s : State) (t : Task) : State :=
  match t.core with
  | some c => if t.lockstep then s.dissolve (clusterOf c) else s
  | none => s

/-- The oldest queued fault is taken before the next bundle, but not in trap mode (06 R161). -/
def State.takeQueued (s : State) (t : Task) : State :=
  match t.faults with
  | f :: rest =>
    if t.trap.mode then s
    else ((s.dissolveOf t).modTask t.tid fun t => { t with faults := rest }).trapEntry t.tid f t.r.pc
  | [] => s

/-- Fences of a task whose waits are over hold it no longer; the acquire is made at the end of the wait (14 R372; 07 R187,
R188, R191). -/
def State.pollFence (s : State) (t : Task) : State :=
  let (done, left) := t.fences.partition (s.fenceDone t.tid)
  if done.isEmpty then s
  else done.foldl (fun s f => s.acquireBy t.tid (Task.onCore t) f.scope) (s.modTask t.tid fun t => { t with fences := left })

/-- Is the launch of a task CHECKED (04 R111), and its MARKGAP? -/
def State.markLimit (s : State) (t : Task) : Option Nat :=
  match s.launch? (tidLnum t.tid) with
  | some l => if l.checked then some l.markgap.toNat else none
  | none => none

/-- One cycle of a sequencer before the choice: the mark count, a fence, a queued fault, MARK_GAP. -/
def State.preIssueSeq (s : State) (core sq : Nat) : State :=
  match (s.seq core sq).task with
  | none => s
  | some tid =>
    match s.task? tid with
    | none => s
    | some t =>
      if t.phase != .bound || (s.seq core sq).phase != .active then s
      else
        let s1 := s.pollFence t
        let waiting := match s1.task? tid with
          | some u => u.wait.isSome
          | none => true
        let s2 := if waiting || t.trap.mode || (s.markLimit t).isNone then s1
          else s1.modSeq core sq fun q => { q with boundCount := q.boundCount + 1 }
        if waiting || decide (s.cycle < t.busyUntil) then s2
        else if t.faults ≠ [] ∧ t.trap.mode = false then s2.takeQueued t
        else
          match s.markLimit t with
          | some n =>
            if n ≤ (s2.seq core sq).boundCount ∧ t.trap.mode = false then s2.post 0 .markGap (.task tid) else s2
          | none => s2

/-- Has a task reached MARK_GAP, so that it does not issue? -/
def State.gapReached (s : State) (core sq : Nat) (t : Task) : Bool :=
  match s.markLimit t with
  | some n => decide (n ≤ (s.seq core sq).boundCount) && !t.trap.mode
  | none => false

/-! ## Opening a bundle -/

/-- The faults of a whole bundle, raised on every task that issues it with the leader's PC; a group dissolves (11 R270;
04 R117). A deferred one waits where the task is in trap mode (06 R161), and its bundle is not issued. -/
def State.faultAll (s : State) (core : Nat) (t : Task) (f : FaultRec) : State :=
  let ms := s.membersOf core t
  ms.foldl (fun s u =>
    match s.task? u with
    | some x =>
      if f.deferred && x.trap.mode then (if x.faults.contains f then s else s.queueFault u f)
      else s.trapEntry u f t.r.pc
    | none => s) (s.dissolveOf t)

/-- What holds the bundle on any of the tasks that issue it: the first member held, with what holds it. -/
def State.heldAny (s : State) (b : NextBundle) : List Word → Option (Task × Nat × Held)
  | [] => none
  | u :: us =>
    match s.task? u with
    | none => s.heldAny b us
    | some t =>
      let c := t.core.getD 0
      match s.heldBy t c b with
      | .no => s.heldAny b us
      | h => some (t, c, h)

/-- What a held bundle does: it asks for a wake, or parks its task. -/
def State.onHeld (s : State) (t : Task) (core : Nat) (h : Held) : State :=
  match h with
  | .wake => s.askWake (coreDie core)
  | .remote e =>
    if t.lockstep then s
    else
      (s.parkStall t.tid (.remote e.id)).modTask t.tid fun t =>
        { t with heldLoad := if e.load then some (s.cycle + 1, e.buf) else none }
  | _ => s

/-- A cycle in which the next bundle of a sequencer, or of its group, waits on a load counts as a stall of the load's
buffer (05 R156). -/
def State.countHeld (s : State) (core sq : Nat) : State :=
  match s.mayIssue core sq with
  | none => s
  | some t =>
    let ms := s.membersOf core t
    if !s.groupReady ms || s.gapReached core sq t then s
    else
      match s.nextBundle t core with
      | (.ready b, _) =>
        match (ms.filterMap s.task?).findSome? fun u => u.loadAwaited b with
        | some e => s.countStalls t.ctx e.buf.toNat 1
        | none => s
      | _ => s

/-- Open the next bundle of a sequencer's task, if it is ready; otherwise do what its fetch or its interlock asks. -/
def State.openSeq (s : State) (core sq : Nat) : State :=
  match s.mayIssue core sq with
  | none => s
  | some t =>
    let ms := s.membersOf core t
    if !s.groupReady ms || s.gapReached core sq t then s
    else
      match s.nextBundle t core with
      | (.fault f, s1) => s1.faultAll core t f
      | (.walk v, s1) => s1.startWalk t.tid core v .load true
      | (.park v c l, s1) => s1.parkPage t.tid v c l
      | (.ready b, s0) =>
        let s1 := s0.tlbUse core (s0.ctx t.ctx).asid t.r.pc.toNat
        let c : Cur :=
          { tid := t.tid, core := core, pc := t.r.pc, phys := b.phys, slots := b.slots, words := b.words
            members := ms, nullified := t.nullNext, bad := b.bad }
        match s1.heldAny b ms with
        | some (u, at_, h) =>
          let s2 := s1.onHeld u at_ h
          if h == .wake && (s2.heldAny b ms).isNone then { s2 with cur := some c } else s2
        | none => { s1 with cur := some c }

/-- Try sequencers in order until one opens a bundle. -/
def State.openFirst (s : State) (core : Nat) : List Nat → State
  | [] => s
  | q :: qs =>
    let s1 := s.openSeq core q
    if s1.cur.isSome then s1 else s1.openFirst core qs

/-- ISSUE_BUNDLE: the first ready sequencer of a core opens its next bundle (04 R104). A second number names the
sequencers, as a mask, that have been found not ready in this cycle. A core whose task has issued a bundle with its group
in this cycle issues no other. During a clock change nothing issues (01 R30), nor
on a die that is held (01 R18, R24; 02 R60). -/
def execIssueBundle (s : State) : Out :=
  .next (
    let go (core tried : Nat) : State :=
      if s.package.pause || s.package.held.contains (coreDie core) || s.package.phase == .halted ||
        s.package.phase == .failed then s
      else
        let s1 := if tried = 0 then
            (List.range 4).foldl (fun s q => (s.preIssueSeq core q).countHeld core q) s
          else s
        if (s1.core core).lastIssue = some s.cycle then s1
        else s1.openFirst core ((s1.seqOrder core).filter fun q => !tried.testBit q)
    match s.cur, s.arg with
    | none, .num core => go core 0
    | none, .num2 core tried => go core tried
    | _, _ => s)

/-! ## Running the slots -/

/-- The state with slot `j` of the open bundle running. -/
def State.atSlot (s : State) (j : Nat) : State :=
  s.onCur fun c => { c with slot := j, guard := (c.slots.getD j (⟨0, false⟩, .nop)).1 }

/-- Run slot `j`. -/
def runSlot (ex : Instr → State → Out) (s : State) (j : Nat) : State :=
  match s.cur with
  | none => s
  | some c =>
    match ex (c.slots.getD j (⟨0, false⟩, .nop)).2 (s.atSlot j) with
    | .next s' => s'
    | _ => s

/-- Run slots one after another while the bundle is open; where it stops, the slot that stopped it. -/
def runSlots (ex : Instr → State → Out) (s : State) : List Nat → Sum State (Nat × State)
  | [] => .inl s
  | j :: js =>
    let s1 := runSlot ex s j
    if s1.cur.isNone then .inr (j, s1) else runSlots ex s1 js

/-- The fault a slot of the open bundle raises without its meaning: with DBG.SHADOW set, a read inside an exposed shadow
(05 R134), or no instruction at all (11 R269). -/
def State.slotFault (s : State) (j : Nat) : Option State :=
  match s.cur, s.me? with
  | some c, some t =>
    match c.bad with
    | some (k, w) => if k = j then some ((s.atSlot j).raise cIllegalInstruction 0 w.toNat) else none
    | none => none
    |>.orElse fun _ =>
      if !t.r.dbg.getLsbD 0 then none
      else
        (c.slots[j]?.bind (shadowRead t)).map fun r =>
          let (cls, n) := r.code
          (s.atSlot j).raise cShadowRead 0 (cls + n * 4)
  | _, _ => none

/-- The first slot, in slot order, that by itself stops the bundle, with its outcome (06 R161). -/
def firstStop (ex : Instr → State → Out) (s : State) : List Nat → Option State
  | [] => none
  | j :: js =>
    match s.slotFault j with
    | some s1 => some s1
    | none =>
      let s1 := runSlot ex s j
      if s1.cur.isNone then some s1 else firstStop ex s js

/-- The number of slots that may stop a bundle. -/
def Cur.stops (c : Cur) : Nat :=
  if c.nullified then 0 else c.slots.length + (if c.bad.isSome then 1 else 0)

/-- The order in which a bundle's slots take effect. -/
def slotOrder (c : Cur) : List Nat :=
  if c.nullified then []
  else
    let js := List.range c.slots.length
    let late (j : Nat) : Bool := isMatrixSlot (c.slots.getD j (⟨0, false⟩, .nop)).2
    js.filter (fun j => !late j) ++ js.filter late

/-- A slot that only the effects of others in its bundle stop: the bundle stops with the fault it raised, and has no
effect; without one it is held. -/
def State.lateStop (s s2 : State) (tid : Word) (j : Nat) : State :=
  match s2.task? tid with
  | some t =>
    if t.trap.mode then (s.atSlot j).raise (t.trap.code.toNat % 2 ^ 16) t.trap.addr.toNat t.trap.info.toNat else s.hold
  | none => (s.atSlot j).raise cVersionFull 0 1

/-- Entries the pending-write queue would hold after the bundle, where the bundle adds some (05 R133). -/
def State.queueAfter (s : State) : Nat :=
  match s.cur, s.me? with
  | some c, some t =>
    let need := c.writes.countP fun w => decide (1 < w.remain)
    if need = 0 then 0 else (t.pend.countP fun p => decide (1 < p.remain)) + need
  | _, _ => 0

/-- Is a commit sequence of the bundle held for want of slip-table entries (02 R51), or by stores that come before it? -/
def State.commitHeld (s : State) : Bool :=
  match s.cur, s.me? with
  | some c, some t => (c.commit || (c.ending && !t.trap.mode && s.versioned)) &&
    (!s.commitReady t c.core || (s.flushStores t.tid).storesLeft t.tid)
  | _, _ => false

/-- Run the open bundle for its task: the state with the bundle still open, or, with the bundle gone, what stopped it. -/
def runMember (ex : Instr → State → Out) (s : State) : State :=
  match s.cur with
  | none => s
  | some c =>
    let js := slotOrder c
    match firstStop ex s (List.range c.stops) with
    | some s1 => s1
    | none =>
      match runSlots ex s js with
      | .inr (j, s2) => s.lateStop s2 c.tid j
      | .inl s2 =>
        if 16 < s2.queueAfter then s.raise cPendOverflow 0 s2.queueAfter
        else if s2.commitHeld then s.hold
        else s2

/-! ## Where control goes (05 R136; 12 R308 to R312) -/

/-- The next bundle, the loop stack, and what else follows from the control slot. -/
structure Flow where
  pc : BitVec 57
  loops : List LoopEnt
  /-- A hardware loop iteration has ended: a marked point (04 R110). -/
  looped : Bool
  /-- The next bundle is nullified. -/
  skip : Bool
  deriving DecidableEq, Repr

/-- The flow out of an open bundle, on a loop stack. -/
def Cur.flow (c : Cur) (loops : List LoopEnt) : Flow :=
  match c.branch with
  | some (target, pops) => ⟨target, if pops then branchAct target loops else loops, false, false⟩
  | none =>
    let acted := atLoopEnd c.pc loops
    let (l, back) := loopAct c.pc loops
    let l1 := match c.push with
      | some e => l ++ [e]
      | none => l
    match acted, c.skipTo with
    | false, some p => ⟨p, l1, false, true⟩
    | _, _ => ⟨back.getD (c.pc + 4 * BitVec.ofNat 57 c.phys), l1, acted, false⟩

/-! ## Closing a bundle -/

/-- The writes of a bundle that outlive it: one that returns from trap mode leaves the shadowed registers as the shadow
restores them (12 R321). -/
def Cur.kept (c : Cur) : List Pend × List Infl :=
  if c.ret.isSome then
    (c.writes.filter fun w => (shadowIndex w.reg).isNone, c.inter.filter fun e => (shadowIndex e.reg).isNone)
  else (c.writes, c.inter)

/-- The task's registers after the bundle but for its writes: where it goes, its log, and the return from trap mode
(05 R136; 06 R166). -/
def Task.closing (t : Task) (c : Cur) (f : Flow) : Task :=
  let fel0 := if c.clrFel then {} else t.r.fel
  let fel1 := felRecord fel0 c.pc false c.events
  let t1 := { t with r := { t.r with fel := fel1, pc := f.pc, loops := f.loops }, nullNext := f.skip
                     issued := t.issued + 1, redo := none, marked := c.mark || f.looped }
  match c.ret with
  | some target => Task.leaveTrap { t1 with r := { t1.r with pc := c.pc } } target
  | none => t1

/-- The task's registers and queues after the bundle (05 R131, R132; 06 R166). -/
def Task.close (t : Task) (c : Cur) (f : Flow) : Task := (t.closing c f).enter c.kept.1 c.kept.2

/-- What a bundle traces: its memory accesses and taken branch, and the K writes that become visible (05 R158). -/
def Task.traces (t : Task) (c : Cur) (f : Flow) : List (Nat × TraceEv) :=
  let branch := match c.branch with
    | some (target, _) =>
      [((c.slots.findIdx? fun (x : Guard × Instr) => isBranchSlot x.2).getD 0, TraceEv.branch (target.setWidth 64))]
    | none => []
  c.traced.map (fun x => (x.1, TraceEv.access x.2.1 x.2.2.1 x.2.2.2)) ++ branch ++
  (((t.closing c f).join c.kept.1 c.kept.2).shownK.map fun x => (x.1, TraceEv.kwrite x.2.1.toNat x.2.2))

/-- Trace records and the trigger of a bundle that issues (05 R157, R158). -/
def State.traceClose (s : State) (t : Task) (c : Cur) (f : Flow) : State :=
  (s.traceTrigger t.tid 2 fun tr => tr.trig.setWidth 57 == c.pc).traceAll t.tid (t.traces c f)

/-- TANDEM: the task arrives at its cluster's group and waits (12 R324). -/
def State.tandemArrive (s : State) (tid : Word) (core : Nat) : State :=
  let cl := clusterOf core
  ((s.waitOnSeq tid .tandem).onCores fun cs =>
    { cs with tandems := cs.tandems.upd {} cl fun g => { g with arrived := g.arrived ++ [tid] } }).post 0
    .tandemGroupForm (.num cl)

/-- The fence of the bundle holds the next one, unless it has nothing to wait for (14 R372). -/
def State.enterFence (s : State) (t : Task) (c : Cur) : State :=
  match c.fence with
  | some f => if s.fenceDone t.tid f then s else s.modTask t.tid fun x => { x with fences := x.fences ++ [f] }
  | none => s

/-- The wait the bundle's task enters (04 R107). The bundle's address and loop stack are kept for a fault that ends the
wait (06 R162). -/
def State.enterWait (s : State) (t : Task) (core : Nat) (c : Cur) : State :=
  match c.wait with
  | none => s
  | some w =>
    let s1 := s.modTask t.tid fun x => { x with redo := some (c.pc, t.r.loops) }
    match w with
    | .lock _ _ => s1.modTask t.tid fun x => { x with wait := some w }
    | .tandem => s1.tandemArrive t.tid core
    | .rejoin =>
      let s2 := (s1.modTask t.tid fun x => { x with rejoined := true }).waitOnSeq t.tid .rejoin
      match t.tandemOf with
      | some g => s2.checkRejoin g
      | none => s2
    | w => s1.waitOnSeq t.tid w

/-- How the bundle ends the task, if it does: END, or TRAPRST (12 R319, R321; 06 R166). -/
def State.closeEnd (s : State) (t : Task) (core : Nat) (c : Cur) : State :=
  let handled := t.trap.code.toNat % 2 ^ 16
  if c.rst then s.restart t.tid handled
  else if c.ending then
    if t.trap.mode then s.endFault t.tid handled
    else
      let versioned := match s.launch? (tidLnum t.tid) with
        | some l => l.vers
        | none => false
      let s1 := if versioned then s.commitSeq t.tid core else s
      match s1.task? t.tid with
      | some u => s1.endOne u none
      | none => s1
  else s

/-- Close the bundle of one task with a given flow: its registers, counters, stream and system registers, traces, commit,
wait and end. -/
def State.closeMember (s : State) (f : Flow) : State :=
  match s.cur, s.me? with
  | some c, some t =>
    let s0 := { s with cur := none }
    let s1 := c.streams.foldl (fun s x => s.takeStream t.tid x) (s0.modTask t.tid fun x => Task.close x c f)
    let s2 := c.sysWrites.foldl (fun s w => s.sysWrite t c.core w.1 w.2) s1
    let s3 := if c.commit then s2.commitSeq t.tid c.core else s2
    let s4 := s3.traceClose t c f
    let s5 := if needsPipe c.words && !c.nullified then s4.markActive (coreDie c.core) else s4
    let s6 := match t.sq with
      | some q =>
        s5.modSeq c.core q fun x =>
          { x with prio := t.prio, readyCount := 0, waitAt := none
                   boundCount := if c.mark || f.looped then 0 else x.boundCount }
      | none => s5
    let s7 := s6.modCore c.core fun x => { x with rr := t.sq.getD x.rr, lastIssue := some s.cycle }
    ((s7.enterFence t c).enterWait t c.core c).closeEnd t c.core c
  | _, _ => { s with cur := none }

/-- The state with the bundle open for another task of its group. -/
def State.openFor (s : State) (c : Cur) (tid : Word) : State :=
  match s.task? tid with
  | some t => { s with cur := some { c with tid := tid, core := t.core.getD 0 } }
  | none => { s with cur := none }

/-- The leader's flow when the leader itself faults: its control slot alone. -/
def leaderFlow (ex : Instr → State → Out) (s : State) (c : Cur) (loops : List LoopEnt) : Flow :=
  let js := (List.range c.slots.length).filter fun j => isFlowSlot (c.slots.getD j (⟨0, false⟩, .nop)).2
  match runSlots ex s js with
  | .inl s1 => (s1.cur.getD c).flow loops
  | .inr _ => c.flow loops

/-- Has the bundle faulted for a task: it has entered trap mode, or is gone? -/
def State.faulted (s s1 : State) (tid : Word) : Bool :=
  match s.task? tid, s1.task? tid with
  | some t, some u => u.trap.mode && !t.trap.mode
  | some _, none => true
  | none, _ => false

/-! ## Yields (04 R110, R113; 12 R318) -/

/-- The three conditions of a yield point for a task. -/
def State.yieldPoint (s : State) (t : Task) : Bool :=
  t.pend.isEmpty && !((s.core (Task.onCore t)).mmas.any fun m => m.tid == t.tid) && t.tgemm.isNone && t.r.streamOp?.isNone

/-- Tasks at a marked point that issued YIELD there, or were asked to leave, are saved together when each is at a yield
point (04 R110, R113; 12 R318). -/
def State.yieldAll (s : State) (ms : List Word) (asked : Bool) : State :=
  let ts := ms.filterMap s.task?
  if ts.any (·.marked) && (asked || ts.any (·.preempt)) && ts.all (fun t => t.phase == .bound && s.yieldPoint t) then
    ts.foldl (fun s t => (s.modTask t.tid fun t => { t with preempt := false }).frameOut t.tid 0) s
  else s

/-! ## The whole bundle -/

/-- What a bundle of a group does to all of it where it does it to one member: END (04 R116), and, with their flow, marks. -/
def Cur.forAll (x : Cur) (ending : Bool) : Cur := { x with ending := x.ending || ending }

/-- Run and close the bundle for each task of a group in turn; none where one of them cannot issue after all. -/
def runGroup (ex : Instr → State → Out) (c : Cur) (f : Flow) (ending : Bool) : List Word → State → Option State
  | [], s => some s
  | u :: us, s =>
    let s0 := s.openFor c u
    let s1 := runMember ex s0
    if s1.cur.isSome then runGroup ex c f ending us ((s1.onCur fun x => x.forAll ending).closeMember f)
    else if s.faulted s1 u then runGroup ex c f ending us s1
    else none

/-- May the tasks of a group run the commit sequences that their END makes (02 R51)? -/
def State.groupCommitReady (s : State) (ms : List Word) : Bool :=
  (ms.filterMap s.task?).all fun t =>
    match s.launch? (tidLnum t.tid) with
    | some l => !l.vers || (s.commitReady t (Task.onCore t) && !(s.flushStores t.tid).storesLeft t.tid)
    | none => true

/-- The bundle of a group in lock-step: it issues when it can issue on every member; a fault of one lets the others
complete it and dissolves the group (04 R115 to R117; 12 R318). -/
def runLockstep (ex : Instr → State → Out) (s : State) (c : Cur) : State :=
  let solo := c.members.map fun u => (u, runMember ex (s.openFor c u))
  match solo.find? fun r => r.2.cur.isNone && !s.faulted r.2 r.1 with
  | some r => r.2
  | none =>
    let loops := match s.task? c.tid with
      | some t => t.r.loops
      | none => []
    let flag (p : Cur → Bool) : Bool := solo.any fun r => r.2.cur.any p
    let f0 := match (solo.head?.map (·.2.cur)).getD none with
      | some lc => lc.flow loops
      | none => leaderFlow ex s c loops
    let f := { f0 with looped := f0.looped || flag (·.mark) }
    let anyFault := solo.any fun r => r.2.cur.isNone
    let ending := flag (·.ending)
    if ending && !s.groupCommitReady c.members then s.hold
    else
      match runGroup ex c f ending c.members { s with cur := none } with
      | none => s.hold
      | some s1 =>
        let s2 := (c.members.filterMap s.task?).foldl (fun s t =>
          s.modCore (Task.onCore t) fun x => { x with lastIssue := some s.cycle }) s1
        if anyFault || flag (·.decouple) then
          let s3 := s2.dissolve (clusterOf c.core)
          (solo.filter fun r => r.2.cur.isSome).foldl (fun s r => s.yieldAll [r.1] (flag (·.yieldReq))) s3
        else s2.yieldAll c.members (flag (·.yieldReq))

/-- Run the slots of the open bundle and close it. -/
def runBundle (ex : Instr → State → Out) (s : State) : State :=
  match s.cur, s.me? with
  | some c, some t =>
    if t.lockstep then runLockstep ex s c
    else
      let s1 := runMember ex s
      match s1.cur with
      | none => s1
      | some c1 => (s1.closeMember (c1.flow t.r.loops)).yieldAll [c.tid] c1.yieldReq
  | _, _ => { s with cur := none }

/-- Bundles issued so far by a sequencer's task: a bundle has issued when the count has moved, or the task is gone. -/
def State.issuedBy (s : State) (tid : Word) : Option Word := (s.task? tid).map (·.issued)

/-! ## Aging (04 R105) -/

/-- Is a sequencer ready, so far as its task, fetch and interlocks show? -/
def State.seqReady (s : State) (core sq : Nat) : Bool :=
  match s.mayIssue core sq with
  | none => false
  | some t =>
    let ms := s.membersOf core t
    s.groupReady ms && !s.gapReached core sq t &&
      (match s.nextBundle t core with
       | (.ready b, _) => (s.heldAny b ms).isNone
       | (.fault _, _) => true
       | _ => false)

/-- The AGE its task's launch latched. -/
def State.ageLimit (s : State) (tid : Word) : Nat :=
  match s.launch? (tidLnum tid) with
  | some l => l.age.toNat
  | none => 4096

/-- A sequencer that was ready and did not issue counts the cycle. -/
def State.ageSeq (s : State) (core sq : Nat) : State :=
  let q := s.seq core sq
  match q.task with
  | none => s
  | some tid =>
    if s.seqReady core sq then
      let s1 := s.modSeq core sq fun q => { q with readyCount := q.readyCount + 1 }
      if s.ageLimit tid ≤ q.readyCount + 1 then s1.post 0 .ageLimit (.num2 core sq) else s1
    else s

/-- Count the cycle for the sequencers of a core that lost the choice. -/
def State.ageLosers (s : State) (core winner : Nat) : State :=
  ((List.range 4).filter (· != winner)).foldl (fun s q => s.ageSeq core q) s

/-- AGE_LIMIT (04 R105): the current priority rises by one, at most to 7, and the count restarts. -/
def execAgeLimit (s : State) : Out :=
  .next (match s.arg with
    | .num2 core sq =>
      let q := s.seq core sq
      match q.task with
      | some tid =>
        if s.ageLimit tid ≤ q.readyCount then s.modSeq core sq fun q => { q with prio := min (q.prio + 1) 7, readyCount := 0 }
        else s
      | none => s
    | _ => s)

/-- MARK_GAP (04 R111): raised before the task's next bundle, with the count reached. -/
def execMarkGap (s : State) : Out :=
  .next (match s.arg with
    | .task tid =>
      match s.task? tid with
      | some t =>
        match t.core, t.sq with
        | some c, some q =>
          if s.gapReached c q t && t.phase == .bound && t.wait.isNone && decide (t.busyUntil ≤ s.cycle) then
            (s.dissolveOf t).trapEntry tid
              { code := BitVec.ofNat 16 cMarkGap, info := BitVec.ofNat 64 (s.seq c q).boundCount } t.r.pc
          else s
        | _, _ => s
      | none => s
    | _ => s)

/-- Issue on one core in one cycle: sequencers are tried in order until a bundle issues; `fuel` is their number. -/
def issueCore (ex : Instr → State → Out) (core : Nat) : Nat → Nat → State → State
  | 0, _, s => s
  | n + 1, tried, s =>
    match ex .issueBundle { s with arg := .num2 core tried } with
    | .next s1 =>
      match s1.cur with
      | none => s1
      | some c =>
        let sq := match s1.task? c.tid with
          | some t => t.sq.getD 0
          | none => 0
        let s2 := runBundle ex s1
        if s2.issuedBy c.tid = s1.issuedBy c.tid ∧ (s2.task? c.tid).isSome = true then
          issueCore ex core n (tried ||| (1 <<< sq)) s2
        else s2.ageLosers core sq
    | _ => s

end Sys2Proof.Machine
end

