-- ==== Sys2Proof/Machine/MemEvents.lean ====
section
/-! DEFINITION. What happens to accesses after their issue: stores are performed, data arrives, releases settle, walks
complete, page faults are resolved, translations are invalidated, the Invigilator checks (05 R151 to R154; 06 R161,
R162, R174 to R177; 07 R179 to R181, R189; 14 R366). -/

namespace Sys2Proof.Machine

open Sys2Proof

/-! ## Stores (07 R179 to R181, R189) -/

/-- Perform stores, and end the roll waits that this ends. -/
def State.performAll (s : State) (ps : List PendStore) : State := (ps.foldl (fun s p => s.performStore p) s).pokeRolls 0

/-- A store reaches its home: it is performed after the earlier ones it must follow; a release from another die waits
for its stamp. -/
def State.storeArrives (s : State) (p : PendStore) : State :=
  let before := storesBefore s.mem.stores p
  if before.any s.storeBlocked || s.storeHeldBack p then s.postFree .storePerformed (.num p.id)
  else
    match s.stampWaits p with
    | some d =>
      if s.clocks.waiting.any fun w => decide (w.act = .store p.id) then s
      else
        s.onClocks fun c =>
          { c with waiting := c.waiting ++ [{ id := p.id, die := d, stamp := p.stamp, act := .store p.id }] }
    | none => (s.performAll (before ++ [p])).pumpRemotes

/-- STORE_PERFORMED (07 R179). -/
def execStorePerformed (s : State) : Out :=
  .next (match s.arg with
    | .num id =>
      match s.mem.stores.find? (·.id == id) with
      | some p => s.storeArrives p
      | none => s.pumpRemotes
    | _ => s)

/-- A message is applied by the receiving die. -/
def State.applyStamped (s : State) : StampAct → State
  | .store id =>
    match s.mem.stores.find? (·.id == id) with
    | some p => s.storeArrives p
    | none => s
  | .bell key tid bit => s.bellCount key tid bit
  | .roll core off n => s.setRoll core off ((s.roll core off).arrive n) 0

/-- STAMPED_MESSAGE_APPLY (07 R189): a waiting release is applied once its stamp is heard, and the stores it carries are
performed. -/
def execStampedMessageApply (s : State) : Out :=
  .next (match s.arg with
    | .num id =>
      match s.clocks.waiting.find? (·.id == id) with
      | some w =>
        if !s.clocks.heardAll w.die w.stamp then s
        else if s.anyPending w.after then s.postFree .stampedMessageApply (.num id)
        else (s.onClocks fun c => { c with waiting := c.waiting.filter (·.id != id) }).applyStamped w.act
      | none => s
    | _ => s)

/-- RELEASE_SETTLED (07 R189): once every store a release carries is performed, and its die's earlier releases are
settled, every die hears of it. -/
def State.releaseSettles (s : State) (die k : Nat) : State :=
  match s.clocks.unsettled.find? (fun u => u.die == die) with
  | none => s
  | some u =>
    if u.count ≠ k ∨ s.anyPending u.stores = true then s.postFree .releaseSettled (.num2 die k)
    else
      let s1 := s.onClocks fun c =>
        { c with
          unsettled := c.unsettled.filter fun x => !(x.die == die && x.count == k)
          heard := (List.range 14).foldl (fun h d => h.put (d * 16 + die) k) c.heard }
      (s1.clocks.waiting.foldl (fun s w => s.post 0 .stampedMessageApply (.num w.id)) s1).pumpRemotes

def execReleaseSettled (s : State) : Out :=
  .next (match s.arg with
    | .num2 die k =>
      if s.clocks.unsettled.any fun u => u.die == die && u.count == k then s.releaseSettles die k else s
    | _ => s)

/-! ## Data and deferred faults (05 R132; 06 R161; 01 R28) -/

/-- The value of an interlocked write arrives; a poisoned beat it consumed raises INTEGRITY. -/
def State.dataArrives (s : State) (t : Task) (e : Infl) : State :=
  let s1 := s.landFor t.tid e.id e.val
  match e.poison with
  | none => s1
  | some (pa, info) =>
    s1.queueFault t.tid
      { code := BitVec.ofNat 16 cIntegrity, addr := BitVec.ofNat 64 pa, info := BitVec.ofNat 64 info, deferred := true }

/-- LOAD_DATA_ARRIVE (05 R132). -/
def execLoadDataArrive (s : State) : Out :=
  .next (match s.arg with
    | .num id =>
      match s.tasks.findSome? fun t => (t.infl.find? fun e => e.id == id && !e.remote).map (t, ·) with
      | some (t, e) => s.dataArrives t e
      | none => s
    | _ => s)

/-- DEFERRED_FAULT_ARRIVE (06 R161, R162). -/
def execDeferredFaultArrive (s : State) : Out :=
  .next (match s.arg with
    | .fault tid f => s.queueFault tid f
    | _ => s)

/-- FULL_EMPTY_RETRY (14 R366): a refused access arrives again, or its port claims the place held for it. -/
def execFullEmptyRetry (s : State) : Out :=
  .next (match s.arg with
    | .num id =>
      match s.cores.cores.findSome? fun (_, c) => c.feRefused.find? (·.1.id == id) with
      | some (w, core, p) => s.feAgain core w p
      | none => s
    | _ => s)

/-! ## The Invigilator (06 R175 to R177) -/

/-- The code of a scope in a shadow entry (06 R175), and back. -/
def scopeCode : Scope → Nat
  | .seq => 0 | .core => 1 | .cluster => 2 | .die => 3 | .pkg => 4 | .fabric => 5

/-- Does a scope of code `c` cover two coordinates of the layout of G3 (06 R176)? -/
def ivCovers (c a b : Nat) : Bool :=
  match c with
  | 0 => a % 2 ^ 12 == b % 2 ^ 12
  | 1 => a % 2 ^ 10 == b % 2 ^ 10
  | 2 => a % 2 ^ 7 == b % 2 ^ 7
  | 3 => a % 2 ^ 2 == b % 2 ^ 2
  | _ => true

/-- The last word of a shadow entry that an access leaves. -/
def ivWord (acc : IvAccess) : Nat :=
  let sc := match acc.rel with
    | some sc => scopeCode sc
    | none => 0
  acc.coord.toNat % 2 ^ 12 + sc * 2 ^ 12 + flag acc.rel.isSome * 2 ^ 15 + flag (acc.kind == .atomic) * 2 ^ 16 + 2 ^ 17

/-- Does a shadow entry conflict with an access (06 R176)? -/
def ivConflict (acc : IvAccess) (interval wtid wint w : Nat) : Bool :=
  let acquired := match acc.acq with
    | some sc => bitsOf w 15 1 == 1 && ivCovers (min (bitsOf w 12 3) (scopeCode sc)) (w % 2 ^ 12) (acc.coord.toNat % 2 ^ 12)
    | none => false
  bitsOf w 17 1 == 1 && wtid != acc.tid.toNat && wint == interval &&
    !((bitsOf w 16 1 == 1 && acc.kind == .atomic) || acquired)

/-- Report a conflict: RACE as a deferred fault, or a log entry (06 R176, R177). -/
def State.ivReport (s : State) (acc : IvAccess) (win : Nat) (mode : Bool) (sector wtid : Nat) : State :=
  if !mode then
    s.queueFault acc.tid
      { code := BitVec.ofNat 16 cRace, addr := BitVec.ofNat 64 (sector * 32), info := BitVec.ofNat 64 wtid
        deferred := true }
  else
    let c := s.ctx acc.ctx
    match (List.range 16).find? fun j => (Tbl.find? c.ivlog j).isNone with
    | some j =>
      let e : IvLogEnt := ⟨acc.kind != .load, win, acc.tid, BitVec.ofNat 64 wtid, BitVec.ofNat 57 (sector * 32)⟩
      (s.modCtx acc.ctx fun c => { c with ivlog := c.ivlog.put j e }).raiseVector c.ivIrqv.toNat
    | none => s.modCtx acc.ctx fun c => { c with ivlost := min (c.ivlost + 1) (2 ^ 32 - 1) }

/-- Check the sectors of an access in order; it reports at most once. -/
def State.ivSectors (acc : IvAccess) : List Nat → Bool → State → State
  | [], _, s => s
  | x :: xs, reported, s =>
    let c := s.ctx acc.ctx
    match c.ivWindow (x * 32) with
    | none => State.ivSectors acc xs reported s
    | some i =>
      let w := c.iv.getD {} i
      let pa := w.shadow.toNat * 2 ^ 12 + 16 * (x - w.base.toNat * 2 ^ 11)
      let (bs, s1) := s.physRead (ctxSlot acc.ctx) pa 16
      let wtid := fieldAt bs 0 8
      let hit := !reported && ivConflict acc w.interval.toNat wtid (fieldAt bs 8 4) (fieldAt bs 12 4)
      let s2 := if hit then s1.ivReport acc i w.mode x wtid else s1
      let s3 := if acc.kind == .load then s2 else
        s2.physWrite (ctxSlot acc.ctx) pa (natLe 8 acc.tid.toNat ++ natLe 4 w.interval.toNat ++ natLe 4 (ivWord acc))
      State.ivSectors acc xs (reported || hit) s3

/-- INVIGILATOR_CHECK (06 R176). -/
def execInvigilatorCheck (s : State) : Out :=
  .next (match s.arg with
    | .iv acc =>
      if s.mem.ivQueue.contains acc then
        State.ivSectors acc acc.sectors false (s.onMem fun m => { m with ivQueue := m.ivQueue.erase acc })
      else s
    | _ => s)

/-! ## Page walks (05 R150, R151) -/

/-- A finished walk leaves its die's walkers, and the oldest walk that waits for one starts. -/
def State.walkerFree (s : State) (w : Walk) : State :=
  let s1 := s.onMem fun m => { m with walks := m.walks.filter (·.id != w.id) }
  match s1.mem.walks.find? fun x => x.die == w.die && !x.active with
  | some x =>
    (s1.onMem fun m =>
      { m with walks := m.walks.map fun y => if y.id == x.id then { y with active := true } else y }).postFree
      .pageWalkComplete (.num x.id)
  | none => s1

/-- A waiter receives a walk's fault outcome: it raises it when its bundle issues again. -/
def State.walkFaults (s : State) (w : Walk) (code info : Nat) : State :=
  w.waiters.foldl (fun s tid => s.modTask tid fun t =>
    { t with walkFault := some (w.page, w.kind, w.fetch, BitVec.ofNat 16 code, BitVec.ofNat 64 info) }) s

/-- Waiters that are still on their sequencers park for the page (05 R153). -/
def State.walkParks (s : State) (w : Walk) (cow : Bool) (level : Nat) : State :=
  w.waiters.foldl (fun s tid =>
    match s.task? tid with
    | some t => if t.phase = .bound ∧ t.wait = none then s.parkPage tid (w.page * 2 ^ 16) cow level else s
    | none => s) s

/-- A walk's outcome: a translation enters the TLBs of the waiters' cores, anything else goes to the waiters. -/
def State.walkDone (s : State) (w : Walk) : State :=
  let s1 := s.walkerFree w
  let va := w.page * 2 ^ 16
  match s.walk w.ctx va with
  | .bad code info => s1.walkFaults w code info
  | .notPresent level => s1.walkParks w false level
  | .leaf level e =>
    match leafOutcome e va w.kind w.fetch with
    | some (.bad code _ info) => s1.walkFaults w code info
    | some (.resolve _ cow l) => s1.walkParks w cow l
    | _ =>
      w.waiters.foldl (fun s tid =>
        match s.task? tid with
        | some t =>
          match t.core with
          | some c => s.tlbInsert c ⟨w.asid, w.page, level, e⟩
          | none => s
        | none => s) s1

/-- PAGE_WALK_COMPLETE. -/
def execPageWalkComplete (s : State) : Out :=
  .next (match s.arg with
    | .num id =>
      match s.mem.walks.find? fun w => w.id == id && w.active with
      | some w => s.walkDone w
      | none => s
    | _ => s)

/-! ## Page faults the driver resolves (05 R153, R154) -/

/-- A request that waited at this chip is no longer in progress: it arrives anew (02 R45). -/
def State.unwait (s : State) (p : Packet) : State :=
  s.onFabric fun x => { x with filters := x.filters.map fun (k, f) =>
    if k = (p.src, p.srcunit) then (k, { f with inProgress := f.inProgress.filter (· != p.reqid) }) else (k, f) }

/-- The waiters on a page translate again: tasks join their bind sets, engine operations and peers' requests go on. -/
def State.pageWaiters (s : State) (n : Nat) (page : Nat) (cow : Bool) : State :=
  let s1 := s.tasks.foldl (fun s t =>
    match t.wait with
    | some (.pageFault va c) => if t.ctx = n ∧ va / 2 ^ 16 = page ∧ c = cow then s.wake t.tid else s
    | _ => s) s
  let hit (w : TargetWait) : Bool := w.ctx == n && w.va / 2 ^ 16 == page && w.cow == cow
  let s2 := (s1.fabric.targetWaits.filter hit).foldl (fun s w =>
    match packetEvent w.pkt.op.toNat with
    | some i => (s.unwait w.pkt).post 0 i (packetArg w.hub w.pkt)
    | none => s) s1
  let s3 := s2.onFabric fun x => { x with targetWaits := x.targetWaits.filter fun w => !hit w }
  s.engines.ops.foldl (fun s op =>
    match op.parked with
    | some (va, c) =>
      if op.ctx = n ∧ va / 2 ^ 16 = page ∧ c = cow then
        (s.onEngines fun e =>
          { e with ops := e.ops.map fun o => if o.id == op.id then { o with parked := none } else o }).post 0
          .engineComplete (.num op.id)
      else s
    | none => s) s3

/-- PAGE_RESOLVE (05 R154): the entry frees, a kept fault takes its place, and its waiters translate again. -/
def State.pageResolve (s : State) (n i : Nat) : State :=
  match Tbl.find? (s.ctx n).pfent i with
  | none => s
  | some e =>
    let kept := (s.ctx n).pfKept
    let s1 := s.modCtx n fun c => { c with pfent := c.pfent.del i, pfKept := [] }
    let s2 := kept.foldl (fun s (cow, level, va, eng) => s.recordPageFault n va cow level eng) s1
    s2.pageWaiters n e.vpage.toNat e.cow

def execPageResolve (s : State) : Out :=
  .next (match s.arg with
    | .num2 n i => s.whenCtxBar n fun s => s.pageResolve n i
    | _ => s)

/-! ## Invalidating translations (05 R152; 10 R245) -/

/-- The 64 KiB pages a TLBINV names: first page and how many; none names every one. -/
def tlbRange (size page : Nat) : Option (Nat × Nat) :=
  match size with
  | 0 => some (page, 1)
  | 1 => some (page / 2 ^ 5 * 2 ^ 5, 2 ^ 5)
  | 2 => some (page / 2 ^ 14 * 2 ^ 14, 2 ^ 14)
  | _ => none

/-- Does a run of pages meet the range? -/
def inTlbRange (r : Option (Nat × Nat)) (first n : Nat) : Bool :=
  match r with
  | none => true
  | some (p, k) => decide (first < p + k) && decide (p < first + n)

/-- Drop the entries of an ASID that the range names. -/
def tlbDrop (asid : BitVec 16) (r : Option (Nat × Nat)) (l : List TlbEnt) : List TlbEnt :=
  l.filter fun e =>
    let n := 2 ^ (pageBits e.level - 16)
    !(e.asid == asid && inTlbRange r (e.vpage / n * n) n)

/-- Drop them from every core's, cluster's and fabric unit's TLB. -/
def State.tlbDropAll (s : State) (asid : BitVec 16) (r : Option (Nat × Nat)) : State :=
  s.onCores fun cs =>
    { cs with
      cores := cs.cores.map fun (i, c) => (i, { c with tlb := tlbDrop asid r c.tlb })
      clusterTlb := cs.clusterTlb.map fun (i, l) => (i, tlbDrop asid r l)
      fabricTlb := tlbDrop asid r cs.fabricTlb }

/-- Does anything of a context still use old translations: a pin on a named page, an MMA, a remote access? -/
def State.tlbHeld (s : State) (n : Nat) (r : Option (Nat × Nat)) : Bool :=
  (s.mem.pins.any fun p => p.2.1 == n && inTlbRange r p.2.2 1) ||
  (s.cores.cores.any fun (_, c) => c.mmas.any fun m =>
    match s.task? m.tid with
    | some t => t.ctx == n
    | none => false) ||
  (s.fabric.remotes.any fun q => q.ctx == n)

/-- Fault outcomes of walks of named pages, not yet raised, are dropped: their accesses walk again (05 R152). -/
def State.dropFaults (s : State) (n : Nat) (r : Option (Nat × Nat)) : State :=
  { s with tasks := s.tasks.map fun t =>
      if t.ctx == n && t.walkFault.any (fun f => inTlbRange r f.1 1) then { t with walkFault := none } else t }

/-- TLB_INVALIDATE_COMPLETE (05 R152): every access already translated is performed, and BUSY clears. -/
def State.tlbComplete (s : State) (n : Nat) : State :=
  let c := s.ctx n
  let r := tlbRange c.tlbSize c.tlbPage
  if !c.tlbBusy then s
  else if s.tlbHeld n r then (s.tlbDropAll c.asid r).postFree .tlbInvalidateComplete (.num n)
  else
    let mine := (s.mem.stores.filter fun p => p.ctx == n).map fun p => p.tid
    let s1 := (mine.foldl (fun s t => s.flushStores t) s).pokeRolls 0
    if s1.mem.stores.any (·.ctx == n) then (s1.tlbDropAll c.asid r).postFree .tlbInvalidateComplete (.num n)
    else
      ((s1.tlbDropAll c.asid r).dropFaults n r).modCtx n fun c => { c with tlbBusy := false }

def execTlbInvalidateComplete (s : State) : Out :=
  .next (match s.arg with
    | .num n => s.tlbComplete n
    | _ => s)

end Sys2Proof.Machine
end

