-- ==== Sys2Proof/Machine/Sched.lean ====
section
/-! DEFINITION. Scheduling events: priorities (04 R98), release (R99), creation (R96, R97), binding (R101 to R103),
stalls and frames (R107 to R109, R113, R118), pre-emption (R112, R113) and tandem groups (R115, 12 R324). -/

namespace Sys2Proof.Machine

open Sys2Proof

/-! ## Priorities (04 R98) -/

/-- The queue that edge `j` of a card names (03 R74). -/
def Card.edgeQueue (c : Card) (j : Nat) : Nat := c.bits.toNat / 2 ^ (24 * j + 338) % 2 ^ 6
/-- The position that edge `j` of a card names (03 R74). -/
def Card.edgePos (c : Card) (j : Nat) : Nat := c.bits.toNat / 2 ^ (24 * j + 320) % 2 ^ 18

/-- Does an unmet edge of `w` name `m` (04 R98)? A launch that a drive program makes is no card of a queue. -/
def Card.waitsOn (w m : Card) : Bool :=
  m.fromDrive.isNone && w.edges.any fun j => w.edgeQueue j == m.queue && w.edgePos j == m.pos.toNat % 2 ^ 18

/-- The base priority of a card: the least of its own PRIO and its queue's (04 R98). -/
def State.cardPrio (s : State) (c : Card) : Nat :=
  match c.lnum.bind s.launch? with
  | some l => l.prio
  | none => min (c.bits.toNat / 2 ^ 4 % 8) (s.host.queues.getD {} c.queue).prio.toNat

/-- One step along the waiting chains: a card takes the greatest priority of the cards that wait on it. -/
def prioStep (cs : List Card) (e : List (Nat × Nat)) : List (Nat × Nat) :=
  cs.map fun m =>
    (m.id, (cs.filter fun w => w.waitsOn m).foldl (fun p w => max p (Tbl.getD e 0 w.id)) (Tbl.getD e 0 m.id))

/-- `n` steps. -/
def prioSteps (cs : List Card) : Nat → List (Nat × Nat) → List (Nat × Nat)
  | 0, e => e
  | n + 1, e => prioSteps cs n (prioStep cs e)

/-- Effective priorities along chains of up to eight waits (04 R98). -/
def State.effPrios (s : State) : List (Nat × Nat) :=
  prioSteps s.host.cards 8 (s.host.cards.map fun c => (c.id, s.cardPrio c))

/-- A task takes a new base priority: a sequencer that holds it goes up to it at once, and comes down to it when it
issues (04 R98, R105). -/
def State.setPrio (s : State) (t : Task) (p : Nat) : State :=
  let s1 := s.modTask t.tid fun t => { t with prio := p }
  match t.core, t.sq with
  | some c, some q => s1.modSeq c q fun x => { x with prio := max x.prio p }
  | _, _ => s1

/-- PRIORITY_RECOMPUTE (04 R98): effective priorities anew, for every launch and its tasks. -/
def execPriorityRecompute (s : State) : Out :=
  let e := s.effPrios
  let up (l : Launch) : Launch := { l with eff := Tbl.getD e l.prio l.card }
  let s1 := { s with launches := s.launches.map up }
  .next (s1.tasks.foldl (fun (s : State) (t : Task) =>
    match s.launch? (tidLnum t.tid) with
    | some l => if l.eff = t.prio then s else s.setPrio t l.eff
    | none => s) s1)

/-- Priorities are recomputed within 64 cycles (04 R98). -/
def State.prioSoon (s : State) : State :=
  let (k, s1) := s.choose 65
  s1.post k .priorityRecompute

/-! ## Release and creation (04 R99, R97) -/

/-- COUNT of a stage entry word (04 R93). -/
def stageCount (w : BitVec 64) : Nat := w.toNat % 2 ^ 16

/-- Tasks of a launch. -/
def Launch.count (l : Launch) : Nat := (l.stages.map fun x => stageCount x.2).sum

/-- Is launch `a` released before `b`: the higher effective priority, then the older LNUM (04 R99)? -/
def Launch.before (a b : Launch) : Bool :=
  decide (b.eff < a.eff) ||
  (a.eff == b.eff && decide ((b.lnum - a.lnum).toNat < 2 ^ 31) && a.lnum != b.lnum)

/-- The eligible launch of a context that comes first. -/
def State.firstEligible (s : State) (ctx : Nat) : Option Launch :=
  (s.launches.filter fun l => l.ctx == ctx && l.phase == .eligible).foldl (fun best l =>
    match best with
    | none => some l
    | some b => if l.before b then some l else some b) none

/-- Frames of a context not reserved (04 R106). -/
def Ctx.freeFrames (c : Ctx) : Nat := c.frcnt.toNat - c.frames.length

/-- LAUNCH_RELEASE (04 R99): the first eligible launch of a context takes a frame for each task, when there are enough;
no later one overtakes it. -/
def execLaunchRelease (s : State) : Out :=
  .next (match s.arg with
    | .num n =>
      match s.firstEligible n with
      | none => s
      | some l =>
        let c := s.ctx n
        if c.freeFrames < l.count then s
        else
          let fs := ((List.range c.frcnt.toNat).filter fun f => !c.frames.contains f).take l.count
          let ids := l.stages.zipIdx.flatMap fun (x, st) => (List.range (stageCount x.2)).map fun i => (st, i)
          (s.modCtx n fun c => { c with frames := c.frames ++ fs }).modLaunch l.lnum fun l =>
            { l with phase := .running, toCreate := ids, framesLeft := fs, live := 0 }
    | _ => s)

/-- The TID of a task (04 R96). -/
def mkTid (lnum : BitVec 32) (stage index : Nat) : Word :=
  BitVec.ofNat 64 (lnum.toNat * 2 ^ 32 + stage * 2 ^ 16 + index)

/-- A task as it is created (04 R97). -/
def Launch.newTask (l : Launch) (stage index frame cycle : Nat) : Task :=
  let (entry, w) := l.stages.getD stage (0, 0)
  { tid := mkTid l.lnum stage index, ctx := l.ctx, entry := entry, args := l.args, count := stageCount w
    place := w.setWidth 28, scrBytes := l.scratch, frame := frame, prio := l.eff, waitSince := cycle }

/-- Released launches that still have tasks to create: each creates one in a cycle (04 R99). -/
def State.creating (s : State) : List Launch := s.launches.filter fun l => l.toCreate != []

/-- TASK_CREATE (04 R99): the next task of a released launch, in TID order. -/
def execTaskCreate (s : State) : Out :=
  .next (match s.arg with
    | .num n =>
      match s.launch? (BitVec.ofNat 32 n) with
      | none => s
      | some l =>
        match l.toCreate, l.framesLeft with
        | (st, i) :: rest, f :: fs =>
          let s1 := s.modLaunch l.lnum fun l => { l with toCreate := rest, framesLeft := fs, live := l.live + 1 }
          { s1 with tasks := s1.tasks ++ [l.newTask st i f s.cycle] }
        | _, _ => s.modLaunch l.lnum fun l => { l with toCreate := [] }
    | _ => s)

/-! ## Bind sets (04 R94, R101) -/

/-- Where a task waits to bind. -/
inductive BindSet where
  | core (c : Nat) | cluster (c : Nat) | die (d : Nat) | package
  deriving DecidableEq, Repr

/-- The bind set of a task: its core once it has bound, else what its placement allows. -/
def Task.bindSet (t : Task) : BindSet :=
  match t.core with
  | some c => .core c
  | none =>
    let w := t.place.toNat
    let die := w / 2 ^ 18 % 4
    let cluster := w / 2 ^ 20 % 32
    match w / 2 ^ 16 % 4 with
    | 0 => .core ((192 * die + 8 * cluster + w / 2 ^ 25 % 8 + t.tid.toNat % 2 ^ 16) % 768)
    | 1 => .cluster (24 * die + cluster)
    | 2 => .die die
    | _ => .package

/-- The cores of a bind set. -/
def BindSet.cores : BindSet → List Nat
  | .core c => [c]
  | .cluster k => (List.range 8).map (8 * k + ·)
  | .die d => (List.range 192).map (192 * d + ·)
  | .package => List.range 768

/-- Does a core belong to a bind set? -/
def BindSet.has : BindSet → Nat → Bool
  | .core c, x => c == x
  | .cluster k, x => clusterOf x == k
  | .die d, x => coreDie x == d
  | .package, _ => true

/-- Does a task wait for a sequencer: its context not held (04 R101, R106)? -/
def State.waitsToBind (s : State) (t : Task) : Bool :=
  t.sq.isNone && t.readyToBind && t.saving.isNone && t.leaving.isNone && t.phase != .ended && t.phase != .bound && !(s.ctx t.ctx).hold

/-- The scratchpad bytes of each core under the split in force (05 R139). -/
def State.scrCap (s : State) : Nat := scratchBytes s.cores.spSplit

/-- SCRATCH rounded up to 4 KiB (05 R140). -/
def allocSize (n : Nat) : Nat := (n + 0xFFF) / 0x1000 * 0x1000

/-- The lowest offset with room for `n` bytes: 0 or the end of an allocation (05 R140). -/
def State.allocAt (s : State) (core n : Nat) : Option Nat :=
  let as := (s.core core).allocs
  let ends := 0 :: as.map fun a => a.1 + a.2.1
  let ok := ends.filter fun o =>
    decide (o + n ≤ s.scrCap) && as.all fun a => decide (o + n ≤ a.1) || decide (a.1 + a.2.1 ≤ o)
  match ok with
  | [] => none
  | o :: os => some (os.foldl min o)

/-- May a task bind on a core now: a free sequencer, its tiles, and room for its allocation (04 R101 to R103). -/
def State.fitsOn (s : State) (t : Task) (core : Nat) : Bool :=
  let c := s.core core
  (c.seqs.toList.any fun q => q.phase == .free) &&
  (t.tilesHeld.all fun z =>
    let x := s.tile core z
    x.owner.isNone && (x.heldFor.isNone || x.heldFor == some t.tid)) &&
  (t.alloc.isSome || t.scrBytes == 0 || (s.allocAt core (allocSize t.scrBytes)).isSome)

/-- The group in lock-step of a task, or the task alone (04 R117). -/
def State.groupWith (s : State) (t : Task) : List Task :=
  if t.lockstep then
    match t.core with
    | some c => ((s.cores.tandems.getD {} (clusterOf c)).group).filterMap s.task?
    | none => [t]
  else [t]

/-- The tasks that bind with a task: a group in lock-step that has been saved binds as one, a member that has left its
sequencer by itself binds alone (04 R101, R117). -/
def State.bindsWith (s : State) (t : Task) : List Task :=
  let ms := s.groupWith t
  if ms.all fun u => u.sq.isNone || u.saving.isSome then ms else [t]

/-- The cores of a cluster where a task may bind now; for a group, its member's own core, when every member may. -/
def State.bindCores (s : State) (t : Task) (cluster : Nat) : List Nat :=
  let ms := s.bindsWith t
  if ms.all fun u => s.waitsToBind u && (u.tid == t.tid || s.fitsOn u (Task.onCore u)) then
    ((List.range 8).map (8 * cluster + ·)).filter fun c => t.bindSet.has c && s.fitsOn t c
  else []

/-- Is a task bound before another: the higher base priority, then returning tasks, then the older TID (04 R101)? -/
def Task.bindsBefore (a b : Task) : Bool :=
  decide (b.prio < a.prio) ||
  (a.prio == b.prio && ((a.returning && !b.returning) || (a.returning == b.returning && tidOlder a.tid b.tid)))

/-- The tasks a cluster's dispatcher considers: its own and its cores', else its die's pool, else the package's. -/
def State.bindCandidates (s : State) (cluster : Nat) : List Task :=
  let ws := s.tasks.filter s.waitsToBind
  let own := ws.filter fun t =>
    match t.bindSet with
    | .core c => clusterOf c == cluster
    | .cluster k => k == cluster
    | _ => false
  if own ≠ [] then own
  else
    let pool := ws.filter fun t => decide (t.bindSet = .die (cluster / 24))
    if pool ≠ [] then pool else ws.filter fun t => decide (t.bindSet = .package)

/-- The candidate bound next: the first in order of those that fit, with the cores it fits on. -/
def State.bindChoice (s : State) (cluster : Nat) : Option (Task × List Nat) :=
  (s.bindCandidates cluster).foldl (fun best t =>
    let cs := s.bindCores t cluster
    if cs = [] then best
    else
      match best with
      | none => some (t, cs)
      | some (b, _) => if t.bindsBefore b then some (t, cs) else best) none

/-! ## Binding (04 R101 to R103; 05 R140) -/

/-- The scratchpad allocation of a first bind, zeroed and EMPTY. -/
def State.allocate (s : State) (t : Task) (core : Nat) : State :=
  let n := allocSize t.scrBytes
  if t.alloc.isSome || n = 0 then s
  else
    match s.allocAt core n with
    | none => s
    | some o =>
      ((s.clearSram core o n).modCore core fun c => { c with allocs := c.allocs ++ [(o, n, t.tid, t.ctx)] }).modTask t.tid
        fun t => { t with alloc := some (o, n) }

/-- A task takes a free sequencer of a core, which loads its state (04 R103, R122). -/
def State.bindOn (s : State) (t : Task) (core : Nat) : State :=
  match (s.core core).seqs.toList.findIdx? fun q => q.phase == .free with
  | none => s
  | some q =>
    let s1 := s.allocate t core
    let s2 := s1.modTask t.tid fun t => { t with core := some core, sq := some q, bindReq := none }
    let s3 := s2.modCore core fun c => { c with stalls := c.stalls.filter (· != t.tid) }
    let s4 := s3.modSeq core q fun _ => { phase := .binding, task := some t.tid, prio := t.prio }
    match t.phase with
    | .stalled => s4.post 32 .bindComplete (.num2 core q)
    | .framed =>
      let s5 := s4.bumpFree 1
      s5.post (256 + Config.latency s4.freeCtr) .bindComplete (.num2 core q)
    | _ => s4.post 8 .bindComplete (.num2 core q)

/-- Does a framed task of a cluster wait for the conditions of its END, which hold now (04 R109)? -/
def State.endWakes (s : State) (cluster : Nat) (t : Task) : Bool :=
  t.wait == some .ending && t.phase == .framed && t.saving.isNone && clusterOf (Task.onCore t) == cluster && s.endReady t.tid

/-- Framed tasks whose END waits no longer join their bind sets (04 R109). -/
def State.wakeEnding (s : State) (cluster : Nat) : State :=
  s.tasks.foldl (fun s t => if s.endWakes cluster t then s.wake t.tid else s) s

/-- TASK_BIND (04 R101): a cluster's dispatcher binds one task; a group in lock-step binds as one (R117). -/
def execTaskBind (s : State) : Out :=
  .next (match s.arg with
    | .num cluster =>
      let s0 := s.wakeEnding cluster
      match s0.bindChoice cluster with
      | none => s0
      | some (t, cs) =>
        if t.lockstep then (s0.bindsWith t).foldl (fun s u => s.bindOn u (Task.onCore u)) s0
        else
          let (k, s1) := s0.choose cs.length
          s1.bindOn t (cs.getD k 0)
    | _ => s)

/-! ## Pre-emption requests (04 R112, R113) -/

/-- Does a task wait on its sequencer in the sense of 04 R107's first row? -/
def Wait.onSeq : Wait → Bool
  | .bell _ _ | .roll _ _ _ | .fullEmpty _ | .tandem | .rejoin => true
  | _ => false

/-- Does a task wait on its sequencer? -/
def Task.waitsOnSeq (t : Task) : Bool := (t.wait.map Wait.onSeq).getD false

/-- A task on a sequencer is asked to leave within a number of cycles, unless it leaves already. -/
def State.askLeave (s : State) (within : Nat) (t : Task) : State :=
  if t.preempt || t.saving.isSome || t.stalling || t.leaving.isSome || t.sq.isNone then s
  else
    ((s.modTask t.tid fun t => { t with preempt := true }).unpost .forcedSave (.task t.tid)).post within .forcedSave
      (.task t.tid)

/-- PDL of a task's launch (04 R113). -/
def State.pdl (s : State) (t : Task) : Nat :=
  match s.launch? (tidLnum t.tid) with
  | some l => l.pdl.toNat
  | none => 20000

/-- A pre-emption request (04 R112, R113, R117): a waiting task is saved at once, a running one at its next yield point,
or by force when PDL has passed. A request to a member of a group in lock-step is a request to the group, which is saved
as one: at once where a member of it waits or has left its sequencer. -/
def State.preemptReq (s : State) (t : Task) : State :=
  if t.lockstep then
    let ms := s.groupWith t
    let within := if ms.any fun u => u.waitsOnSeq || u.sq.isNone then 0 else s.pdl t
    ms.foldl (fun s u => s.askLeave within u) s
  else if t.phase == .bound && t.saving.isNone && t.leaving.isNone && t.waitsOnSeq then s.frameOut t.tid 1
  else s.askLeave (s.pdl t) t

/-- FORCED_SAVE (04 R113, R117): no yield point has come; the task, or its group, is written to its frame once no bind of
theirs is under way. -/
def execForcedSave (s : State) : Out :=
  .next (match s.arg with
    | .task tid =>
      match s.task? tid with
      | some t =>
        let ms := s.groupWith t
        if !t.preempt || t.saving.isSome then s
        else if ms.any fun u => u.sq.isSome && u.phase != .bound && !u.stalling && u.leaving.isNone then
          s.post 1 .forcedSave (.task tid)
        else
          (ms.filter fun u => u.phase == .bound && u.saving.isNone).foldl (fun s u =>
            (s.modTask u.tid fun t => { t with preempt := false }).frameOut u.tid 1) s
      | none => s
    | _ => s)

/-- The tasks that hold the sequencers of some cores. -/
def State.holders (s : State) (cores : List Nat) : List Task :=
  cores.flatMap fun c => (s.core c).seqs.toList.filterMap fun q => q.task.bind s.task?

/-- Does every sequencer of some cores hold a task of lower base priority (04 R112)? -/
def State.allLower (s : State) (cores : List Nat) (prio : Nat) : Bool :=
  cores.all fun c => (s.core c).seqs.toList.all fun q =>
    match q.task.bind s.task? with
    | some u => decide (u.prio < prio)
    | none => false

/-- The youngest task of the lowest priority among some (04 R112). -/
def youngestLowest (l : List Task) : Option Task :=
  l.foldl (fun best t =>
    match best with
    | none => some t
    | some b => if t.prio < b.prio ∨ (t.prio = b.prio ∧ tidOlder b.tid t.tid) then some t else some b) none

/-- Does a waiting task have a request outstanding: one it caused, to a holder not yet gone? -/
def State.requestOut (s : State) (t : Task) : Bool :=
  t.bindReq.any fun v =>
    (s.holders t.bindSet.cores).any fun u =>
      u.tid == v && (u.preempt || u.saving.isSome || u.stalling || u.leaving.isSome)

/-- Is a task due to cause a pre-emption request (04 R112)? -/
def State.preemptDue (s : State) (t : Task) : Bool :=
  s.waitsToBind t && decide (t.waitSince + 1024 ≤ s.cycle) && s.allLower t.bindSet.cores t.prio && !s.requestOut t

/-- BIND_WAIT_PREEMPT (04 R112). -/
def execBindWaitPreempt (s : State) : Out :=
  .next (match s.arg with
    | .task tid =>
      match s.task? tid with
      | some t =>
        if s.preemptDue t then
          match youngestLowest (s.holders t.bindSet.cores) with
          | some v => (s.modTask tid fun t => { t with bindReq := some v.tid }).preemptReq v
          | none => s
        else s
      | none => s
    | _ => s)

/-- HOLD takes a value: set, every bound task of the context is asked to leave (04 R106, R112). -/
def State.setHold (s : State) (n : Nat) (b : Bool) : State :=
  let s1 := s.modCtx n fun c => { c with hold := b }
  if b then (s.tasks.filter fun t => t.ctx == n && t.sq.isSome).foldl (fun s t => s.preemptReq t) s1 else s1

/-! ## BIND_COMPLETE (04 R103, R114, R118) -/

/-- The tiles a framed task owned are its own again, loaded from its frame. -/
def State.restoreTiles (s : State) (t : Task) (core : Nat) : State :=
  t.tilesHeld.foldl (fun s z =>
    let (bs, s1) := s.physRead (ctxSlot t.ctx) (s.framePa t + 0x4000 + 0x9000 * z) 36864
    s1.modTile core z fun x =>
      { x with data := tileOfBytes bs, owner := some t.tid, heldFor := none, writers := 0, events := [] }) s

/-- A framed task's state comes back: its registers, its tiles, and the operations it was between steps of. -/
def State.restoreFrame (s : State) (t : Task) (core : Nat) : State :=
  let (t1, s1) := s.readFrame t
  let s2 := (s1.restoreTiles t core).modTask t.tid fun _ => { t1 with phase := .bound, tilesHeld := [] }
  match t1.tgemm with
  | some g => (s2.modTile core (tgTile g.block) fun x => { x with writers := 1 }).tgemmStep t.tid
  | none => s2

/-- BIND_COMPLETE: the sequencer is ACTIVE; a new or restarted task is in the state of 04 R97. -/
def execBindComplete (s : State) : Out :=
  .next (match s.arg with
    | .num2 core sq =>
      let q := s.seq core sq
      match q.phase, q.task.bind s.task? with
      | .binding, some t =>
        let s1 := match t.phase with
          | .framed => s.restoreFrame t core
          | .stalled => s.modTask t.tid fun t => { t with phase := .bound }
          | _ => s.modTask t.tid fun t => { t with phase := .bound, r := startRegs t core sq }
        let s2 := s1.modSeq core sq fun x => { x with phase := .active, prio := t.prio }
        let s3 := match t.wait with
          | some .tandem => s2.post 0 .tandemGroupForm (.num (clusterOf core))
          | _ => s2
        let s4 := match t.wait with
          | some w => if Wait.onSeq w then s3.modSeq core sq fun x => { x with waitAt := some s.cycle } else s3
          | none => s3
        match s4.task? t.tid with
        | some u =>
          if (s.ctx t.ctx).hold then s4.preemptReq u
          else if u.preempt && u.waitsOnSeq && !u.lockstep then s4.frameOut t.tid 1
          else s4
        | none => s4
      | _, _ => s
    | _ => s)

/-! ## Stalls and frames (04 R108, R109, R113, R118) -/

/-- The task joins its bind set, and the tiles it needs are held for it. -/
def State.joinSet (s : State) (t : Task) : State := (s.modTask t.tid fun t => t.joinBind s.cycle).holdTiles t

/-- STALL_ENTRY_COMPLETE (04 R108). -/
def execStallEntryComplete (s : State) : Out :=
  .next (match s.arg with
    | .task tid =>
      match s.task? tid with
      | some t =>
        if t.phase = .stalled ∧ t.stalling = true then
          let s1 := (s.freeSeq t).modTask tid fun t => { t with sq := none, stalling := false, preempt := false }
          if t.wounded then s1.restart tid cWound
          else if t.wait.isNone then s1.modTask tid fun t => t.joinBind s.cycle
          else s1
        else s
      | none => s
    | _ => s)

/-- The wait in which a task holds its sequencer, with its start; END's wait counts as one (12 R319). -/
def State.seqWait (s : State) (t : Task) : Option Nat :=
  match t.phase, t.core, t.sq with
  | .bound, some c, some q =>
    let w := match t.wait with
      | some w => Wait.onSeq w
      | none => true
    if w && t.saving.isNone then (s.seq c q).waitAt else none
  | _, _, _ => none

/-- Does a task wait to bind on a core (04 R109)? -/
def State.wanted (s : State) (core : Nat) : Bool := s.tasks.any fun t => s.waitsToBind t && t.bindSet.has core

/-- Is a task the oldest waiter of its core, due to be evicted (04 R109)? -/
def State.evictDue (s : State) (t : Task) : Bool :=
  match s.seqWait t, t.core with
  | some at_, some c =>
    decide (at_ + 2048 ≤ s.cycle) && s.wanted c &&
    s.tasks.all fun u =>
      u.tid == t.tid || u.core != t.core ||
      (match s.seqWait u with
       | some b => decide (at_ < b) || (at_ == b && tidOlder t.tid u.tid)
       | none => true)
  | _, _ => false

/-- WAIT_EVICTION (04 R109). -/
def execWaitEviction (s : State) : Out :=
  .next (match s.arg with
    | .task tid =>
      match s.task? tid with
      | some t =>
        if s.evictDue t then
          (s.modTask tid fun t => { t with wait := match t.wait with
            | none => some .ending
            | w => w }).frameOut tid 4
        else s
      | none => s
    | _ => s)

/-- Does a save still wait: for an MMA of the task, a step, a tile load, a result of this chip, and, where it is forced, a
remote load whose reply may still come (04 R113)? -/
def State.saveBusy (s : State) (t : Task) (core reason : Nat) : Bool :=
  ((s.core core).mmas.any fun m => m.tid == t.tid) ||
  (s.mem.tileLoads.any fun l => l.2.2.2 == t.tid) ||
  (t.infl.any fun e => s.due.any fun d => decide (d.2.1 = .loadDataArrive) && decide (d.2.2 = .num e.id)) ||
  (reason == 1 && (t.wait.isNone || t.waitsOnSeq) && t.infl.any fun e => e.load && e.remote)

/-- The tiles a task owns on its core. -/
def State.ownTiles (s : State) (t : Task) (core : Nat) : List Nat :=
  (List.range 4).filter fun z => (s.tile core z).owner == some t.tid

/-- The tile of a TGEMM between steps is busy no longer; its events are recorded (08 R213). -/
def State.settleTiles (s : State) (t : Task) (core : Nat) : State :=
  (s.ownTiles t core).foldl (fun s z => if (s.tile core z).busy then s.tileDone core z t.tid else s) s

/-- The task's state goes to its frame, its tiles are free, and its sequencer is FREE (04 R118, R121). -/
def State.saveFrame (s : State) (t0 : Task) (core reason : Nat) : State :=
  let s1 := s.settleTiles t0 core
  match s1.task? t0.tid with
  | none => s1
  | some t =>
    let zs := s1.ownTiles t core
    let s2 := s1.writeFrame t reason (zs.map fun z => (z, (s1.tile core z).data))
    let s3 := zs.foldl (fun s z => s.modTile core z fun x =>
      { x with owner := none, heldFor := none, writers := 0, events := [] }) s2
    let s4 := (s3.freeSeq t).modTask t.tid fun t =>
      { t with sq := none, saving := none, preempt := false, tilesHeld := zs }
    let s5 := s4.offerTiles core
    if t.wounded then s5.restart t.tid cWound
    else if t.wait.isNone then s5.joinSet { t with tilesHeld := zs } else s5

/-- FRAME_SAVE_COMPLETE (04 R113, R118, R122): once its MMAs and loads are done, the task is in its frame. -/
def execFrameSaveComplete (s : State) : Out :=
  .next (match s.arg with
    | .task tid =>
      match s.task? tid with
      | some t =>
        match t.saving, t.core with
        | some reason, some core =>
          if s.saveBusy t core reason then s.post 1 .frameSaveComplete (.task tid) else s.saveFrame t core reason
        | _, _ => s
      | none => s
    | _ => s)

/-! ## Tandem groups (04 R115; 12 R324) -/

/-- The arrivals that form a cluster's next group: of the launch that arrived first, the first on each core. -/
def State.tandemSet (s : State) (cluster : Nat) : Option (List Task) :=
  let ts := (s.cores.tandems.getD {} cluster).arrived.filterMap s.task?
  match ts with
  | [] => none
  | a :: _ =>
    let mine := ts.filter fun t => tidLnum t.tid == tidLnum a.tid
    let picks := (List.range 8).filterMap fun k => mine.find? fun t => coreIndex (Task.onCore t) == k
    if picks.length = 8 then some picks else none

/-- Is an arrived task bound and active? -/
def State.tandemBound (s : State) (t : Task) : Bool :=
  match t.phase, t.saving, t.core, t.sq with
  | .bound, none, some c, some q => (s.seq c q).phase == .active
  | _, _, _, _ => false

/-- TANDEM_GROUP_FORM: when the eight have arrived and are bound, lock-step starts, on the leader's loop
stack (04 R115); those in their frames join their
bind sets first (12 R324). -/
def execTandemGroupForm (s : State) : Out :=
  .next (match s.arg with
    | .num cluster =>
      if (s.cores.tandems.getD {} cluster).group ≠ [] then s
      else
        match s.tandemSet cluster with
        | none => s
        | some ts =>
          if ts.all s.tandemBound then
            let loops := match ts.head? with
              | some lead => lead.r.loops
              | none => []
            let s1 := ts.foldl (fun s t =>
              match t.core, t.sq with
              | some c, some q =>
                (s.modTask t.tid fun t =>
                  { t with
                    wait := none, lockstep := true, tandemOf := none, rejoined := false
                    r := { t.r with loops := loops } }).modSeq c q fun x => { x with waitAt := none }
              | _, _ => s) s
            let ids := ts.map (·.tid)
            let s2 := s1.onCores fun cs =>
              { cs with tandems := cs.tandems.upd {} cluster fun g =>
                  { g with group := ids, arrived := g.arrived.filter fun u => !ids.contains u } }
            (ts.filterMap (·.tandemOf)).foldl (fun s g => s.checkRejoin g) s2
          else
            ts.foldl (fun s t =>
              if t.phase = .framed ∧ t.saving = none ∧ t.readyToBind = false then s.joinSet t else s) s
    | _ => s)

/-! ## Wounds (09 R235) -/

/-- WOUND: the task restarts; in a save, when the save is complete; in lock-step the group dissolves first. -/
def execWound (s : State) : Out :=
  .next (match s.arg with
    | .task tid =>
      match s.task? tid with
      | none => s
      | some t =>
        if t.leaving.isSome then s
        else if t.saving.isSome || t.stalling then s.modTask tid fun t => { t with wounded := true }
        else (s.dissolveOf t).restart tid cWound
    | _ => s)

end Sys2Proof.Machine
end

