-- ==== Sys2Proof/Machine/RegBits.lean ====
section
/-! DEFINITION. What a register write does to fields of each Access (03 R440), and the registers of a context that
depend on its launches (04 R106, 05 R156, 06 R174, 09 R225). -/

namespace Sys2Proof.Machine

open Sys2Proof

/-- The bits of a register that a write reaches. -/
def halfMask : Half → Word
  | .full => BitVec.allOnes 64
  | .lo => 0xFFFFFFFF
  | .hi => 0xFFFFFFFF00000000

/-- The written bits in place; a 32-bit write carries its value in the low bits. -/
def halfBits (h : Half) (v : Word) : Word :=
  match h with
  | .full => v
  | .lo => v &&& 0xFFFFFFFF
  | .hi => v <<< 32

/-- The word that RW fields take: the old one, with the written part replaced (03 R440). -/
def regMerge (old : Word) (h : Half) (v : Word) : Word := (old &&& ~~~(halfMask h)) ||| halfBits h v

/-- Is a W1C, W1S or action bit written with 1? -/
def bitSet (h : Half) (v : Word) (i : Nat) : Bool := (halfBits h v).getLsbD i

/-- A field of a word. -/
def wordField (w : Word) (lo n : Nat) : Nat := w.toNat / 2 ^ lo % 2 ^ n

/-- Is a launch of a context in the launch unit? -/
def State.hasLaunch (s : State) (n : Nat) : Bool := s.launches.any fun l => l.ctx == n

/-- A write to a locked field is ignored (03 R68). -/
def State.wrign (s : State) (n : Nat) : State := s.modCtx n fun c => { c with wrign := true }

/-- Does a range lie wholly in HBM4E (05 R143)? -/
def inHbm (pa n : Nat) : Bool := decide (pa + n ≤ 0x6000000000)

/-- A write of FRBASE (0) or FRCNT (04 R106). -/
def State.writeFrameArea (s : State) (n i : Nat) (h : Half) (v : Word) : State :=
  let c := s.ctx n
  let base := if i = 0 then wordField (regMerge (c.frbase.setWidth 64 <<< 16) h v) 16 36 else c.frbase.toNat
  let cnt := if i = 0 then c.frcnt.toNat else wordField (regMerge (c.frcnt.setWidth 64) h v) 0 16
  if s.hasLaunch n || decide (2 ^ 35 ≤ base) || (cnt != 0 && !inHbm (base * 2 ^ 16) (cnt * 0x28000)) then s.wrign n
  else s.modCtx n fun c => { c with frbase := BitVec.ofNat 36 base, frcnt := BitVec.ofNat 16 cnt }

/-- FRAME_AREA_WRITE. -/
def execFrameAreaWrite (s : State) : Out :=
  .next (match s.arg with
    | .reg n i h v => s.whenCtxBar n fun s => s.writeFrameArea n i h v
    | _ => s)

/-- A write of PREEMPT (04 R106). -/
def State.writePreempt (s : State) (n : Nat) (h : Half) (v : Word) : State :=
  match h with
  | .hi => s
  | _ => s.setHold n (v.getLsbD 0)

/-- PREEMPT_HOLD_WRITE. -/
def execPreemptHoldWrite (s : State) : Out :=
  .next (match s.arg with
    | .reg n _ h v => s.whenCtxBar n fun s => s.writePreempt n h v
    | _ => s)

/-- A write of HOTBASE (05 R156). -/
def State.writeHotbase (s : State) (n : Nat) (h : Half) (v : Word) : State :=
  let base := wordField (regMerge ((s.ctx n).hotbase.setWidth 64 <<< 12) h v) 12 40
  if base ≠ 0 ∧ inHbm (base * 2 ^ 12) 0x1000 = false then s.wrign n
  else s.modCtx n fun c => { c with hotbase := BitVec.ofNat 40 base }

/-- HOTBASE_WRITE. -/
def execHotbaseWrite (s : State) : Out :=
  .next (match s.arg with
    | .reg n _ h v => s.whenCtxBar n fun s => s.writeHotbase n h v
    | _ => s)

/-- The word of a window's IVB (06 R174). -/
def IvWindow.ivb (w : IvWindow) : Word :=
  BitVec.ofNat 64 (flag w.arm + flag w.mode * 2 + w.bell.toNat * 4 + flag w.bellv * 2 ^ 7 + w.base.toNat * 2 ^ 16)

/-- A write of IVB (register 0), IVL (1) or IVS (2) of window `i`; arming needs a shadow area in HBM4E, and starts the
intervals anew (06 R174, R175). -/
def State.writeIv (s : State) (n i r : Nat) (h : Half) (v : Word) : State :=
  let w := (s.ctx n).iv.getD {} i
  let put (w : IvWindow) : State := s.modCtx n fun c => { c with iv := c.iv.put i w }
  if s.hasLaunch n then s.wrign n
  else
    match r with
    | 0 =>
      let x := regMerge w.ivb h v
      let w1 : IvWindow :=
        { w with mode := x.getLsbD 1, bell := x.extractLsb' 2 5, bellv := x.getLsbD 7, base := x.extractLsb' 16 41 }
      let bad := x.getLsbD 0 && !inHbm (w.shadow.toNat * 2 ^ 12) (w.len.toNat * 2 ^ 15)
      if bad then (put { w1 with arm := false }).wrign n
      else put { w1 with arm := x.getLsbD 0, interval := if x.getLsbD 0 && !w.arm then 0 else w.interval }
    | 1 => put { w with len := (regMerge (w.len.setWidth 64 <<< 16) h v).extractLsb' 16 41 }
    | _ => put { w with shadow := (regMerge (w.shadow.setWidth 64 <<< 12) h v).extractLsb' 12 40 }

/-- IVB_WRITE. The entry number is that of the window. -/
def execIvbWrite (s : State) : Out :=
  .next (match s.arg with
    | .reg n i h v => s.whenCtxBar n fun s => if i < 16 then s.writeIv n i 0 h v else s
    | _ => s)

/-- A write of TLBINV (05 R152): it starts an invalidation, or is ignored while one is in progress. -/
def State.writeTlbinv (s : State) (n : Nat) (h : Half) (v : Word) : State :=
  if (s.ctx n).tlbBusy then s.wrign n
  else
    let x := halfBits h v
    let page := wordField x 16 41
    let s1 := s.modCtx n fun c => { c with tlbBusy := true, tlbSize := wordField x 0 2, tlbPage := page }
    s1.postFree .tlbInvalidateComplete (.num n)

/-- TLBINV_WRITE. -/
def execTlbinvWrite (s : State) : Out :=
  .next (match s.arg with
    | .reg n _ h v => s.whenCtxBar n fun s => s.writeTlbinv n h v
    | _ => s)

/-- A write of LKCOMPAT (09 R225). -/
def State.writeLkcompat (s : State) (n : Nat) (h : Half) (v : Word) : State :=
  let m := (regMerge ((s.ctx n).lkcompat.setWidth 64) h v).setWidth 25
  if s.hasLaunch n then s.wrign n
  else if !matrixOk m then s.modCtx n fun c => { c with lkbad := true }
  else s.modCtx n fun c => { c with lkcompat := m, lkbad := c.lkbad && !bitSet h v 25 }

/-- LKCOMPAT_WRITE. -/
def execLkcompatWrite (s : State) : Out :=
  .next (match s.arg with
    | .reg n _ h v => s.whenCtxBar n fun s => s.writeLkcompat n h v
    | _ => s)

/-- A write of SPCFG (05 R139). -/
def State.writeSpcfg (s : State) (h : Half) (v : Word) : State :=
  match h with
  | .hi => s
  | _ =>
    let split := wordField v 0 2
    let clear (s : State) : State := if v.getLsbD 2 then s.onCores fun c => { c with spBusy := false } else s
    if split = 3 ∨ split = s.cores.spSplit then clear s
    else if (List.range 64).all fun n => s.quiet n then clear (s.onCores fun c => { c with spSplit := split })
    else s.onCores fun c => { c with spBusy := true }

/-- SPCFG_WRITE. -/
def execSpcfgWrite (s : State) : Out :=
  .next (match s.arg with
    | .reg _ _ h v => s.whenBar fun s => s.writeSpcfg h v
    | _ => s)

end Sys2Proof.Machine
end

