-- ==== Sys2Proof/Machine/Events.lean ====
section
/-! DEFINITION. What the driver is told: the event table (03 R65), alarms (01 R23 to R25), and the full reset (01 R19). -/

namespace Sys2Proof.Machine

open Sys2Proof

/-! ## Links go quiet -/

/-- Every fabric link of some ports goes down. -/
def State.downLinks (s : State) (p : Nat → Bool) : State :=
  let down (l : Link) : Link := { l with phase := .down, txWait := [], replay := [], rx := none, stopped := false }
  s.onFabric fun x => { x with links := x.links.map fun (i, l) => (i, if p i then down l else l) }

/-- Hold every die released so far (01 R18, R24): nothing of theirs goes on. -/
def State.holdDies (s : State) : State := s.onPackage fun p => { p with held := p.released }

/-! ## Alarms (01 R23, R24) -/

/-- The code of a level (01 R25). -/
def levelCode : AlarmLevel → Nat
  | .log => 0
  | .halt => 1
  | .erase => 2

/-- The level of a code. -/
def levelOf (n : Nat) : AlarmLevel := if n = 0 then .log else if n = 1 then .halt else .erase

/-- Every key of the store and of every controller is zeroised (01 R19, R24). -/
def State.zeroiseAll (s : State) : State :=
  s.onPackage fun p => { p with keys := [], keyLoads := [], zeroising := [] }

/-- An event acts at a level: recorded; at halt the dies are held and the links quiet, those of Ultra Ethernet too; at
erase the keys go first. -/
def State.alarmAt (s : State) (level : AlarmLevel) (code die : Nat) : State :=
  let s1 := s.recordEvent 1 die (code + levelCode level * 2 ^ 8) 0 0
  let stop (s : State) : State :=
    (((s.holdDies.downLinks fun _ => true).onPackage fun p => { p with phase := .halted }).onFabric fun x =>
      { x with uet := [] }).onHost fun h => { h with welomUp := false }
  match level with
  | .log => s1
  | .halt => stop s1
  | .erase => stop s1.zeroiseAll

/-- The level of an event now (01 R25). -/
def State.levelNow (s : State) (code : Nat) : AlarmLevel := s.package.alarms.getD code .log

/-- An event that begins now acts at its level (01 R24). -/
def State.alarm (s : State) (code die : Nat) : State := s.alarmAt (s.levelNow code) code die

/-! ## Full reset (01 R19) -/

/-- What a full reset leaves: the state of reset, but for what is outside the module (the adapter, host memory), memory
written under keys that are gone, and the hubs' filter epochs, which have changed (02 R45). -/
def State.fullReset (s : State) : State :=
  let r := State.reset
  let hubs := [4, 5].foldl (fun (t : Tbl Hub) h =>
    t.put h { ({} : Hub) with epoch := (s.hubOf h).epoch + 1 }) r.fabric.hubs
  let pk : Package := { r.package with nextKey := s.package.nextKey, inReset := s.package.inReset }
  let hs : HostSide := { r.host with msix := s.host.msix, msixTable := s.host.msixTable, replies := s.host.replies }
  let m : Mem := { r.mem with bytes := s.mem.bytes, lineKey := s.mem.lineKey }
  { r with
    package := pk, host := hs, mem := m
    fabric := { r.fabric with hubs := hubs }
    freeCtr := s.freeCtr, inputs := s.inputs }

end Sys2Proof.Machine
end

