-- ==== Sys2Proof/Machine/Links.lean ====
section
/-! DEFINITION. The links: flits and packets received, replay, lane degradation, training, and slot counts
(02 R32 to R43; 18 R428). What they tell in flit times and microseconds is timed by `State.time` (log entry 79). -/

namespace Sys2Proof.Machine

open Sys2Proof

/-- The die code of the hub a port is on (02 R32). -/
def portHub (port : Nat) : Nat := if port < 9 then 4 else 5

/-- Saturating count of `w` bits. -/
def satAdd (w a b : Nat) : Nat := min (a + b) (2 ^ w - 1)

/-! ## Acknowledgement and replay (02 R37, R39) -/

/-- Packets at or before an ACKSEQ leave the replay buffer; positions are compared over a window of 32,768. -/
def Link.ackTo (l : Link) (x : BitVec 16) : Link :=
  let d := (x - l.acked).toNat
  if 0 < d ∧ d < 32768 ∧ d ≤ (l.txSeq - l.acked).toNat then
    { l with
      acked := x
      replay := l.replay.filter fun p => decide (0 < (p.pseq - x).toNat) && decide ((p.pseq - x).toNat < 32768) }
  else l

/-- Every packet still in the replay buffer is sent again, unchanged and in order; REPLAYS counts each. -/
def Link.resend (l : Link) (ret : Nat × Nat) : Link :=
  l.replay.foldl (fun l p => Link.putWire { l with replays := satAdd 16 l.replays 1 } ret p) l

/-- Slots the peer has freed, as a flit header tells (02 R42). -/
def Link.takeReturns (l : Link) (req rpl : Nat) : Link := { l with retReq := req, retRpl := rpl }

/-! ## Reception (02 R34, R36, R38, R42) -/

/-- Count flits received. Their slots are free at once: a packet of this chip goes on into the chip, a discarded flit
frees its slot (02 R42); those of a packet in transit that waits at its output are taken off in `State.returns`. -/
def Link.countGot (l : Link) (cls : Option Bool) (n : Nat) : Link :=
  match cls with
  | none => l
  | some true => { l with gotRpl := l.gotRpl + n, freedRpl := l.freedRpl + n }
  | some false => { l with gotReq := l.gotReq + n, freedReq := l.freedReq + n }

/-- Is an OP one of those of 02 R36? -/
def opKnown (op : Nat) : Bool := decide (1 ≤ op) && decide (op ≤ 0x0E)

/-- A whole packet has been received; its flits are counted already. -/
def State.takePacket (s : State) (port : Nat) (p : Packet) : State :=
  let l := s.link port
  let d := (p.pseq - (l.rxSeq + 1)).toNat
  if d = 0 then
    let s1 := s.modLink port fun l => { l with rxSeq := p.pseq }
    if opKnown p.op.toNat then
      s1.sendPacket (portHub port) { p with via := if p.dst = s.ownChip (portHub port) then none else some port }
    else
      (s1.modLink port fun l => { l with discards := satAdd 8 l.discards 1 }).recordEvent 3 (portHub port) port 0 0
  else if 32768 ≤ d then s.modLink port fun l => { l with duplicates := l.duplicates + 1 }
  else s.modLink port fun l => { l with ctlOut := l.ctlOut ++ [.nack l.rxSeq] }

/-- LINK_PACKET_RECEIVE (02 R37, R38, R42). -/
def execLinkPacketReceive (s : State) : Out :=
  .next (match s.arg with
    | .linkPacket port p ackseq =>
      if (s.link port).phase = .up then
        let s1 := s.onLink port fun l => (l.ackTo ackseq).countGot (pktSlotClass p) (pktFlits p)
        (s1.takePacket port p).pumpLink port
      else s
    | _ => s)

/-- A field of a flit header. -/
def hdrField (h : BitVec 128) (lo n : Nat) : Nat := h.toNat / 2 ^ lo % 2 ^ n

/-- The packet of a header flit, without its payload (02 R35). -/
def headerPacket (d : BeatBits) : Packet :=
  { pseq := d.extractLsb' 0 16, dst := d.extractLsb' 16 12, src := d.extractLsb' 28 12, slipn := d.extractLsb' 46 2
    op := d.extractLsb' 48 8, retry := d.getLsbD 56, wantslip := d.getLsbD 57, circuit := d.getLsbD 58
    release := d.getLsbD 59, acquire := d.getLsbD 60, fctx := d.extractLsb' 64 16, vaddr := d.extractLsb' 80 57
    srcunit := d.extractLsb' 144 16, reqid := d.extractLsb' 160 32, tag := d.extractLsb' 192 16
    size := d.extractLsb' 208 4, slip0 := d.extractLsb' 224 32, slip1 := d.extractLsb' 256 32
    collid := d.extractLsb' 288 32, opnd0 := d.extractLsb' 320 64, opnd1 := d.extractLsb' 384 64
    tepoch := d.extractLsb' 448 8 }

/-- LEN of a header flit. -/
def headerLen (d : BeatBits) : Nat := (d.extractLsb' 40 6).toNat

/-- Does a flit pass LCRC, with no reserved bit set (02 R33, R34)? -/
def flitOk (h : BitVec 128) (d : BeatBits) : Bool :=
  hdrField h 6 2 == 0 && hdrField h 48 16 == 0 &&
  hdrField h 96 32 == (crc32 (beatBytes d ++ natLe 12 (hdrField h 0 96))).toNat

/-- The slot class of a CLASS field. -/
def hdrClass (h : BitVec 128) : Option Bool :=
  match hdrField h 4 2 with
  | 0 => some false
  | 1 => some true
  | _ => none

/-- A packet whose flits have all come. -/
def State.rxDone (s : State) (port : Nat) (r : RxPacket) : State :=
  if r.left = 0 then
    (s.modLink port fun l => { l with rx := none }).takePacket port { r.head with payload := r.beats }
  else s.modLink port fun l => { l with rx := some r }

/-- Is LAST set on the last flit of a packet and on no other (02 R33), with `left` payload flits to come after it? -/
def lastOk (h : BitVec 128) (left : Nat) : Bool := h.getLsbD 2 == (left == 0)

/-- A flit fails its LCRC: it is discarded with the rest of its packet, and the sender is told (02 R34). -/
def State.flitBad (s : State) (port : Nat) (h : BitVec 128) : State :=
  s.modLink port fun l =>
    let cls := match l.rx with
      | some r => r.cls
      | none => hdrClass h
    let l1 := l.countGot cls 1
    { l1 with
      rx := none, dropRest := true
      ctlOut := if l.dropRest then l.ctlOut else l.ctlOut ++ [.nack l.rxSeq] }

/-- Is the beat of a flit poisoned: it carries POISON, or its CHECK over an address fails (02 R33, R34)? -/
def flitPoison (h : BitVec 128) (d : BeatBits) (addr : Nat) : Bool :=
  h.getLsbD 3 || hdrField h 64 32 != (beatCheck d addr).toNat

/-- A flit that passes its LCRC (02 R34, R35); its CHECK decides whether it is delivered poisoned. A header flit that comes
while a packet is incomplete takes its place, and a LAST that disagrees with LEN is treated as an LCRC failure (log
entry 37). -/
def State.flitGood (s : State) (port : Nat) (h : BitVec 128) (d : BeatBits) : State :=
  let s1 := s.onLink port fun l =>
    (l.ackTo (BitVec.ofNat 16 (hdrField h 8 16))).takeReturns (hdrField h 24 12) (hdrField h 36 12)
  match hdrField h 0 2 with
  | 1 =>
    if lastOk h (headerLen d) then
      let p := { headerPacket d with headPoison := flitPoison h d 0 }
      let s2 := s1.modLink port fun l => { l.countGot (hdrClass h) 1 with dropRest := false }
      s2.rxDone port { head := p, cls := hdrClass h, left := headerLen d, beats := [] }
    else s1.flitBad port h
  | 2 =>
    match (s1.link port).rx with
    | none => s1.modLink port fun l => l.countGot (hdrClass h) 1
    | some r =>
      if lastOk h (r.left - 1) then
        let poison := flitPoison h d (checkAddr r.head r.beats.length)
        (s1.modLink port fun l => l.countGot (hdrClass h) 1).rxDone port
          { r with left := r.left - 1, beats := r.beats ++ [⟨d, poison⟩] }
      else s1.flitBad port h
  | _ => s1

/-- FLIT_RECEIVE (02 R33, R34). -/
def execFlitReceive (s : State) : Out :=
  .next (match s.arg with
    | .flit port h d =>
      if (s.link port).phase = .up then
        (if flitOk h d then s.flitGood port h d else s.flitBad port h).pumpLink port
      else s
    | _ => s)

/-- NACK: what follows the named packet is sent again (02 R39); during a retrain the RESUME does it. -/
def execNack (s : State) : Out :=
  .next (match s.arg with
    | .seq port x =>
      if (s.link port).phase = .up && !(s.link port).stopped then
        (s.onLink port fun l => (l.ackTo x).resend (s.returns port)).pumpLink port
      else s
    | _ => s)

/-- REPLAY_TIMEOUT (02 R39): 4,096 flit times have passed with unacknowledged packets and no change of ACKSEQ. The timer
starts anew. -/
def execReplayTimeout (s : State) : Out :=
  .next (match s.arg with
    | .num port =>
      match (s.link port).replayAt with
      | some t =>
        if t ≤ s.time then
          (s.onLink port fun l => { l.resend (s.returns port) with replayAt := none }).pumpLink port
        else s
      | none => s
    | _ => s)

/-! ## Requests of a link that went down (02 R41, R45) -/

/-- The requests that used a port are sent again; one that has been sent again four times is left to its REMTO,
which ends it. -/
def State.reissuePort (s : State) (port : Nat) : State :=
  s.fabric.remotes.foldl (fun s r =>
    if r.port == some port && !r.heldAtUnit && decide (r.reissues < 4) then
      let r1 := { r with reissues := r.reissues + 1, port := none }
      (s.modRemote r.id fun _ => r1).transmit r1
    else s) s

/-- Is a packet one of this chip's own requests, which are reissued? -/
def State.ownRequest (s : State) (p : Packet) : Bool :=
  s.fabric.remotes.any fun r => r.pkt.srcunit == p.srcunit && r.pkt.reqid == p.reqid && r.pkt.dst == p.dst && r.pkt.op == p.op

/-- A link goes down: an event, the requests on it are reissued, and what else waited for it is routed again (02 R41;
log entry 40). -/
def State.linkDown (s : State) (port : Nat) : State :=
  let waiting := (s.link port).txWait.filter fun p => !s.ownRequest p
  let s1 := s.onLink port fun l =>
    { l with
      phase := .down, txWait := [], replay := [], rx := none, dropRest := false, stopped := false
      waitAnswer := false, lossOfLock := [], chosen := none }
  let s2 := (s1.recordEvent 4 (portHub port) port 0 0).reissuePort port
  waiting.foldl (fun s p => s.sendPacket (portHub port) p) s2

/-! ## Lanes and retraining (02 R40, R41) -/

/-- The lanes of a group: WIDTH 0 is 16 lanes, 1 is 8, 2 is 4. -/
def groupMask (width group : Nat) : BitVec 16 :=
  if width = 0 then 0xFFFF else if width = 1 then 0xFF#16 <<< (8 * group) else 0xF#16 <<< (4 * group)

/-- The lowest group of a width that holds no retired lane. -/
def cleanGroup (failed : BitVec 16) (width : Nat) : Option (Nat × Nat) :=
  ((List.range (2 ^ width)).find? fun g => groupMask width g &&& failed == 0).map fun g => (width, g)

/-- The widest width narrower than the one in use that has a clean group, and its lowest clean group (02 R40). -/
def narrower (failed : BitVec 16) (width : Nat) : Option (Nat × Nat) :=
  if width = 0 then (cleanGroup failed 1).or (cleanGroup failed 2)
  else if width = 1 then cleanGroup failed 2
  else none

/-- Is a lane in use? -/
def Link.uses (l : Link) (lane : Nat) : Bool := (groupMask l.width l.group).getLsbD lane

/-- LANE_LOSS_OF_LOCK: a lane of a link that is up or retrains, in use or not, is retired within 256 flit times at the
width in use; when within the bound is left to the implementation (02 R40; log entry 79). -/
def execLaneLossOfLock (s : State) : Out :=
  .next (match s.arg with
    | .num2 port lane =>
      let l := s.link port
      if (l.phase = .up ∨ l.phase = .retraining) ∧ lane < 16 ∧ l.failed.getLsbD lane = false ∧
          l.lossOfLock.contains lane = false then
        let (n, s1) := s.choose (256 * l.flitTime + 1)
        (s1.modLink port fun l => { l with lossOfLock := l.lossOfLock ++ [lane] }).postTime n .laneRetire (.num2 port lane)
      else s
    | _ => s)

/-- The time RETRAIN may remain unanswered: 2 µs (02 R41). -/
def answerUnits : Nat := 2 * usUnits
/-- The time of equalisation and alignment: 3 µs (02 R41). -/
def equalUnits : Nat := 3 * usUnits

/-- This end stops new packets and sends RETRAIN, which is to be answered within 2 µs (02 R41 step 1). -/
def State.startRetrain (s : State) (port : Nat) : State :=
  (s.modLink port fun l =>
    { l with
      stopped := true, waitAnswer := true, answerAt := s.time + answerUnits
      ctlOut := l.ctlOut ++ [.retrain l.failed] }).postTime answerUnits .retrainAnswerTimeout (.num port)

/-- A lane is retired; if it was in use, the link retrains (02 R40, R41 step 1). -/
def State.retireLane (s : State) (port lane : Nat) : State :=
  let l := s.link port
  let s1 := s.modLink port fun l =>
    { l with failed := l.failed ||| (1#16 <<< lane), lossOfLock := l.lossOfLock.filter (· != lane) }
  if l.phase = .up ∧ l.uses lane = true then s1.startRetrain port else s1

/-- LANE_RETIRE of a lane that has lost lock. -/
def execLaneRetire (s : State) : Out :=
  .next (match s.arg with
    | .num2 port lane =>
      if (s.link port).lossOfLock.contains lane ∧ lane < 16 then s.retireLane port lane else s
    | _ => s)

/-- LANE_SYMBOL_RATE_EXPIRY: a lane above the symbol threshold for 1 µs is retired at the end of it (02 R40). -/
def execLaneSymbolRateExpiry (s : State) : Out :=
  .next (match s.arg with
    | .num2 port lane =>
      if (s.link port).phase = .up ∧ lane < 16 ∧ (s.link port).failed.getLsbD lane = false then s.retireLane port lane else s
    | _ => s)

/-- RETRAIN: the answer at the detecting end; at the other end new packets stop, the mask is merged and answered.
Both enter STATE 3, or go down where no group is left; the group is chosen, and its equalisation takes 3 µs. Whether it
succeeds is not for the model to say (02 R40, R41 steps 2 to 4; log entry 79). -/
def execRetrain (s : State) : Out :=
  .next (match s.arg with
    | .seq port mask =>
      let l := s.link port
      if l.phase = .up then
        let failed := l.failed ||| mask
        let s1 := s.onLink port fun l =>
          { l with
            failed := failed, stopped := true, phase := .retraining, waitAnswer := false, rx := none, dropRest := false
            chosen := narrower failed l.width, equalAt := s.time + equalUnits
            ctlOut := if l.waitAnswer then l.ctlOut else l.ctlOut ++ [.retrain failed] }
        if (narrower failed l.width).isNone then s1.linkDown port
        else
          let (n, s2) := s1.choose 2
          s2.postTime equalUnits .equalisationDone (.numFlag port (n == 0))
      else s
    | _ => s)

/-- RETRAIN_ANSWER_TIMEOUT: no answer within 2 µs takes the link down (02 R41). -/
def execRetrainAnswerTimeout (s : State) : Out :=
  .next (match s.arg with
    | .num port =>
      if (s.link port).waitAnswer ∧ (s.link port).answerAt ≤ s.time then s.linkDown port else s
    | _ => s)

/-- EQUALISATION_DONE (02 R41 steps 4 and 5): the link is up on the group chosen, and retrains again where a lane of that
group has been retired meanwhile. -/
def execEqualisationDone (s : State) : Out :=
  .next (match s.arg with
    | .numFlag port ok =>
      let l := s.link port
      if l.phase = .retraining ∧ l.equalAt ≤ s.time then
        match ok, l.chosen with
        | true, some (w, g) =>
          let s1 := (s.onLink port fun l =>
            { l with
              phase := .up, width := w, group := g, degraded := true, chosen := none
              ctlOut := l.ctlOut ++ [.resume l.rxSeq] }).recordEvent 4 (portHub port) port 0 0
          if groupMask w g &&& l.failed = 0 then s1 else s1.startRetrain port
        | _, _ => s.linkDown port
      else s
    | _ => s)

/-- RESUME: replay from the peer's last accepted packet, then new traffic (02 R41 step 6). -/
def execResume (s : State) : Out :=
  .next (match s.arg with
    | .seq port x =>
      let l := s.link port
      if l.phase = .up ∧ l.stopped = true ∧ l.waitAnswer = false then
        (s.onLink port fun l => { (l.ackTo x).resend (s.returns port) with stopped := false }).pumpLink port
      else s
    | _ => s)

/-- Requests held with every candidate port down are sent as soon as one comes up (02 R45). -/
def State.sendHeld (s : State) : State :=
  s.fabric.remotes.foldl (fun s r => if r.port.isNone && !r.heldAtUnit then s.transmit r else s) s

/-- The peers whose filter epochs training shows to have changed have been reset: their hold-queue tickets are withdrawn and
the entries held for them lapse (01 R15, 02 R55; log entry 80). -/
def State.resetPeers (s : State) (epochs : List (Nat × BitVec 8)) : State :=
  let gone (c : BitVec 12) : Bool := epochs.any fun e =>
    e.1 == c.toNat && (match s.fabric.peerEpochs.find? e.1 with
      | some old => old != e.2
      | none => false)
  let s1 := s.onFabric fun x =>
    { x with
      peerEpochs := epochs.foldl (fun t e => Tbl.put t e.1 e.2) x.peerEpochs
      hubs := x.hubs.map fun (i, h) =>
        (i, { h with
          holdTickets := h.holdTickets.filter fun w => !gone w.1
          holdHeld := h.holdHeld.filter fun w => !gone w.1
          holdRefused := h.holdRefused.filter fun w => !gone w.1 }) }
  (s1.offerHold 4).offerHold 5

/-- LINK_TRAINED: both directions begin anew (18 R428; 02 R40, R45, R49). With the port's number alone, a port that is down
begins to train: STATE 1 (02 R38; log entry 79). -/
def execLinkTrained (s : State) : Out :=
  .next (match s.arg with
    | .num port =>
      if port < 18 ∧ (s.link port).phase = .down ∧ s.package.held.contains (portHub port) = false then
        s.modLink port fun l => { l with phase := .training }
      else s
    | .linkUp port delay epochs =>
      let l := s.link port
      if port < 18 ∧ (l.phase = .down ∨ l.phase = .training) ∧ s.package.held.contains (portHub port) = false then
        let fresh : Link :=
          { phase := .up, delay := delay, degraded := l.degraded, replays := l.replays, discards := l.discards
            resyncFix := l.resyncFix, duplicates := l.duplicates }
        ((s.modLink port fun _ => fresh).resetPeers epochs).sendHeld
      else s
    | _ => s)

/-! ## Slot counts (02 R43) -/

/-- RESYNC_SEND: the Sent counts of both classes. -/
def execResyncSend (s : State) : Out :=
  .next (match s.arg with
    | .num port =>
      if 65536 ≤ (s.link port).sinceResync then
        let s1 := s.modLink port fun l =>
          { l with sinceResync := l.sinceResync - 65536, ctlOut := l.ctlOut ++ [.resync l.sentReq l.sentRpl] }
        if 65536 ≤ (s1.link port).sinceResync then s1.post 0 .resyncSend (.num port) else s1
      else s
    | _ => s)

/-- RESYNC: flits that vanished on the wire are counted as freed. -/
def execResync (s : State) : Out :=
  .next (match s.arg with
    | .num3 port sentReq sentRpl =>
      s.modLink port fun l =>
        if l.phase ≠ .up ∨ (l.gotReq = sentReq ∧ l.gotRpl = sentRpl) then l
        else
          { l with
            freedReq := l.freedReq + (sentReq - l.gotReq), freedRpl := l.freedRpl + (sentRpl - l.gotRpl)
            gotReq := max l.gotReq sentReq, gotRpl := max l.gotRpl sentRpl, resyncFix := satAdd 8 l.resyncFix 1 }
    | _ => s)

/-! ## Fabric identity, routes, contexts (02 R44) -/

/-- A hub's registers answer under its die code. -/
def isHub (h : Nat) : Bool := h == 4 || h == 5

/-- A write of FABID: ignored unless every port is down, and for a CHIP above 511. -/
def State.writeFabid (s : State) (hub : Nat) (h : Half) (v : Word) : State :=
  let x := s.hubOf hub
  let w := regMerge ((x.domain ++ x.chip).setWidth 64) h v
  if isHub hub && ((List.range 18).all fun p => (s.link p).phase == .down) && decide (wordField w 0 12 ≤ 511) then
    s.modHub hub fun x => { x with chip := w.extractLsb' 0 12, domain := w.extractLsb' 12 9 }
  else s

/-- FABID_WRITE. -/
def execFabidWrite (s : State) : Out :=
  .next (match s.arg with
    | .reg hub _ h v => s.whenBar fun s => s.writeFabid hub h v
    | _ => s)

/-- A write of ROUTE(c): ignored as a whole where a candidate in use names a port above 17. -/
def State.writeRoute (s : State) (hub c : Nat) (h : Half) (v : Word) : State :=
  let w := (regMerge (((s.hubOf hub).routes.getD 0 c).setWidth 64) h v).extractLsb' 0 23
  if isHub hub && decide (c < 512) && (candidates w).all (· ≤ 17) then
    s.modHub hub fun x => { x with routes := x.routes.put c w }
  else s

/-- ROUTE_WRITE. -/
def execRouteWrite (s : State) : Out :=
  .next (match s.arg with
    | .reg hub c h v => s.whenBar fun s => s.writeRoute hub c h v
    | _ => s)

/-- The word of an FCTXMAP entry; one that is not VALID keeps its CTX field, held with bit 6 clear. -/
def State.fctxWord (s : State) (f : Nat) : BitVec 7 := s.fabric.fctxmap.getD 0 f

/-- A write of FCTXMAP(f). -/
def State.writeFctxmap (s : State) (f : Nat) (h : Half) (v : Word) : State :=
  if f < 4096 then
    s.onFabric fun x => { x with fctxmap := x.fctxmap.put f ((regMerge ((s.fctxWord f).setWidth 64) h v).extractLsb' 0 7) }
  else s

/-- FCTXMAP_WRITE. -/
def execFctxmapWrite (s : State) : Out :=
  .next (match s.arg with
    | .reg f _ h v => s.whenBar fun s => s.writeFctxmap f h v
    | _ => s)

/-- The local context a fabric context maps to: a valid entry that names a LIVE context (02 R44). -/
def State.fctxOf (s : State) (f : BitVec 16) : Option Nat :=
  let w := s.fctxWord f.toNat
  let n := (w.extractLsb' 1 6).toNat
  if f.toNat < 4096 && w.getLsbD 0 && (s.ctx n).phase == .live then some n else none

/-- FLUSH of FWDCTL: the forward cache empties, and BUSY reads 1 until it is complete (02 R44). -/
def State.fwdFlush (s : State) (hub : Nat) : State :=
  if isHub hub then
    (s.modHub hub fun x => { x with flushBusy := true, fwd := [] }).postFree .fwdCacheFlushDone (.num hub)
  else s

/-- FWD_CACHE_FLUSH. -/
def execFwdCacheFlush (s : State) : Out :=
  .next (match s.arg with
    | .num hub => s.whenBar fun s => s.fwdFlush hub
    | _ => s)

/-- FWD_CACHE_FLUSH_DONE. -/
def execFwdCacheFlushDone (s : State) : Out :=
  .next (match s.arg with
    | .num hub => s.modHub hub fun x => { x with flushBusy := false }
    | _ => s)

end Sys2Proof.Machine
end

