-- ==== Sys2Proof/Machine/Package.lean ====
section
/-! DEFINITION. The package: request trackers (01 R13 to R15), start-up and resets (R16 to R19, R442), keys (R21, R22),
sensors (R23), staggered start (R26), and power (R29 to R31). -/

namespace Sys2Proof.Machine

open Sys2Proof

/-! ## Request trackers (01 R13 to R15) -/

/-- The tracker of a home die and a class. -/
def State.tracker (s : State) (home : Nat) (cls : SrcClass) : Tracker :=
  match s.package.trackers.find? fun x => x.1 == home && x.2.1 == cls with
  | some x => x.2.2
  | none => {}

/-- Store a tracker. -/
def State.setTracker (s : State) (home : Nat) (cls : SrcClass) (t : Tracker) : State :=
  s.onPackage fun p =>
    { p with trackers := (home, cls, t) :: p.trackers.filter fun x => !(x.1 == home && x.2.1 == cls) }

/-- Has a tracker a free entry? -/
def Tracker.room (t : Tracker) : Bool := decide (t.used + t.held.length < 256)

/-- Does a port hold a ticket of the tracker, or an entry held for one? -/
def Tracker.hasTicket (t : Tracker) (port : Nat) : Bool :=
  t.tickets.any (·.1 == port) || t.held.any (·.1 == port)

/-- Free entries are held for the oldest tickets, whose ports are notified (01 R14). -/
def Tracker.offer (t : Tracker) (cycle : Nat) : Nat → Tracker
  | 0 => t
  | n + 1 =>
    match t.tickets with
    | [] => t
    | (port, req) :: rest =>
      if t.room then Tracker.offer { t with tickets := rest, held := t.held ++ [(port, req, cycle)] } cycle n else t

/-- Store a tracker after entries may have become free; a notice is sent again 1,024 cycles later (01 R15). -/
def State.offerTickets (s : State) (home : Nat) (cls : SrcClass) (t : Tracker) : State :=
  let u := t.offer s.cycle t.tickets.length
  let s1 := s.setTracker home cls u
  if t.held.length < u.held.length then s1.post 1024 .ticketNoticeResend (.tracker home cls) else s1

/-- PACKAGE_REQUEST (01 R14): accepted where there is room and no ticket waits; refused, and retried 32 cycles later;
behind its port's ticketed request it waits. -/
def execPackageRequest (s : State) : Out :=
  .next (match s.arg with
    | .request home cls port req =>
      let t := s.tracker home cls
      if t.hasTicket port then s.setTracker home cls { t with behind := t.behind ++ [(port, req, false)] }
      else if t.room && t.tickets.isEmpty then s.setTracker home cls { t with used := t.used + 1 }
      else
        (s.setTracker home cls { t with refused := t.refused ++ [(port, req)] }).post 32 .requestRetry
          (.request home cls port req)
    | _ => s)

/-- REQUEST_RETRY (01 R14): a second refusal gives the port a reservation ticket; a request whose port has been given
one meanwhile waits behind it. -/
def execRequestRetry (s : State) : Out :=
  .next (match s.arg with
    | .request home cls port req =>
      let t := s.tracker home cls
      if !t.refused.contains (port, req) then s
      else
        let t1 := { t with refused := t.refused.erase (port, req) }
        if t.hasTicket port then s.setTracker home cls { t1 with behind := t.behind ++ [(port, req, true)] }
        else if t.room && t.tickets.isEmpty then s.setTracker home cls { t1 with used := t1.used + 1 }
        else s.offerTickets home cls { t1 with tickets := t1.tickets ++ [(port, req)] }
    | _ => s)

/-- TRACKER_ENTRY_FREE (01 R14). -/
def execTrackerEntryFree (s : State) : Out :=
  .next (match s.arg with
    | .tracker home cls =>
      let t := s.tracker home cls
      if t.used = 0 then s else s.offerTickets home cls { t with used := t.used - 1 }
    | _ => s)

/-- TICKET_NOTICE_RESEND (01 R15): the home repeats the notice and goes on holding the entry. -/
def execTicketNoticeResend (s : State) : Out :=
  .next (match s.arg with
    | .tracker home cls =>
      let t := s.tracker home cls
      let late (x : Nat × Nat × Nat) : Bool := decide (x.2.2 + 1024 ≤ s.cycle)
      if t.held.any late then
        (s.setTracker home cls { t with held := t.held.map fun x => if late x then (x.1, x.2.1, s.cycle) else x }).post 1024
          .ticketNoticeResend (.tracker home cls)
      else s
    | _ => s)

/-- A request that waited behind a ticketed one is made: for the first time, or as the retry of one refused before. -/
def State.fromBehind (s : State) (home : Nat) (cls : SrcClass) (x : Nat × Nat × Bool) : State :=
  s.post 0 (if x.2.2 then .requestRetry else .packageRequest) (.request home cls x.1 x.2.1)

/-- TICKET_CLAIM (01 R15): the held entry takes the ticketed request, or a null request frees it; requests that waited
behind it in the port are made. -/
def execTicketClaim (s : State) : Out :=
  .next (match s.arg with
    | .claim home cls port null =>
      let t := s.tracker home cls
      if t.held.any (·.1 == port) then
        let mine := t.behind.filter (·.1 == port)
        let t1 := { t with
          held := t.held.filter (·.1 != port), used := if null then t.used else t.used + 1
          behind := t.behind.filter (·.1 != port)
          refused := t.refused ++ (mine.filter (·.2.2)).map fun x => (x.1, x.2.1) }
        mine.foldl (fun s x => s.fromBehind home cls x) (s.offerTickets home cls t1)
      else s
    | _ => s)

/-- The tickets of a core's port for places in full/empty waiting lists are withdrawn, and its accesses arrive anew
(01 R15; 14 R366). -/
def State.dropFePort (s : State) (core : Nat) : State :=
  (s.cores.cores.filter fun x => s.fePort x.1 core).foldl (fun s x =>
    let s1 := (s.core x.1).feRefused.foldl (fun s r =>
      if (r.2.2 == .ticket || r.2.2 == .held) && s.feSource r.1 == core then
        ((s.setFe x.1 r.1.id (.coming true)).unpost .fullEmptyRetry (.num r.1.id)).post 0 .fullEmptyRetry (.num r.1.id)
      else s) s
    s1.feFreed x.1) s

/-- The lock requests of a core's port are withdrawn with their tickets, and what the Prefects held for them is free (01
R15; 09 R237, R240). A core's port has its linear number (log entry 80). -/
def State.dropPort (s : State) (core : Nat) : State :=
  let mine := s.prefects.refused.filter (·.core == core)
  let s1 := s.onPrefects fun p =>
    { p with
      refused := p.refused.filter (·.core != core)
      tickets := p.tickets.filter fun k => mine.all fun r => r.tid != k.2
      held := p.held.filter fun k => mine.all fun r => r.tid != k.2
      behind := p.behind.filter fun k => mine.all fun r => r.tid != k.2 }
  ((List.range 4).foldl State.offerLock s1).dropFePort core

/-- SOURCE_PORT_RESET (01 R15): every ticket of the port is withdrawn, and its held entries lapse. -/
def execSourcePortReset (s : State) : Out :=
  .next (match s.arg with
    | .num port =>
      (s.dropPort port).package.trackers.foldl (fun s x =>
        let t := x.2.2
        s.offerTickets x.1 x.2.1
          { t with
            tickets := t.tickets.filter (·.1 != port)
            held := t.held.filter (·.1 != port)
            refused := t.refused.filter (·.1 != port)
            behind := t.behind.filter (·.1 != port) }) (s.dropPort port)
    | _ => s)

/-! ## Start-up (01 R16 to R19, R442; 03 R67) -/

/-- The dies in the order they are measured (01 R17). -/
def bootOrder : List Nat := [4, 5, 0, 1, 2, 3, 6, 7, 8, 9, 10, 11, 12, 13]

/-- The step of 01 R17 that measures a die. -/
def bootStepOf (die : Nat) : Nat := if die = 4 then 2 else if die = 5 then 3 else if die < 4 then 4 else 5

/-- The die measured after another, if any. -/
def bootAfter (die : Nat) : Option Nat := bootOrder[bootOrder.idxOf die + 1]?

/-- A step fails: later dies stay in reset, and those released are held (01 R18). -/
def State.bootFail (s : State) (cause die : Nat) : State :=
  s.holdDies.onPackage fun p => { p with phase := .failed, cause := cause, causeDie := die }

/-- The slot-0 key load of the die in hand is confirmed: the next die follows, or the device is ready (01 R17). -/
def State.bootNext (s : State) : State :=
  match bootAfter s.package.nextDie with
  | some d => s.onPackage fun p => { p with nextDie := d, bootStep := bootStepOf d }
  | none => (s.onPackage fun p => { p with bootStep := 6 }).postFree .deviceReady

/-- PROCTOR_BOOT (01 R16): the boot block of H0 is released. -/
def execProctorBoot (s : State) : Out :=
  .next (if s.package.phase = .reset then
      s.onPackage fun p =>
        { p with phase := .booting, bootStep := 0, bootBlock := true, inReset := false, bootCycle := s.cycle }
    else s)

/-- WELOM_LINK_TRAINED (01 R17, step 0). After a reset of the adapter's endpoint the link trains again (01 R19), but
where step 0 itself has failed it never comes up (01 R18). -/
def execWelomLinkTrained (s : State) : Out :=
  .next (match s.arg with
    | .flag ok =>
      if s.package.phase = .booting ∧ s.package.bootStep = 0 then
        if ok then (s.onPackage fun p => { p with bootStep := 1 }).onHost fun h => { h with welomUp := true }
        else s.bootFail 0 0
      else if (s.package.phase = .booting ∨ s.package.phase = .ready ∨
            (s.package.phase = .failed ∧ s.package.bootStep ≠ 0)) ∧
          s.host.activeHub = some 4 ∧ ok = true then s.onHost fun h => { h with welomUp := true }
      else s
    | _ => s)

/-- MANIFEST_VERIFY (01 R16, R17): signature, key, and security version. -/
def execManifestVerify (s : State) : Out :=
  .next (match s.arg with
    | .manifest m =>
      if s.package.phase = .booting ∧ s.package.bootStep = 1 then
        if m.signatureOk && m.keyOk && decide (Config.fusedMinVersion.toNat ≤ m.secVersion.toNat) then
          s.onPackage fun p => { p with manifest := some m, secver := m.secVersion, bootStep := 2, nextDie := 4 }
        else s.bootFail 1 0
      else s
    | _ => s)

/-- The pannier that the population check names, if it fails (01 R442). -/
def badPannier (pkgs : List Nat) : Option Nat :=
  match (List.range 8).find? fun i => !([2, 4, 8].contains (pkgs.getD i 0)) with
  | some i => some i
  | none => (List.range 8).find? fun i => pkgs.getD i 0 != pkgs.getD 0 0

/-- The time a controller has to confirm a key load: 100 µs (01 R21). -/
def keyLoadUnits : Nat := 100 * usUnits

/-- A key load goes to a controller: its confirmation comes when it comes, the time limit is 100 µs (01 R21). -/
def State.sendKey (s : State) (slot ctl : Nat) : State :=
  (s.postFree .keyLoadConfirm (.num2 slot ctl)).postTime keyLoadUnits .keyLoadTimeout (.num2 slot ctl)

/-- Nothing is awaited any more of a key load. -/
def State.dropKeyLoad (s : State) (slot ctl : Nat) : State :=
  ((s.onPackage fun p => { p with keyLoads := p.keyLoads.filter fun k => !(k.keySlot == slot && k.ctl == ctl) }).unpost
    .keyLoadConfirm (.num2 slot ctl)).untime .keyLoadTimeout (.num2 slot ctl)

/-- Load a key into some controllers: each must confirm it (01 R21). -/
def State.loadKey (s : State) (slot : Nat) (ctls : List Nat) : State :=
  let loads : List KeyLoad := ctls.map fun c =>
    { keySlot := slot, ctl := c, resends := 0, deadline := s.time + keyLoadUnits }
  let s1 := s.onPackage fun p =>
    match p.keys.find? slot with
    | some _ => { p with keyLoads := p.keyLoads ++ loads }
    | none => { p with keys := p.keys.put slot p.nextKey, nextKey := p.nextKey + 1, keyLoads := p.keyLoads ++ loads }
  ctls.foldl (fun s c => s.sendKey slot c) s1

/-- Measure the die in hand against its digest, release it and load its slot-0 key. -/
def State.measureDie (s : State) (digest : BitVec 384) : State :=
  let d := s.package.nextDie
  let want := (s.package.manifest.map (·.digests)).getD []
  if want[d]? = some digest then (s.onPackage fun p => { p with released := p.released ++ [d] }).loadKey 0 [d]
  else s.bootFail 2 d

/-- DIE_MEASURE_RELEASE (01 R17): with the population check before the first pannier. -/
def execDieMeasureRelease (s : State) : Out :=
  .next (match s.arg with
    | .measure digest pkgs =>
      let p := s.package
      if p.phase = .booting ∧ 2 ≤ p.bootStep ∧ p.bootStep ≤ 5 ∧ p.released.contains p.nextDie = false then
        if p.nextDie = 6 then
          let counts := (List.range 8).map fun i => pkgs.getD i 0
          let s1 := s.onPackage fun p => { p with pkgs := counts }
          match badPannier counts with
          | some i => s1.bootFail 3 (6 + i)
          | none => (s1.onPackage fun p => { p with capGib := counts.sum * 64 }).measureDie digest
        else s.measureDie digest
      else s
    | _ => s)

/-- DEVICE_READY (01 R17, step 6): the Coachman on H0 is active, and the hubs check the girth every 10 µs (02 R60). -/
def execDeviceReady (s : State) : Out :=
  .next (if s.package.phase = .booting ∧ s.package.bootStep = 6 then
      (s.onPackage fun p => { p with phase := .ready }).postTime (10 * usUnits) .girthCheck .none
    else s)

/-- POWER_UP (01 R19). -/
def execPowerUp (s : State) : Out := .next ({ s with package := { s.package with inReset := false } }).fullReset

/-- MRSTN_ASSERT (01 R19): held low for at least 1 ms. -/
def execMrstnAssert (s : State) : Out :=
  .next (match s.arg with
    | .num us => if 1000 ≤ us then s.fullReset else s
    | _ => s)

/-- A write of MODRST (01 R19): GO with the KEY in the same write. -/
def State.writeModrst (s : State) (h : Half) (v : Word) : State :=
  let x := halfBits h v
  if x.getLsbD 0 && wordField x 8 8 == 0xA5 then (s.onPackage fun p => { p with inReset := true }).fullReset else s

/-- MODRST_GO. -/
def execModrstGo (s : State) : Out :=
  .next (match s.arg with
    | .reg _ _ h v => s.writeModrst h v
    | _ => s)

/-! ## Keys (01 R21, R22; 03 R69, R70) -/

/-- The controllers that hold context keys: HBM4E on C0 to C3, CXL on the hubs, LPDDR on the panniers (01 R21). -/
def controllers : List Nat := List.range 14

/-- A context becomes LIVE (03 R69). -/
def State.ctxLive (s : State) (n : Nat) : State := s.modCtx n fun c => { c with phase := .live }

/-- A context's key load has failed: the slot is zeroised wherever it was loaded (01 R21, 03 R69). -/
def State.ctxKeyFail (s : State) (n : Nat) : State :=
  let s0 := controllers.foldl (fun s c => s.dropKeyLoad (n + 1) c) s
  let s1 := s0.onPackage fun p => { p with keys := p.keys.del (n + 1), keyLoads := p.keyLoads.filter (·.keySlot != n + 1) }
  (s1.modCtx n fun c => { c with keyfail := true, phase := .free }).recordEvent 8 s1.coachDie n 0 0

/-- The destruction of a context is complete once every controller has confirmed the zeroisation of its slot, its drive
program has ended and each of its cards has completed (01 R22, 03 R70 step 6). -/
def State.ctxFree (s : State) (n : Nat) : State :=
  if (s.ctx n).phase ≠ .destroying || (s.package.zeroising.any fun z => z.1 == n + 1) ||
      (s.host.runners.any fun r => r.2.ctx == n) || (s.host.cards.any fun c => c.ctx == n) then s
  else (s.modCtx n fun c => { c with phase := .free }).recordEvent 7 s.coachDie n 0 0

/-- KEY_LOAD_CONFIRM (01 R21). -/
def execKeyLoadConfirm (s : State) : Out :=
  .next (match s.arg with
    | .num2 slot ctl =>
      if s.package.keyLoads.any fun k => k.keySlot == slot && k.ctl == ctl then
        let s1 := s.dropKeyLoad slot ctl
        if slot = 0 then
          if s.package.phase = .booting ∧ s.package.nextDie = ctl then s1.bootNext else s1
        else if s1.package.keyLoads.any (·.keySlot == slot) then s1
        else if (s1.ctx (slot - 1)).phase = .creating then s1.ctxLive (slot - 1)
        else s1
      else s
    | _ => s)

/-- KEY_LOAD_TIMEOUT (01 R21): a load not confirmed within 100 µs is sent again, at most twice. -/
def execKeyLoadTimeout (s : State) : Out :=
  .next (match s.arg with
    | .num2 slot ctl =>
      match s.package.keyLoads.find? fun k => k.keySlot == slot && k.ctl == ctl with
      | some k =>
        if s.time < k.deadline then s
        else if k.resends < 2 then
          (s.onPackage fun p => { p with keyLoads := p.keyLoads.map fun x =>
            if x.keySlot == slot && x.ctl == ctl then
              { x with resends := x.resends + 1, deadline := s.time + keyLoadUnits } else x }).sendKey slot ctl
        else if slot = 0 then (s.onPackage fun p => { p with keyLoads := [] }).bootFail 4 ctl
        else s.ctxKeyFail (slot - 1)
      | none => s
    | _ => s)

/-- KEY_ZEROISE_CONFIRM (01 R22): the destruction may be complete with the last one. -/
def execKeyZeroiseConfirm (s : State) : Out :=
  .next (match s.arg with
    | .num2 slot ctl =>
      if s.package.zeroising.contains (slot, ctl) then
        (s.onPackage fun p => { p with zeroising := p.zeroising.filter (· != (slot, ctl)) }).ctxFree (slot - 1)
      else s
    | _ => s)

/-! ## Sensors (01 R23) -/

/-- The excursion of a sensor of a die that is under way. -/
def State.excursion? (s : State) (code die : Nat) : Option Excursion :=
  s.package.excursions.find? fun e => e.code == code && e.die == die

/-- An excursion ends, whichever way. -/
def State.endExcursion (s : State) (code die : Nat) : State :=
  (s.onPackage fun p => { p with excursions := p.excursions.filter fun e => !(e.code == code && e.die == die) }).untime
    .sensorExcursionPersist (.num2 code die)

/-- SENSOR_EXCURSION_START: a supply, clock or temperature sensor leaves its window. The levels of this moment are the
ones the event will act at (01 R25). -/
def execSensorExcursionStart (s : State) : Out :=
  .next (match s.arg with
    | .num2 code die =>
      if code < 4 ∧ (s.excursion? code die).isNone then
        let e : Excursion :=
          { code := code, die := die, level := s.levelNow code, shortLevel := s.levelNow 6, since := s.time }
        (s.onPackage fun p => { p with excursions := p.excursions ++ [e] }).postTime usUnits .sensorExcursionPersist
          (.num2 code die)
      else s
    | _ => s)

/-- SENSOR_EXCURSION_PERSIST: it has lasted 1 µs. -/
def execSensorExcursionPersist (s : State) : Out :=
  .next (match s.arg with
    | .num2 code die =>
      match s.excursion? code die with
      | some e => if s.time < e.since + usUnits then s else (s.endExcursion code die).alarmAt e.level code die
      | none => s
    | _ => s)

/-- SENSOR_EXCURSION_CLEAR: it has cleared by itself before that: event 6. -/
def execSensorExcursionClear (s : State) : Out :=
  .next (match s.arg with
    | .num2 code die =>
      match s.excursion? code die with
      | some e => (s.endExcursion code die).alarmAt e.shortLevel 6 die
      | none => s
    | _ => s)

/-- TAMPER_MESH_OPEN: event 4, named for the Proctor's die. -/
def execTamperMeshOpen (s : State) : Out := .next (s.alarm 4 14)

/-- DEBUG_PORT_OPEN: opened without an authorised token, or (the flag clear) a failed attempt, of which the third counts
as event 5. -/
def execDebugPortOpen (s : State) : Out :=
  .next (match s.arg with
    | .flag opened =>
      if opened then s.alarm 5 14
      else if 2 ≤ s.package.debugFails then (s.onPackage fun p => { p with debugFails := 0 }).alarm 5 14
      else s.onPackage fun p => { p with debugFails := p.debugFails + 1 }
    | _ => s)

/-! ## Staggered start (01 R26) -/

/-- DIE_QUIET: 256 cycles without activity. -/
def execDieQuiet (s : State) : Out :=
  .next (match s.arg with
    | .num die =>
      let w := s.dieWake die
      if !w.awake then s
      else if w.lastActive + 256 ≤ s.cycle then
        s.modWake die fun w => { w with awake := false, start := none, clusters := [] }
      else s.post (w.lastActive + 256 - s.cycle) .dieQuiet (.num die)
    | _ => s)

/-- DIE_WAKE_START. -/
def execDieWakeStart (s : State) : Out :=
  .next (match s.arg with
    | .num die => s.wakeDie die
    | _ => s)

/-- CLUSTER_WAKE. -/
def execClusterWake (s : State) : Out :=
  .next (match s.arg with
    | .num2 die k =>
      let w := s.dieWake die
      if w.awake && decide (k < 24) && !w.clusters.contains k then
        s.modWake die fun w => { w with clusters := w.clusters ++ [k] }
      else s
    | _ => s)

/-! ## Power (01 R29 to R31) -/

/-- The fastest point TOPPOINT allows: 7 and 6 both allow only 6. -/
def Package.fastest (p : Package) : Nat := min p.topPoint 6

/-- A change of point pauses issue for 256 cycles (01 R30). -/
def State.setPoint (s : State) (n : Nat) : State :=
  if s.package.point = n then s
  else
    ((s.onPackage fun p => { p with point := n, pause := true }).unpost .clockChangePauseEnd .none).post 256
      .clockChangePauseEnd

/-- POWER_WINDOW_END (01 R29). -/
def execPowerWindowEnd (s : State) : Out :=
  .next (match s.arg with
    | .power modw compw =>
      let s1 := s.onPackage fun p => { p with modw := modw, compw := compw }
      let p := s.package
      if p.therm then s1.onPackage fun p => { p with lowWindows := 0, topMove := false }
      else if p.topMove then
        (s1.onPackage fun p => { p with topMove := false, lowWindows := 0 }).setPoint (max p.point p.fastest)
      else if 2400 < modw.toNat then
        (s1.onPackage fun p => { p with lowWindows := 0 }).setPoint (min (p.point + 1) 6)
      else if 2280 < modw.toNat then s1.onPackage fun p => { p with lowWindows := 0 }
      else if p.lowWindows + 1 < 10 then s1.onPackage fun p => { p with lowWindows := p.lowWindows + 1 }
      else
        (s1.onPackage fun p => { p with lowWindows := 0 }).setPoint
          (if p.fastest < p.point then p.point - 1 else p.point)
    | _ => s)

/-- THERMAL_FLOOR_ENTER (01 R29): above 105 °C point 6 is forced. -/
def execThermalFloorEnter (s : State) : Out := .next ((s.onPackage fun p => { p with therm := true }).setPoint 6)

/-- THERMAL_FLOOR_EXIT (01 R29): below 100 °C the window rules act again, from point 6. -/
def execThermalFloorExit (s : State) : Out :=
  .next (s.onPackage fun p => { p with therm := false, lowWindows := 0 })

/-- CLOCK_CHANGE_PAUSE_END (01 R30). -/
def execClockChangePauseEnd (s : State) : Out := .next (s.onPackage fun p => { p with pause := false })

/-- A write of PWRCTL (01 R31): TOPPOINT; a point it forbids is left at the end of the window (R29). -/
def State.writePwrctl (s : State) (h : Half) (v : Word) : State :=
  match h with
  | .hi => s
  | _ => s.onPackage fun p =>
      let top := wordField v 4 3
      { p with topPoint := top, topMove := decide (p.point < min top 6) }

/-- PWRCTL_WRITE. -/
def execPwrctlWrite (s : State) : Out :=
  .next (match s.arg with
    | .reg _ _ h v => s.whenBar fun s => s.writePwrctl h v
    | _ => s)

end Sys2Proof.Machine
end

