-- ==== Sys2Proof/Machine/Units.lean ====
section
/-! DEFINITION. Memory as the hubs, engines and the Coachman reach it: accesses that belong to no launch (05 R147),
and what they read and write. -/

namespace Sys2Proof.Machine

open Sys2Proof

/-- The lines of an access of a unit take their class in L2 (05 R145). -/
def State.unitTouch (s : State) (ctx va pa n : Nat) (evf dirty : Bool) : State :=
  (linesOf pa n).foldl (fun s l =>
    s.touchL2 ctx (l * 64) (accessClass (s.ctx ctx) (va - va % 64 + (l - pa / 64) * 64) evf) dirty) s

/-- The line of an atomic of a unit: it is in L2 for a NEAR place, and out of it for the others (05 R155). -/
def State.unitAtom (s : State) (ctx va pa n : Nat) (place : Place) : State :=
  if place = .near then s.unitTouch ctx va pa n false true else s.atHome place pa

/-- The first address of a poisoned beat a unit would read (01 R28). -/
def State.locPoison (s : State) (loc : Loc) (n : Nat) : Option Nat :=
  match loc with
  | .phys pa _ _ => (s.poisonedLine pa n).map (· * 64)
  | _ => none

/-- Read bytes at a place of this chip under a context's key. -/
def State.locRead (s : State) (ctx va : Nat) (loc : Loc) (n : Nat) (evf : Bool) : List Byte × State :=
  match loc with
  | .phys pa _ e =>
    let (bs, s1) := s.physRead (ctxSlot ctx) pa n
    (bs, s1.unitTouch ctx va pa n (e || evf) false)
  | .sram c o => (s.sramRead c o n, s)
  | .peer _ _ _ => ([], s)

/-- Write bytes at a place of this chip under a context's key; rolls that this changes end their waits. -/
def State.locWrite (s : State) (ctx va : Nat) (loc : Loc) (bs : List Byte) (evf : Bool) : State :=
  match loc with
  | .phys pa _ e => (s.physWrite (ctxSlot ctx) pa bs).unitTouch ctx va pa bs.length (e || evf) true
  | .sram c o => (s.sramWrite c o bs).pokeRolls 0
  | .peer _ _ _ => s

/-- Is a write of part of a poisoned beat among the bytes written (01 R28)? -/
def State.partPoison (s : State) (loc : Loc) (n : Nat) : Bool :=
  match loc with
  | .phys pa _ _ =>
    (linesOf pa n).any fun l => (s.mem.poison.find? l).isSome && !(decide (pa ≤ l * 64) && decide (l * 64 + 64 ≤ pa + n))
  | _ => false

end Sys2Proof.Machine
end

