-- ==== Sys2Proof/Machine/Remote.lean ====
section
/-! DEFINITION. Remote requests at their target and their replies at the requester (02 R36, R44 to R46), slips and the
hold queue (02 R50 to R55; 07 R193). -/

namespace Sys2Proof.Machine

open Sys2Proof

/-! ## Replies -/

/-- A reply to a request: the same identity, back to its source. -/
def State.replyTo (s : State) (hub : Nat) (p : Packet) (op : Nat) : Packet :=
  { op := BitVec.ofNat 8 op, dst := p.src, src := s.ownChip hub, fctx := p.fctx, vaddr := p.vaddr
    srcunit := p.srcunit, reqid := p.reqid, tag := p.tag, size := p.size, collid := p.collid, opnd2 := p.opnd2 }

/-- A status reply (02 R36): the status, and for DENIED the target's fault code. -/
def State.statusTo (s : State) (hub : Nat) (p : Packet) (status code : Nat) : Packet :=
  { s.replyTo hub p 0x08 with opnd0 := BitVec.ofNat 64 (status + code * 2 ^ 8) }

/-! ## The duplicate filter (02 R45) -/

/-- The filter of a source unit. -/
def State.filter? (s : State) (p : Packet) : Option DupFilter :=
  (s.fabric.filters.find? fun e => e.1 == (p.src, p.srcunit)).map (·.2)

/-- Set the filter of a source unit. -/
def State.setFilter (s : State) (p : Packet) (f : DupFilter) : State :=
  s.onFabric fun x =>
    { x with filters := ((p.src, p.srcunit), f) :: x.filters.filter fun e => e.1 != (p.src, p.srcunit) }

/-- A REQID within the last 4,096 of a filter. -/
def DupFilter.covers (f : DupFilter) (r : BitVec 32) : Bool := decide ((f.newest - r).toNat < 4096)

/-- A request enters a filter: it is in progress, and the newest 4,096 are kept. -/
def DupFilter.enter (f : DupFilter) (r : BitVec 32) : DupFilter :=
  let f1 := { f with newest := if (r - f.newest).toNat < 2 ^ 31 then r else f.newest }
  { f1 with
    inProgress := f1.inProgress.filter (· != r) ++ [r]
    done := f1.done.filter fun d => f1.covers d.1 }

/-- A request is done, with its reply. -/
def DupFilter.finish (f : DupFilter) (r : BitVec 32) (reply : Packet) : DupFilter :=
  { f with inProgress := f.inProgress.filter (· != r), done := (r, reply) :: f.done }

/-- A request ends at its target: its reply is kept and sent. -/
def State.answer (s : State) (hub : Nat) (p reply : Packet) : State :=
  (s.setFilter p (((s.filter? p).getD {}).finish p.reqid reply)).sendPacket hub reply

/-- A request is refused and leaves no trace in the filter, so that it may come again (02 R55). -/
def State.refuse (s : State) (hub : Nat) (p reply : Packet) : State := (s.unwait p).sendPacket hub reply

/-- What the filter makes of a request that arrives (02 R45): answered, ignored, or to be performed now. -/
def State.onRequest (s : State) (hub : Nat) (p : Packet) (perform : State → State) : State :=
  let gone := s.sendPacket hub (s.statusTo hub p 2 0)
  if p.tepoch ≠ (s.hubOf hub).epoch then gone
  else
    let f := (s.filter? p).getD { newest := p.reqid }
    let age := (f.newest - p.reqid).toNat
    if 4096 ≤ age ∧ age < 2 ^ 31 then gone
    else
      match f.done.find? (·.1 == p.reqid) with
      | some d => s.sendPacket hub d.2
      | none => if f.inProgress.contains p.reqid then s else perform (s.setFilter p (f.enter p.reqid))

/-! ## Performing a request (02 R45, R46) -/

/-- Where a request goes at its target. -/
inductive TargetRes where
  | at_ (loc : Loc)
  | deny (code : Nat)
  | moved (home : BitVec 64)
  | page (cow : Bool) (level : Nat)
  deriving DecidableEq, Repr

/-- The new-home word of a MOVED leaf (02 R46). -/
def newHome (level : Nat) (e : BitVec 64) : BitVec 64 :=
  let size : BitVec 64 := BitVec.ofNat 64 (level * 4)
  if e.getLsbD 8 then size ||| (e.extractLsb' 16 12).setWidth 64 <<< 4
  else size ||| 1 ||| (e &&& 0x000FFFFFFFFF0000)

/-- Translate a request in its local context, as an access that belongs to no launch (02 R45, R46; 05 R147). -/
def State.targetCheck (s : State) (ctx va n : Nat) (kind : AccKind) (pcie : Bool) : TargetRes :=
  let placed (r : Chk Loc) : TargetRes :=
    match r with
    | .ok (.peer _ _ _) => .deny cPerm
    | .ok loc => if kind == .atomic && !placeOk s loc pcie then .deny cAtomicPlace else .at_ loc
    | .bad c _ _ => .deny c
    | .resolve _ cow level => .page cow level
    | .miss _ _ _ => .deny cTranslation
  if inScratch va then placed (s.checkScratch ctx va n)
  else
    match heapCheck s (s.ctx ctx).heap va with
    | some r => placed r
    | none =>
      match s.walk ctx va with
      | .bad c _ => .deny c
      | .notPresent l => .page false l
      | .leaf l e =>
        if e.getLsbD 10 then .moved (newHome l e)
        else if e.getLsbD 8 then .deny cPerm
        else placed (leafCheck s l e va kind false)

/-- The data of a read, beat by beat, each with its poison. -/
def State.readBeats (s : State) (loc : Loc) (bs : List Byte) : List Beat :=
  (payloadOf bs).zipIdx.map fun (b, i) =>
    match loc with
    | .phys pa _ _ => { b with poison := (s.poisonedLine (pa + 64 * i) (min 64 (bs.length - 64 * i))).isSome }
    | _ => b

/-- Perform a read. -/
def State.targetRead (s : State) (hub ctx : Nat) (p : Packet) (loc : Loc) : State :=
  let (bs, s1) := s.locRead ctx p.vaddr.toNat loc (pktBytes p) false
  s1.answer hub p { s1.replyTo hub p 0x02 with payload := s.readBeats loc bs }

/-- The lines of a place that poisoned payload beats reach. -/
def poisonLines (p : Packet) (pa : Nat) : List Nat :=
  p.payload.zipIdx.flatMap fun (b, i) =>
    if b.poison then linesOf (pa + 64 * i) (min 64 (pktBytes p - 64 * i)) else []

/-- Does a packet carry a poisoned beat, its header flit or one of its payload (02 R33)? -/
def Packet.poisoned (p : Packet) : Bool := p.headPoison || p.payload.any (·.poison)

/-- Perform a write: poison that comes with it stays with its beats (01 R28); a scratchpad takes no poisoned beat. The
acknowledgement returns the slip that was asked for (02 R36). -/
def State.targetWrite (s : State) (hub ctx : Nat) (p : Packet) (loc : Loc) : State :=
  let bs := payloadBytes p
  let bad := p.payload.any (·.poison)
  let sram := match loc with
    | .sram _ _ => true
    | _ => false
  if s.partPoison loc bs.length || (sram && bad) then s.answer hub p (s.statusTo hub p 1 cIntegrity)
  else
    let s1 := s.locWrite ctx p.vaddr.toNat loc bs false
    let s2 := match loc with
      | .phys pa _ _ => (poisonLines p pa).foldl (State.poisonLine · 1 hub) s1
      | _ => s1
    s2.answer hub p { s2.replyTo hub p 0x04 with slip0 := if p.wantslip then p.slip0 else 0 }

/-- Perform an atomic at its place. -/
def State.targetAtomic (s : State) (hub ctx : Nat) (p : Packet) (loc : Loc) : State :=
  let a := atomOfPkt p
  let reply (s : State) (old : Nat) : State :=
    s.answer hub p { s.replyTo hub p 0x06 with opnd0 := BitVec.ofNat 64 old, opnd1 := BitVec.ofNat 64 (old / 2 ^ 64) }
  match loc with
  | .phys pa place _ =>
    match s.atomPhys ctx pa a with
    | (some old, s1) => reply (s1.unitAtom ctx p.vaddr.toNat pa a.n place) old
    | (none, s1) => s1.answer hub p (s1.statusTo hub p 1 cIntegrity)
  | .sram c o =>
    let (old, s1) := s.atomSram c o a
    reply (s1.pokeRolls 0) old
  | .peer _ _ _ => s

/-- The kind of access a request is, by its operation. -/
def pktKind (p : Packet) : AccKind := if p.op = 0x01 then .load else if p.op = 0x03 then .store else .atomic

/-- The local context of a request: the one its FCTX mapped to when it arrived, as long as that is LIVE (02 R44). -/
def State.packetCtx (s : State) (p : Packet) : Option Nat :=
  match p.mapped with
  | some n => if (s.ctx n).phase == .live then some n else none
  | none => s.fctxOf p.fctx

/-- Perform a request: translated in the context its FCTX maps to, and answered, or left to wait for a page. One whose
header flit came poisoned is not performed (log entry 37). -/
def State.perform (s : State) (hub : Nat) (p : Packet) : State :=
  match s.packetCtx p with
  | none => s.answer hub p (s.statusTo hub p 4 0)
  | some ctx =>
    if p.headPoison then s.answer hub p (s.statusTo hub p 1 cIntegrity) else
    let va := p.vaddr.toNat
    match s.targetCheck ctx va (pktBytes p) (pktKind p) (atomOfPkt p).pcie with
    | .deny code => s.answer hub p (s.statusTo hub p 1 code)
    | .moved w => s.answer hub p { s.replyTo hub p 0x07 with opnd0 := w }
    | .page cow level =>
      (s.recordPageFault ctx va cow level true).onFabric fun x =>
        { x with targetWaits := x.targetWaits ++ [{ hub := hub, pkt := { p with slipn := 0, mapped := some ctx }, ctx := ctx, va := va, cow := cow }] }
    | .at_ loc =>
      match pktKind p with
      | .load => s.targetRead hub ctx p loc
      | .store => s.targetWrite hub ctx p loc
      | .atomic => s.targetAtomic hub ctx p loc

/-- READ_REQUEST. -/
def execReadRequest (s : State) : Out :=
  .next (match s.arg with
    | .packet hub p => s.onRequest hub p fun s => s.perform hub p
    | _ => s)

/-- ATOMIC_REQUEST. -/
def execAtomicRequest (s : State) : Out :=
  .next (match s.arg with
    | .packet hub p => s.onRequest hub p fun s => s.perform hub p
    | _ => s)

/-! ## Slip queries (02 R51, R52) -/

/-- ORIGIN of a slip. -/
def slipOrigin (t : BitVec 32) : BitVec 12 := t.extractLsb' 20 12
/-- INDEX of a slip. -/
def slipIndex (t : BitVec 32) : Nat := (t.extractLsb' 8 12).toNat
/-- COUNT of a slip. -/
def slipCount (t : BitVec 32) : BitVec 8 := t.extractLsb' 0 8

/-- The answer to a query about a slip of this chip: 0 landed, 1 registered, 2 expired (02 R51). -/
def State.slipAnswer (s : State) (t : BitVec 32) (chip : BitVec 12) : Nat × State :=
  let i := slipIndex t
  let e := s.slipEntry i
  let byMap := if e.expmap.getLsbD (slipCount t).toNat then 2 else 0
  if e.count = slipCount t then
    match e.phase with
    | .pending => (1, s.modSlip i fun e => { e with interest := e.interest ||| (1#512 <<< chip.toNat) })
    | .landed => (0, s)
    | .expired => (2, s)
    | .free => (byMap, s)
  else (byMap, s)

/-- SLIP_QUERY: answered by the hub that holds the slip's entry; a held hub answers nothing (02 R53, R60). -/
def execSlipQuery (s : State) : Out :=
  .next (match s.arg with
    | .packet _ p =>
      let hub := slipHub (slipIndex p.slip0)
      if s.package.held.contains hub then s
      else
        let (a, s1) := s.slipAnswer p.slip0 p.src
        s1.sendPacket hub
          { op := 0x0A, dst := p.src, src := s.ownChip hub, slip0 := p.slip0, opnd0 := BitVec.ofNat 64 a }
    | _ => s)

/-- SLIP_ENTRY_FREE (02 R51). -/
def execSlipEntryFree (s : State) : Out :=
  .next (match s.arg with
    | .num i =>
      let e := s.slipEntry i
      if (e.phase = .landed ∨ e.phase = .expired) ∧ e.leftAt + 2 ^ 20 ≤ s.cycle then
        s.modSlip i fun e => { e with phase := .free }
      else s
    | _ => s)

/-! ## The hold queue (02 R54, R55) -/

/-- The identity of a write. -/
def writeId (p : Packet) : BitVec 12 × BitVec 16 × BitVec 32 := (p.src, p.srcunit, p.reqid)

/-- The slips a write carries that name a chip (14 R382). -/
def carriedSlips (p : Packet) : List (BitVec 32) :=
  ([p.slip0, p.slip1].take p.slipn.toNat).filter fun t => decide ((slipOrigin t).toNat < 512)

/-- The place of a held write that this chip issued to itself (14 R384). -/
def State.localPlace? (s : State) (p : Packet) : Option (Nat × StorePlace) :=
  s.fabric.remotes.findSome? fun r =>
    match r.use with
    | .localHold _ place => if writeId r.pkt == writeId p then some (r.ctx, place) else none
    | _ => none

/-- The core of the task that issued a held write of this chip. -/
def State.localCore? (s : State) (p : Packet) : Option Nat :=
  (s.fabric.remotes.find? fun r => writeId r.pkt == writeId p).bind fun r => (r.use.tid?.bind s.task?).bind (·.core)

/-- Perform a held write: one of this chip at the place its issuer translated, whose core's L1 copy follows (05 R142, 07
R180), any other as a request. -/
def State.performHeld (s : State) (hub : Nat) (p : Packet) : State :=
  match s.localPlace? p with
  | some (ctx, .phys pa) =>
    match s.localCore? p with
    | some core => (s.storeL1 ctx core pa (payloadBytes p)).targetWrite hub ctx p (.phys pa .near false)
    | none => s.targetWrite hub ctx p (.phys pa .near false)
  | some (ctx, .sram c o) => s.targetWrite hub ctx p (.sram c o)
  | _ => s.perform hub p

/-- A held write leaves the queue; its entry goes to the oldest ticket (02 R55). -/
def State.unhold (s : State) (hub id : Nat) : State :=
  (s.modHub hub fun h => { h with hold := h.hold.filter (·.id != id) }).offerHold hub

/-- A held write is dropped: SLIP_DROPPED goes back (02 R54). -/
def State.dropHeld (s : State) (hub : Nat) (w : HeldWrite) : State :=
  ((s.unhold hub w.id).unpost .holdLimitExpiry (.num2 hub w.id)).answer hub w.pkt (s.statusTo hub w.pkt 5 0)

/-- One of the slips of held writes is known to have landed or expired (02 R54). -/
def State.slipKnown (s : State) (t : BitVec 32) (landed : Bool) : State :=
  [4, 5].foldl (fun s hub =>
    ((s.hubOf hub).hold.filter fun w => w.waiting.contains t).foldl (fun s w =>
      if landed then
        let rest := w.waiting.filter (· != t)
        if rest.isEmpty then
          ((s.unhold hub w.id).unpost .holdLimitExpiry (.num2 hub w.id)).performHeld hub w.pkt
        else s.modHub hub fun h => { h with hold := h.hold.map fun x => if x.id == w.id then { x with waiting := rest } else x }
      else s.dropHeld hub w) s) s

/-- Ask about one slip of a held write: the own table, or a query to its origin (02 R54). -/
def State.askSlip (s : State) (hub : Nat) (t : BitVec 32) : State :=
  if slipOrigin t = s.ownChip hub then
    (if s.package.held.contains (slipHub (slipIndex t)) then s
     else
      match s.slipAnswer t (s.ownChip hub) with
      | (0, s1) => s1.slipKnown t true
      | (2, s1) => s1.slipKnown t false
      | (_, s1) => s1)
  else s.sendPacket hub { op := 0x09, dst := slipOrigin t, src := s.ownChip hub, slip0 := t }

/-- A write enters the hold queue, and its slips are asked about. -/
def State.enterHold (s : State) (hub : Nat) (p : Packet) : State :=
  let slips := (carriedSlips p).eraseDups
  if slips.isEmpty then s.performHeld hub p
  else
    let (id, s1) := s.fresh
    let s2 := s1.modHub hub fun h =>
      { h with hold := h.hold ++ [{ id := id, pkt := p, waiting := slips, enteredAt := s.cycle }] }
    slips.foldl (fun s t => s.askSlip hub t) (s2.post (s.hubOf hub).holdLim .holdLimitExpiry (.num2 hub id))

/-- A slip-carrying write arrives: it takes the entry held for it, or a free one while no ticket waits; otherwise it is
refused with HOLD_FULL, and on the second refusal gets a ticket (02 R55; 01 R14). -/
def State.holdArrive (s : State) (hub : Nat) (p : Packet) : State :=
  let h := s.hubOf hub
  let me := writeId p
  if h.holdHeld.contains me ∨ (h.holdTickets.isEmpty = true ∧ h.hold.length + h.holdHeld.length < 256) then
    (s.modHub hub fun h =>
      { h with holdHeld := h.holdHeld.filter (· != me), holdRefused := h.holdRefused.filter (· != me) }).enterHold hub p
  else
    let s1 := s.modHub hub fun h =>
      if h.holdTickets.contains me then h
      else if h.holdRefused.contains me then
        { h with holdTickets := h.holdTickets ++ [me], holdRefused := h.holdRefused.filter (· != me) }
      else { h with holdRefused := h.holdRefused ++ [me] }
    s1.refuse hub p (s1.statusTo hub p 3 0)

/-- WRITE. -/
def execWritePacket (s : State) : Out :=
  .next (match s.arg with
    | .packet hub p =>
      s.onRequest hub p fun s =>
        if p.slipn = 0 then s.perform hub p
        else if (s.localPlace? p).isSome then s.holdArrive hub p
        else
          match s.packetCtx p with
          | some ctx => s.holdArrive hub { p with mapped := some ctx }
          | none => s.perform hub p
    | _ => s)

/-- SLIP_ANSWER. -/
def execSlipAnswer (s : State) : Out :=
  .next (match s.arg with
    | .packet _ p =>
      if p.opnd0.toNat % 4 = 0 then s.slipKnown p.slip0 true
      else if p.opnd0.toNat % 4 = 2 then s.slipKnown p.slip0 false
      else s
    | _ => s)

/-- LANDED_NOTICE. -/
def execLandedNotice (s : State) : Out :=
  .next (match s.arg with
    | .packet _ p => s.slipKnown p.slip0 (!p.opnd0.getLsbD 0)
    | _ => s)

/-- HOLD_LIMIT_EXPIRY (02 R54). -/
def execHoldLimitExpiry (s : State) : Out :=
  .next (match s.arg with
    | .num2 hub id =>
      match (s.hubOf hub).hold.find? (·.id == id) with
      | some w => s.dropHeld hub w
      | none => s
    | _ => s)

/-! ## The requester (02 R45, R46) -/

/-- The request a reply belongs to. -/
def State.remoteOf (s : State) (p : Packet) : Option RemoteReq :=
  s.fabric.remotes.find? fun r => r.pkt.srcunit == p.srcunit && r.pkt.reqid == p.reqid && !r.heldAtUnit

/-- A write of a copy that asked for a slip has ended: with the last one the slip lands, with a failed one it expires
(15 R409); a copy that has ended leaves with its last write. -/
def State.copySlip (s : State) (op : Nat) (ok : Bool) : State :=
  match s.engines.ops.find? (·.id == op) with
  | none => s
  | some o =>
    let more := s.fabric.remotes.any fun r => r.use == .engineWrite op
    let s1 := match o.slip with
      | some i => if !ok then s.slipLeave i false else if !more && o.started then s.slipLeave i true else s
      | none => s
    if o.ended && !more then s1.onEngines fun e => { e with ops := e.ops.filter (·.id != op) } else s1

/-- A request has ended: it leaves the list, its slip leaves PENDING, and what waited for it goes on. -/
def State.closeRemote (s : State) (r : RemoteReq) (ok : Bool) : State :=
  let s1 := (s.onFabric fun x => { x with remotes := x.remotes.filter (·.id != r.id) }).unpost .remtoExpiry (.num r.id)
  let s2 := match pktOwnSlip? r.pkt with
    | some i => s1.slipLeave i ok
    | none => s1
  let s3 := match r.use with
    | .engineWrite op => (s2.copySlip op ok).post 0 .engineComplete (.num op)
    | .engineRead op => s2.post 0 .engineComplete (.num op)
    | _ => s2
  let s4 := s3.tasks.foldl (fun s t => if t.wait == some (.forward r.id) then s.wake t.tid else s) s3
  s4.pumpRemotes

/-- A remote value arrives, and a task that is parked for it goes on (04 R107). -/
def State.landRemote (s : State) (tid : Word) (id : Nat) (v : RegVal) : State :=
  let s1 := s.landFor tid id v
  match s1.task? tid with
  | some t => if t.wait == some (.remote id) then s1.wake tid else s1
  | none => s1

/-- The acquire of a remote access, once its reply has arrived (07 R190). -/
def State.remoteAcquire (s : State) (r : RemoteReq) : State :=
  match r.pkt.acquire, r.use.tid? with
  | true, some tid =>
    match s.task? tid with
    | some t => s.acquireBy tid (Task.onCore t) .fabric
    | none => s
  | _, _ => s

/-- An engine operation has met a fault of a remote access; the first one stands (15 R407). -/
def State.engineRemoteFault (s : State) (op code : Nat) (va : BitVec 57) : State :=
  s.onEngines fun e =>
    { e with ops := e.ops.map fun o =>
        if o.id == op && !o.ended && o.fault.isNone then { o with fault := some (BitVec.ofNat 16 code, va.setWidth 64) } else o }

/-- A request ends with a fault (02 R45, R46; 06 R160). What a load or atomic would have brought is a free value
(log entry 9). -/
def State.failWith (s : State) (r : RemoteReq) (f : FaultRec) : State :=
  let s1 := match r.use with
    | .load tid id lane _ _ _ =>
      let (w, s1) := s.freeWord
      let v : RegVal := match lane with
        | some i => .vec (laneVec i (w.toNat % 2 ^ 32))
        | none => .word w
      (s1.landRemote tid id v).queueFault tid f
    | .pair tid lo hi =>
      let (w, s1) := s.freeWord
      let (w2, s2) := s1.freeWord
      ((s2.landRemote tid lo (.word w)).landRemote tid hi (.word w2)).queueFault tid f
    | .store tid => s.queueFault tid f
    | .localHold tid _ => s.queueFault tid f
    | .engineRead op => s.engineRemoteFault op f.code.toNat r.pkt.vaddr
    | .engineWrite op => s.engineRemoteFault op f.code.toNat r.pkt.vaddr
    | .gone => s
  s1.closeRemote r false

/-- A request ends with a fault of class D: TRAPADDR its virtual address, TRAPINFO its TAG, with the target's fault code
above it (06 R160). -/
def State.failRemote (s : State) (r : RemoteReq) (code extra : Nat) : State :=
  s.failWith r
    { code := BitVec.ofNat 16 code, addr := r.pkt.vaddr.setWidth 64
      info := BitVec.ofNat 64 (r.pkt.tag.toNat + extra * 2 ^ 16), deferred := true }

/-- INTEGRITY for a remote load whose data came with poison: stage 0x1, at the hub the reply came to. The reply does not
tell the beat's physical address: it is a free value (01 R28; 02 R46; log entry 9). -/
def State.remotePoison (s : State) (tid : Word) (hub : Nat) : State :=
  let (pa, s1) := s.freeWord
  s1.queueFault tid
    { code := BitVec.ofNat 16 cIntegrity, addr := pa, info := BitVec.ofNat 64 (1 + hub * 16), deferred := true }

/-- The value a remote load brings: its bytes under what the task itself has queued over them (06 R169). -/
def loadValue (lane : Option Nat) (sext : Bool) (bs : List Byte) (own : List (Option Byte)) : RegVal :=
  let b := if own.isEmpty then bs else overBytes bs own
  match lane with
  | some i => .vec (laneVec i (leNat b))
  | none => .word (extBytes sext b)

/-- Bytes that an engine operation has read from a peer are kept for it, and it goes on once all it asked for have come
(15 R408, R411). -/
def State.engineGot (s : State) (op : Nat) (p : Packet) (bs : List Byte) : State :=
  s.onEngines fun e =>
    { e with ops := e.ops.map fun o =>
        if o.id == op then { o with got := ((p.dst, p.fctx, p.vaddr.toNat), bs) :: o.got } else o }

/-- READ_REPLY: a poisoned beat's bytes are unspecified (01 R28). -/
def execReadReply (s : State) : Out :=
  .next (match s.arg with
    | .packet _ p =>
      match s.remoteOf p with
      | none => s
      | some r =>
        let bs := payloadBytes p
        let poison := Packet.poisoned p
        match r.use with
        | .load tid id lane n sext own =>
          let (b, s0) := if poison then s.freeBytes n else (bs.take n, s)
          let s1 := ((s0.remoteAcquire r).landRemote tid id (loadValue lane sext b own)).closeRemote r true
          if poison then s1.remotePoison tid r.hub else s1
        | .engineRead op =>
          (if poison then s.engineRemoteFault op cIntegrity r.pkt.vaddr else s.engineGot op r.pkt bs).closeRemote r true
        | .gone => s.closeRemote r true
        | _ => s
    | _ => s)

/-- WRITE_ACKNOWLEDGEMENT. -/
def execWriteAcknowledgement (s : State) : Out :=
  .next (match s.arg with
    | .packet _ p =>
      match s.remoteOf p with
      | some r => if r.pkt.op = 0x03 then s.closeRemote r true else s
      | none => s
    | _ => s)

/-- The old value of a remote atomic comes in a poisoned header flit: a free value, and INTEGRITY (02 R34; log entry 37). -/
def State.atomPoison (s : State) (r : RemoteReq) : State :=
  let s1 := s.remoteAcquire r
  let (w, s2) := s1.freeWord
  let (w2, s3) := s2.freeWord
  match r.use with
  | .load tid id lane n sext _ =>
    ((s3.landRemote tid id (loadValue lane sext (natLe n w.toNat) [])).closeRemote r true).remotePoison tid r.hub
  | .pair tid lo hi =>
    (((s3.landRemote tid lo (.word w)).landRemote tid hi (.word w2)).closeRemote r true).remotePoison tid r.hub
  | _ => s3.closeRemote r true

/-- The old value of a remote atomic is delivered, and its request ends. -/
def State.atomReply (s : State) (r : RemoteReq) (old : Nat) : State :=
  let s1 := s.remoteAcquire r
  let s2 := match r.use with
    | .load tid id lane n sext _ => s1.landRemote tid id (loadValue lane sext (natLe n old) [])
    | .pair tid lo hi =>
      (s1.landRemote tid lo (.word (BitVec.ofNat 64 old))).landRemote tid hi (.word (BitVec.ofNat 64 (old / 2 ^ 64)))
    | _ => s1
  s2.closeRemote r true

/-- ATOMIC_REPLY. -/
def execAtomicReply (s : State) : Out :=
  .next (match s.arg with
    | .packet _ p =>
      match s.remoteOf p with
      | some r =>
        if r.pkt.op ≠ 0x05 then s
        else if p.headPoison then s.atomPoison r
        else s.atomReply r (p.opnd0.toNat + p.opnd1.toNat * 2 ^ 64)
      | none => s
    | _ => s)

/-- A load that ends INDETERMINATE is issued anew with a new REQID (02 R45). -/
def State.renewRemote (s : State) (r : RemoteReq) : State :=
  let rid := s.fabric.reqids.getD 0 r.pkt.srcunit.toNat
  let epoch := s.fabric.peerEpochs.getD 0 r.pkt.dst.toNat
  let s1 := s.onFabric fun x => { x with reqids := x.reqids.put r.pkt.srcunit.toNat (rid + 1) }
  let s2 := s1.modRemote r.id fun x =>
    { x with pkt := { x.pkt with reqid := rid, tepoch := epoch }, reissues := 0, port := none, heldAtUnit := true }
  s2.pumpRemotes

/-- STATUS_REPLY (02 R36, R45, R54, R55). -/
def execStatusReply (s : State) : Out :=
  .next (match s.arg with
    | .packet _ p =>
      match s.remoteOf p with
      | none => s
      | some r =>
        match p.opnd0.toNat % 2 ^ 8 with
        | 1 => s.failRemote r cRemoteFault (p.opnd0.toNat / 2 ^ 8 % 2 ^ 16)
        | 2 => if r.pkt.op = 0x01 then s.renewRemote r else s.failRemote r cRemoteIndeterminate 0
        | 3 =>
          (((s.modRemote r.id fun x => { x with refusals := x.refusals + 1 }).unpost .remtoExpiry (.num r.id)).post 4096
            .holdFullRetry (.num r.id))
        | 4 => s.failRemote r cRemoteFault 0
        | 5 => s.failRemote r cSlipExpired 0
        | _ => s
    | _ => s)

/-- HOLD_FULL_RETRY (02 R55). -/
def execHoldFullRetry (s : State) : Out :=
  .next (match s.arg with
    | .num id =>
      match s.fabric.remotes.find? (·.id == id) with
      | some r => if 0 < r.refusals then s.transmit r else s
      | none => s
    | _ => s)

/-- REMTO_EXPIRY (02 R45). -/
def execRemtoExpiry (s : State) : Out :=
  .next (match s.arg with
    | .num id =>
      match s.fabric.remotes.find? (·.id == id) with
      | none => s
      | some r =>
        let local_ := match r.use with
          | .localHold _ _ => true
          | _ => false
        if r.heldAtUnit || local_ || decide (s.cycle < r.deadline) then s
        else if 4 ≤ r.reissues then s.failRemote r cRemoteTimeout 0
        else
          let r1 := { r with reissues := r.reissues + 1 }
          (s.modRemote id fun _ => r1).transmitBut r1 r.port
    | _ => s)

/-! ## Forwarding (02 R46) -/

/-- An access to a page that has moved to the CXL pool is made there (02 R46). -/
def State.poolAccess (s : State) (r : RemoteReq) (pa : Nat) : State :=
  if !physExists s pa then s.failRemote r cRemoteFault cPhysUnmapped
  else if r.pkt.op = 0x05 then
    match s.atomPhys r.ctx pa (atomOfPkt r.pkt) with
    | (some old, s1) => s1.atomReply r old
    | (none, s1) => s1.failRemote r cRemoteFault cIntegrity
  else if r.pkt.op = 0x03 then (s.physWrite (ctxSlot r.ctx) pa (payloadBytes r.pkt)).closeRemote r true
  else
    let poison := (s.poisonedLine pa (pktBytes r.pkt)).isSome
    let (bs, s1) := s.physRead (ctxSlot r.ctx) pa (pktBytes r.pkt)
    match r.use with
    | .load tid id lane n sext own =>
      let (b, s0) := if poison then s1.freeBytes n else (bs.take n, s1)
      let s2 := ((s0.remoteAcquire r).landRemote tid id (loadValue lane sext b own)).closeRemote r true
      if poison then s2.integrity tid pa else s2
    | .engineRead op =>
      (if poison then s1.engineRemoteFault op cIntegrity r.pkt.vaddr else s1.engineGot op r.pkt bs).closeRemote r true
    | _ => s1.closeRemote r true

/-- A running task whose access is forwarded parks in its frame until the access ends (02 R46; 04 R107). -/
def State.parkForward (s : State) (r : RemoteReq) : State :=
  match r.use.tid? with
  | none => s
  | some tid =>
    match s.task? tid with
    | none => s
    | some t =>
      if t.phase = .bound ∧ t.wait = none ∧ t.saving = none ∧ t.lockstep = false then
        s.parkFrame tid (.forward r.id) 3
      else s

/-- The page size code of a new-home word, in address bits. -/
def homeBits (pgsz : Nat) : Nat := if pgsz = 0 then 16 else if pgsz = 1 then 21 else 30

/-- The new home of a forwarded access is unreachable: REMOTE_UNREACHABLE, and nothing is sent (02 R44, R45). The access has
issued, so the task takes it like a deferred fault (log entry 80). -/
def State.unreachable (s : State) (r : RemoteReq) (chip : BitVec 12) : State :=
  let f : FaultRec :=
    { code := BitVec.ofNat 16 cRemoteUnreachable, addr := r.pkt.vaddr.setWidth 64, info := chip.setWidth 64, deferred := true }
  s.failWith r f

/-- A forwarding reply: the forward cache learns the new home, and the access goes there (02 R46). -/
def State.forwarded (s : State) (r : RemoteReq) (w : BitVec 64) : State :=
  let va := r.pkt.vaddr.toNat
  let kind := w.toNat % 4
  let pgsz := w.toNat / 4 % 4
  let chip := w.extractLsb' 4 12
  let ppage := w.toNat / 2 ^ 16 % 2 ^ 36
  if 2 ≤ kind ∨ pgsz = 3 then s
  else if 4 ≤ r.forwards then s.failRemote r cRemoteForwardLoop 0
  else if kind = 0 ∧ chip ≠ s.ownChip r.hub ∧ (s.route r.hub chip).getLsbD 0 = false then s.unreachable r chip
  else
    let old := r.pkt.dst
    let stale (e : FwdEntry) : Bool :=
      !e.pool && e.newChip == old && e.fctx == r.pkt.fctx && e.vpage / 2 ^ (homeBits e.pgsz - 16) == va / 2 ^ homeBits e.pgsz
    let s1 := s.modHub r.hub fun h => { h with fwd := h.fwd.filter fun e => !stale e }
    let s2 := s1.fwdInsert r.hub
      { fctx := r.pkt.fctx, chip := old, vpage := va / 2 ^ 16, pgsz := pgsz, pool := kind == 1, newChip := chip
        ppage := ppage, ctx := r.ctx }
    if kind = 1 then s2.poolAccess r (ppage * 2 ^ 16 + va % 2 ^ homeBits pgsz)
    else
      let epoch := if chip = s.ownChip r.hub then (s.hubOf r.hub).epoch else s.fabric.peerEpochs.getD 0 chip.toNat
      let r1 := { r with forwards := r.forwards + 1, port := none, pkt := { r.pkt with dst := chip, tepoch := epoch } }
      ((s2.modRemote r.id fun _ => r1).parkForward r1).transmit r1

/-- FORWARDING_REPLY. -/
def execForwardingReply (s : State) : Out :=
  .next (match s.arg with
    | .packet _ p =>
      match s.remoteOf p with
      | some r => s.forwarded r p.opnd0
      | none => s
    | _ => s)

end Sys2Proof.Machine
end

