-- ==== Sys2Proof/Machine/Coachman.lean ====
section
/-! DEFINITION. The Coachman's reads (03 R439), kernel images (R79 to R81) and geometry records (04 R93 to R95). -/

namespace Sys2Proof.Machine

open Sys2Proof

/-! ## Reads in a context (03 R439) -/

/-- Read within one 64 KiB page; the error is the offset of the first byte whose read failed, which in a poisoned beat
is the beat's first byte read. -/
def State.coachPage (s : State) (ctx va n : Nat) : Except Nat (List Byte) :=
  match s.ctxAccess ctx va n .load with
  | .ok (.phys pa p e) =>
    match s.locPoison (.phys pa p e) n with
    | some bad => .error (bad - pa)
    | none => .ok (s.physRead (ctxSlot ctx) pa n).1
  | .ok (.sram c o) => .ok (s.sramRead c o n)
  | _ => .error 0

/-- Read bytes across pages; the error is the offset of the first byte whose read failed. `fuel` bounds the pages. -/
def State.coachReadAt (s : State) (ctx va n done : Nat) : Nat → Except Nat (List Byte)
  | 0 => .ok []
  | fuel + 1 =>
    if n = 0 then .ok []
    else
      let a := va % 2 ^ 57
      let k := min n (2 ^ 16 - a % 2 ^ 16)
      match s.coachPage ctx a k with
      | .error d => .error (done + d)
      | .ok bs =>
        match s.coachReadAt ctx (a + k) (n - k) (done + k) fuel with
        | .ok rest => .ok (bs ++ rest)
        | .error e => .error e

/-- Read `n` bytes at an address of a context; the error is the offset of the failing byte. -/
def State.coachRead (s : State) (ctx va n : Nat) : Except Nat (List Byte) := s.coachReadAt ctx va n 0 (n / 2 ^ 16 + 2)

/-! ## Kernel images (03 R79 to R81) -/

/-- What a card takes from its image: stage entries, NSTAGE, SCRATCH, and the address of the default geometry. -/
structure ImageInfo where
  entries : List (BitVec 57)
  nstage : Nat
  scratch : Nat
  geom : Nat
  check : BitVec 32
  deriving DecidableEq, Repr

/-- A status code with its DETAIL. -/
abbrev ImgErr := Nat × Nat

/-- A check of the image: BAD_IMAGE with an offset unless it holds. -/
def imgNeed (ok : Bool) (off : Nat) : Except ImgErr Unit := if ok then .ok () else .error (5, off)

/-- Every element passes. -/
def imgAll {α : Type} (f : α → Except ImgErr Unit) : List α → Except ImgErr Unit
  | [] => .ok ()
  | x :: xs =>
    match f x with
    | .ok _ => imgAll f xs
    | .error e => .error e

/-- A read of the image. One that fails is BAD_IMAGE at the offset of the image's first byte whose read fails: no byte
below a failing one is passed over, since the CRC covers them all (03 R439, read so). -/
def State.imgRead (s : State) (ctx at_ off n : Nat) : Except ImgErr (List Byte) :=
  match s.coachRead ctx (at_ + off) n with
  | .ok bs => .ok bs
  | .error d =>
    match s.coachRead ctx at_ (off + d) with
    | .ok _ => .error (5, off + d)
    | .error d0 => .error (5, d0)

/-- Are some bytes of a table all zero? -/
def zeroAt (bs : List Byte) (off n : Nat) : Bool := ((bs.drop off).take n).all (· == 0)

/-- The header's own checks, in the order of 03 R81. -/
def headerChecks (h : List Byte) : Except ImgErr Unit :=
  imgAll (fun x => imgNeed x.1 x.2)
    [ (fieldAt h 0 4 == 0x4D495849, 0), (fieldAt h 4 2 == 1, 4), (fieldAt h 6 2 == 128, 6)
    , (bitsOf (fieldAt h 0x10 4) 0 1 == 0, 0x10), (bitsOf (fieldAt h 0x1C 4) 1 31 == 0, 0x1C), (zeroAt h 0x4C 52, 0x4C)
    , (decide (1 ≤ fieldAt h 0x14 2) && decide (fieldAt h 0x14 2 ≤ 64), 0x14)
    , (decide (1 ≤ fieldAt h 0x16 2) && decide (fieldAt h 0x16 2 ≤ 4096), 0x16) ]

/-- A section table entry, with its own offset. -/
structure Section where
  at_ : Nat
  kind : Nat
  gen : Nat
  off : Nat
  size : Nat
  entry : Nat
  deriving DecidableEq, Repr

/-- The sections of a table; entries of other kinds are ignored (03 R80). -/
def sectionsOf (tab : List Byte) (off n : Nat) : List Section :=
  ((List.range n).map fun i =>
    let b := tab.drop (32 * i)
    ({ at_ := off + 32 * i, kind := fieldAt b 0 1, gen := fieldAt b 1 1, off := fieldAt b 8 8, size := fieldAt b 0x10 8
       entry := fieldAt b 0x18 4 } : Section)).filter fun x => decide (1 ≤ x.kind) && decide (x.kind ≤ 4)

/-- The reserved bytes of a section entry. -/
def sectionReserved (tab : List Byte) (off : Nat) (x : Section) : Except ImgErr Unit :=
  let b := tab.drop (x.at_ - off)
  imgAll (fun y => imgNeed y.1 y.2) [(zeroAt b 2 6, x.at_ + 2), (zeroAt b 0x1C 4, x.at_ + 0x1C)]

/-- NSTAGE, the entries at or beyond it, and the reserved bytes of a kernel entry. -/
def entryChecks (e : List Byte) (off : Nat) : Except ImgErr Unit :=
  let ns := fieldAt e 0x24 1
  match imgNeed (decide (1 ≤ ns) && decide (ns ≤ 8)) (off + 0x24) with
  | .error x => .error x
  | .ok _ =>
    match imgAll (fun i => imgNeed (decide (i < ns) || fieldAt e (4 * i) 4 == 0) (off + 4 * i)) (List.range 8) with
    | .error x => .error x
    | .ok _ => imgAll (fun y => imgNeed y.1 y.2) [(zeroAt e 0x25 3, off + 0x25), (zeroAt e 0x2C 20, off + 0x2C)]

/-- What lies outside the image: sections and stage entries (03 R81). -/
def rangeChecks (size nk : Nat) (x : Section) (tab : List Byte) : Except ImgErr Unit :=
  match imgNeed (decide (x.off + x.size ≤ size)) (x.at_ + 8) with
  | .error e => .error e
  | .ok _ =>
    if x.kind ≠ 1 then .ok ()
    else imgAll (fun k =>
      let b := tab.drop (64 * k)
      let o := x.entry + 64 * k
      imgAll (fun y => imgNeed y.1 y.2)
        ((List.range (fieldAt b 0x24 1)).map fun i => (decide (x.off + fieldAt b (4 * i) 4 < size), o + 4 * i))) (List.range nk)

/-- The set of generations as GENMASK writes it. -/
def genMask (l : List Section) : Nat := l.foldl (fun m x => m ||| 2 ^ x.gen) 0

/-- The native section that runs: the latest generation of 1 to 3 (03 R81). -/
def bestSection (l : List Section) : Option Section :=
  (l.filter fun x => decide (1 ≤ x.gen) && decide (x.gen ≤ 3)).foldl (fun b x =>
    match b with
    | none => some x
    | some y => if y.gen < x.gen then some x else b) none

/-- The entry tables of the native sections, with the checks that need them, in section order. -/
def State.entryTables (s : State) (ctx at_ nk size : Nat) : List Section → Except ImgErr (List (Section × List Byte))
  | [] => .ok []
  | x :: xs =>
    match imgNeed (decide (x.entry + 64 * nk ≤ size)) (x.at_ + 0x18) with
    | .error e => .error e
    | .ok _ =>
      match s.imgRead ctx at_ x.entry (64 * nk) with
      | .error e => .error e
      | .ok tab =>
        match imgAll (fun k => entryChecks (tab.drop (64 * k)) (x.entry + 64 * k)) (List.range nk) with
        | .error e => .error e
        | .ok _ =>
          match s.entryTables ctx at_ nk size xs with
          | .error e => .error e
          | .ok r => .ok ((x, tab) :: r)

/-- The CRC over the image with CHECK taken as zero, unless the triple is in the cache (03 R79, R81). -/
def State.imgCrc (s : State) (ctx at_ size : Nat) (check : BitVec 32) : Except ImgErr Unit :=
  if s.host.images.contains (ctx, at_, check) then .ok ()
  else
    match s.imgRead ctx at_ 0 size with
    | .error e => .error e
    | .ok bs => imgNeed (crc32c (bs.take 0x48 ++ zeros 4 ++ bs.drop 0x4C) == check) 0x48

/-- The checks of 03 R81 on the image of a KIND 1 card. -/
def State.checkImage (s : State) (ctx at_ kernel : Nat) : Except ImgErr ImageInfo := do
  let h ← s.imgRead ctx at_ 0 128
  let _ ← headerChecks h
  let size := fieldAt h 8 8
  let ns := fieldAt h 0x14 2
  let nk := fieldAt h 0x16 2
  let so := fieldAt h 0x18 4
  let nrel := fieldAt h 0x44 4
  let check := BitVec.ofNat 32 (fieldAt h 0x48 4)
  let _ ← imgNeed (decide (128 ≤ size)) 8
  let _ ← imgNeed (decide (so + 32 * ns ≤ size)) 0x18
  let tab ← s.imgRead ctx at_ so (32 * ns)
  let secs := sectionsOf tab so ns
  let _ ← imgAll (sectionReserved tab so) secs
  let natives := secs.filter fun x => x.kind == 1
  let tabs ← s.entryTables ctx at_ nk size natives
  let _ ← s.imgCrc ctx at_ size check
  let _ ← imgNeed (nrel == 0 || bitsOf (fieldAt h 0x1C 4) 0 1 == 1) 0x1C
  let _ ← imgNeed (nrel == 0 || decide (fieldAt h 0x40 4 + 24 * nrel ≤ size)) 0x40
  let _ ← imgAll (fun x =>
    rangeChecks size nk x (((tabs.find? fun t => t.1 == x).map (·.2)).getD [])) secs
  let _ ← imgAll (fun x => imgNeed (natives.all fun y => y.at_ == x.at_ || y.gen != x.gen || decide (x.at_ < y.at_)) (x.at_ + 1))
    natives
  let _ ← imgNeed (genMask natives == fieldAt h 0x10 4) 0x10
  match bestSection natives with
  | none => .error (3, 0)
  | some x =>
    if (List.range 4).any fun w => BitVec.ofNat 64 (fieldAt h (0x20 + 8 * w) 8) &&& ~~~(s.featureWord w) != 0 then .error (4, 0)
    else if nk ≤ kernel then .error (6, 0)
    else
      let b := (((tabs.find? fun t => t.1 == x).map (·.2)).getD []).drop (64 * kernel)
      let nst := fieldAt b 0x24 1
      .ok
        { entries := (List.range nst).map fun i => BitVec.ofNat 57 (at_ + x.off + fieldAt b (4 * i) 4)
          nstage := nst, scratch := fieldAt b 0x20 4, geom := (at_ + fieldAt b 0x28 4) % 2 ^ 57, check := check }

/-- Lines of an ASID leave every instruction cache (03 R69, R81). -/
def State.icacheDrop (s : State) (asid : BitVec 16) : State :=
  s.onCores fun cs => { cs with cores := cs.cores.map fun (i, c) => (i, { c with icache := c.icache.filter (·.1 != asid) }) }

/-- A validated image enters the cache of 256; one that was not in it drops the context's instruction lines
(03 R81). -/
def State.imageValid (s : State) (ctx at_ : Nat) (check : BitVec 32) : State :=
  if s.host.images.contains (ctx, at_, check) then s
  else
    (s.onHost fun h => { h with images := ((ctx, at_, check) :: h.images).take 256 }).icacheDrop (s.ctx ctx).asid

/-! ## Geometry (04 R93 to R95) -/

/-- A stage entry keeps to 04 R93 to R95. -/
def stageOk (w : BitVec 64) : Bool :=
  let n := w.toNat
  let place := bitsOf n 16 2
  let die := bitsOf n 18 2
  let cluster := bitsOf n 20 5
  let core := bitsOf n 25 3
  bitsOf n 0 16 != 0 && bitsOf n 28 36 == 0 &&
  match place with
  | 0 => decide (cluster ≤ 23)
  | 1 => decide (cluster ≤ 23) && core == 0
  | 2 => cluster == 0 && core == 0
  | _ => die == 0 && cluster == 0 && core == 0

/-- The stage entries of a launch: read, and checked under 04 R95; none where the card is BAD_CARD. -/
def State.readGeometry (s : State) (ctx geom nstage scratch : Nat) : Option (List (BitVec 64)) :=
  if geom % 8 ≠ 0 then none
  else
    match s.coachRead ctx geom 72 with
    | .error _ => none
    | .ok bs =>
      let all := (List.range 8).map fun i => leWord ((bs.drop (8 + 8 * i)).take 8)
      let used := all.take nstage
      if fieldAt bs 0 8 == nstage && used.all stageOk && (all.drop nstage).all (· == 0) &&
          decide ((used.map stageCount).sum ≤ (s.ctx ctx).frcnt.toNat) && decide (scratch ≤ s.scrCap) then some used
      else none

end Sys2Proof.Machine
end

