-- ==== Sys2Proof/Machine/Cards.lean ====
section
/-! DEFINITION. Job-card queues and cards from their reading to their completion (03 R71 to R78), and contexts
(03 R68 to R70). -/

namespace Sys2Proof.Machine

open Sys2Proof

/-! ## A card's fields (03 R74, R75) -/

/-- A field of a card. -/
def cardField (b : BitVec 512) (lo w : Nat) : Nat := b.toNat / 2 ^ lo % 2 ^ w

/-- KIND. -/
def cardKind (b : BitVec 512) : Nat := cardField b 0 4
/-- NDEP. -/
def cardNdep (b : BitVec 512) : Nat := cardField b 10 4
/-- IRQ. -/
def cardIrq (b : BitVec 512) : Bool := b.getLsbD 9
/-- STRICT. -/
def cardStrict (b : BitVec 512) : Bool := b.getLsbD 14
/-- DONE as written, with HOST in bit 63. -/
def cardDone (b : BitVec 512) : Nat := cardField b 256 64
/-- IMAGE, or the address of a drive program. -/
def cardImage (b : BitVec 512) : Nat := cardField b 64 57

/-- Does a card keep to 03 R75? -/
def cardOk (b : BitVec 512) : Bool :=
  let kind := cardKind b
  decide (1 ≤ kind) && decide (kind ≤ 3) && decide (cardNdep b ≤ 8) &&
  !b.getLsbD 15 && cardField b 121 7 == 0 && bitsOf (cardDone b) 57 6 == 0 && cardDone b % 16 == 0 &&
  (kind != 2 || (cardField b 4 5 == 0 && cardField b 128 128 == 0 && cardField b 16 16 != 0 && cardImage b % 64 == 0)) &&
  (kind != 3 || cardField b 64 192 == 0)

/-! ## Edges (03 R76) -/

/-- What an edge of a card comes to now: still unmet, met with the status of the named card, or met at once. -/
inductive EdgeNow where
  | unmet | met (status : Nat)
  deriving DecidableEq, Repr

/-- The rule of 03 R76 for edge `j` of a card. -/
def State.edgeNow (s : State) (c : Card) (j : Nat) : EdgeNow :=
  let q := s.host.queues.getD {} (c.edgeQueue j)
  let d := (q.rd.toNat + 2 ^ 18 - c.edgePos j) % 2 ^ 18
  let pos := q.rd - BitVec.ofNat 32 d
  if !q.enable || decide (d = 0) || decide (2 ^ 17 < d) || (c.edgeQueue j == c.queue && pos == c.pos) then .met 0
  else if s.host.cards.any fun m => m.queue == c.edgeQueue j && m.pos == pos && m.fromDrive.isNone then .unmet
  else .met (((s.host.cardStatus.find? fun x => x.1 == (c.edgeQueue j, pos)).map (·.2)).getD 0)

/-- Meet the edges of a card that are met now. -/
def State.meetEdges (s : State) (c : Card) : Card :=
  let bad := c.edges.any fun j =>
    match s.edgeNow c j with
    | .met st => st != 0
    | .unmet => false
  { c with edges := c.edges.filter fun j => s.edgeNow c j == .unmet, depFailed := c.depFailed || bad }

/-- Change a card. -/
def State.modCard (s : State) (id : Nat) (f : Card → Card) : State :=
  s.onHost fun h => { h with cards := h.cards.map fun c => if c.id == id then f c else c }

/-- A card's work has ended with a status; it completes (03 R77, R78). -/
def State.endCard (s : State) (id status : Nat) (fcode : BitVec 16) (detail : Word) : State :=
  (s.modCard id fun c => { c with status := some (status, fcode, detail) }).post 0 .cardComplete (.num id)

/-- Every edge of a card is met: its launch is eligible, a null card completes, a drive card may start; under STRICT a
predecessor that failed ends it (03 R75, R76; 04 R99). -/
def State.cardReady (s : State) (c : Card) : State :=
  let failed := cardStrict c.bits && c.depFailed
  let drop (s : State) : State :=
    { s with launches := s.launches.filter fun l => some l.lnum != c.lnum }
  if failed then
    ((drop s).onHost fun h => { h with driveWaiting := h.driveWaiting.filter (· != c.id) }).endCard c.id 7 0 0
  else
    match c.lnum, cardKind c.bits with
    | some n, _ => s.modLaunch n fun l => if l.phase = .waiting then { l with phase := .eligible } else l
    | none, 3 => s.endCard c.id 0 0 0
    | none, _ => s

/-- Look at every card that waits on edges; one whose last edge is met goes on. -/
def State.settleEdges (s : State) : State :=
  s.host.cards.foldl (fun s c =>
    if c.edges.isEmpty || c.status.isSome then s
    else
      let c1 := s.meetEdges c
      if c1.edges == c.edges then s
      else
        let s1 := (s.modCard c.id fun _ => c1).prioSoon
        if c1.edges.isEmpty then s1.cardReady c1 else s1) s

/-! ## Queues (03 R71) -/

/-- A queue. -/
def State.queue (s : State) (q : Nat) : Queue := s.host.queues.getD {} q
/-- Change a queue. -/
def State.modQueue (s : State) (q : Nat) (f : Queue → Queue) : State :=
  s.onHost fun h => { h with queues := h.queues.upd {} q f }

/-- The word of QCTL. -/
def Queue.ctl (x : Queue) : Word :=
  BitVec.ofNat 64 (flag x.enable + x.ctx.toNat * 2 + x.prio.toNat * 2 ^ 7 + x.weight.toNat * 2 ^ 10 + x.irqv.toNat * 2 ^ 18 +
    flag x.overrun * 2 ^ 24 + flag x.badbase * 2 ^ 25 + flag x.ctxbusy * 2 ^ 26)

/-- A write of QCTL: an ENABLE from 0 to 1 resets the indices, or is refused with every flag its cases name. -/
def State.writeQctl (s : State) (q : Nat) (h : Half) (v : Word) : State :=
  let x := s.queue q
  let w := regMerge x.ctl h v
  let weight := w.extractLsb' 10 8
  let x1 : Queue :=
    { x with
      ctx := if x.enable then x.ctx else w.extractLsb' 1 6
      prio := w.extractLsb' 7 3, weight := if weight = 0 then 1 else weight, irqv := w.extractLsb' 18 6
      overrun := x.overrun && !bitSet h v 24, badbase := x.badbase && !bitSet h v 25
      ctxbusy := x.ctxbusy && !bitSet h v 26 }
  let en := w.getLsbD 0
  if en && !x.enable then
    let busy := (List.range 64).any fun i => i != q && (s.queue i).enable && (s.queue i).ctx == x1.ctx
    let dead := (s.ctx x1.ctx.toNat).phase != .live
    let bad := decide (x1.log2.toNat < 4) || decide (16 < x1.log2.toNat)
    if busy || dead || bad then
      s.modQueue q fun _ => { x1 with ctxbusy := x1.ctxbusy || busy || dead, badbase := x1.badbase || bad }
    else
      (s.modQueue q fun _ => { x1 with enable := true, stopped := false, wr := 0, rd := 0, done := 0 }).onHost fun h =>
        { h with cardStatus := h.cardStatus.filter fun e => e.1.1 != q }
  else (s.modQueue q fun _ => { x1 with enable := en }).settleEdges

/-- QUEUE_ENABLE. -/
def execQueueEnable (s : State) : Out :=
  .next (match s.arg with
    | .reg q _ h v => s.whenBar fun s => if q < 64 then s.writeQctl q h v else s
    | _ => s)

/-! ## Reading cards (03 R72, R73) -/

/-- The virtual address of a queue's next card. -/
def Queue.slotVa (x : Queue) : Nat := (x.base.toNat * 64 + 64 * (x.rd.toNat % 2 ^ x.log2.toNat)) % 2 ^ 57

/-- The queue's next card as it stands in memory; none where the read fails (03 R439). -/
def State.peekCard (s : State) (q : Nat) : Option (BitVec 512) :=
  let x := s.queue q
  match s.coachRead x.ctx.toNat x.slotVa 64 with
  | .ok bs => some (beatOf bs)
  | .error _ => none

/-- May a queue be read: enabled, of a LIVE context, with a card; a drive card needs a place (03 R72, R73). -/
def State.queueReadable (s : State) (q : Nat) : Bool :=
  let x := s.queue q
  x.enable && !x.stopped && (s.ctx x.ctx.toNat).phase == .live && x.wr != x.rd &&
  !((s.peekCard q).any (fun b => cardKind b == 2) && decide (16 ≤ s.host.driveWaiting.length))

/-- The queue served next: highest PRIO, round robin by number within it, WEIGHT cards a turn (03 R73). -/
def State.cardTurn (s : State) : Option Nat :=
  if s.package.phase != .ready || s.host.activeHub.isNone || decide (s.cycle < s.host.nextRead) ||
      decide (2048 ≤ s.launches.length) then none
  else
    let ready := (List.range 64).filter s.queueReadable
    match (ready.map fun q => (s.queue q).prio.toNat).max? with
    | none => none
    | some p =>
      let same := ready.filter fun q => (s.queue q).prio.toNat == p
      let (last, taken) := s.host.rr.getD (63, 0) p
      if same.contains last && decide (0 < taken) && decide (taken < (s.queue last).weight.toNat) then some last
      else
        match same.find? fun q => decide (last < q) with
        | some q => some q
        | none => same.head?

/-- The turn of a queue is counted, and the next card is read 32 cycles later at the earliest (03 R73). -/
def State.countTurn (s : State) (q : Nat) : State :=
  let p := (s.queue q).prio.toNat
  let (last, taken) := s.host.rr.getD (63, 0) p
  let n := if last = q ∧ taken < (s.queue q).weight.toNat then taken + 1 else 1
  s.onHost fun h => { h with rr := h.rr.put p (q, n), nextRead := s.cycle + 32 }

/-- A queue overruns: it is read no more until ENABLE is cleared and set (03 R72). -/
def State.overrun (s : State) (q : Nat) : State := s.modQueue q fun x => { x with overrun := true, stopped := true }

/-- Read a queue's next card: it takes its place among the cards with its edges; what runs it gets its number. -/
def State.takeCard (s : State) (q : Nat) (f : State → Card → State) : State :=
  if s.cardTurn ≠ some q then s
  else
    let x := s.queue q
    let s0 := s.countTurn q
    if 2 ^ x.log2.toNat < (x.wr - x.rd).toNat then s0.overrun q
    else
      match s.peekCard q with
      | none => (s0.overrun q).recordEvent 9 s.coachDie q 0 x.slotVa
      | some b =>
        let c : Card :=
          { id := s.host.nextCard, queue := q, ctx := x.ctx.toNat, pos := x.rd, bits := b
            edges := List.range (min (cardNdep b) 8) }
        let s1 := (s0.modQueue q fun x => { x with rd := x.rd + 1 }).onHost fun h => { h with nextCard := h.nextCard + 1 }
        let s2 := s1.onHost fun h => { h with cards := h.cards ++ [c] }
        let c1 := if cardOk b then s2.meetEdges c else { c with edges := [] }
        (f (s2.modCard c.id fun _ => c1) c1).settleEdges

/-- A launch is created from a card that has passed every check (04 R96, R98; 03 R68). -/
def State.createLaunch (s : State) (c : Card) (prio : Nat) (info : ImageInfo) (geom : List (BitVec 64)) : State :=
  let x := s.ctx c.ctx
  let l : Launch :=
    { lnum := s.nextLnum, ctx := c.ctx, card := c.id, prio := prio, eff := prio, vers := c.bits.getLsbD 7
      checked := c.bits.getLsbD 8, args := BitVec.ofNat 64 (cardField c.bits 128 64), scratch := info.scratch
      stages := info.entries.zip geom, hwb := x.hwb, hwl := x.hwl, hwo := x.hwo, tvec := x.tvec, age := x.age
      pdl := x.pdl, markgap := x.markgap }
  let c1 := { c with lnum := some s.nextLnum }
  let s1 := ({ s with launches := s.launches ++ [l], nextLnum := s.nextLnum + 1 }).modCard c.id fun _ => c1
  let s2 := s1.prioSoon
  if c1.edges.isEmpty then s2.cardReady c1 else s2

/-- A KIND 1 card: its own checks, its image, its geometry, in that order (03 R81; 04 R95). -/
def State.launchCard (s : State) (c : Card) : State :=
  let prio := min (cardField c.bits 4 3) (s.queue c.queue).prio.toNat
  if !cardOk c.bits || cardKind c.bits != 1 then s.endCard c.id 6 0 0
  else
    let at_ := cardImage c.bits
    match s.checkImage c.ctx at_ (cardField c.bits 16 16) with
    | .error (status, detail) => s.endCard c.id status 0 (BitVec.ofNat 64 (if status = 5 then detail else 0))
    | .ok info =>
      let s1 := s.imageValid c.ctx at_ info.check
      let g := cardField c.bits 192 64
      let addr := if g = 0 then info.geom else g % 2 ^ 57
      match (if 2 ^ 57 ≤ g then none else s1.readGeometry c.ctx addr info.nstage info.scratch) with
      | none => s1.endCard c.id 6 0 0
      | some geom => s1.createLaunch c prio info geom

/-- What the Coachman makes of the next card of a queue, by its kind: 1 launch, 2 drive, 3 null, 0 a card that breaks
03 R75. A card whose read fails has no kind. -/
def State.nextKind (s : State) (q : Nat) : Nat :=
  match s.peekCard q with
  | some b => if cardOk b then cardKind b else 0
  | none => 0

/-- JOB_CARD_LAUNCH. -/
def execJobCardLaunch (s : State) : Out :=
  .next (match s.arg with
    | .num q => if s.nextKind q = 1 then s.takeCard q fun s c => s.launchCard c else s
    | _ => s)

/-- JOB_CARD_DRIVE: the card waits for a runner (03 R85). -/
def execJobCardDrive (s : State) : Out :=
  .next (match s.arg with
    | .num q =>
      if s.nextKind q = 2 then
        s.takeCard q fun s c =>
          let s1 := s.onHost fun h => { h with driveWaiting := h.driveWaiting ++ [c.id] }
          if c.edges.isEmpty then s1.cardReady c else s1
      else s
    | _ => s)

/-- JOB_CARD_NULL. -/
def execJobCardNull (s : State) : Out :=
  .next (match s.arg with
    | .num q => if s.nextKind q = 3 then s.takeCard q fun s c => if c.edges.isEmpty then s.cardReady c else s else s
    | _ => s)

/-- JOB_CARD_INVALID. -/
def execJobCardInvalid (s : State) : Out :=
  .next (match s.arg with
    | .num q => if s.nextKind q = 0 then s.takeCard q fun s c => s.endCard c.id 6 0 0 else s
    | _ => s)

/-! ## Completion (03 R77, R78; 05 R156) -/

/-- The snapshot of a context's 512 counters, with what tasks parked on loads have waited so far (05 R156). -/
def State.hotSnapshot (s : State) (n : Nat) : State :=
  let c := s.ctx n
  if c.hotbase = 0 then s
  else
    let held := s.tasks.filterMap fun t => if t.ctx = n then t.heldLoad else none
    let parked (b : Nat) : Nat := ((held.filter fun h => h.2.toNat == b).map fun h => s.cycle - h.1).sum
    let bs := (List.range 256).flatMap fun b =>
      let x := c.hot.getD (0, 0) b
      natLe 8 x.1 ++ natLe 8 (min (x.2 + parked b) (2 ^ 64 - 1))
    s.physWrite (ctxSlot n) (c.hotbase.toNat * 2 ^ 12) bs

/-- Write the completion record, or record the event of one that fails (03 R77). -/
def State.writeRecord (s : State) (c : Card) (status : Nat) (fcode : BitVec 16) (detail : Word) : State :=
  let done := cardDone c.bits
  if done = 0 ∨ done % 16 ≠ 0 then s
  else
    let bs := natLe 4 (cardField c.bits 32 32) ++ natLe 2 status ++ natLe 2 fcode.toNat ++ natLe 8 detail.toNat
    let addr := done % 2 ^ 57
    let s1 := s.hotSnapshot c.ctx
    let failed (s : State) : State := s.recordEvent 10 s.coachDie c.queue 0 done
    if 2 ^ 63 ≤ done then s1.physWrite 0 (2 ^ 51 + addr % 2 ^ 51) bs
    else
      match s1.ctxAccess c.ctx addr 16 .store with
      | .ok (.peer _ _ _) => failed s1
      | .ok loc => s1.locWrite c.ctx addr loc bs false
      | _ => failed s1

/-- Is a write or an atomic of a launch's tasks still on its way to its home (03 R77)? -/
def State.launchWrites (s : State) (n : BitVec 32) : Bool :=
  s.fabric.remotes.any fun r => r.pkt.op != 0x01 && r.use.tid?.any fun t => tidLnum t == n

/-- The end of a card: status, fault code, detail; none while its work goes on. -/
def State.cardEnd (s : State) (c : Card) : Option (Nat × BitVec 16 × Word) :=
  match c.status with
  | some x => some x
  | none =>
    match c.lnum.bind s.launch? with
    | some l =>
      if l.phase = .retiring ∧ s.launchWrites l.lnum = false then
        some (l.status, if l.status = 1 then l.fcode else 0, if l.status = 1 then l.ftid else 0)
      else none
    | none => none

/-- Has a card's launch retired, with writes of its tasks still on their way? -/
def State.cardWaits (s : State) (c : Card) : Bool :=
  match c.status, c.lnum.bind s.launch? with
  | none, some l => l.phase == .retiring && s.launchWrites l.lnum
  | _, _ => false

/-- A launch that a drive command made tells LSTAT and arrives at its roll (15 R418). -/
def State.lnchDone (s : State) (id status : Nat) : State :=
  match s.engines.ops.find? (·.id == id) with
  | none => s
  | some o =>
    let s1 := s.onEngines fun e => { e with ops := e.ops.filter (·.id != id) }
    let s2 := match o.driveKey with
      | some k => s1.onHost fun h => { h with driveEntries := h.driveEntries.put k (h.driveEntries.getD 0 k - 1) }
      | none => s1
    let s3 := s2.windowWrite (o.pblk + 0x10) (natLe 2 status)
    let (core, off) := windowPlace o.roll
    s3.setRoll core off ((s3.roll core off).arrive (fieldAt o.block 0 4)) 0

/-- A card completes (03 R77): the record as a release at PKG scope, then QDONE and the vector; what waited on it goes
on. -/
def State.completeCard (s : State) (c : Card) (status : Nat) (fcode : BitVec 16) (detail : Word) : State :=
  let s1 := (s.writeRecord c status fcode detail).countRelease s.coachDie 0
  let s2 := match c.fromDrive with
    | some id => s1.lnchDone id status
    | none => s1.modQueue c.queue fun q => { q with done := q.done + 1 }
  let s3 := if cardIrq c.bits then s2.raiseVector (s2.queue c.queue).irqv.toNat else s2
  let s4 := { s3 with launches := s3.launches.filter fun l => some l.lnum != c.lnum }
  let s5 := s4.onHost fun h =>
    { h with
      cards := h.cards.filter (·.id != c.id)
      cardStatus := if c.fromDrive.isSome then h.cardStatus else ((c.queue, c.pos), status) :: h.cardStatus }
  s5.settleEdges.prioSoon.ctxFree c.ctx

/-- CARD_COMPLETE; a card whose launch's writes are still on their way is looked at again (03 R77). -/
def execCardComplete (s : State) : Out :=
  .next (match s.arg with
    | .num id =>
      match s.host.cards.find? (·.id == id) with
      | none => s
      | some c =>
        match s.cardEnd c with
        | some (status, fcode, detail) => s.completeCard c status fcode detail
        | none => if s.cardWaits c then s.postFree .cardComplete (.num c.id) else s
    | _ => s)

/-! ## Contexts (03 R68 to R70) -/

/-- CREATE (03 R69): an ASID in use refuses it; then the keys are loaded and old translations dropped. -/
def State.createCtx (s : State) (n : Nat) : State :=
  let c := s.ctx n
  if c.phase ≠ .free then s
  else if (List.range 64).any fun m => m != n && (s.ctx m).phase != .free && (s.ctx m).asid == c.asid then
    s.modCtx n fun c => { c with dupasid := true }
  else
    let s1 := s.modCtx n fun c => { c with phase := .creating, hot := [], vdcnt := 0 }
    ((s1.loadKey (n + 1) controllers).tlbDropAll c.asid none).icacheDrop c.asid

/-- CONTEXT_CREATE. -/
def execContextCreate (s : State) : Out :=
  .next (match s.arg with
    | .num n => s.whenCtxBar n fun s => s.createCtx n
    | _ => s)

/-- Every card of a context that has not completed is killed (03 R70 step 2): its launch's tasks end. -/
def State.killCard (s : State) (c : Card) : State :=
  if c.status.isSome then s
  else
    match c.lnum.bind s.launch? with
    | some l =>
      let s0 := s.modCard c.id fun c => { c with edges := [] }
      let s1 := s0.modLaunch l.lnum fun l => { l with status := 2, fcode := 0, ftid := 0 }
      let live := s1.tasks.any fun t => tidLnum t.tid == l.lnum
      let s2 := s1.endLaunchTasks l.lnum 0
      if live then s2
      else ((s2.closeBells l.lnum).modLaunch l.lnum fun l => { l with phase := .retiring }).post 0 .cardComplete (.num c.id)
    | none =>
      if s.host.runners.any fun r => r.2.card == c.id then s
      else (s.onHost fun h => { h with driveWaiting := h.driveWaiting.filter (· != c.id) }).endCard c.id 2 0 0

/-- The running drive program of a context ends KILLED with its current period (03 R70 step 1). -/
def State.killRunner (s : State) (n : Nat) : State :=
  s.onHost fun h =>
    { h with runners := h.runners.map fun (i, r) =>
        if r.ctx = n ∧ r.ending = none then (i, { r with ending := some (2, 0) }) else (i, r) }

/-- A member leaves an open collective: the abort frame goes to every other member (02 R56). -/
def State.sendAborts (s : State) (hub : Nat) (c : CollState) : State :=
  (c.members.filter (· != s.ownChip hub)).foldl (fun s m =>
    s.sendPacket hub { op := 0x0D, dst := m, src := s.ownChip hub, fctx := c.fctx, collid := c.collid }) s

/-- Engine operations of a context stop (03 R70 step 3): open collectives are aborted; a copy whose slipped writes are
out stays until they are acknowledged. -/
def State.stopOps (s : State) (n : Nat) : State :=
  let mine := s.engines.ops.filter fun o => o.ctx == n
  let s1 := mine.foldl (fun s o =>
    match o.coll with
    | some c => s.sendAborts o.die c
    | none => s) s
  let busy (o : EngineOp) : Bool := s.fabric.remotes.any fun r => r.use == .engineWrite o.id
  let keep (o : EngineOp) : Bool := o.ctx != n || (o.slip.isSome && busy o)
  let s2 := (mine.filter fun o => !keep o).foldl (fun s o =>
    match o.driveKey with
    | some k => s.onHost fun h => { h with driveEntries := h.driveEntries.put k (h.driveEntries.getD 0 k - 1) }
    | none => s) s1
  s2.onEngines fun e =>
    { e with ops := (e.ops.filter keep).map fun o =>
        if o.ctx == n then { o with ended := true, started := true } else o }

/-- Requests of peers that wait for a page of a context come again, to be answered UNMAPPED (02 R44). -/
def State.dropTargetWaits (s : State) (n : Nat) : State :=
  let s1 := (s.fabric.targetWaits.filter fun w => w.ctx == n).foldl (fun s w => (s.unwait w.pkt).deliver w.hub w.pkt) s
  s1.onFabric fun x => { x with targetWaits := x.targetWaits.filter fun w => w.ctx != n }

/-- What the ASID and the context leave behind: its L1 and L2 lines are invalidated, retained ones with them, and dirty
ones are not written back (03 R70 step 4; 05 R146; 02 R46; 10 R245, R258; 17 R425). -/
def State.clearCtx (s : State) (n : Nat) : State :=
  let asid := (s.ctx n).asid
  let s1 := (s.tlbDropAll asid none).icacheDrop asid
  let key := s.keyNum (ctxSlot n)
  let s2 := (s1.onMem fun m =>
    { m with
      l2 := m.l2.filter fun l => l.ctx != n
      pins := m.pins.filter fun p => p.2.1 != n }).onCores fun cs =>
    { cs with cores := cs.cores.map fun (i, c) => (i, { c with l1 := c.l1.filter fun x => x.2.1 != key }) }
  let s3 := s2.onEngines fun e =>
    { e with proj := e.proj.map fun (i, p) => (i, if p.ctx == some n then { p with ctx := none } else p) }
  let s4 := s3.onCores fun c =>
    { c with bells := c.bells.map fun (k, b) => (k, if b.owner == some n then { b with owner := none, memb := 0 } else b) }
  let s5 := s4.onHost fun h => { h with images := h.images.filter fun i => i.1 != n }
  [4, 5].foldl (fun s hub => s.modHub hub fun h => { h with fwd := h.fwd.filter fun e => e.ctx != n }) s5

/-- DESTROY (03 R70): steps 1 to 5. Each controller's confirmation comes at a time the spec leaves open. -/
def State.destroyCtx (s : State) (n : Nat) : State :=
  if (s.ctx n).phase ≠ .live then s
  else
    let s1 := (s.modCtx n fun c => { c with phase := .destroying }).killRunner n
    let s2 := (s1.host.cards.filter fun c => c.ctx == n).foldl (fun s c => s.killCard c) s1
    let s3 := ((s2.stopOps n).dropTargetWaits n).clearCtx n
    let s4 := s3.onPackage fun p =>
      { p with keys := p.keys.del (n + 1), zeroising := p.zeroising ++ controllers.map fun k => (n + 1, k) }
    controllers.foldl (fun s k => s.postFree .keyZeroiseConfirm (.num2 (n + 1) k)) s4

/-- CONTEXT_DESTROY. -/
def execContextDestroy (s : State) : Out :=
  .next (match s.arg with
    | .num n => s.whenCtxBar n fun s => s.destroyCtx n
    | _ => s)

/-- A write of CTXCTL (03 R68): an ASID that may not change sets WRIGN; then the W1C bits, CREATE and DESTROY act. -/
def State.writeCtxctl (s : State) (n : Nat) (h : Half) (v : Word) : State :=
  match h with
  | .hi => s
  | _ =>
    let c := s.ctx n
    let asid := v.extractLsb' 8 16
    let s1 := s.modCtx n fun c =>
      { c with wrign := c.wrign && !v.getLsbD 4, dupasid := c.dupasid && !v.getLsbD 5, keyfail := c.keyfail && !v.getLsbD 6 }
    let s2 := if asid = c.asid then s1
      else if c.phase = .free then s1.modCtx n fun c => { c with asid := asid }
      else s1.wrign n
    if c.phase = .free && v.getLsbD 2 then s2.createCtx n
    else if c.phase = .live && v.getLsbD 3 then s2.destroyCtx n
    else s2

end Sys2Proof.Machine
end

