-- ==== Sys2Proof/Machine/EngMon.lean ====
section
/-! DEFINITION. Engine operations at work: their reads and writes as engine accesses (15 R406, R407; 05 R147, R153;
01 R28), and their end (15 R406, R407; 07 R199). -/

namespace Sys2Proof.Machine

open Sys2Proof

/-- Why the work of an operation stops: a fault with FADDR; a page its driver must resolve; spans to be read from peers
first; a resource that is not free yet. -/
inductive EngStop where
  | fault (code addr : Nat)
  | park (va : Nat) (cow : Bool) (level : Nat)
  | fetch (spans : List (BitVec 12 × BitVec 16 × Nat × Nat))
  | later
  deriving DecidableEq, Repr

/-- A piece of an operation's work. It reads what it needs before it writes anything; work that is stopped begins anew, but
for what is read once, the outcomes of its probe and its pins (10 R241, R244, R245; log entry 8). -/
abbrev Eng (α : Type) := ExceptT EngStop (StateM State) α

/-- How an operation ends: its code, and FADDR. -/
abbrev EngEnd := Nat × Nat

/-! ## The parameter block (15 R405 to R407) -/

/-- A field of the block. -/
def EngineOp.field (o : EngineOp) (off n : Nat) : Nat := fieldAt o.block off n
/-- A virtual address of the block. -/
def EngineOp.addr (o : EngineOp) (off : Nat) : Nat := fieldAt o.block off 8 % 2 ^ 57
/-- Are `n` bytes of the block zero? -/
def EngineOp.zero (o : EngineOp) (off n : Nat) : Bool := ((o.block.drop off).take n).all (· == 0)
/-- OPF bit 0. -/
def EngineOp.opf0 (o : EngineOp) : Bool := o.field 6 2 % 2 == 1
/-- HINT.EVF. -/
def EngineOp.evf (o : EngineOp) : Bool := o.field 5 1 % 2 == 1
/-- The SRCUNIT of the operation's engine (02 R45). -/
def EngineOp.srcunit (o : EngineOp) : BitVec 16 := engineUnit o.die o.unit

/-- A fault ends the command. -/
def engFault {α : Type} (code addr : Nat) : Eng α := throw (.fault code addr)
/-- ENGINE_PARAM with the address of the block (15 R407). -/
def engParam {α : Type} (o : EngineOp) : Eng α := engFault cEngineParam (scratchBase + o.pblk)
/-- A rule of the block's map. -/
def engNeed (o : EngineOp) (ok : Bool) : Eng Unit := if ok then pure () else engParam o
/-- A rule of a structure in memory, with that structure's address. -/
def engNeedAt (addr : Nat) (ok : Bool) : Eng Unit := if ok then pure () else engFault cEngineParam addr

/-- The header of a block: HINT and OPF (15 R405). -/
def engHeader (o : EngineOp) (opf : Nat) : Eng Unit := engNeed o (o.field 5 1 / 2 == 0 && o.field 6 2 / 2 ^ opf == 0)

/-- Change an operation. -/
def State.modOp (s : State) (id : Nat) (f : EngineOp → EngineOp) : State :=
  s.onEngines fun e => { e with ops := e.ops.map fun o => if o.id == id then f o else o }

/-! ## Accesses (15 R406) -/

/-- A range cut at multiples of a granule. -/
def cutRange (g : Nat) : Nat → Nat → Nat → List (Nat × Nat)
  | 0, _, _ => []
  | fuel + 1, va, n =>
    if n = 0 then []
    else
      let k := min n (g - va % g)
      (va, k) :: cutRange g fuel (va + k) (n - k)

/-- A range of virtual addresses cut at multiples of a granule. -/
def cuts (g va n : Nat) : List (Nat × Nat) := (cutRange g (n / g + 2) va n).map fun x => (x.1 % 2 ^ 57, x.2)

/-- Count an engine transfer in its buffer's BYTES (05 R156). -/
def engCount (o : EngineOp) (n : Nat) : Eng Unit := modify fun s => s.countBytes o.ctx (o.field 4 1) n

/-- The operation as it stands. -/
def State.opNow (s : State) (o : EngineOp) : EngineOp := (s.engines.ops.find? (·.id == o.id)).getD o

/-- The place of an address on a page that the operation has pinned (10 R245). -/
def EngineOp.pinLoc (o : EngineOp) (va : Nat) : Option Loc :=
  (o.pinned.find? fun p => p.1 == va / 2 ^ 16).map fun p => .phys (p.2.1 + va % 2 ^ 16) .near p.2.2

/-- Has an access to a peer still to wait for the remote stores of the operation's issuer (07 R198)? -/
def State.engHeld (s : State) (o : EngineOp) : Bool := s.fabric.remotes.any fun r => o.after.contains r.id

/-- An access to a peer waits for its turn. -/
def engTurn (o : EngineOp) (remote : Bool) : Eng Unit := do if remote && (← get).engHeld o then throw .later

/-- Translate a piece of an access within one 64 KiB page. -/
def engLoc (o : EngineOp) (va n : Nat) (kind : AccKind) : Eng Loc := do
  let s ← get
  match (s.opNow o).pinLoc va with
  | some loc => pure loc
  | none =>
  match s.ctxAccess o.ctx va n kind with
  | .ok loc =>
    match s.viaForward o.die loc va with
    | .ok l =>
      set (s.fwdUse o.die (s.fwdOf o.die loc))
      pure l
    | .bad c a _ => engFault c a
    | _ => engFault cTranslation va
  | .bad c a _ => engFault c a
  | .resolve v cow level => throw (.park v cow level)
  | .miss v _ _ => engFault cTranslation v

/-- The spans of up to 2 KiB of a piece on a peer (02 R45). -/
def peerSpans (chip : BitVec 12) (fctx : BitVec 16) (va n : Nat) : List (BitVec 12 × BitVec 16 × Nat × Nat) :=
  (cuts 2048 va n).map fun x => (chip, fctx, x.1, x.2)

/-- The bytes of a span that has been read. -/
def EngineOp.gotSpan (o : EngineOp) (x : BitVec 12 × BitVec 16 × Nat × Nat) : Option (List Byte) :=
  (o.got.find? fun g => g.1 == (x.1, x.2.1, x.2.2.1) && decide (x.2.2.2 ≤ g.2.length)).map fun g => g.2.take x.2.2.2

/-- Read spans of a peer, which are fetched first. -/
def engSpans (o : EngineOp) (l : List (BitVec 12 × BitVec 16 × Nat × Nat)) : Eng (List Byte) :=
  match l.filter fun x => (o.gotSpan x).isNone with
  | [] => pure (l.flatMap fun x => (o.gotSpan x).getD [])
  | miss => do
    engTurn o true
    throw (.fetch miss)

/-- Read a translated piece; a poisoned beat is a fault (01 R28). -/
def engReadLoc (o : EngineOp) (x : Nat × Nat × Loc) : Eng (List Byte) := do
  match x.2.2 with
  | .peer chip fctx a => engSpans o (peerSpans chip fctx a x.2.1)
  | loc =>
    let s ← get
    match s.locPoison loc x.2.1, loc with
    | some l, .phys pa _ _ => engFault cIntegrity (x.1 + (l - pa))
    | _, _ =>
      let (bs, s1) := s.locRead o.ctx x.1 loc x.2.1 o.evf
      set s1
      pure bs

/-- Translate a range. -/
def engLocs (o : EngineOp) (va n : Nat) (kind : AccKind) : Eng (List (Nat × Nat × Loc)) :=
  (cuts 0x10000 va n).mapM fun x => do pure (x.1, x.2, ← engLoc o x.1 x.2 kind)

/-- What of a translated range must be fetched from peers. -/
def locSpans (l : List (Nat × Nat × Loc)) : List (BitVec 12 × BitVec 16 × Nat × Nat) :=
  l.flatMap fun x =>
    match x.2.2 with
    | .peer chip fctx a => peerSpans chip fctx a x.2.1
    | _ => []

/-- Read a range of the command's context. -/
def engRead (o : EngineOp) (va n : Nat) : Eng (List Byte) := do
  let locs ← engLocs o va n .load
  let _ ← engSpans o (locSpans locs)
  let bs ← locs.mapM (engReadLoc o)
  engCount o n
  pure bs.flatten

/-- Read a range that the command reads once (10 R241, R244). -/
def engReadOnce (o : EngineOp) (va n : Nat) : Eng (List Byte) := do
  match ((← get).opNow o).read.find? fun x => x.1 == (va, n) with
  | some x => pure x.2
  | none =>
    let bs ← engRead o va n
    modify fun s => s.modOp o.id fun o => { o with read := ((va, n), bs) :: o.read }
    pure bs

/-- A judgement that the command makes once, by number (10 R244). -/
def engJudge (o : EngineOp) (k : Nat) (m : Eng Bool) : Eng Bool := do
  match ((← get).opNow o).judged.find? k with
  | some b => pure b
  | none =>
    let b ← m
    modify fun s => s.modOp o.id fun o => { o with judged := o.judged.put k b }
    pure b

/-- Check a range that will be written: its translations, and that no poisoned beat is written in part. -/
def engPlan (o : EngineOp) (va n : Nat) : Eng (List (Nat × Nat × Loc)) := do
  let locs ← engLocs o va n .store
  engTurn o !(locSpans locs).isEmpty
  let s ← get
  match locs.find? fun x => s.partPoison x.2.2 x.2.1 with
  | some x => engFault cIntegrity x.1
  | none => pure locs

/-- The length of a remote read or write that is no power of two (log entry 3). -/
def lenWord (n : Nat) : BitVec 64 := if 2 ^ n.log2 = n then 0 else BitVec.ofNat 64 n

/-- Send the remote writes of a piece, one for each 2 KiB-aligned span, in ascending order (18 R429). -/
def State.engSend (s : State) (o : EngineOp) (chip : BitVec 12) (fctx : BitVec 16) (a : Nat) (bs : List Byte) : State :=
  (cuts 2048 a bs.length).foldl (fun s x =>
    s.remoteSend o.die o.srcunit o.ctx
      { writePkt chip fctx x.1 ((bs.drop (x.1 - a)).take x.2) (cmdTag o.cmd) with opnd2 := lenWord x.2 }
      (.engineWrite o.id)) s

/-- Write bytes at checked pieces. -/
def State.engStore (s : State) (o : EngineOp) : List (Nat × Nat × Loc) → List Byte → State
  | [], _ => s
  | (va, n, loc) :: rest, bs =>
    let s1 := match loc with
      | .peer chip fctx a => s.engSend o chip fctx a (bs.take n)
      | loc => s.locWrite o.ctx va loc (bs.take n) o.evf
    s1.engStore o rest (bs.drop n)

/-- Write bytes at checked pieces. -/
def engPut (o : EngineOp) (plan : List (Nat × Nat × Loc)) (bs : List Byte) : Eng Unit := do
  engCount o bs.length
  modify fun s => s.engStore o plan bs

/-- Write bytes: for a command whose other writes are checked already. -/
def engWrite (o : EngineOp) (va : Nat) (bs : List Byte) : Eng Unit := do engPut o (← engPlan o va bs.length) bs

/-- Write a field back to the block, before the roll arrival (15 R406). -/
def engBack (o : EngineOp) (off : Nat) (bs : List Byte) : Eng Unit := modify fun s => s.windowWrite (o.pblk + off) bs

/-- Unspecified bytes (00 R10). -/
def engFree (n : Nat) : Eng (List Byte) := do
  let (bs, s1) := (← get).freeBytes n
  set s1
  pure bs

/-! ## The end (15 R406, R407; 07 R199; 03 R91; 10 R245) -/

/-- Does an operation still wait for remote writes, or reads? -/
def State.opWrites (s : State) (id : Nat) : Bool := s.fabric.remotes.any fun r => r.use == .engineWrite id
/-- Does an operation still wait for remote reads? -/
def State.opReads (s : State) (id : Nat) : Bool := s.fabric.remotes.any fun r => r.use == .engineRead id

/-- An operation leaves its engine: its pins and its drive entry are free; it stays in the list while slipped writes of
it are out. -/
def State.opLeaves (s : State) (o : EngineOp) : State :=
  let s1 := s.onMem fun m => { m with pins := m.pins.filter fun p => p.1 != o.id }
  let s2 := match o.driveKey with
    | some k => s1.onHost fun h => { h with driveEntries := h.driveEntries.put k (h.driveEntries.getD 0 k - 1) }
    | none => s1
  if s2.opWrites o.id then s2.modOp o.id fun o => { o with ended := true, started := true, coll := none }
  else s2.onEngines fun e => { e with ops := e.ops.filter (·.id != o.id) }

/-- The end of a command as a release: it is numbered once (07 R189, R199). -/
def State.engRelease (s : State) (o : EngineOp) : Nat × State :=
  match o.release with
  | some k => (k, s)
  | none => (s.nextCount o.die, s.countRelease o.die 0)

/-- A command ends: FADDR, then the roll, as a release, then nothing of it is left. A roll on another die waits for the
release's stamp (07 R189). -/
def State.engFinish (s : State) (o : EngineOp) (code faddr : Nat) : State :=
  let (k, s0) := s.engRelease o
  let (core, off) := windowPlace o.roll
  if coreDie core ≠ o.die ∧ s0.clocks.heardAll (coreDie core) ((joinClock o.clock []).set o.die k) = false then
    s0.modOp o.id fun x =>
      { x with started := true, release := some k
               fault := if code = 0 then none else some (BitVec.ofNat 16 code, BitVec.ofNat 64 faddr) }
  else
    let s1 := s0.windowWrite (o.pblk + 8) (natLe 8 faddr)
    let r := s1.roll core off
    let r1 := if code = 0 then r.arrive (o.field 0 4) else r.complete code
    (s1.setRoll core off r1 faddr).opLeaves o

/-- An operation ends with a fault code: its roll waits for the acknowledgements of what it has written before
(07 R199). -/
def State.engFailed (s : State) (o : EngineOp) (code addr : Nat) : State :=
  if s.opWrites o.id then
    s.modOp o.id fun o => { o with started := true, fault := some (BitVec.ofNat 16 code, BitVec.ofNat 64 addr) }
  else s.engFinish o code addr

/-- Work that was stopped. `s` is the state before it, `s1` the state it came to: of unfinished work what it has read once,
its judgements, its pins and its free values stay. -/
def State.engStopped (s s1 : State) (o : EngineOp) (stop : EngStop) : State :=
  let o1 := s1.opNow o
  let keep := ({ s.onMem fun m => { m with pins := s1.mem.pins } with freeCtr := s1.freeCtr }).modOp o.id fun x =>
    { x with read := o1.read, judged := o1.judged, pinned := o1.pinned }
  match stop with
  | .fault code addr => s1.engFailed o code addr
  | .park va cow level => (keep.recordPageFault o.ctx va cow level true).modOp o.id fun o => { o with parked := some (va, cow) }
  | .fetch spans =>
    spans.foldl (fun s x =>
      s.remoteSend o.die o.srcunit o.ctx
        { op := 0x01, dst := x.1, fctx := x.2.1, vaddr := BitVec.ofNat 57 x.2.2.1, size := sizeCode x.2.2.2
          tag := cmdTag o.cmd, opnd2 := lenWord x.2.2.2 }
        (.engineRead o.id)) keep
  | .later => keep.post 1 .engineComplete (.num o.id)

/-- An operation's own work has been done: it ends now, or when its remote writes are acknowledged. -/
def State.engWorked (s : State) (o : EngineOp) (r : EngEnd) : State :=
  if r.1 ≠ 0 then s.engFailed o r.1 r.2
  else if s.opWrites o.id then s.modOp o.id fun o => { o with started := true }
  else s.engFinish o 0 0

/-- Have all of an operation's writes been sent: none is held at its fabric unit or waits at a port (18 R429)? -/
def State.opSent (s : State) (id : Nat) : Bool :=
  s.fabric.remotes.all fun r =>
    r.use != .engineWrite id ||
      !(r.heldAtUnit || r.port.isNone ||
        (s.link (r.port.getD 0)).txWait.any fun p => p.srcunit == r.pkt.srcunit && p.reqid == r.pkt.reqid)

/-- An operation whose own work is done: a slipped copy ends when its writes are sent, any other when they are
acknowledged (15 R409). -/
def State.engSettle (s : State) (o : EngineOp) : State :=
  if s.opWrites o.id && !(o.slip.isSome && s.opSent o.id) then s else s.engFinish o 0 0

end Sys2Proof.Machine
end

