-- ==== Sys2Proof/Machine/HotRows.lean ====
section
/-! DEFINITION. The hot-row cache of a context's groups: registers, sketch and directory (10 R249 to R252). -/

namespace Sys2Proof.Machine

open Sys2Proof

/-! ## The attendance sketch (10 R251) -/

/-- The multipliers M_j. -/
def sketchMul (j : Nat) : Nat :=
  match j with
  | 0 => 0x8F3A61C52B9DE477
  | 1 => 0xB54C0E937A1F6D2B
  | 2 => 0xC7E19A4D3F06B581
  | _ => 0xE29D5B1784C30A6F

/-- Where the counter of a hash row and a key stands. -/
def sketchSlot (j key : Nat) : Nat := j * 65536 + key * sketchMul j % 2 ^ 64 / 2 ^ 48

/-- A hot-row group of a context. -/
def State.hotGroup (s : State) (n g : Nat) : HotGroup := (s.ctx n).hrg.getD {} g
/-- Change a hot-row group. -/
def State.modHot (s : State) (n g : Nat) (f : HotGroup → HotGroup) : State :=
  s.modCtx n fun c => { c with hrg := c.hrg.upd {} g f }

/-- The physical address of a counter: the sketch is the first 256 KiB of the group's region (10 R249). -/
def HotGroup.sketchPa (g : HotGroup) (i : Nat) : Nat := g.base.toNat * 2 ^ 16 + i

/-- A counter of a context's group; the region is under the context's key. -/
def State.sketchAt (s : State) (n : Nat) (g : HotGroup) (i : Nat) : Nat :=
  (s.physByte (ctxSlot n) (g.sketchPa i) 0).toNat

/-- `estimate`. -/
def State.estimate (s : State) (n : Nat) (g : HotGroup) (key : Nat) : Nat :=
  min (min (s.sketchAt n g (sketchSlot 0 key)) (s.sketchAt n g (sketchSlot 1 key)))
    (min (s.sketchAt n g (sketchSlot 2 key)) (s.sketchAt n g (sketchSlot 3 key)))

/-- Every counter of a sketch is halved. -/
def State.halveSketch (s : State) (g : HotGroup) : State :=
  s.onMem fun m =>
    let mine := m.bytes.filter fun c => decide (g.sketchPa 0 ≤ c.1) && decide (c.1 < g.sketchPa 0x40000)
    let halve (b : List Host.Cell) (c : Host.Cell) : List Host.Cell := cellSet b c.1 (c.2 / 2)
    { m with bytes := mine.foldl halve m.bytes }

/-- Every counter of a sketch is zero: written so, under the context's key. -/
def State.zeroSketch (s : State) (n : Nat) (g : HotGroup) : State :=
  let lo := g.sketchPa 0
  let l := lo / 64
  s.onMem fun m =>
    { m with
      bytes := m.bytes.filter fun c => !(decide (lo ≤ c.1) && decide (c.1 < lo + 0x40000))
      poison := m.poison.filter fun x => !(decide (l ≤ x.1) && decide (x.1 < l + 4096))
      lineKey := (m.lineKey.filter fun x => decide (x.1 < l)) ++
        ((List.range 4096).map fun i => (l + i, s.keyNum (ctxSlot n))) ++
        m.lineKey.filter fun x => decide (l + 4096 ≤ x.1) }

/-- `sketch_count`. -/
def State.sketchCount (s : State) (n gi key : Nat) : State :=
  let g := s.hotGroup n gi
  let bump (s : State) (j : Nat) : State :=
    let i := sketchSlot j key
    s.physWrite (ctxSlot n) (g.sketchPa i) [BitVec.ofNat 8 (min (s.sketchAt n g i + 1) 255)]
  let s1 := (List.range 4).foldl bump s
  let looks := (g.looks + 1) % 2 ^ 20
  (if looks = 0 then s1.halveSketch g else s1).modHot n gi fun g => { g with looks := looks }

/-! ## The directory (10 R250) -/

/-- What a lookup finds; ways are numbered 8 * set + way. -/
inductive Lookup where
  | hit (w : Nat)
  | miss
  | fill (w : Nat)
  deriving DecidableEq, Repr

/-- A way. -/
def HotGroup.way (g : HotGroup) (w : Nat) : WayPhase × BitVec 64 := g.ways.getD (.invalid, 0) w
/-- Set a way. -/
def HotGroup.setWay (g : HotGroup) (w : Nat) (p : WayPhase) (tag : BitVec 64) : HotGroup :=
  { g with ways := if p = .invalid then g.ways.del w else g.ways.put w (p, tag) }
/-- A way becomes the most recently used. -/
def HotGroup.touch (g : HotGroup) (w : Nat) : HotGroup := { g with lru := g.lru.filter (· != w) ++ [w] }

/-- The set of a key. -/
def HotGroup.setOf (g : HotGroup) (key : Nat) : Nat :=
  if g.log2sets = 0 then 0 else key * sketchMul 0 % 2 ^ 64 / 2 ^ (64 - g.log2sets.toNat)

/-- The ways of a key's set. -/
def HotGroup.waysOf (g : HotGroup) (key : Nat) : List Nat := (List.range 8).map fun i => 8 * g.setOf key + i

/-- The way that holds a key in a state. -/
def HotGroup.find (g : HotGroup) (key : Nat) (p : WayPhase) : Option Nat :=
  (g.waysOf key).find? fun w => g.way w == (p, BitVec.ofNat 64 key)

/-- The victim of a set: the lowest INVALID way, else the least recently used VALID one. -/
def HotGroup.victim (g : HotGroup) (key : Nat) : Option Nat :=
  match (g.waysOf key).find? fun w => (g.way w).1 == .invalid with
  | some w => some w
  | none => g.lru.find? fun w => (g.waysOf key).contains w && (g.way w).1 == .valid

/-- `lookup`, given the estimate of each key. -/
def HotGroup.lookup (g : HotGroup) (est : Nat → Nat) (key stride : Nat) : Lookup × HotGroup :=
  match g.find key .valid with
  | some w => (.hit w, { g.touch w with hits := min (g.hits + 1) (2 ^ 64 - 1) })
  | none =>
    if g.slot.toNat * 64 < stride || (g.find key .filling).isSome then (.miss, g)
    else
      match g.victim key with
      | none => (.miss, g)
      | some w =>
        if (g.way w).1 = .valid ∧ est key ≤ est (g.way w).2.toNat then
          (.miss, { g with refused := min (g.refused + 1) (2 ^ 32 - 1) })
        else
          (.fill w, { g.setWay w .filling (BitVec.ofNat 64 key) with admits := min (g.admits + 1) (2 ^ 32 - 1) })

/-- A lookup of a key in a group of a context; that of an EMBG counts in the sketch (10 R250, R251). -/
def State.hotLookup (s : State) (n gi key stride : Nat) (count : Bool) : Lookup × State :=
  let s1 := if count then s.sketchCount n gi key else s
  let g := s1.hotGroup n gi
  let (r, g1) := g.lookup (s1.estimate n g) key stride
  (r, s1.modHot n gi fun _ => g1)

/-- The physical address of a way's slot (10 R249). -/
def HotGroup.slotPa (g : HotGroup) (w : Nat) : Nat := g.base.toNat * 2 ^ 16 + 0x40000 + w * g.slot.toNat * 64

/-- The bytes of a group's region. -/
def HotGroup.size (g : HotGroup) : Nat := 0x40000 + 8 * 2 ^ g.log2sets.toNat * g.slot.toNat * 64

/-- HOT_ROW_FILL_COMPLETE (10 R250): a way that still fills becomes VALID, or INVALID where the fill failed. -/
def execHotRowFillComplete (s : State) : Out :=
  .next (match s.arg with
    | .fill n g set way ok =>
      let w := 8 * set + way
      let x := s.hotGroup n g
      if (x.way w).1 = .filling then
        s.modHot n g fun x => if ok then (x.setWay w .valid (x.way w).2).touch w else x.setWay w .invalid 0
      else s
    | _ => s)

/-! ## The registers (10 R249) -/

/-- The first address after a die's HBM4E. -/
def hbmSpan : Nat := 0x1800000000

/-- May a group be enabled: its region on one die, apart from every other enabled one, and 64 GiB in all? -/
def State.hotFits (s : State) (n g : Nat) : Bool :=
  let x := s.hotGroup n g
  let lo := x.base.toNat * 2 ^ 16
  let hi := lo + x.size
  let others : List (Nat × Nat × HotGroup) :=
    s.host.ctxs.flatMap fun (m, c) => (c.hrg.filter fun (i, y) => y.en && !(m == n && i == g)).map fun (i, y) => (m, i, y)
  let clash := others.any fun y =>
    decide (y.2.2.base.toNat * 2 ^ 16 < hi) && decide (lo < y.2.2.base.toNat * 2 ^ 16 + y.2.2.size)
  let total := ((others.filter fun y => y.1 == n).map fun y => y.2.2.size).sum + x.size
  lo / hbmSpan == (hi - 1) / hbmSpan && decide (hi ≤ 4 * hbmSpan) && !clash && decide (total ≤ 2 ^ 36)

/-- EN is written from 0 to 1. -/
def State.hotEnable (s : State) (n g : Nat) : State :=
  if (s.hotGroup n g).en then s
  else if s.hasLaunch n then s.wrign n
  else if s.hotFits n g then
    ((s.zeroSketch n (s.hotGroup n g)).modHot n g fun x =>
      { x with en := true, busy := true, looks := 0, ways := [], lru := [] }).postFree .hotRowGroupReady (.num2 n g)
  else s.modHot n g fun x => { x with bad := true }

/-- FLUSH. -/
def State.hotFlush (s : State) (n g : Nat) : State :=
  (s.modHot n g fun x => { x with busy := true, ways := [], lru := [] }).postFree .hotRowGroupReady (.num2 n g)

/-- HOT_ROW_GROUP_ENABLE. -/
def execHotRowGroupEnable (s : State) : Out :=
  .next (match s.arg with
    | .num2 n g => s.whenCtxBar n fun s => if g < 16 then s.hotEnable n g else s
    | _ => s)

/-- HOT_ROW_GROUP_FLUSH. -/
def execHotRowGroupFlush (s : State) : Out :=
  .next (match s.arg with
    | .num2 n g => s.whenCtxBar n fun s => if g < 16 then s.hotFlush n g else s
    | _ => s)

/-- HOT_ROW_GROUP_READY. -/
def execHotRowGroupReady (s : State) : Out :=
  .next (match s.arg with
    | .num2 n g => s.modHot n g fun x => { x with busy := false }
    | _ => s)

/-- May the geometry and region of a group be changed now? -/
def State.hotLocked (s : State) (n g : Nat) : Bool := s.hasLaunch n || (s.hotGroup n g).en

/-- A write of HRGA(g). -/
def State.writeHrga (s : State) (n g : Nat) (h : Half) (v : Word) : State :=
  let x := s.hotGroup n g
  let w := regMerge (BitVec.ofNat 64 (flag x.en + x.base.toNat * 2 ^ 16)) h v
  let base := w.extractLsb' 16 36
  let s1 := s.modHot n g fun x => { x with bad := x.bad && !bitSet h v 3 }
  let s2 := if base = x.base then s1
    else if s.hotLocked n g then s1.wrign n
    else s1.modHot n g fun x => { x with base := base }
  let s3 := if bitSet h v 1 then s2.hotFlush n g else s2
  if w.getLsbD 0 then s3.hotEnable n g else s3.modHot n g fun x => { x with en := false }

/-- A write of HRGB(g). -/
def State.writeHrgb (s : State) (n g : Nat) (h : Half) (v : Word) : State :=
  let x := s.hotGroup n g
  let w := regMerge (BitVec.ofNat 64 (x.log2sets.toNat + x.slot.toNat * 2 ^ 5)) h v
  let sets : BitVec 5 := if 24 < wordField w 0 5 then 24 else w.extractLsb' 0 5
  let slot : BitVec 8 := if wordField w 5 8 = 0 then 1 else if 64 < wordField w 5 8 then 64 else w.extractLsb' 5 8
  if h = .hi then s
  else if s.hotLocked n g then s.wrign n
  else s.modHot n g fun x => { x with log2sets := sets, slot := slot }

end Sys2Proof.Machine
end

