-- ==== Sys2Proof/Machine/Pannier.lean ====
section
/-! DEFINITION. Embedding tables: descriptors, rows and indices, the probe pass, exact pooling, EMBG and EMBU (10 R241 to
R254; 15 R412; 16 R422). -/

namespace Sys2Proof.Machine

open Sys2Proof

/-! ## Table descriptors (10 R241, R242) -/

/-- A table descriptor. -/
structure TabDesc where
  addr : Nat
  base : Nat
  nrows : Nat
  width : Nat
  ty : Ty
  mode : Nat
  cmb : Bool
  tabid : Nat
  hrg : Nat
  hrv : Bool
  hasha : Nat
  q : Nat
  t1 : Nat
  t2 : Nat
  deriving DecidableEq, Repr

/-- A descriptor with those of its parts, in COMPOSED mode. -/
structure TabSet where
  d : TabDesc
  parts : Option (TabDesc × TabDesc)
  deriving DecidableEq, Repr

/-- Is an element format quantised: its rows have a trailer? -/
def tyQuant : Ty → Bool
  | .e4m3 | .d8 | .s8 | .i4 => true
  | _ => false

/-- Data bytes of a row. -/
def TabDesc.dataBytes (d : TabDesc) : Nat := (d.width * tyBits d.ty + 7) / 8
/-- DB: where the trailer starts. -/
def TabDesc.db (d : TabDesc) : Nat := (d.dataBytes + 1) / 2 * 2
/-- The bytes of a row. -/
def TabDesc.rowBytes (d : TabDesc) : Nat := if tyQuant d.ty then d.db + 4 else d.dataBytes
/-- The row stride. -/
def TabDesc.stride (d : TabDesc) : Nat := (d.rowBytes + 15) / 16 * 16
/-- The address of a row. -/
def TabDesc.rowVa (d : TabDesc) (n : Nat) : Nat := (d.base + n * d.stride) % 2 ^ 57

/-- A descriptor from its 64 bytes. -/
def descOf (addr : Nat) (b : List Byte) : TabDesc :=
  let m := fieldAt b 0x13 1
  { addr := addr, base := fieldAt b 0 8 % 2 ^ 57, nrows := fieldAt b 8 8, width := fieldAt b 0x10 2
    ty := tyOfFmtCode (fieldAt b 0x12 1), mode := m % 4, cmb := m / 4 % 2 == 1, tabid := fieldAt b 0x14 2
    hrg := fieldAt b 0x16 1 % 16, hrv := decide (128 ≤ fieldAt b 0x16 1), hasha := fieldAt b 0x18 8
    q := fieldAt b 0x20 8, t1 := fieldAt b 0x28 8 % 2 ^ 57, t2 := fieldAt b 0x30 8 % 2 ^ 57 }

/-- The rules of a descriptor's own fields. -/
def descOk (b : List Byte) : Bool :=
  let m := fieldAt b 0x13 1
  let mode := m % 4
  let efmt := fieldAt b 0x12 1
  let q := fieldAt b 0x20 8
  let hash := fieldAt b 0x18 8
  mode != 3 && m / 8 == 0 && (mode == 2 || m / 4 % 2 == 0) &&
  decide (1 ≤ fieldAt b 8 8) && decide (fieldAt b 8 8 < 2 ^ 48) &&
  decide (1 ≤ fieldAt b 0x10 2) && decide (fieldAt b 0x10 2 ≤ 1024) &&
  fieldAt b 0x16 1 / 16 % 8 == 0 && fieldAt b 0x17 1 == 0 && fieldAt b 0x38 8 == 0 &&
  (if mode = 2 then fieldAt b 0 8 == 0 && efmt == 0 else [0, 1, 2, 3, 5, 6, 7].contains efmt && fieldAt b 0 1 % 16 == 0) &&
  (if mode = 1 then hash % 2 == 1 else hash == 0) &&
  (if mode = 2 then decide (1 ≤ q) && decide (q < 2 ^ 48) else q == 0 && fieldAt b 0x28 8 == 0 && fieldAt b 0x30 8 == 0)

/-- Read one descriptor. -/
def engDesc (o : EngineOp) (addr : Nat) : Eng TabDesc := do
  engNeedAt addr (addr % 64 == 0)
  let b ← engReadOnce o addr 64
  engNeedAt addr (descOk b)
  pure (descOf addr b)

/-- Read the descriptor of a table, and those of its parts. -/
def engTable (o : EngineOp) (addr : Nat) : Eng TabSet := do
  let d ← engDesc o addr
  if d.mode = 2 then
    let t1 ← engDesc o d.t1
    let t2 ← engDesc o d.t2
    engNeedAt addr (t1.mode == 0 && t2.mode == 0 && t1.width == d.width && t2.width == d.width)
    pure ⟨d, some (t1, t2)⟩
  else pure ⟨d, none⟩

/-- `rows_of` (10 R243): none is Bad. -/
def TabSet.rowsOf (t : TabSet) (idx : Nat) : Option (List (TabDesc × Nat)) :=
  let d := t.d
  match d.mode, t.parts with
  | 0, _ => if idx < d.nrows then some [(d, idx)] else none
  | 1, _ => some [(d, idx * d.hasha % 2 ^ 64 / 2 ^ 32 % d.nrows)]
  | _, some (t1, t2) =>
    if d.nrows ≤ idx ∨ t1.nrows ≤ idx / d.q ∨ t2.nrows ≤ idx % d.q then none
    else some [(t1, idx / d.q), (t2, idx % d.q)]
  | _, none => none

/-! ## The probe pass (10 R244, R245) -/

/-- Pin a page until the command completes: its translation stands until then (10 R245). -/
def State.pinPage (s : State) (id ctx page pa : Nat) (evf : Bool) : State :=
  let s1 := s.onMem fun m => if m.pins.contains (id, ctx, page) then m else { m with pins := (id, ctx, page) :: m.pins }
  s1.modOp id fun o => if o.pinned.any (·.1 == page) then o else { o with pinned := (page, pa, evf) :: o.pinned }

/-- Translate and pin one page of a row; none where its translation is fatal or its home is no pannier. -/
def engProbePage (o : EngineOp) (kind : AccKind) (va n : Nat) : Eng (Option (Nat × Nat × Loc)) := do
  let s ← get
  match (s.opNow o).pinLoc va with
  | some loc => pure (some (va, n, loc))
  | none =>
  match s.ctxAccess o.ctx va n kind with
  | .resolve v cow level => throw (.park v cow level)
  | .ok (.phys pa p e) =>
    match regionOf s pa with
    | some (.lpddr _) =>
      set (s.pinPage o.id o.ctx (va / 2 ^ 16) (pa - va % 2 ^ 16) e)
      pure (some (va, n, .phys pa p e))
    | _ => pure none
  | _ => pure none

/-- Probe the pages of a row. -/
def engProbePages (o : EngineOp) (kind : AccKind) : List (Nat × Nat) → Eng (Option (List (Nat × Nat × Loc)))
  | [] => pure (some [])
  | (va, n) :: rest => do
    match ← engProbePage o kind va n with
    | none => pure none
    | some x =>
      match ← engProbePages o kind rest with
      | none => pure none
      | some l => pure (some (x :: l))

/-- Probe a row: its translated pieces, or none. -/
def engProbeRow (o : EngineOp) (kind : AccKind) (d : TabDesc) (n : Nat) : Eng (Option (List (Nat × Nat × Loc))) :=
  engProbePages o kind (cuts 0x10000 (d.rowVa n) d.rowBytes)

/-- Probe rows. -/
def engProbeRows (o : EngineOp) (kind : AccKind) : List (TabDesc × Nat) → Eng Bool
  | [] => pure true
  | (d, n) :: rest => do
    match ← engProbeRow o kind d n with
    | none => pure false
    | some _ => engProbeRows o kind rest

/-- Probe the indices of a bag until one is Bad: is the bag good? -/
def engProbe (o : EngineOp) (kind : AccKind) (t : TabSet) : List Nat → Eng Bool
  | [] => pure true
  | i :: rest => do
    match t.rowsOf i with
    | none => pure false
    | some rows => if ← engProbeRows o kind rows then engProbe o kind t rest else pure false

/-! ## Exact pooling (10 R247) -/

/-- A finite value in units of 2^-149. -/
def fixVal (neg : Bool) (m : Nat) (e : Int) : Int := signed neg (shiftInt m (e + 149))

/-- `add_term`. -/
def accAdd (a : Accum) (x : FpVal) : Accum :=
  match x with
  | .nan => { a with nan := true }
  | .inf false => { a with pinf := true }
  | .inf true => { a with ninf := true }
  | .fin neg m e => { a with sum := a.sum + fixVal neg m e }

/-- The greater of two finite terms, -0 below +0. -/
def bestOf (a b : Option (Bool × Nat × Int)) : Option (Bool × Nat × Int) :=
  match a, b with
  | none, x => x
  | x, none => x
  | some (n1, m1, e1), some (n2, m2, e2) =>
    if cmpValZ (.fin n1 m1 e1) (.fin n2 m2 e2) == .lt then some (n2, m2, e2) else some (n1, m1, e1)

/-- A term of a MAX bag. -/
def accMax (a : Accum) (x : FpVal) : Accum :=
  match x with
  | .nan => { a with nan := true }
  | .inf false => { a with pinf := true }
  | .inf true => { a with ninf := true }
  | .fin neg m e => { a with best := bestOf a.best (some (neg, m, e)) }

/-- `merge`, the greatest terms of MAX bags with it. -/
def accMerge (a b : Accum) : Accum :=
  { sum := a.sum + b.sum, pinf := a.pinf || b.pinf, ninf := a.ninf || b.ninf, nan := a.nan || b.nan
    best := bestOf a.best b.best }

/-- The exact quotient of a sum in units of 2^-149, with enough bits for its one rounding. -/
def sumVal (sum : Int) (div : Nat) : FpVal :=
  if sum = 0 then .fin false 0 0
  else if div ≤ 1 then .fin (decide (sum < 0)) sum.natAbs (-149)
  else
    let (m, e) := divMag 64 sum.natAbs (-149) div 0
    .fin (decide (sum < 0)) m e

/-- `finish`. -/
def accFinish (a : Accum) (div : Nat) (out : Ty) : Nat :=
  if a.nan || (a.pinf && a.ninf) then canonNaN out
  else if a.pinf then (convert (.inf false) out .rne false).1
  else if a.ninf then (convert (.inf true) out .rne false).1
  else (convert (sumVal a.sum div) out .rne false).1

/-- The result of a MAX bag. -/
def accBest (a : Accum) (out : Ty) : Nat :=
  if a.nan then canonNaN out
  else if a.pinf then (convert (.inf false) out .rne false).1
  else
    match a.best with
    | some (n, m, e) => (convert (.fin n m e) out .rne false).1
    | none => if a.ninf then (convert (.inf true) out .rne false).1 else 0

/-- rne_f32 of an exact value, as a value. -/
def rneF32 (x : FpVal) : FpVal := decodeTy .f32 (convert x .f32 .rne false).1

/-- The code of element `i` of a row. -/
def TabDesc.code (d : TabDesc) (row : List Byte) (i : Nat) : Nat :=
  let n := tyBits d.ty
  if n = 4 then fieldAt row (i / 2) 1 / 16 ^ (i % 2) % 16 else fieldAt row (n / 8 * i) (n / 8)

/-- The element values of a row (10 R242), those of quantised formats dequantised without rounding (R247; 08 R216). -/
def TabDesc.values (d : TabDesc) (row : List Byte) : List FpVal :=
  let scale := decodeTy .f16 (fieldAt row d.db 2)
  let bias := decodeTy .f16 (fieldAt row (d.db + 2) 2)
  (List.range d.width).map fun i =>
    let x := decodeTy d.ty (d.code row i)
    if tyQuant d.ty then (addVal .rne (mulVal x scale).1 bias).1 else x

/-- The elements of an index, from its row or from the two rows of a COMPOSED table (10 R243). -/
def TabSet.combine (t : TabSet) (rows : List (List FpVal)) : List FpVal :=
  match rows with
  | [a, b] => List.zipWith (fun x y => rneF32 (if t.d.cmb then mulVal x y else addVal .rne x y).1) a b
  | a :: _ => a
  | [] => []

/-- Add an index's elements to the accumulators of its bag: 0 SUM, 1 MEAN, 2 WSUM, 3 MAX. -/
def poolStep (pool : Nat) (w : FpVal) (accs : List Accum) (xs : List FpVal) : List Accum :=
  List.zipWith (fun a x => if pool = 3 then accMax a x else accAdd a (if pool = 2 then rneF32 (mulVal w x).1 else x)) accs xs

/-! ## The data pass (10 R246, R250, R252) -/

/-- Read a row from its pannier; or the address of a poisoned beat. -/
def engRowBytes (o : EngineOp) (kind : AccKind) (d : TabDesc) (n : Nat) : Eng (List Byte ⊕ Nat) := do
  let locs ← engLocs o (d.rowVa n) d.rowBytes kind
  let s ← get
  match locs.findSome? fun x => match x.2.2, s.locPoison x.2.2 x.2.1 with
      | .phys pa _ _, some l => some (x.1 + (l - pa))
      | _, _ => none with
  | some va => pure (.inr va)
  | none =>
    let bs ← locs.mapM (engReadLoc o)
    engCount o d.rowBytes
    pure (.inl bs.flatten)

/-- The directory key of a row (10 R250). -/
def TabDesc.key (d : TabDesc) (n : Nat) : Nat := d.tabid * 2 ^ 48 + n % 2 ^ 48

/-- Does the table use an enabled group of the context? -/
def State.usesHot (s : State) (ctx : Nat) (d : TabDesc) : Bool := d.hrv && (s.hotGroup ctx d.hrg).en

/-- Read a row in the data pass, through the hot-row cache. -/
def engDataRow (o : EngineOp) (d : TabDesc) (n : Nat) : Eng (List Byte ⊕ Nat) := do
  let s ← get
  if s.usesHot o.ctx d then
    let (r, s1) := s.hotLookup o.ctx d.hrg (d.key n) d.stride (o.eop == 0x08)
    let g := s1.hotGroup o.ctx d.hrg
    set s1
    match r with
    | .miss => engRowBytes o .load d n
    | .hit w =>
      match s1.poisonedLine (g.slotPa w) d.rowBytes with
      | some _ =>
        modify fun s => s.modHot o.ctx d.hrg fun g => g.setWay w .invalid 0
        engRowBytes o .load d n
      | none =>
        let (bs, s2) := s1.physRead (ctxSlot o.ctx) (g.slotPa w) d.rowBytes
        set s2
        engCount o d.rowBytes
        pure (.inl bs)
    | .fill w =>
      let x ← engRowBytes o .load d n
      let put (s : State) : State :=
        match x with
        | .inl bs => s.physWrite (ctxSlot o.ctx) (g.slotPa w) bs
        | .inr _ => s
      modify fun s => (put s).postFree .hotRowFillComplete (.fill o.ctx d.hrg (w / 8) (w % 8) x.isLeft)
      pure x
  else engRowBytes o .load d n

/-- Read the rows of an index. -/
def engIndexRows (o : EngineOp) : List (TabDesc × Nat) → Eng (List (List FpVal) ⊕ Nat)
  | [] => pure (.inl [])
  | (d, n) :: rest => do
    match ← engDataRow o d n with
    | .inr va => pure (.inr va)
    | .inl bs =>
      match ← engIndexRows o rest with
      | .inr va => pure (.inr va)
      | .inl l => pure (.inl (d.values bs :: l))

/-- Pool the indices of a bag, each with its weight; or the address of a poisoned beat. -/
def engPool (o : EngineOp) (t : TabSet) (pool : Nat) : List (Nat × Nat) → List Accum → Eng (List Accum ⊕ Nat)
  | [], accs => pure (.inl accs)
  | (idx, w) :: rest, accs => do
    match ← engIndexRows o ((t.rowsOf idx).getD []) with
    | .inr va => pure (.inr va)
    | .inl rows => engPool o t pool rest (poolStep pool (decodeTy .f32 w) accs (t.combine rows))

/-! ## EMBG (15 R412; 10 R244 to R246; 16 R422) -/

/-- The fields that EMBG and A2A share. -/
structure BagCmd where
  idx : Nat
  off : Nat
  wgt : Nat
  dst : Nat
  stat : Nat
  nbags : Nat
  nidx : Nat
  pool : Nat
  ofmt : Nat
  bfm : Nat
  ostr : Nat
  deriving DecidableEq, Repr

/-- Bytes of an output element. -/
def BagCmd.esize (c : BagCmd) : Nat := tyBits (tyOfFmtCode c.ofmt) / 8

/-- The rules of those fields, but for those that need WIDTH. -/
def BagCmd.ok (c : BagCmd) : Bool :=
  c.idx % 8 == 0 && c.off % 4 == 0 && (c.wgt == 0 || c.pool == 2) && (c.stat != 0 || c.bfm != 0) &&
  decide (c.nbags ≤ 2 ^ 24) && decide (c.pool ≤ 3) && [0, 1, 2, 5].contains c.ofmt && decide (c.bfm ≤ 1) &&
  c.dst % c.esize == 0 && c.ostr % c.esize == 0

/-- The rule of OSTR. -/
def BagCmd.fits (c : BagCmd) (width : Nat) : Bool := decide (width * c.esize ≤ c.ostr)

/-- The bag offsets, which rise and stay within the list. -/
def engOffsets (o : EngineOp) (c : BagCmd) : Eng (List Nat) := do
  let b ← engReadOnce o c.off (4 * (c.nbags + 1))
  let l := (List.range (c.nbags + 1)).map fun i => fieldAt b (4 * i) 4
  engNeed o ((List.zipWith (fun x y => decide (x ≤ y)) l (l.drop 1)).all id && decide (l.getLastD 0 ≤ c.nidx))
  pure l

/-- The bounds of each bag. -/
def bagBounds (offs : List Nat) : List (Nat × Nat) := offs.zip (offs.drop 1)

/-- The indices of a bag with their weights; an overlong bag has none. -/
def engItems (o : EngineOp) (c : BagCmd) (x : Nat × Nat) : Eng (Option (List (Nat × Nat))) := do
  let n := x.2 - x.1
  if 65536 < n then pure none
  else
    let idx ← engReadOnce o (c.idx + 8 * x.1) (8 * n)
    let wgt ← if c.pool = 2 then engReadOnce o (c.wgt % 2 ^ 57 + 4 * x.1) (4 * n) else pure []
    pure (some ((List.range n).map fun j => (fieldAt idx (8 * j) 8, fieldAt wgt (4 * j) 4)))

/-- The output bytes of a bag's elements. -/
def BagCmd.out (c : BagCmd) (count : Nat) (accs : List Accum) : List Byte :=
  let ty := tyOfFmtCode c.ofmt
  accs.flatMap fun a =>
    natLe c.esize (if c.pool = 3 then accBest a ty else accFinish a (if c.pool = 1 then max 1 count else 1) ty)

/-- The status vector of some Bad numbers below `n`. -/
def statusBytes (n : Nat) (bad : Nat → Bool) : List Byte :=
  (List.range ((n + 7) / 8)).map fun i =>
    BitVec.ofNat 8 (((List.range 8).map fun j => if decide (8 * i + j < n) && bad (8 * i + j) then 2 ^ j else 0).sum)

/-- Check every byte a command's bags and its status vector will be written to. -/
def engBagPlans (o : EngineOp) (c : BagCmd) (width : Nat) :
    Eng (List (List (Nat × Nat × Loc)) × List (Nat × Nat × Loc)) := do
  let plans ← (List.range c.nbags).mapM fun b => engPlan o (c.dst + b * c.ostr) (width * c.esize)
  let stat ← if c.bfm = 0 then engPlan o (c.stat % 2 ^ 57) ((c.nbags + 7) / 8) else pure []
  pure (plans, stat)

/-- Read and probe a bag: its indices and weights where it is good (10 R244). -/
def engProbeBag (o : EngineOp) (c : BagCmd) (t : TabSet) (x : (Nat × Nat) × Nat) : Eng (Option (List (Nat × Nat))) := do
  match ← engItems o c x.1 with
  | none => pure none
  | some l => if ← engJudge o x.2 (engProbe o .load t (l.map (·.1))) then pure (some l) else pure none

/-- Pool a good bag; in ABORT mode a poisoned beat leaves every output unspecified and ends the command. -/
def engBag (o : EngineOp) (c : BagCmd) (t : TabSet) (plans : List (List (Nat × Nat × Loc)))
    (x : Option (List (Nat × Nat))) : Eng (Option (List Byte)) := do
  match x with
  | none => pure none
  | some l =>
    match ← engPool o t c.pool l (List.replicate t.d.width {}) with
    | .inl accs => pure (some (c.out l.length accs))
    | .inr va =>
      if c.bfm = 0 then pure none
      else
        plans.forM fun p => do engPut o p (← engFree (t.d.width * c.esize))
        engFault cIntegrity va

/-- The fields of an EMBG. -/
def embgCmd (o : EngineOp) : BagCmd :=
  { idx := o.addr 0x18, off := o.addr 0x20, wgt := o.field 0x28 8, dst := o.addr 0x30, stat := o.field 0x38 8
    nbags := o.field 0x40 4, nidx := o.field 0x4C 4, pool := o.field 0x44 1, ofmt := o.field 0x45 1
    bfm := o.field 0x46 1, ostr := o.field 0x48 4 }

/-- EMBG. -/
def engEmbg (o : EngineOp) : Eng EngEnd := do
  engHeader o 0
  let c := embgCmd o
  engNeed o (c.ok && o.zero 0x47 1 && o.zero 0x50 48)
  let t ← engTable o (o.addr 0x10)
  engNeed o (c.fits t.d.width)
  let offs ← engOffsets o c
  let bags ← (bagBounds offs).zipIdx.mapM (engProbeBag o c t)
  if c.bfm = 1 ∧ bags.any (·.isNone) = true then pure (cEmbgAbort, c.idx)
  else
    let (plans, stat) ← engBagPlans o c t.d.width
    let outs ← bags.mapM (engBag o c t plans)
    (plans.zip outs).forM fun (p, x) => engPut o p (x.getD (zeros (t.d.width * c.esize)))
    if c.bfm = 0 then
      engPut o stat (statusBytes c.nbags fun b => (outs.getD b none).isNone)
    pure (0, 0)

/-! ## EMBU (15 R412; 10 R252 to R254) -/

/-- FP32 arithmetic of the optimisers: each operation rounds once. -/
def fAdd (a b : FpVal) : FpVal := rneF32 (addVal .rne a b).1
/-- Subtraction. -/
def fSub (a b : FpVal) : FpVal := rneF32 (addVal .rne a (negVal b)).1
/-- Multiplication. -/
def fMul (a b : FpVal) : FpVal := rneF32 (mulVal a b).1
/-- Division. -/
def fDiv (a b : FpVal) : FpVal := rneF32 (divVal a b).1
/-- Square root. -/
def fSqrt (a : FpVal) : FpVal := rneF32 (sqrtVal a).1
/-- The FP32 code of a value that is one already. -/
def fCode (a : FpVal) : Nat := (convert a .f32 .rne false).1

/-- The parameters of an optimiser. -/
structure OptParams where
  lr : FpVal
  eps : FpVal
  b1 : FpVal
  ob1 : FpVal
  b2 : FpVal
  ob2 : FpVal
  c1 : FpVal
  c2 : FpVal
  deriving Repr

/-- Those of the block. -/
def optParams (o : EngineOp) : OptParams :=
  let p (off : Nat) : FpVal := decodeTy .f32 (o.field off 4)
  ⟨p 0x40, p 0x44, p 0x48, p 0x4C, p 0x50, p 0x54, p 0x58, p 0x5C⟩

/-- One element under Adam: W, M and V. -/
def adamElem (p : OptParams) (w g m v : FpVal) : FpVal × FpVal × FpVal :=
  let m1 := fAdd (fMul p.b1 m) (fMul p.ob1 g)
  let v1 := fAdd (fMul p.b2 v) (fMul p.ob2 (fMul g g))
  let den := fAdd (fSqrt (fMul v1 p.c2)) p.eps
  (fSub w (fMul p.lr (fDiv (fMul m1 p.c1) den)), m1, v1)

/-- Row-wise Adagrad: the new S and the rate. -/
def adagradRate (p : OptParams) (g : List FpVal) (s : FpVal) : FpVal × FpVal :=
  let acc := g.foldl (fun a x => accAdd a (fMul x x)) {}
  let s1 := fAdd s (decodeTy .f32 (accFinish acc g.length .f32))
  (s1, fDiv p.lr (fAdd (fSqrt s1) p.eps))

/-- New weights and new state bytes of a row: optimiser 0 SGD, 1 Adagrad, 2 Adam (10 R254). -/
def optStep (opt : Nat) (p : OptParams) (w g : List FpVal) (state : List Byte) : List FpVal × List Byte :=
  let at_ (i : Nat) : FpVal := decodeTy .f32 (fieldAt state (4 * i) 4)
  match opt with
  | 0 => (List.zipWith (fun a b => fSub a (fMul p.lr b)) w g, [])
  | 1 =>
    let (s1, rate) := adagradRate p g (at_ 0)
    (List.zipWith (fun a b => fSub a (fMul rate b)) w g, natLe 4 (fCode s1))
  | _ =>
    let n := w.length
    let r := (List.range n).map fun i => adamElem p (w.getD i .nan) (g.getD i .nan) (at_ i) (at_ (n + i))
    (r.map (·.1), (r.map fun x => natLe 4 (fCode x.2.1)).flatten ++ (r.map fun x => natLe 4 (fCode x.2.2)).flatten)

/-- Where a row's optimiser state lies, and how many bytes it has (15 R412). -/
def optState (o : EngineOp) (width row : Nat) : Nat × Nat :=
  match o.field 0x3C 1 with
  | 0 => (0, 0)
  | 1 => (o.addr 0x28 + 4 * row, 4)
  | _ => (o.addr 0x28 + 8 * width * row, 8 * width)

/-- Probe the indices of an EMBU: each with its row, or dropped. -/
def engProbeUpdate (o : EngineOp) (t : TabSet) : List Nat → Eng (List (Option Nat))
  | [] => pure []
  | i :: rest => do
    let good ← engJudge o rest.length (engProbe o .store t [i])
    let l ← engProbeUpdate o t rest
    let row := ((t.rowsOf i).getD []).head?.map (·.2)
    pure ((if good then row else none) :: l)

/-- What an EMBU writes for one row: the checked places, and the bytes. -/
structure RowUpdate where
  row : Nat
  plan : List (Nat × Nat × Loc)
  data : List Byte
  statePlan : List (Nat × Nat × Loc)
  stateData : List Byte

/-- The gradient of a row: the exact sums of those of its indices, rounded once (10 R253). -/
def engGrad (o : EngineOp) (width : Nat) (js : List Nat) : Eng (List FpVal) := do
  let rows ← js.mapM fun j => engRead o (o.addr 0x20 + 4 * width * j) (4 * width)
  pure ((List.range width).map fun i =>
    decodeTy .f32 (accFinish (rows.foldl (fun a r => accAdd a (decodeTy .f32 (fieldAt r (4 * i) 4))) {}) 1 .f32))

/-- Compute the update of one row. -/
def engUpdate (o : EngineOp) (d : TabDesc) (kept : List (Option Nat)) (row : Nat) : Eng RowUpdate := do
  let js := (List.range kept.length).filter fun j => kept.getD j none == some row
  let g ← engGrad o d.width js
  let plan ← engPlan o (d.rowVa row) d.dataBytes
  match ← engRowBytes o .store d row with
  | .inr va => engFault cIntegrity va
  | .inl bs =>
    let (sva, sn) := optState o d.width row
    let state ← engRead o sva sn
    let splan ← engPlan o sva sn
    let (w, st) := optStep (o.field 0x3C 1) (optParams o) (d.values bs) g state
    let data := w.flatMap fun x => natLe (tyBits d.ty / 8) (convert x d.ty .rne false).1
    pure ⟨row, plan, data, splan, st⟩

/-- An updated row reaches the hot-row cache: a VALID slot that holds it is written, a way that fills with it becomes
INVALID (10 R252). -/
def State.hotUpdate (s : State) (ctx : Nat) (d : TabDesc) (row : Nat) (data : List Byte) : State :=
  if s.usesHot ctx d then
    let g := s.hotGroup ctx d.hrg
    match g.find (d.key row) .valid, g.find (d.key row) .filling with
    | some w, _ => s.physWrite (ctxSlot ctx) (g.slotPa w) data
    | none, some w => s.modHot ctx d.hrg fun g => g.setWay w .invalid 0
    | none, none => s
  else s

/-- Write one row's update. -/
def engPutUpdate (o : EngineOp) (d : TabDesc) (u : RowUpdate) : Eng Unit := do
  engPut o u.plan u.data
  engPut o u.statePlan u.stateData
  modify fun s => s.hotUpdate o.ctx d u.row u.data

/-- EMBU. -/
def engEmbu (o : EngineOp) : Eng EngEnd := do
  engHeader o 0
  let idx := o.addr 0x18
  let n := o.field 0x38 4
  engNeed o (idx % 8 == 0 && o.addr 0x20 % 4 == 0 && o.field 0x30 8 != 0 && decide (o.field 0x3C 1 ≤ 2) &&
    o.zero 0x3D 3 && o.zero 0x60 32)
  let t ← engTable o (o.addr 0x10)
  engNeed o (t.d.mode != 2 && [Ty.f32, .bf16, .f16].contains t.d.ty)
  let b ← engReadOnce o idx (8 * n)
  let kept ← engProbeUpdate o t ((List.range n).map fun j => fieldAt b (8 * j) 8)
  let stat ← engPlan o (o.addr 0x30) ((n + 7) / 8)
  let rows := (kept.filterMap id).foldl (fun l r => insertNat r l) []
  let ups ← rows.mapM (engUpdate o t.d kept)
  ups.forM (engPutUpdate o t.d)
  engPut o stat (statusBytes n fun j => (kept.getD j none).isNone)
  pure (0, 0)

end Sys2Proof.Machine
end

