-- ==== Sys2Proof/Machine/Timetable.lean ====
section
/-! DEFINITION. Router timetables: loading a bank, switching to it, and circuit flits that cross an output (02 R47 to
R49; 15 R417). -/

namespace Sys2Proof.Machine

open Sys2Proof

/-- Slots of a timetable. -/
abbrev slotsPerTable : Nat := 256

/-- The dies a die is girth-linked to (01 R11). -/
def girthNeighbours (die : Nat) : List Nat :=
  match die with
  | 0 => [1, 2, 5, 6, 7]
  | 1 => [0, 3, 4, 8, 9]
  | 2 => [0, 3, 5, 10, 11]
  | 3 => [1, 2, 4, 12, 13]
  | 4 => [1, 3]
  | 5 => [0, 2]
  | _ => []

/-- Does a router with this output exist (15 R417)? A port belongs to its hub. -/
def routerThere (r : RouterOut) : Bool :=
  match r.kind with
  | 0 => decide (r.die ≤ 3) && decide (r.index ≤ 23) && decide (r.out ≤ 12)
  | 1 => decide (r.die ≤ 5) && (girthNeighbours r.die).contains r.index && r.out == 0
  | 2 => decide (r.index ≤ 17) && r.die == portHub r.index && r.out == 0
  | _ => false

/-- Has a router this input? Those of a girth crossing and of a fabric port are not numbered in the spec: every value
of the field names one (log entry 3). -/
def routerHasInput (r : RouterOut) (i : Nat) : Bool := r.kind != 0 || decide (i ≤ 12)

/-- VALID of an entry (02 R47). -/
def ttValid (e : BitVec 32) : Bool := e.getLsbD 0
/-- INPUT of an entry. -/
def ttInput (e : BitVec 32) : Nat := (e.extractLsb' 2 6).toNat
/-- CIRCUIT of an entry. -/
def ttCircuit (e : BitVec 32) : Nat := (e.extractLsb' 8 12).toNat
/-- Does an entry set a reserved bit? -/
def ttReserved (e : BitVec 32) : Bool := e.getLsbD 1 || e.extractLsb' 20 12 != 0

/-- The timetable of an output. -/
def State.timetable (s : State) (r : RouterOut) : Timetable :=
  ((s.fabric.timetables.find? fun t => t.1 == r).map (·.2)).getD {}

/-- Set the timetable of an output. -/
def State.setTimetable (s : State) (r : RouterOut) (t : Timetable) : State :=
  s.onFabric fun x => { x with timetables := (r, t) :: x.timetables.filter fun y => y.1 != r }

/-- The bank in force. -/
def Timetable.now (t : Timetable) : List (BitVec 32) := if t.active then t.bank1 else t.bank0
/-- The other bank. -/
def Timetable.other (t : Timetable) : List (BitVec 32) := if t.active then t.bank0 else t.bank1
/-- The bank that is in force last: a loaded one that waits for its switch, or the one in force. -/
def Timetable.newest (t : Timetable) : List (BitVec 32) := if t.switchAt.isSome then t.other else t.now

/-- The entry of a slot; a slot of a bank that was never loaded is unassigned. -/
def slotOf (bank : List (BitVec 32)) (i : Nat) : BitVec 32 := bank.getD i 0

/-- Is a slot's entry one that a bank of the output cannot take (02 R48): an input connected to another output of the
router in the same slot, an input that the router lacks, or a reserved bit? -/
def State.slotConflict (s : State) (r : RouterOut) (entries : List (BitVec 32)) (i : Nat) : Bool :=
  let e := slotOf entries i
  ttReserved e ||
    (ttValid e && (!routerHasInput r (ttInput e) ||
      s.fabric.timetables.any fun t =>
        t.1 != r && t.1.die == r.die && t.1.kind == r.kind && t.1.index == r.index &&
          (let f := slotOf t.2.newest i
           ttValid f && ttInput f == ttInput e)))

/-- TT_CONFLICT of 02 R48. -/
def State.ttConflict (s : State) (r : RouterOut) (entries : List (BitVec 32)) : Bool :=
  (List.range slotsPerTable).any (s.slotConflict r entries)

/-- The drive circuits. -/
def driveCircuit (e : BitVec 32) : Bool := ttValid e && decide (4032 ≤ ttCircuit e) && decide (ttCircuit e ≤ 4095)

/-- A new bank keeps the drive circuits of the one in force and names no other (15 R417). -/
def State.ttDrive (s : State) (r : RouterOut) (entries : List (BitVec 32)) : Bool :=
  (List.range slotsPerTable).all fun i =>
    let old := slotOf (s.timetable r).now i
    let new := slotOf entries i
    if driveCircuit old then new == old else !driveCircuit new

/-- The slot count of a router: it advances once per cycle on on-die and girth routers, once per flit time at 16 lanes on
fabric ports (02 R47; log entry 3). -/
def State.slotCount (s : State) (r : RouterOut) : Nat := if r.kind = 2 then s.time / flitUnits else s.cycle

/-- Post an event to come `k` slots of a router from now. -/
def State.postSlots (s : State) (r : RouterOut) (k : Nat) (i : Instr) (a : EvArg) : State :=
  if r.kind = 2 then s.postTime (k * flitUnits) i a else s.post k i a

/-! ## Circuit flits (02 R47, R49) -/

/-- Does a bank assign one of its slots to a circuit: the first one from slot `i` on. -/
def circuitSlotFrom (bank : List (BitVec 32)) (circuit i : Nat) : Option Nat :=
  ((List.range slotsPerTable).map fun k => (i + k) % slotsPerTable).find? fun k =>
    ttValid (slotOf bank k) && ttCircuit (slotOf bank k) == circuit

/-- A circuit flit waits at its input for the entry of a slot. -/
def CircFlit.takes (f : CircFlit) (r : RouterOut) (e : BitVec 32) : Bool :=
  ttValid e && f.router == r && f.input == ttInput e && f.circuit == ttCircuit e

/-- The next slot of an output that is assigned to a circuit flit waiting for it is looked at when it comes. -/
def State.circuitNext (s : State) (r : RouterOut) (n : Nat) : State :=
  let t := s.timetable r
  let wanted (k : Nat) : Bool :=
    decide (t.free ≤ n + k) && s.fabric.circuitWait.any fun f => f.takes r (slotOf t.now ((n + k) % slotsPerTable))
  match (List.range slotsPerTable).find? fun k => wanted (k + 1) with
  | some k =>
    let a : EvArg := .router r (n + k + 1)
    if s.due.any (fun d => d.2 == (.circuitData, a)) || s.timers.any (fun d => d.2 == (.circuitData, a)) then s
    else s.postSlots r (k + 1) .circuitData a
  | none => s

/-- The hop delay of a mesh hop or a girth crossing (02 R49). -/
def hopDelay (r : RouterOut) : Nat := if r.kind = 1 then 6 else 2

/-- May a router output be next after another one: on the die that a girth crossing leads to, or another router of the
die (log entry 45)? -/
def routerFollows (x r : RouterOut) : Bool :=
  if r.kind = 1 then x.die == r.index && !(x.kind == 1 && x.index == r.die)
  else x.die == r.die && !(x.kind == r.kind && x.index == r.index)

/-- A flit that has left a router in slot `n` reaches the next one on its circuit, whose slot (n + D) modulo 256 then
comes; one that no router follows has been ejected (02 R49; log entry 45). -/
def State.nextHop (s : State) (r : RouterOut) (n : Nat) (f : CircFlit) : State :=
  let m := n + hopDelay r
  let next := s.fabric.timetables.filter fun x => routerFollows x.1 r
  let exact := next.find? fun x => circuitSlotFrom x.2.now f.circuit m == some (m % slotsPerTable)
  let any_ := next.find? fun x => (circuitSlotFrom x.2.now f.circuit m).isSome
  match (match exact with | some x => some x | none => any_) with
  | some (x, t) =>
    let input := ttInput (slotOf t.now ((circuitSlotFrom t.now f.circuit m).getD 0))
    if x.kind = 2 then
      let now := s.slotCount x + 1
      let k := (m + slotsPerTable - now % slotsPerTable) % slotsPerTable
      s.postSlots x (k + 1) .circuitData (.circuit x input f.circuit (now + k) f.pkt)
    else s.post (hopDelay r) .circuitData (.circuit x input f.circuit m f.pkt)
  | none => s

/-- The last flit of a packet has crossed an output: it goes on the link of a fabric port, or to the next router. -/
def State.circuitCrossed (s : State) (r : RouterOut) (n : Nat) (f : CircFlit) : State :=
  let s1 := s.onFabric fun x => { x with circuitOut := (r, f.pkt) :: x.circuitOut }
  if r.kind = 2 then s1.linkSend r.index { f.pkt with circuit := true }
  else if r.kind = 0 ∧ 4 ≤ r.out then s1
  else s1.nextHop r n f

/-- A flit crosses in slot `n`: a port below 16 lanes is then taken for 2 or 4 slots (02 R49). -/
def State.circuitCross (s : State) (r : RouterOut) (n : Nat) (f : CircFlit) : State :=
  let w := if r.kind = 2 then 2 ^ (s.link r.index).width else 1
  let s1 := s.setTimetable r { s.timetable r with free := n + w }
  if f.left ≤ 1 then
    (s1.onFabric fun x => { x with circuitWait := x.circuitWait.erase f }).circuitCrossed r n f
  else s1.onFabric fun x => { x with circuitWait := x.circuitWait.replace f { f with left := f.left - 1 } }

/-- Slot `n` of an output: the circuit flit that has waited longest for its entry crosses (02 R47). -/
def State.circuitSlot (s : State) (r : RouterOut) (n : Nat) : State :=
  let t := s.timetable r
  let e := slotOf t.now (n % slotsPerTable)
  let s1 := match (if t.free ≤ n then s.fabric.circuitWait.find? fun f => f.takes r e else none) with
    | some f => s.circuitCross r n f
    | none => s
  s1.circuitNext r n

/-- A circuit packet comes to an input of a router, whose slot count is `n`, and waits for its slots. -/
def State.circuitArrive (s : State) (r : RouterOut) (input circuit n : Nat) (p : Packet) : State :=
  (s.onFabric fun x =>
    { x with circuitWait := x.circuitWait ++ [⟨r, input, circuit, p, pktFlits p⟩] }).circuitSlot r n

/-- The place of a hub where a circuit packet waits that no output of the hub carries. -/
def noRouter (hub : Nat) : RouterOut := ⟨hub, 3, 0, 0⟩

/-- A hub sends a packet on a circuit: it waits at the output of the hub whose timetable carries the circuit, or until one
does. -/
def State.circuitInject (s : State) (hub circuit : Nat) (p : Packet) : State :=
  match s.fabric.timetables.find? fun x =>
      x.1.die == hub && x.1.kind != 0 && (circuitSlotFrom x.2.now circuit 0).isSome with
  | some (r, t) =>
    let input := ttInput (slotOf t.now ((circuitSlotFrom t.now circuit 0).getD 0))
    s.circuitArrive r input circuit (s.slotCount r) p
  | none => s.onFabric fun x =>
    { x with circuitWait := x.circuitWait ++ [⟨noRouter hub, 0, circuit, p, pktFlits p⟩] }

/-- Packets that no output carried try again. -/
def State.circuitRetry (s : State) : State :=
  let lost := s.fabric.circuitWait.filter fun f => f.router.kind == 3
  lost.foldl (fun s f => s.circuitInject f.router.die f.circuit f.pkt)
    (s.onFabric fun x => { x with circuitWait := x.circuitWait.filter fun f => f.router.kind != 3 })

/-! ## Banks (02 R48) -/

/-- Load the bank that is not active. It becomes active at the next slot 0 at or after its switch slot (02 R47, R48). -/
def State.loadBank (s : State) (r : RouterOut) (entries : List (BitVec 32)) (switchAt : Nat) : State :=
  let t := s.timetable r
  let bank := (List.range slotsPerTable).map (slotOf entries)
  let s1 := s.setTimetable r
    { t with
      bank0 := if t.active then bank else t.bank0
      bank1 := if t.active then t.bank1 else bank
      switchAt := some switchAt }
  let at_ := (max switchAt (s.slotCount r + 1) + 255) / 256 * 256
  s1.postSlots r (at_ - s.slotCount r) .timetableBankSwitch (.router r at_)

/-- TIMETABLE_BANK_WRITE (02 R48): the driver's write through the register window (03 R62), refused as a whole with a bad
entry. -/
def execTimetableBankWrite (s : State) : Out :=
  .next (match s.arg with
    | .bank r entries switchAt =>
      s.whenBar fun s =>
        if routerThere r = false ∨ s.ttConflict r entries = true then s else s.loadBank r entries switchAt
    | _ => s)

/-- TIMETABLE_BANK_SWITCH (02 R48). -/
def execTimetableBankSwitch (s : State) : Out :=
  .next (match s.arg with
    | .router r n =>
      let t := s.timetable r
      match t.switchAt with
      | some k =>
        if n % 256 = 0 ∧ k ≤ n then
          let s1 := s.setTimetable r { t with active := !t.active, switchAt := none }
          if s.fabric.circuitWait.isEmpty then s1 else (s1.circuitSlot r n).circuitRetry
        else s
      | none => s
    | _ => s)

/-- CIRCUIT_DATA (02 R36, R47, R49): circuit data comes to a router, a slot comes that waiting circuit data is assigned,
or circuit data is ejected at a hub, having come over a link. -/
def execCircuitData (s : State) : Out :=
  .next (match s.arg with
    | .circuit r input circuit n p => s.circuitArrive r input circuit n p
    | .router r n => s.circuitSlot r n
    | .packet hub p => s.onFabric fun x => { x with circuitIn := (hub, p) :: x.circuitIn }
    | _ => s)

/-! ## TTLOAD (15 R417) -/

/-- The router output that ROUTER names. -/
def routerOf (w : Nat) : RouterOut :=
  { die := w % 16, kind := w / 16 % 4, index := w / 2 ^ 6 % 32, out := w / 2 ^ 11 % 16 }

/-- The status of a load: 0 LOADED, 1 TT_CONFLICT, 2 NO_ROUTER, 3 DENIED. -/
def State.ttStatus (s : State) (n : Nat) (r : RouterOut) (entries : List (BitVec 32)) : Nat :=
  if !(s.ctx n).ttAllow then 3
  else if !routerThere r then 2
  else if s.ttConflict r entries || !s.ttDrive r entries then 1
  else 0

/-- TTLOAD. -/
def engTtload (o : EngineOp) : Eng EngEnd := do
  engHeader o 0
  let w := o.field 0x18 4
  let entries := o.addr 0x10
  let sw := o.field 0x20 8
  engNeed o (entries % 64 == 0 && decide (w < 2 ^ 15) && w / 16 % 4 != 3 && decide (sw < 2 ^ 48) && o.zero 0x28 24)
  let bs ← engRead o entries 1024
  let bank := (List.range slotsPerTable).map fun i => BitVec.ofNat 32 (fieldAt bs (4 * i) 4)
  let r := routerOf w
  let st := (← get).ttStatus o.ctx r bank
  if st = 0 then modify fun s => s.loadBank r bank sw
  engBack o 0x1C (natLe 4 st)
  pure (0, 0)

end Sys2Proof.Machine
end

