-- ==== Sys2Proof/Machine/Collect.lean ====
section
/-! DEFINITION. Fabric collectives: COLL and A2A from their opening to their end (02 R56, R57; 10 R255, R256; 15 R413 to
R415), and Ultra Ethernet (02 R59). -/

namespace Sys2Proof.Machine

open Sys2Proof

/-! ## Sending (02 R56, R59) -/

/-- Is an Ultra Ethernet port of a hub up: ports 0 to 3 are those of H0, 4 to 7 those of H1? -/
def State.uetUp (s : State) (hub : Nat) : Bool :=
  (List.range 4).any fun i => s.fabric.uet.getD false (i + if hub = 4 then 0 else 4)

/-- The connection of a hub under its number. -/
def uetKey (hub conn : Nat) : Nat := (hub - 4) * 65536 + conn

/-- One end of a connection. -/
def State.uetConn (s : State) (hub conn : Nat) : UetConn := s.fabric.uetConns.getD {} (uetKey hub conn)

/-- Change one end of a connection. -/
def State.modUet (s : State) (hub conn : Nat) (f : UetConn → UetConn) : State :=
  s.onFabric fun x => { x with uetConns := x.uetConns.upd {} (uetKey hub conn) f }

/-- Put a packet on a port of a hub, sprayed with one of 256 entropy values; with no port up it is lost, to be asked for
again. -/
def State.uetPut (s : State) (hub psn : Nat) (p : UetPacket) : State :=
  if s.uetUp hub then
    let (e, s1) := s.choose 256
    s1.onFabric fun x =>
      { x with uetOut := x.uetOut ++ [(hub, { psn := psn, ordered := false, entropy := e, trimmed := false, auth := true }, p)] }
  else s

/-- Send a packet on a connection: it takes the next number and is kept until it is acknowledged. A hub has 65,536
connections. -/
def State.uetSend (s : State) (hub conn : Nat) (p : UetPacket) : State :=
  if 65536 ≤ conn then s
  else
    let n := (s.uetConn hub conn).sent
    (s.modUet hub conn fun c => { c with sent := n + 1, unacked := c.unacked ++ [(n, p)] }).uetPut hub n p

/-- The bytes of collective data in the model's reckoning (log entry 3). -/
def CollBody.bytes : CollBody → Nat
  | .coll _ _ _ _ _ d => d.length
  | .count _ _ => 16
  | .bucket _ _ _ items => 20 * items.length
  | .partials _ accs _ _ => (accs.map fun a => 8 + 40 * a.2.length).sum

/-- The packets of a message: 4,096 bytes in each. -/
def uetParts (b : CollBody) : Nat := max 1 ((CollBody.bytes b + 4095) / 4096)

/-- Send collective data from an operation's hub: by circuit (0), best-effort (1), or over a connection (2). -/
def State.sendColl (s : State) (o : EngineOp) (c : CollState) (path conn : Nat) (m : BitVec 12) (b : CollBody) : State :=
  let p : Packet :=
    { op := 0x0C, dst := m, src := s.ownChip o.die, fctx := c.fctx, collid := c.collid, tag := cmdTag o.cmd
      circuit := path == 0, body := some b }
  match path with
  | 0 => s.circuitInject o.die conn p
  | 1 => s.sendPacket o.die p
  | _ =>
    let n := uetParts b
    (List.range n).foldl (fun s i => s.uetSend o.die conn (.send conn (s.ownChip o.die) m c.collid i n b)) s

/-- A collective of this chip is over: its identifier is remembered for 2^20 cycles. -/
def State.collClosed (s : State) (collid : BitVec 32) : State :=
  s.onFabric fun x =>
    { x with collDone := (collid, s.cycle) :: x.collDone.filter fun d => d.1 != collid && decide (s.cycle ≤ d.2 + 2 ^ 20) }

/-- The open collective of an identifier. -/
def State.collOp (s : State) (collid : BitVec 32) : Option (EngineOp × CollState) :=
  s.engines.ops.findSome? fun o =>
    match o.coll with
    | some c => if c.collid = collid ∧ o.ended = false then some (o, c) else none
    | none => none

/-! ## What a COLL names (15 R414, R415) -/

/-- KIND. -/
def collKind (o : EngineOp) : Nat := o.field 0x2E 1
/-- ROP. -/
def collRop (o : EngineOp) : Nat := o.field 0x2F 1
/-- ETY. -/
def collEty (o : EngineOp) : Nat := o.field 0x30 1
/-- COUNT. -/
def collCount (o : EngineOp) : Nat := o.field 0x28 4
/-- NMEMB. -/
def collNmemb (o : EngineOp) : Nat := o.field 0x2C 2
/-- PATH. -/
def collPath (o : EngineOp) : Nat := o.field 0x31 1
/-- ROOT. -/
def collRoot (o : EngineOp) : Nat := o.field 0x32 2

/-- The element type of an allowed type code. -/
def collTy (ety : Nat) : Ty :=
  match ety with
  | 0 => .f32 | 1 => .bf16 | 2 => .f16 | 9 => .s32 | _ => .z32

/-- Bytes of an element. -/
def collEsize (o : EngineOp) : Nat := tyBits (collTy (collEty o)) / 8

/-- Bytes of a member's source. -/
def collSrcLen (o : EngineOp) : Nat := collCount o * collEsize o * if collKind o = 2 then collNmemb o else 1
/-- Bytes of the destination. -/
def collDstLen (o : EngineOp) : Nat := collCount o * collEsize o * if collKind o = 1 then collNmemb o else 1

/-- An operation's destination and its length, for the dirty range (02 R57). -/
def collDst (o : EngineOp) : Nat × Nat :=
  if o.eop = 0x0B then (o.addr 0x18, collDstLen o) else (o.addr 0x38, o.field 0x48 4 * o.field 0x54 4)

/-- Where CSTAT, DLO and DHI stand in the block. -/
def collStat (o : EngineOp) : Nat × Nat × Nat := if o.eop = 0x0B then (0x60, 0x68, 0x70) else (0x68, 0x70, 0x78)

/-- Write CSTAT and the dirty range. -/
def State.writeCstat (s : State) (o : EngineOp) (st lo hi : Nat) : State :=
  let (a, b, c) := collStat o
  ((s.windowWrite (o.pblk + a) (natLe 4 st)).windowWrite (o.pblk + b) (natLe 8 lo)).windowWrite (o.pblk + c) (natLe 8 hi)

/-- A collective that stops early has written a span of its destination, which is open, with unspecified bytes (02 R57;
00 R10; log entry 9). -/
def State.dirtyRange (s : State) (o : EngineOp) : Nat × Nat × State :=
  let (dst, n) := collDst o
  let (hi, s1) := s.choose (n + 1)
  let (lo, s2) := s1.choose (hi + 1)
  if hi ≤ lo then (0, 0, s2)
  else
    let body : Eng Unit := do
      let plan ← engPlan o (dst + lo) (hi - lo)
      engPut o plan (← engFree (hi - lo))
    match body s2 with
    | (.ok _, s3) => (lo, hi, s3)
    | (.error _, _) => (0, 0, s2)

/-- A collective ends ABORTED (1) or TIMEOUT (2): it is open no longer, whether or not its roll still waits. -/
def State.collStop (s : State) (o : EngineOp) (c : CollState) (st : Nat) : State :=
  let (lo, hi, s1) := s.dirtyRange o
  let s2 := ((s1.writeCstat o st lo hi).collClosed c.collid).modOp o.id fun o => { o with coll := none }
  s2.engFinish { o with coll := none } 0 0

/-- A collective is stopped with abort frames to every other member. -/
def State.collAbort (s : State) (o : EngineOp) (c : CollState) : State := (s.sendAborts o.die c).collStop o c 1

/-! ## What arrives (02 R56) -/

/-- Does arriving data agree with the command (15 R415)? -/
def collAgrees (o : EngineOp) (b : CollBody) : Bool :=
  match b with
  | .coll kind rop ety count nmemb _ =>
    o.eop == 0x0B && kind == collKind o && rop == collRop o && ety == collEty o && count == collCount o &&
      nmemb == collNmemb o
  | _ => o.eop == 0x0A

/-- Collective data arrives: an open collective takes it, a completed one discards it for 2^20 cycles, and what comes
before its collective opens is kept (log entry 8). -/
def State.collTake (s : State) (collid : BitVec 32) (x : CollPart) : State :=
  match s.collOp collid with
  | some (o, c) =>
    if !collAgrees o x.body then s.collAbort o c
    else
      (s.modOp o.id fun o => { o with coll := some { c with arrived := c.arrived ++ [x], lastProgress := s.cycle } }).post 0
        .engineComplete (.num o.id)
  | none =>
    if s.fabric.collDone.any fun d => d.1 == collid && decide (s.cycle ≤ d.2 + 2 ^ 20) then s
    else s.onFabric fun f => { f with collEarly := f.collEarly ++ [(collid, x)] }

/-- COLLECTIVE_DATA. -/
def execCollectiveData (s : State) : Out :=
  .next (match s.arg with
    | .coll _ p b => s.collTake p.collid ⟨p.src, if p.circuit then 0 else 1, 0, b⟩
    | _ => s)

/-- COLLECTIVE_ABORT_FRAME. -/
def execCollectiveAbortFrame (s : State) : Out :=
  .next (match s.arg with
    | .packet _ p =>
      match s.collOp p.collid with
      | some (o, c) => s.collAbort o c
      | none => s
    | _ => s)

/-- COLLECTIVE_LIMIT_TIMEOUT: LIMIT cycles have passed without progress. -/
def execCollectiveLimitTimeout (s : State) : Out :=
  .next (match s.arg with
    | .num id =>
      match s.engines.ops.find? (·.id == id) with
      | none => s
      | some o =>
        match o.coll with
        | none => s
        | some c =>
          if s.cycle < c.lastProgress + c.limit then
            s.post (c.lastProgress + c.limit - s.cycle) .collectiveLimitTimeout (.num id)
          else s.collStop o c 2
    | _ => s)

/-- A collective opens: it takes what came early, and its limit runs. -/
def State.collOpen (s : State) (o : EngineOp) (c : CollState) : State :=
  let early := (s.fabric.collEarly.filter fun e => e.1 == c.collid).map (·.2)
  let s1 := (s.modOp o.id fun o => { o with coll := some c }).onFabric fun f =>
    { f with collEarly := f.collEarly.filter fun e => e.1 != c.collid }
  (early.foldl (fun s x => s.collTake c.collid x) (s1.post c.limit .collectiveLimitTimeout (.num o.id))).post 0 .engineComplete
    (.num o.id)

/-- LIMIT (15 R413). -/
def limitOk (n : Nat) : Bool := decide (2 ^ 16 ≤ n) && decide (n ≤ 2 ^ 31)

/-! ## COLL (15 R414, R415) -/

/-- Check a COLL and read its members. -/
def engMembers (o : EngineOp) : Eng (List (BitVec 12)) := do
  engHeader o 0
  let n := collNmemb o
  engNeed o (decide (collCount o ≤ 2 ^ 28) && decide (1 ≤ n) && decide (n ≤ 512) && decide (collKind o ≤ 3) &&
    decide (collRop o ≤ 2) && [0, 1, 2, 9, 13].contains (collEty o) && decide (collPath o ≤ 2) && limitOk (o.field 0x38 4) &&
    decide (collRoot o < n) && decide (o.field 0x3E 2 + n ≤ 4032) && o.zero 0x40 32 && o.zero 0x64 4 && o.zero 0x78 8)
  let b ← engRead o (o.addr 0x20) (2 * n)
  let own := ((← get).ownChip o.die).toNat
  let l := (List.range n).map fun i => fieldAt b (2 * i) 2
  engNeed o (l.countP (· == own) == 1)
  pure (l.map fun x => BitVec.ofNat 12 x)

/-- The rank of this chip. -/
def rankOf (own : BitVec 12) (l : List (BitVec 12)) : Nat := l.findIdx (· == own)

/-- A COLL opens: this chip's data goes to every other member, from the root alone for a BROADCAST. -/
def engCollOpen (o : EngineOp) : Eng EngEnd := do
  let l ← engMembers o
  let own := (← get).ownChip o.die
  let r := rankOf own l
  let sends := collKind o != 3 || r == collRoot o
  let data ← if sends then engRead o (o.addr 0x10) (collSrcLen o) else pure []
  let _ ← engPlan o (o.addr 0x18) (collDstLen o)
  let body : CollBody := .coll (collKind o) (collRop o) (collEty o) (collCount o) (collNmemb o) data
  let c : CollState :=
    { collid := BitVec.ofNat 32 (o.field 0x34 4), members := l, fctx := BitVec.ofNat 16 (o.field 0x3C 2)
      limit := o.field 0x38 4, lastProgress := (← get).cycle, arrived := if sends then [⟨own, 1, 0, body⟩] else [] }
  let path := collPath o
  let conn (m : BitVec 12) : Nat := if path = 0 then o.field 0x3E 2 + r else m.toNat
  modify fun s =>
    let s1 := if sends then (l.filter (· != own)).foldl (fun s m => s.sendColl o c path (conn m) m body) s else s
    s1.collOpen o c
  pure (0, 0)

/-- The data a member has sent. -/
def CollState.dataOf (c : CollState) (m : BitVec 12) : Option (List Byte) :=
  (c.arrived.find? fun x => x.src == m).bind fun x =>
    match x.body with
    | .coll _ _ _ _ _ d => some d
    | _ => none

/-- red: one element reduced over the members' values (15 R415). -/
def collRed (rop : Nat) (ty : Ty) (xs : List Nat) : Nat :=
  match rop, tyIsInt ty with
  | 0, false => accFinish (xs.foldl (fun a x => accAdd a (decodeTy ty x)) {}) 1 ty
  | 0, true => xs.sum % 2 ^ 32
  | 1, false => xs.tail.foldl (fpMaxCode ty) (xs.headD 0)
  | 1, true => xs.tail.foldl (fun a b => if intLt ty a b then b else a) (xs.headD 0)
  | _, false => xs.tail.foldl (fpMinCode ty) (xs.headD 0)
  | _, true => xs.tail.foldl (fun a b => if intLt ty b a then b else a) (xs.headD 0)
where
  /-- Order of two codes of an integer type. -/
  intLt (ty : Ty) (a b : Nat) : Bool := cmpVal (decodeTy ty a) (decodeTy ty b) == .lt

/-- The destination of a COLL. -/
def collResult (o : EngineOp) (r : Nat) (srcs : List (List Byte)) : List Byte :=
  let z := collEsize o
  let n := collCount o
  let ty := collTy (collEty o)
  let red (first : Nat) : List Byte :=
    (List.range n).flatMap fun e => natLe z (collRed (collRop o) ty (srcs.map fun s => fieldAt s (z * (first + e)) z))
  match collKind o with
  | 0 => red 0
  | 1 => srcs.flatMap fun s => padTo (n * z) (s.take (n * z))
  | 2 => red (r * n)
  | _ => padTo (n * z) ((srcs.headD []).take (n * z))

/-- The members whose data a COLL needs. -/
def collNeeds (o : EngineOp) (c : CollState) : List (BitVec 12) :=
  if collKind o = 3 then (c.members.drop (collRoot o)).take 1 else c.members

/-- Write the result of a COLL whose data has all come. -/
def engCollFinish (o : EngineOp) (c : CollState) (srcs : List (List Byte)) : Eng EngEnd := do
  let s ← get
  let out := collResult o (rankOf (s.ownChip o.die) c.members) srcs
  engWrite o (o.addr 0x18) out
  modify fun s => (s.writeCstat o 0 0 0).collClosed c.collid
  pure (0, 0)

/-! ## Shard maps (10 R255) -/

/-- An entry of a shard map. -/
structure Shard where
  chip : BitVec 12
  path : Nat
  conn : Nat
  low : Nat
  deriving DecidableEq, Repr

/-- A shard map. -/
structure ShardMap where
  hash : Bool
  hmul : Nat
  shards : List Shard
  deriving DecidableEq, Repr

/-- An entry from its 16 bytes. -/
def shardOf (b : List Byte) : Shard :=
  let w := fieldAt b 0 4
  { chip := BitVec.ofNat 12 w, path := w / 2 ^ 12 % 4, conn := w / 2 ^ 14, low := fieldAt b 8 8 }

/-- The rules of an entry. -/
def shardOk (b : List Byte) : Bool :=
  let x := shardOf b
  x.path != 3 && (x.path != 1 || x.conn == 0) && fieldAt b 4 4 == 0

/-- Read and check the shard map. -/
def engMap (o : EngineOp) : Eng ShardMap := do
  let a := o.addr 0x10
  let h ← engReadOnce o a 16
  let w := fieldAt h 0 8
  let kind := w % 4
  let n := w / 4 % 2 ^ 12
  let hmul := fieldAt h 8 8
  engNeedAt a (decide (kind ≤ 1) && decide (1 ≤ n) && decide (w < 2 ^ 14) && (if kind = 1 then hmul % 2 == 1 else hmul == 0))
  let b ← engReadOnce o (a + 16) (16 * n)
  let es := (List.range n).map fun i => (b.drop (16 * i)).take 16
  let l := es.map shardOf
  engNeedAt a (es.all shardOk && (kind == 1 ||
    ((l.headD ⟨0, 0, 0, 0⟩).low == 0 && (List.zipWith (fun (x y : Shard) => decide (x.low < y.low)) l (l.drop 1)).all id)))
  pure ⟨kind == 1, hmul, l⟩

/-- The shard that owns an index, and the index it looks up. -/
def ShardMap.owner (m : ShardMap) (idx : Nat) : Nat × Nat :=
  if m.hash then (idx * m.hmul % 2 ^ 64 / 2 ^ 32 % m.shards.length, idx)
  else
    let s := (m.shards.countP fun x => decide (x.low ≤ idx)) - 1
    (s, idx - (m.shards.getD s ⟨0, 0, 0, 0⟩).low)

/-- The chip of a shard. -/
def ShardMap.chip (m : ShardMap) (s : Nat) : BitVec 12 := (m.shards.getD s ⟨0, 0, 0, 0⟩).chip

/-! ## A2A (15 R413; 10 R256) -/

/-- The fields of an A2A that it shares with EMBG. -/
def a2aCmd (o : EngineOp) : BagCmd :=
  { idx := o.addr 0x20, off := o.addr 0x28, wgt := o.field 0x30 8, dst := o.addr 0x38, stat := o.field 0x40 8
    nbags := o.field 0x48 4, nidx := o.field 0x4C 4, pool := o.field 0x50 1, ofmt := o.field 0x51 1
    bfm := o.field 0x52 1, ostr := o.field 0x54 4 }

/-- The bucket of a shard: bag, index and weight of each index that it owns. -/
def bucketOf (m : ShardMap) (sh : Nat) (bags : List (Option (List (Nat × Nat)))) : List (Nat × Nat × BitVec 32) :=
  bags.zipIdx.flatMap fun (x, b) =>
    ((x.getD []).filter fun i => (m.owner i.1).1 == sh).map fun i => (b, i.1, BitVec.ofNat 32 i.2)

/-- The entry by which a chip is reached for what is no bucket of a shard: the first one that names it. -/
def ShardMap.entryOf (m : ShardMap) (chip : BitVec 12) : Option Shard := m.shards.find? fun x => x.chip == chip

/-- An A2A opens: every index goes to the bucket of the shard that owns it; each owner is sent the count of its bucket,
then the bucket, by the shard's own PATH and CONN (10 R255, R256). -/
def engA2aOpen (o : EngineOp) : Eng EngEnd := do
  engHeader o 0
  let c := a2aCmd o
  engNeed o (c.ok && o.zero 0x53 1 && limitOk (o.field 0x5C 4) && o.zero 0x62 6 && o.zero 0x6C 4)
  let m ← engMap o
  let offs ← engOffsets o c
  let bags ← (bagBounds offs).mapM (engItems o c)
  let own := (← get).ownChip o.die
  let chips := (m.shards.map (·.chip)).eraseDups
  let buckets := m.shards.zipIdx.map fun (e, sh) => (e, sh, bucketOf m sh bags)
  let mine := buckets.filter fun x => x.1.chip == own
  let body (x : Shard × Nat × List (Nat × Nat × BitVec 32)) : CollBody := .bucket x.2.1 c.pool c.nbags x.2.2
  let st : CollState :=
    { collid := BitVec.ofNat 32 (o.field 0x58 4), members := chips, fctx := BitVec.ofNat 16 (o.field 0x60 2)
      limit := o.field 0x5C 4, lastProgress := (← get).cycle
      arrived := mine.map fun x => ⟨own, 1, 0, body x⟩
      shards := m.shards.map (·.chip), counts := mine.map fun x => (own, x.2.1, x.2.2.length)
      bags := (bagBounds offs).map fun x => x.2 - x.1
      bad := (List.range bags.length).filter fun b => (bags.getD b none).isNone }
  modify fun s =>
    ((buckets.filter fun x => x.1.chip != own).foldl (fun s x =>
      let send (s : State) (b : CollBody) : State := s.sendColl o st x.1.path x.1.conn x.1.chip b
      send (send s (.count x.2.1 x.2.2.length)) (body x)) s).collOpen o st
  pure (0, 0)

/-- The table of a shard of this chip, in RANGE maps through the command's per-shard table. -/
def engShardTable (o : EngineOp) (m : ShardMap) (sh : Nat) : Eng TabSet := do
  let a ← if m.hash then pure ((m.shards.getD sh ⟨0, 0, 0, 0⟩).low % 2 ^ 57)
    else do pure (leNat (← engReadOnce o (o.addr 0x18 + 8 * sh) 8) % 2 ^ 57)
  engTable o a

/-- What an owner has of one bag: its accumulators, whether the bag has a Bad index here, and the poisoned beat met. -/
structure BagPart where
  bag : Nat
  accs : List Accum
  bad : Bool := false
  poisoned : Option Nat := none

/-- An owner's part of one bag (10 R244 to R247, R256). `who` numbers the bucket among those this operation serves. -/
def engServeBag (o : EngineOp) (m : ShardMap) (t : TabSet) (pool who : Nat) (items : List (Nat × Nat × BitVec 32))
    (b : Nat) : Eng BagPart := do
  let zero : List Accum := List.replicate t.d.width {}
  let mine := (items.filter fun x => x.1 == b).map fun x => ((m.owner x.2.1).2, x.2.2.toNat)
  if ← engJudge o (who * 2 ^ 24 + b) (engProbe o .load t (mine.map (·.1))) then
    match ← engPool o t pool mine zero with
    | .inl accs => pure { bag := b, accs := accs }
    | .inr va => pure { bag := b, accs := zero, poisoned := some va }
  else pure { bag := b, accs := zero, bad := true }

/-- Serve a bucket: accumulators of every bag, not rounded outputs, and the bags that are Bad (10 R256). -/
def engServe (o : EngineOp) (src : BitVec 12) (sh pool nbags : Nat) (items : List (Nat × Nat × BitVec 32)) :
    Eng CollBody := do
  let m ← engMap o
  let t ← engShardTable o m sh
  let rs ← (List.range nbags).mapM (engServeBag o m t pool ((1 + src.toNat) * 4096 + sh) items)
  pure (.partials sh (rs.map fun r => (r.bag, r.accs)) ((rs.filter (·.bad)).map (·.bag))
    (rs.filterMap fun r => r.poisoned.map fun va => (r.bag, va)))

/-- Merge an owner's answer (10 R256, R247). -/
def CollState.merge (c : CollState) (accs : List (Nat × List Accum)) (bad : List Nat) (poisoned : List (Nat × Nat)) :
    CollState :=
  let put (t : Tbl (List Accum)) (x : Nat × List Accum) : Tbl (List Accum) :=
    match t.find? x.1 with
    | some l => t.put x.1 (List.zipWith accMerge l x.2)
    | none => t.put x.1 x.2
  { c with accs := accs.foldl put c.accs, bad := c.bad ++ bad, poisoned := c.poisoned ++ poisoned }

/-- Has an A2A heard of every shard, and served every member for each of its own? -/
def CollState.a2aDone (c : CollState) (own : BitVec 12) : Bool :=
  c.shards.zipIdx.all fun (chip, sh) =>
    c.answered.contains sh && (chip != own || c.members.all fun m => c.served.contains (m, sh))

/-- May what has arrived be handled now: a bucket once its count has come? -/
def CollState.ready (c : CollState) (x : CollPart) : Bool :=
  match x.body with
  | .bucket sh _ _ items => c.counts.contains (x.src, sh, items.length)
  | _ => true

/-- The end of an A2A: every bag is finished once and written at its place, under the bag-fault mode of 10 R246. -/
def engA2aFinish (o : EngineOp) (c : CollState) : Eng EngEnd := do
  let x := a2aCmd o
  let width := (c.accs.getD [] 0).length
  engNeed o (x.fits width)
  let aborts := x.bfm == 1 && !c.bad.isEmpty
  let fails := if x.bfm = 1 ∧ c.bad = [] then c.poisoned.head? else none
  let isBad (b : Nat) : Bool := c.bad.contains b || c.poisoned.any (·.1 == b)
  if !aborts then
    let (plans, stat) ← engBagPlans o x width
    if fails.isSome then plans.forM fun p => do engPut o p (← engFree (width * x.esize))
    else
      plans.zipIdx.forM fun (p, b) =>
        engPut o p (if isBad b then zeros (width * x.esize) else x.out (c.bags.getD b 0) (c.accs.getD [] b))
      if x.bfm = 0 then engPut o stat (statusBytes x.nbags isBad)
  modify fun s => (s.writeCstat o 0 0 0).collClosed c.collid
  pure (match fails with
    | some p => (cIntegrity, p.2)
    | none => if aborts then (cEmbgAbort, x.idx) else (0, 0))

/-- Handle what has arrived for an A2A, one member's data at a time. An answer goes by the map's entry of the chip that
asked, or as the bucket came. -/
def engA2aStep (o : EngineOp) (c : CollState) (x : CollPart) (rest : List CollPart) : Eng EngEnd := do
  let c1 : CollState := { c with arrived := rest }
  let set1 (c : CollState) : Eng Unit :=
    modify fun s => (s.modOp o.id fun o => { o with coll := some c }).post 0 .engineComplete (.num o.id)
  match x.body with
  | .count sh n => set1 { c1 with counts := (x.src, sh, n) :: c1.counts }
  | .bucket sh pool nbags items =>
    let own := (← get).ownChip o.die
    if c.shards[sh]? ≠ some own then set1 c1
    else
      let b ← engServe o x.src sh pool nbags items
      let c2 := { c1 with served := (x.src, sh) :: c1.served }
      if x.src = own then set1 { c2 with arrived := c2.arrived ++ [⟨x.src, 1, 0, b⟩] }
      else
        let e := ((← engMap o).entryOf x.src).getD ⟨x.src, x.path, x.conn, 0⟩
        set1 c2
        modify fun s => s.sendColl o c e.path e.conn x.src b
  | .partials sh accs bad poisoned =>
    set1 (if c1.answered.contains sh then c1 else { c1.merge accs bad poisoned with answered := sh :: c1.answered })
  | .coll _ _ _ _ _ _ => set1 c1
  pure (0, 0)

/-! ## Ultra Ethernet (02 R59) -/

/-- An RMA write of a peer, in a LIVE context. -/
def State.uetWrite (s : State) (ctx va : Nat) (bs : List Byte) : State :=
  if (s.ctx ctx).phase ≠ .live ∨ 4096 < bs.length then s
  else
    match s.ctxAccess ctx va bs.length .store with
    | .ok (.peer _ _ _) => s
    | .ok loc => if s.partPoison loc bs.length then s else s.locWrite ctx va loc bs false
    | _ => s

/-- The data of an RMA read of a peer. -/
def State.uetRead (s : State) (ctx va n : Nat) : List Byte × State :=
  if (s.ctx ctx).phase ≠ .live ∨ 4096 < n then ([], s)
  else
    match s.ctxAccess ctx va n .load with
    | .ok (.peer _ _ _) => ([], s)
    | .ok loc => if (s.locPoison loc n).isSome then ([], s) else s.locRead ctx va loc n false
    | _ => ([], s)

/-- The connection of a packet. -/
def UetPacket.conn : UetPacket → Nat
  | .send c _ _ _ _ _ _ => c
  | .rmaWrite c _ _ _ => c
  | .rmaRead c _ _ _ => c
  | .rmaData c _ _ => c
  | .ack c _ _ => c

/-- Does a packet keep to the limits: 65,536 connections, 4,096 bytes? -/
def UetPacket.fits (p : UetPacket) : Bool :=
  decide (UetPacket.conn p < 65536) &&
  match p with
  | .rmaWrite _ _ _ d => decide (d.length ≤ 4096)
  | .rmaRead _ _ _ n => decide (n ≤ 4096)
  | .rmaData _ _ d => decide (d.length ≤ 4096)
  | _ => true

/-- What a packet does, once it is delivered: a message of collective data goes to its collective when all its parts have
come; RMA writes and reads act on a context's memory. `psn` is its number. -/
def State.uetTake (s : State) (hub psn : Nat) (p : UetPacket) : State :=
  match p with
  | .send conn src dst collid part parts b =>
    if dst ≠ s.ownChip hub then s
    else
      let base := psn - part
      let got := insertNat part ((s.uetConn hub conn).parts.getD [] base)
      if parts ≤ got.length then
        (s.modUet hub conn fun c => { c with parts := c.parts.del base }).collTake collid ⟨src, 2, conn, b⟩
      else s.modUet hub conn fun c => { c with parts := c.parts.put base got }
  | .rmaWrite _ ctx va bs => s.uetWrite ctx va bs
  | .rmaRead conn ctx va n =>
    let (bs, s1) := s.uetRead ctx va n
    s1.uetSend hub conn (.rmaData conn va bs)
  | .rmaData _ _ _ => s
  | .ack _ _ _ => s

/-- Numbers taken out of turn join those before them. -/
def UetConn.settle (c : UetConn) : Nat → UetConn
  | 0 => c
  | n + 1 =>
    if c.taken.contains c.next then
      UetConn.settle { c with next := c.next + 1, taken := c.taken.filter (· != c.next) } n
    else c

/-- Deliver in order what has come early. -/
def State.uetDrain (s : State) (hub conn : Nat) : Nat → State
  | 0 => s
  | n + 1 =>
    let c := s.uetConn hub conn
    match c.early.find? (·.1 == c.next) with
    | some (psn, p) =>
      ((s.modUet hub conn fun c => { c with next := c.next + 1, early := c.early.filter (·.1 != psn) }).uetTake hub psn
        p).uetDrain hub conn n
    | none => s

/-- A packet that comes intact is acknowledged, and delivered once: at once, or in the order of the numbers. -/
def State.uetArrive (s : State) (hub : Nat) (h : UetHead) (p : UetPacket) : State :=
  let conn := UetPacket.conn p
  let c := s.uetConn hub conn
  let s1 := s.uetPut hub 0 (.ack conn h.psn false)
  if h.psn < c.next || c.taken.contains h.psn || c.early.any (·.1 == h.psn) then s1
  else if !h.ordered then
    (s1.modUet hub conn fun c => UetConn.settle { c with taken := h.psn :: c.taken } (c.taken.length + 1)).uetTake hub h.psn p
  else if h.psn = c.next then
    ((s1.modUet hub conn fun c => { c with next := c.next + 1 }).uetTake hub h.psn p).uetDrain hub conn c.early.length
  else s1.modUet hub conn fun c => { c with early := c.early ++ [(h.psn, p)] }

/-- An acknowledgement ends the sender's keeping of a packet; a packet that was trimmed is sent again. -/
def State.uetAck (s : State) (hub conn psn : Nat) (again : Bool) : State :=
  if again then
    match (s.uetConn hub conn).unacked.find? (·.1 == psn) with
    | some (_, p) => s.uetPut hub psn p
    | none => s
  else s.modUet hub conn fun c => { c with unacked := c.unacked.filter (·.1 != psn) }

/-- ULTRA_ETHERNET_PACKET (02 R59): a packet that fails its security, or keeps to no limit, is discarded; of one that a
switch has trimmed the payload is asked for again. A held hub takes nothing (01 R24; 02 R60). -/
def execUltraEthernetPacket (s : State) : Out :=
  .next (match s.arg with
    | .uet port h p =>
      let hub := if port < 4 then 4 else 5
      if s.fabric.uet.getD false port = false ∨ s.package.held.contains hub = true ∨ s.package.phase = .halted ∨
        h.auth = false ∨ UetPacket.fits p = false then s
      else
        match p with
        | .ack conn psn again => s.uetAck hub conn psn again
        | p => if h.trimmed then s.uetPut hub 0 (.ack (UetPacket.conn p) h.psn true) else s.uetArrive hub h p
    | _ => s)

/-- ULTRA_ETHERNET_PORT_STATE (03 R83): a port comes up or goes down; none comes up while the module is halted (01 R24). -/
def execUltraEthernetPortState (s : State) : Out :=
  .next (match s.arg with
    | .numFlag port up =>
      if port < 8 then
        s.onFabric fun x => { x with uet := x.uet.put port (up && s.package.phase != .halted) }
      else s
    | _ => s)

end Sys2Proof.Machine
end

