-- ==== Sys2Proof/Machine/Copy.lean ====
section
/-! DEFINITION. CPY, CPYM and IRR (15 R408 to R411; 18 R429). -/

namespace Sys2Proof.Machine

open Sys2Proof

/-! ## CPY (15 R408, R409) -/

/-- The offsets of a copy whose source bytes lie inside its destination range: from, and up to but not including. -/
def overlapOf (src dst n : Nat) : Nat × Nat :=
  if src < dst + n ∧ dst < src + n then (dst - src, min n (dst + n - src)) else (0, 0)

/-- A copy's data, with unspecified bytes where its source bytes lie inside its destination. -/
def engOverlap (src dst : Nat) (data : List Byte) : Eng (List Byte) := do
  let (lo, hi) := overlapOf src dst data.length
  if lo < hi then pure (overlayBytes data lo (← engFree (hi - lo))) else pure data

/-- The slip of a copy: an entry is taken before the first remote write, or the null slip stands (15 R409; 02 R51,
R53). -/
def engSlip (o : EngineOp) (remote : Bool) : Eng (BitVec 32) := do
  if o.opf0 && remote then
    let s ← get
    match s.slipFree? o.die with
    | none => throw .later
    | some e =>
      let s1 := (s.slipTake e).modOp o.id fun o => { o with slip := some e }
      set s1
      pure (s1.slipToken (slipHub e) e)
  else pure 0xFFFFFFFF

/-- CPY. -/
def engCpy (o : EngineOp) : Eng EngEnd := do
  engHeader o 1
  engNeed o (o.zero 0x24 4 && o.zero 0x2C 20)
  let src := o.addr 0x10
  let dst := o.addr 0x18
  let n := o.field 0x20 4
  let data ← engRead o src n
  let plan ← engPlan o dst n
  let out ← engOverlap src dst data
  let slip ← engSlip o (!(locSpans plan).isEmpty)
  engPut o plan out
  engBack o 0x28 (natLe 4 slip.toNat)
  pure (0, 0)

/-! ## CPYM (15 R410) -/

/-- A signed 64-bit field. -/
def signed64 (x : Nat) : Int := if 2 ^ 63 ≤ x then (x : Int) - 2 ^ 64 else x
/-- The address of row `r`. -/
def rowAddr (base : Nat) (stride : Int) (r : Nat) : Nat := (((base : Int) + r * stride) % 2 ^ 57).toNat

/-- A row that a CPYM writes: its number, the source it copies, if any, and its destination. -/
structure RowCopy where
  row : Nat
  src : Option Nat
  dst : Nat
  deriving DecidableEq, Repr

/-- The rows a CPYM writes. -/
def cpymRows (o : EngineOp) (mask : List Byte) : List RowCopy :=
  (List.range (o.field 0x2C 4)).filterMap fun r =>
    let dst := rowAddr (o.addr 0x18) (signed64 (o.field 0x38 8)) r
    if (mask.getD (r / 8) 0).getLsbD (r % 8) then
      some ⟨r, some (rowAddr (o.addr 0x10) (signed64 (o.field 0x30 8)) r), dst⟩
    else if o.opf0 then some ⟨r, none, dst⟩
    else none

/-- Is byte `i` of a row unspecified: another row writes the same byte, or some row writes the byte it is copied from? -/
def rowOpen (rows : List RowCopy) (n : Nat) (x : RowCopy) (i : Nat) : Bool :=
  let inside (a : Nat) (w : RowCopy) : Bool := decide ((a + 2 ^ 57 - w.dst) % 2 ^ 57 < n)
  (rows.any fun w => w.row != x.row && inside (x.dst + i) w) ||
    match x.src with
    | some a => rows.any (inside (a + i))
    | none => false

/-- What a row is to receive. -/
def engRow (o : EngineOp) (rows : List RowCopy) (n : Nat) (x : RowCopy) : Eng (RowCopy × List Byte) := do
  let data ← match x.src with
    | some a => engRead o a n
    | none => pure (zeros n)
  let free ← engFree n
  pure (x, data.zipIdx.map fun (b, i) => if rowOpen rows n x i then free.getD i 0 else b)

/-- CPYM. -/
def engCpym (o : EngineOp) : Eng EngEnd := do
  engHeader o 1
  let n := o.field 0x28 4
  let nrows := o.field 0x2C 4
  engNeed o (decide (1 ≤ n) && decide (n ≤ 2 ^ 20) && decide (nrows ≤ 2 ^ 24))
  let mask ← engRead o (o.addr 0x20) ((nrows + 7) / 8)
  let rows := cpymRows o mask
  let data ← rows.mapM (engRow o rows n)
  let plans ← data.mapM fun x => do pure (← engPlan o x.1.dst n, x.2)
  plans.forM fun x => engPut o x.1 x.2
  pure (0, 0)

/-! ## IRR (15 R411) -/

/-- Check an index entry: its offset aligned, its reserved bits zero, its chip reachable. -/
def engEntry (o : EngineOp) (esz j e : Nat) : Eng Unit := do
  let off := e % 2 ^ 31
  engNeedAt (o.addr 0x10 + 8 * j) (off % esz == 0 && decide (e < 2 ^ 43))
  let s ← get
  let chip := BitVec.ofNat 12 (e / 2 ^ 31)
  if s.reachable o.die chip then pure () else engFault cRemoteUnreachable (scratchBase + off)

/-- The remote span an entry reads, if it names a peer. -/
def entrySpan (own : BitVec 12) (fctx : BitVec 16) (esz e : Nat) : Option (BitVec 12 × BitVec 16 × Nat × Nat) :=
  let chip := BitVec.ofNat 12 (e / 2 ^ 31)
  if chip = own then none else some (chip, fctx, scratchBase + e % 2 ^ 31, esz)

/-- Read the element an entry names. -/
def engElement (o : EngineOp) (own : BitVec 12) (fctx : BitVec 16) (esz e : Nat) : Eng (List Byte) :=
  match entrySpan own fctx esz e with
  | some x => do
    engCount o esz
    engSpans o [x]
  | none => engRead o (scratchBase + e % 2 ^ 31) esz

/-- IRR. -/
def engIrr (o : EngineOp) : Eng EngEnd := do
  engHeader o 0
  let idx := o.addr 0x10
  let dst := o.addr 0x18
  let n := o.field 0x20 4
  let lg := o.field 0x24 1
  let esz := 2 ^ lg
  engNeed o (idx % 8 == 0 && decide (n ≤ 65536) && decide (2 ≤ lg) && decide (lg ≤ 8) && dst % esz == 0 &&
    o.zero 0x25 3 && o.zero 0x2A 22)
  let list ← engRead o idx (8 * n)
  let entries := (List.range n).map fun j => fieldAt list (8 * j) 8
  entries.zipIdx.forM fun (e, j) => engEntry o esz j e
  let own := (← get).ownChip ((← get).handlingHub o.die)
  let fctx := BitVec.ofNat 16 (o.field 0x28 2)
  let _ ← engSpans o (entries.filterMap (entrySpan own fctx esz)).eraseDups
  let data ← entries.mapM (engElement o own fctx esz)
  let plan ← engPlan o dst (n * esz)
  engPut o plan data.flatten
  pure (0, 0)

end Sys2Proof.Machine
end

