-- ==== Sys2Proof/Machine/Drive.lean ====
section
/-! DEFINITION. Drive programs: bindings (03 R86), validation (R92, 11 R285), playing (15 R420, R421), commands at their
engines (03 R87, R88, R91; 11 R285) and launches from drive words (15 R418). -/

namespace Sys2Proof.Machine

open Sys2Proof

/-! ## Bindings (03 R86) -/

/-- Is a binding in the table? -/
def State.bindOk (s : State) (b : DBind) : Bool :=
  let die := b.die.toNat
  let unit0 := b.unit == 0
  match b.target.toNat with
  | 0 => unit0
  | 1 => unit0 && s.host.activeHub == some die
  | 2 => decide (die ≤ 3)
  | 3 | 4 => unit0 && decide (6 ≤ die) && decide (die ≤ 13)
  | 5 | 6 => unit0 && isHub die
  | _ => false

/-- The word of a binding. -/
def DBind.word (b : DBind) : Word := (b.unit ++ b.die ++ b.target).setWidth 64

/-- A write of DBIND(i). -/
def State.writeDbind (s : State) (n i : Nat) (h : Half) (v : Word) : State :=
  if 7 ≤ i then s
  else
    let l := padBinds (s.ctx n).dbind
    let w := regMerge (l.getD i {}).word h v
    let b : DBind := { target := w.extractLsb' 0 4, die := w.extractLsb' 4 4, unit := w.extractLsb' 8 2 }
    if s.bindOk b then s.modCtx n fun c => { c with dbind := l.set i b }
    else s.modCtx n fun c => { c with bindbad := true }
where
  /-- Seven bindings. -/
  padBinds (l : List DBind) : List DBind := (List.range 7).map fun i => l.getD i {}

/-- DBIND_WRITE. -/
def execDbindWrite (s : State) : Out :=
  .next (match s.arg with
    | .reg n i h v => s.whenCtxBar n fun s => s.writeDbind n i h v
    | _ => s)

/-! ## A drive word (03 R84) -/

/-- A field of a drive word. -/
def dwField (w : BitVec 512) (lo n : Nat) : Nat := w.toNat / 2 ^ lo % 2 ^ n
/-- CTL. -/
def dwCtl (w : BitVec 512) : Nat := dwField w 0 4
/-- SLOTV bit i. -/
def dwSlotv (w : BitVec 512) (i : Nat) : Bool := w.getLsbD (5 + i)
/-- The command of slot i. -/
def dwSlot (w : BitVec 512) (i : Nat) : CmdWord := w.extractLsb' (64 * i + 64) 64
/-- ARG. -/
def dwArg (w : BitVec 512) : Nat := dwField w 32 16
/-- NA of a BRANCH, NB of a REPEAT. -/
def dwLo (w : BitVec 512) : Nat := dwField w 32 8
/-- NB of a BRANCH. -/
def dwHi (w : BitVec 512) : Nat := dwField w 40 8
/-- ARG2: the count of a REPEAT. -/
def dwArg2 (w : BitVec 512) : Nat := dwField w 48 16

/-! ## Validation (03 R92; 11 R285; 15 R419) -/

/-- The engine operations that exist (11 R283). -/
def eopKnown (e : Nat) : Bool :=
  [0x01, 0x02, 0x03, 0x08, 0x09, 0x0A, 0x0B, 0x10, 0x11, 0x12, 0x18, 0x20].contains e

/-- The last word that the arms of a BRANCH, or the body of a REPEAT, at position `v` take in. -/
def dwReach (v : Nat) (w : BitVec 512) : Nat :=
  if dwCtl w = 1 then v + dwLo w + dwHi w else if dwCtl w = 3 then v + dwLo w else v

/-- Does word `x` lie inside an arm or a body? -/
def dwInside (prog : List (BitVec 512)) (x : Nat) : Bool :=
  (prog.take x).zipIdx.any fun (w, v) => decide (x ≤ dwReach v w) && dwCtl w != 0

/-- Do the arms of a BRANCH at `x` stay in the REPEAT body it lies in? -/
def dwBodyOk (prog : List (BitVec 512)) (x : Nat) (w : BitVec 512) : Bool :=
  (prog.take x).zipIdx.all fun (r, v) => dwCtl r != 3 || decide (dwReach v r < x) || decide (dwReach x w ≤ dwReach v r)

/-- The checks of one word, each with its byte in the word, in the order of the bytes. -/
def dwChecks (prog : List (BitVec 512)) (binds : List DBind) (x : Nat) (w : BitVec 512) : List (Bool × Nat) :=
  let ctl := dwCtl w
  let wkind := dwField w 24 2
  let fits := decide (dwReach x w < prog.length)
  [ (decide (ctl ≤ 4) && (decide (ctl ≤ 1) || !dwInside prog x), 0)
  , (!w.getLsbD 4, 0)
  , ((List.range 7).all fun i => !dwSlotv w i || (binds.getD i {}).target != 0, 0)
  , (dwField w 12 4 == 0, 1)
  , ((ctl == 2 || dwField w 16 6 == 0) && dwField w 22 2 == 0, 2)
  , (decide (wkind ≤ (if ctl = 2 then 1 else 0)) && dwField w 26 6 == 0, 3)
  , (match ctl with
     | 1 => dwLo w != 0 && fits && dwBodyOk prog x w
     | 2 => true
     | 3 => dwLo w != 0 && fits
     | _ => dwLo w == 0, 4)
  , (ctl == 1 || ctl == 2 || dwHi w == 0, 5)
  , (match ctl with
     | 1 => decide (dwArg2 w < 2 ^ 7)
     | 3 => dwArg2 w != 0
     | _ => dwArg2 w == 0, 6) ] ++
  (List.range 7).flatMap fun i =>
    if dwSlotv w i then
      [(eopKnown (cmdEop (dwSlot w i)), 8 + 8 * i), (dwSlot w i >>> 60 == 0, 15 + 8 * i)] else []

/-- The byte offset of the first failing field of a program. -/
def driveBad (prog : List (BitVec 512)) (binds : List DBind) : Option Nat :=
  prog.zipIdx.findSome? fun (w, x) =>
    ((dwChecks prog binds x w).find? fun c => !c.1).map fun c => 64 * x + c.2

/-! ## Start and end (03 R85) -/

/-- The drive card that a free runner starts next: the first with its edges met whose context runs no program. -/
def State.driveNext (s : State) : Option Card :=
  if 8 ≤ s.host.runners.length then none
  else
    s.host.driveWaiting.findSome? fun id =>
      s.host.cards.find? fun c =>
        c.id == id && c.edges.isEmpty && c.status.isNone && !(s.host.runners.any fun r => r.2.ctx == c.ctx)

/-- DRIVE_PROGRAM_START: the registers are latched, the program read and validated. -/
def execDriveProgramStart (s : State) : Out :=
  .next (match s.arg with
    | .num id =>
      match s.driveNext with
      | none => s
      | some c =>
        if c.id ≠ id then s
        else
          let s1 := s.onHost fun h => { h with driveWaiting := h.driveWaiting.filter (· != id) }
          let n := cardField c.bits 16 16
          match s.coachRead c.ctx (cardImage c.bits) (64 * n) with
          | .error d => s1.endCard id 8 0 (BitVec.ofNat 64 (d / 64 * 64))
          | .ok bs =>
            let prog := (List.range n).map fun i => beatOf ((bs.drop (64 * i)).take 64)
            let x := s.ctx c.ctx
            match driveBad prog x.dbind with
            | some off => s1.endCard id 8 0 (BitVec.ofNat 64 off)
            | none =>
              let k := ((List.range 8).find? fun i => (Tbl.find? s.host.runners i).isNone).getD 0
              let r : Runner :=
                { card := id, ctx := c.ctx, period := x.dperiod, dbind := x.dbind, dskew := x.dskew, prog := prog
                  startAt := s.cycle }
              ((s1.onHost fun h => { h with runners := h.runners.put k r }).modCtx c.ctx fun c =>
                { c with driveRun := true, driveWord := 0 }).post 0 .drivePeriod (.num k)
    | _ => s)

/-- A program ends: its runner is free, and its card completes with a status. -/
def State.endProgram (s : State) (k : Nat) (r : Runner) (status : Nat) (detail : Word) : State :=
  let s1 := (s.onHost fun h => { h with runners := h.runners.del k }).modCtx r.ctx fun c => { c with driveRun := false }
  (s1.unpost .drivePeriod (.num k)).endCard r.card status 0 detail

/-! ## Playing (15 R420, R421; 03 R87, R89, R90) -/

/-- DLAT of an engine's die, by the active hub (03 R87). -/
def dlat (hub die : Nat) : Nat :=
  if hub = 4 then
    (if die = 4 then 8 else if [1, 3].contains die then 24 else if [0, 2, 8, 9, 12, 13].contains die then 40 else 56)
  else
    (if die = 5 then 8 else if [0, 2].contains die then 24 else if [1, 3, 6, 7, 10, 11].contains die then 40 else 56)

/-- Send the slots of a live word. -/
def State.sendSlots (s : State) (k : Nat) (r : Runner) (q : Nat) (w : BitVec 512) : State :=
  (List.range 7).foldl (fun s i =>
    if dwSlotv w i then
      let b := r.dbind.getD i {}
      let a := dlat s.coachDie b.die.toNat + (r.dskew.getD i 0).toNat
      s.post a .driveCommandArrive
        (.drive k r.card r.ctx q (64 * r.w + 8 + 8 * i) b.target.toNat b.die.toNat b.unit.toNat (dwSlot w i))
    else s) s

/-- Does a word lie in a dead range? -/
def Runner.isDead (r : Runner) (v : Nat) : Bool := r.dead.any fun d => decide (d.1 ≤ v) && decide (v ≤ d.2)

/-- The next word, through the REPEAT in progress; each run begins without the dead ranges of the body. -/
def Runner.next (r : Runner) : Runner :=
  let fresh (first n : Nat) : List (Nat × Nat) := r.dead.filter fun d => !(decide (first ≤ d.1) && decide (d.2 < first + n))
  match r.rep with
  | some (first, n, left) =>
    if r.w + 1 = first + n then
      (if 1 < left then { r with w := first, rep := some (first, n, left - 1), dead := fresh first n, waited := 0 }
       else { r with w := r.w + 1, rep := none, waited := 0 })
    else { r with w := r.w + 1, waited := 0 }
  | none => { r with w := r.w + 1, waited := 0 }

/-- What a period of a word does to its runner; the sampled conditions are those of its start. -/
def Runner.play (r : Runner) (w : BitVec 512) (cond : Word) : Runner :=
  let live := !r.isDead r.w
  match dwCtl w with
  | 1 =>
    let na := dwLo w
    let nb := dwHi w
    let taken := cond.getLsbD (dwField w 48 6) == w.getLsbD 54
    let range := if taken then (r.w + na + 1, r.w + na + nb) else (r.w + 1, r.w + na)
    Runner.next (if live then { r with dead := range :: r.dead } else r)
  | 2 =>
    if dwField w 24 2 = 1 then (if r.waited + 1 < dwArg w then { r with waited := r.waited + 1 } else r.next)
    else if cond.getLsbD (dwField w 16 6) then r.next
    else if dwArg w ≠ 0 ∧ dwArg w ≤ r.waited + 1 then { r with ending := r.ending.or (some (10, 0)) }
    else { r with waited := r.waited + 1 }
  | 3 =>
    let first := r.w + 1
    let n := dwLo w
    { r with
      w := first, rep := some (first, n, dwArg2 w), waited := 0
      dead := r.dead.filter fun d => !(decide (first ≤ d.1) && decide (d.2 < first + n)) }
  | 4 => { r with ending := r.ending.or (some (0, 0)) }
  | _ => r.next

/-- The cycles a period takes: none for a WAIT of kind 1 with ARG 0 (15 R421). -/
def Runner.cycles (r : Runner) (w : BitVec 512) : Nat :=
  if dwCtl w = 2 ∧ dwField w 24 2 = 1 ∧ dwArg w = 0 then 0 else r.period

/-- DRIVE_PERIOD: the runner starts a period, or the program ends at the end of the one before. -/
def execDrivePeriod (s : State) : Out :=
  .next (match s.arg with
    | .num k =>
      match Tbl.find? s.host.runners k with
      | none => s
      | some r =>
        match r.ending with
        | some (status, detail) => s.endProgram k r status detail
        | none =>
          match r.prog[r.w]? with
          | none => s.endProgram k r 0 0
          | some w =>
            let q := ((s.host.cards.find? fun c => c.id == r.card).map (·.queue)).getD 0
            let s1 := if r.waited = 0 ∧ r.isDead r.w = false then s.sendSlots k r q w else s
            let s2 := s1.modCtx r.ctx fun c => { c with driveWord := BitVec.ofNat 16 r.w }
            (s2.onHost fun h => { h with runners := h.runners.put k (r.play w (s.ctx r.ctx).dcond) }).post (r.cycles w)
              .drivePeriod (.num k)
    | _ => s)

/-! ## Commands at their engines (03 R88, R91; 11 R283, R285) -/

/-- The number under which an engine's drive entries are counted. -/
def driveKeyOf (target die unit : Nat) : Nat := target * 64 + die * 4 + unit

/-- The target that accepts an operation (11 R283). -/
def eopTarget (eop : Nat) : Nat :=
  match eop with
  | 0x01 | 0x02 | 0x03 => 2
  | 0x08 => 3
  | 0x09 => 4
  | 0x0A => 5
  | 0x0B => 6
  | 0x20 => 1
  | _ => 0

/-- The engine number of a drive target (02 R45). -/
def targetUnit (target unit : Nat) : Nat :=
  match target with
  | 2 => unit
  | 4 | 6 => 1
  | _ => 0

/-- A drive program ends at once, if it still runs. -/
def State.endAtOnce (s : State) (k card status : Nat) (detail : Word) : State :=
  match Tbl.find? s.host.runners k with
  | some r => if r.card = card then s.endProgram k r status detail else s
  | none => s

/-- DRIVE_COMMAND_ARRIVE: accepted with its parameter block read now, or refused. -/
def execDriveCommandArrive (s : State) : Out :=
  .next (match s.arg with
    | .drive k card n q byteOff target die unit cmd =>
      let key := driveKeyOf target die unit
      let used := s.host.driveEntries.getD 0 key
      let eop := cmdEop cmd
      if (s.ctx n).phase ≠ .live then s
      else if 16 ≤ used then s.endAtOnce k card 9 0
      else if !s.windowAlloc n (cmdBlock cmd) (blockBytes eop) || !s.windowAlloc n (cmdRoll cmd) 16 then
        s.endAtOnce k card 8 (BitVec.ofNat 64 byteOff)
      else
        let s1 := s.onHost fun h => { h with driveEntries := h.driveEntries.put key (used + 1) }
        if target = 1 ∧ eop = 0x20 then s1.post 0 .lnch (.lnch n q cmd)
        else
          s1.forkOp
            { id := 0, eop := eop, ctx := n, tid := none, core := none, die := die, unit := targetUnit target unit
              pblk := cmdBlock cmd, roll := cmdRoll cmd, block := s.windowRead (cmdBlock cmd) (blockBytes eop), cmd := cmd
              driveKey := some key }
    | _ => s)

/-! ## LNCH (15 R418) -/

/-- The launch unit takes the job card of a LNCH operation, when it has room. -/
def State.lnchCard (s : State) (o : EngineOp) (q : Nat) : State :=
  if 2048 ≤ s.launches.length then s.postFree .engineComplete (.num o.id)
  else
    let x := s.queue q
    let b := beatOf ((o.block.drop 0x40).take 64)
    let c : Card :=
      { id := s.host.nextCard, queue := q, ctx := o.ctx, pos := x.rd, bits := b
        edges := List.range (min (cardNdep b) 8), fromDrive := some o.id }
    let s1 := s.onHost fun h => { h with nextCard := h.nextCard + 1, cards := h.cards ++ [c] }
    let c1 := if cardOk b then s1.meetEdges c else { c with edges := [] }
    let s2 := (s1.modCard c.id fun _ => c1).onEngines fun e =>
      { e with ops := e.ops.map fun p => if p.id == o.id then { p with started := true } else p }
    s2.launchCard c1

/-- LNCH: the command takes its block at cycle A. The queue of the program's card is kept as the operation's unit. -/
def execLnch (s : State) : Out :=
  .next (match s.arg with
    | .lnch n q cmd =>
      let die := s.coachDie
      let (id, s1) := s.fresh
      let o : EngineOp :=
        { id := id, eop := 0x20, ctx := n, tid := none, core := none, die := die, unit := q, pblk := cmdBlock cmd
          roll := cmdRoll cmd, block := s.windowRead (cmdBlock cmd) 128, cmd := cmd
          driveKey := some (driveKeyOf 1 die 0) }
      (s1.onEngines fun e => { e with ops := e.ops ++ [o] }).lnchCard o q
    | _ => s)

end Sys2Proof.Machine
end

