-- ==== Sys2Proof/Machine/Houses.lean ====
section
/-! DEFINITION. House commands: projection slots, signatures, HCFG, HKST and HGTH (10 R257 to R263; 15 R416; 19 R432). -/

namespace Sys2Proof.Machine

open Sys2Proof

/-! ## Descriptors and blocks (10 R257, R260) -/

/-- A house descriptor. -/
structure HouseDesc where
  addr : Nat
  kbase : Nat
  vbase : Nat
  tmax : Nat
  d : Nat
  kty : Ty
  vty : Ty
  vd : Nat
  dirbase : Nat
  pool : Nat
  nblk : Nat
  nextfree : Nat
  deriving DecidableEq, Repr

/-- Bytes of a key row's elements. -/
def HouseDesc.kbytes (h : HouseDesc) : Nat := h.d * (tyBits h.kty / 8)
/-- Bytes of a value row's elements. -/
def HouseDesc.vbytes (h : HouseDesc) : Nat := h.vd * (tyBits h.vty / 8)
/-- KSTR. -/
def HouseDesc.kstr (h : HouseDesc) : Nat := (h.kbytes + 63) / 64 * 64
/-- VSTR. -/
def HouseDesc.vstr (h : HouseDesc) : Nat := (h.vbytes + 63) / 64 * 64
/-- The address of a block. -/
def HouseDesc.blockVa (h : HouseDesc) (i : Nat) : Nat := h.pool + 64 * i

/-- No block. -/
abbrev noBlock : Nat := 0xFFFFFFFF

/-- A house block. -/
structure HouseBlock where
  toks : List Nat
  next : Nat
  overfull : Bool
  nchain : Nat
  deriving DecidableEq, Repr

/-- A block from its 64 bytes; none where COUNT lies outside 1 to 14. -/
def blockOf (b : List Byte) : Option HouseBlock :=
  let n := fieldAt b 60 1
  if n = 0 ∨ 14 < n then none
  else some
    { toks := (List.range n).map fun i => fieldAt b (4 * i) 4, next := fieldAt b 56 4, overfull := fieldAt b 61 1 % 2 == 1
      nchain := fieldAt b 62 2 }

/-- The 64 bytes of a block. -/
def HouseBlock.bytes (b : HouseBlock) : List Byte :=
  padTo 56 (b.toks.flatMap fun t => natLe 4 t) ++ natLe 4 b.next ++ natLe 1 b.toks.length ++ natLe 1 (flag b.overfull) ++
    natLe 2 b.nchain

/-! ## Projection slots and signatures (10 R258, R259) -/

/-- The projection slot a command names: die and slot (15 R416). -/
def houseKey (o : EngineOp) : Nat := o.field 0x10 1

/-- Does an earlier command of the same slot still run (19 R432)? -/
def State.houseBusy (s : State) (o : EngineOp) : Bool :=
  s.engines.ops.any fun p => [0x10, 0x11, 0x12].contains p.eop && decide (p.id < o.id) && houseKey p == houseKey o

/-- The sign of an exact sum: is the bit of a signature set? -/
def sumNonneg (a : Accum) : Bool := a.nan || a.pinf || (!a.ninf && decide (0 ≤ a.sum))

/-- A signature bit: the exact sum of the elements, those of the row's set bits negated. -/
def signBitOf (row : BitVec 256) (x : List FpVal) : Bool :=
  sumNonneg (x.zipIdx.foldl (fun a (v, i) => accAdd a (if row.getLsbD i then negVal v else v)) {})

/-- The signature under matrix `l`. -/
def ProjSlot.signature (p : ProjSlot) (l : Nat) (x : List FpVal) : Nat :=
  ((List.range p.b).map fun j => if signBitOf (p.rows.getD 0 (16 * l + j)) x then 2 ^ j else 0).sum

/-- The elements of a vector in a format. -/
def vecVals (ty : Ty) (n : Nat) (bs : List Byte) : List FpVal :=
  (List.range n).map fun i => decodeTy ty (fieldAt bs (tyBits ty / 8 * i) (tyBits ty / 8))

/-- The slot a command names, where its context has loaded it. -/
def engSlot (o : EngineOp) : Eng ProjSlot := do
  match (← get).engines.proj.find? (houseKey o) with
  | some p => if p.ctx = some o.ctx then pure p else engParam o
  | none => engParam o

/-- KFMT and VFMT: FP32, BF16 or FP16. -/
def houseFmt (c : Nat) : Bool := decide (c ≤ 2)

/-- Read the descriptor of a slot and check it; its D is the slot's. -/
def engHouse (o : EngineOp) (p : ProjSlot) : Eng HouseDesc := do
  let a := p.hdesc
  let b ← engRead o a 64
  let h : HouseDesc :=
    { addr := a, kbase := fieldAt b 0 8 % 2 ^ 57, vbase := fieldAt b 8 8 % 2 ^ 57, tmax := fieldAt b 0x10 4
      d := fieldAt b 0x14 2, kty := tyOfFmtCode (fieldAt b 0x16 1), vty := tyOfFmtCode (fieldAt b 0x17 1)
      vd := fieldAt b 0x18 2, dirbase := fieldAt b 0x20 8 % 2 ^ 57, pool := fieldAt b 0x28 8 % 2 ^ 57
      nblk := fieldAt b 0x30 4, nextfree := fieldAt b 0x34 4 }
  engNeedAt a (h.kbase % 64 == 0 && h.vbase % 64 == 0 && h.pool % 64 == 0 && decide (1 ≤ h.d) && decide (h.d ≤ 256) &&
    decide (1 ≤ h.vd) && decide (h.vd ≤ 256) && houseFmt (fieldAt b 0x16 1) && houseFmt (fieldAt b 0x17 1) &&
    fieldAt b 0x1A 6 == 0 && fieldAt b 0x38 8 == 0)
  engNeed o (h.d == p.d)
  pure h

/-- The address of a directory entry. -/
def dirVa (h : HouseDesc) (p : ProjSlot) (l sig : Nat) : Nat := h.dirbase + 4 * (l * 2 ^ p.b + sig)

/-- Read a block named at `from_`, with the checks of 10 R263. -/
def engBlock (o : EngineOp) (h : HouseDesc) (from_ i : Nat) : Eng HouseBlock := do
  engNeedAt from_ (decide (i < h.nextfree))
  let b ← engRead o (h.blockVa i) 64
  match blockOf b with
  | some x =>
    engNeedAt (h.blockVa i) (x.toks.all fun t => decide (t < h.tmax))
    pure x
  | none => engFault cEngineParam (h.blockVa i)

/-! ## HCFG (10 R258; 15 R416) -/

/-- Read a row of a matrix image; no bit at or beyond D is set. -/
def engProjRow (o : EngineOp) (k : Nat) : Eng (Nat × BitVec 256) := do
  let b ← engRead o (o.addr 0x20 + 32 * k) 32
  engNeed o (decide (leNat b < 2 ^ o.field 0x14 2))
  pure (k, BitVec.ofNat 256 (leNat b))

/-- HCFG. -/
def engHcfg (o : EngineOp) : Eng EngEnd := do
  engHeader o 0
  let b := o.field 0x11 1
  let l := o.field 0x12 1
  let d := o.field 0x14 2
  engNeed o (decide (1 ≤ b) && decide (b ≤ 16) && decide (1 ≤ l) && decide (l ≤ 4) && o.zero 0x13 1 && decide (1 ≤ d) &&
    decide (d ≤ 256) && o.zero 0x16 2 && o.addr 0x18 % 64 == 0 && o.addr 0x20 % 32 == 0 && o.zero 0x28 24)
  let s ← get
  let owner := (s.engines.proj.find? (houseKey o)).bind (·.ctx)
  engNeed o (owner.isNone || owner == some o.ctx)
  let rows ← ((List.range l).flatMap fun i => (List.range b).map fun j => 16 * i + j).mapM (engProjRow o)
  let p : ProjSlot := { ctx := some o.ctx, b := b, l := l, d := d, hdesc := o.addr 0x18, rows := rows }
  modify fun s => s.onEngines fun e => { e with proj := e.proj.put (houseKey o) p }
  pure (0, 0)

/-! ## HKST (10 R261, R262) -/

/-- The head of a house: its directory entry's address, its block number and its block. -/
structure HouseHead where
  dir : Nat
  blk : Nat
  block : Option HouseBlock
  deriving DecidableEq, Repr

/-- Read the head of a house of table `l`. -/
def engHead (o : EngineOp) (p : ProjSlot) (h : HouseDesc) (x : List FpVal) (l : Nat) : Eng HouseHead := do
  let a := dirVa h p l (p.signature l x)
  let i := leNat (← engRead o a 4)
  if i = noBlock then pure ⟨a, i, none⟩
  else
    let b ← engBlock o h a i
    engNeedAt (h.blockVa i) (b.next == noBlock || decide (b.next < h.nextfree))
    pure ⟨a, i, some b⟩

/-- Does a link to this house need a new block? -/
def HouseHead.full (x : HouseHead) : Bool :=
  match x.block with
  | none => true
  | some b => b.toks.length == 14

/-- A new block in front of a house. -/
def HouseHead.grow (x : HouseHead) (t : Nat) : HouseBlock :=
  let nc := match x.block with
    | none => 1
    | some b => min (b.nchain + 1) 65535
  { toks := [t], next := x.blk, nchain := nc
    overfull := decide (64 < nc) || match x.block with
      | none => false
      | some b => b.overfull }

/-- The writes that link token `t` into a list of houses, taking blocks from `next` on: addresses and bytes. -/
def linkWrites (h : HouseDesc) (t : Nat) : Nat → List HouseHead → List (Nat × List Byte)
  | _, [] => []
  | next, x :: rest =>
    match x.full, x.block with
    | false, some b => (h.blockVa x.blk, ({ b with toks := b.toks ++ [t] } : HouseBlock).bytes) :: linkWrites h t next rest
    | _, _ => (h.blockVa next, (x.grow t).bytes) :: (x.dir, natLe 4 next) :: linkWrites h t (next + 1) rest

/-- Check the places of some writes. -/
def engPlans (o : EngineOp) (ws : List (Nat × List Byte)) : Eng (List (List (Nat × Nat × Loc) × List Byte)) :=
  ws.mapM fun w => do pure (← engPlan o w.1 w.2.length, w.2)

/-- HKST. Where a row or the descriptor lies on a page of a peer, the links wait for the acknowledgements of what is
written first: `linkFrom` then holds the first reserved block (10 R261, R262). -/
def engHkst (o : EngineOp) : Eng EngEnd := do
  engHeader o 0
  let t := o.field 0x14 4
  let kva := o.addr 0x18
  let vva := o.addr 0x20
  engNeed o (o.zero 0x11 3 && o.zero 0x28 24 && inScratch kva && inScratch vva)
  let p ← engSlot o
  let h ← engHouse o p
  engNeed o (decide (t < h.tmax))
  let key ← engReadOnce o kva h.kbytes
  let val ← engReadOnce o vva h.vbytes
  let heads ← (List.range p.l).mapM (engHead o p h (vecVals h.kty h.d key))
  let need := heads.countP HouseHead.full
  engNeed o (o.linkFrom.isSome || decide (h.nextfree + need ≤ h.nblk))
  let links ← engPlans o (linkWrites h t (o.linkFrom.getD h.nextfree) heads)
  if o.linkFrom.isSome then links.forM fun w => engPut o w.1 w.2
  else
    let rows ← engPlans o
      [(h.addr + 0x34, natLe 4 (h.nextfree + need)), (h.kbase + t * h.kstr, key), (h.vbase + t * h.vstr, val)]
    rows.forM fun w => engPut o w.1 w.2
    if rows.any fun w => !(locSpans w.1).isEmpty then
      modify fun s => s.modOp o.id fun o => { o with linkFrom := some h.nextfree }
    else links.forM fun w => engPut o w.1 w.2
  pure (0, 0)

/-! ## HGTH (10 R263) -/

/-- Walk a chain from a block already read; `fuel` is how many more blocks it may have. -/
def engChain (o : EngineOp) (h : HouseDesc) : Nat → Nat → HouseBlock → List Nat → Eng (List Nat)
  | fuel, at_, b, acc =>
    let acc1 := b.toks.foldl (fun l t => insertNat t l) acc
    if b.next = noBlock then pure acc1
    else
      match fuel with
      | 0 => engFault cEngineParam at_
      | n + 1 => do
        let c ← engBlock o h at_ b.next
        engChain o h n (h.blockVa b.next) c acc1

/-- Gather the tokens of a query's houses: the union so far, and whether a house is overfull. -/
def engGather (o : EngineOp) (p : ProjSlot) (h : HouseDesc) (q : List FpVal) :
    List Nat → List Nat × Bool → Eng (List Nat × Bool)
  | [], r => pure r
  | l :: rest, (u, overfull) => do
    let a := dirVa h p l (p.signature l q)
    let i := leNat (← engRead o a 4)
    if i = noBlock then engGather o p h q rest (u, overfull)
    else
      let b ← engBlock o h a i
      if b.overfull then engGather o p h q rest (u, true)
      else
        let u1 ← engChain o h (h.nextfree - 1) (h.blockVa i) b u
        engGather o p h q rest (u1, overfull)

/-- Does a range lie in scratch allocations of the context? -/
def State.inAllocs (s : State) (ctx va n : Nat) : Bool :=
  n == 0 || (inScratch va && (cuts 0x10000 va n).all fun x => inScratch x.1 &&
    match s.checkScratch ctx x.1 x.2 with
    | .ok _ => true
    | _ => false)

/-- The copies that entry `i` of a gather makes: its token, its key row and its value row. -/
def engEntryWrites (o : EngineOp) (h : HouseDesc) (i t : Nat) : Eng (List (Nat × List Byte)) := do
  let k ← engRead o (h.kbase + t * h.kstr) h.kbytes
  let v ← engRead o (h.vbase + t * h.vstr) h.vbytes
  pure [(o.addr 0x28 + 4 * i, natLe 4 t), (o.addr 0x30 + i * h.kstr, k), (o.addr 0x38 + i * h.vstr, v)]

/-- HGTH. -/
def engHgth (o : EngineOp) : Eng EngEnd := do
  engHeader o 0
  let mode := o.field 0x11 1
  let minc := o.field 0x12 2
  let maxc := o.field 0x14 2
  let qva := o.addr 0x18
  let stat := o.addr 0x20
  engNeed o (decide (mode ≤ 1) && decide (minc ≤ maxc) && decide (maxc ≤ 4096) && o.zero 0x16 2 && inScratch qva &&
    stat % 8 == 0)
  let p ← engSlot o
  let h ← engHouse o p
  let s ← get
  engNeed o (s.inAllocs o.ctx (o.addr 0x28) (4 * maxc) && s.inAllocs o.ctx (o.addr 0x30) (maxc * h.kstr) &&
    s.inAllocs o.ctx (o.addr 0x38) (maxc * h.vstr))
  let q ← engRead o qva h.kbytes
  let (u, overfull) ← engGather o p h (vecVals h.kty h.d q) (List.range p.l) ([], false)
  let n := u.length
  if overfull || decide (n < minc) || decide (maxc < n) then
    engWrite o stat (natLe 8 (min n 65535 + 2 ^ 16 + flag overfull * 2 ^ 17))
    pure (if mode = 1 then cLshFallback else 0, 0)
  else
    let entries ← u.zipIdx.mapM fun (t, i) => engEntryWrites o h i t
    let plan ← engPlan o stat 8
    let plans ← entries.flatten.mapM fun w => do pure (← engPlan o w.1 w.2.length, w.2)
    engPut o plan (natLe 8 n)
    plans.forM fun w => engPut o w.1 w.2
    pure (0, 0)

end Sys2Proof.Machine
end

