-- ==== Sys2Proof/Machine/Engines.lean ====
section
/-! DEFINITION. ENGINE_COMPLETE: an engine operation does its work and ends (15 R405 to R418; 11 R283, R285). -/

namespace Sys2Proof.Machine

open Sys2Proof

/-- The work of an operation by its EOP; an operation that its engine does not accept ends with ENGINE_PARAM (11 R285). -/
def engBody (o : EngineOp) : Eng EngEnd :=
  match o.eop with
  | 0x01 => engCpy o
  | 0x02 => engCpym o
  | 0x03 => engIrr o
  | 0x08 => engEmbg o
  | 0x09 => engEmbu o
  | 0x0A => engA2aOpen o
  | 0x0B => engCollOpen o
  | 0x10 => engHcfg o
  | 0x11 => engHkst o
  | 0x12 => engHgth o
  | 0x18 => engTtload o
  | _ => engParam o

/-- Does the engine that a drive slot is bound to accept the operation? -/
def EngineOp.accepted (o : EngineOp) : Bool :=
  match o.driveKey with
  | some k => k / 64 == eopTarget o.eop
  | none => true

/-- Run a piece of an operation's work. -/
def State.runEng (s : State) (o : EngineOp) (m : Eng EngEnd) : State :=
  match m s with
  | (.ok r, s1) =>
    match s1.engines.ops.find? (·.id == o.id) with
    | some o1 => if o1.coll.isSome || (o1.linkFrom.isSome && o.linkFrom.isNone) then s1 else s1.engWorked o1 r
    | none => s1
  | (.error stop, s1) => s.engStopped s1 o stop

/-- Run the last piece of a collective's work. -/
def State.runLast (s : State) (o : EngineOp) (m : Eng EngEnd) : State := s.runEng { o with coll := none } (do
  modify fun s => s.modOp o.id fun o => { o with coll := none }
  m)

/-- An open collective goes on (15 R413 to R415). -/
def State.collStep (s : State) (o : EngineOp) (c : CollState) : State :=
  if o.eop = 0x0B then
    (let srcs := (collNeeds o c).map c.dataOf
     if srcs.all (·.isSome) then s.runLast o (engCollFinish o c (srcs.filterMap id)) else s)
  else
    match c.arrived.find? c.ready with
    | some x => s.runEng o (engA2aStep o c x (c.arrived.erase x))
    | none => if c.a2aDone (s.ownChip o.die) then s.runLast o (engA2aFinish o c) else s

/-- An operation goes on, as far as it can. -/
def State.engStep (s : State) (o : EngineOp) : State :=
  if o.ended || o.parked.isSome || s.opReads o.id then s
  else if o.release.isSome then
    (let f := o.fault.getD (0, 0)
     s.engFinish o f.1.toNat f.2.toNat)
  else if !s.clocks.heardAll o.die o.clock then s.post 1 .engineComplete (.num o.id)
  else if !o.accepted then s.engFinish o cEngineParam (scratchBase + o.pblk)
  else
    match o.fault with
    | some (code, addr) => if s.opWrites o.id && o.slip.isNone then s else s.engFinish o code.toNat addr.toNat
    | none =>
      if o.eop = 0x20 then (if o.started then s else s.lnchCard o o.unit)
      else if o.started then s.engSettle o
      else
        match o.coll with
        | some c => s.collStep o c
        | none =>
          if [0x10, 0x11, 0x12].contains o.eop && s.houseBusy o then s.post 1 .engineComplete (.num o.id)
          else if o.linkFrom.isSome && s.opWrites o.id then s
          else s.runEng o (engBody o)

/-- ENGINE_COMPLETE; an engine of a held die does nothing (01 R18, R24). -/
def execEngineComplete (s : State) : Out :=
  .next (match s.arg with
    | .num id =>
      match s.engines.ops.find? (·.id == id) with
      | some o => if s.package.held.contains o.die then s else s.engStep o
      | none => s
    | _ => s)

end Sys2Proof.Machine
end

