-- ==== Sys2Proof/Machine/Locks.lean ====
section
/-! DEFINITION. What a Prefect does with requests, tries and releases, and how a grant reaches its task (09 R229 to
R240). -/

namespace Sys2Proof.Machine

open Sys2Proof

/-- A grant reaches its task: it holds the lock, acquires at PKG scope, and its wait ends; a fault that came meanwhile is
taken at the waiting bundle (09 R232, R233; 06 R162). -/
def State.lockGranted (s : State) (tid lw : Word) (m : LockMode) : State :=
  let s1 := (s.modTask tid fun t => Task.addLock t lw m)
  match s1.task? tid with
  | none => s1
  | some t =>
    let s2 := s1.acquireBy tid (Task.onCore t) .pkg
    let s3 := if t.phase != .bound && t.faults != [] && !t.trap.mode then s2.modTask tid Task.toRedo else s2
    s3.wake tid

/-- What a request needs at its Prefect that is not free: an entry or a record (09 R237). -/
def State.lacksRoom (s : State) (o : LockObj) (tid : Word) (grant : Bool) : Bool :=
  let home := lwHome o.lw
  let newEntry := o.holders.isEmpty && o.queue.isEmpty
  let newRecord := !(grant && o.holders.any fun h => h.1 == tid)
  (newEntry && decide (65536 ≤ s.pfEntries home)) || (newRecord && decide (262144 ≤ s.pfRecords home))

/-- Does a request need a new entry or record at all? -/
def needsRoom (o : LockObj) (tid : Word) (grant : Bool) : Bool := !(grant && o.holders.any fun h => h.1 == tid)

/-- Does a ticket wait at a Prefect (09 R237, R240)? -/
def State.ticketed (s : State) (home : Nat) : Bool := s.prefects.tickets.any fun k => k.1 == home

/-- Mark the holders that a wound is sent to, wherever they hold (09 R234). -/
def State.markWounds (s : State) (hit : List Word) : State :=
  s.onPrefects fun p =>
    { p with objs := p.objs.map fun o =>
        { o with holders := o.holders.map fun h => if hit.contains h.1 then (h.1, h.2.1, true) else h } }

/-- A request is granted at once, or queued with wounds for the younger holders in its way that have none yet (09 R229,
R234). -/
def State.decideLock (s : State) (t : Task) (lw : Word) (m : LockMode) : State :=
  let c := s.ctx t.ctx
  let mx := c.lkcompat
  let o := s.lockObj c.asid lw
  if grantAtOnce mx o t.tid m then (s.setLockObj (addHolder o t.tid m)).lockGranted t.tid lw m
  else
    let hit := (woundsOf mx o t.tid m).filter fun h => !s.woundSent h
    let s1 := (s.setLockObj { o with queue := queueByAge t.tid m o.queue }).markWounds hit
    let s2 := s1.modCtx t.ctx fun c => { c with lkWounds := min (c.lkWounds + hit.length) (2 ^ 32 - 1) }
    let s3 := hit.foldl (fun s h => s.post 0 .wound (.task h)) s2
    if t.phase = .bound then s3.parkStall t.tid (.lock lw m) else s3

/-- A request is refused for want of an entry or a record (09 R237). -/
def State.refuseLock (s : State) (t : Task) : State :=
  s.modCtx t.ctx fun c => { c with lkRefusals := min (c.lkRefusals + 1) (2 ^ 32 - 1) }

/-- A task parks with a request that has not been decided: one that waits in its core's port, or one refused (09 R232,
R237). -/
def State.parkRefused (s : State) (t : Task) (r : LockRefusal) : State :=
  let s1 := s.onPrefects fun p => { p with refused := p.refused ++ [r] }
  if t.phase = .bound then s1.parkStall t.tid (.lock r.lw r.mode) else s1

/-- A first request (09 R229, R237): decided, or refused and retried 32 cycles later; behind a ticketed one of its core's
port it waits in the port (01 R14). -/
def State.lockRequest (s : State) (t : Task) (lw : Word) (m : LockMode) : State :=
  let c := s.ctx t.ctx
  let o := s.lockObj c.asid lw
  let grant := grantAtOnce c.lkcompat o t.tid m
  let home := lwHome lw
  let core := Task.onCore t
  if s.portTicket core home then
    (s.parkRefused t ⟨t.tid, lw, m, 0, core⟩).onPrefects fun p => { p with behind := p.behind ++ [(home, t.tid)] }
  else if s.lacksRoom o t.tid grant || (needsRoom o t.tid grant && s.ticketed home) then
    ((s.refuseLock t).parkRefused t ⟨t.tid, lw, m, 1, core⟩).post 32 .lockRefusalRetry (.task t.tid)
  else s.decideLock t lw m

/-- PREFECT_LOCK_REQUEST: a task's request reaches its Prefect. -/
def execPrefectLockRequest (s : State) : Out :=
  .next (match s.arg with
    | .lock tid lw m _ =>
      match s.task? tid with
      | some t =>
        if t.wait = some (.lock lw m) then
          s.inLockOrder tid (lwHome lw) .prefectLockRequest fun s => s.lockRequest t lw m
        else s
      | none => s
    | _ => s)

/-- A try is decided (09 R231): granted as a request would be at once, else BUSY. -/
def State.lockTry (s : State) (t : Task) (lw : Word) (m : LockMode) (id : Nat) : State :=
  let c := s.ctx t.ctx
  let o := s.lockObj c.asid lw
  let grant := grantAtOnce c.lkcompat o t.tid m
  if grant && !s.lacksRoom o t.tid grant && !(needsRoom o t.tid grant && s.ticketed (lwHome lw)) then
    let s1 := (s.setLockObj (addHolder o t.tid m)).modTask t.tid fun t => Task.addLock t lw m
    (s1.acquireBy t.tid (Task.onCore t) .pkg).landFor t.tid id (.word 1)
  else s.landFor t.tid id (.word 0)

/-- PREFECT_LOCK_TRY. -/
def execPrefectLockTry (s : State) : Out :=
  .next (match s.arg with
    | .lock tid lw m id =>
      match s.task? tid with
      | some t => s.inLockOrder tid (lwHome lw) .prefectLockTry fun s => s.lockTry t lw m id
      | none => s
    | _ => s)

/-- PREFECT_LOCK_RELEASE: a holder leaves, and the grant step runs (09 R230). -/
def execPrefectLockRelease (s : State) : Out :=
  .next (match s.arg with
    | .lock tid lw _ _ =>
      match s.task? tid with
      | some t =>
        let c := s.ctx t.ctx
        let o := s.lockObj c.asid lw
        if o.holders.any (·.1 == tid) then
          (s.runGrants c.lkcompat { o with holders := o.holders.filter (·.1 != tid) }).offerLock (lwHome lw)
        else s
      | none => s
    | _ => s)

/-- LOCK_GRANT: the grant step's answer reaches a waiting task (09 R230). -/
def execLockGrant (s : State) : Out :=
  .next (match s.arg with
    | .task tid =>
      match s.task? tid with
      | some t =>
        match t.wait with
        | some (.lock lw m) =>
          if (s.lockObj (s.ctx t.ctx).asid lw).holders.any fun h => h.1 == tid && h.2.1 == m then s.lockGranted tid lw m
          else s
        | _ => s
      | none => s
    | _ => s)

/-- A refused request tries again (09 R237): with an entry held for it, it claims it and is decided; the first retry is
decided, or refused again, which gives a ticket, or waits in its core's port behind a ticketed one (01 R14, R15). -/
def State.lockRetry (s : State) (t : Task) (r : LockRefusal) : State :=
  let c := s.ctx t.ctx
  let o := s.lockObj c.asid r.lw
  let home := lwHome r.lw
  let grant := grantAtOnce c.lkcompat o t.tid r.mode
  if r.refusals = 2 then
    (if s.prefects.held.contains (home, t.tid) then (s.dropRefusal t.tid).decideLock t r.lw r.mode else s)
  else if s.prefects.behind.contains (home, t.tid) then s
  else if s.portTicket r.core home then s.onPrefects fun p => { p with behind := p.behind ++ [(home, t.tid)] }
  else if s.lacksRoom o t.tid grant then
    ((s.refuseLock t).onPrefects fun p =>
      { p with
        refused := p.refused.map fun x => if x.tid == t.tid then { x with refusals := 2 } else x
        tickets := p.tickets ++ [(home, t.tid)] }).offerLock home
  else (s.dropRefusal t.tid).decideLock t r.lw r.mode

/-- LOCK_REFUSAL_RETRY. -/
def execLockRefusalRetry (s : State) : Out :=
  .next (match s.arg with
    | .task tid =>
      match s.task? tid, s.prefects.refused.find? (·.tid == tid) with
      | some t, some r => s.inLockOrder tid (lwHome r.lw) .lockRefusalRetry fun s => s.lockRetry t r
      | _, _ => s
    | _ => s)

end Sys2Proof.Machine
end

