-- ==== Sys2Proof/Machine/Clock.lean ====
section
/-! DEFINITION. The schedule: which event runs next, and what each cycle gives the machine to do (log entries 5, 11). -/

namespace Sys2Proof.Machine

open Sys2Proof

/-! ## What a cycle gives the machine to do -/

/-- Is a die at work: not held, and the package not stopped (01 R18, R24; 02 R60)? -/
def State.dieWorks (s : State) (die : Nat) : Bool :=
  !s.package.held.contains die && s.package.phase != .halted && s.package.phase != .failed

/-- Launches whose turn it is, and those that create a task (04 R99). -/
def State.launchTurns (s : State) : List (Instr × EvArg) :=
  (((List.range 64).filter fun n => (s.firstEligible n).isSome).map fun n => (Instr.launchRelease, EvArg.num n)) ++
  (s.creating.map fun l => (Instr.taskCreate, EvArg.num l.lnum.toNat))

/-- The card read next, and the drive program started next (03 R73, R85). -/
def State.coachTurns (s : State) : List (Instr × EvArg) :=
  (match s.cardTurn with
   | some q =>
     [(match s.nextKind q with
       | 1 => Instr.jobCardLaunch
       | 2 => Instr.jobCardDrive
       | 3 => Instr.jobCardNull
       | _ => Instr.jobCardInvalid, EvArg.num q)]
   | none => []) ++
  (match s.driveNext with
   | some c => if s.host.activeHub.isSome then [(Instr.driveProgramStart, EvArg.num c.id)] else []
   | none => [])

/-- Engine operations that wait for their remote writes, or for their launch (15 R409, R418). -/
def State.engineTurns (s : State) : List (Instr × EvArg) :=
  (s.engines.ops.filter fun o => o.started && !o.ended && s.dieWorks o.die).map fun o =>
    (Instr.engineComplete, EvArg.num o.id)

/-- Does a cluster's dispatcher have anything to do (04 R101, R109)? -/
def State.bindTurn (s : State) (cluster : Nat) : Bool :=
  (s.bindChoice cluster).isSome ||
  s.tasks.any (s.endWakes cluster)

/-- Binding, and what makes room for it (04 R101, R109, R112). -/
def State.bindTurns (s : State) : List (Instr × EvArg) :=
  if s.tasks.isEmpty then []
  else
    (((List.range 96).filter fun k => s.dieWorks (k / 24) && s.bindTurn k).map fun k => (Instr.taskBind, EvArg.num k)) ++
    ((s.tasks.filter s.preemptDue).map fun t => (Instr.bindWaitPreempt, EvArg.task t.tid)) ++
    ((s.tasks.filter s.evictDue).map fun t => (Instr.waitEviction, EvArg.task t.tid))

/-- Tandem groups whose eight have arrived (12 R324). -/
def State.tandemTurns (s : State) : List (Instr × EvArg) :=
  (s.cores.tandems.filter fun g => g.2.group.isEmpty && (s.tandemSet g.1).isSome).map fun g =>
    (Instr.tandemGroupForm, EvArg.num g.1)

/-- The cores with a sequencer at work: each issues at most one bundle in a cycle (04 R104). -/
def State.issueTurns (s : State) : List (Instr × EvArg) :=
  (s.cores.cores.filter fun c => c.2.seqs.toList.any fun q => q.phase == .active).map fun c =>
    (Instr.issueBundle, EvArg.num c.1)

/-- Everything a cycle gives the machine to do, in the order in which it is done. -/
def State.turnsNow (s : State) : List (Instr × EvArg) :=
  s.launchTurns ++ s.coachTurns ++ s.engineTurns ++ s.bindTurns ++ s.tandemTurns ++ s.issueTurns

/-! ## The next event -/

/-- The event that runs next: one from outside, else one that is due, else what is left of the cycle. -/
def State.takeEvent (s : State) : Option (Instr × EvArg × State) :=
  match s.inputs with
  | (i, a) :: rest => some (i, a, { s with inputs := rest })
  | [] =>
    let turn (s : State) : Option (Instr × EvArg × State) :=
      match s.turns with
      | (i, a) :: rest => some (i, a, { s with turns := rest })
      | [] => none
    match s.due with
    | (t, i, a) :: rest => if t ≤ s.cycle then some (i, a, { s with due := rest }) else turn s
    | [] => turn s

/-- Events whose time has come are due in this cycle. -/
def State.fireTimers (s : State) : State :=
  (s.timers.filter fun x => decide (x.1 ≤ s.time)).foldl (fun s x => s.post 0 x.2.1 x.2.2)
    { s with timers := s.timers.filter fun x => !decide (x.1 ≤ s.time) }

/-- Every stream unit at work takes an element (13 R350). -/
def State.streamTick (s : State) : State :=
  (s.streamCores.filter fun c => s.dieWorks (coreDie c)).foldl (fun s c => s.streamTurn c) s

/-- The next cycle begins: rolls that have completed end their waits (14 R381), the stream units take their elements, and the cycle's work is drawn up. -/
def State.tick (s : State) : State :=
  let s0 := { s with cycle := s.cycle + 1, time := s.time + periodUnits s.package.point }
  let s1 := (s0.fireTimers.pokeRolls 0).streamTick
  { s1 with turns := s1.turnsNow }

/-- Run an event: ISSUE_BUNDLE with the bundle it opens, any other by its meaning `ex`. -/
def runEvent (ex : Instr → State → Out) (i : Instr) (a : EvArg) (s : State) : Out :=
  let s1 := { s with arg := a }
  match i, a with
  | .issueBundle, .num core => .next (issueCore ex core 4 0 s1)
  | _, _ => ex i s1

/-! ## A machine with one task, at a given bundle -/

/-- A page-table leaf of 1 GiB that maps the first gigabyte to itself, readable, writable and executable (05 R149). -/
def placeLeaf : BitVec 64 := 0x1F

/-- The launch of the task that is placed: context 0, one task, data addresses from 0 to themselves (05 R147). -/
def placeLaunch : Launch :=
  { lnum := 0, ctx := 0, card := 0, prio := 0, eff := 0, vers := false, checked := false, phase := .running, args := 0
    scratch := 0x1000, stages := [(0x10000, 1)], hwb := 0, hwl := 0x1000, hwo := 0, tvec := 0x8000, age := 4096
    pdl := 20000, markgap := 50000, live := 1 }

/-- The task that is placed, with PC 0x1_0000 on sequencer 0 of core 0. -/
def placeTask : Task :=
  let t : Task :=
    { tid := 0, ctx := 0, phase := .bound, core := some 0, sq := some 0, entry := 0x10000, args := 0, count := 1
      place := 0, scrBytes := 0x1000, alloc := some (0, 0x1000), frame := 0, prio := 0 }
  { t with r := startRegs t 0 0 }

/-- The core that runs it: the task on sequencer 0, its allocation, and a translation of its code. -/
def placeCore : CoreSt :=
  let sq : Seq := { phase := .active, task := some 0 }
  { seqs := (Vector.replicate 4 ({} : Seq)).set 0 sq
    tlb := [⟨0, 0, 2, placeLeaf⟩]
    allocs := [(0, 0x1000, 0, 0)] }

/-- The bundle that holds one instruction word and three NOPs. A word with STOP set is the bundle's last. -/
def placeBundle (w : BitVec 32) : List Byte :=
  if w.getLsbD 31 then [0, 0, 0, w].flatMap fun x => natLe 4 (BitVec.toNat x)
  else [w, 0, 0, 0x80000000].flatMap fun x => natLe 4 (BitVec.toNat x)

/-- The machine with one task whose next bundle is that of an instruction word, about to issue. -/
def State.placeWord (s : State) (w : BitVec 32) : State :=
  { s with
    package := { s.package with
      phase := .ready, pause := false, held := [], wakes := [(0, { awake := true, clusters := [0] })] }
    host := { s.host with ctxs := s.host.ctxs.put 0 { s.ctx 0 with phase := .live, asid := 0, hold := false } }
    launches := [placeLaunch]
    tasks := [placeTask]
    cores := { s.cores with cores := [(0, placeCore)], tandems := [] }
    mem := { s.mem with bytes := cellsWrite s.mem.bytes 0x10000 (placeBundle w), poison := [], lineKey := [] }
    cur := none, inputs := [], due := [], turns := [(.issueBundle, .num 0)] }

end Sys2Proof.Machine
end

