-- ==== Sys2Proof/Machine/Aperture.lean ====
section
/-! DEFINITION. The adapter: the device memory aperture of BAR2 (03 R62, R63; 05 R155), accesses it refuses (R61), and
the reset of its endpoint (01 R19). -/

namespace Sys2Proof.Machine

open Sys2Proof

/-- Do accesses through the adapter reach the device (03 R62)? -/
def State.apertureOpen (s : State) : Bool := s.host.welomUp && s.package.phase == .ready

/-- BASE + offset (03 R63). -/
def State.apertureAddr (s : State) (off : Nat) : Nat := s.host.apBase.toNat * 2 ^ 30 + off

/-- The physical address an outcome of a translation tells (06 R160), or zero. -/
def chkPa (c : Chk Loc) : Nat :=
  match c with
  | .bad code _ info => if code = 0x010C ∨ code = 0x010D then info else 0
  | .ok (.phys pa _ _) => pa
  | _ => 0

/-- A piece of an aperture access within one 64 KiB page: its place, or the physical address of the failure's event
(03 R63). `kind` tells a read, which a poisoned beat fails, from a write. -/
def State.aperturePiece (s : State) (a n : Nat) (kind : AccKind) : Except Nat Loc :=
  let c : Chk Loc :=
    if s.host.apMode then
      if (s.ctx s.host.apCtx.toNat).phase = .live then s.ctxAccess s.host.apCtx.toNat (a % 2 ^ 57) n kind
      else .bad 0 a 0
    else if 2 ^ 52 ≤ a then .bad 0 a 0
    else if 2 ^ 51 ≤ a ∨ physExists s a = false then .bad 0x010D a a
    else .ok (.phys a .system false)
  match c with
  | .ok (.phys pa p e) =>
    if 2 ^ 51 ≤ pa then .error pa
    else if kind ≠ .store ∧ (s.poisonedLine pa n).isSome then .error pa
    else .ok (.phys pa p e)
  | .ok (.sram core off) => .ok (.sram core off)
  | _ => .error (chkPa c)

/-- An aperture access cut at 64 KiB; a physical address does not wrap. -/
def apertureCuts (a n : Nat) : List (Nat × Nat) := cutRange 0x10000 (n / 0x10000 + 2) a n

/-- Every piece of an aperture access with its place, or the physical address of the first failure. -/
def State.aperturePieces (s : State) (kind : AccKind) : List (Nat × Nat) → Except Nat (List (Nat × Nat × Loc))
  | [] => .ok []
  | (a, n) :: rest =>
    match s.aperturePiece a n kind with
    | .error pa => .error pa
    | .ok loc =>
      match s.aperturePieces kind rest with
      | .error pa => .error pa
      | .ok l => .ok ((a, n, loc) :: l)

/-- Record an aperture failure (03 R63, R65). -/
def State.apertureFail (s : State) (pa : Nat) : State :=
  s.recordEvent 6 s.coachDie (if s.host.apMode then s.host.apCtx.toNat else 0) pa 0

/-- Answer a read of the adapter. -/
def State.reply (s : State) (bs : List Byte) : State := s.onHost fun h => { h with replies := bs :: h.replies }

/-- All ones. -/
def onesBytes (n : Nat) : List Byte := List.replicate n 0xFF

/-- Read a piece at its place, under the aperture's key. -/
def State.apertureRead (s : State) (a n : Nat) (loc : Loc) : List Byte × State :=
  match s.host.apMode, loc with
  | false, .phys pa _ _ => s.physRead 0 pa n
  | _, _ => s.locRead s.host.apCtx.toNat (a % 2 ^ 57) loc n false

/-- Write a piece at its place, under the aperture's key. -/
def State.apertureWrite (s : State) (a : Nat) (loc : Loc) (bs : List Byte) : State :=
  match s.host.apMode, loc with
  | false, .phys pa _ _ => s.physWrite 0 pa bs
  | _, _ => s.locWrite s.host.apCtx.toNat (a % 2 ^ 57) loc bs false

/-- APERTURE_READ: an acquire at PKG scope (03 R63). -/
def execApertureRead (s : State) : Out :=
  .next (match s.arg with
    | .num2 off len =>
      if s.apertureOpen then
        match s.aperturePieces .load (apertureCuts (s.apertureAddr off) len) with
        | .error pa => (s.apertureFail pa).reply (onesBytes len)
        | .ok l =>
          let r := l.foldl (fun (r : List Byte × State) (p : Nat × Nat × Loc) =>
            let (bs, s1) := r.2.apertureRead p.1 p.2.1 p.2.2
            (r.1 ++ bs, s1)) ([], s)
          r.2.reply r.1
      else s.reply (onesBytes len)
    | _ => s)

/-- APERTURE_WRITE: a release at PKG scope (03 R63; 07 R189). -/
def execApertureWrite (s : State) : Out :=
  .next (match s.arg with
    | .bytes off data =>
      if s.apertureOpen then
        let a0 := s.apertureAddr off
        match s.aperturePieces .store (apertureCuts a0 data.length) with
        | .error pa => s.apertureFail pa
        | .ok l =>
          let s1 := l.foldl (fun (r : List Byte × State) (p : Nat × Nat × Loc) =>
            (r.1.drop p.2.1, r.2.apertureWrite p.1 p.2.2 (r.1.take p.2.1))) (data, s)
          s1.2.countRelease s.coachDie 0
      else s
    | _ => s)

/-- The operation of a PCIe AtomicOp (14 R371). -/
def pcieSpec (op : PcieAtomic) (wide : Bool) (operand compare : Word) : AtomSpec :=
  let n := if wide then 8 else 4
  let cut (x : Word) : Nat := x.toNat % 2 ^ (8 * n)
  match op with
  | .fetchAdd => { aop := 0, n := n, op := cut operand }
  | .swap => { aop := 8, n := n, op := cut operand }
  | .cas => { aop := 9, n := n, op := cut operand, cmp := cut compare }

/-- Perform an aperture atomic at its place: the old value, or none on a poisoned beat. -/
def State.apertureAtom (s : State) (loc : Loc) (a : AtomSpec) : Option Nat × State :=
  match loc with
  | .phys pa _ _ =>
    match s.atomKey (if s.host.apMode then ctxSlot s.host.apCtx.toNat else 0) pa a with
    | (some old, s1) => (some old, s1.atHome .system pa)
    | (none, s1) => (none, s1)
  | .sram core off =>
    let (old, s1) := s.atomSram core off a
    (some old, s1)
  | .peer _ _ _ => (none, s)

/-- APERTURE_ATOMIC: performed at the page's SYSTEM place (05 R155; 03 R63). A PCIe AtomicOp is naturally aligned; the
adapter lets no other through (log entry 4). -/
def execApertureAtomic (s : State) : Out :=
  .next (match s.arg with
    | .pcie off op wide operand compare =>
      let spec := pcieSpec op wide operand compare
      let a := s.apertureAddr off
      if off % spec.n ≠ 0 then s
      else if s.apertureOpen then
        match s.aperturePiece a spec.n .atomic with
        | .error pa => (s.apertureFail pa).reply (onesBytes spec.n)
        | .ok loc =>
          match s.apertureAtom loc spec with
          | (some old, s1) => (s1.countRelease s.coachDie 0).reply (natLe spec.n old)
          | (none, s1) => (s1.apertureFail (chkPa (.ok loc))).reply (onesBytes spec.n)
      else s.reply (onesBytes spec.n)
    | _ => s)

/-- ADAPTER_UNSUPPORTED_ACCESS: the adapter completes it with Unsupported Request; the device does not see it
(03 R61). -/
def execAdapterUnsupportedAccess (s : State) : Out := .next s

/-- ADAPTER_ENDPOINT_RESET: the adapter and its link logic only; the Welom Link is down until it trains again
(01 R19). -/
def execAdapterEndpointReset (s : State) : Out :=
  .next (s.onHost fun h => { h with welomUp := false, msixTable := [] })

end Sys2Proof.Machine
end

