-- ==== Sys2Proof/Machine/Partition.lean ====
section
/-! DEFINITION. The partition of the package (02 R60) and the devices on the CXL ports (02 R58). -/

namespace Sys2Proof.Machine

open Sys2Proof

/-! ## Groups of dies (02 R60) -/

/-- Dies linked by the girth (01 R11), panniers as well as the dies of `girthNeighbours`. -/
def girthLinked (a b : Nat) : Bool := (girthNeighbours a).contains b || (girthNeighbours b).contains a

/-- Is the link between two dies among the failed ones? -/
def girthFailed (failed : List (Nat × Nat)) (a b : Nat) : Bool := failed.contains (a, b) || failed.contains (b, a)

/-- One step of reaching: the dies of `live` next to some die of the set, with the set itself. -/
def girthGrow (failed : List (Nat × Nat)) (live set : List Nat) : List Nat :=
  live.filter fun d => set.contains d || set.any fun e => girthLinked d e && !girthFailed failed d e

/-- The live dies a die reaches: `n` steps are enough for `n` dies. -/
def girthGroup (failed : List (Nat × Nat)) (live : List Nat) : Nat → List Nat → List Nat
  | 0, set => set
  | n + 1, set => girthGroup failed live n (girthGrow failed live set)

/-- Hold dies: a held hub's filter epoch changes and its fabric links go down (02 R60, R45). -/
def State.holdGroup (s : State) (dies : List Nat) : State :=
  let s1 := s.onPackage fun p => { p with held := p.held ++ dies }
  let hubs := dies.filter fun d => d == 4 || d == 5
  let s2 := hubs.foldl (fun s h => s.modHub h fun x => { x with epoch := x.epoch + 1 }) s1
  let ports := (List.range 18).filter fun p => hubs.contains (portHub p) && (s.link p).phase != .down
  ports.foldl State.linkDown s2

/-- The Welom Link is lost (02 R60). -/
def State.loseWelom (s : State) : State := s.onHost fun h => { h with welomUp := false }

/-- The groups of the hubs H0 and H1 no longer reach each other: the one that reaches the Proctor continues, either of
them where both do; neither, and every die is held (02 R60). -/
def State.partition (s : State) (live g0 g1 reach : List Nat) : State :=
  let r0 := g0.any reach.contains
  let r1 := g1.any reach.contains
  let (first, s0) := if r0 && r1 then s.choose 2 else (if r0 then 0 else 1, s)
  if !r0 && !r1 then
    ((s0.holdGroup live).onHost fun h => { h with activeHub := none }).loseWelom
  else if first = 0 then s0.holdGroup (live.filter fun d => !g0.contains d)
  else ((s0.holdGroup (live.filter fun d => !g1.contains d)).onHost fun h => { h with activeHub := some 5 }).loseWelom

/-- What the hubs find of the girth links and sidebands that have failed so far (02 R60). -/
def State.girthDecide (s : State) : State :=
  let failed := s.fabric.girthDown
  let live := s.package.released.filter fun d => !s.package.held.contains d
  let g0 := girthGroup failed live 14 [4]
  let g1 := girthGroup failed live 14 [5]
  if 2 ≤ failed.length ∧ live.contains 4 ∧ live.contains 5 ∧ g0.contains 5 = false then
    s.partition live g0 g1 ((List.range 14).filter fun d => !s.fabric.sidebandDown.contains d)
  else s

/-- GIRTH_CHECK (02 R60): the check of every 10 µs, or one that comes with new failures. -/
def execGirthCheck (s : State) : Out :=
  .next (match s.arg with
    | .girth failed reach =>
      (s.onFabric fun f =>
        { f with girthDown := failed, sidebandDown := (List.range 14).filter fun d => !reach.contains d }).girthDecide
    | .none =>
      let s1 := s.girthDecide
      if s1.package.phase = .ready then s1.postTime (10 * usUnits) .girthCheck .none else s1
    | _ => s)

/-! ## CXL (02 R58) -/

/-- The die code of the hub of a CXL port: ports 0 and 1 on H0, 2 and 3 on H1 (log entry 3). -/
def cxlHub (port : Nat) : Nat := if port < 2 then 4 else 5

/-- Most bytes of pool (02 R58). -/
def poolMax : Nat := 2 ^ 44

/-- The capacity a port binds: that of its device, or of one logical device of a multi-logical one, which the spec does not
choose. -/
def State.cxlBind (s : State) (d : CxlDevice) : Nat × State :=
  if d.logical.isEmpty then (d.capacity, s)
  else
    let (k, s1) := s.choose d.logical.length
    (d.logical.getD k 0, s1)

/-- Enumerate a device: a Type 3 one joins the pool as far as it has room, any other is left disabled with an event
that names the port. -/
def State.cxlDevice (s : State) (d : CxlDevice) : State :=
  if 4 ≤ d.port then s
  else if d.typeNo = 3 then
    let (n, s1) := s.cxlBind d
    s1.onFabric fun f =>
      { f with cxl := f.cxl.put d.port { enabled := true, capacity := min n (poolMax - s.cxlBelow 4) } }
  else (s.onFabric fun f => { f with cxl := f.cxl.put d.port { enabled := false, capacity := 0 } }).recordEvent 5
    (cxlHub d.port) d.port 0 0

/-- The interleaving that the ports allow: 2-way over the two ports of a hub where their capacities are equal, 4-way over
all four (02 R58; log entry 6). -/
def State.cxlWaysAllowed (s : State) : List Nat :=
  let c := s.cxlCap
  let two := c 0 == c 1 && c 2 == c 3
  if two && c 0 == c 2 then [1, 2, 4] else if two then [1, 2] else [1]

/-- CXL_ENUMERATION (02 R58): which of the interleavings is taken is open. -/
def execCxlEnumeration (s : State) : Out :=
  .next (match s.arg with
    | .devs l =>
      let s1 := l.foldl State.cxlDevice (s.onFabric fun f => { f with cxl := [], cxlWays := 1 })
      let ways := s1.cxlWaysAllowed
      let (k, s2) := s1.choose ways.length
      s2.onFabric fun f => { f with cxlWays := ways.getD k 1 }
    | _ => s)

end Sys2Proof.Machine
end

