-- ==== Sys2Proof/Machine/Spdm.lean ====
section
/-! DEFINITION. The mailbox (03 R66) and the Proctor as an SPDM responder (01 R20, R25). Message codes and layouts are
those of DMTF DSP0274 (log entry 2); certificates, signatures and nonces are free values. -/

namespace Sys2Proof.Machine

open Sys2Proof

/-! ## Requests and responses -/

/-- A byte of the request: in MBIN, or of the long request that the last CHUNK_SEND completed. -/
def State.mbByte (s : State) (i : Nat) : Nat :=
  match s.package.spdmInner with
  | some (_, _, bs) => (bs.getD i 0).toNat
  | none => (cellGet s.host.mbIn i).toNat

/-- A field of `n` bytes of the request, lowest byte first. -/
def State.mbField (s : State) (i n : Nat) : Nat := ((List.range n).map fun k => s.mbByte (i + k) * 256 ^ k).sum

/-- A response header. -/
def spdmHead (code p1 p2 : Nat) : List Byte :=
  [0x13, BitVec.ofNat 8 code, BitVec.ofNat 8 p1, BitVec.ofNat 8 p2]

/-- The response is placed: LENOUT and DONE are set, BUSY clears (03 R66). -/
def State.place (s : State) (bs : List Byte) : State :=
  s.onHost fun h =>
    { h with mbOut := cellsWrite h.mbOut 0 bs, mbLenOut := BitVec.ofNat 13 bs.length, mbDone := true, mbBusy := false }

/-- A response that the mailbox cannot hold is kept to be fetched by CHUNK_GET, under a free handle: ERROR LargeResponse
names it (03 R66). -/
def State.fitReply (s : State) (room : Nat) (bs : List Byte) : List Byte × State :=
  if bs.length ≤ room then (bs, s)
  else
    let (h, s1) := s.choose 256
    (spdmHead 0x7F 0x0F 0 ++ [BitVec.ofNat 8 h],
      s1.onPackage fun p => { p with spdmReply := some { handle := h, seq := 0, size := bs.length, bytes := bs } })

/-- The response to the request: placed as it is, or, of a request that came in chunks, inside the CHUNK_SEND_ACK of its
last chunk. -/
def State.respond (s : State) (bs : List Byte) : State :=
  match s.package.spdmInner with
  | none =>
    let (out, s1) := s.fitReply 4096 bs
    s1.place out
  | some (h, q, _) =>
    let (out, s1) := s.fitReply 4090 bs
    (s1.onPackage fun p => { p with spdmInner := none }).place (spdmHead 0x05 0 h ++ natLe 2 q ++ out)

/-- ERROR with its code. -/
def State.spdmError (s : State) (code : Nat) : State := s.respond (spdmHead 0x7F code 0)

/-- A response whose body is `n` free bytes. -/
def State.spdmFree (s : State) (code p1 p2 n : Nat) : State :=
  let (bs, s1) := s.freeBytes n
  s1.respond (spdmHead code p1 p2 ++ bs)

/-- Answer while a request waits in the mailbox. -/
def State.whenBusy (s : State) (f : State → State) : State := if s.host.mbBusy then f s else s

/-- Answer a request that needs the connection to have come so far; before that it is unexpected. -/
def State.atPhase (s : State) (n : Nat) (f : State → State) : State :=
  s.whenBusy fun s => if n ≤ s.package.spdmPhase then f s else s.spdmError 4

/-- Answer a request that belongs to an open session. -/
def State.inSession (s : State) (f : State → State) : State :=
  s.whenBusy fun s => if s.package.spdmSession then f s else s.spdmError 4

/-! ## The requests of 01 R20 -/

/-- GET_VERSION: the connection starts anew; SPDM 1.3 alone is offered. -/
def execGetVersion (s : State) : Out :=
  .next (s.whenBusy fun s =>
    let s1 := s.onPackage fun p =>
      { p with
        spdmPhase := 1, spdmSession := false, spdmHandshake := false, spdmChunks := none, spdmReply := none }
    s1.respond [0x10, 0x04, 0, 0, 0, 1, 0, 0x13])

/-- The capability flags that 01 R20 settles: certificates, challenges, signed measurements, encrypted sessions of its key
exchange, heartbeat, key update and chunks; no mutual authentication, no pre-shared key, and no request it does not list. -/
def capFlags : Nat := 0x262D6

/-- The capability flags that no rule settles: cached state, fresh measurements, a handshake in the clear, alias
certificates, several keys. -/
def capOpen : Nat := 0xC048021

/-- GET_CAPABILITIES: the largest single message is the mailbox's 4,096 bytes (03 R66). -/
def execGetCapabilities (s : State) : Out :=
  .next (s.atPhase 1 fun s =>
    let (bs, s1) := (s.onPackage fun p => { p with spdmPhase := max p.spdmPhase 2 }).freeBytes 9
    let flags := capFlags ||| (leNat (bs.take 4) &&& capOpen)
    s1.respond (spdmHead 0x61 0 0 ++ [0, bs.getD 4 0, 0, 0] ++ natLe 4 flags ++ natLe 4 4096 ++ bs.drop 5))

/-- What the responder can do of an algorithm structure, by its type: secp384r1, AES-256-GCM, no requester signature, the
SPDM key schedule. -/
def algOwn : Nat → Nat
  | 2 => 0x10
  | 3 => 2
  | 5 => 1
  | _ => 0

/-- The answers to `n` algorithm structures of NEGOTIATE_ALGORITHMS from offset `i` on. -/
def State.algAnswers (s : State) : Nat → Nat → List Byte
  | 0, _ => []
  | n + 1, i =>
    [BitVec.ofNat 8 (s.mbByte i), 0x20] ++ natLe 2 (algOwn (s.mbByte i) &&& s.mbField (i + 2) 2) ++
      s.algAnswers n (i + 4 + 4 * (s.mbByte (i + 1) % 16))

/-- NEGOTIATE_ALGORITHMS: of what the request offers, ECDSA P-384, SHA-384, secp384r1 and AES-256-GCM. -/
def execNegotiateAlgorithms (s : State) : Out :=
  .next (s.atPhase 2 fun s =>
    let n := s.mbByte 2
    let (bs, s1) := (s.onPackage fun p => { p with spdmPhase := 3 }).freeBytes 1
    s1.respond (spdmHead 0x63 n 0 ++ natLe 2 (36 + 4 * n) ++
      [BitVec.ofNat 8 (s.mbByte 6 &&& 1), bs.headD 0 &&& BitVec.ofNat 8 (s.mbByte 7)] ++
      natLe 4 (if s.mbByte 6 % 2 = 1 then 4 else 0) ++ natLe 4 (s.mbField 8 4 &&& 0x80) ++ natLe 4 (s.mbField 12 4 &&& 2) ++
      List.replicate 16 0 ++ s.algAnswers n (32 + 4 * (s.mbByte 28 + s.mbByte 29))))

/-- GET_DIGESTS: slots 0 and 1, a SHA-384 digest for each. -/
def execGetDigests (s : State) : Out := .next (s.atPhase 3 fun s => s.spdmFree 0x01 3 3 96)

/-- GET_CERTIFICATE: of slot 0 or 1, at most the bytes asked for. -/
def execGetCertificate (s : State) : Out :=
  .next (s.atPhase 3 fun s =>
    let slot := s.mbByte 2 % 16
    if 1 < slot then s.spdmError 1
    else
      let (n, s1) := s.choose (s.mbField 6 2 + 1)
      let (bs, s2) := s1.freeBytes (2 + n)
      s2.respond (spdmHead 0x02 slot 0 ++ natLe 2 n ++ bs))

/-- CHALLENGE: an authentication of slot 0 or 1. -/
def execChallenge (s : State) : Out :=
  .next (s.atPhase 3 fun s =>
    let slot := s.mbByte 2 % 16
    if 1 < slot then s.spdmError 1 else s.spdmFree 0x03 slot 3 (48 + 32 + 48 + 2 + 96))

/-- The die code that a measurement block names (01 R20). -/
def blockDie (i : Nat) : Nat := if i ≤ 3 then i + 2 else if i ≤ 7 then i - 4 else i - 2

/-- The value of a measurement block, with its DMTF type. -/
def State.blockValue (s : State) (i : Nat) : List Byte × State :=
  if i = 16 then (s.package.alarms.map fun l => BitVec.ofNat 8 (levelCode l), s)
  else if i = 17 then
    ((List.range 8).map (fun k => BitVec.ofNat 8 (s.package.pkgs.getD k 0)) ++ natLe 2 s.package.capGib, s)
  else if i = 1 then s.freeBytes 48
  else
    match s.package.manifest.bind fun m => m.digests[blockDie i]? with
    | some d => (natLe 48 d.toNat, s)
    | none => s.freeBytes 48

/-- One measurement block. -/
def State.block (s : State) (i : Nat) : List Byte × State :=
  let (v, s1) := s.blockValue i
  ([BitVec.ofNat 8 i, 1] ++ natLe 2 (v.length + 3) ++ [if i ≤ 15 then 1 else 3] ++ natLe 2 v.length ++ v, s1)

/-- Several measurement blocks. -/
def State.blockList (s : State) : List Nat → List Byte × State
  | [] => ([], s)
  | i :: is =>
    let (a, s1) := s.block i
    let (b, s2) := s1.blockList is
    (a ++ b, s2)

/-- GET_MEASUREMENTS: the count of blocks, one block, or all 17; signed when asked for. -/
def execGetMeasurements (s : State) : Out :=
  .next (s.atPhase 3 fun s =>
    let i := s.mbByte 3
    let ids := if i = 0 then [] else if i = 0xFF then (List.range 17).map (· + 1) else [i]
    if i ≠ 0xFF ∧ 17 < i then s.spdmError 1
    else
      let (rec, s1) := s.blockList ids
      let (tail, s2) := s1.freeBytes (32 + (if s.mbByte 2 % 2 = 1 then 96 else 0))
      s2.respond (spdmHead 0x60 (if i = 0 then 17 else 0) 0 ++ [BitVec.ofNat 8 ids.length] ++ natLe 3 rec.length ++
        rec ++ tail.take 32 ++ [0, 0] ++ tail.drop 32))

/-- KEY_EXCHANGE: the handshake of a session opens. -/
def execKeyExchange (s : State) : Out :=
  .next (s.atPhase 3 fun s =>
    if s.package.spdmSession then s.spdmError 4
    else (s.onPackage fun p => { p with spdmHandshake := true }).spdmFree 0x64 0 0 (4 + 32 + 96 + 2 + 96 + 48))

/-- FINISH: the session is open. -/
def execFinish (s : State) : Out :=
  .next (s.whenBusy fun s =>
    if s.package.spdmHandshake then
      (s.onPackage fun p => { p with spdmHandshake := false, spdmSession := true }).spdmFree 0x65 0 0 48
    else s.spdmError 4)

/-- HEARTBEAT. -/
def execHeartbeat (s : State) : Out := .next (s.inSession fun s => s.respond (spdmHead 0x68 0 0))

/-- KEY_UPDATE: the operation and its tag are echoed. -/
def execKeyUpdate (s : State) : Out :=
  .next (s.inSession fun s => s.respond (spdmHead 0x69 (s.mbByte 2) (s.mbByte 3)))

/-- END_SESSION. -/
def execEndSession (s : State) : Out :=
  .next (s.inSession fun s =>
    (s.onPackage fun p => { p with spdmSession := false }).respond (spdmHead 0x6C 0 0))


/-- ERROR UnsupportedRequest (01 R20). -/
def execSpdmUnsupportedRequest (s : State) : Out := .next (s.whenBusy fun s => s.spdmError 7)

/-! ## ALARM_RAISE (01 R25) -/

/-- The first payload byte of a VENDOR_DEFINED_REQUEST. -/
def vdPayload : Nat := 11

/-- Is the request in the mailbox an ALARM_RAISE: PCI-SIG, the adapter's vendor, COMMAND 1? -/
def State.isAlarmRaise (s : State) : Bool :=
  s.mbByte 4 == 3 && s.mbByte 5 == 0 && s.mbByte 6 == 2 &&
  decide (s.mbByte 7 + 256 * s.mbByte 8 = Config.vendorId.toNat) && s.mbByte vdPayload == 1

/-- The response to an ALARM_RAISE. -/
def State.alarmReply (s : State) (status : Nat) (level : Byte) : State :=
  s.respond (spdmHead 0x7E 0 0 ++ [3, 0, 2] ++ natLe 2 Config.vendorId.toNat ++ natLe 2 4 ++
    [1, BitVec.ofNat 8 status, level, 0])

/-- ALARM_RAISE. -/
def execAlarmRaise (s : State) : Out :=
  .next (s.whenBusy fun s =>
    if !s.isAlarmRaise then s.spdmError 7
    else
      let e := s.mbByte (vdPayload + 1)
      let l := s.mbByte (vdPayload + 2)
      let (bs, s) := s.freeBytes (if 6 < e then 1 else 0)
      let now : Byte := match s.package.alarms[e]? with
        | some a => BitVec.ofNat 8 (levelCode a)
        | none => bs.headD 0
      if !s.package.spdmSession then s.alarmReply 3 now
      else if 6 < e ∨ 2 < l ∨ s.mbByte (vdPayload + 3) ≠ 0 then
        s.alarmReply 2 now
      else if l < now.toNat then s.alarmReply 1 now
      else
        (s.onPackage fun p => { p with alarms := p.alarms.set e (levelOf l) }).alarmReply 0 (BitVec.ofNat 8 l))

/-! ## The mailbox (03 R66) -/

/-- The event that a request's code stands for (01 R20). -/
def State.spdmEvent (s : State) : Instr :=
  match s.mbByte 1 with
  | 0x84 => .getVersion
  | 0xE1 => .getCapabilities
  | 0xE3 => .negotiateAlgorithms
  | 0x81 => .getDigests
  | 0x82 => .getCertificate
  | 0x83 => .challenge
  | 0xE0 => .getMeasurements
  | 0xE4 => .keyExchange
  | 0xE5 => .finish
  | 0xE8 => .heartbeat
  | 0xE9 => .keyUpdate
  | 0xEC => .endSession
  | 0x85 => .chunkSend
  | 0x86 => .chunkGet
  | 0xFE => if s.isAlarmRaise then .alarmRaise else .spdmUnsupportedRequest
  | _ => .spdmUnsupportedRequest

/-- The chunk that a CHUNK_SEND carries: its bytes, and the size of the whole message, which the first chunk gives. -/
def State.chunkIn (s : State) : Nat × List Byte :=
  let o := if s.mbField 4 2 = 0 then 16 else 12
  (s.mbField 12 4, (List.range (min (s.mbField 8 4) 4096)).map fun k => BitVec.ofNat 8 (s.mbByte (o + k)))

/-- The long message so far, this chunk with it: the first chunk begins a message, and each other one goes on with the
message of its handle, in order. -/
def State.chunkJoin (s : State) : Option ChunkBuf :=
  let (size, bs) := s.chunkIn
  let (h, q) := (s.mbByte 3, s.mbField 4 2)
  if q = 0 then some { handle := h, seq := 1, size := size, bytes := bs }
  else match s.package.spdmChunks with
    | some b => if b.handle = h ∧ b.seq = q then some { b with seq := q + 1, bytes := b.bytes ++ bs } else none
    | none => none

/-- The chunks of a long message do not nest. -/
def isChunkEvent : Instr → Bool
  | .chunkSend | .chunkGet => true
  | _ => false

/-- CHUNK_SEND: one chunk of a long message is kept and acknowledged; the last one carries the message out, and the answer
to it follows inside its acknowledgement. -/
def execChunkSend (s : State) : Out :=
  .next (s.atPhase 2 fun s =>
    let keep (b : Option ChunkBuf) (s : State) : State := s.onPackage fun p => { p with spdmChunks := b }
    match s.chunkJoin with
    | none => (keep none s).spdmError 1
    | some b =>
      if s.mbByte 2 % 2 = 0 then (keep (some b) s).respond (spdmHead 0x05 0 b.handle ++ natLe 2 (s.mbField 4 2))
      else if b.bytes.length ≠ b.size then (keep none s).spdmError 1
      else
        let s1 := s.onPackage fun p =>
          { p with spdmChunks := none, spdmInner := some (b.handle, s.mbField 4 2, b.bytes) }
        if isChunkEvent s1.spdmEvent then s1.spdmError 1 else s1.postFree s1.spdmEvent)

/-- CHUNK_GET: the next chunk of the long response that its handle names. -/
def execChunkGet (s : State) : Out :=
  .next (s.atPhase 2 fun s =>
    match s.package.spdmReply with
    | some b =>
      if b.handle = s.mbByte 3 ∧ b.seq = s.mbField 4 2 then
        let n := if b.seq = 0 then 4080 else 4084
        let (now, rest) := (b.bytes.take n, b.bytes.drop n)
        let s1 := s.onPackage fun p =>
          { p with spdmReply := if rest = [] then none else some { b with seq := b.seq + 1, bytes := rest } }
        s1.respond (spdmHead 0x06 (if rest = [] then 1 else 0) b.handle ++ natLe 2 b.seq ++ [0, 0] ++
          natLe 4 now.length ++ (if b.seq = 0 then natLe 4 b.size else []) ++ now)
      else s.spdmError 1
    | none => s.spdmError 1)

/-- A write of MBCTL. -/
def State.writeMbctl (s : State) (h : Half) (v : Word) : State :=
  let len := match h with
    | .hi => s.host.mbLen
    | _ => v.extractLsb' 16 13
  let s1 := s.onHost fun x => { x with mbLen := len, mbDone := x.mbDone && !bitSet h v 2 }
  if bitSet h v 0 && !s.host.mbBusy then
    if len = 0 ∨ 4096 < len.toNat then s1.onHost fun x => { x with mbDone := true, mbLenOut := 0 }
    else (s1.onHost fun x => { x with mbBusy := true }).postFree s1.spdmEvent
  else s1

/-- MAILBOX_GO. -/
def execMailboxGo (s : State) : Out :=
  .next (match s.arg with
    | .reg _ _ h v => if s.host.welomUp then s.writeMbctl h v else s
    | _ => s)

end Sys2Proof.Machine
end

