-- ==== Sys2Proof/Machine/Registers.lean ====
section
/-! DEFINITION. The system register window of BAR0: what a write of each register does and what a read returns
(03 R61, R62, R440, R7). Offsets are those of 64-bit words; `Half` tells which part is accessed. -/

namespace Sys2Proof.Machine

open Sys2Proof

/-! ## Package block and mailbox (03 R63, R66) -/

/-- The word of APCTL. -/
def State.apctlWord (s : State) : Word :=
  BitVec.ofNat 64 (flag s.host.apMode + s.host.apCtx.toNat * 2 + s.host.apBase.toNat * 2 ^ 30)

/-- A write of APCTL. -/
def State.writeApctl (s : State) (h : Half) (v : Word) : State :=
  let w := regMerge s.apctlWord h v
  s.onHost fun x => { x with apMode := w.getLsbD 0, apCtx := w.extractLsb' 1 6, apBase := w.extractLsb' 30 27 }

/-- A write in the package block. -/
def State.writePkgReg (s : State) (o : Nat) (h : Half) (v : Word) : State :=
  match o with
  | 0x100 => s.writePwrctl h v
  | 0x200 => s.writeApctl h v
  | 0x300 => s.writeSpcfg h v
  | _ => s

/-- The bytes a write of a word stores, and where they begin in it. -/
def halfBytes (h : Half) (v : Word) : Nat × List Byte :=
  match h with
  | .full => (0, natLe 8 v.toNat)
  | .lo => (0, natLe 4 v.toNat)
  | .hi => (4, natLe 4 v.toNat)

/-- A write in the mailbox: MBCTL, or bytes of MBIN. -/
def State.writeMbReg (s : State) (o : Nat) (h : Half) (v : Word) : State :=
  if o = 0 then s.writeMbctl h v
  else if 0x1000 ≤ o ∧ o < 0x2000 then
    let (d, bs) := halfBytes h v
    s.onHost fun x => { x with mbIn := cellsWrite x.mbIn (o - 0x1000 + d) bs }
  else s

/-- A write in the Coachman block: VALID of an event-table entry is W1C (03 R65). -/
def State.writeCoachReg (s : State) (o : Nat) (h : Half) (v : Word) : State :=
  if 0x1000 ≤ o ∧ o < 0x1800 ∧ o % 0x20 = 0 ∧ bitSet h v 0 then
    s.onHost fun x => { x with events := x.events.map fun (i, e) =>
      (i, if i = (o - 0x1000) / 0x20 then { e with valid := false } else e) }
  else s

/-! ## Hub blocks (02 R38, R44, R55) -/

/-- The global number of port `i` of a hub. -/
def hubPort (hub i : Nat) : Nat := if hub = 4 then i else i + 9

/-- Keep a number within bounds. -/
def clampNat (lo hi n : Nat) : Nat := min (max n lo) hi

/-- A write in a hub block. -/
def State.writeHubReg (s : State) (hub o : Nat) (h : Half) (v : Word) : State :=
  if 0x20000 ≤ o ∧ o < 0x20240 then
    if o % 0x40 = 0 ∧ bitSet h v 23 then
      s.modLink (hubPort hub ((o - 0x20000) / 0x40)) fun l => { l with degraded := false }
    else s
  else if o = 0x21000 then
    s.modHub hub fun x =>
      { x with holdLim := clampNat 0x10000 0x8000000 (wordField (regMerge (BitVec.ofNat 64 x.holdLim) h v) 0 28) }
  else if o = 0x21008 then
    s.modHub hub fun x =>
      { x with remto := clampNat 0x10000 (2 ^ 32 - 1) (wordField (regMerge (BitVec.ofNat 64 x.remto) h v) 0 32) }
  else if o = 0x22000 then s.writeFabid hub h v
  else if o = 0x22008 then if bitSet h v 0 then s.fwdFlush hub else s
  else if 0x24000 ≤ o ∧ o < 0x25000 then s.writeRoute hub ((o - 0x24000) / 8) h v
  else if hub = 4 ∧ 0x30000 ≤ o ∧ o < 0x38000 then s.writeFctxmap ((o - 0x30000) / 8) h v
  else s

/-! ## Queues (03 R71) -/

/-- A write in the registers of a queue. -/
def State.writeQueueReg (s : State) (q o : Nat) (h : Half) (v : Word) : State :=
  let x := s.queue q
  match o with
  | 0x00 => s.writeQctl q h v
  | 0x08 =>
    if x.enable then s
    else s.modQueue q fun x => { x with base := (regMerge (x.base.setWidth 64 <<< 6) h v).extractLsb' 6 51 }
  | 0x10 => if x.enable then s else s.modQueue q fun x => { x with log2 := (regMerge (x.log2.setWidth 64) h v).extractLsb' 0 5 }
  | 0x18 => s.modQueue q fun x => { x with wr := (regMerge (x.wr.setWidth 64) h v).extractLsb' 0 32 }
  | _ => s

/-! ## Context blocks (03 R68; 04 R106; 05 R152, R153, R156; 06 R174, R177; 09 R225; 10 R249; 15 R417) -/

/-- A write in the first part of a context block. -/
def State.writeCtxLow (s : State) (n o : Nat) (h : Half) (v : Word) : State :=
  let c := s.ctx n
  match o with
  | 0x000 => s.writeCtxctl n h v
  | 0x008 =>
    if c.phase = .free then
      s.modCtx n fun c => { c with ptbase := (regMerge (c.ptbase.setWidth 64 <<< 12) h v).extractLsb' 12 40 }
    else s.wrign n
  | 0x010 => s.modCtx n fun c => { c with hwb := (regMerge (c.hwb.setWidth 64 <<< 16) h v).extractLsb' 16 41 }
  | 0x018 => s.modCtx n fun c => { c with hwl := (regMerge (c.hwl.setWidth 64 <<< 16) h v).extractLsb' 16 41 }
  | 0x020 => s.modCtx n fun c => { c with hwo := (regMerge (c.hwo.setWidth 64 <<< 16) h v).extractLsb' 16 48 }
  | 0x028 => s.modCtx n fun c => { c with tvec := (regMerge (c.tvec.setWidth 64 <<< 2) h v).extractLsb' 2 55 }
  | 0x030 =>
    s.modCtx n fun c => { c with dperiod := clampNat 16 4096 (wordField (regMerge (BitVec.ofNat 64 c.dperiod) h v) 0 13) }
  | 0x038 => if bitSet h v 1 then s.modCtx n fun c => { c with bindbad := false } else s
  | 0x0C0 => s.modCtx n fun c => { c with dcond := regMerge c.dcond h v }
  | 0x0C8 => s.modCtx n fun c => { c with dcond := c.dcond ||| halfBits h v }
  | 0x0D0 => s.modCtx n fun c => { c with dcond := c.dcond &&& ~~~(halfBits h v) }
  | 0x100 => s.writeFrameArea n 0 h v
  | 0x108 => s.writeFrameArea n 1 h v
  | 0x110 =>
    s.modCtx n fun c =>
      { c with age := BitVec.ofNat 16 (max 64 (wordField (regMerge (c.age.setWidth 64) h v) 0 16)) }
  | 0x118 =>
    s.modCtx n fun c =>
      { c with pdl := BitVec.ofNat 32 (max 256 (wordField (regMerge (c.pdl.setWidth 64) h v) 0 32)) }
  | 0x120 =>
    s.modCtx n fun c =>
      { c with markgap := BitVec.ofNat 32 (max 1024 (wordField (regMerge (c.markgap.setWidth 64) h v) 0 32)) }
  | 0x128 => s.writePreempt n h v
  | 0x130 => s.writeHotbase n h v
  | 0x138 => s.writeTlbinv n h v
  | 0x148 => s.modCtx n fun c => { c with pfIrqv := (regMerge (c.pfIrqv.setWidth 64) h v).extractLsb' 0 6 }
  | 0x160 => s.modCtx n fun c => { c with ivIrqv := (regMerge (c.ivIrqv.setWidth 64) h v).extractLsb' 0 6 }
  | 0x168 => s.writeLkcompat n h v
  | 0x178 => s.modCtx n fun c => { c with ttAllow := (regMerge (BitVec.ofNat 64 (flag c.ttAllow)) h v).getLsbD 0 }
  | _ => s

/-- Seven skews (03 R68). -/
def padSkews (l : List (BitVec 10)) : List (BitVec 10) := (List.range 7).map fun i => l.getD i 0

/-- A write in a context block. -/
def State.writeCtxReg (s : State) (n o : Nat) (h : Half) (v : Word) : State :=
  if 0x040 ≤ o ∧ o < 0x078 then s.writeDbind n ((o - 0x040) / 8) h v
  else if 0x080 ≤ o ∧ o < 0x0B8 then
    let i := (o - 0x080) / 8
    s.modCtx n fun c =>
      let l := padSkews c.dskew
      { c with dskew := l.set i ((regMerge ((l.getD i 0).setWidth 64) h v).extractLsb' 0 10) }
  else if 0x200 ≤ o ∧ o < 0x400 then
    if o % 0x10 = 0 ∧ bitSet h v 0 then s.pageResolve n ((o - 0x200) / 0x10) else s
  else if 0x400 ≤ o ∧ o < 0x500 then s.writeIv n ((o - 0x400) / 0x10) (o % 0x10 / 8) h v
  else if 0x500 ≤ o ∧ o < 0x580 then s.writeIv n ((o - 0x500) / 8) 2 h v
  else if 0x600 ≤ o ∧ o < 0x800 then
    if o % 0x20 = 0 ∧ bitSet h v 0 then s.modCtx n fun c => { c with ivlog := c.ivlog.del ((o - 0x600) / 0x20) } else s
  else if 0x800 ≤ o ∧ o < 0x900 then
    if o % 0x10 = 0 then s.writeHrga n ((o - 0x800) / 0x10) h v else s.writeHrgb n ((o - 0x800) / 0x10) h v
  else s.writeCtxLow n o h v

/-! ## The window (03 R61, R62) -/

/-- A write of the adapter's registers, which answer in every state of the module: the MSI-X table and MODRST (01 R19,
03 R61; log entry 81). -/
def State.writeAdapter (s : State) (o : Nat) (h : Half) (v : Word) : State :=
  if o = 0x2000 then s.writeModrst h v
  else if 0x1000 ≤ o ∧ o < 0x1400 then
    s.onHost fun x => { x with msixTable := x.msixTable.upd 0 ((o - 0x1000) / 8) fun w => regMerge w h v }
  else s

/-- A write of a register: before READY only the mailbox answers, and while the Welom Link is down nothing does
(03 R62). Offsets that no block defines ignore writes. Offsets from 0x20_0000 up are those of BAR4 (log entry 81). -/
def State.writeReg (s : State) (o : Nat) (h : Half) (v : Word) : State :=
  if o % 8 ≠ 0 then s
  else if 0x200000 ≤ o then s.writeAdapter (o - 0x200000) h v
  else if s.host.welomUp = false then s
  else if 0x20000 ≤ o ∧ o < 0x30000 then s.writeMbReg (o - 0x20000) h v
  else if s.package.phase ≠ .ready then s
  else if o < 0x10000 then s.writePkgReg o h v
  else if 0x30000 ≤ o ∧ o < 0x40000 then s.writeCoachReg (o - 0x30000) h v
  else if 0x40000 ≤ o ∧ o < 0x80000 then s.writeHubReg 4 (o - 0x40000) h v
  else if 0x80000 ≤ o ∧ o < 0xC0000 then s.writeHubReg 5 (o - 0x80000) h v
  else if 0xC0000 ≤ o ∧ o < 0xC4000 then s.writeQueueReg ((o - 0xC0000) / 0x100) (o % 0x100) h v
  else if 0x100000 ≤ o ∧ o < 0x140000 then s.writeCtxReg ((o - 0x100000) / 0x1000) (o % 0x1000) h v
  else s

/-- REGISTER_WRITE (00 R7; 03 R440). -/
def execRegisterWrite (s : State) : Out :=
  .next (match s.arg with
    | .reg off _ h v => s.writeReg off h v
    | _ => s)

/-! ## Reads -/

/-- The code of DEVSTAT.STATE (03 R67); a device whose link is down shows its state to nobody. -/
def BootPhase.code : BootPhase → Nat
  | .reset => 0
  | .booting => 1
  | .ready => 2
  | .failed => 3
  | .halted => 2

/-- A word of the package block. -/
def State.readPkgReg (s : State) (o : Nat) : Word :=
  let p := s.package
  match o with
  | 0x100 =>
    BitVec.ofNat 64 (p.point + flag p.therm * 8 + p.topPoint * 16 + p.modw.toNat * 2 ^ 16 + p.compw.toNat * 2 ^ 32)
  | 0x200 => s.apctlWord
  | 0x300 => BitVec.ofNat 64 (s.cores.spSplit + flag s.cores.spBusy * 4)
  | _ => 0

/-- A word of the start-up status window (03 R67). -/
def State.readStartReg (s : State) (o : Nat) : Word :=
  let p := s.package
  match o with
  | 0 => BitVec.ofNat 64 (p.phase.code + p.bootStep * 16 + p.cause * 2 ^ 8 + p.causeDie * 2 ^ 16 + p.secver.toNat * 2 ^ 32)
  | 8 =>
    let pk := (List.range 8).foldl (fun x i => x + p.pkgs.getD i 0 % 16 * 2 ^ (4 * i)) 0
    BitVec.ofNat 64 (pk + p.capGib * 2 ^ 32)
  | _ => 0

/-- A word of the mailbox (03 R66). MBIN reads back what was written to it (log entry 4). -/
def State.readMbReg (s : State) (o : Nat) : Word :=
  if o = 0 then
    BitVec.ofNat 64 (flag s.host.mbBusy * 2 + flag s.host.mbDone * 4 + s.host.mbLen.toNat * 2 ^ 16 +
      s.host.mbLenOut.toNat * 2 ^ 32)
  else if 0x1000 ≤ o ∧ o < 0x2000 then BitVec.ofNat 64 (leNat (cellsRead s.host.mbIn (o - 0x1000) 8))
  else if 0x2000 ≤ o ∧ o < 0x3000 then BitVec.ofNat 64 (leNat (cellsRead s.host.mbOut (o - 0x2000) 8))
  else 0

/-- A word of an event-table entry (03 R65). -/
def EventRec.word (e : EventRec) (i : Nat) : Word :=
  BitVec.ofNat 64 (match i with
    | 0 => flag e.valid + e.source * 2 ^ 8 + e.die * 2 ^ 16 + e.code * 2 ^ 32
    | 1 => e.time
    | 2 => e.detailA
    | _ => e.detailB)

/-- A word of the Coachman block. -/
def State.readCoachReg (s : State) (o : Nat) : Word :=
  if o = 0 then BitVec.ofNat 64 s.host.evlost
  else if 0x1000 ≤ o ∧ o < 0x1800 then
    match Tbl.find? s.host.events ((o - 0x1000) / 0x20) with
    | some e => e.word (o % 0x20 / 8)
    | none => 0
  else 0

/-- The code of LSTAT.STATE. -/
def LinkPhase.code : LinkPhase → Nat
  | .down => 0
  | .training => 1
  | .up => 2
  | .retraining => 3

/-- The word of LSTAT (02 R38). -/
def Link.stat (l : Link) : Word :=
  BitVec.ofNat 64 (l.phase.code + l.width * 4 + l.failed.toNat * 2 ^ 4 + l.group * 2 ^ 20 + flag l.degraded * 2 ^ 23 +
    l.delay.toNat * 2 ^ 24 + l.replays * 2 ^ 32 + l.discards * 2 ^ 48 + l.resyncFix * 2 ^ 56)

/-- A word of a hub block. -/
def State.readHubReg (s : State) (hub o : Nat) : Word :=
  let x := s.hubOf hub
  if 0x20000 ≤ o ∧ o < 0x20240 ∧ o % 0x40 = 0 then (s.link (hubPort hub ((o - 0x20000) / 0x40))).stat
  else if o = 0x21000 then BitVec.ofNat 64 x.holdLim
  else if o = 0x21008 then BitVec.ofNat 64 x.remto
  else if o = 0x21010 then BitVec.ofNat 64 x.hold.length
  else if o = 0x22000 then (x.domain ++ x.chip).setWidth 64
  else if o = 0x22008 then BitVec.ofNat 64 (flag x.flushBusy * 2)
  else if 0x24000 ≤ o ∧ o < 0x25000 then (x.routes.getD 0 ((o - 0x24000) / 8)).setWidth 64
  else if hub = 4 ∧ 0x30000 ≤ o ∧ o < 0x38000 then (s.fctxWord ((o - 0x30000) / 8)).setWidth 64
  else 0

/-- A word of a queue's registers (03 R71). -/
def State.readQueueReg (s : State) (q o : Nat) : Word :=
  let x := s.queue q
  match o with
  | 0x00 => x.ctl
  | 0x08 => x.base.setWidth 64 <<< 6
  | 0x10 => x.log2.setWidth 64
  | 0x18 => x.wr.setWidth 64
  | 0x20 => x.rd.setWidth 64
  | 0x28 => x.done.setWidth 64
  | _ => 0

/-- The code of CTXCTL.STATE (03 R68). -/
def CtxPhase.code : CtxPhase → Nat
  | .free => 0
  | .creating => 1
  | .live => 2
  | .destroying => 3

/-- The word of CTXCTL (03 R68). -/
def Ctx.ctl (c : Ctx) : Word :=
  BitVec.ofNat 64 (c.phase.code + flag c.wrign * 2 ^ 4 + flag c.dupasid * 2 ^ 5 + flag c.keyfail * 2 ^ 6 +
    c.asid.toNat * 2 ^ 8)

/-- A word of the first part of a context block. -/
def State.readCtxLow (s : State) (n o : Nat) : Word :=
  let c := s.ctx n
  match o with
  | 0x000 => c.ctl
  | 0x008 => c.ptbase.setWidth 64 <<< 12
  | 0x010 => c.hwb.setWidth 64 <<< 16
  | 0x018 => c.hwl.setWidth 64 <<< 16
  | 0x020 => c.hwo.setWidth 64 <<< 16
  | 0x028 => c.tvec.setWidth 64 <<< 2
  | 0x030 => BitVec.ofNat 64 c.dperiod
  | 0x038 => BitVec.ofNat 64 (flag c.driveRun + flag c.bindbad * 2 + c.driveWord.toNat * 4)
  | 0x0C0 => c.dcond
  | 0x0C8 => c.dcond
  | 0x0D0 => c.dcond
  | 0x100 => c.frbase.setWidth 64 <<< 16
  | 0x108 => BitVec.ofNat 64 (c.frcnt.toNat + (c.frcnt.toNat - c.frames.length) * 2 ^ 16)
  | 0x110 => c.age.setWidth 64
  | 0x118 => c.pdl.setWidth 64
  | 0x120 => c.markgap.setWidth 64
  | 0x128 => BitVec.ofNat 64 (flag c.hold + flag (s.quiet n) * 2)
  | 0x130 => c.hotbase.setWidth 64 <<< 12
  | 0x140 => BitVec.ofNat 64 (flag c.tlbBusy)
  | 0x148 => c.pfIrqv.setWidth 64
  | 0x150 => c.vdlast
  | 0x158 => BitVec.ofNat 64 (c.vdcnt + c.vdcause.toNat * 2 ^ 32)
  | 0x160 => c.ivIrqv.setWidth 64
  | 0x168 => BitVec.ofNat 64 (c.lkcompat.toNat + flag c.lkbad * 2 ^ 25)
  | 0x170 => BitVec.ofNat 64 (c.lkWounds + c.lkRefusals * 2 ^ 32)
  | 0x178 => BitVec.ofNat 64 (flag c.ttAllow)
  | 0x580 => BitVec.ofNat 64 c.ivlost
  | _ => 0

/-- A word of a page-fault table entry (05 R153). -/
def PfEnt.word (e : PfEnt) (i : Nat) : Word :=
  BitVec.ofNat 64 (match i with
    | 0 => 1 + flag e.cow * 2 + e.level * 4 + e.vpage.toNat * 2 ^ 16
    | _ => e.waiters + flag e.engine * 2 ^ 16)

/-- A word of an Invigilator log entry (06 R177). -/
def IvLogEnt.word (e : IvLogEnt) (i : Nat) : Word :=
  match i with
  | 0 => BitVec.ofNat 64 (1 + flag e.kind * 2 + e.win * 4)
  | 1 => e.tid
  | 2 => e.wtid
  | _ => e.va.setWidth 64

/-- A word of a hot-row group's registers (10 R249). -/
def HotGroup.word (g : HotGroup) (i : Nat) : Word :=
  BitVec.ofNat 64 (match i with
    | 0 => flag g.en + flag g.busy * 4 + flag g.bad * 8 + g.base.toNat * 2 ^ 16
    | 1 => g.log2sets.toNat + g.slot.toNat * 2 ^ 5
    | 2 => g.hits
    | _ => g.admits + g.refused * 2 ^ 32)

/-- A word of a context block. -/
def State.readCtxReg (s : State) (n o : Nat) : Word :=
  let c := s.ctx n
  if 0x040 ≤ o ∧ o < 0x078 then (c.dbind.getD ((o - 0x040) / 8) {}).word
  else if 0x080 ≤ o ∧ o < 0x0B8 then (c.dskew.getD ((o - 0x080) / 8) 0).setWidth 64
  else if 0x200 ≤ o ∧ o < 0x400 then
    match Tbl.find? c.pfent ((o - 0x200) / 0x10) with
    | some e => e.word (o % 0x10 / 8)
    | none => 0
  else if 0x400 ≤ o ∧ o < 0x500 then
    let w := c.iv.getD {} ((o - 0x400) / 0x10)
    if o % 0x10 = 0 then w.ivb else w.len.setWidth 64 <<< 16
  else if 0x500 ≤ o ∧ o < 0x580 then (c.iv.getD {} ((o - 0x500) / 8)).shadow.setWidth 64 <<< 12
  else if 0x600 ≤ o ∧ o < 0x800 then
    match Tbl.find? c.ivlog ((o - 0x600) / 0x20) with
    | some e => e.word (o % 0x20 / 8)
    | none => 0
  else if 0x800 ≤ o ∧ o < 0xA00 then
    (c.hrg.getD {} ((o - 0x800) / 0x10 % 16)).word (o % 0x10 / 8 + if o < 0x900 then 0 else 2)
  else s.readCtxLow n o

/-- A word of a compute die's block: PFUSE (09 R238). -/
def State.readDieReg (s : State) (die o : Nat) : Word :=
  if o = 0x8000 then BitVec.ofNat 64 (s.pfEntries die + s.pfRecords die * 2 ^ 32) else 0

/-- A word of the adapter's registers: the link state in bit 0 of offset 0, the MSI-X table at 0x1000, and MODRST, of
which INRESET alone reads (01 R19, 03 R61; log entry 81). -/
def State.readAdapter (s : State) (o : Nat) : Word :=
  if o = 0 then BitVec.ofNat 64 (flag s.host.welomUp)
  else if 0x1000 ≤ o ∧ o < 0x1400 then s.host.msixTable.getD 0 ((o - 0x1000) / 8)
  else if o = 0x2000 then BitVec.ofNat 64 (flag s.package.inReset * 2 ^ 16)
  else 0

/-- The word at an offset of the window, or, from 0x20_0000 up, of the adapter's BAR4: all ones while the Welom Link is down, and zero outside the start-up status
window and the mailbox before READY (03 R62). -/
def State.readReg (s : State) (o : Nat) : Word :=
  if 0x200000 ≤ o then s.readAdapter (o - 0x200000)
  else if s.host.welomUp = false then BitVec.allOnes 64
  else if 0x10000 ≤ o ∧ o < 0x20000 then s.readStartReg (o - 0x10000)
  else if 0x20000 ≤ o ∧ o < 0x30000 then s.readMbReg (o - 0x20000)
  else if s.package.phase ≠ .ready then 0
  else if o < 0x10000 then s.readPkgReg o
  else if 0x30000 ≤ o ∧ o < 0x40000 then s.readCoachReg (o - 0x30000)
  else if 0x40000 ≤ o ∧ o < 0x80000 then s.readHubReg 4 (o - 0x40000)
  else if 0x80000 ≤ o ∧ o < 0xC0000 then s.readHubReg 5 (o - 0x80000)
  else if 0xC0000 ≤ o ∧ o < 0xC4000 then s.readQueueReg ((o - 0xC0000) / 0x100) (o % 0x100)
  else if 0x100000 ≤ o ∧ o < 0x140000 then s.readCtxReg ((o - 0x100000) / 0x1000) (o % 0x1000)
  else if 0x140000 ≤ o ∧ o < 0x180000 then s.readDieReg ((o - 0x140000) / 0x10000) (o % 0x10000)
  else 0

/-- What a read returns of a word: all of it, or the half addressed (03 R440). -/
def halfOf (h : Half) (w : Word) : Word :=
  match h with
  | .full => w
  | .lo => w &&& 0xFFFFFFFF
  | .hi => w >>> 32

end Sys2Proof.Machine
end

