-- ==== Sys2Proof/Machine/Dispatch.lean ====
section
/-! DEFINITION. One arm for each instruction and event: a direct call of its meaning. -/

namespace Sys2Proof.Machine

open Sys2Proof

/-- The meaning of an instruction or event. -/
def exec (i : Instr) (s : State) : Host.Outcome State Fault Refusal :=
  match i with
  | .add d a b => Sys2Proof.Machine.execAdd d a b s
  | .sub d a b => Sys2Proof.Machine.execSub d a b s
  | .and d a b => Sys2Proof.Machine.execAnd d a b s
  | .or d a b => Sys2Proof.Machine.execOr d a b s
  | .xor d a b => Sys2Proof.Machine.execXor d a b s
  | .andn d a b => Sys2Proof.Machine.execAndn d a b s
  | .shl d a b => Sys2Proof.Machine.execShl d a b s
  | .shr d a b => Sys2Proof.Machine.execShr d a b s
  | .sar d a b => Sys2Proof.Machine.execSar d a b s
  | .ror d a b => Sys2Proof.Machine.execRor d a b s
  | .minS64 d a b => Sys2Proof.Machine.execMinS64 d a b s
  | .maxS64 d a b => Sys2Proof.Machine.execMaxS64 d a b s
  | .minZ64 d a b => Sys2Proof.Machine.execMinZ64 d a b s
  | .maxZ64 d a b => Sys2Proof.Machine.execMaxZ64 d a b s
  | .addx2 d a b => Sys2Proof.Machine.execAddx2 d a b s
  | .addx4 d a b => Sys2Proof.Machine.execAddx4 d a b s
  | .addx8 d a b => Sys2Proof.Machine.execAddx8 d a b s
  | .addi d a imm => Sys2Proof.Machine.execAddi d a imm s
  | .andi d a imm => Sys2Proof.Machine.execAndi d a imm s
  | .ori d a imm => Sys2Proof.Machine.execOri d a imm s
  | .xori d a imm => Sys2Proof.Machine.execXori d a imm s
  | .shli d a imm => Sys2Proof.Machine.execShli d a imm s
  | .shri d a imm => Sys2Proof.Machine.execShri d a imm s
  | .sari d a imm => Sys2Proof.Machine.execSari d a imm s
  | .rori d a imm => Sys2Proof.Machine.execRori d a imm s
  | .movi d imm => Sys2Proof.Machine.execMovi d imm s
  | .adpc d imm => Sys2Proof.Machine.execAdpc d imm s
  | .mul d a b => Sys2Proof.Machine.execMul d a b s
  | .mulhS64 d a b => Sys2Proof.Machine.execMulhS64 d a b s
  | .mulhZ64 d a b => Sys2Proof.Machine.execMulhZ64 d a b s
  | .divS64 d a b => Sys2Proof.Machine.execDivS64 d a b s
  | .divZ64 d a b => Sys2Proof.Machine.execDivZ64 d a b s
  | .remS64 d a b => Sys2Proof.Machine.execRemS64 d a b s
  | .remZ64 d a b => Sys2Proof.Machine.execRemZ64 d a b s
  | .bfxZ64 d a b => Sys2Proof.Machine.execBfxZ64 d a b s
  | .bfxS64 d a b => Sys2Proof.Machine.execBfxS64 d a b s
  | .bfi d a b => Sys2Proof.Machine.execBfi d a b s
  | .clz d a => Sys2Proof.Machine.execClz d a s
  | .ctz d a => Sys2Proof.Machine.execCtz d a s
  | .popc d a => Sys2Proof.Machine.execPopc d a s
  | .brev d a => Sys2Proof.Machine.execBrev d a s
  | .bswap d a => Sys2Proof.Machine.execBswap d a s
  | .cmpeq d a b => Sys2Proof.Machine.execCmpeq d a b s
  | .cmpne d a b => Sys2Proof.Machine.execCmpne d a b s
  | .cmpltS64 d a b => Sys2Proof.Machine.execCmpltS64 d a b s
  | .cmpleS64 d a b => Sys2Proof.Machine.execCmpleS64 d a b s
  | .cmpltZ64 d a b => Sys2Proof.Machine.execCmpltZ64 d a b s
  | .cmpleZ64 d a b => Sys2Proof.Machine.execCmpleZ64 d a b s
  | .cmpeqi d a imm => Sys2Proof.Machine.execCmpeqi d a imm s
  | .cmpnei d a imm => Sys2Proof.Machine.execCmpnei d a imm s
  | .cmpltiS64 d a imm => Sys2Proof.Machine.execCmpltiS64 d a imm s
  | .cmpleiS64 d a imm => Sys2Proof.Machine.execCmpleiS64 d a imm s
  | .cmpltiZ64 d a imm => Sys2Proof.Machine.execCmpltiZ64 d a imm s
  | .cmpleiZ64 d a imm => Sys2Proof.Machine.execCmpleiZ64 d a imm s
  | .kand d a b => Sys2Proof.Machine.execKand d a b s
  | .kor d a b => Sys2Proof.Machine.execKor d a b s
  | .kxor d a b => Sys2Proof.Machine.execKxor d a b s
  | .kandn d a b => Sys2Proof.Machine.execKandn d a b s
  | .knot d a => Sys2Proof.Machine.execKnot d a s
  | .kfromg d a => Sys2Proof.Machine.execKfromg d a s
  | .gfromk d a => Sys2Proof.Machine.execGfromk d a s
  | .cvtF32S64 d a r => Sys2Proof.Machine.execCvtF32S64 d a r s
  | .cvtF32Z64 d a r => Sys2Proof.Machine.execCvtF32Z64 d a r s
  | .cvtS64F32 d a r => Sys2Proof.Machine.execCvtS64F32 d a r s
  | .cvtZ64F32 d a r => Sys2Proof.Machine.execCvtZ64F32 d a r s
  | .br imm => Sys2Proof.Machine.execBr imm s
  | .call imm => Sys2Proof.Machine.execCall imm s
  | .jmp a => Sys2Proof.Machine.execJmp a s
  | .callr a => Sys2Proof.Machine.execCallr a s
  | .loop a imm => Sys2Proof.Machine.execLoop a imm s
  | .loopi c imm => Sys2Proof.Machine.execLoopi c imm s
  | .lcnt d n => Sys2Proof.Machine.execLcnt d n s
  | .mfs d n => Sys2Proof.Machine.execMfs d n s
  | .mts n a => Sys2Proof.Machine.execMts n a s
  | .feat d w => Sys2Proof.Machine.execFeat d w s
  | .setfmt a => Sys2Proof.Machine.execSetfmt a s
  | .setfmti v => Sys2Proof.Machine.execSetfmti v s
  | .trap imm => Sys2Proof.Machine.execTrap imm s
  | .trapretg a => Sys2Proof.Machine.execTrapretg a s
  | .vaddFp t d a b => Sys2Proof.Machine.execVaddFp t d a b s
  | .vsubFp t d a b => Sys2Proof.Machine.execVsubFp t d a b s
  | .vmulFp t d a b => Sys2Proof.Machine.execVmulFp t d a b s
  | .vminFp t d a b => Sys2Proof.Machine.execVminFp t d a b s
  | .vmaxFp t d a b => Sys2Proof.Machine.execVmaxFp t d a b s
  | .vabsFp t d a => Sys2Proof.Machine.execVabsFp t d a s
  | .vneg t d a => Sys2Proof.Machine.execVneg t d a s
  | .vcpys t d a b => Sys2Proof.Machine.execVcpys t d a b s
  | .vfma t d a b => Sys2Proof.Machine.execVfma t d a b s
  | .vfms t d a b => Sys2Proof.Machine.execVfms t d a b s
  | .vfnma t d a b => Sys2Proof.Machine.execVfnma t d a b s
  | .vfnms t d a b => Sys2Proof.Machine.execVfnms t d a b s
  | .vaddInt t d a b => Sys2Proof.Machine.execVaddInt t d a b s
  | .vsubInt t d a b => Sys2Proof.Machine.execVsubInt t d a b s
  | .vminInt t d a b => Sys2Proof.Machine.execVminInt t d a b s
  | .vmaxInt t d a b => Sys2Proof.Machine.execVmaxInt t d a b s
  | .vadds t d a b => Sys2Proof.Machine.execVadds t d a b s
  | .vsubs t d a b => Sys2Proof.Machine.execVsubs t d a b s
  | .vmulInt t d a b => Sys2Proof.Machine.execVmulInt t d a b s
  | .vabsInt t d a => Sys2Proof.Machine.execVabsInt t d a s
  | .vcmpeq t d a b => Sys2Proof.Machine.execVcmpeq t d a b s
  | .vcmpne t d a b => Sys2Proof.Machine.execVcmpne t d a b s
  | .vcmplt t d a b => Sys2Proof.Machine.execVcmplt t d a b s
  | .vcmple t d a b => Sys2Proof.Machine.execVcmple t d a b s
  | .vcmpun d a b => Sys2Proof.Machine.execVcmpun d a b s
  | .vand d a b => Sys2Proof.Machine.execVand d a b s
  | .vor d a b => Sys2Proof.Machine.execVor d a b s
  | .vxor d a b => Sys2Proof.Machine.execVxor d a b s
  | .vandn d a b => Sys2Proof.Machine.execVandn d a b s
  | .vnot d a => Sys2Proof.Machine.execVnot d a s
  | .vshl d a b => Sys2Proof.Machine.execVshl d a b s
  | .vshr d a b => Sys2Proof.Machine.execVshr d a b s
  | .vsar d a b => Sys2Proof.Machine.execVsar d a b s
  | .vsel d a b => Sys2Proof.Machine.execVsel d a b s
  | .vmov d a => Sys2Proof.Machine.execVmov d a s
  | .vbcst d a => Sys2Proof.Machine.execVbcst d a s
  | .vextr d a b => Sys2Proof.Machine.execVextr d a b s
  | .vinsr d a b => Sys2Proof.Machine.execVinsr d a b s
  | .kpopc d a => Sys2Proof.Machine.execKpopc d a s
  | .kfirst d a => Sys2Proof.Machine.execKfirst d a s
  | .klast d a => Sys2Proof.Machine.execKlast d a s
  | .cvtVector t src r d a => Sys2Proof.Machine.execCvtVector t src r d a s
  | .vqnt t d a b => Sys2Proof.Machine.execVqnt t d a b s
  | .vdq out src d a b => Sys2Proof.Machine.execVdq out src d a b s
  | .vperm d a b => Sys2Proof.Machine.execVperm d a b s
  | .vrot d a b => Sys2Proof.Machine.execVrot d a b s
  | .vziplo d a b => Sys2Proof.Machine.execVziplo d a b s
  | .vziphi d a b => Sys2Proof.Machine.execVziphi d a b s
  | .vcomp d a => Sys2Proof.Machine.execVcomp d a s
  | .vexpd d a => Sys2Proof.Machine.execVexpd d a s
  | .viota d => Sys2Proof.Machine.execViota d s
  | .vclmullo d a b => Sys2Proof.Machine.execVclmullo d a b s
  | .vclmulhi d a b => Sys2Proof.Machine.execVclmulhi d a b s
  | .vrsum t d a => Sys2Proof.Machine.execVrsum t d a s
  | .vrmax t d a => Sys2Proof.Machine.execVrmax t d a s
  | .vrmin t d a => Sys2Proof.Machine.execVrmin t d a s
  | .vscsum t d a => Sys2Proof.Machine.execVscsum t d a s
  | .vscmax t d a => Sys2Proof.Machine.execVscmax t d a s
  | .vscmin t d a => Sys2Proof.Machine.execVscmin t d a s
  | .vdiv t d a b => Sys2Proof.Machine.execVdiv t d a b s
  | .vsqrt t d a => Sys2Proof.Machine.execVsqrt t d a s
  | .vrcp t d a => Sys2Proof.Machine.execVrcp t d a s
  | .vrsqrt t d a => Sys2Proof.Machine.execVrsqrt t d a s
  | .vexp2 t d a => Sys2Proof.Machine.execVexp2 t d a s
  | .vlog2 t d a => Sys2Proof.Machine.execVlog2 t d a s
  | .vtanh t d a => Sys2Proof.Machine.execVtanh t d a s
  | .vsigm t d a => Sys2Proof.Machine.execVsigm t d a s
  | .sbind d a => Sys2Proof.Machine.execSbind d a s
  | .sint d a b => Sys2Proof.Machine.execSint d a b s
  | .suni d a b => Sys2Proof.Machine.execSuni d a b s
  | .ssub d a b => Sys2Proof.Machine.execSsub d a b s
  | .smadd d a b => Sys2Proof.Machine.execSmadd d a b s
  | .sdrain d a => Sys2Proof.Machine.execSdrain d a s
  | .scnt d a => Sys2Proof.Machine.execScnt d a s
  | .sfree d => Sys2Proof.Machine.execSfree d s
  | .ld t d a imm => Sys2Proof.Machine.execLd t d a imm s
  | .ldacq sc t d a imm => Sys2Proof.Machine.execLdacq sc t d a imm s
  | .lds t d a imm => Sys2Proof.Machine.execLds t d a imm s
  | .st t d a imm => Sys2Proof.Machine.execSt t d a imm s
  | .strel sc t d a imm => Sys2Proof.Machine.execStrel sc t d a imm s
  | .sts t d a imm => Sys2Proof.Machine.execSts t d a imm s
  | .vld d a imm => Sys2Proof.Machine.execVld d a imm s
  | .vldacq sc d a imm => Sys2Proof.Machine.execVldacq sc d a imm s
  | .vlds d a imm => Sys2Proof.Machine.execVlds d a imm s
  | .vst d a imm => Sys2Proof.Machine.execVst d a imm s
  | .vstrel sc d a imm => Sys2Proof.Machine.execVstrel sc d a imm s
  | .vsts d a imm => Sys2Proof.Machine.execVsts d a imm s
  | .fill d a imm => Sys2Proof.Machine.execFill d a imm s
  | .take d a imm => Sys2Proof.Machine.execTake d a imm s
  | .readf d a imm => Sys2Proof.Machine.execReadf d a imm s
  | .writef d a imm => Sys2Proof.Machine.execWritef d a imm s
  | .sete d a imm => Sys2Proof.Machine.execSete d a imm s
  | .vgath d a b => Sys2Proof.Machine.execVgath d a b s
  | .vscat d a b => Sys2Proof.Machine.execVscat d a b s
  | .vgaths d a b => Sys2Proof.Machine.execVgaths d a b s
  | .vscats d a b => Sys2Proof.Machine.execVscats d a b s
  | .vmcst d a b => Sys2Proof.Machine.execVmcst d a b s
  | .vrdst d a b => Sys2Proof.Machine.execVrdst d a b s
  | .aadd o w d a b => Sys2Proof.Machine.execAadd o w d a b s
  | .aand o w d a b => Sys2Proof.Machine.execAand o w d a b s
  | .aor o w d a b => Sys2Proof.Machine.execAor o w d a b s
  | .axor o w d a b => Sys2Proof.Machine.execAxor o w d a b s
  | .aminSigned o w d a b => Sys2Proof.Machine.execAminSigned o w d a b s
  | .amaxSigned o w d a b => Sys2Proof.Machine.execAmaxSigned o w d a b s
  | .aminUnsigned o w d a b => Sys2Proof.Machine.execAminUnsigned o w d a b s
  | .amaxUnsigned o w d a b => Sys2Proof.Machine.execAmaxUnsigned o w d a b s
  | .aswap o w d a b => Sys2Proof.Machine.execAswap o w d a b s
  | .acas o w d a b => Sys2Proof.Machine.execAcas o w d a b s
  | .acasw o d a b => Sys2Proof.Machine.execAcasw o d a b s
  | .aswapw o d a b => Sys2Proof.Machine.execAswapw o d a b s
  | .afaddF32 o d a b => Sys2Proof.Machine.execAfaddF32 o d a b s
  | .afaddBf16 o d a b => Sys2Proof.Machine.execAfaddBf16 o d a b s
  | .vafaddF32 o d a b => Sys2Proof.Machine.execVafaddF32 o d a b s
  | .vaaddZ32 o d a b => Sys2Proof.Machine.execVaaddZ32 o d a b s
  | .fenceAcq sc => Sys2Proof.Machine.execFenceAcq sc s
  | .fenceRel sc => Sys2Proof.Machine.execFenceRel sc s
  | .fence sc => Sys2Proof.Machine.execFence sc s
  | .bella a => Sys2Proof.Machine.execBella a s
  | .bellw a => Sys2Proof.Machine.execBellw a s
  | .bellm a b => Sys2Proof.Machine.execBellm a b s
  | .rolli a b => Sys2Proof.Machine.execRolli a b s
  | .rolla a b => Sys2Proof.Machine.execRolla a b s
  | .rollw d a => Sys2Proof.Machine.execRollw d a s
  | .stslip d a b => Sys2Proof.Machine.execStslip d a b s
  | .stwait1 d a b => Sys2Proof.Machine.execStwait1 d a b s
  | .stwait2 d a b => Sys2Proof.Machine.execStwait2 d a b s
  | .lkreq m a => Sys2Proof.Machine.execLkreq m a s
  | .lktry m d a => Sys2Proof.Machine.execLktry m d a s
  | .lkrel a => Sys2Proof.Machine.execLkrel a s
  | .cpin n a b => Sys2Proof.Machine.execCpin n a b s
  | .cevf n a b => Sys2Proof.Machine.execCevf n a b s
  | .cunpin n => Sys2Proof.Machine.execCunpin n s
  | .cflush a b => Sys2Proof.Machine.execCflush a b s
  | .cinv a b => Sys2Proof.Machine.execCinv a b s
  | .pref a imm => Sys2Proof.Machine.execPref a imm s
  | .mma d a b => Sys2Proof.Machine.execMma d a b s
  | .mmag d a b => Sys2Proof.Machine.execMmag d a b s
  | .mmab d a b => Sys2Proof.Machine.execMmab d a b s
  | .zclr d => Sys2Proof.Machine.execZclr d s
  | .zld d a => Sys2Proof.Machine.execZld d a s
  | .zst d a => Sys2Proof.Machine.execZst d a s
  | .zrd d a b => Sys2Proof.Machine.execZrd d a b s
  | .zget d => Sys2Proof.Machine.execZget d s
  | .zput d => Sys2Proof.Machine.execZput d s
  | .scld a => Sys2Proof.Machine.execScld a s
  | .tgemm a => Sys2Proof.Machine.execTgemm a s
  | .cpy a b => Sys2Proof.Machine.execCpy a b s
  | .cpym a b => Sys2Proof.Machine.execCpym a b s
  | .irr a b => Sys2Proof.Machine.execIrr a b s
  | .embg a b => Sys2Proof.Machine.execEmbg a b s
  | .embu a b => Sys2Proof.Machine.execEmbu a b s
  | .a2a a b => Sys2Proof.Machine.execA2a a b s
  | .coll a b => Sys2Proof.Machine.execColl a b s
  | .hcfg a b => Sys2Proof.Machine.execHcfg a b s
  | .hkst a b => Sys2Proof.Machine.execHkst a b s
  | .hgth a b => Sys2Proof.Machine.execHgth a b s
  | .ttload a b => Sys2Proof.Machine.execTtload a b s
  | .nop => Sys2Proof.Machine.execNop s
  | .ret => Sys2Proof.Machine.execRet s
  | .mark => Sys2Proof.Machine.execMark s
  | .yield => Sys2Proof.Machine.execYield s
  | .endTask => Sys2Proof.Machine.execEndTask s
  | .trapret => Sys2Proof.Machine.execTrapret s
  | .traprst => Sys2Proof.Machine.execTraprst s
  | .commit => Sys2Proof.Machine.execCommit s
  | .clrfel => Sys2Proof.Machine.execClrfel s
  | .tandem => Sys2Proof.Machine.execTandem s
  | .decouple => Sys2Proof.Machine.execDecouple s
  | .rejoin => Sys2Proof.Machine.execRejoin s
  | .registerWrite => Sys2Proof.Machine.execRegisterWrite s
  | .packageRequest => Sys2Proof.Machine.execPackageRequest s
  | .requestRetry => Sys2Proof.Machine.execRequestRetry s
  | .trackerEntryFree => Sys2Proof.Machine.execTrackerEntryFree s
  | .ticketNoticeResend => Sys2Proof.Machine.execTicketNoticeResend s
  | .ticketClaim => Sys2Proof.Machine.execTicketClaim s
  | .sourcePortReset => Sys2Proof.Machine.execSourcePortReset s
  | .proctorBoot => Sys2Proof.Machine.execProctorBoot s
  | .welomLinkTrained => Sys2Proof.Machine.execWelomLinkTrained s
  | .manifestVerify => Sys2Proof.Machine.execManifestVerify s
  | .dieMeasureRelease => Sys2Proof.Machine.execDieMeasureRelease s
  | .deviceReady => Sys2Proof.Machine.execDeviceReady s
  | .powerUp => Sys2Proof.Machine.execPowerUp s
  | .mrstnAssert => Sys2Proof.Machine.execMrstnAssert s
  | .modrstGo => Sys2Proof.Machine.execModrstGo s
  | .getVersion => Sys2Proof.Machine.execGetVersion s
  | .getCapabilities => Sys2Proof.Machine.execGetCapabilities s
  | .negotiateAlgorithms => Sys2Proof.Machine.execNegotiateAlgorithms s
  | .getDigests => Sys2Proof.Machine.execGetDigests s
  | .getCertificate => Sys2Proof.Machine.execGetCertificate s
  | .challenge => Sys2Proof.Machine.execChallenge s
  | .getMeasurements => Sys2Proof.Machine.execGetMeasurements s
  | .keyExchange => Sys2Proof.Machine.execKeyExchange s
  | .finish => Sys2Proof.Machine.execFinish s
  | .heartbeat => Sys2Proof.Machine.execHeartbeat s
  | .keyUpdate => Sys2Proof.Machine.execKeyUpdate s
  | .endSession => Sys2Proof.Machine.execEndSession s
  | .chunkSend => Sys2Proof.Machine.execChunkSend s
  | .chunkGet => Sys2Proof.Machine.execChunkGet s
  | .alarmRaise => Sys2Proof.Machine.execAlarmRaise s
  | .spdmUnsupportedRequest => Sys2Proof.Machine.execSpdmUnsupportedRequest s
  | .keyLoadConfirm => Sys2Proof.Machine.execKeyLoadConfirm s
  | .keyLoadTimeout => Sys2Proof.Machine.execKeyLoadTimeout s
  | .keyZeroiseConfirm => Sys2Proof.Machine.execKeyZeroiseConfirm s
  | .sensorExcursionStart => Sys2Proof.Machine.execSensorExcursionStart s
  | .sensorExcursionPersist => Sys2Proof.Machine.execSensorExcursionPersist s
  | .sensorExcursionClear => Sys2Proof.Machine.execSensorExcursionClear s
  | .tamperMeshOpen => Sys2Proof.Machine.execTamperMeshOpen s
  | .debugPortOpen => Sys2Proof.Machine.execDebugPortOpen s
  | .dieQuiet => Sys2Proof.Machine.execDieQuiet s
  | .dieWakeStart => Sys2Proof.Machine.execDieWakeStart s
  | .clusterWake => Sys2Proof.Machine.execClusterWake s
  | .powerWindowEnd => Sys2Proof.Machine.execPowerWindowEnd s
  | .thermalFloorEnter => Sys2Proof.Machine.execThermalFloorEnter s
  | .thermalFloorExit => Sys2Proof.Machine.execThermalFloorExit s
  | .clockChangePauseEnd => Sys2Proof.Machine.execClockChangePauseEnd s
  | .pwrctlWrite => Sys2Proof.Machine.execPwrctlWrite s
  | .flitReceive => Sys2Proof.Machine.execFlitReceive s
  | .linkPacketReceive => Sys2Proof.Machine.execLinkPacketReceive s
  | .nack => Sys2Proof.Machine.execNack s
  | .replayTimeout => Sys2Proof.Machine.execReplayTimeout s
  | .laneLossOfLock => Sys2Proof.Machine.execLaneLossOfLock s
  | .laneRetire => Sys2Proof.Machine.execLaneRetire s
  | .laneSymbolRateExpiry => Sys2Proof.Machine.execLaneSymbolRateExpiry s
  | .retrain => Sys2Proof.Machine.execRetrain s
  | .retrainAnswerTimeout => Sys2Proof.Machine.execRetrainAnswerTimeout s
  | .equalisationDone => Sys2Proof.Machine.execEqualisationDone s
  | .resume => Sys2Proof.Machine.execResume s
  | .linkTrained => Sys2Proof.Machine.execLinkTrained s
  | .resyncSend => Sys2Proof.Machine.execResyncSend s
  | .resync => Sys2Proof.Machine.execResync s
  | .fabidWrite => Sys2Proof.Machine.execFabidWrite s
  | .routeWrite => Sys2Proof.Machine.execRouteWrite s
  | .fctxmapWrite => Sys2Proof.Machine.execFctxmapWrite s
  | .fwdCacheFlush => Sys2Proof.Machine.execFwdCacheFlush s
  | .fwdCacheFlushDone => Sys2Proof.Machine.execFwdCacheFlushDone s
  | .remtoExpiry => Sys2Proof.Machine.execRemtoExpiry s
  | .readRequest => Sys2Proof.Machine.execReadRequest s
  | .readReply => Sys2Proof.Machine.execReadReply s
  | .writePacket => Sys2Proof.Machine.execWritePacket s
  | .writeAcknowledgement => Sys2Proof.Machine.execWriteAcknowledgement s
  | .atomicRequest => Sys2Proof.Machine.execAtomicRequest s
  | .atomicReply => Sys2Proof.Machine.execAtomicReply s
  | .forwardingReply => Sys2Proof.Machine.execForwardingReply s
  | .statusReply => Sys2Proof.Machine.execStatusReply s
  | .slipQuery => Sys2Proof.Machine.execSlipQuery s
  | .slipAnswer => Sys2Proof.Machine.execSlipAnswer s
  | .landedNotice => Sys2Proof.Machine.execLandedNotice s
  | .collectiveData => Sys2Proof.Machine.execCollectiveData s
  | .collectiveAbortFrame => Sys2Proof.Machine.execCollectiveAbortFrame s
  | .circuitData => Sys2Proof.Machine.execCircuitData s
  | .timetableBankWrite => Sys2Proof.Machine.execTimetableBankWrite s
  | .timetableBankSwitch => Sys2Proof.Machine.execTimetableBankSwitch s
  | .slipEntryFree => Sys2Proof.Machine.execSlipEntryFree s
  | .holdLimitExpiry => Sys2Proof.Machine.execHoldLimitExpiry s
  | .holdFullRetry => Sys2Proof.Machine.execHoldFullRetry s
  | .collectiveLimitTimeout => Sys2Proof.Machine.execCollectiveLimitTimeout s
  | .cxlEnumeration => Sys2Proof.Machine.execCxlEnumeration s
  | .girthCheck => Sys2Proof.Machine.execGirthCheck s
  | .adapterUnsupportedAccess => Sys2Proof.Machine.execAdapterUnsupportedAccess s
  | .apertureRead => Sys2Proof.Machine.execApertureRead s
  | .apertureWrite => Sys2Proof.Machine.execApertureWrite s
  | .apertureAtomic => Sys2Proof.Machine.execApertureAtomic s
  | .mailboxGo => Sys2Proof.Machine.execMailboxGo s
  | .contextCreate => Sys2Proof.Machine.execContextCreate s
  | .contextDestroy => Sys2Proof.Machine.execContextDestroy s
  | .queueEnable => Sys2Proof.Machine.execQueueEnable s
  | .jobCardLaunch => Sys2Proof.Machine.execJobCardLaunch s
  | .jobCardDrive => Sys2Proof.Machine.execJobCardDrive s
  | .jobCardNull => Sys2Proof.Machine.execJobCardNull s
  | .jobCardInvalid => Sys2Proof.Machine.execJobCardInvalid s
  | .cardComplete => Sys2Proof.Machine.execCardComplete s
  | .dbindWrite => Sys2Proof.Machine.execDbindWrite s
  | .driveProgramStart => Sys2Proof.Machine.execDriveProgramStart s
  | .drivePeriod => Sys2Proof.Machine.execDrivePeriod s
  | .driveCommandArrive => Sys2Proof.Machine.execDriveCommandArrive s
  | .lnch => Sys2Proof.Machine.execLnch s
  | .priorityRecompute => Sys2Proof.Machine.execPriorityRecompute s
  | .launchRelease => Sys2Proof.Machine.execLaunchRelease s
  | .taskCreate => Sys2Proof.Machine.execTaskCreate s
  | .taskBind => Sys2Proof.Machine.execTaskBind s
  | .bindComplete => Sys2Proof.Machine.execBindComplete s
  | .ageLimit => Sys2Proof.Machine.execAgeLimit s
  | .stallEntryComplete => Sys2Proof.Machine.execStallEntryComplete s
  | .waitEviction => Sys2Proof.Machine.execWaitEviction s
  | .markGap => Sys2Proof.Machine.execMarkGap s
  | .preemptHoldWrite => Sys2Proof.Machine.execPreemptHoldWrite s
  | .bindWaitPreempt => Sys2Proof.Machine.execBindWaitPreempt s
  | .forcedSave => Sys2Proof.Machine.execForcedSave s
  | .frameSaveComplete => Sys2Proof.Machine.execFrameSaveComplete s
  | .frameAreaWrite => Sys2Proof.Machine.execFrameAreaWrite s
  | .tandemGroupForm => Sys2Proof.Machine.execTandemGroupForm s
  | .issueBundle => Sys2Proof.Machine.execIssueBundle s
  | .deferredFaultArrive => Sys2Proof.Machine.execDeferredFaultArrive s
  | .loadDataArrive => Sys2Proof.Machine.execLoadDataArrive s
  | .mmaComplete => Sys2Proof.Machine.execMmaComplete s
  | .spcfgWrite => Sys2Proof.Machine.execSpcfgWrite s
  | .pageWalkComplete => Sys2Proof.Machine.execPageWalkComplete s
  | .pageResolve => Sys2Proof.Machine.execPageResolve s
  | .tlbinvWrite => Sys2Proof.Machine.execTlbinvWrite s
  | .tlbInvalidateComplete => Sys2Proof.Machine.execTlbInvalidateComplete s
  | .hotbaseWrite => Sys2Proof.Machine.execHotbaseWrite s
  | .wound => Sys2Proof.Machine.execWound s
  | .invigilatorCheck => Sys2Proof.Machine.execInvigilatorCheck s
  | .ivbWrite => Sys2Proof.Machine.execIvbWrite s
  | .releaseSettled => Sys2Proof.Machine.execReleaseSettled s
  | .stampedMessageApply => Sys2Proof.Machine.execStampedMessageApply s
  | .prefectLockRequest => Sys2Proof.Machine.execPrefectLockRequest s
  | .prefectLockTry => Sys2Proof.Machine.execPrefectLockTry s
  | .prefectLockRelease => Sys2Proof.Machine.execPrefectLockRelease s
  | .lockGrant => Sys2Proof.Machine.execLockGrant s
  | .lockRefusalRetry => Sys2Proof.Machine.execLockRefusalRetry s
  | .lkcompatWrite => Sys2Proof.Machine.execLkcompatWrite s
  | .hotRowGroupEnable => Sys2Proof.Machine.execHotRowGroupEnable s
  | .hotRowGroupFlush => Sys2Proof.Machine.execHotRowGroupFlush s
  | .hotRowGroupReady => Sys2Proof.Machine.execHotRowGroupReady s
  | .hotRowFillComplete => Sys2Proof.Machine.execHotRowFillComplete s
  | .engineComplete => Sys2Proof.Machine.execEngineComplete s
  | .streamOperationEnd => Sys2Proof.Machine.execStreamOperationEnd s
  | .tgemmStepComplete => Sys2Proof.Machine.execTgemmStepComplete s
  | .fullEmptyRetry => Sys2Proof.Machine.execFullEmptyRetry s
  | .cacheMaintenanceComplete => Sys2Proof.Machine.execCacheMaintenanceComplete s
  | .tileLoadComplete => Sys2Proof.Machine.execTileLoadComplete s
  | .storePerformed => Sys2Proof.Machine.execStorePerformed s
  | .ultraEthernetPacket => Sys2Proof.Machine.execUltraEthernetPacket s
  | .ultraEthernetPortState => Sys2Proof.Machine.execUltraEthernetPortState s
  | .adapterEndpointReset => Sys2Proof.Machine.execAdapterEndpointReset s

end Sys2Proof.Machine
end

