-- ==== Sys2Proof/Machine/Step.lean ====
section
/-! DEFINITION. One step: the next event or bundle, or else the next cycle. -/

namespace Sys2Proof.Machine

open Sys2Proof

/-- One step of the machine. -/
def step (s : State) : Host.Outcome State Fault Refusal :=
  match s.takeEvent with
  | some (i, a, s1) => runEvent exec i a s1
  | none => .next s.tick

/-- The machine with an instruction word where its only task fetches next (log entry 11). Every instruction of the
table is one 32-bit slot, so no bit above `nbits` belongs to it. -/
def State.withFetchWord (s : State) (_nbits w : Nat) : State := s.placeWord (BitVec.ofNat 32 w)

end Sys2Proof.Machine
end

