-- ==== Sys2Proof/Safety.lean ====
section
/-! DEFINITION. The terms in which claims are made: the effect of a slot on its open bundle, what counts as a safe run,
and the invariant that steps keep. -/

namespace Sys2Proof.Machine

open Sys2Proof

/-! ## The effect of a slot -/

/-- An exposed write of a whole G register, latency class `lat` (05 R131). -/
def gWrite (lat : Nat) (d : Reg) (v : Word) : Pend := ⟨.g d, BitVec.allOnes 64, .word v, lat, 0, 0⟩
/-- An exposed write of a whole K register. -/
def kWrite (lat : Nat) (d : KReg) (v : Word) : Pend := ⟨.k d, BitVec.allOnes 64, .word v, lat, 0, 0⟩
/-- An exposed write of the lanes of a V register that a mask enables. -/
def vWrite (lat : Nat) (d : Reg) (mask : Word) (f : Nat → Lane) : Pend := ⟨.v d, mask, .vec (VReg.ofFn f), lat, 0, 0⟩
/-- An exposed write of FMT. -/
def fmtWrite (lat : Nat) (v : Word) : Pend := ⟨.fmt, BitVec.allOnes 64, .word v, lat, 0, 0⟩

/-- The state in which the running slot has entered writes in its bundle as its own, and nothing else is changed. -/
def State.withWrites (s : State) (ws : List Pend) : State :=
  { s with cur := s.cur.map fun c => { c with writes := c.writes ++ ws.map fun w => { w with slot := c.slot } } }

/-- The same, with arithmetic events of the running slot: lane and class (08 R213). -/
def State.withEffect (s : State) (ws : List Pend) (evs : List (Nat × Nat)) : State :=
  { s with cur := s.cur.map fun c =>
      { c with writes := c.writes ++ ws.map fun w => { w with slot := c.slot }
               events := c.events ++ evs.map fun e => (c.slot, e.1, e.2) } }

/-- The running slot writes Vd element by element, and does nothing else: each enabled element `j` below `n`, `w` bits wide,
takes the value of `f j`, the elements from `n` on are zero, and the events are those of the enabled elements, each at its
lane (13 R327, R328; 08 R213). -/
def ElemResult (s u : State) (lat : Nat) (d : Reg) (w n : Nat) (f : Nat → Nat × List Nat) : Prop :=
  ∃ (v : VReg) (evs : List (Nat × Nat)),
    u = s.withEffect [⟨.v d, s.mask, .vec v, lat, 0, 0⟩] evs ∧
    (∀ j, j < n → s.mask.getLsbD (j * w / 32) = true → vElem v w j = (f j).1 % 2 ^ w) ∧
    (∀ j, n ≤ j → j < 2048 / w → vElem v w j = 0) ∧
    ∀ x, x ∈ evs ↔ ∃ j e, j < n ∧ s.mask.getLsbD (j * w / 32) = true ∧ e ∈ (f j).2 ∧ x = (j * w / 32, e)

/-- Element `j` of a V register as a value of a type. -/
def State.fpElem (s : State) (t : Ty) (r : Reg) (j : Nat) : FpVal := decodeTy t (vElem (s.getV r) (tyBits t) j)

/-- Element `j` of a V register as an integer of a type. -/
def State.intElem (s : State) (t : Ty) (r : Reg) (j : Nat) : Int := intOf t (vElem (s.getV r) (tyBits t) j)

/-- All ones where a condition holds, else zero: what a compare writes (12 R304). -/
def allOnesIf (c : Prop) [Decidable c] : Word := if c then 0xFFFFFFFFFFFFFFFF else 0

/-! ## Bytes and registers -/

/-- Memory and the scratchpads read byte for byte as they did. -/
def SameBytes (s u : State) : Prop :=
  (∀ a, cellGet u.mem.bytes a = cellGet s.mem.bytes a) ∧ ∀ a, cellGet u.mem.sram a = cellGet s.mem.sram a

/-- Where the bytes of a place of this chip stand: in memory or in the scratchpads, from which key on. -/
def Loc.key : Loc → Bool × Nat
  | .phys pa _ _ => (true, pa)
  | .sram c o => (false, sramKey c o)
  | .peer _ _ va => (true, 2 ^ 60 + va)

/-- The `n` bytes at a place of this chip. -/
def State.bytesAt (s : State) (loc : Loc) (n : Nat) : List Byte :=
  match loc with
  | .phys pa _ _ => cellsRead s.mem.bytes pa n
  | .sram c o => cellsRead s.mem.sram (sramKey c o) n
  | .peer _ _ _ => []

/-- Memory and the scratchpads read as they did but for the `n` bytes at each of some places. -/
def SameBytesBut (places : List Loc) (n : Nat) (s u : State) : Prop :=
  (∀ a, (∀ l ∈ places, ¬(l.key.1 = true ∧ l.key.2 ≤ a ∧ a < l.key.2 + n)) →
    cellGet u.mem.bytes a = cellGet s.mem.bytes a) ∧
  ∀ a, (∀ l ∈ places, ¬(l.key.1 = false ∧ l.key.2 ≤ a ∧ a < l.key.2 + n)) →
    cellGet u.mem.sram a = cellGet s.mem.sram a

/-- Every task keeps its registers, FEL and trap state. -/
def SameRegs (s u : State) : Prop :=
  u.tasks.map (fun t => (t.tid, t.r, t.trap)) = s.tasks.map fun t => (t.tid, t.r, t.trap)

/-- A read or update of a task finds the plain bytes of a place of this chip: no store of its own is still to be
performed, it has no version line and no queued store, the beat is not poisoned, and the line is readable under its key
(06 R169; 07 R180; 01 R21, R28). -/
def State.Plain (s : State) (t : Task) (n : Nat) (loc : Loc) : Prop :=
  s.ownStores t.tid = [] ∧ (∀ v ∈ s.mem.versions, v.tid ≠ t.tid) ∧ t.commitQ = [] ∧
  match loc with
  | .sram _ _ => True
  | .phys pa _ _ => pa % 64 + n ≤ 64 ∧ s.poisonedLine pa n = none ∧ s.lineReadable (ctxSlot t.ctx) (pa / 64) = true
  | .peer _ _ _ => False

/-- A core holds no copy of the line of a place (05 R142). -/
def State.Uncached (s : State) (core : Nat) (loc : Loc) : Prop :=
  ∀ pa place evf, loc = .phys pa place evf → ∀ ctx, s.l1Line ctx core (pa / 64) = none

/-- A place of this chip. -/
def Loc.isHere (loc : Loc) : Bool :=
  match loc with
  | .peer _ _ _ => false
  | _ => true

/-- The open bundle stands as it did, but for the accesses that it will trace (05 R158). -/
def SameCur (s u : State) : Prop := ∃ tr, u.cur = s.cur.map fun c => { c with traced := c.traced ++ tr }

/-- The running slot has entered interlocked results in its bundle, and has changed nothing else of it but what it will
trace (05 R132). -/
def Entered (s u : State) (es : List Infl) : Prop :=
  ∃ tr, u.cur = s.cur.map fun c =>
    { c with inter := c.inter ++ es.map (fun e => { e with slot := c.slot }), traced := c.traced ++ tr }

/-- The running slot has entered interlocked results, whose values are known and will arrive (05 R132). -/
def Interlocked (s u : State) (rs : List (RegId × Word × RegVal)) : Prop :=
  ∃ es : List Infl, Entered s u es ∧
    es.map (fun e => (e.reg, e.mask, e.val)) = rs ∧
    ∀ e ∈ es, e.visible = false ∧ e.remote = false ∧ e.poison = none ∧ ∃ n, (n, .loadDataArrive, .num e.id) ∈ u.due

/-- Stores of a task still to be performed: what each writes where, and their release (07 R179). -/
def IssuedEach (s u : State) (tid : Word) (opss : List (List MemOp)) (rel : Option Scope) : Prop :=
  ∃ xs : List PendStore, u.mem.stores = s.mem.stores ++ xs ∧ xs.map (·.ops) = opss ∧
    ∀ x ∈ xs, x.tid = tid ∧ x.release = rel ∧ x.slipTo = none ∧ ∃ n, (n, .storePerformed, .num x.id) ∈ u.due

/-- One store of a task still to be performed. -/
def Issued (s u : State) (tid : Word) (ops : List MemOp) (rel : Option Scope) : Prop := IssuedEach s u tid [ops] rel

/-- Nothing is still on its way that an atomic of a task at these pieces must follow: the remote writes and the stamp of a
release fence before it, and the stamp of its own release, where another die performs it (07 R187, R189, R190). -/
def State.Ordered (s : State) (t : Task) (core : Nat) (rel : Option Scope) (ps : List Piece) : Prop :=
  (∀ m, t.relMark = some m → m.fabric = true → ∀ r ∈ s.fabric.remotes, r.use.tid? = some t.tid → r.writes = true →
    m.before ≤ r.id) ∧
  ∀ p ∈ ps, ∀ d, p.homeDie s = some d → d ≠ coreDie core →
    (∀ m, t.relMark = some m → s.clocks.heardAll d m.stamp = true) ∧
    ∀ sc, rel = some sc → scopeWide sc = true → s.clocks.heardAll d (s.stampOf t core) = true

/-- What a store does at a place of this chip. -/
def Loc.storeOp (loc : Loc) (bs : List Byte) : Option MemOp :=
  match loc with
  | .phys pa _ _ => some (if pa < 2 ^ 51 then .phys pa bs else .host pa bs)
  | .sram c o => some (.sram c o bs)
  | .peer _ _ _ => none

/-- A hub has sent a packet: to this chip itself as an event that is due, to another through a candidate port that is up;
without one it is lost (02 R44, R45). -/
def State.Sends (s u : State) (hub : Nat) (r : Packet) : Prop :=
  (r.dst = s.ownChip hub → ∃ j, packetEvent r.op.toNat = some j ∧ (s.cycle, j, packetArg hub r) ∈ u.due) ∧
  (r.dst ≠ s.ownChip hub → (s.route hub r.dst).getLsbD 0 = true →
    (∃ k ∈ candidates (s.route hub r.dst), (s.link k).phase = .up) → ∃ k ∈ candidates (s.route hub r.dst),
      ∃ q : Packet, (q ∈ (u.link k).replay ∨ q ∈ (u.link k).txWait) ∧ { q with pseq := r.pseq, via := r.via } = r)

/-! ## Safe runs -/

/-- The machine goes on: no step of a run stops with a fault or a refusal. -/
def SafeFrom (s : State) : Prop := ∀ n, ∃ t, Host.Core.run Sys2Proof.core n s = .next t

/-- What every state of a run keeps: memory, scratchpads and the mailbox's two buffers stand in their canonical form. -/
def State.Inv (s : State) : Prop := s.mem.wf = true ∧ cellsWf s.host.mbIn = true ∧ cellsWf s.host.mbOut = true

end Sys2Proof.Machine
end

