-- ==== Sys2Proof/Certificates/Slice0/Obligations.lean ====
section
/-! DEFINITION. The statements. -/

open Sys2Proof Sys2Proof.Machine

/-- 12 R297: class 1 computes modulo 2^64, latency class 1, and changes nothing but its destination. -/
def Obligations.IntegerAluResults : Prop := ∀ (s : State) (d a b : Reg), s.enabled = true →
  exec (.add d a b) s = .next (s.withWrites [gWrite 1 d (s.getG a + s.getG b)]) ∧
  exec (.sub d a b) s = .next (s.withWrites [gWrite 1 d (s.getG a - s.getG b)]) ∧
  exec (.and d a b) s = .next (s.withWrites [gWrite 1 d (s.getG a &&& s.getG b)]) ∧
  exec (.or d a b) s = .next (s.withWrites [gWrite 1 d (s.getG a ||| s.getG b)]) ∧
  exec (.xor d a b) s = .next (s.withWrites [gWrite 1 d (s.getG a ^^^ s.getG b)]) ∧
  exec (.andn d a b) s = .next (s.withWrites [gWrite 1 d (s.getG a &&& ~~~(s.getG b))]) ∧
  exec (.shl d a b) s =
    .next (s.withWrites [gWrite 1 d (BitVec.ofNat 64 ((s.getG a).toNat * 2 ^ ((s.getG b).toNat % 64)))]) ∧
  exec (.shr d a b) s =
    .next (s.withWrites [gWrite 1 d (BitVec.ofNat 64 ((s.getG a).toNat / 2 ^ ((s.getG b).toNat % 64)))]) ∧
  exec (.sar d a b) s =
    .next (s.withWrites [gWrite 1 d (BitVec.ofInt 64 ((s.getG a).toInt / 2 ^ ((s.getG b).toNat % 64)))]) ∧
  exec (.ror d a b) s =
    .next (s.withWrites [gWrite 1 d
      ((s.getG a >>> ((s.getG b).toNat % 64)) ||| (s.getG a <<< (64 - (s.getG b).toNat % 64)))]) ∧
  exec (.minS64 d a b) s =
    .next (s.withWrites [gWrite 1 d (BitVec.ofInt 64 (min (s.getG a).toInt (s.getG b).toInt))]) ∧
  exec (.maxS64 d a b) s =
    .next (s.withWrites [gWrite 1 d (BitVec.ofInt 64 (max (s.getG a).toInt (s.getG b).toInt))]) ∧
  exec (.minZ64 d a b) s =
    .next (s.withWrites [gWrite 1 d (BitVec.ofNat 64 (min (s.getG a).toNat (s.getG b).toNat))]) ∧
  exec (.maxZ64 d a b) s =
    .next (s.withWrites [gWrite 1 d (BitVec.ofNat 64 (max (s.getG a).toNat (s.getG b).toNat))]) ∧
  exec (.addx2 d a b) s = .next (s.withWrites [gWrite 1 d (s.getG a + s.getG b * 2)]) ∧
  exec (.addx4 d a b) s = .next (s.withWrites [gWrite 1 d (s.getG a + s.getG b * 4)]) ∧
  exec (.addx8 d a b) s = .next (s.withWrites [gWrite 1 d (s.getG a + s.getG b * 8)])

/-- 12 R298 to R300: class 2 with the immediate of 11 R267, latency class 1; ADPC adds to its bundle's address. -/
def Claim.ImmediateAluResults : Prop := ∀ (s : State) (d a : Reg) (i : Imm 5), s.enabled = true →
  exec (.addi d a i) s = .next (s.withWrites [gWrite 1 d (s.getG a + immS i)]) ∧
  exec (.andi d a i) s = .next (s.withWrites [gWrite 1 d (s.getG a &&& immS i)]) ∧
  exec (.ori d a i) s = .next (s.withWrites [gWrite 1 d (s.getG a ||| immS i)]) ∧
  exec (.xori d a i) s = .next (s.withWrites [gWrite 1 d (s.getG a ^^^ immS i)]) ∧
  exec (.shli d a i) s =
    .next (s.withWrites [gWrite 1 d (BitVec.ofNat 64 ((s.getG a).toNat * 2 ^ ((immU i).toNat % 64)))]) ∧
  exec (.shri d a i) s =
    .next (s.withWrites [gWrite 1 d (BitVec.ofNat 64 ((s.getG a).toNat / 2 ^ ((immU i).toNat % 64)))]) ∧
  exec (.sari d a i) s =
    .next (s.withWrites [gWrite 1 d (BitVec.ofInt 64 ((s.getG a).toInt / 2 ^ ((immU i).toNat % 64)))]) ∧
  exec (.rori d a i) s =
    .next (s.withWrites [gWrite 1 d
      ((s.getG a >>> ((immU i).toNat % 64)) ||| (s.getG a <<< (64 - (immU i).toNat % 64)))]) ∧
  exec (.movi d i) s = .next (s.withWrites [gWrite 1 d (immS i)]) ∧
  ∀ c, s.cur = some c → ∃ v : Word,
    exec (.adpc d i) s = .next (s.withWrites [gWrite 1 d v]) ∧
    (v.toNat : Int) = ((c.pc.toNat : Int) + (immS i).toInt) % 2 ^ 57

/-- 11 R267: an immediate is its base field with each literal 26 bits further up, sign- or zero-extended. -/
def Claim.ImmediateValues : Prop :=
  ∀ (w : Nat) (b : BitVec w) (l1 l2 : BitVec 26), 1 ≤ w → w ≤ 12 →
    immS (⟨b, []⟩ : Imm w) = b.signExtend 64 ∧
    immS (⟨b, [l1]⟩ : Imm w) = (l1 ++ b).signExtend 64 ∧
    immS (⟨b, [l1, l2]⟩ : Imm w) = (l2 ++ (l1 ++ b)).signExtend 64 ∧
    immU (⟨b, []⟩ : Imm w) = b.setWidth 64 ∧
    immU (⟨b, [l1]⟩ : Imm w) = (l1 ++ b).setWidth 64 ∧
    immU (⟨b, [l1, l2]⟩ : Imm w) = (l2 ++ (l1 ++ b)).setWidth 64

/-- 12 R301: products exact to 128 bits, quotients truncated, and the results of the borderline operands. -/
def Claim.MultiplyDivideResults : Prop := ∀ (s : State) (d a b : Reg), s.enabled = true →
  exec (.mul d a b) s = .next (s.withWrites [gWrite 3 d (s.getG a * s.getG b)]) ∧
  exec (.mulhS64 d a b) s =
    .next (s.withWrites [gWrite 3 d (BitVec.ofInt 64 ((s.getG a).toInt * (s.getG b).toInt / 2 ^ 64))]) ∧
  exec (.mulhZ64 d a b) s =
    .next (s.withWrites [gWrite 3 d (BitVec.ofNat 64 ((s.getG a).toNat * (s.getG b).toNat / 2 ^ 64))]) ∧
  (s.getG b = 0 →
    exec (.divS64 d a b) s = .next (s.withEffect [gWrite 8 d 0xFFFFFFFFFFFFFFFF] [(0, 2)]) ∧
    exec (.divZ64 d a b) s = .next (s.withEffect [gWrite 8 d 0xFFFFFFFFFFFFFFFF] [(0, 2)]) ∧
    exec (.remS64 d a b) s = .next (s.withEffect [gWrite 8 d (s.getG a)] [(0, 2)]) ∧
    exec (.remZ64 d a b) s = .next (s.withEffect [gWrite 8 d (s.getG a)] [(0, 2)])) ∧
  (s.getG b ≠ 0 →
    exec (.divS64 d a b) s =
      .next (s.withWrites [gWrite 8 d (BitVec.ofInt 64 ((s.getG a).toInt.tdiv (s.getG b).toInt))]) ∧
    exec (.divZ64 d a b) s =
      .next (s.withWrites [gWrite 8 d (BitVec.ofNat 64 ((s.getG a).toNat / (s.getG b).toNat))]) ∧
    exec (.remZ64 d a b) s =
      .next (s.withWrites [gWrite 8 d (BitVec.ofNat 64 ((s.getG a).toNat % (s.getG b).toNat))]) ∧
    ∃ r : Word, exec (.remS64 d a b) s = .next (s.withWrites [gWrite 8 d r]) ∧
      r.toInt = (s.getG a).toInt - (s.getG b).toInt * (s.getG a).toInt.tdiv (s.getG b).toInt)

/-- 12 R302, R303: bit fields, counts and byte operations, latency class 1, by the bits of their results. -/
def Claim.BitFieldCountResults : Prop := ∀ (s : State) (d a b : Reg), s.enabled = true →
  (∃ z i sx : Word,
    exec (.bfxZ64 d a b) s = .next (s.withWrites [gWrite 1 d z]) ∧
    exec (.bfxS64 d a b) s = .next (s.withWrites [gWrite 1 d sx]) ∧
    exec (.bfi d a b) s = .next (s.withWrites [gWrite 1 d i]) ∧
    ∀ p e : Nat, p = (s.getG b).toNat % 64 → e = min (min ((s.getG b).toNat / 2 ^ 8 % 2 ^ 7) 64) (64 - p) →
      ∀ j, j < 64 →
        z.getLsbD j = (decide (j < e) && (s.getG a).getLsbD (p + j)) ∧
        sx.getLsbD j = (decide (0 < e) && (s.getG a).getLsbD (p + min j (e - 1))) ∧
        i.getLsbD j = (if p ≤ j ∧ j < p + e then (s.getG a).getLsbD (j - p) else (s.getG d).getLsbD j)) ∧
  (∃ n : Nat, n ≤ 64 ∧ exec (.clz d a) s = .next (s.withWrites [gWrite 1 d (BitVec.ofNat 64 n)]) ∧
    (∀ j, j < n → (s.getG a).getLsbD (63 - j) = false) ∧ (n < 64 → (s.getG a).getLsbD (63 - n) = true)) ∧
  (∃ n : Nat, n ≤ 64 ∧ exec (.ctz d a) s = .next (s.withWrites [gWrite 1 d (BitVec.ofNat 64 n)]) ∧
    (∀ j, j < n → (s.getG a).getLsbD j = false) ∧ (n < 64 → (s.getG a).getLsbD n = true)) ∧
  exec (.popc d a) s =
    .next (s.withWrites [gWrite 1 d (BitVec.ofNat 64 ((List.range 64).countP fun j => (s.getG a).getLsbD j))]) ∧
  (∃ v : Word, exec (.brev d a) s = .next (s.withWrites [gWrite 1 d v]) ∧
    ∀ j, j < 64 → v.getLsbD j = (s.getG a).getLsbD (63 - j)) ∧
  (∃ v : Word, exec (.bswap d a) s = .next (s.withWrites [gWrite 1 d v]) ∧
    ∀ j, j < 64 → v.getLsbD j = (s.getG a).getLsbD (8 * (7 - j / 8) + j % 8))

/-- 12 R304, R305: compares write all ones or zero to a K register; predicate operations act on all 64 bits. -/
def Claim.ComparePredicateResults : Prop :=
  ∀ (s : State) (d ka kb : KReg) (g a b : Reg) (i : Imm 5), s.enabled = true →
    exec (.cmpeq d a b) s = .next (s.withWrites [kWrite 1 d (allOnesIf (s.getG a = s.getG b))]) ∧
    exec (.cmpne d a b) s = .next (s.withWrites [kWrite 1 d (allOnesIf (s.getG a ≠ s.getG b))]) ∧
    exec (.cmpltS64 d a b) s = .next (s.withWrites [kWrite 1 d (allOnesIf ((s.getG a).toInt < (s.getG b).toInt))]) ∧
    exec (.cmpleS64 d a b) s = .next (s.withWrites [kWrite 1 d (allOnesIf ((s.getG a).toInt ≤ (s.getG b).toInt))]) ∧
    exec (.cmpltZ64 d a b) s = .next (s.withWrites [kWrite 1 d (allOnesIf ((s.getG a).toNat < (s.getG b).toNat))]) ∧
    exec (.cmpleZ64 d a b) s = .next (s.withWrites [kWrite 1 d (allOnesIf ((s.getG a).toNat ≤ (s.getG b).toNat))]) ∧
    exec (.cmpeqi d a i) s = .next (s.withWrites [kWrite 1 d (allOnesIf (s.getG a = immS i))]) ∧
    exec (.cmpnei d a i) s = .next (s.withWrites [kWrite 1 d (allOnesIf (s.getG a ≠ immS i))]) ∧
    exec (.cmpltiS64 d a i) s = .next (s.withWrites [kWrite 1 d (allOnesIf ((s.getG a).toInt < (immS i).toInt))]) ∧
    exec (.cmpleiS64 d a i) s = .next (s.withWrites [kWrite 1 d (allOnesIf ((s.getG a).toInt ≤ (immS i).toInt))]) ∧
    exec (.cmpltiZ64 d a i) s = .next (s.withWrites [kWrite 1 d (allOnesIf ((s.getG a).toNat < (immS i).toNat))]) ∧
    exec (.cmpleiZ64 d a i) s = .next (s.withWrites [kWrite 1 d (allOnesIf ((s.getG a).toNat ≤ (immS i).toNat))]) ∧
    exec (.kand d ka kb) s = .next (s.withWrites [kWrite 1 d (s.getK ka &&& s.getK kb)]) ∧
    exec (.kor d ka kb) s = .next (s.withWrites [kWrite 1 d (s.getK ka ||| s.getK kb)]) ∧
    exec (.kxor d ka kb) s = .next (s.withWrites [kWrite 1 d (s.getK ka ^^^ s.getK kb)]) ∧
    exec (.kandn d ka kb) s = .next (s.withWrites [kWrite 1 d (s.getK ka &&& ~~~(s.getK kb))]) ∧
    exec (.knot d ka) s = .next (s.withWrites [kWrite 1 d (~~~(s.getK ka))]) ∧
    exec (.kfromg d a) s = .next (s.withWrites [kWrite 1 d (s.getG a)]) ∧
    exec (.gfromk g ka) s = .next (s.withWrites [gWrite 1 g (s.getK ka)]) ∧
    s.getK 0 = 0xFFFFFFFFFFFFFFFF ∧ s.getG 0 = 0

/-- 12 R306: conversions between FP32 and 64-bit integers, latency class 4, events at LANE 0; and the rule's two
examples. -/
def Claim.ScalarConversionResults : Prop := ∀ (s : State) (d a : Reg) (r : Rc), s.enabled = true →
  (∀ c, c = convert (decodeTy .s64 (s.getG a).toNat) .f32 (rcMode r s.fmt) (fmtSat s.fmt) →
    exec (.cvtF32S64 d a r) s = .next (s.withEffect [gWrite 4 d (BitVec.ofNat 64 c.1)] (c.2.map fun e => (0, e)))) ∧
  (∀ c, c = convert (decodeTy .z64 (s.getG a).toNat) .f32 (rcMode r s.fmt) (fmtSat s.fmt) →
    exec (.cvtF32Z64 d a r) s = .next (s.withEffect [gWrite 4 d (BitVec.ofNat 64 c.1)] (c.2.map fun e => (0, e)))) ∧
  (∀ c, c = convert (decodeTy .f32 (s.getG a).toNat) .s64 (rcMode r s.fmt) (fmtSat s.fmt) →
    exec (.cvtS64F32 d a r) s = .next (s.withEffect [gWrite 4 d (BitVec.ofNat 64 c.1)] (c.2.map fun e => (0, e)))) ∧
  (∀ c, c = convert (decodeTy .f32 (s.getG a).toNat) .z64 (rcMode r s.fmt) (fmtSat s.fmt) →
    exec (.cvtZ64F32 d a r) s = .next (s.withEffect [gWrite 4 d (BitVec.ofNat 64 c.1)] (c.2.map fun e => (0, e)))) ∧
  (s.getG a = 0xBF333333 → exec (.cvtZ64F32 d a .rne) s = .next (s.withEffect [gWrite 4 d 0] [(0, 3)])) ∧
  (s.getG a = 0x7FC00000 → exec (.cvtS64F32 d a .rne) s = .next (s.withEffect [gWrite 4 d 0] [(0, 1)]))

/-- 05 R131, R132: an exposed write of latency L of one bundle is read by the L-th bundle after it and by none before,
a later write of the same register replaces it, and G0 discards it. `k` counts the bundles in between. -/
def Obligations.ExposedWriteVisibility : Prop :=
  let idle (t : Task) : Task := t.enter [] []
  ∀ (t : Task) (d : Reg) (v w : Word) (lat k : Nat), t.pend = [] → t.infl = [] → 1 ≤ lat →
    (Nat.iterate idle k (t.enter [gWrite lat d v] [])).r.getG d =
      (if d = 0 then 0 else if k + 1 < lat then t.r.getG d else v) ∧
    (∀ e, e ≠ d → (Nat.iterate idle k (t.enter [gWrite lat d v] [])).r.getG e = t.r.getG e) ∧
    (lat ≤ k + 1 → (Nat.iterate idle k ((t.enter [gWrite lat d v] []).enter [gWrite 1 d w] [])).r.getG d =
      (if d = 0 then 0 else w))

/-- 12 R307 to R309: where the taken branches go, the links, and that RET, CALL and CALLR leave the loop stack. -/
def Obligations.BranchesAndLinks : Prop := ∀ (s : State) (c : Cur) (i : Imm 15) (a : Reg),
  s.cur = some c → s.enabled = true →
    (∃ target link : BitVec 57,
      (target.toNat : Int) = ((c.pc.toNat : Int) + 4 * (immS i).toInt) % 2 ^ 57 ∧
      link.toNat = (c.pc.toNat + 4 * c.phys) % 2 ^ 57 ∧
      exec (.br i) s = .next { s with cur := some { c with branch := some (target, true) } } ∧
      exec (.call i) s = .next (s.onCur fun c =>
        { c with writes := c.writes ++ [{ gWrite 1 31 (link.setWidth 64) with slot := c.slot }], branch := some (target, false) })) ∧
    (∃ target link : BitVec 57,
      target.toNat = (s.getG a).toNat / 4 * 4 % 2 ^ 57 ∧ link.toNat = (c.pc.toNat + 4 * c.phys) % 2 ^ 57 ∧
      exec (.jmp a) s = .next { s with cur := some { c with branch := some (target, true) } } ∧
      exec (.callr a) s = .next (s.onCur fun c =>
        { c with writes := c.writes ++ [{ gWrite 1 31 (link.setWidth 64) with slot := c.slot }], branch := some (target, false) })) ∧
    (∃ target : BitVec 57, target.toNat = (s.getG 31).toNat / 4 * 4 % 2 ^ 57 ∧
      exec .ret s = .next { s with cur := some { c with branch := some (target, false) } }) ∧
    ∀ (target : BitVec 57) (loops : List LoopEnt),
      (Cur.flow { c with branch := some (target, false) } loops).pc = target ∧
      (Cur.flow { c with branch := some (target, false) } loops).loops = loops ∧
      (Cur.flow { c with branch := some (target, true) } loops).pc = target

/-- 12 R311 to R313: LOOP and LOOPI push (START, END, C), skip a body of count 0, or raise LOOP_DEPTH; LCNT reads an
entry's count. -/
def Claim.LoopSetup : Prop :=
  ∀ (s : State) (c : Cur) (t : Task) (i : Imm 10) (a : Reg) (k : BitVec 5) (d : Reg) (n : BitVec 5),
  s.cur = some c → s.me? = some t → s.enabled = true →
    (∃ start stop : BitVec 57,
      start.toNat = (c.pc.toNat + 4 * c.phys) % 2 ^ 57 ∧ stop.toNat = (c.pc.toNat + 4 * (immU i).toNat) % 2 ^ 57 ∧
      (s.getG a ≠ 0 → (loopAct c.pc t.r.loops).1.length < 6 →
        exec (.loop a i) s = .next { s with cur := some { c with push := some ⟨start, stop, s.getG a⟩ } }) ∧
      (k ≠ 0 → (loopAct c.pc t.r.loops).1.length < 6 →
        exec (.loopi k i) s = .next { s with cur := some { c with push := some ⟨start, stop, k.setWidth 64⟩ } }) ∧
      (s.getG a = 0 → (∀ e, t.r.loops.getLast? = some e → e.stop ≠ c.pc) →
        exec (.loop a i) s = .next { s with cur := some { c with skipTo := some stop } }) ∧
      ((∀ e, t.r.loops.getLast? = some e → e.stop ≠ c.pc) →
        exec (.loopi 0 i) s = .next { s with cur := some { c with skipTo := some stop } }) ∧
      ((∃ e, t.r.loops.getLast? = some e ∧ e.stop = c.pc) → exec (.loopi 0 i) s = .next s) ∧
      (k ≠ 0 → 6 ≤ (loopAct c.pc t.r.loops).1.length → exec (.loopi k i) s = .next (s.raise 0x0103 0 0))) ∧
    exec (.lcnt d n) s = .next (s.withWrites [gWrite 1 d (match t.r.loops[n.toNat]? with
      | some e => e.count
      | none => 0)])

/-- 05 R136: at the END of the top entry the count falls and control goes to START, or the entry is popped and the next
one is looked at; elsewhere nothing happens. -/
def Claim.LoopBackRule : Prop := ∀ (pc : BitVec 57) (l : List LoopEnt) (e : LoopEnt),
  loopAct pc [] = ([], none) ∧
  (e.stop ≠ pc → loopAct pc (l ++ [e]) = (l ++ [e], none)) ∧
  (e.stop = pc → 1 < e.count.toNat → loopAct pc (l ++ [e]) = (l ++ [{ e with count := e.count - 1 }], some e.start)) ∧
  (e.stop = pc → e.count.toNat ≤ 1 → loopAct pc (l ++ [e]) = loopAct pc l) ∧
  (∀ target : BitVec 57,
    (target < e.start ∨ e.stop < target → branchAct target (l ++ [e]) = branchAct target l) ∧
    (e.start ≤ target → target ≤ e.stop → branchAct target (l ++ [e]) = l ++ [e]))

/-- 12 R315 to R317; 05 R127: reading and writing system registers, features and FMT. A number of privilege Trap outside
trap mode, or a number MTS cannot write, raises SYSREG_ACCESS. -/
def Claim.SystemRegisterAccess : Prop :=
  ∀ (s : State) (c : Cur) (t : Task) (d a : Reg) (n : BitVec 10) (w : BitVec 5) (v : BitVec 14),
  s.cur = some c → s.me? = some t → s.enabled = true →
    (n.toNat < 0x060 ∨ t.trap.mode = true →
      exec (.mfs d n) s = .next (s.withWrites [gWrite 1 d (s.sysRead n.toNat)])) ∧
    (0x060 ≤ n.toNat → t.trap.mode = false →
      exec (.mfs d n) s = .next (s.raise 0x0105 0 n.toNat) ∧ exec (.mts n a) s = .next (s.raise 0x0105 0 n.toNat)) ∧
    exec (.mts 0 a) s = .next (s.withWrites [fmtWrite 4 (fmtStored (s.getG a))]) ∧
    (n = 0x018 ∨ n = 0x019 ∨ (t.trap.mode = true ∧ (n = 0x070 ∨ n = 0x072 ∨ n = 0x075)) →
      exec (.mts n a) s =
        .next { s with cur := some { c with sysWrites := c.sysWrites ++ [(n.toNat, s.getG a)] } }) ∧
    (n = 0x008 ∨ n = 0x00A ∨ n = 0x01A → exec (.mts n a) s = .next (s.raise 0x0105 0 n.toNat)) ∧
    exec (.feat d w) s = .next (s.withWrites [gWrite 1 d (s.featureWord w.toNat)]) ∧
    exec (.setfmt a) s = .next (s.withWrites [fmtWrite 4 (fmtStored (s.getG a))]) ∧
    exec (.setfmti v) s = .next (s.withWrites [fmtWrite 4 (fmtStored (v.setWidth 64))]) ∧
    s.sysRead 0x000 = t.r.fmt ∧ s.sysRead 0x008 = t.tid ∧ s.sysRead 0x00A = BitVec.ofNat 64 (s.cycle - s.package.bootCycle) ∧
    s.sysRead 0x00B = t.issued ∧ s.sysRead 0x01A = BitVec.ofNat 64 t.pend.length ∧
    s.sysRead 0x038 = BitVec.ofNat 64 t.r.loops.length ∧ s.sysRead 0x060 = t.trap.pc ∧ s.sysRead 0x061 = t.trap.code ∧
    s.sysRead 0x062 = t.trap.info ∧ s.sysRead 0x063 = t.trap.addr ∧
    (3 ≤ w.toNat → s.featureWord w.toNat = 0) ∧ (s.featureWord 0).extractLsb' 0 17 = 0x1FF03

/-- 08 R207, R208: a write of FMT keeps bits [13:0], and a reserved code of a field is stored as 0. -/
def Claim.FormatRegisterStored : Prop := ∀ w : Word,
  (fmtStored w).extractLsb' 0 3 = (if w.extractLsb' 0 3 < 5#3 then w.extractLsb' 0 3 else 0) ∧
  (fmtStored w).getLsbD 3 = w.getLsbD 3 ∧
  (fmtStored w).extractLsb' 4 4 = (if w.extractLsb' 4 4 < 8#4 then w.extractLsb' 4 4 else 0) ∧
  (fmtStored w).extractLsb' 8 4 = (if w.extractLsb' 8 4 < 8#4 then w.extractLsb' 8 4 else 0) ∧
  (fmtStored w).extractLsb' 12 2 = w.extractLsb' 12 2 ∧ (fmtStored w).extractLsb' 14 50 = 0

/-- 12 R318 to R325; 11 R273: the instructions that mark their bundle: what they ask for is done when it closes. NOP does
nothing. END waits until its conditions hold; COMMIT, TANDEM, DECOUPLE and REJOIN have no effect where the rules give
none. -/
def Obligations.ControlMarks : Prop := ∀ (s : State) (c : Cur) (t : Task),
  s.cur = some c → s.me? = some t → s.enabled = true →
    exec .nop s = .next s ∧
    exec .mark s = .next { s with cur := some { c with mark := true } } ∧
    exec .yield s = .next { s with cur := some { c with yieldReq := true } } ∧
    exec .clrfel s = .next { s with cur := some { c with clrFel := true } } ∧
    ((∀ w, w = t.tid ∨ w ∈ c.members → s.remoteBusy w = false ∧ ∀ x ∈ s.mem.ivQueue, x.tid ≠ w) →
      exec .endTask s = .next { s with cur := some { c with ending := true } }) ∧
    (∀ l, s.launch? (tidLnum t.tid) = some l →
      (l.vers = true → exec .commit s = .next { s with cur := some { c with commit := true } }) ∧
      (l.vers = false → exec .commit s = .next s)) ∧
    (t.lockstep = false → t.trap.mode = false →
      exec .tandem s = .next { s with cur := some { c with wait := some .tandem } }) ∧
    (t.lockstep = true ∨ t.trap.mode = true → exec .tandem s = .next s) ∧
    (t.lockstep = true → exec .decouple s = .next { s with cur := some { c with decouple := true } }) ∧
    (t.lockstep = false → exec .decouple s = .next s) ∧
    (t.lockstep = false → t.tandemOf.isSome = true →
      exec .rejoin s = .next { s with cur := some { c with wait := some .rejoin } }) ∧
    (t.lockstep = true ∨ t.tandemOf = none → exec .rejoin s = .next s)

/-- 06 R159, R163, R164; 12 R320: TRAP enters trap mode at TVEC: the bundle has no effect, the pending writes are applied,
the shadow is taken and the trap registers are written. In trap mode the task ends with DOUBLE_FAULT, and without a handler
with the code. -/
def Claim.TrapEntryByTrap : Prop := ∀ (s : State) (c : Cur) (t : Task) (i : BitVec 15),
  s.cur = some c → s.task? c.tid = some t → s.enabled = true →
    (t.trap.mode = false → s.tvec t ≠ 0 →
      ∃ s' u, exec (.trap i) s = .next s' ∧ s'.cur = none ∧ s'.task? c.tid = some u ∧
        u.r = { t.applyAll.r with pc := s.tvec t } ∧ u.pend = [] ∧
        u.trap.mode = true ∧ u.trap.pc = c.pc.setWidth 64 ∧ u.trap.info = i.setWidth 64 ∧ u.trap.addr = 0 ∧
        u.trap.code = BitVec.ofNat 64 (0x0108 + c.slot % 8 * 2 ^ 16 + (if t.ovfl then 2 ^ 21 else 0)) ∧
        u.trap.shadow = t.applyAll.r.shadow ∧ u.ovfl = false ∧ u.busyUntil = s.cycle + 24 ∧
        s'.mem = s.mem ∧ s'.host = s.host ∧ s'.launches = s.launches ∧ s'.fabric = s.fabric ∧
        (∀ w, w ≠ c.tid → s'.task? w = s.task? w)) ∧
    (t.trap.mode = true →
      exec (.trap i) s = .next ((State.traceTrigger { s with cur := none } c.tid 1 fun _ => true).endFault c.tid 0x0401)) ∧
    (t.trap.mode = false → s.tvec t = 0 →
      exec (.trap i) s = .next ((State.traceTrigger { s with cur := none } c.tid 1 fun _ => true).endFault c.tid 0x0108))

/-- 12 R321; 06 R166: the returns from trap mode ask for their target, PRIVILEGE outside it; and what leaving trap mode
restores: G24 to G31, K6 and K7 from the shadow, every other register as the handler left it. -/
def Claim.TrapReturns : Prop :=
  (∀ (s : State) (c : Cur) (t : Task) (a : Reg), s.cur = some c → s.me? = some t → s.enabled = true →
    (t.trap.mode = true →
      exec .trapret s = .next { s with cur := some { c with ret := some (t.trap.pc.setWidth 57) } } ∧
      exec .traprst s = .next { s with cur := some { c with rst := true } } ∧
      ∃ target : BitVec 57, target.toNat = (s.getG a).toNat / 4 * 4 % 2 ^ 57 ∧
        exec (.trapretg a) s = .next { s with cur := some { c with ret := some target } }) ∧
    (t.trap.mode = false →
      exec .trapret s = .next (s.raise 0x0106 0 0) ∧ exec (.trapretg a) s = .next (s.raise 0x0106 0 0) ∧
      exec .traprst s = .next (s.raise 0x0106 0 0))) ∧
  (∀ (t : Task) (target : BitVec 57),
    (t.leaveTrap target).r.pc = target ∧ (t.leaveTrap target).trap.mode = false ∧ (t.leaveTrap target).pend = [] ∧
    (∀ n : Reg, 24 ≤ n.toNat → (t.leaveTrap target).r.getG n = t.trap.shadow.getD (n.toNat - 24) 0) ∧
    (∀ n : Reg, n.toNat < 24 → (t.leaveTrap target).r.getG n = t.applyAll.r.getG n) ∧
    (t.leaveTrap target).r.getK 6 = t.trap.shadow.getD 8 0 ∧ (t.leaveTrap target).r.getK 7 = t.trap.shadow.getD 9 0 ∧
    (∀ n : KReg, n.toNat < 6 → (t.leaveTrap target).r.getK n = t.applyAll.r.getK n) ∧
    (t.leaveTrap target).r.v = t.applyAll.r.v ∧ (t.leaveTrap target).r.fmt = t.applyAll.r.fmt)

/-- 13 R331: the floating-point operations of class 9, element by element under the guard's mask. -/
def Obligations.VectorFloatResults : Prop := ∀ (s : State) (t : Ty) (d a b : Reg), t.isFp = true →
  let w := tyBits t
  let n := elemCount t
  let code (r : Reg) (j : Nat) : Nat := vElem (s.getV r) w j
  (∃ u, exec (.vaddFp t d a b) s = .next u ∧
    ElemResult s u 4 d w n fun j => roundRes t s.rm (addVal s.rm (s.fpElem t a j) (s.fpElem t b j))) ∧
  (∃ u, exec (.vsubFp t d a b) s = .next u ∧
    ElemResult s u 4 d w n fun j => roundRes t s.rm (addVal s.rm (s.fpElem t a j) (negVal (s.fpElem t b j)))) ∧
  (∃ u, exec (.vmulFp t d a b) s = .next u ∧
    ElemResult s u 4 d w n fun j => roundRes t s.rm (mulVal (s.fpElem t a j) (s.fpElem t b j))) ∧
  (∃ u, exec (.vminFp t d a b) s = .next u ∧
    ElemResult s u 2 d w n fun j => (fpMinCode t (code a j) (code b j), [])) ∧
  (∃ u, exec (.vmaxFp t d a b) s = .next u ∧
    ElemResult s u 2 d w n fun j => (fpMaxCode t (code a j) (code b j), [])) ∧
  (∃ u, exec (.vabsFp t d a) s = .next u ∧ ElemResult s u 2 d w n fun j => (code a j % 2 ^ (w - 1), [])) ∧
  (∃ u, exec (.vneg t d a) s = .next u ∧
    ElemResult s u 2 d w n fun j => ((code a j + 2 ^ (w - 1)) % 2 ^ w, [])) ∧
  (∃ u, exec (.vcpys t d a b) s = .next u ∧
    ElemResult s u 2 d w n fun j => (code a j % 2 ^ (w - 1) + code b j / 2 ^ (w - 1) * 2 ^ (w - 1), []))

/-- 13 R332: the fused multiply-adds round once; Vd is the addend. -/
def Claim.FusedMultiplyAddResults : Prop := ∀ (s : State) (t : Ty) (d a b : Reg), t.isFp = true →
  let w := tyBits t
  let n := elemCount t
  (∃ u, exec (.vfma t d a b) s = .next u ∧ ElemResult s u 4 d w n fun j =>
    roundRes t s.rm (fmaVal s.rm (s.fpElem t a j) (s.fpElem t b j) (s.fpElem t d j))) ∧
  (∃ u, exec (.vfms t d a b) s = .next u ∧ ElemResult s u 4 d w n fun j =>
    roundRes t s.rm (fmaVal s.rm (s.fpElem t a j) (s.fpElem t b j) (negVal (s.fpElem t d j)))) ∧
  (∃ u, exec (.vfnma t d a b) s = .next u ∧ ElemResult s u 4 d w n fun j =>
    roundRes t s.rm (fmaVal s.rm (negVal (s.fpElem t a j)) (s.fpElem t b j) (s.fpElem t d j))) ∧
  (∃ u, exec (.vfnms t d a b) s = .next u ∧ ElemResult s u 4 d w n fun j =>
    roundRes t s.rm (fmaVal s.rm (negVal (s.fpElem t a j)) (s.fpElem t b j) (negVal (s.fpElem t d j))))

/-- 13 R333: division, square root, reciprocals and the transcendentals, latency class 8. -/
def Claim.DivideTranscendentalResults : Prop := ∀ (s : State) (t : Ty) (d a b : Reg), t.isFp = true →
  let w := tyBits t
  let n := elemCount t
  (∃ u, exec (.vdiv t d a b) s = .next u ∧
    ElemResult s u 8 d w n fun j => roundRes t s.rm (divVal (s.fpElem t a j) (s.fpElem t b j))) ∧
  (∃ u, exec (.vsqrt t d a) s = .next u ∧ ElemResult s u 8 d w n fun j => roundRes t s.rm (sqrtVal (s.fpElem t a j))) ∧
  (∃ u, exec (.vrcp t d a) s = .next u ∧ ElemResult s u 8 d w n fun j => roundRes t s.rm (rcpVal (s.fpElem t a j))) ∧
  (∃ u, exec (.vrsqrt t d a) s = .next u ∧
    ElemResult s u 8 d w n fun j => roundRes t s.rm (rsqrtVal (s.fpElem t a j))) ∧
  (∃ u, exec (.vexp2 t d a) s = .next u ∧ ElemResult s u 8 d w n fun j => exp2Elem t s.rm (s.fpElem t a j)) ∧
  (∃ u, exec (.vlog2 t d a) s = .next u ∧ ElemResult s u 8 d w n fun j => log2Elem t s.rm (s.fpElem t a j)) ∧
  (∃ u, exec (.vtanh t d a) s = .next u ∧ ElemResult s u 8 d w n fun j => tanhElem t s.rm (s.fpElem t a j)) ∧
  (∃ u, exec (.vsigm t d a) s = .next u ∧ ElemResult s u 8 d w n fun j => sigmElem t s.rm (s.fpElem t a j))

/-- 13 R334: integer lanes wrap, or saturate with an overflow event. -/
def Obligations.VectorIntegerResults : Prop := ∀ (s : State) (t : Ty) (d a b : Reg), t.isVInt = true →
  let w := tyBits t
  let n := elemCount t
  let wrap (i : Int) : Nat := (i % 2 ^ w).toNat
  let lo : Int := if tySigned t then -2 ^ (w - 1) else 0
  let hi : Int := if tySigned t then 2 ^ (w - 1) - 1 else 2 ^ w - 1
  let sat (i : Int) : Nat × List Nat :=
    if i < lo then (wrap lo, [3]) else if hi < i then (wrap hi, [3]) else (wrap i, [])
  (∃ u, exec (.vaddInt t d a b) s = .next u ∧
    ElemResult s u 2 d w n fun j => (wrap (s.intElem t a j + s.intElem t b j), [])) ∧
  (∃ u, exec (.vsubInt t d a b) s = .next u ∧
    ElemResult s u 2 d w n fun j => (wrap (s.intElem t a j - s.intElem t b j), [])) ∧
  (∃ u, exec (.vminInt t d a b) s = .next u ∧
    ElemResult s u 2 d w n fun j => (wrap (min (s.intElem t a j) (s.intElem t b j)), [])) ∧
  (∃ u, exec (.vmaxInt t d a b) s = .next u ∧
    ElemResult s u 2 d w n fun j => (wrap (max (s.intElem t a j) (s.intElem t b j)), [])) ∧
  (∃ u, exec (.vadds t d a b) s = .next u ∧
    ElemResult s u 2 d w n fun j => sat (s.intElem t a j + s.intElem t b j)) ∧
  (∃ u, exec (.vsubs t d a b) s = .next u ∧
    ElemResult s u 2 d w n fun j => sat (s.intElem t a j - s.intElem t b j)) ∧
  (∃ u, exec (.vmulInt t d a b) s = .next u ∧
    ElemResult s u 4 d w n fun j => (wrap (s.intElem t a j * s.intElem t b j), [])) ∧
  (t.isVAbs = true → ∃ u, exec (.vabsInt t d a) s = .next u ∧
    ElemResult s u 2 d w n fun j => (wrap (s.intElem t a j).natAbs, []))

/-- 13 R335: a lane compare writes bit i of Kd for lane i, under the mask; a NaN operand makes only VCMPNE and VCMPUN
true. -/
def Claim.VectorCompareResults : Prop := ∀ (s : State) (t : Ty) (d : KReg) (a b : Reg), t.isVCmp = true →
  let x (i : Nat) : FpVal := decodeTy t ((s.getV a).lane i).toNat
  let y (i : Nat) : FpVal := decodeTy t ((s.getV b).lane i).toNat
  let nan (i : Nat) : Bool := valIsNan (x i) || valIsNan (y i)
  let ok (ins : Instr) (f : Nat → Bool) : Prop := ∃ v : Word,
    exec ins s = .next (s.withWrites [⟨.k d, s.mask, .word v, 2, 0, 0⟩]) ∧ ∀ i, i < 64 → v.getLsbD i = f i
  ok (.vcmpeq t d a b) (fun i => !nan i && cmpVal (x i) (y i) == .eq) ∧
  ok (.vcmpne t d a b) (fun i => nan i || cmpVal (x i) (y i) != .eq) ∧
  ok (.vcmplt t d a b) (fun i => !nan i && cmpVal (x i) (y i) == .lt) ∧
  ok (.vcmple t d a b) (fun i => !nan i && cmpVal (x i) (y i) != .gt) ∧
  ok (.vcmpun d a b) (fun i =>
    valIsNan (decodeTy .f32 ((s.getV a).lane i).toNat) || valIsNan (decodeTy .f32 ((s.getV b).lane i).toNat))

/-- 13 R336, R337: lane logic and shifts, selection, moves, lane insert and extract, and the mask counts. -/
def Claim.VectorLogicMoveResults : Prop := ∀ (s : State) (d a b : Reg) (k : KReg),
  let x (i : Nat) : Lane := (s.getV a).lane i
  let y (i : Nat) : Lane := (s.getV b).lane i
  exec (.vand d a b) s = .next (s.withWrites [vWrite 2 d s.mask fun i => x i &&& y i]) ∧
  exec (.vor d a b) s = .next (s.withWrites [vWrite 2 d s.mask fun i => x i ||| y i]) ∧
  exec (.vxor d a b) s = .next (s.withWrites [vWrite 2 d s.mask fun i => x i ^^^ y i]) ∧
  exec (.vandn d a b) s = .next (s.withWrites [vWrite 2 d s.mask fun i => x i &&& ~~~(y i)]) ∧
  exec (.vnot d a) s = .next (s.withWrites [vWrite 2 d s.mask fun i => ~~~(x i)]) ∧
  exec (.vshl d a b) s = .next (s.withWrites [vWrite 2 d s.mask fun i => x i <<< ((y i).toNat % 64)]) ∧
  exec (.vshr d a b) s = .next (s.withWrites [vWrite 2 d s.mask fun i => x i >>> ((y i).toNat % 64)]) ∧
  exec (.vsar d a b) s = .next (s.withWrites [vWrite 2 d s.mask fun i => (x i).sshiftRight ((y i).toNat % 64)]) ∧
  exec (.vsel d a b) s =
    .next (s.withWrites [vWrite 2 d (BitVec.allOnes 64) fun i => if s.mask.getLsbD i then x i else y i]) ∧
  exec (.vmov d a) s = .next (s.withWrites [vWrite 2 d s.mask x]) ∧
  exec (.vbcst d a) s = .next (s.withWrites [vWrite 2 d s.mask fun _ => (s.getG a).setWidth 32]) ∧
  (s.enabled = true →
    exec (.vextr d a b) s = .next (s.withWrites [gWrite 2 d ((x ((s.getG b).toNat % 64)).setWidth 64)]) ∧
    exec (.kpopc d k) s =
      .next (s.withWrites [gWrite 2 d (BitVec.ofNat 64 ((List.range 64).countP fun j => (s.getK k).getLsbD j))]) ∧
    (∃ n : Nat, n ≤ 64 ∧ exec (.kfirst d k) s = .next (s.withWrites [gWrite 2 d (BitVec.ofNat 64 n)]) ∧
      (∀ j, j < n → (s.getK k).getLsbD j = false) ∧ (n < 64 → (s.getK k).getLsbD n = true)) ∧
    (∃ n : Nat, n ≤ 64 ∧ exec (.klast d k) s = .next (s.withWrites [gWrite 2 d (BitVec.ofNat 64 n)]) ∧
      (n = 64 ↔ s.getK k = 0) ∧
      (n < 64 → (s.getK k).getLsbD n = true ∧ ∀ j, n < j → j < 64 → (s.getK k).getLsbD j = false))) ∧
  exec (.vinsr d a b) s = .next (s.withWrites
    [vWrite 2 d (s.mask &&& (1#64 <<< ((s.getG b).toNat % 64))) fun _ => (s.getG a).setWidth 32])

/-- 13 R341 to R343: permutes, rotate, zips, compress, expand, iota and the carry-less multiplies. -/
def Obligations.PermuteResults : Prop := ∀ (s : State) (d a b : Reg),
  let x (i : Nat) : Lane := (s.getV a).lane i
  let y (i : Nat) : Lane := (s.getV b).lane i
  let before (i : Nat) : Nat := (List.range i).countP fun j => s.mask.getLsbD j
  exec (.vperm d a b) s = .next (s.withWrites [vWrite 2 d s.mask fun i => x ((y i).toNat % 64)]) ∧
  exec (.vrot d a b) s = .next (s.withWrites [vWrite 2 d s.mask fun i => x ((i + (s.getG b).toNat % 64) % 64)]) ∧
  exec (.vziplo d a b) s =
    .next (s.withWrites [vWrite 2 d s.mask fun i => if i % 2 = 0 then x (i / 2) else y (i / 2)]) ∧
  exec (.vziphi d a b) s =
    .next (s.withWrites [vWrite 2 d s.mask fun i => if i % 2 = 0 then x (32 + i / 2) else y (32 + i / 2)]) ∧
  exec (.viota d) s = .next (s.withWrites [vWrite 2 d s.mask fun i => BitVec.ofNat 32 i]) ∧
  exec (.vexpd d a) s = .next (s.withWrites
    [vWrite 2 d (BitVec.allOnes 64) fun i => if s.mask.getLsbD i then x (before i) else 0]) ∧
  (∃ f : Nat → Lane, exec (.vcomp d a) s = .next (s.withWrites [vWrite 2 d (BitVec.allOnes 64) f]) ∧
    (∀ i, i < 64 → s.mask.getLsbD i = true → f (before i) = x i) ∧ (∀ i, before 64 ≤ i → f i = 0)) ∧
  (∃ lo hi : Nat → Lane,
    exec (.vclmullo d a b) s = .next (s.withWrites [vWrite 3 d s.mask lo]) ∧
    exec (.vclmulhi d a b) s = .next (s.withWrites [vWrite 3 d s.mask hi]) ∧
    ∀ i k, i < 32 → k < 64 →
      let px (j : Nat) : Bool := (x (2 * i + j / 32)).getLsbD (j % 32)
      let py (j : Nat) : Bool := (y (2 * i + j / 32)).getLsbD (j % 32)
      let bit (m : Nat) : Bool :=
        (List.range 64).foldl (fun acc j => Bool.xor acc (decide (j ≤ m) && decide (m - j < 64) && px (m - j) && py j)) false
      (lo (2 * i + k / 32)).getLsbD (k % 32) = bit k ∧ (hi (2 * i + k / 32)).getLsbD (k % 32) = bit (64 + k))

/-- 13 R329, R344, R345; 08 R220, R221: reductions leave one element, zero beyond it; scans write the enabled lanes; both
follow the fixed tree, a NaN among their results is the canonical one, and their events stand at lane 0. -/
def Claim.ReductionScanResults : Prop := ∀ (s : State) (t : Ty) (d a : Reg), t.isRed = true →
  let tree (op : RedOp) := redTree (redNode t s.rm op) (elemCount t).log2 (presentElems (s.getV a) s.mask t)
  let scan (op : RedOp) := scanTree (redNode t s.rm op) (elemCount t).log2 1 (presentElems (s.getV a) s.mask t)
  let reduces (i : Instr) (op : RedOp) : Prop := ∃ v : VReg,
    exec i s = .next (s.withEffect [⟨.v d, BitVec.allOnes 64, .vec v, 6, 0, 0⟩] ((dedupEv (tree op).2).map fun e => (0, e))) ∧
    vElem v (tyBits t) 0 = canonResult t ((tree op).1.getD (redIdentity t op)) % 2 ^ tyBits t ∧
    ∀ j, 0 < j → j < elemCount t → vElem v (tyBits t) j = 0
  let scans (i : Instr) (op : RedOp) : Prop := ∃ v : VReg,
    exec i s = .next (s.withEffect [⟨.v d, s.mask, .vec v, 6, 0, 0⟩] ((dedupEv (scan op).2).map fun e => (0, e))) ∧
    ∀ j, j < elemCount t → vElem v (tyBits t) j = canonResult t (((scan op).1.getD j none).getD (redIdentity t op)) % 2 ^ tyBits t
  reduces (.vrsum t d a) .sum ∧ reduces (.vrmax t d a) .max ∧ reduces (.vrmin t d a) .min ∧
  scans (.vscsum t d a) .sum ∧ scans (.vscmax t d a) .max ∧ scans (.vscmin t d a) .min

/-- 13 R338 to R340: conversion between element types, quantise and dequantise. -/
def Claim.ConvertQuantiseResults : Prop := ∀ (s : State) (t src : Ty) (rc : Rc) (d a b : Reg),
  (t.isCvt = true → src.isCvt = true →
    ∃ u, exec (.cvtVector t src rc d a) s = .next u ∧
      ElemResult s u 4 d (tyBits t) (min (elemCount src) (elemCount t)) fun j =>
        convert (s.fpElem src a j) t (rcMode rc s.fmt) (fmtSat s.fmt)) ∧
  (t.isQuant = true →
    ∃ u, exec (.vqnt t d a b) s = .next u ∧ ElemResult s u 4 d (tyBits t) 64 fun j =>
      vqntElem (s.fpElem .f32 a j) (s.fpElem .f32 b j) t s.rm (fmtSat s.fmt)) ∧
  (t.isFp = true → src.isDq = true → b.toNat % 2 = 0 →
    ∃ u, exec (.vdq t src d a b) s = .next u ∧ ElemResult s u 4 d (tyBits t) 64 fun j =>
      vdqElem (s.fpElem src a j) (s.fpElem .f32 b j) (s.fpElem .f32 (b + 1) j) t s.rm)

/-- 14 R359 to R361: a load's bytes, little-endian, sign- or zero-extended, arrive as an interlocked result; from the L1
copy of the line where the core has one (05 R142). -/
def Obligations.ScalarLoadResults : Prop :=
  ∀ (s : State) (c : Cur) (t : Task) (ty : Ty) (d a : Reg) (i : Imm 5) (sc : Scope) (p : Piece),
    s.cur = some c → s.me? = some t → s.enabled = true → ty.isMem = true →
    let n := tyBits ty / 8
    let ea := eaOf (s.getG a) (immS i)
    let value (bs : List Byte) : Word :=
      if tySigned ty then (BitVec.ofNat (8 * n) (leNat bs)).signExtend 64 else BitVec.ofNat 64 (leNat bs)
    let loads (ins : Instr) (bs : List Byte) : Prop := ∃ u, exec ins s = .next u ∧
      Interlocked s u [(.g d, BitVec.allOnes 64, .word (value bs))] ∧ SameBytes s u ∧ SameRegs s u
    s.Plain t n p.loc →
      (s.checkOne t c.core false ea 0 (scalarReq n .load) = .ok p → s.Uncached c.core p.loc →
        loads (.ld ty d a i) (s.bytesAt p.loc n) ∧ loads (.ldacq sc ty d a i) (s.bytesAt p.loc n)) ∧
      (s.checkOne t c.core true ea 0 (scalarReq n .load) = .ok p → loads (.lds ty d a i) (s.bytesAt p.loc n)) ∧
      ∀ pa place evf copy, s.checkOne t c.core false ea 0 (scalarReq n .load) = .ok p → p.loc = .phys pa place evf →
        l1Able s pa place = true → s.l1Line t.ctx c.core (pa / 64) = some copy →
        loads (.ld ty d a i) (((beatBytes copy).drop (pa % 64)).take n)

/-- 14 R360, R361; 07 R179: a store issues with its bytes and no byte changes before it is performed. -/
def Claim.ScalarStoreResults : Prop :=
  ∀ (s : State) (c : Cur) (t : Task) (ty : Ty) (d a : Reg) (i : Imm 5) (sc : Scope) (p : Piece),
    s.cur = some c → s.me? = some t → s.enabled = true → ty.isMem = true →
    let n := tyBits ty / 8
    let ea := eaOf (s.getG a) (immS i)
    let stores (ins : Instr) (rel : Option Scope) : Prop := ∃ u op, exec ins s = .next u ∧
      p.loc.storeOp (natLe n (s.getG d).toNat) = some op ∧ Issued s u t.tid [op] rel ∧ SameCur s u ∧
      SameBytes s u ∧ SameRegs s u
    p.loc.isHere = true → s.versioned = false → s.rangeHeld c.core [p] n = false →
      (s.checkOne t c.core false ea 0 (scalarReq n .store) = .ok p →
        stores (.st ty d a i) none ∧ stores (.strel sc ty d a i) (some sc)) ∧
      (s.checkOne t c.core true ea 0 (scalarReq n .store) = .ok p → stores (.sts ty d a i) none)

/-- 06 R169: a versioned task's store to HBM4E or LPDDR goes to its version line, and memory keeps its bytes. -/
def Claim.VersionedStoreResults : Prop :=
  ∀ (s : State) (c : Cur) (t : Task) (ty : Ty) (d a : Reg) (i : Imm 5) (p : Piece) (pa : Nat) (place : Place) (evf : Bool),
    s.cur = some c → s.me? = some t → s.enabled = true → ty.isMem = true → s.versioned = true →
    let n := tyBits ty / 8
    s.checkOne t c.core false (eaOf (s.getG a) (immS i)) 0 (scalarReq n .store) = .ok p → p.loc = .phys pa place evf →
    versionable pa = true → pa % n = 0 → s.rangeHeld c.core [p] n = false →
      (s.versionFull t.tid pa n = false →
        ∃ u, exec (.st ty d a i) s = .next u ∧ SameCur s u ∧ u.mem.stores = s.mem.stores ∧ SameBytes s u ∧
          SameRegs s u ∧ (∀ k, k < n → u.versionByte t.tid (pa + k) = some ((s.getG d).extractLsb' (8 * k) 8)) ∧
          ∀ x b, (x ≠ t.tid ∨ b < pa ∨ pa + n ≤ b) → u.versionByte x b = s.versionByte x b) ∧
      (s.versionFull t.tid pa n = true → exec (.st ty d a i) s = .next (s.raise 0x0116 p.va 0))

/-- 14 R362, R363: the enabled lanes of a vector load or gather arrive together, each from its own address; with no lane
enabled the register keeps its lanes. -/
def Claim.VectorLoadResults : Prop :=
  ∀ (s : State) (c : Cur) (t : Task) (d a b : Reg) (i : Imm 5) (sc : Scope),
    s.cur = some c → s.me? = some t →
    let seq (k : Nat) : Nat := (eaOf (s.getG a) (immS i) + 4 * k) % 2 ^ 57
    let idx (k : Nat) : Nat := eaOf (s.getG a) (((s.getV b).lane k).signExtend 64)
    let empty := s.withWrites [⟨.v d, 0, .vec (Vector.replicate 64 0), 1, 0, 0⟩]
    let loads (ins : Instr) (rel : Bool) (addr : Nat → Nat) : Prop :=
      ∀ ps, s.checkLanes t c.core rel (scalarReq 4 .load) ((maskLanes s.mask).map fun k => (k, addr k)) = .ok ps →
        (∀ p ∈ ps, s.Plain t 4 p.loc ∧ s.Uncached c.core p.loc) →
        ∃ u v, exec ins s = .next u ∧ Interlocked s u [(.v d, s.mask, .vec v)] ∧ SameBytes s u ∧ SameRegs s u ∧
          ∀ p ∈ ps, (v.lane p.lane).toNat = leNat (s.bytesAt p.loc 4)
    (s.mask ≠ 0 →
      loads (.vld d a i) false seq ∧ loads (.vldacq sc d a i) false seq ∧ loads (.vlds d a i) true seq ∧
      loads (.vgath d a b) false idx ∧ loads (.vgaths d a b) true idx) ∧
    (s.mask = 0 → exec (.vld d a i) s = .next empty ∧ exec (.vldacq sc d a i) s = .next empty ∧
      exec (.vlds d a i) s = .next empty ∧ exec (.vgath d a b) s = .next empty ∧ exec (.vgaths d a b) s = .next empty)

/-- 14 R362 to R364; 07 R197: the enabled lanes of a vector store or scatter issue line by line, those of a line together
in ascending lane order, and those of a release as one store; VMCST stores them so at every destination of its list. That a
release issues whole is the model's choice (log entry 36). -/
def Claim.VectorStoreResults : Prop :=
  ∀ (s : State) (c : Cur) (t : Task) (d a b : Reg) (i : Imm 5) (sc : Scope),
    s.cur = some c → s.me? = some t → s.versioned = false →
    let seq (k : Nat) : Nat := (eaOf (s.getG a) (immS i) + 4 * k) % 2 ^ 57
    let idx (k : Nat) : Nat := eaOf (s.getG a) (((s.getV b).lane k).signExtend 64)
    let ops (ps : List Piece) : List MemOp := ps.filterMap fun p => p.loc.storeOp (natLe 4 ((s.getV d).lane p.lane).toNat)
    let lines (l : List MemOp) : List (List MemOp) := ((l.map MemOp.line).eraseDups).map fun k => l.filter fun o => o.line == k
    let groups (rel : Option Scope) (l : List MemOp) : List (List MemOp) := if rel = none then lines l else [l]
    let stored (ins : Instr) (rel : Option Scope) (ps : List Piece) : Prop :=
      (∀ p ∈ ps, p.loc.isHere = true) → s.rangeHeld c.core ps 4 = false →
        ∃ u, exec ins s = .next u ∧ IssuedEach s u t.tid (groups rel (ops ps)) rel ∧ SameCur s u ∧ SameBytes s u ∧ SameRegs s u
    let stores (ins : Instr) (rel : Bool) (order : Option Scope) (addr : Nat → Nat) : Prop :=
      ∀ ps, s.checkLanes t c.core rel (scalarReq 4 .store) ((maskLanes s.mask).map fun k => (k, addr k)) = .ok ps →
        stored ins order ps
    (s.mask ≠ 0 →
      stores (.vst d a i) false none seq ∧ stores (.vstrel sc d a i) false (some sc) seq ∧
      stores (.vsts d a i) true none seq ∧ stores (.vscat d a b) false none idx ∧ stores (.vscats d a b) true none idx ∧
      ∀ ds pss, s.getG b ≠ 0 → s.destList t c.core (s.getG a).toNat (min (s.getG b).toNat 16) = .ok ds →
        (∀ x ∈ ds, x % 256 = 0) → s.probeAll t c.core .store (maskLanes s.mask) ds = .ok pss →
        (∀ p ∈ pss.flatten, p.loc.isHere = true) → s.rangeHeld c.core pss.flatten 4 = false →
        ∃ u, exec (.vmcst d a b) s = .next u ∧ IssuedEach s u t.tid (pss.flatMap fun ps => lines (ops ps)) none ∧ SameCur s u ∧ SameBytes s u ∧
          SameRegs s u) ∧
    (s.mask = 0 → exec (.vst d a i) s = .next s ∧ exec (.vstrel sc d a i) s = .next s ∧ exec (.vsts d a i) s = .next s ∧
      exec (.vscat d a b) s = .next s ∧ exec (.vscats d a b) s = .next s ∧ exec (.vmcst d a b) s = .next s)

/-- 14 R369, R371: a class 22 atomic replaces the bytes at its address in one step and returns the old value; ACAS writes
only where the old value is the compare value. -/
def Claim.ScalarAtomicResults : Prop :=
  ∀ (s : State) (c : Cur) (t : Task) (o : AOrd) (w : AWidth) (d a b : Reg) (p : Piece),
    s.Inv → s.cur = some c → s.me? = some t → s.enabled = true → s.versioned = false →
    let n := awBytes w
    let x : BitVec (8 * n) := (s.getG b).setWidth (8 * n)
    let old : BitVec (8 * n) := BitVec.ofNat (8 * n) (leNat (s.bytesAt p.loc n))
    let acts (ins : Instr) (sext pcie : Bool) (new : BitVec (8 * n)) : Prop :=
      s.checkOne t c.core false (eaOf (s.getG a) 0) 0
        { n := n, align := n, info := n.log2, kind := .atomic, pcie := pcie } = .ok p →
      ∃ u, exec ins s = .next u ∧ leNat (u.bytesAt p.loc n) = new.toNat ∧ SameBytesBut [p.loc] n s u ∧ SameRegs s u ∧
        Interlocked s u [(.g d, BitVec.allOnes 64, .word (if sext then old.signExtend 64 else old.setWidth 64))]
    s.Plain t n p.loc → s.rangeHeld c.core [p] n = false → s.Ordered t c.core (AOrd.relScope o) [p] →
    (AOrd.relScope o = some .fabric → s.remoteBusy t.tid = false) →
      acts (.aadd o w d a b) false true (old + x) ∧
      acts (.aand o w d a b) false false (old &&& x) ∧
      acts (.aor o w d a b) false false (old ||| x) ∧
      acts (.axor o w d a b) false false (old ^^^ x) ∧
      acts (.aminSigned o w d a b) true false (if old.toInt ≤ x.toInt then old else x) ∧
      acts (.amaxSigned o w d a b) true false (if x.toInt ≤ old.toInt then old else x) ∧
      acts (.aminUnsigned o w d a b) false false (if old.toNat ≤ x.toNat then old else x) ∧
      acts (.amaxUnsigned o w d a b) false false (if x.toNat ≤ old.toNat then old else x) ∧
      acts (.aswap o w d a b) false true x ∧
      acts (.acas o w d a b) false true (if old = (s.getG d).setWidth (8 * n) then x else old)

/-- 14 R370; 07 R196: the 128-bit atomics on register pairs, and the floating-point adds. -/
def Claim.WideFloatAtomicResults : Prop :=
  ∀ (s : State) (c : Cur) (t : Task) (o : AOrd) (d a b : Reg) (p : Piece),
    s.Inv → s.cur = some c → s.me? = some t → s.enabled = true → s.versioned = false →
    (AOrd.relScope o = some .fabric → s.remoteBusy t.tid = false) →
    let pair (r : Reg) : Nat := (s.getG r).toNat + (s.getG (r + 1)).toNat * 2 ^ 64
    let acts (ins : Instr) (n : Nat) (pcie : Bool) (new : Nat) (rs : List (RegId × Word × RegVal)) : Prop :=
      s.checkOne t c.core false (eaOf (s.getG a) 0) 0
        { n := n, align := n, info := n.log2, kind := .atomic, pcie := pcie } = .ok p →
      s.Plain t n p.loc → s.rangeHeld c.core [p] n = false → s.Ordered t c.core (AOrd.relScope o) [p] →
      ∃ u, exec ins s = .next u ∧ leNat (u.bytesAt p.loc n) = new ∧ SameBytesBut [p.loc] n s u ∧ SameRegs s u ∧
        Interlocked s u rs
    let old (n : Nat) : Nat := leNat (s.bytesAt p.loc n)
    let both := [(RegId.g d, BitVec.allOnes 64, RegVal.word (BitVec.ofNat 64 (old 16))),
      (RegId.g (d + 1), BitVec.allOnes 64, RegVal.word (BitVec.ofNat 64 (old 16 / 2 ^ 64)))]
    let fadd (ty : Ty) (n : Nat) : Nat :=
      (roundRes ty .rne (addVal .rne (decodeTy ty (old n)) (decodeTy ty ((s.getG b).toNat % 2 ^ (8 * n))))).1 % 2 ^ (8 * n)
    acts (.acasw o d a b) 16 true (if old 16 = pair d then pair b else old 16) both ∧
    acts (.aswapw o d a b) 16 false (pair b) both ∧
    acts (.afaddF32 o d a b) 4 false (fadd .f32 4) [(.g d, BitVec.allOnes 64, .word (BitVec.ofNat 64 (old 4)))] ∧
    acts (.afaddBf16 o d a b) 2 false (fadd .bf16 2) [(.g d, BitVec.allOnes 64, .word (BitVec.ofNat 64 (old 2)))]

/-- 14 R364, R370: the lanes of a vector atomic, and those of VRDST at each destination, act one after another in
ascending order, each on what the ones before it left. -/
def Obligations.VectorAtomicResults : Prop :=
  ∀ (s : State) (c : Cur) (t : Task) (o : AOrd) (d a b : Reg),
    s.Inv → s.cur = some c → s.me? = some t → s.versioned = false → s.mask ≠ 0 →
    let idx (k : Nat) : Nat := eaOf (s.getG a) (((s.getV b).lane k).signExtend 64)
    let fadd (x y : Nat) : Nat := (roundRes .f32 .rne (addVal .rne (decodeTy .f32 x) (decodeTy .f32 y))).1 % 2 ^ 32
    let iadd (x y : Nat) : Nat := (x + y) % 2 ^ 32
    let after (f : Nat → Nat → Nat) (ps : List Piece) (l : Loc) : Nat :=
      (ps.filter fun q => q.loc.key == l.key).foldl (fun x q => f x ((s.getV d).lane q.lane).toNat)
        (leNat (s.bytesAt l 4))
    let acts (ins : Instr) (returns : Bool) (rel : Option Scope) (f : Nat → Nat → Nat) (ps : List Piece) : Prop :=
      (∀ p ∈ ps, s.Plain t 4 p.loc ∧ p.loc.key.2 % 4 = 0) → s.rangeHeld c.core ps 4 = false → s.Ordered t c.core rel ps →
      ∃ u, exec ins s = .next u ∧ (∀ p ∈ ps, leNat (u.bytesAt p.loc 4) = after f ps p.loc) ∧
        SameBytesBut (ps.map (·.loc)) 4 s u ∧ SameRegs s u ∧
        Interlocked s u (if returns then ps.zipIdx.map fun (p, k) =>
          (.v d, 1#64 <<< p.lane, .vec (laneVec p.lane (after f (ps.take k) p.loc))) else [])
    ((AOrd.relScope o = some .fabric → s.remoteBusy t.tid = false) →
      ∀ ps, s.checkLanes t c.core false (scalarReq 4 .atomic) ((maskLanes s.mask).map fun k => (k, idx k)) = .ok ps →
        acts (.vafaddF32 o d a b) true (AOrd.relScope o) fadd ps ∧ acts (.vaaddZ32 o d a b) true (AOrd.relScope o) iadd ps) ∧
    ∀ ds pss, s.getG b ≠ 0 → s.destList t c.core (s.getG a).toNat (min (s.getG b).toNat 16) = .ok ds →
      (∀ x ∈ ds, x % 256 = 0) → s.probeAll t c.core .atomic (maskLanes s.mask) ds = .ok pss →
      acts (.vrdst d a b) false none fadd pss.flatten

/-- 14 R365, R366: a full/empty access whose condition holds is performed at once: FILL and WRITEF leave the word FULL,
TAKE and SETE leave it EMPTY, READF leaves it as it stands; one whose condition does not hold waits, and one whose port has a
ticketed access to the same core's words waits behind that (01 R14). -/
def Claim.FullEmptyResults : Prop :=
  ∀ (s : State) (c : Cur) (t : Task) (d a : Reg) (i : Imm 5) (p : Piece) (core off : Nat),
    s.Inv → s.cur = some c → s.me? = some t → s.enabled = true → s.ownStores t.tid = [] → t.core = some c.core →
    p.loc = .sram core off → (∀ w ∈ (s.core core).feWaits, w.word ≠ off / 8) → s.rangeHeld c.core [p] 8 = false →
    let ea := eaOf (s.getG a) (immS i)
    let full := s.wordFull core off
    let stores (ins : Instr) (after : Bool) : Prop := ∃ u, exec ins s = .next u ∧ SameCur s u ∧ SameRegs s u ∧
      u.bytesAt (.sram core off) 8 = natLe 8 (s.getG d).toNat ∧ SameBytesBut [.sram core off] 8 s u ∧
      u.wordFull core off = after
    let reads (ins : Instr) (after : Bool) : Prop := ∃ u, exec ins s = .next u ∧ SameRegs s u ∧ SameBytes s u ∧
      Interlocked s u [(.g d, BitVec.allOnes 64, .word (BitVec.ofNat 64 (leNat (s.bytesAt (.sram core off) 8))))] ∧
      u.wordFull core off = after
    let ported : Prop := s.fePort core c.core = true
    let keeps (ins : Instr) : Prop := ported → ∃ u x w, exec ins s = .next u ∧ u.cur = some x ∧
      x.wait = some (.fullEmpty w.id) ∧ w.tid = t.tid ∧ w.word = off / 8 ∧
      (u.core core).feRefused = (s.core core).feRefused ++ [(w, core, .behind false)] ∧ SameBytes s u ∧ SameRegs s u ∧
      u.wordFull core off = full
    let waits (ins : Instr) : Prop := (s.core core).feWaits.length < 32 → (s.core core).feRefused = [] →
      ∃ u x w, exec ins s = .next u ∧ u.cur = some x ∧ x.wait = some (.fullEmpty w.id) ∧ w.tid = t.tid ∧ w.word = off / 8 ∧
        (u.core core).feWaits = (s.core core).feWaits ++ [w] ∧ SameBytes s u ∧ SameRegs s u ∧
        u.wordFull core off = full
    (s.feAddr t c.core ea .store = .ok p →
      (full = false → ¬ported → stores (.fill d a i) true) ∧ (full = true → waits (.fill d a i)) ∧ keeps (.fill d a i) ∧
      stores (.writef d a i) true ∧ stores (.sete d a i) false) ∧
    (s.feAddr t c.core ea .load = .ok p →
      (full = true → ¬ported → reads (.take d a i) false ∧ reads (.readf d a i) true) ∧
      (full = false → waits (.take d a i) ∧ waits (.readf d a i)) ∧ keeps (.take d a i) ∧ keeps (.readf d a i))

/-- 14 R372; 05 R142; 07 R187, R189: an acquire fence of CLUSTER scope or wider empties the core's L1, and at PKG or FABRIC
scope joins what the die has heard settled; a release fence lets the sequencer go on, and at PKG or FABRIC scope takes the
die's next number, while the task's later writes carry what it carries; a full fence does both. After an acquire fence and a
full one the next bundle waits. -/
def Obligations.FenceResults : Prop :=
  ∀ (s : State) (c : Cur) (t : Task) (sc : Scope),
    s.cur = some c → s.me? = some t → s.enabled = true → s.versioned = false →
    let die := coreDie c.core
    let wide := sc = .pkg ∨ sc = .fabric
    let joined (k h : Nat) : Nat := if (h + 2 ^ 48 - k) % 2 ^ 48 < 2 ^ 47 then h else k
    let acquired (u : State) : Prop :=
      (sc ≠ .seq → sc ≠ .core → (u.core c.core).l1 = []) ∧
      (wide → ∃ x, u.task? t.tid = some x ∧
        ∀ j, j < 14 → x.clock.getD j 0 = joined (t.clock.getD j 0) (s.clocks.heardOf die j))
    let released (u : State) : Prop :=
      (∀ p ∈ u.mem.stores, p ∈ s.mem.stores) ∧
      (∃ x m, u.task? t.tid = some x ∧ x.relMark = some m ∧ (m.fabric = true ↔ sc = .fabric) ∧
        (s.ownStores t.tid = [] → m.before = s.nextId) ∧
        (wide → die < 14 → m.stamp.getD die 0 = u.clocks.counts.getD 0 die)) ∧
      (wide → u.clocks.counts.getD 0 die = (s.clocks.counts.getD 0 die + 1) % 2 ^ 48) ∧
      (¬wide → u.clocks = s.clocks)
    let quiet (u : State) : Prop := s.ownStores t.tid = [] → SameBytes s u ∧ SameRegs s u
    let waits (u : State) (full : Bool) : Prop :=
      u.cur = s.cur.map fun x => { x with fence := some ⟨full, sc, t.trap.mode⟩ }
    (∃ u, exec (.fenceAcq sc) s = .next u ∧ waits u false ∧ acquired u ∧ SameBytes s u ∧ SameRegs s u) ∧
    (∃ u, exec (.fenceRel sc) s = .next u ∧ u.cur = s.cur ∧ released u ∧ quiet u) ∧
    ∃ u, exec (.fence sc) s = .next u ∧ waits u true ∧ acquired u ∧ released u ∧ quiet u

/-- 14 R375 to R377; 03 R89; 07 R189: setting a bell's membership, arriving at it, at once or, where the stamp of the
release is not heard at the bell's die, by a message that waits, and waiting for its generation. -/
def Claim.BellResults : Prop :=
  ∀ (s : State) (c : Cur) (t : Task) (a b : Reg),
    s.cur = some c → s.me? = some t → s.enabled = true → s.ownStores t.tid = [] →
    let g := (s.getG a).toNat
    let key := bellKey g c.core
    let old := s.bell key
    let bit : BitVec 32 := 1#32 <<< (4 * (c.core % 8) + t.sq.getD 0)
    let cluster := bellLevel key = 0
    let quiet (u : State) : Prop := SameBytes s u ∧ SameRegs s u ∧ ∀ k, k ≠ key → u.bell k = s.bell k
    let later := (s.releaseBy t.tid c.core (bellScope key)).messageWaits t c.core (s.bellHome key)
    let mine := old.owner = some t.ctx ∧ (cluster → old.memb &&& bit ≠ 0)
    let gen := match t.bells.find? (·.1 == key) with
      | some r => r.2
      | none => old.gen
    (bellBad g = false → bellCovers key c.core = true → old.isOpen = false → (old.owner = none ∨ old.owner = some t.ctx) →
      let m : BitVec 32 := if cluster then (s.getG b).setWidth 32 else ((s.getG b).setWidth 16).setWidth 32
      ∃ u, exec (.bellm a b) s = .next u ∧ u.cur = s.cur ∧ quiet u ∧
        u.bell key = { old with memb := m, arr := 0, arrivers := [], owner := if m = 0 then none else some t.ctx }) ∧
    (bellBad g = true ∨ bellCovers key c.core = false ∨ old.isOpen = true ∨ (∃ n, old.owner = some n ∧ n ≠ t.ctx) →
      exec (.bellm a b) s = .next (s.raise 0x0113 0 g)) ∧
    (bellBad g = false → bellCovers key c.core = true → mine →
      (let arr := if cluster then old.arr ||| bit else old.arr + 1
       (cluster → old.arr &&& bit = 0) →
        ∃ u, exec (.bella a) s = .next u ∧ u.cur = s.cur ∧ quiet u ∧
          (∃ x, u.task? t.tid = some x ∧ x.bells.head? = some (key, old.gen)) ∧
          (later = true → u.bell key = old ∧ ∃ m n, u.clocks.waiting = s.clocks.waiting ++ [m] ∧
            m.die = s.bellHome key ∧ m.act = .bell key t.tid bit ∧ (n, .stampedMessageApply, .num m.id) ∈ u.due) ∧
          (later = false → arr ≠ old.memb → (u.bell key).arr = arr ∧ (u.bell key).gen = old.gen ∧ (u.bell key).isOpen = true) ∧
          (later = false → arr = old.memb → (u.bell key).arr = 0 ∧ (u.bell key).gen = old.gen + 1 ∧ (u.bell key).isOpen = false ∧
            (∀ x ∈ u.tasks, x.wait ≠ some (.bell key old.gen)) ∧
            (bellLevel key = 2 → (u.ctx t.ctx).dcond.getLsbD (bellNumber key) = true))) ∧
      ∃ u, exec (.bellw a) s = .next u ∧ quiet u ∧ u.bell key = old ∧
        u.cur = if genLater old.gen gen then s.cur else s.cur.map fun x => { x with wait := some (.bell key gen) }) ∧
    (¬(bellBad g = false ∧ bellCovers key c.core = true ∧ mine) →
      exec (.bella a) s = .next s ∧ exec (.bellw a) s = .next s)

/-- 14 R379 to R381; 07 R189: starting a roll, adding bytes to it, at once or by a message that waits for its stamp, and
waiting for it. -/
def Claim.RollResults : Prop :=
  ∀ (s : State) (c : Cur) (t : Task) (d a b : Reg) (core off : Nat),
    s.Inv → s.cur = some c → s.me? = some t → s.enabled = true → s.ownStores t.tid = [] →
    t.wait = none → (∀ x ∈ s.tasks, ∀ v n e, x.wait ≠ some (.roll v n e)) →
    let g := (s.getG a).toNat
    let e := (s.getG b).toNat % 2 ^ 32
    let bs := s.bytesAt (.sram core off) 16
    let r := s.roll core off
    let total := min (r.arrived + e) (2 ^ 32 - 1)
    let later := (s.releaseBy t.tid c.core .pkg).messageWaits t c.core (coreDie core)
    let sets (ins : Instr) (after : Roll) : Prop := ∃ u, exec ins s = .next u ∧ u.cur = s.cur ∧ u.roll core off = after ∧
      SameBytesBut [.sram core off] 16 s u ∧ SameRegs s u
    s.checkRoll t.ctx g = .ok (core, off) →
      (r.expect = leNat (bs.take 4) ∧ r.arrived = leNat ((bs.drop 4).take 4) ∧
        r.phase = (leNat (bs.drop 8)).testBit 0 ∧ r.armed = (leNat (bs.drop 8)).testBit 1 ∧
        r.code = leNat (bs.drop 8) / 2 ^ 16 % 2 ^ 16) ∧
      sets (.rolli a b) (if e = 0 then { expect := 0, arrived := 0, phase := !r.phase, armed := false, code := 0 }
        else { expect := e, arrived := 0, phase := r.phase, armed := true, code := 0 }) ∧
      (later = true → ∃ u m n, exec (.rolla a b) s = .next u ∧ u.cur = s.cur ∧ SameBytes s u ∧ SameRegs s u ∧
        u.clocks.waiting = s.clocks.waiting ++ [m] ∧ m.die = coreDie core ∧ m.act = .roll core off e ∧
        (n, .stampedMessageApply, .num m.id) ∈ u.due) ∧
      (later = false → sets (.rolla a b)
        (if r.expect < total then
          { expect := r.expect, arrived := total, phase := if r.armed then !r.phase else r.phase, armed := false
            code := 0x0301 }
         else if r.armed = true ∧ total = r.expect then
          { expect := r.expect, arrived := total, phase := !r.phase, armed := false, code := 0 }
         else { r with arrived := total })) ∧
      (r.armed = true → ∃ u x, exec (.rollw d a) s = .next u ∧ u.cur = some x ∧
        (∃ n, x.wait = some (.roll g n d)) ∧ SameBytes s u ∧ SameRegs s u) ∧
      (r.armed = false → ∃ u, exec (.rollw d a) s = .next u ∧ SameBytes s u ∧ SameRegs s u ∧
        Interlocked s u [(.g d, BitVec.allOnes 64, .word (BitVec.ofNat 64 (leNat (bs.drop 8))))] ∧
        (r.code ≠ 0 → t.faults.length < 8 → ∃ x, u.task? t.tid = some x ∧
          x.faults.map (fun f => (f.code.toNat, f.info.toNat, f.engine)) =
            t.faults.map (fun f => (f.code.toNat, f.info.toNat, f.engine)) ++ [(r.code, g, true)]))

/-- 14 R382 to R384; 02 R50, R51: a store that asks for a slip takes an entry of the table when it goes to a peer, and
the null slip otherwise; a store that waits for slips carries them, to the peer or into the hold queue. -/
def Claim.SlipStoreResults : Prop :=
  ∀ (s : State) (c : Cur) (t : Task) (d a b : Reg) (p : Piece),
    s.cur = some c → s.me? = some t → s.enabled = true → s.versioned = false → s.rangeHeld c.core [p] 8 = false →
    s.checkOne t c.core false (eaOf (s.getG a) 0) 0 (scalarReq 8 .store) = .ok p →
    let bs := natLe 8 (s.getG b).toNat
    let g := s.getG d
    let quiet (u : State) : Prop := SameBytes s u ∧ SameRegs s u
    (p.loc.isHere = true → ∃ u op x e, exec (.stslip d a b) s = .next u ∧ quiet u ∧ p.loc.storeOp bs = some op ∧
      u.mem.stores = s.mem.stores ++ [x] ∧ x.tid = t.tid ∧ x.ops = [op] ∧ x.slipTo = some e.id ∧
      Entered s u [e] ∧ e.reg = .g d ∧ e.mask = BitVec.allOnes 64) ∧
    (∀ chip fctx va n, p.loc = .peer chip fctx va → s.slipFree? (coreDie c.core) = some n →
      ∃ u tok r, exec (.stslip d a b) s = .next u ∧ quiet u ∧
        tok = s.ownChip (slipHub n) ++ BitVec.ofNat 12 n ++ ((s.slipEntry n).count + 1) ∧
        Interlocked s u [(.g d, BitVec.allOnes 64, .word (tok.setWidth 64))] ∧
        (u.slipEntry n).phase = .pending ∧ (u.slipEntry n).count = (s.slipEntry n).count + 1 ∧
        r ∈ u.fabric.remotes ∧ r.use = .store t.tid ∧ r.pkt.op = 0x03 ∧ r.pkt.dst = chip ∧
        r.pkt.vaddr = BitVec.ofNat 57 va ∧ r.pkt.wantslip = true ∧ payloadBytes r.pkt = bs) ∧
    ∀ two : Bool, s.ownStores t.tid = [] →
      ∃ u r, exec (if two then .stwait2 d a b else .stwait1 d a b) s = .next u ∧ quiet u ∧ SameCur s u ∧
      r ∈ u.fabric.remotes ∧ r.pkt.op = 0x03 ∧ payloadBytes r.pkt = bs ∧ r.pkt.slipn.toNat = (if two then 2 else 1) ∧
      r.pkt.slip0 = g.extractLsb' 0 32 ∧ (two = true → r.pkt.slip1 = g.extractLsb' 32 32) ∧
      (∀ chip fctx va, p.loc = .peer chip fctx va → r.use = .store t.tid ∧ r.pkt.dst = chip) ∧
      ∀ pa place evf, p.loc = .phys pa place evf → r.use = .localHold t.tid (.phys pa)

/-- 14 R358; 02 R35, R45: a load, store or atomic to a page of a peer leaves as a request of the issuing sequencer with the
next REQID of its unit, and its result is interlocked. -/
def Claim.RemoteIssueResults : Prop :=
  ∀ (s : State) (c : Cur) (t : Task) (ty : Ty) (o : AOrd) (w : AWidth) (d a b : Reg) (i : Imm 5) (p : Piece)
    (chip : BitVec 12) (fctx : BitVec 16) (va : Nat),
    s.cur = some c → s.me? = some t → s.enabled = true → s.versioned = false → ty.isMem = true →
    p.loc = .peer chip fctx va → s.ownStores t.tid = [] → t.commitQ = [] →
    let n := tyBits ty / 8
    let unit : BitVec 16 := BitVec.ofNat 16
      (c.core / 192 + c.core % 192 / 8 * 16 + c.core % 8 * 512 + t.sq.getD 0 * 4096)
    let sent (u : State) (r : RemoteReq) (op : BitVec 8) (bytes : Nat) : Prop :=
      r ∈ u.fabric.remotes ∧ r.pkt.op = op ∧ r.pkt.dst = chip ∧ r.pkt.fctx = fctx ∧ r.pkt.vaddr = BitVec.ofNat 57 va ∧
      2 ^ r.pkt.size.toNat = bytes ∧ r.pkt.srcunit = unit ∧ r.pkt.reqid = s.fabric.reqids.getD 0 unit.toNat ∧
      u.fabric.reqids.getD 0 unit.toNat = s.fabric.reqids.getD 0 unit.toNat + 1 ∧
      r.pkt.tag = c.pc.extractLsb' 2 16 ∧ SameBytes s u ∧ SameRegs s u
    let awaits (u : State) (e : Infl) : Prop :=
      Entered s u [e] ∧ e.reg = .g d ∧ e.mask = BitVec.allOnes 64 ∧ e.remote = true
    (s.checkOne t c.core false (eaOf (s.getG a) (immS i)) 0 (scalarReq n .load) = .ok p →
      ∃ u r e own, exec (.ld ty d a i) s = .next u ∧ sent u r 0x01 n ∧ awaits u e ∧
        r.use = .load t.tid e.id none n (tySigned ty) own) ∧
    (s.checkOne t c.core false (eaOf (s.getG a) (immS i)) 0 (scalarReq n .store) = .ok p →
      s.rangeHeld c.core [p] n = false →
      ∃ u r, exec (.st ty d a i) s = .next u ∧ sent u r 0x03 n ∧ SameCur s u ∧ r.use = .store t.tid ∧
        payloadBytes r.pkt = natLe n (s.getG d).toNat) ∧
    (s.checkOne t c.core false (eaOf (s.getG a) 0) 0
        { n := awBytes w, align := awBytes w, info := (awBytes w).log2, kind := .atomic, pcie := true } = .ok p →
      s.rangeHeld c.core [p] (awBytes w) = false → (AOrd.relScope o = some .fabric → s.remoteBusy t.tid = false) →
      ∃ u r e own, exec (.aadd o w d a b) s = .next u ∧ sent u r 0x05 (awBytes w) ∧ awaits u e ∧
        r.use = .load t.tid e.id none (awBytes w) false own ∧ r.pkt.aop = 0 ∧
        r.pkt.opnd0.toNat = (s.getG b).toNat % 2 ^ (8 * awBytes w))

/-- 14 R385; 09 R231, R233: a lock request that its checks pass goes to the Prefect and its task waits; a try returns 1 or
0; a release removes the lock from the task and goes to the Prefect. -/
def Claim.LockInstructionResults : Prop :=
  ∀ (s : State) (c : Cur) (t : Task) (m : LockMode) (d a : Reg),
    s.cur = some c → s.me? = some t → s.enabled = true → s.ownStores t.tid = [] →
    let lw := s.getG a
    let due (u : State) (i : Instr) (x : EvArg) : Prop := (s.cycle + 1, i, x) ∈ u.due
    let quiet (u : State) : Prop := SameBytes s u ∧ SameRegs s u
    (lockCheck t lw m = .send →
      (∃ u, exec (.lkreq m a) s = .next u ∧ quiet u ∧ due u .prefectLockRequest (.lock t.tid lw m 0) ∧
        u.cur = s.cur.map fun y => { y with wait := some (.lock lw m) }) ∧
      ∃ u e, exec (.lktry m d a) s = .next u ∧ quiet u ∧ due u .prefectLockTry (.lock t.tid lw m e.id) ∧ e.reg = .g d ∧
        Entered s u [e]) ∧
    (lockCheck t lw m = .done →
      exec (.lkreq m a) s = .next s ∧
      ∃ u, exec (.lktry m d a) s = .next u ∧ quiet u ∧ Interlocked s u [(.g d, BitVec.allOnes 64, .word 1)]) ∧
    (∀ code, lockCheck t lw m = .bad code →
      let info := if code = 0x0114 then lw.toNat else 0
      exec (.lkreq m a) s = .next (s.raise code 0 info) ∧ exec (.lktry m d a) s = .next (s.raise code 0 info)) ∧
    (lwBad lw = false → (∀ l ∈ t.locks, lwParent l.1 ≠ some lw) → s.versioned = false →
      ∀ held, t.locks.find? (·.1 == lw) = some (lw, held) →
        ∃ u x, exec (.lkrel a) s = .next u ∧ quiet u ∧ u.cur = s.cur ∧ u.task? t.tid = some x ∧
          x.locks = t.locks.filter (·.1 != lw) ∧ due u .prefectLockRelease (.lock t.tid lw held 0)) ∧
    (lwBad lw = true ∨ (∃ l ∈ t.locks, lwParent l.1 = some lw) ∨ (∀ l ∈ t.locks, l.1 ≠ lw) →
      exec (.lkrel a) s = .next (s.raise 0x0114 0 lw.toNat))

/-- 09 R222 to R227, R238: what the checks of a lock request find. -/
def Claim.LockRequestRules : Prop :=
  ∀ (t : Task) (lw : Word) (m : LockMode),
    (lwBad lw = true → lockCheck t lw m = .bad 0x0114) ∧
    (lwBad lw = false →
      (∀ p, lwParent lw = some p → (∀ l ∈ t.locks, l.1 ≠ p) → lockCheck t lw m = .bad 0x0114) ∧
      (lwLevel lw = 0 → (∀ l ∈ t.locks, l.1 ≠ lw) →
        lockCheck t lw m = if t.locks.length < 64 then .send else .bad 0x0115) ∧
      (∀ p h, lwParent lw = some p → t.locks.find? (·.1 == p) = some (p, h) → (∀ l ∈ t.locks, l.1 ≠ lw) →
        lockCheck t lw m =
          if (h = .x ∨ h = .ix ∨ (h = .is ∨ h = .s) ∧ (m = .is ∨ m = .s) ∨ h = .inc ∧ m = .inc) then
            (if t.locks.length < 64 then .send else .bad 0x0115)
          else .bad 0x0114) ∧
      (lwLevel lw = 0 → ∀ h, t.locks.find? (·.1 == lw) = some (lw, h) →
        (h = m ∨ h = .x → lockCheck t lw m = .done) ∧
        ((h = .is ∧ (m = .ix ∨ m = .s) ∨ (h = .ix ∨ h = .s ∨ h = .inc) ∧ m = .x) → lockCheck t lw m = .send)))

/-- 05 R145, R146; 14 R387, R388: the range registers, background cache controls, and the prefetch. -/
def Claim.CacheControlResults : Prop :=
  ∀ (s : State) (c : Cur) (t : Task) (n : KReg) (a b : Reg) (i : Imm 5),
    s.cur = some c → s.me? = some t → s.enabled = true →
    let base := (s.getG a).toNat / 2 ^ 16 % 2 ^ 41
    let len := min (((s.getG a).toNat % 2 ^ 16 + (s.getG b).toNat + (2 ^ 16 - 1)) / 2 ^ 16) (2 ^ 41 - base)
    let quiet (u : State) : Prop := u.cur = s.cur ∧ SameBytes s u ∧ SameRegs s u
    let ranged (ins : Instr) (evict : Nat) : Prop := ∃ u, exec ins s = .next u ∧ quiet u ∧
      ((u.ctx t.ctx).pinb.getD 0 n.toNat).toNat = (if len = 0 then 0 else 1 + 2 * evict + base * 2 ^ 16) ∧
      ((u.ctx t.ctx).pinl.getD 0 n.toNat).toNat = (if len = 0 then 0 else len % 2 ^ 41 * 2 ^ 16)
    let runs (ins : Instr) (evict : Bool) : Prop :=
      (s.getG b ≠ 0 → ∃ u op, exec ins s = .next u ∧ quiet u ∧ u.mem.cacheOps = s.mem.cacheOps ++ [op] ∧ op.tid = t.tid ∧
        op.lo = (s.getG a).toNat ∧ op.len = (s.getG b).toNat ∧ op.evict = evict ∧
        ∃ k, (k, .cacheMaintenanceComplete, .num op.id) ∈ u.due) ∧
      (s.getG b = 0 → exec ins s = .next s)
    ranged (.cpin n a b) 0 ∧ ranged (.cevf n a b) 1 ∧
    (∃ u, exec (.cunpin n) s = .next u ∧ quiet u ∧ (u.ctx t.ctx).pinb.getD 0 n.toNat = 0 ∧
      (u.ctx t.ctx).pinl.getD 0 n.toNat = 0 ∧ ∀ l ∈ u.mem.l2, ¬(l.ctx = t.ctx ∧ l.reg = some n.toNat)) ∧
    runs (.cflush a b) false ∧ runs (.cinv a b) true ∧
    (∀ pa place evf, s.prefPlace t (eaOf (s.getG a) (immS i)) = some (pa, place, evf) →
      isCacheable s pa = true → ∃ u, exec (.pref a i) s = .next u ∧ quiet u ∧ ∃ l ∈ u.mem.l2, l.line = pa / 64) ∧
    (s.prefPlace t (eaOf (s.getG a) (immS i)) = none → exec (.pref a i) s = .next s)

/-- 13 R346, R347, R352: binding, freeing, counting and draining a stream register. What a slot sets is the register's
value once the bundle has ended (05 R130). -/
def Obligations.StreamRegisterResults : Prop :=
  ∀ (s : State) (c : Cur) (t : Task) (d : Reg) (n : ZReg) (a : Reg),
    s.cur = some c → s.me? = some t → s.ownStores t.tid = [] →
    let g := (s.getG a).toNat
    let lo := (scratchRegs t c.core).1.toNat
    let hi := lo + (scratchRegs t c.core).2.toNat
    let x := t.r.getS n
    let sets (ins : Instr) (p : Stream → Prop) : Prop := ∃ st, exec ins s = .next (s.setStream n st) ∧ p st
    let bs := s.bytesAt (.sram c.core (g % 2 ^ 21)) 32
    let field (o k : Nat) : Nat := leNat ((bs.drop o).take k)
    let ks := if field 0x14 1 = 1 then 8 else 4
    let inside (at_ bytes : Nat) : Prop := bytes = 0 ∨ lo ≤ at_ ∧ at_ + bytes ≤ hi
    let ok : Prop := (∀ j, 0x17 ≤ j → j < 32 → bs.getD j 0 = 0) ∧ field 0x14 1 ≤ 1 ∧ field 0x15 1 ≤ 3 ∧ field 0x16 1 ≤ 1 ∧
      field 0x10 4 ≤ 2 ^ 20 ∧ field 0 8 % ks = 0 ∧ field 8 8 % 4 = 0 ∧ (field 0x15 1 = 0 → field 8 8 = 0) ∧
      inside (field 0 8) (field 0x10 4 * ks) ∧ (field 0x15 1 ≠ 0 → inside (field 8 8) (field 0x10 4 * 4))
    (s.enabled = true →
      (g % 32 ≠ 0 → exec (.sbind n a) s = .next (s.raise 0x010A g 5)) ∧
      (g % 32 = 0 → lo ≤ g → g + 32 ≤ hi → sets (.sbind n a) fun y =>
        (ok → y = { bind := if field 0x16 1 = 1 then 2 else 1, kty := field 0x14 1 == 1, vty := BitVec.ofNat 2 (field 0x15 1)
                    kaddr := BitVec.ofNat 64 (field 0 8), vaddr := BitVec.ofNat 64 (field 8 8)
                    len := BitVec.ofNat 32 (field 0x10 4) }) ∧
        (¬ok → y.bind = 3 ∧ y.status = 8)) ∧
      sets (.sfree n) (fun y => y = {}) ∧
      ∃ u, exec (.scnt d n) s = .next u ∧ SameBytes s u ∧ SameRegs s u ∧
        Interlocked s u [(.g d, BitVec.allOnes 64, .word (BitVec.ofNat 64
          ((if x.bind = 1 then x.len.toNat - x.pos.toNat else if x.bind = 2 then x.pos.toNat else 0) +
            x.status.toNat * 2 ^ 32 + x.bind.toNat * 2 ^ 36 + (if x.kty then 2 ^ 38 else 0) + x.vty.toNat * 2 ^ 39)))]) ∧
    (∀ st, t.r.streamOp? = none → ∃ y, (s.takeStream t.tid (n, st)).task? t.tid = some y ∧ y.r.getS n = st ∧
      ∀ k, k ≠ n → y.r.getS k = t.r.getS k) ∧
    ∃ u st v, exec (.sdrain d n) s = .next u ∧ SameBytes s u ∧ SameRegs s u ∧
      Interlocked (s.setStream n st) u [(.v d, s.mask, .vec v)] ∧
      (x.bind ≠ 1 → st = x ∧ ∀ i, i < 64 → v.lane i = 0xFFFFFFFF) ∧
      (x.bind = 1 → x.pos.toNat ≤ x.len.toNat →
        let w := if x.kty then 8 else 4
        let count := min (x.len.toNat - x.pos.toNat) (256 / w)
        let key (m : Nat) : Nat := leNat (s.bytesAt (.sram c.core ((x.kaddr.toNat + (x.pos.toNat + m) * w) % 2 ^ 21)) w)
        st.pos.toNat = x.pos.toNat + count ∧
        (∀ m, m < count → if x.kty then
            (v.lane (2 * m)).toNat = key m % 2 ^ 32 ∧ (v.lane (2 * m + 1)).toNat = key m / 2 ^ 32
          else (v.lane m).toNat = key m) ∧
        ∀ i, count * w / 4 ≤ i → i < 64 → v.lane i = 0xFFFFFFFF)

/-- 13 R348, R349: starting a merge, and its status where a register is BAD or has another role. -/
def Claim.StreamStartResults : Prop :=
  ∀ (s : State) (c : Cur) (t : Task) (d a b : ZReg),
    s.cur = some c → s.me? = some t → s.enabled = true → s.ownStores t.tid = [] →
    let x := t.r.getS d
    let y := t.r.getS a
    let z := t.r.getS b
    let bad := x.bind = 3 ∨ y.bind = 3 ∨ z.bind = 3
    let roles := x.bind = 2 ∧ y.bind = 1 ∧ z.bind = 1 ∧ y.kty = x.kty ∧ z.kty = x.kty ∧ y.vty = x.vty ∧ z.vty = x.vty
    let sets (ins : Instr) (st : Stream) : Prop := ∃ u, exec ins s = .next u ∧
      u.cur = (s.setStream d st).cur ∧ SameBytes s u ∧ SameRegs s u
    let starts (ins : Instr) (op : BitVec 3) : Prop :=
      (x.bind = 0 → exec ins s = .next s) ∧
      (x.bind ≠ 0 → bad → sets ins { x with status := x.status ||| 8 }) ∧
      (x.bind ≠ 0 → ¬bad → ¬roles → sets ins { x with status := x.status ||| 4 }) ∧
      (¬bad → roles → sets ins
        { x with
          op := op, srca := a, srcb := b, pend := false, pfrom := 0, opevt := 0, opslot := BitVec.ofNat 3 c.slot
          rm := BitVec.ofNat 3 (fmtRm s.fmt), opbaddr := c.pc.setWidth 64 })
    starts (.sint d a b) 1 ∧ starts (.suni d a b) 2 ∧ starts (.ssub d a b) 3 ∧ starts (.smadd d a b) 4

/-- 13 R348, R350: in a cycle the stream unit of a core takes one element of the operation it serves, from the input with the
lower key, or from A where the keys are equal. -/
def Claim.StreamElementRule : Prop :=
  ∀ (s : State) (t : Task) (core q : Nat) (nd na nb : ZReg),
    s.Inv → s.task? t.tid = some t → t.core = some core → s.streamServes core = some (q, t) →
    t.r.streamOp? = some (nd, na, nb) → na ≠ nb → na ≠ nd → nb ≠ nd →
    let d := t.r.getS nd
    let a := t.r.getS na
    let b := t.r.getS nb
    let key (x : Stream) : Nat := leNat (s.bytesAt (.sram core ((x.kaddr.toNat + x.pos.toNat * 4) % 2 ^ 21)) 4)
    let takes (x : Stream) (y : Stream) : Prop := y.pos = x.pos + 1 ∧ y.lastv = true ∧ y.lastkey.toNat = key x
    d.kty = false → a.kty = false → b.kty = false → a.lastv = false → b.lastv = false → d.pend = false →
    a.pos.toNat < a.len.toNat → b.pos.toNat < b.len.toNat → d.pos.toNat < d.len.toNat →
      ∃ y, (s.streamTurn core).task? t.tid = some y ∧ (y.r.getS nd).op = d.op ∧ (y.r.getS nd).pos = d.pos ∧
        (y.r.getS nd).pend = true ∧ ((s.streamTurn core).core core).streamLast = q ∧
        (key a ≤ key b → takes a (y.r.getS na) ∧ y.r.getS nb = b ∧ (y.r.getS nd).pkey.toNat = key a) ∧
        (key b < key a → takes b (y.r.getS nb) ∧ y.r.getS na = a ∧ (y.r.getS nd).pkey.toNat = key b)

/-- 13 R348, R349: the end of a merge of one key from each input: what the output holds and where the registers stand. -/
def Claim.StreamMergeResults : Prop :=
  ∀ (s : State) (t : Task) (core : Nat) (nd na nb : ZReg),
    s.Inv → s.arg = .task t.tid → s.task? t.tid = some t → t.phase = .bound → t.core = some core →
    t.r.streamOp? = some (nd, na, nb) → na ≠ nb → na ≠ nd → nb ≠ nd →
    let d := t.r.getS nd
    let a := t.r.getS na
    let b := t.r.getS nb
    let apart (x y : Stream) : Prop := ∀ i j, inArray i x.keys = true → inArray j y.keys = true → i ≠ j
    apart d a → apart d b →
    let key (x : Stream) : Nat := leNat (s.bytesAt (.sram core ((x.kaddr.toNat + x.pos.toNat * 4) % 2 ^ 21)) 4)
    let ka := key a
    let kb := key b
    let out : List Nat :=
      if d.op = 1 then (if ka = kb then [ka] else [])
      else if d.op = 3 then (if ka = kb then [] else [ka])
      else if ka = kb then [ka] else [min ka kb, max ka kb]
    let place (m : Nat) : Loc := .sram core ((d.kaddr.toNat + (d.pos.toNat + m) * 4) % 2 ^ 21)
    d.op.toNat ≤ 4 → d.pend = false → d.vty = 0 → d.kty = false → a.kty = false → b.kty = false → a.vty = 0 → b.vty = 0 →
    a.lastv = false → b.lastv = false → a.pos.toNat + 1 = a.len.toNat → b.pos.toNat + 1 = b.len.toNat →
    d.pos.toNat + 2 ≤ d.len.toNat →
      ∃ u y, exec .streamOperationEnd s = .next u ∧ u.task? t.tid = some y ∧ (y.r.getS nd).op = 0 ∧
        (y.r.getS nd).pos.toNat = d.pos.toNat + out.length ∧ (y.r.getS na).pos = a.len ∧ (y.r.getS nb).pos = b.len ∧
        (∀ m k, out[m]? = some k → leNat (u.bytesAt (place m) 4) = k) ∧
        SameBytesBut ((List.range out.length).map place) 4 s u

/-- 15 R399 to R401, R398: tiles are taken, given back, cleared, loaded, stored and read, and column scales are loaded. -/
def Obligations.TileResults : Prop :=
  ∀ (s : State) (c : Cur) (t : Task) (z : ZReg) (d a : Reg),
    s.cur = some c → s.me? = some t →
    let tile := s.tile c.core z.toNat
    let after (u : State) : Tile := u.tile c.core z.toNat
    let others (u : State) : Prop := ∀ k, k ≠ z.toNat → u.tile c.core k = s.tile c.core k
    let quiet (u : State) : Prop := SameBytes s u ∧ SameCur s u
    let va := (s.getG a).toNat % 2 ^ 57
    let mine := tile.owner = some t.tid
    let lines (n : Nat) (ls : List (Nat × Loc)) (f : Nat → List Byte) : Prop := ls.length = n ∧
      ∀ k x, ls[k]? = some x → x.2.granule < noGranule ∧
        s.readGranule t c.core (x.1 / 64) x.2.granule = (f k, none) ∧ (f k).length = 64
    (s.enabled = true → tile.owner = none → tile.heldFor = none →
      ∃ u, exec (.zget z) s = .next u ∧ quiet u ∧ SameRegs s u ∧ others u ∧ (after u).owner = some t.tid ∧
        (after u).writers = 0 ∧ ∀ i, (after u).elem i = 0) ∧
    (s.enabled = true → mine → exec (.zget z) s = .next s) ∧
    (s.enabled = true → tile.owner ≠ some t.tid → (tile.owner ≠ none ∨ tile.heldFor ≠ none) →
      exec (.zget z) s = .next (s.raise 0x0107 0 z.toNat)) ∧
    (s.enabled = true → mine → tile.writers = 0 →
      (∃ u, exec (.zput z) s = .next u ∧ quiet u ∧ SameRegs s u ∧ (after u).owner = none) ∧
      (∃ u, exec (.zclr z) s = .next u ∧ quiet u ∧ SameRegs s u ∧ others u ∧ (after u).owner = tile.owner ∧
        ∀ i, (after u).elem i = 0)) ∧
    (mine → tile.writers = 0 →
      ∃ u v, exec (.zrd d z a) s = .next u ∧ SameBytes s u ∧ SameRegs s u ∧ Interlocked s u [(.v d, s.mask, .vec v)] ∧
        ∀ i, i < 64 → v.lane i =
          (let r := (s.getG a).toNat % 128
           let h := (s.getG a).toNat / 128 % 2
           if r < 96 ∧ (h = 0 ∨ i < 32) then tile.elem (96 * r + 64 * h + i) else 0)) ∧
    (s.enabled = true → va % 64 = 0 → mine → tile.writers = 0 →
      (∀ ls f, checkLines (s.lineAcc t c.core .load) 0 (linePoints va 36864) = .ok ls → lines 576 ls f →
        ∃ u id, exec (.zld z a) s = .next u ∧ quiet u ∧ SameRegs s u ∧ (after u).writers = 1 ∧
          (∀ k j, k < 576 → j < 16 → ((after u).elem (16 * k + j)).toNat = leNat (((f k).drop (4 * j)).take 4)) ∧
          u.mem.tileLoads = s.mem.tileLoads ++ [(id, c.core, z.toNat, t.tid)] ∧
          ∃ n, (n, .tileLoadComplete, .num id) ∈ u.due) ∧
      (∀ ls, checkLines (s.lineAcc t c.core .store) 1 (linePoints va 36864) = .ok ls → s.versioned = false →
        s.rangeHeld c.core (linePieces ls) 64 = false →
        ∃ u xs, exec (.zst z a) s = .next u ∧ quiet u ∧ SameRegs s u ∧ u.mem.stores = s.mem.stores ++ xs ∧
          xs.length = 576 ∧
          ∀ (k : Nat) (x : PendStore) (l : Nat × Loc), xs[k]? = some x → ls[k]? = some l → x.tid = t.tid ∧
            l.2.storeOp ((List.range 16).flatMap fun j => natLe 4 (tile.elem (16 * k + j)).toNat) = x.ops.head?)) ∧
    (s.enabled = true → va % 64 = 0 → t.tgemm = none →
      ∀ ls f, checkLines (s.lineAcc t c.core .load) 0 (linePoints va 384) = .ok ls → lines 6 ls f →
        ∃ u y, exec (.scld a) s = .next u ∧ quiet u ∧ u.task? t.tid = some y ∧
          ∃ sb, y.r = { t.r with sb := sb } ∧ sb.length = 96 ∧
            ∀ k j x, k < 6 → j < 16 → sb[16 * k + j]? = some x → x.toNat = leNat (((f k).drop (4 * j)).take 4))

/-- 15 R393, R396, R397; 05 R137: an MMA whose checks pass joins the matrix unit's queue with its operands, and its tile is
busy until it completes; MMAG takes the mask of its B block, MMAB the block of its group. -/
def Obligations.MmaIssueResults : Prop :=
  ∀ (s : State) (c : Cur) (t : Task) (z : ZReg) (a b : Reg) (la : List (Nat × Loc)),
    s.cur = some c → s.me? = some t → s.enabled = true →
    let aa := (s.getG a).toNat % 2 ^ 57
    let ba := (s.getG b).toNat % 2 ^ 57
    let tile := s.tile c.core z.toNat
    let old := (s.core c.core).mmas
    let queued (ins : Instr) (gate : Option Nat) : Prop := ∃ u op, exec ins s = .next u ∧ SameBytes s u ∧ SameRegs s u ∧
      SameCur s u ∧ (u.core c.core).mmas = old ++ [op] ∧ op.tid = t.tid ∧ op.tile = z.toNat ∧ op.aAddr = aa ∧
      op.bAddr = ba ∧ op.gate = gate ∧ op.fmt = s.fmt ∧ op.sb = t.r.sb ∧ op.baddr = c.pc ∧ op.step = false ∧
      (u.tile c.core z.toNat).writers = tile.writers + 1 ∧ (u.tile c.core z.toNat).data = tile.data ∧
      (max s.cycle (s.core c.core).matrixFree + 64, .mmaComplete, .num op.id) ∈ u.due
    (tile.owner ≠ some t.tid → exec (.mma z a b) s = .next (s.raise 0x0107 0 z.toNat) ∧
      exec (.mmag z a b) s = .next (s.raise 0x0107 0 z.toNat) ∧ exec (.mmab z a b) s = .next (s.raise 0x0107 0 z.toNat)) ∧
    (tile.owner = some t.tid → tyBits (tyOfFmtCode (fmtA s.fmt)) = tyBits (tyOfFmtCode (fmtB s.fmt)) →
      aa % 64 = 0 → ba % 64 = 0 → old.length < 4 → tile.writers = 0 →
      checkLines (s.lineAcc t c.core .load) 0 (linePoints aa (aBytes s.fmt)) = .ok la →
      (∀ lb, checkLines (s.lineAcc t c.core .load) 0 (linePoints ba 12288) = .ok lb →
        queued (.mma z a b) none ∧ queued (.mmab z a b) none) ∧
      ∀ m bs lb, s.checkGate t c.core ba = .ok m → s.readGranule t c.core (ba / 64) m.2.granule = (bs, none) →
        m.2.granule < noGranule →
        checkLines (s.lineAcc t c.core .load) 0 (linePointsAll (bRanges s.fmt ba (some (leNat (bs.take 32))))) = .ok lb →
        queued (.mmag z a b) (some (leNat (bs.take 32))))

/-- 08 R217, R218; 15 R394: a completed MMA leaves in each element of its tile the element it held plus the exact sum of
its products, rounded once; the tile loses one writer. -/
def Claim.MmaResult : Prop :=
  ∀ (s : State) (core id : Nat) (op : MmaOp) (t : Task),
    s.arg = .num id → s.task? op.tid = some t → t.leaving = none → op.tile < 4 →
    s.cores.cores.findSome? (fun (c, x) => (x.mmas.find? fun m => m.id == id && !m.step).map (c, ·)) = some (core, op) →
    op.shared = none → op.fixedB = none → op.gate = none → fmtScale op.fmt = 0 →
    let plain (ls : List (Nat × Nat)) (seen : List (List Byte)) : Prop := ls.length = seen.length ∧
      ∀ (k : Nat) (l : Nat × Nat) (x : List Byte), ls[k]? = some l → seen[k]? = some x → l.2 < noGranule ∧ x ≠ [] ∧ s.readGranule t core l.1 l.2 = (x, none)
    plain op.readA op.seenA → plain op.readB op.seenB →
    let ta := tyOfFmtCode (fmtA op.fmt)
    let tb := tyOfFmtCode (fmtB op.fmt)
    let w := tyBits ta
    let blockA := assembleLines op.aAddr 12288 ((op.readA.map (·.1)).zip op.seenA)
    let blockB := assembleLines op.bAddr 12288 ((op.readB.map (·.1)).zip op.seenB)
    let av (i k : Nat) : FpVal := decodeTy ta (bitsAt blockA w (1024 * i + k * w))
    let bv (k j : Nat) : FpVal := decodeTy tb (bitsAt blockB w (96 * w * k + j * w))
    let one : FpVal := .fin false 1 0
    ∃ u, exec .mmaComplete s = .next u ∧ SameBytes s u ∧
      (∀ i j, i < 96 → j < 96 → ((u.tile core op.tile).elem (96 * i + j)).toNat =
        (mmaElement ((s.tile core op.tile).elem (96 * i + j)).toNat
          ((List.range (1024 / w)).foldl (fun x k => mmaTerm x (av i k) (bv k j)) {}) one one).1 % 2 ^ 32) ∧
      (u.tile core op.tile).writers = (s.tile core op.tile).writers - 1

/-- 08 R218: the products of finite values are summed exactly; a sum of zero leaves the element as it is, any other sum is
added with one rounding to nearest even. -/
def Claim.ExactSumRule : Prop :=
  ∀ (z : Nat) (xs : List (FpVal × FpVal)),
    (∀ p ∈ xs, ∃ n1 m1 e1 n2 m2 e2, p = (.fin n1 m1 e1, .fin n2 m2 e2) ∧ -300 ≤ e1 + e2) → valIsNan (decodeTy .f32 z) = false →
    let value : FpVal × FpVal → Int
      | (.fin n1 m1 e1, .fin n2 m2 e2) => (if n1 = n2 then 1 else -1) * (m1 * m2 : Int) * 2 ^ (e1 + e2 + 300).toNat
      | _ => 0
    let sum : Int := (xs.map value).sum
    let one : FpVal := .fin false 1 0
    let out := mmaElement z (xs.foldl (fun x p => mmaTerm x p.1 p.2) {}) one one
    (sum = 0 → out = (z, [])) ∧
    (sum ≠ 0 → out = roundRes .f32 .rne (addVal .rne (decodeTy .f32 z) (.fin (decide (sum < 0)) sum.natAbs (-300))))

/-- 15 R402 to R404, R400: a TGEMM keeps its block, pins the pages it found and starts its first step; a step that ends counts, and the last one
ends the TGEMM; a tile load that ends leaves its tile with one writer fewer. -/
def Obligations.TgemmResults : Prop :=
  (∀ (s : State) (c : Cur) (t : Task) (a : Reg) (x : Nat × Loc) (bs : List Byte) (pages : List (Nat × Nat)),
    s.cur = some c → s.me? = some t → s.enabled = true → t.core = some c.core → t.phase = .bound → t.saving = none →
    t.tgemm = none →
    let va := (s.getG a).toNat % 2 ^ 57
    let z := tgTile bs
    let tile := s.tile c.core z
    va % 64 = 0 → checkLines (s.lineAcc t c.core .load) 0 [va] = .ok [x] → x.2.granule < noGranule →
    s.readGranule t c.core (x.1 / 64) x.2.granule = (bs, none) → tile.owner = some t.tid → tile.writers = 0 →
    (s.core c.core).mmas.length < 4 → tyBits (tyOfFmtCode (fmtA s.fmt)) = tyBits (tyOfFmtCode (fmtB s.fmt)) →
    tgAlign bs = .ok () → s.tgPages t c.core s.fmt bs (leNat ((bs.drop 0x20).take 2)) 0 = .ok pages →
      ∃ u y, exec (.tgemm a) s = .next u ∧ SameBytes s u ∧ SameRegs s u ∧ SameCur s u ∧ u.task? t.tid = some y ∧
        ((leNat ((bs.drop 0x25).take 1)).testBit 1 = true → ∀ i, (u.tile c.core z).elem i = 0) ∧
        (leNat ((bs.drop 0x20).take 2) = 0 → y.tgemm = none ∧ (u.tile c.core z).writers = 0) ∧
        (leNat ((bs.drop 0x20).take 2) ≠ 0 → (u.tile c.core z).writers = 1 ∧
          (∃ g, y.tgemm = some g ∧ g.block = bs ∧ g.done = 0 ∧ g.running = true ∧ g.fmt = s.fmt) ∧ y.tgPinned = pages ∧
          (∀ p ∈ pages, (2 ^ 64 + t.tid.toNat, t.ctx, p.1) ∈ u.mem.pins) ∧
          ∃ op, (u.core c.core).mmas = (s.core c.core).mmas ++ [op] ∧ op.step = true ∧ op.tid = t.tid ∧ op.tile = z)) ∧
  (∀ (s : State) (core : Nat) (op : MmaOp) (t : Task) (g : Tgemm),
    s.arg = .task t.tid → op.tid = t.tid → s.task? t.tid = some t → t.leaving = none → t.tgemm = some g → op.tile < 4 →
    s.cores.cores.findSome? (fun (c, x) => (x.mmas.find? fun m => m.tid == t.tid && m.step).map (c, ·)) = some (core, op) →
      ∃ u y, exec .tgemmStepComplete s = .next u ∧ SameBytes s u ∧ u.task? t.tid = some y ∧
        (tgSteps g.block ≤ g.done + 1 → y.tgemm = none ∧ y.tgPinned = [] ∧ (∀ p ∈ u.mem.pins, p.1 ≠ 2 ^ 64 + t.tid.toNat) ∧
          (u.tile core op.tile).writers = (s.tile core op.tile).writers - 1) ∧
        (g.done + 1 < tgSteps g.block → ∃ g', y.tgemm = some g' ∧ g'.done = g.done + 1 ∧ g'.block = g.block ∧
          (u.tile core op.tile).writers = (s.tile core op.tile).writers)) ∧
  ∀ (s : State) (id core z : Nat) (tid : Word), s.arg = .num id → z < 4 →
    s.mem.tileLoads.find? (·.1 == id) = some (id, core, z, tid) →
      ∃ u, exec .tileLoadComplete s = .next u ∧ SameBytes s u ∧
        u.mem.tileLoads = s.mem.tileLoads.filter (·.1 != id) ∧
        (u.tile core z).writers = (s.tile core z).writers - 1 ∧ (u.tile core z).data = (s.tile core z).data

/-- 11 R284; 15 R405, R406; 06 R170: an engine command whose checks pass forks at issue: its operation holds the parameter
block as it stands now; that of a versioned task enters the commit queue. -/
def Claim.EngineForkResults : Prop :=
  ∀ (s : State) (c : Cur) (t : Task) (a b : Reg),
    s.cur = some c → s.me? = some t → s.enabled = true → s.ownStores t.tid = [] →
    let block := (s.getG a).toNat
    let roll := (s.getG b).toNat
    let forks (ins : Instr) (eop bytes : Nat) : Prop :=
      s.checkEngine t.ctx eop block roll = .ok () →
      (s.versioned = false → s.bulkCount c.core < 64 → ∃ u op, exec ins s = .next u ∧ SameBytes s u ∧ SameRegs s u ∧
        u.cur = s.cur ∧ u.engines.ops = s.engines.ops ++ [op] ∧ op.eop = eop ∧ op.ctx = t.ctx ∧ op.tid = some t.tid ∧
        op.core = some c.core ∧ op.pblk + 0x1FFFFFF80000000 = block ∧ op.roll + 0x1FFFFFF80000000 = roll ∧
        op.block = s.bytesAt (.sram (scratchCore block) (block % 2 ^ 21)) bytes ∧ op.started = false ∧ op.ended = false ∧
        ∃ n, (n, .engineComplete, .num op.id) ∈ u.due) ∧
      (s.versioned = true → t.commitQ.length < 64 → ∃ u y cmd, exec ins s = .next u ∧ SameBytes s u ∧ SameRegs s u ∧
        u.cur = s.cur ∧ u.engines = s.engines ∧ u.task? t.tid = some y ∧ y.commitQ = t.commitQ ++ [.engine cmd eop])
    forks (.cpy a b) 0x01 64 ∧ forks (.cpym a b) 0x02 64 ∧ forks (.irr a b) 0x03 64 ∧ forks (.embg a b) 0x08 128 ∧
    forks (.embu a b) 0x09 128 ∧ forks (.a2a a b) 0x0A 128 ∧ forks (.coll a b) 0x0B 128 ∧ forks (.hcfg a b) 0x10 64 ∧
    forks (.hkst a b) 0x11 64 ∧ forks (.hgth a b) 0x12 64 ∧ forks (.ttload a b) 0x18 64

/-- 01 R13 to R15: requests are accepted, refused, retried, ticketed, and claimed at a request tracker. -/
def Obligations.TrackerRules : Prop :=
  ∀ (s : State) (home port req : Nat) (cls : SrcClass),
    let t := s.tracker home cls
    let arg : EvArg := .request home cls port req
    let room := t.used + t.held.length < 256
    let free := (∀ x ∈ t.tickets, x.1 ≠ port) ∧ ∀ x ∈ t.held, x.1 ≠ port
    let sets (i : Instr) (p : State → Tracker → Prop) : Prop := ∃ u, exec i s = .next u ∧ p u (u.tracker home cls) ∧
      (∀ h k, (h ≠ home ∨ k ≠ cls) → u.tracker h k = s.tracker h k) ∧ u.mem = s.mem ∧ u.tasks = s.tasks
    (s.arg = arg →
      (free → room → t.tickets = [] → sets .packageRequest fun _ v => v = { t with used := t.used + 1 }) ∧
      (free → ¬room ∨ t.tickets ≠ [] → sets .packageRequest fun u v =>
        v = { t with refused := t.refused ++ [(port, req)] } ∧ (s.cycle + 32, .requestRetry, arg) ∈ u.due) ∧
      (¬free → sets .packageRequest fun _ v => v = { t with behind := t.behind ++ [(port, req, false)] }) ∧
      ((port, req) ∈ t.refused →
        (¬free → sets .requestRetry fun _ v =>
          v = { t with refused := t.refused.erase (port, req), behind := t.behind ++ [(port, req, true)] }) ∧
        (free → room → t.tickets = [] → sets .requestRetry fun _ v =>
          v = { t with refused := t.refused.erase (port, req), used := t.used + 1 }) ∧
        (free → ¬room → sets .requestRetry fun _ v =>
          v = { t with refused := t.refused.erase (port, req), tickets := t.tickets ++ [(port, req)] }))) ∧
    (s.arg = .tracker home cls → 0 < t.used →
      (t.tickets = [] → sets .trackerEntryFree fun _ v => v = { t with used := t.used - 1 }) ∧
      (∀ x xs, t.tickets = x :: xs → t.used + t.held.length = 256 → sets .trackerEntryFree fun u v =>
        v = { t with used := t.used - 1, tickets := xs, held := t.held ++ [(x.1, x.2, s.cycle)] } ∧
        (s.cycle + 1024, .ticketNoticeResend, .tracker home cls) ∈ u.due)) ∧
    (s.arg = .tracker home cls → (∃ x ∈ t.held, x.2.2 + 1024 ≤ s.cycle) →
      sets .ticketNoticeResend fun u v => v.held.map (fun x => (x.1, x.2.1)) = t.held.map (fun x => (x.1, x.2.1)) ∧
        (∀ x ∈ v.held, s.cycle < x.2.2 + 1024) ∧ (s.cycle + 1024, .ticketNoticeResend, .tracker home cls) ∈ u.due) ∧
    (∀ null, s.arg = .claim home cls port null → (∃ x ∈ t.held, x.1 = port) → t.tickets = [] →
      sets .ticketClaim fun u v =>
        v = { t with
          held := t.held.filter (·.1 != port), used := if null then t.used else t.used + 1
          behind := t.behind.filter (·.1 != port)
          refused := t.refused ++ (t.behind.filter fun x => x.1 == port && x.2.2).map fun x => (x.1, x.2.1) } ∧
        ∀ x ∈ t.behind, x.1 = port → (s.cycle, if x.2.2 = true then Instr.requestRetry else Instr.packageRequest,
          EvArg.request home cls port x.2.1) ∈ u.due) ∧
    (s.arg = .num port → ∃ u, exec .sourcePortReset s = .next u ∧ ∀ h k,
      (∀ x ∈ (u.tracker h k).tickets, x.1 ≠ port) ∧ (∀ x ∈ (u.tracker h k).held, x.1 ≠ port) ∧
      (∀ x ∈ (u.tracker h k).refused, x.1 ≠ port) ∧ ∀ x ∈ (u.tracker h k).behind, x.1 ≠ port)

/-- 01 R16 to R19, R442: the start-up in its order, where it fails, and what a full reset leaves. -/
def Claim.StartUpRules : Prop :=
  ∀ (s : State),
    let p := s.package
    let d := p.nextDie
    let failed (i : Instr) (cause die : Nat) : Prop := ∃ u, exec i s = .next u ∧ u.package.phase = .failed ∧
      u.package.cause = cause ∧ u.package.causeDie = die ∧ u.package.held = u.package.released
    let resets (i : Instr) : Prop := ∃ u, exec i s = .next u ∧ u.package.phase = .reset ∧ u.package.keys = [] ∧
      u.package.released = [] ∧ u.tasks = [] ∧ u.launches = [] ∧ u.cores = {} ∧ u.engines = {} ∧ u.prefects = {} ∧
      u.clocks = {} ∧ u.host.ctxs = [] ∧ u.host.cards = [] ∧ u.host.welomUp = false ∧ u.mem.versions = [] ∧
      u.mem.stores = [] ∧ u.cycle = 0 ∧ u.cur = none ∧ u.due = [] ∧ u.inputs = s.inputs ∧
      ∀ h, h = 4 ∨ h = 5 → (u.hubOf h).epoch = (s.hubOf h).epoch + 1
    let counts (pkgs : List Nat) : List Nat := (List.range 8).map fun i => pkgs.getD i 0
    let fits (pkgs : List Nat) : Prop := ∃ n, (n = 2 ∨ n = 4 ∨ n = 8) ∧ ∀ i, i < 8 → pkgs.getD i 0 = n
    let limit : Nat := s.time + 100 * usUnits
    let wants (digest : BitVec 384) : Prop := ∃ m, p.manifest = some m ∧ m.digests[d]? = some digest
    let measures : Prop := ∃ u, exec .dieMeasureRelease s = .next u ∧
      u.package.phase = .booting ∧ u.package.released = p.released ++ [d] ∧
      (⟨0, d, 0, limit⟩ : KeyLoad) ∈ u.package.keyLoads ∧ (limit, .keyLoadTimeout, .num2 0 d) ∈ u.timers
    (p.phase = .reset → exec .proctorBoot s =
      .next { s with package :=
        { p with phase := .booting, bootStep := 0, bootBlock := true, inReset := false, bootCycle := s.cycle } }) ∧
    (p.phase = .booting → p.bootStep = 0 →
      (s.arg = .flag true → exec .welomLinkTrained s =
        .next { s with package := { p with bootStep := 1 }, host := { s.host with welomUp := true } }) ∧
      (s.arg = .flag false → failed .welomLinkTrained 0 0)) ∧
    (∀ m, s.arg = .manifest m → p.phase = .booting → p.bootStep = 1 →
      (m.signatureOk = true → m.keyOk = true → Config.fusedMinVersion.toNat ≤ m.secVersion.toNat → exec .manifestVerify s =
        .next { s with package := { p with manifest := some m, secver := m.secVersion, bootStep := 2, nextDie := 4 } }) ∧
      (¬(m.signatureOk = true ∧ m.keyOk = true ∧ Config.fusedMinVersion.toNat ≤ m.secVersion.toNat) →
        failed .manifestVerify 1 0)) ∧
    (∀ digest pkgs, s.arg = .measure digest pkgs → p.phase = .booting → 2 ≤ p.bootStep → p.bootStep ≤ 5 →
      d ∉ p.released →
      (d ≠ 6 ∨ fits pkgs → (wants digest → measures) ∧ (¬wants digest → failed .dieMeasureRelease 2 d)) ∧
      (d = 6 → (wants digest → fits pkgs → ∃ u, exec .dieMeasureRelease s = .next u ∧
          u.package.capGib = (counts pkgs).sum * 64 ∧ u.package.pkgs = counts pkgs) ∧
        (¬fits pkgs → ∃ i, i < 8 ∧ failed .dieMeasureRelease 3 (6 + i)))) ∧
    (p.phase = .booting → p.bootStep = 6 → ∃ u, exec .deviceReady s = .next u ∧
      u.package = { p with phase := .ready } ∧ (s.time + 10 * usUnits, .girthCheck, .none) ∈ u.timers) ∧
    (s.arg = .num2 0 d → p.phase = .booting → (∃ k ∈ p.keyLoads, k.keySlot = 0 ∧ k.ctl = d) →
      (∀ e step, (d, e, step) ∈ [(4, 5, 3), (5, 0, 4), (0, 1, 4), (1, 2, 4), (2, 3, 4), (3, 6, 5), (6, 7, 5), (7, 8, 5),
          (8, 9, 5), (9, 10, 5), (10, 11, 5), (11, 12, 5), (12, 13, 5)] →
        ∃ u, exec .keyLoadConfirm s = .next u ∧ u.package.nextDie = e ∧ u.package.bootStep = step ∧
          ∀ k ∈ u.package.keyLoads, ¬(k.keySlot = 0 ∧ k.ctl = d)) ∧
      (d = 13 → ∃ u n, exec .keyLoadConfirm s = .next u ∧ u.package.bootStep = 6 ∧ (n, .deviceReady, .none) ∈ u.due)) ∧
    (∀ n ctl, n < 64 → s.arg = .num2 (n + 1) ctl →
      ((∃ k ∈ p.keyLoads, k.keySlot = n + 1 ∧ k.ctl = ctl) → (∀ k ∈ p.keyLoads, k.keySlot = n + 1 → k.ctl = ctl) →
        (s.ctx n).phase = .creating → ∃ u, exec .keyLoadConfirm s = .next u ∧ (u.ctx n).phase = .live) ∧
      (∀ k, p.keyLoads.find? (fun k => k.keySlot == n + 1 && k.ctl == ctl) = some k →
        (s.time < k.deadline → exec .keyLoadTimeout s = .next s) ∧
        (k.deadline ≤ s.time → k.resends < 2 → ∃ u, exec .keyLoadTimeout s = .next u ∧
          { k with resends := k.resends + 1, deadline := limit } ∈ u.package.keyLoads ∧
          (limit, .keyLoadTimeout, .num2 (n + 1) ctl) ∈ u.timers)) ∧
      (∀ k, p.keyLoads.find? (fun k => k.keySlot == n + 1 && k.ctl == ctl) = some k → k.deadline ≤ s.time →
        2 ≤ k.resends → ∃ u, exec .keyLoadTimeout s = .next u ∧ (u.ctx n).keyfail = true ∧ (u.ctx n).phase = .free ∧
          u.package.keys.find? (n + 1) = none) ∧
      ((n + 1, ctl) ∈ p.zeroising → (∀ z ∈ p.zeroising, z.1 = n + 1 → z.2 = ctl) →
        (s.ctx n).phase = .destroying → ∃ u, exec .keyZeroiseConfirm s = .next u ∧
          (∀ z ∈ u.package.zeroising, z.1 ≠ n + 1) ∧
          ((∀ r ∈ s.host.runners, r.2.ctx ≠ n) → (∀ c ∈ s.host.cards, c.ctx ≠ n) → (u.ctx n).phase = .free) ∧
          ((∃ r ∈ s.host.runners, r.2.ctx = n) ∨ (∃ c ∈ s.host.cards, c.ctx = n) → (u.ctx n).phase = .destroying))) ∧
    (∀ k, s.arg = .num2 0 k.ctl → p.keyLoads.find? (fun x => x.keySlot == 0 && x.ctl == k.ctl) = some k →
      k.deadline ≤ s.time → 2 ≤ k.resends → failed .keyLoadTimeout 4 k.ctl) ∧
    resets .powerUp ∧
    (∀ us, s.arg = .num us → (1000 ≤ us → resets .mrstnAssert) ∧ (us < 1000 → exec .mrstnAssert s = .next s)) ∧
    (∀ a i v, s.arg = .reg a i .full v →
      (v.getLsbD 0 = true → v.toNat / 2 ^ 8 % 2 ^ 8 = 0xA5 → resets .modrstGo) ∧
      (v.getLsbD 0 = false ∨ v.toNat / 2 ^ 8 % 2 ^ 8 ≠ 0xA5 → exec .modrstGo s = .next s))

/-- 01 R20, R25; 03 R66: a request in the mailbox is answered with its response code (message codes and layouts after
DSP0274, log entry 2), out of turn with ERROR; a long one travels in chunks, kept until the last has come; and an ALARM_RAISE
in a session only raises a level. -/
def Claim.MailboxRules : Prop :=
  ∀ (s : State), s.Inv → s.host.mbBusy = true → s.package.spdmInner = none →
    let ph := s.package.spdmPhase
    let byte (i : Nat) : Nat := (cellGet s.host.mbIn i).toNat
    let field (i n : Nat) : Nat := leNat (cellsRead s.host.mbIn i n)
    let out (u : State) (i : Nat) : Byte := cellGet u.host.mbOut i
    let answers (i : Instr) (code : Byte) (p : State → Prop) : Prop := ∃ u, exec i s = .next u ∧ p u ∧
      u.host.mbBusy = false ∧ u.host.mbDone = true ∧ cellGet u.host.mbOut 1 = code ∧ u.mem = s.mem ∧ u.tasks = s.tasks
    let errs (i : Instr) (e : Byte) : Prop :=
      answers i 0x7F fun u => cellGet u.host.mbOut 2 = e ∧ u.package = s.package
    let from_ (n : Nat) (i : Instr) (code : Byte) (p : State → Prop) : Prop :=
      (n ≤ ph → answers i code p) ∧ (ph < n → errs i 4)
    let session (i : Instr) (code : Byte) (p : State → Prop) : Prop :=
      (s.package.spdmSession = true → answers i code p) ∧ (s.package.spdmSession = false → errs i 4)
    answers .getVersion 0x04 (fun u => u.package.spdmPhase = 1 ∧ u.package.spdmSession = false ∧
      u.host.mbLenOut = 8 ∧ cellGet u.host.mbOut 7 = 0x13) ∧
    from_ 1 .getCapabilities 0x61 (fun u => u.package.spdmPhase = max ph 2 ∧ (out u 9).getLsbD 0 = false ∧
      (out u 9).getLsbD 2 = false ∧ (out u 9).getLsbD 3 = false) ∧
    from_ 2 .negotiateAlgorithms 0x63 (fun u => u.package.spdmPhase = 3 ∧ out u 12 = cellGet s.host.mbIn 8 &&& 0x80 ∧
      out u 16 = cellGet s.host.mbIn 12 &&& 2) ∧
    from_ 3 .getDigests 0x01 (fun u => u.host.mbLenOut = 100) ∧
    (3 ≤ ph → byte 2 % 16 ≤ 1 → field 6 2 ≤ 4088 → answers .getCertificate 0x02 fun _ => True) ∧
    (3 ≤ ph → byte 2 % 16 ≤ 1 → 4088 < field 6 2 → ∃ u, exec .getCertificate s = .next u ∧ u.host.mbDone = true ∧
      (out u 1 = 2 ∨ out u 1 = 0x7F ∧ out u 2 = 0x0F ∧ u.package.spdmReply ≠ none)) ∧
    (3 ≤ ph → byte 2 % 16 ≤ 1 → answers .challenge 0x03 fun u => u.host.mbLenOut = 230) ∧
    (3 ≤ ph → 1 < byte 2 % 16 → errs .getCertificate 1 ∧ errs .challenge 1) ∧
    (ph < 3 → errs .getCertificate 4 ∧ errs .challenge 4 ∧ errs .getMeasurements 4 ∧ errs .keyExchange 4) ∧
    (3 ≤ ph → byte 3 = 0 → answers .getMeasurements 0x60 fun u => cellGet u.host.mbOut 2 = 17) ∧
    (3 ≤ ph → (byte 3 = 0xFF ∨ 1 ≤ byte 3 ∧ byte 3 ≤ 17) → s.package.alarms.length = 7 → answers .getMeasurements 0x60 fun u =>
      (cellGet u.host.mbOut 4).toNat = if byte 3 = 0xFF then 17 else 1) ∧
    (3 ≤ ph → s.package.spdmSession = false → answers .keyExchange 0x64 fun u => u.package.spdmHandshake = true) ∧
    (s.package.spdmHandshake = true → answers .finish 0x65 fun u => u.package.spdmSession = true) ∧
    (s.package.spdmHandshake = false → errs .finish 4) ∧
    session .heartbeat 0x68 (fun u => u.package = s.package) ∧
    session .keyUpdate 0x69 (fun u => cellGet u.host.mbOut 2 = cellGet s.host.mbIn 2) ∧
    session .endSession 0x6C (fun u => u.package.spdmSession = false) ∧
    (ph < 2 → errs .chunkSend 4 ∧ errs .chunkGet 4) ∧
    (2 ≤ ph →
      let q := field 4 2
      let part := cellsRead s.host.mbIn (if q = 0 then 16 else 12) (min (field 8 4) 4096)
      let whole (c : ChunkBuf) : Prop := q = 0 ∧ c = ⟨byte 3, 1, field 12 4, part⟩ ∨
        q ≠ 0 ∧ ∃ b, s.package.spdmChunks = some b ∧ b.handle = byte 3 ∧ b.seq = q ∧
          c = ⟨byte 3, q + 1, b.size, b.bytes ++ part⟩
      (∀ c, whole c → byte 2 % 2 = 0 → answers .chunkSend 0x05 fun u => u.package = { s.package with spdmChunks := some c }) ∧
      (∀ c, whole c → byte 2 % 2 = 1 → c.bytes.length ≠ c.size → answers .chunkSend 0x7F fun u =>
        out u 2 = 1 ∧ u.package.spdmChunks = none) ∧
      (∀ c, whole c → byte 2 % 2 = 1 → c.bytes.length = c.size → (c.bytes.getD 1 0).toNat ≠ 0x85 →
        (c.bytes.getD 1 0).toNat ≠ 0x86 → ∃ u n, exec .chunkSend s = .next u ∧
          u.package = { s.package with spdmChunks := none, spdmInner := some (byte 3, q, c.bytes) } ∧
          u.host = s.host ∧ (n, State.spdmEvent u, .none) ∈ u.due) ∧
      ((¬∃ c, whole c) → answers .chunkSend 0x7F fun u => out u 2 = 1 ∧ u.package.spdmChunks = none) ∧
      (∀ b, s.package.spdmReply = some b →
        (b.handle = byte 3 → b.seq = q →
          let now := b.bytes.take (if q = 0 then 4080 else 4084)
          answers .chunkGet 0x06 fun u => (out u 3).toNat = byte 3 ∧
            cellsRead u.host.mbOut (if q = 0 then 16 else 12) now.length = now ∧
            u.package.spdmReply = if b.bytes.length ≤ now.length then none
              else some { b with seq := q + 1, bytes := b.bytes.drop now.length }) ∧
        (b.handle ≠ byte 3 ∨ b.seq ≠ q → errs .chunkGet 1)) ∧
      (s.package.spdmReply = none → errs .chunkGet 1)) ∧
    errs .spdmUnsupportedRequest 7 ∧
    (s.isAlarmRaise = true →
      let e := byte 12
      let l := byte 13
      let now := levelCode (s.package.alarms.getD e .log)
      let replies (st : Byte) (as : List AlarmLevel) : Prop := answers .alarmRaise 0x7E fun u =>
        cellGet u.host.mbOut 12 = st ∧ u.package = { s.package with alarms := as }
      (s.package.spdmSession = false → replies 3 s.package.alarms) ∧
      (s.package.spdmSession = true → e ≤ 6 → l ≤ 2 → byte 14 = 0 →
        (l < now → replies 1 s.package.alarms) ∧
        (now ≤ l → replies 0 (s.package.alarms.set e (if l = 0 then .log else if l = 1 then .halt else .erase)))) ∧
      (s.package.spdmSession = true → (6 < e ∨ 2 < l ∨ byte 14 ≠ 0) → replies 2 s.package.alarms))

/-- 03 R66: GO places a request for the Proctor, and clears DONE by the bit that clears it. -/
def Claim.MailboxGoRules : Prop :=
  ∀ (s : State) (a i : Nat) (v : Word), s.arg = .reg a i .full v → s.host.welomUp = true →
    let len : BitVec 13 := v.extractLsb' 16 13
    (v.getLsbD 0 = true → s.host.mbBusy = false → 0 < len.toNat → len.toNat ≤ 4096 →
      ∃ u n, exec .mailboxGo s = .next u ∧ u.host.mbBusy = true ∧ u.host.mbLen = len ∧
        (n, State.spdmEvent s, .none) ∈ u.due) ∧
    (v.getLsbD 0 = true → s.host.mbBusy = false → (len = 0 ∨ 4096 < len.toNat) →
      ∃ u, exec .mailboxGo s = .next u ∧ u.host.mbBusy = false ∧ u.host.mbDone = true ∧ u.host.mbLenOut = 0) ∧
    (v.getLsbD 0 = false → exec .mailboxGo s = .next { s with
      host := { s.host with mbLen := len, mbDone := s.host.mbDone && !v.getLsbD 2 } })

/-- 01 R23 to R26, R29 to R31: alarms act at their level, an excursion's at the level that stood when it began; dies sleep
and wake in steps; the power manager moves its point. What 01 R23 states in microseconds is timed by the model's clock (log
entry 79). -/
def Claim.AlarmPowerRules : Prop :=
  ∀ (s : State),
    let p := s.package
    let shown (k : Nat) : Prop := ∃ e, s.host.events.find? k = some e ∧ e.valid = true
    let actsAt (i : Instr) (lv : AlarmLevel) (code die : Nat) : Prop := ∃ u, exec i s = .next u ∧
      (lv = .log → u.package.phase = p.phase ∧ u.package.keys = p.keys) ∧
      (lv ≠ .log → u.package.phase = .halted ∧ u.package.held = p.released ∧ u.host.welomUp = false ∧
        u.fabric.uet = [] ∧ ∀ n, (u.link n).phase = .down) ∧
      (lv = .erase → u.package.keys = []) ∧
      (∀ k, k < 64 → ¬shown k → (∀ j, j < k → shown j) →
        ∃ e, u.host.events.find? k = some e ∧ e.valid = true ∧ e.source = 1 ∧ e.die = die ∧
          e.code = code + levelCode lv * 256 ∧ e.time = s.cycle - p.bootCycle)
    let level (code : Nat) : AlarmLevel := p.alarms.getD code .log
    let acts (i : Instr) (code die : Nat) : Prop := actsAt i (level code) code die
    let points (i : Instr) (n : Nat) (f : Package → Package) : Prop := ∃ u, exec i s = .next u ∧
      u.package = f { p with point := n, pause := if p.point = n then p.pause else true } ∧
      (p.point ≠ n → (s.cycle + 256, .clockChangePauseEnd, .none) ∈ u.due) ∧ u.mem = s.mem ∧ u.tasks = s.tasks
    (∀ code die, s.arg = .num2 code die →
      (code < 4 → (∀ e ∈ p.excursions, ¬(e.code = code ∧ e.die = die)) → ∃ u, exec .sensorExcursionStart s = .next u ∧
        u.package = { p with excursions := p.excursions ++ [⟨code, die, level code, level 6, s.time⟩] } ∧
        (s.time + usUnits, .sensorExcursionPersist, .num2 code die) ∈ u.timers) ∧
      ∀ e, p.excursions.find? (fun e => e.code == code && e.die == die) = some e →
        (s.time < e.since + usUnits → exec .sensorExcursionPersist s = .next s) ∧
        (e.since + usUnits ≤ s.time → actsAt .sensorExcursionPersist e.level code die) ∧
        actsAt .sensorExcursionClear e.shortLevel 6 die) ∧
    acts .tamperMeshOpen 4 14 ∧
    (s.arg = .flag true → acts .debugPortOpen 5 14) ∧
    (s.arg = .flag false → 2 ≤ p.debugFails → acts .debugPortOpen 5 14) ∧
    (s.arg = .flag false → p.debugFails < 2 → exec .debugPortOpen s =
      .next { s with package := { p with debugFails := p.debugFails + 1 } }) ∧
    (∀ die, s.arg = .num die →
      ((s.dieWake die).awake = true → (s.dieWake die).lastActive + 256 ≤ s.cycle →
        ∃ u, exec .dieQuiet s = .next u ∧ (u.dieWake die).awake = false ∧ (u.dieWake die).clusters = []) ∧
      ((s.dieWake die).awake = true → s.cycle < (s.dieWake die).lastActive + 256 →
        ∃ u, exec .dieQuiet s = .next u ∧ u.package = p ∧
          ((s.dieWake die).lastActive + 256, .dieQuiet, .num die) ∈ u.due) ∧
      ((s.dieWake die).awake = false → ∃ u, exec .dieWakeStart s = .next u ∧ (u.dieWake die).awake = true ∧
        (u.dieWake die).start = some s.cycle ∧ (u.dieWake die).clusters = [0] ∧
        ∀ k, 1 ≤ k → k < 24 → (s.cycle + 8 * k, .clusterWake, .num2 die k) ∈ u.due)) ∧
    (∀ die k, s.arg = .num2 die k → (s.dieWake die).awake = true → k < 24 → k ∉ (s.dieWake die).clusters →
      ∃ u, exec .clusterWake s = .next u ∧ (u.dieWake die).clusters = (s.dieWake die).clusters ++ [k]) ∧
    (∀ modw compw, s.arg = .power modw compw →
      let fastest := min p.topPoint 6
      let reads (q : Package) : Package := { q with modw := modw, compw := compw }
      let zero (q : Package) : Package := { reads q with lowWindows := 0 }
      (p.therm = false → p.topMove = false → 2400 < modw.toNat →
        points .powerWindowEnd (min (p.point + 1) 6) zero) ∧
      (p.therm = false → p.topMove = false → 2280 < modw.toNat → modw.toNat ≤ 2400 →
        points .powerWindowEnd p.point zero) ∧
      (p.therm = false → p.topMove = false → modw.toNat ≤ 2280 → p.lowWindows + 1 < 10 →
        points .powerWindowEnd p.point fun q => { reads q with lowWindows := p.lowWindows + 1 }) ∧
      (p.therm = false → p.topMove = false → modw.toNat ≤ 2280 → 10 ≤ p.lowWindows + 1 →
        points .powerWindowEnd (if fastest < p.point then p.point - 1 else p.point) zero) ∧
      (p.therm = false → p.topMove = true →
        points .powerWindowEnd (max p.point fastest) fun q => { zero q with topMove := false }) ∧
      (p.therm = true → points .powerWindowEnd p.point fun q => { zero q with topMove := false })) ∧
    points .thermalFloorEnter 6 (fun q => { q with therm := true }) ∧
    exec .thermalFloorExit s = .next { s with package := { p with therm := false, lowWindows := 0 } } ∧
    exec .clockChangePauseEnd s = .next { s with package := { p with pause := false } } ∧
    ∀ a i v, s.arg = .reg a i .full v → s.host.welomUp = true → p.phase = .ready →
      let top := v.toNat / 2 ^ 4 % 2 ^ 3
      exec .pwrctlWrite s =
        .next { s with package := { p with topPoint := top, topMove := decide (p.point < min top 6) } }

/-- 02 R32 to R41, R43; 18 R428: flits and packets are taken in their order, asked for again where they fail or where their
time is over, and a lane that fails narrows the link. Times are those of the model's clock (log entry 79), and CHECK of a
payload flit covers the address that log entry 37 names. -/
def Claim.LinkRules : Prop :=
  ∀ (s : State) (port : Nat),
    let l := s.link port
    let sets (i : Instr) (p : State → Link → Prop) : Prop := ∃ u, exec i s = .next u ∧ p u (u.link port) ∧
      (∀ n, n ≠ port → u.link n = s.link n) ∧ u.mem = s.mem ∧ u.tasks = s.tasks
    let downs (i : Instr) : Prop := ∃ u, exec i s = .next u ∧ (u.link port).phase = .down
    let clean (failed : BitVec 16) (w g : Nat) : Prop := l.width < w ∧ w ≤ 2 ∧ g < 2 ^ w ∧
      ∀ lane, lane < 16 → lane / (16 / 2 ^ w) = g → failed.getLsbD lane = false
    let retires (lane : Nat) (u : State) (v : Link) : Prop := v.failed = l.failed ||| (1#16 <<< lane) ∧
      lane ∉ v.lossOfLock ∧ (l.phase = .up → l.uses lane = true →
        v.stopped = true ∧ v.waitAnswer = true ∧ v.answerAt = s.time + 2 * usUnits ∧
        v.ctlOut = l.ctlOut ++ [.retrain v.failed] ∧ (s.time + 2 * usUnits, .retrainAnswerTimeout, .num port) ∈ u.timers)
    (∀ h d, s.arg = .flit port h d → l.phase = .up →
      (flitOk h d = false → sets .flitReceive fun _ v => v.rx = none ∧ v.dropRest = true ∧ v.rxSeq = l.rxSeq ∧
        v.ctlOut = if l.dropRest then l.ctlOut else l.ctlOut ++ [.nack l.rxSeq]) ∧
      (flitOk h d = true → hdrField h 0 2 = 1 → 0 < headerLen d → h.getLsbD 2 = false → sets .flitReceive fun _ v =>
        v.rx = some { head := { headerPacket d with
                        headPoison := h.getLsbD 3 || hdrField h 64 32 != (beatCheck d 0).toNat }
                      cls := hdrClass h, left := headerLen d, beats := [] }) ∧
      (∀ r, flitOk h d = true → hdrField h 0 2 = 2 → l.rx = some r → 1 < r.left → h.getLsbD 2 = false → sets .flitReceive fun _ v =>
        ∃ b : Beat, v.rx = some { r with left := r.left - 1, beats := r.beats ++ [b] } ∧ b.data = d ∧
          (h.getLsbD 3 = true → b.poison = true))) ∧
    (∀ p ackseq, s.arg = .linkPacket port p ackseq → l.phase = .up →
      (∀ i, p.pseq = l.rxSeq + 1 → packetEvent p.op.toNat = some i → p.dst = s.ownChip (portHub port) →
        sets .linkPacketReceive fun u v =>
          v.rxSeq = p.pseq ∧ (s.cycle, i, packetArg (portHub port) { p with via := none }) ∈ u.due) ∧
      (∀ k : BitVec 16, p.pseq = l.rxSeq + k →
        (1 < k.toNat → k.toNat ≤ 32768 → sets .linkPacketReceive fun _ v =>
          v.rxSeq = l.rxSeq ∧ v.ctlOut = l.ctlOut ++ [.nack l.rxSeq]) ∧
        (k.toNat = 0 ∨ 32768 < k.toNat → sets .linkPacketReceive fun _ v =>
          v.rxSeq = l.rxSeq ∧ v.ctlOut = l.ctlOut ∧ v.duplicates = l.duplicates + 1))) ∧
    (∀ x, s.arg = .seq port x → l.phase = .up →
      let kept := (l.ackTo x).replay
      (0 < (x - l.acked).toNat → (x - l.acked).toNat < 32768 → (x - l.acked).toNat ≤ (l.txSeq - l.acked).toNat →
        ∀ p ∈ kept, p ∈ l.replay ∧ p.pseq ≠ x) ∧
      (l.replays + kept.length < 65536 →
        (l.stopped = false → sets .nack fun _ v => v.replays = l.replays + kept.length) ∧
        (l.stopped = true → l.waitAnswer = false →
          sets .resume fun _ v => v.replays = l.replays + kept.length ∧ v.stopped = false)) ∧
      (∀ w g, clean (l.failed ||| x) w g → (∀ w' g', clean (l.failed ||| x) w' g' → w ≤ w' ∧ (w' = w → g ≤ g')) →
        sets .retrain fun u v => v.phase = .retraining ∧ v.failed = l.failed ||| x ∧ v.stopped = true ∧
          v.ctlOut = (if l.waitAnswer then l.ctlOut else l.ctlOut ++ [.retrain v.failed]) ∧ v.chosen = some (w, g) ∧
          v.equalAt = s.time + 3 * usUnits ∧
          ∃ b, (s.time + 3 * usUnits, .equalisationDone, .numFlag port b) ∈ u.timers) ∧
      ((¬∃ w g, clean (l.failed ||| x) w g) → downs .retrain)) ∧
    (s.arg = .num port →
      (port < 18 → l.phase = .down → portHub port ∉ s.package.held → sets .linkTrained fun _ v => v.phase = .training) ∧
      (∀ at_, l.replayAt = some at_ →
        (at_ ≤ s.time → l.phase = .up → l.replay ≠ [] → l.replays + l.replay.length < 65536 →
          sets .replayTimeout fun u v => v.replays = l.replays + l.replay.length ∧
            v.replayAt = some (s.time + 4096 * l.flitTime) ∧
            (s.time + 4096 * l.flitTime, .replayTimeout, .num port) ∈ u.timers) ∧
        (s.time < at_ → exec .replayTimeout s = .next s)) ∧
      (l.waitAnswer = true → l.answerAt ≤ s.time → downs .retrainAnswerTimeout) ∧
      (l.waitAnswer = false ∨ s.time < l.answerAt → exec .retrainAnswerTimeout s = .next s) ∧
      (65536 ≤ l.sinceResync → sets .resyncSend fun _ v =>
        v = { l with sinceResync := l.sinceResync - 65536, ctlOut := l.ctlOut ++ [.resync l.sentReq l.sentRpl] })) ∧
    (∀ lane, s.arg = .num2 port lane → lane < 16 →
      (l.phase = .up ∨ l.phase = .retraining → l.failed.getLsbD lane = false → lane ∉ l.lossOfLock →
        sets .laneLossOfLock fun u v => v = { l with lossOfLock := l.lossOfLock ++ [lane] } ∧
          ∃ n, n ≤ 256 * l.flitTime ∧ (s.time + n, .laneRetire, .num2 port lane) ∈ u.timers) ∧
      (lane ∈ l.lossOfLock → sets .laneRetire fun u v => retires lane u v) ∧
      (l.phase = .up → l.failed.getLsbD lane = false → sets .laneSymbolRateExpiry fun u v => retires lane u v)) ∧
    (∀ ok, s.arg = .numFlag port ok → l.phase = .retraining → l.equalAt ≤ s.time →
      (∀ w g, ok = true → l.chosen = some (w, g) → sets .equalisationDone fun _ v =>
        v.phase = .up ∧ v.width = w ∧ v.group = g ∧ v.degraded = true ∧
        (groupMask w g &&& l.failed = 0 → v.ctlOut = l.ctlOut ++ [.resume l.rxSeq]) ∧
        (groupMask w g &&& l.failed ≠ 0 → v.ctlOut = l.ctlOut ++ [.resume l.rxSeq, .retrain l.failed] ∧
          v.stopped = true ∧ v.waitAnswer = true)) ∧
      (ok = false ∨ l.chosen = none → downs .equalisationDone)) ∧
    (∀ delay chip epoch, s.arg = .linkUp port delay [(chip, epoch)] → port < 18 →
      l.phase = .down ∨ l.phase = .training → portHub port ∉ s.package.held →
        ∃ u, exec .linkTrained s = .next u ∧ (u.link port).phase = .up ∧ (u.link port).delay = delay ∧
          (u.link port).width = 0 ∧ u.fabric.peerEpochs.getD 0 chip = epoch) ∧
    (∀ req rpl, s.arg = .num3 port req rpl → l.phase = .up →
      (l.gotReq ≠ req ∨ l.gotRpl ≠ rpl → sets .resync fun _ v => v.gotReq = max l.gotReq req ∧
        v.gotRpl = max l.gotRpl rpl ∧ v.freedReq = l.freedReq + (req - l.gotReq) ∧
        v.freedRpl = l.freedRpl + (rpl - l.gotRpl) ∧ v.resyncFix = min (l.resyncFix + 1) 255))

/-- 02 R44: a hub's registers take what is written as the rules limit it, and its forward cache flushes. -/
def Claim.HubRegisterRules : Prop :=
  ∀ (s : State), s.host.welomUp = true → s.package.phase = .ready → ∀ hub, hub = 4 ∨ hub = 5 →
    let sets (i : Instr) (p : Hub → Prop) : Prop := ∃ u, exec i s = .next u ∧ p (u.hubOf hub) ∧
      (∀ n, n ≠ hub → u.hubOf n = s.hubOf n) ∧ u.mem = s.mem ∧ u.tasks = s.tasks ∧ u.fabric.links = s.fabric.links
    let h := s.hubOf hub
    (∀ a v, s.arg = .reg hub a .full v →
      let chip : BitVec 12 := v.extractLsb' 0 12
      ((∀ p, p < 18 → (s.link p).phase = .down) → chip.toNat ≤ 511 →
        sets .fabidWrite fun x => x = { h with chip := chip, domain := v.extractLsb' 12 9 }) ∧
      ((∃ p, p < 18 ∧ (s.link p).phase ≠ .down) ∨ 511 < chip.toNat → exec .fabidWrite s = .next s) ∧
      (∀ w : BitVec 23, a < 512 → w = v.setWidth 23 →
        let used (k : Nat) : Prop := k ≤ (w.extractLsb' 1 2).toNat
        ((∀ k, used k → (w.extractLsb' (3 + 5 * k) 5).toNat ≤ 17) → sets .routeWrite fun x =>
          x.routes.getD 0 a = w ∧ (∀ c, c ≠ a → x.routes.getD 0 c = h.routes.getD 0 c) ∧ x.chip = h.chip) ∧
        ((∃ k, used k ∧ 17 < (w.extractLsb' (3 + 5 * k) 5).toNat) → exec .routeWrite s = .next s))) ∧
    (∀ f a v, f < 4096 → s.arg = .reg f a .full v → ∃ u, exec .fctxmapWrite s = .next u ∧
      u.fctxWord f = v.setWidth 7 ∧ ∀ n, n ≠ f → u.fctxWord n = s.fctxWord n) ∧
    (s.arg = .num hub →
      (∃ u n, exec .fwdCacheFlush s = .next u ∧ u.hubOf hub = { h with flushBusy := true, fwd := [] } ∧
        (n, .fwdCacheFlushDone, .num hub) ∈ u.due) ∧
      sets .fwdCacheFlushDone fun x => x = { h with flushBusy := false })

/-- 02 R45, R46, R54, R55: what a chip does with the requests that reach it: once each, in the epoch they name; a read and
an atomic are answered with what stood at the address, and a write with its acknowledgement. -/
def Claim.RemoteTargetRules : Prop :=
  ∀ (s : State) (hub : Nat) (p : Packet) (i : Instr), s.arg = .packet hub p → p.mapped = none → p.headPoison = false →
    (i, p.op) ∈ [(Instr.readRequest, 0x01#8), (.writePacket, 0x03#8), (.atomicRequest, 0x05#8)] →
    let f := (s.filter? p).getD { newest := p.reqid }
    let age := (f.newest - p.reqid).toNat
    let n := pktBytes p
    let tells (op : BitVec 8) (q : Packet → Prop) (keep : State → Prop) : Prop := ∃ u r, exec i s = .next u ∧ keep u ∧
      r.op = op ∧ r.dst = p.src ∧ r.srcunit = p.srcunit ∧ r.reqid = p.reqid ∧ r.tag = p.tag ∧ q r ∧ s.Sends u hub r
    let kept (u : State) : Prop := u.mem = s.mem ∧ u.tasks = s.tasks ∧ u.fabric.filters = s.fabric.filters ∧
      u.fabric.hubs = s.fabric.hubs
    let done (u : State) : Prop := u.mem = s.mem ∧ u.tasks = s.tasks ∧
      ∃ g r, u.filter? p = some g ∧ (p.reqid, r) ∈ g.done ∧ p.reqid ∉ g.inProgress
    (p.tepoch ≠ (s.hubOf hub).epoch → tells 0x08 (fun r => r.opnd0 = 2) kept) ∧
    (p.tepoch = (s.hubOf hub).epoch →
      (4096 ≤ age → age < 2 ^ 31 → tells 0x08 (fun r => r.opnd0 = 2) kept) ∧
      (age < 4096 ∨ 2 ^ 31 ≤ age →
        (∀ r j, f.done.find? (·.1 == p.reqid) = some (p.reqid, r) → packetEvent r.op.toNat = some j →
          ∃ u, exec i s = .next u ∧ kept u ∧ s.Sends u hub r) ∧
        ((∀ d ∈ f.done, d.1 ≠ p.reqid) → p.reqid ∈ f.inProgress → exec i s = .next s) ∧
        ((∀ d ∈ f.done, d.1 ≠ p.reqid) → p.reqid ∉ f.inProgress → p.slipn = 0 →
          (s.fctxOf p.fctx = none → tells 0x08 (fun r => r.opnd0 = 4) done) ∧
          (∀ ctx, s.fctxOf p.fctx = some ctx →
            let found := s.targetCheck ctx p.vaddr.toNat n (pktKind p) (atomOfPkt p).pcie
            (∀ code, found = .deny code → tells 0x08 (fun r => r.opnd0 = BitVec.ofNat 64 (1 + code * 256)) done) ∧
            (∀ w, found = .moved w → tells 0x07 (fun r => r.opnd0 = w) done) ∧
            (∀ cow level, found = .page cow level → ∃ u w, exec i s = .next u ∧ u.mem = s.mem ∧ u.tasks = s.tasks ∧
              w ∈ u.fabric.targetWaits ∧ w.pkt = { p with mapped := some ctx } ∧ w.hub = hub ∧ w.ctx = ctx ∧ w.va = p.vaddr.toNat ∧ w.cow = cow) ∧
            (∀ c o, found = .at_ (.sram c o) → n ≤ 2048 →
              (i = .readRequest → tells 0x02 (fun r => (r.payload.flatMap fun b => beatBytes b.data).take n =
                cellsRead s.mem.sram (sramKey c o) n) done) ∧
              (s.Inv → i = .writePacket → (∀ b ∈ p.payload, b.poison = false) → tells 0x04 (fun r =>
                  r.slip0 = if p.wantslip = true then p.slip0 else 0) fun u =>
                cellsRead u.mem.sram (sramKey c o) (payloadBytes p).length = payloadBytes p ∧
                ∀ a, a < sramKey c o ∨ sramKey c o + (payloadBytes p).length ≤ a →
                  cellGet u.mem.sram a = cellGet s.mem.sram a)) ∧
            (∀ loc, found = .at_ loc → s.Inv → i = .atomicRequest → loc.isHere = true →
              (∀ pa pl e, loc = .phys pa pl e → s.poisonedLine pa n = none ∧
                ∀ l ∈ linesOf pa n, s.lineReadable (ctxSlot ctx) l = true) →
              let old := leNat (s.bytesAt loc n)
              tells 0x06 (fun r => r.opnd0 = BitVec.ofNat 64 old ∧ r.opnd1 = BitVec.ofNat 64 (old / 2 ^ 64)) fun u =>
                leNat (u.bytesAt loc n) = (((atomOfPkt p).eval old).getD old) % 2 ^ (8 * n) ∧
                SameBytesBut [loc] n s u))) ∧
        ((∀ d ∈ f.done, d.1 ≠ p.reqid) → p.reqid ∉ f.inProgress → i = .writePacket → p.slipn ≠ 0 →
          s.fctxOf p.fctx ≠ none → writeId p ∉ (s.hubOf hub).holdHeld →
          256 ≤ (s.hubOf hub).hold.length + (s.hubOf hub).holdHeld.length ∨ (s.hubOf hub).holdTickets ≠ [] →
          tells 0x08 (fun r => r.opnd0 = 3) fun u => u.mem = s.mem ∧ (u.hubOf hub).hold = (s.hubOf hub).hold ∧
            ((writeId p) ∈ (s.hubOf hub).holdRefused ∨ writeId p ∈ (s.hubOf hub).holdTickets →
              writeId p ∈ (u.hubOf hub).holdTickets))))

/-- 02 R45, R46, R54, R55; 06 R160: what the requester does with the replies: a value lands, a failed request ends in a
deferred fault with TRAPADDR its address, and what may be sent again is. -/
def Claim.RemoteReplyRules : Prop :=
  ∀ (s : State) (r : RemoteReq),
    let gone (u : State) : Prop := ∀ x ∈ u.fabric.remotes, x.id ≠ r.id
    let fails (i : Instr) (code extra : Nat) : Prop := ∀ tid t, r.use.tid? = some tid → s.task? tid = some t →
      t.wait = none → t.faults.length < 8 → ∃ u y f, exec i s = .next u ∧ gone u ∧ u.task? tid = some y ∧
        y.faults = t.faults ++ [f] ∧ f.code = BitVec.ofNat 16 code ∧ f.addr = r.pkt.vaddr.setWidth 64 ∧
        f.info = BitVec.ofNat 64 (r.pkt.tag.toNat + extra * 2 ^ 16) ∧ f.deferred = true
    let goes (i : Instr) (p : RemoteReq → Prop) : Prop := ∃ u, exec i s = .next u ∧
      ∃ x ∈ u.fabric.remotes, x.id = r.id ∧ x.use = r.use ∧ p x
    (∀ hub p, s.arg = .packet hub p → s.remoteOf p = some r →
      (∀ tid id lane n sext own t e, r.use = .load tid id lane n sext own → s.task? tid = some t → t.phase = .bound →
        t.infl.find? (·.id == id) = some e → e.toShadow = false →
        let lands (i : Instr) (v : RegVal) : Prop := ∃ u y, exec i s = .next u ∧ gone u ∧ SameBytes s u ∧
          u.task? tid = some y ∧ y.r = t.r.write e.reg e.mask v ∧ ∀ x ∈ y.infl, x.id ≠ id
        (p.headPoison = false → (∀ b ∈ p.payload, b.poison = false) → lands .readReply (loadValue lane sext ((payloadBytes p).take n) own)) ∧
        (r.pkt.op = 0x05 → p.headPoison = false → lands .atomicReply
          (loadValue lane sext (natLe n (p.opnd0.toNat + p.opnd1.toNat * 2 ^ 64)) []))) ∧
      (∀ tid lo hi t e g, r.use = .pair tid lo hi → r.pkt.op = 0x05 → p.headPoison = false → lo ≠ hi → s.task? tid = some t → t.phase = .bound →
        t.infl.find? (·.id == lo) = some e → t.infl.find? (·.id == hi) = some g → e.toShadow = false →
        g.toShadow = false → ∃ u y, exec .atomicReply s = .next u ∧ gone u ∧ SameBytes s u ∧ u.task? tid = some y ∧
          y.r = (t.r.write e.reg e.mask (.word p.opnd0)).write g.reg g.mask (.word p.opnd1)) ∧
      (r.pkt.op = 0x03 → ∃ u, exec .writeAcknowledgement s = .next u ∧ gone u) ∧
      (p.opnd0.toNat % 256 = 1 → fails .statusReply 0x0204 (p.opnd0.toNat / 256 % 65536)) ∧
      (p.opnd0.toNat % 256 = 2 → r.pkt.op ≠ 0x01 → fails .statusReply 0x0202 0) ∧
      (p.opnd0.toNat % 256 = 2 → r.pkt.op = 0x01 → goes .statusReply fun x =>
        x.pkt.reqid = s.fabric.reqids.getD 0 r.pkt.srcunit.toNat ∧ x.reissues = 0) ∧
      (p.opnd0.toNat % 256 = 3 → goes .statusReply (fun x => x.refusals = r.refusals + 1) ∧
        ∃ u, exec .statusReply s = .next u ∧ (s.cycle + 4096, .holdFullRetry, .num r.id) ∈ u.due) ∧
      (p.opnd0.toNat % 256 = 4 → fails .statusReply 0x0204 0) ∧
      (p.opnd0.toNat % 256 = 5 → fails .statusReply 0x0205 0) ∧
      (p.opnd0.toNat % 4 = 0 → p.opnd0.toNat / 4 % 4 ≠ 3 →
        let chip : BitVec 12 := p.opnd0.extractLsb' 4 12
        (r.forwards < 4 → chip = s.ownChip r.hub ∨ (s.route r.hub chip).getLsbD 0 = true → goes .forwardingReply (fun x => x.forwards = r.forwards + 1 ∧
            x.pkt.dst = p.opnd0.extractLsb' 4 12) ∧
          ∃ u e, exec .forwardingReply s = .next u ∧ (u.hubOf r.hub).fwd.head? = some e ∧ e.fctx = r.pkt.fctx ∧
            e.chip = r.pkt.dst ∧ e.newChip = p.opnd0.extractLsb' 4 12 ∧ e.vpage = r.pkt.vaddr.toNat / 65536 ∧
            e.pgsz = p.opnd0.toNat / 4 % 4) ∧
        (4 ≤ r.forwards → fails .forwardingReply 0x0203 0))) ∧
    (s.arg = .num r.id → s.fabric.remotes.find? (·.id == r.id) = some r →
      let again (x : RemoteReq) : Prop := x.deadline = s.cycle + (s.hubOf (s.requestHub r.hub)).remto ∧
        x.heldAtUnit = false
      (0 < r.refusals → goes .holdFullRetry again) ∧
      (r.heldAtUnit = false → (∀ tid q, r.use ≠ .localHold tid q) → r.deadline ≤ s.cycle →
        (r.reissues < 4 → goes .remtoExpiry fun x => again x ∧ x.reissues = r.reissues + 1) ∧
        (4 ≤ r.reissues → fails .remtoExpiry 0x0201 0)))

/-- 02 R50 to R55: slips are asked about, answered and freed; held writes go when their slips have landed and are dropped
when one has expired or their time is over. -/
def Claim.SlipTableRules : Prop :=
  ∀ (s : State),
    (∀ i, s.arg = .num i → (s.slipEntry i).phase = .landed ∨ (s.slipEntry i).phase = .expired →
      (s.slipEntry i).leftAt + 1048576 ≤ s.cycle →
        exec .slipEntryFree s = .next (s.modSlip i fun e => { e with phase := .free })) ∧
    (∀ h p, s.arg = .packet h p →
      let t := p.slip0
      let i := t.toNat / 2 ^ 8 % 2 ^ 12
      let e := s.slipEntry i
      let hub := if i < 2048 then 4 else 5
      let answer (a : Nat) (interest : BitVec 512) : Prop := ∃ u r, exec .slipQuery s = .next u ∧ s.Sends u hub r ∧
        r.op = 0x0A ∧ r.dst = p.src ∧ r.slip0 = t ∧ r.opnd0 = BitVec.ofNat 64 a ∧
        u.slipEntry i = { e with interest := interest } ∧ u.mem = s.mem ∧ u.tasks = s.tasks
      (hub ∉ s.package.held →
        (e.count = t.setWidth 8 → e.phase = .pending → answer 1 (e.interest ||| (1#512 <<< p.src.toNat))) ∧
        (e.count = t.setWidth 8 → e.phase = .landed → answer 0 e.interest) ∧
        (e.count = t.setWidth 8 → e.phase = .expired → answer 2 e.interest) ∧
        (e.count ≠ t.setWidth 8 ∨ e.phase = .free →
          answer (if e.expmap.getLsbD (t.toNat % 256) then 2 else 0) e.interest)) ∧
      (hub ∈ s.package.held → exec .slipQuery s = .next s) ∧
      (∀ (ins : Instr) (landed : Bool),
        (ins = .landedNotice ∧ landed = !p.opnd0.getLsbD 0) ∨
          (ins = .slipAnswer ∧ ((landed = true ∧ p.opnd0.toNat % 4 = 0) ∨ (landed = false ∧ p.opnd0.toNat % 4 = 2))) →
        ∃ u, exec ins s = .next u ∧ ∀ g, g = 4 ∨ g = 5 → ∀ w ∈ (s.hubOf g).hold,
          (landed = true → w.waiting = [t] → ∀ x ∈ (u.hubOf g).hold, x.id ≠ w.id) ∧
          (landed = false → t ∈ w.waiting → ∀ x ∈ (u.hubOf g).hold, x.id ≠ w.id) ∧
          (landed = false → t ∈ w.waiting → (s.hubOf g).hold = [w] → (s.hubOf (9 - g)).hold = [] →
            ∃ r, s.Sends u g r ∧ r.op = 0x08 ∧ r.dst = w.pkt.src ∧ r.reqid = w.pkt.reqid ∧ r.opnd0 = 5))) ∧
    (∀ hub id w, s.arg = .num2 hub id → (s.hubOf hub).hold.find? (·.id == id) = some w →
      ∃ u r, exec .holdLimitExpiry s = .next u ∧ s.Sends u hub r ∧ r.op = 0x08 ∧ r.dst = w.pkt.src ∧
        r.reqid = w.pkt.reqid ∧ r.opnd0 = 5 ∧ u.mem = s.mem ∧ u.tasks = s.tasks ∧
        ∀ x, x ∈ (u.hubOf hub).hold ↔ x ∈ (s.hubOf hub).hold ∧ x.id ≠ id)

/-- 02 R47 to R49: a timetable is loaded whole into the bank not in force, comes into force at a slot 0, and lets a
circuit's flit cross in its slot (which router comes next on its circuit is the model's reading, log entry 45). -/
def Claim.TimetableRules : Prop :=
  ∀ (s : State) (r : RouterOut),
    let t := s.timetable r
    let others (u : State) : Prop := (∀ q, q ≠ r → u.timetable q = s.timetable q) ∧ u.mem = s.mem ∧ u.tasks = s.tasks
    (∀ entries n, s.arg = .bank r entries n → s.host.welomUp = true → s.package.phase = .ready →
      (routerThere r = true → s.ttConflict r entries = false →
        ∃ u m k, exec .timetableBankWrite s = .next u ∧ others u ∧ (u.timetable r).now = t.now ∧
          (∀ i, i < 256 → (u.timetable r).other[i]? = some (entries.getD i 0)) ∧ (u.timetable r).switchAt = some n ∧
          (m, .timetableBankSwitch, .router r k) ∈ (if r.kind = 2 then u.timers else u.due) ∧ k % 256 = 0 ∧ n ≤ k) ∧
      (routerThere r = false ∨ s.ttConflict r entries = true → exec .timetableBankWrite s = .next s)) ∧
    (∀ n k, s.arg = .router r n → t.switchAt = some k → n % 256 = 0 → k ≤ n →
      ∃ u, exec .timetableBankSwitch s = .next u ∧ (s.fabric.circuitWait = [] → others u) ∧
        (u.timetable r).now = t.other ∧ (u.timetable r).other = t.now ∧ (u.timetable r).switchAt = none) ∧
    (∀ input circuit n p, s.arg = .circuit r input circuit n p → (∀ f ∈ s.fabric.circuitWait, f.router ≠ r) →
      let e := t.now.getD (n % 256) 0
      let fits : Prop := e.getLsbD 0 = true ∧ (e.extractLsb' 2 6).toNat = input ∧ (e.extractLsb' 8 12).toNat = circuit
      let takes (p' : State → Prop) : Prop := ∃ u, exec .circuitData s = .next u ∧ u.mem = s.mem ∧ u.tasks = s.tasks ∧ p' u
      let busy : Nat := if r.kind = 2 then 2 ^ (s.link r.index).width else 1
      (fits → t.free ≤ n → p.payload = [] → takes fun u => u.fabric.circuitOut = (r, p) :: s.fabric.circuitOut ∧
        u.fabric.circuitWait = s.fabric.circuitWait ∧ (u.timetable r).free = n + busy) ∧
      (fits → t.free ≤ n → p.payload ≠ [] → takes fun u => u.fabric.circuitOut = s.fabric.circuitOut ∧
        u.fabric.circuitWait = s.fabric.circuitWait ++ [⟨r, input, circuit, p, p.payload.length⟩] ∧
        (u.timetable r).free = n + busy) ∧
      (¬fits ∨ n < t.free → takes fun u => u.fabric.circuitOut = s.fabric.circuitOut ∧ u.timetable r = t ∧
        u.fabric.circuitWait = s.fabric.circuitWait ++ [⟨r, input, circuit, p, 1 + p.payload.length⟩])) ∧
    (∀ hub p, s.arg = .packet hub p → exec .circuitData s =
      .next { s with fabric := { s.fabric with circuitIn := (hub, p) :: s.fabric.circuitIn } })

/-- 02 R56, R57; 15 R413: collective data is kept, taken or discarded, and a collective is stopped by an abort frame or when
its limit is over, with its status in its block. -/
def Claim.CollectiveRules : Prop :=
  ∀ (s : State) (o : EngineOp) (c : CollState), s.Inv →
    let key (off : Nat) : Nat := sramKey (windowPlace off).1 (windowPlace off).2
    let stops (ins : Instr) (st : Nat) : Prop := ∀ at_, (o.eop = 0x0B ∧ at_ = 0x60) ∨ (o.eop = 0x0A ∧ at_ = 0x68) →
      o.pblk % 128 = 0 → o.roll % 16 = 0 → (key o.roll + 16 ≤ key o.pblk ∨ key o.pblk + 128 ≤ key o.roll) →
      ∃ u, exec ins s = .next u ∧ u.windowRead (o.pblk + at_) 4 = natLe 4 st ∧ (c.collid, s.cycle) ∈ u.fabric.collDone ∧
        ∀ x ∈ u.engines.ops, x.id = o.id → x.coll = none ∧ (x.ended = true ∨ x.release.isSome = true)
    (∀ hub p b, s.arg = .coll hub p b →
      let x : CollPart := ⟨p.src, if p.circuit then 0 else 1, 0, b⟩
      (s.collOp p.collid = some (o, c) → collAgrees o b = true → ∃ u y, exec .collectiveData s = .next u ∧
        y ∈ u.engines.ops ∧ y = { o with coll := some { c with arrived := c.arrived ++ [x], lastProgress := s.cycle } } ∧
        (s.cycle, .engineComplete, .num o.id) ∈ u.due ∧ u.mem = s.mem) ∧
      (s.collOp p.collid = some (o, c) → collAgrees o b = false → stops .collectiveData 1) ∧
      (s.collOp p.collid = none →
        ((∃ d ∈ s.fabric.collDone, d.1 = p.collid ∧ s.cycle ≤ d.2 + 1048576) → exec .collectiveData s = .next s) ∧
        ((∀ d ∈ s.fabric.collDone, d.1 = p.collid → d.2 + 1048576 < s.cycle) → ∃ u, exec .collectiveData s = .next u ∧
          u = { s with fabric := { s.fabric with collEarly := s.fabric.collEarly ++ [(p.collid, x)] } }))) ∧
    (∀ hub p, s.arg = .packet hub p →
      (s.collOp p.collid = some (o, c) → stops .collectiveAbortFrame 1) ∧
      (s.collOp p.collid = none → exec .collectiveAbortFrame s = .next s)) ∧
    (s.arg = .num o.id → s.engines.ops.find? (·.id == o.id) = some o → o.coll = some c →
      (c.lastProgress + c.limit ≤ s.cycle → stops .collectiveLimitTimeout 2) ∧
      (s.cycle < c.lastProgress + c.limit → ∃ u, exec .collectiveLimitTimeout s = .next u ∧
        (c.lastProgress + c.limit, .collectiveLimitTimeout, .num o.id) ∈ u.due ∧ u.engines = s.engines ∧ u.mem = s.mem))

/-- 02 R58 to R60; 03 R83; 01 R19: the pool of the CXL ports, the group of dies that goes on, the Ultra Ethernet ports, and
the adapter's own reset. -/
def Claim.EdgeRules : Prop :=
  ∀ (s : State),
    (∀ l, s.arg = .devs l → (l.map (·.port)).Nodup → (∀ d ∈ l, d.port < 4) →
      (l.map fun d => d.capacity + d.logical.sum).sum ≤ 2 ^ 44 →
        ∃ u, exec .cxlEnumeration s = .next u ∧ u.mem = s.mem ∧ u.tasks = s.tasks ∧
          u.fabric.cxlWays ∈ u.cxlWaysAllowed ∧ ∀ d ∈ l,
            (d.typeNo = 3 → ∃ n, (if d.logical = [] then n = d.capacity else n ∈ d.logical) ∧
              u.fabric.cxl.getD {} d.port = { enabled := true, capacity := n }) ∧
            (d.typeNo ≠ 3 → u.fabric.cxl.getD {} d.port = { enabled := false, capacity := 0 })) ∧
    (s.arg = .none → s.package.phase = .ready → s.fabric.girthDown.length < 2 → ∃ u, exec .girthCheck s = .next u ∧
      u.package = s.package ∧ u.fabric = s.fabric ∧ (s.time + 10 * usUnits, .girthCheck, .none) ∈ u.timers) ∧
    (∀ failed reach, s.arg = .girth failed reach →
      let live (d : Nat) : Prop := d ∈ s.package.released ∧ d ∉ s.package.held
      let next (a b : Nat) : Prop := live b ∧ girthLinked b a = true ∧ (a, b) ∉ failed ∧ (b, a) ∉ failed
      let group (h d : Nat) : Prop := Relation.ReflTransGen next h d
      let reaches (h : Nat) : Prop := ∃ d ∈ reach, group h d
      let goesOn (u : State) (h : Nat) : Prop :=
        (∀ d, d ∈ u.package.held ↔ d ∈ s.package.held ∨ (live d ∧ ¬group h d)) ∧
        u.host.activeHub = (if h = 4 then s.host.activeHub else some 5) ∧
        u.host.welomUp = if h = 4 then s.host.welomUp else false
      (∀ d ∈ s.package.released, d < 14) → live 4 → live 5 →
      (failed.length < 2 ∨ group 4 5 → exec .girthCheck s = .next { s with fabric :=
        { s.fabric with girthDown := failed, sidebandDown := (List.range 14).filter fun d => !reach.contains d } }) ∧
      (2 ≤ failed.length → ¬group 4 5 → ∃ u, exec .girthCheck s = .next u ∧ u.fabric.girthDown = failed ∧
        (reaches 4 → ¬reaches 5 → goesOn u 4) ∧ (¬reaches 4 → reaches 5 → goesOn u 5) ∧
        (reaches 4 → reaches 5 → goesOn u 4 ∨ goesOn u 5) ∧
        (¬reaches 4 → ¬reaches 5 → (∀ d, live d → d ∈ u.package.held) ∧ u.host.activeHub = none ∧ u.host.welomUp = false))) ∧
    (∀ port up, port < 8 → s.arg = .numFlag port up → ∃ u, exec .ultraEthernetPortState s = .next u ∧
      u.fabric.uet.getD false port = (up && s.package.phase != .halted) ∧
      ∀ n, n ≠ port → u.fabric.uet.getD false n = s.fabric.uet.getD false n) ∧
    (∀ port h p, s.arg = .uet port h p →
      let hub := if port < 4 then 4 else 5
      let conn := UetPacket.conn p
      let c := s.uetConn hub conn
      let takes (p' : State → Prop) : Prop := ∃ u, exec .ultraEthernetPacket s = .next u ∧ p' u
      let sent (u : State) (q : UetPacket) : Prop := ∃ hd, (hub, hd, q) ∈ u.fabric.uetOut
      let reached : Prop := s.fabric.uet.getD false port = true ∧ hub ∉ s.package.held ∧ s.package.phase ≠ .halted ∧
        h.auth = true ∧ UetPacket.fits p = true
      (¬reached → exec .ultraEthernetPacket s = .next s) ∧
      (reached → port < 8 →
        ((∀ k psn again, p ≠ .ack k psn again) → h.trimmed = true → takes fun u => sent u (.ack conn h.psn true) ∧
          u.mem = s.mem ∧ u.tasks = s.tasks) ∧
        ((∀ k psn again, p ≠ .ack k psn again) → h.trimmed = false → h.psn < c.next → takes fun u =>
          sent u (.ack conn h.psn false) ∧ u.mem = s.mem ∧ u.tasks = s.tasks ∧ u.engines = s.engines) ∧
        (∀ psn, p = .ack conn psn false → exec .ultraEthernetPacket s =
          .next (s.modUet hub conn fun c => { c with unacked := c.unacked.filter (·.1 != psn) })) ∧
        (∀ psn q, p = .ack conn psn true → c.unacked.find? (·.1 == psn) = some (psn, q) → takes fun u => sent u q) ∧
        (h.trimmed = false → h.psn = c.next → c.taken = [] → c.early = [] →
          (∀ src dst collid b, p = .send conn src dst collid 0 1 b →
            (dst ≠ s.ownChip hub → takes fun u => sent u (.ack conn h.psn false) ∧ u.mem = s.mem ∧
              u.engines = s.engines ∧ u.fabric.collEarly = s.fabric.collEarly) ∧
            (dst = s.ownChip hub → s.collOp collid = none → (∀ d ∈ s.fabric.collDone, d.1 ≠ collid) → takes fun u =>
              sent u (.ack conn h.psn false) ∧
              u.fabric.collEarly = s.fabric.collEarly ++ [(collid, ⟨src, 2, conn, b⟩)])) ∧
          (∀ ctx va bs core off, p = .rmaWrite conn ctx va bs → s.Inv → (s.ctx ctx).phase = .live →
            s.ctxAccess ctx va bs.length .store = .ok (.sram core off) → takes fun u => sent u (.ack conn h.psn false) ∧
              u.bytesAt (.sram core off) bs.length = bs ∧
              ∀ a, a < sramKey core off ∨ sramKey core off + bs.length ≤ a →
                cellGet u.mem.sram a = cellGet s.mem.sram a) ∧
          (∀ ctx va n core off, p = .rmaRead conn ctx va n → (s.ctx ctx).phase = .live →
            s.ctxAccess ctx va n .load = .ok (.sram core off) → takes fun u => sent u (.ack conn h.psn false) ∧
              sent u (.rmaData conn va (s.bytesAt (.sram core off) n)))))) ∧
    exec .adapterUnsupportedAccess s = .next s ∧
    exec .adapterEndpointReset s = .next { s with host := { s.host with welomUp := false, msixTable := [] } }

/-- 15 R406 to R409; 10 R245: an engine operation does its work: a copy from a scratchpad to memory moves its bytes, and
the roll receives them; a block that breaks its map ends it with ENGINE_PARAM. -/
def Claim.EngineWorkResults : Prop :=
  ∀ (s : State) (o : EngineOp), s.Inv → s.arg = .num o.id → s.engines.ops.find? (·.id == o.id) = some o →
    let key (off : Nat) : Nat := sramKey (windowPlace off).1 (windowPlace off).2
    let roll (x : State) : Roll := x.roll (windowPlace o.roll).1 (windowPlace o.roll).2
    let src := o.addr 0x10
    let dst := o.addr 0x18
    let n := o.field 0x20 4
    let ends (r : Roll) (faddr : Nat) (p : State → Prop) : Prop := ∃ u, exec .engineComplete s = .next u ∧ p u ∧
      roll u = r ∧ u.windowRead (o.pblk + 8) 8 = natLe 8 faddr ∧ ∀ x ∈ u.engines.ops, x.id ≠ o.id
    let header : Prop := o.field 5 1 / 2 = 0 ∧ o.field 6 2 / 2 = 0 ∧ o.zero 0x24 4 = true ∧ o.zero 0x2C 20 = true
    o.die ∉ s.package.held → o.ended = false → o.started = false → o.parked = none → o.fault = none → o.coll = none →
    o.driveKey = none → o.release = none → o.pinned = [] → s.clocks.heardAll o.die o.clock = true →
    coreDie (windowPlace o.roll).1 = o.die → (∀ r ∈ s.fabric.remotes, r.use ≠ .engineRead o.id ∧ r.use ≠ .engineWrite o.id) →
    (∀ x ∈ s.tasks, ∀ v k e, x.wait ≠ some (.roll v k e)) → o.eop = 0x01 → o.pblk % 64 = 0 → o.roll % 16 = 0 →
    (key o.roll + 16 ≤ key o.pblk ∨ key o.pblk + 64 ≤ key o.roll) →
      (¬header → ends ((roll s).complete 0x0300) (0x1FFFFFF80000000 + o.pblk) fun u => u.mem.bytes = s.mem.bytes) ∧
      (∀ core off pa pl e, header → 0 < n → src % 65536 + n ≤ 65536 → dst % 65536 + n ≤ 65536 → dst + n ≤ src →
        s.ctxAccess o.ctx src n .load = .ok (.sram core off) → s.ctxAccess o.ctx dst n .store = .ok (.phys pa pl e) →
        s.poisonedLine pa n = none →
          ends ((roll s).arrive (o.field 0 4)) 0 fun u =>
            u.bytesAt (.phys pa pl e) n = s.bytesAt (.sram core off) n ∧
            u.windowRead (o.pblk + 0x28) 4 = natLe 4 0xFFFFFFFF)

/-- 03 R62, R63, R65; 05 R155; 14 R371: an aperture access reaches its bytes while the device is READY and the Welom Link is
up; one that fails reads all ones and records an event; a closed aperture reads all ones. -/
def Claim.ApertureRules : Prop :=
  ∀ (s : State), s.Inv →
    let opened : Prop := s.host.welomUp = true ∧ s.package.phase = .ready
    let at_ (off : Nat) : Nat := s.host.apBase.toNat * 2 ^ 30 + off
    let shown (k : Nat) : Prop := ∃ e, s.host.events.find? k = some e ∧ e.valid = true
    let failed (u : State) (pa : Nat) : Prop := u.mem = s.mem ∧ ∀ k, k < 64 → ¬shown k → (∀ j, j < k → shown j) →
        ∃ e, u.host.events.find? k = some e ∧ e.source = 6 ∧ e.detailA = pa ∧
          e.code = if s.host.apMode then s.host.apCtx.toNat else 0
    let slot := if s.host.apMode then ctxSlot s.host.apCtx.toNat else 0
    let plain (loc : Loc) (n : Nat) : Prop := loc.isHere = true ∧ ∀ pa pl e, loc = .phys pa pl e →
      s.poisonedLine pa n = none ∧ ∀ l ∈ linesOf pa n, s.lineReadable slot l = true
    (∀ off n, s.arg = .num2 off n →
      (¬opened → exec .apertureRead s =
        .next { s with host := { s.host with replies := List.replicate n 0xFF :: s.host.replies } }) ∧
      (opened → 0 < n → at_ off % 65536 + n ≤ 65536 →
        (∀ loc, s.aperturePiece (at_ off) n .load = .ok loc → plain loc n → ∃ u, exec .apertureRead s = .next u ∧
          u.host.replies = s.bytesAt loc n :: s.host.replies ∧ SameBytes s u ∧ u.tasks = s.tasks) ∧
        (∀ pa, s.aperturePiece (at_ off) n .load = .error pa → ∃ u, exec .apertureRead s = .next u ∧ failed u pa ∧
          u.host.replies = List.replicate n 0xFF :: s.host.replies))) ∧
    (∀ off bs, s.arg = .bytes off bs →
      (¬opened → exec .apertureWrite s = .next s) ∧
      (opened → 0 < bs.length → at_ off % 65536 + bs.length ≤ 65536 →
        (∀ loc, s.aperturePiece (at_ off) bs.length .store = .ok loc → plain loc bs.length →
          (∀ x ∈ s.tasks, ∀ v k e, x.wait ≠ some (.roll v k e)) → ∃ u, exec .apertureWrite s = .next u ∧
            u.bytesAt loc bs.length = bs ∧ SameBytesBut [loc] bs.length s u ∧ u.tasks = s.tasks) ∧
        (∀ pa, s.aperturePiece (at_ off) bs.length .store = .error pa → ∃ u, exec .apertureWrite s = .next u ∧
          failed u pa))) ∧
    (∀ off op wide x y, s.arg = .pcie off op wide x y →
      let n := if wide then 8 else 4
      off % n = 0 →
      (¬opened → exec .apertureAtomic s =
        .next { s with host := { s.host with replies := List.replicate n 0xFF :: s.host.replies } }) ∧
      (∀ loc, opened → s.aperturePiece (at_ off) n .atomic = .ok loc → plain loc n → loc.key.2 % n = 0 →
        ∃ u, exec .apertureAtomic s = .next u ∧ u.host.replies = s.bytesAt loc n :: s.host.replies ∧
          SameBytesBut [loc] n s u ∧
          let old := leNat (s.bytesAt loc n)
          leNat (u.bytesAt loc n) = match op with
            | .fetchAdd => (old + x.toNat) % 2 ^ (8 * n)
            | .swap => x.toNat % 2 ^ (8 * n)
            | .cas => if old = y.toNat % 2 ^ (8 * n) then x.toNat % 2 ^ (8 * n) else old) ∧
      (∀ pa, opened → s.aperturePiece (at_ off) n .atomic = .error pa → ∃ u, exec .apertureAtomic s = .next u ∧
        failed u pa ∧ u.host.replies = List.replicate n 0xFF :: s.host.replies))

/-- 00 R7; 03 R62, R65, R68, R440: a register of the window takes what is written in the bits it has, a half of it alone
where a half is written, and keeps within its limits; nothing is written while the Welom Link is down, and before READY only
the mailbox is. VALID of an event-table entry clears when 1 is written, and its other fields still read. The adapter's MSI-X
table, whose place the model chose (log entry 81), takes what is written in every state of the module. -/
def Claim.RegisterWriteRules : Prop :=
  ∀ (s : State) (o i : Nat) (h : Half) (v : Word), s.arg = .reg o i h v →
    let mailbox : Prop := 0x20000 ≤ o ∧ o < 0x30000
    let ctxReg (n x : Nat) : Nat := 0x100000 + 0x1000 * n + x
    let new := regMerge (s.readReg o) h v
    let takes (w : Word) : Prop := ∃ u, exec .registerWrite s = .next u ∧ u.readReg o = w ∧ u.mem = s.mem ∧ u.tasks = s.tasks
    let clamp (bits lo hi : Nat) : Word := BitVec.ofNat 64 (min (max (new.toNat % 2 ^ bits) lo) hi)
    (o % 8 ≠ 0 → exec .registerWrite s = .next s) ∧
    (o < 0x200000 → s.host.welomUp = false ∨ (s.package.phase ≠ .ready ∧ ¬mailbox) → exec .registerWrite s = .next s) ∧
    (∀ k, k < 128 → o = 0x201000 + 8 * k → takes new) ∧
    (o % 8 = 0 → s.host.welomUp = true → 0x21000 ≤ o → o < 0x22000 → s.Inv → takes new) ∧
    (s.host.welomUp = true → s.package.phase = .ready →
      (o = 0x200 → takes (new &&& 0x1FFFFFFC000007F)) ∧
      (∀ n x m, n < 64 → o = ctxReg n x →
        (x, m) ∈ [(0x010, 0x1FFFFFFFFFF0000#64), (0x018, 0x1FFFFFFFFFF0000), (0x020, 0xFFFFFFFFFFFF0000),
          (0x028, 0x1FFFFFFFFFFFFFC), (0x0C0, 0xFFFFFFFFFFFFFFFF), (0x148, 0x3F), (0x160, 0x3F), (0x178, 1)] →
        takes (new &&& m)) ∧
      (∀ n k, n < 64 → k < 7 → o = ctxReg n (0x080 + 8 * k) → takes (new &&& 0x3FF)) ∧
      (∀ n, n < 64 →
        (o = ctxReg n 0x030 → takes (clamp 13 16 4096)) ∧ (o = ctxReg n 0x110 → takes (clamp 16 64 65535)) ∧
        (o = ctxReg n 0x118 → takes (clamp 32 256 (2 ^ 32 - 1))) ∧
        (o = ctxReg n 0x120 → takes (clamp 32 1024 (2 ^ 32 - 1))) ∧
        (o = ctxReg n 0x0C8 → takes ((s.ctx n).dcond ||| halfBits h v)) ∧
        (o = ctxReg n 0x0D0 → takes ((s.ctx n).dcond &&& ~~~(halfBits h v)))) ∧
      (o = 0x61000 ∨ o = 0xA1000 → takes (clamp 28 65536 0x8000000)) ∧
      (o = 0x61008 ∨ o = 0xA1008 → takes (clamp 32 65536 (2 ^ 32 - 1))) ∧
      (∀ k, k < 64 → o = 0x31000 + 0x20 * k → (halfBits h v).getLsbD 0 = true → takes (s.readReg o &&& ~~~1)))

/-- 03 R68 to R73: a queue is enabled for a LIVE context that has no other, and a context is created with its keys and
destroyed with everything of it. -/
def Claim.QueueContextRules : Prop :=
  ∀ (s : State), s.host.welomUp = true → s.package.phase = .ready →
    (∀ q a v, s.arg = .reg q a .full v → q < 64 →
      let x := s.queue q
      let ctx : BitVec 6 := v.extractLsb' 1 6
      let sets (p : Queue → Prop) : Prop := ∃ u, exec .queueEnable s = .next u ∧ p (u.queue q) ∧
        (∀ n, n ≠ q → u.queue n = s.queue n) ∧ u.mem = s.mem
      let others : Prop := ∃ n, n < 64 ∧ n ≠ q ∧ (s.queue n).enable = true ∧ (s.queue n).ctx = ctx
      let dead : Prop := (s.ctx ctx.toNat).phase ≠ .live
      let bad : Prop := x.log2.toNat < 4 ∨ 16 < x.log2.toNat
      (v.getLsbD 0 = true → x.enable = false →
        (¬others → ¬dead → ¬bad → sets fun y => y.enable = true ∧ y.wr = 0 ∧ y.rd = 0 ∧ y.done = 0 ∧ y.ctx = ctx ∧
          y.prio = v.extractLsb' 7 3 ∧ y.irqv = v.extractLsb' 18 6 ∧ y.stopped = false) ∧
        (others ∨ dead ∨ bad → sets fun y => y.enable = false ∧ (others ∨ dead → y.ctxbusy = true) ∧
          (bad → y.badbase = true))) ∧
      (v.getLsbD 0 = false → sets fun y => y.enable = false)) ∧
    (∀ n, s.arg = .num n → n < 64 →
      let c := s.ctx n
      let taken : Prop := ∃ m, m < 64 ∧ m ≠ n ∧ (s.ctx m).phase ≠ .free ∧ (s.ctx m).asid = c.asid
      (c.phase = .free → taken → exec .contextCreate s = .next (s.modCtx n fun c => { c with dupasid := true })) ∧
      (c.phase = .free → ¬taken → ∃ u, exec .contextCreate s = .next u ∧ (u.ctx n).phase = .creating ∧
        (u.package.keys.find? (n + 1)).isSome = true ∧ (∀ k ∈ controllers, (⟨n + 1, k, 0, s.time + keyLoadUnits⟩ : KeyLoad) ∈ u.package.keyLoads) ∧
        (∀ x ∈ u.cores.fabricTlb, x.asid ≠ c.asid) ∧ u.mem = s.mem) ∧
      (c.phase = .live → ∃ u, exec .contextDestroy s = .next u ∧ (u.ctx n).phase = .destroying ∧
        u.package.keys.find? (n + 1) = none ∧ (∀ k ∈ controllers, (n + 1, k) ∈ u.package.zeroising) ∧
        (∀ x ∈ u.cores.fabricTlb, x.asid ≠ c.asid) ∧ (∀ x ∈ u.mem.pins, x.2.1 ≠ n) ∧
        (∀ x ∈ u.engines.ops, x.ctx = n → x.ended = true) ∧
        ∀ d ∈ s.host.cards, d.ctx = n → d.status = none → d.lnum = none → (∀ r ∈ s.host.runners, r.2.card ≠ d.id) →
          ∃ y ∈ u.host.cards, y.id = d.id ∧ y.status = some (2, 0, 0)) ∧
      (c.phase ≠ .free → exec .contextCreate s = .next s) ∧ (c.phase ≠ .live → exec .contextDestroy s = .next s))

/-- 03 R72 to R78, R81; 04 R95, R96, R98: the next card of the queue whose turn it is is read and does what its kind says;
a card completes with its record. -/
def Claim.JobCardRules : Prop :=
  ∀ (s : State) (q : Nat),
    let x := s.queue q
    let n := s.host.nextCard
    let read (u : State) : Prop := (u.queue q).rd = x.rd + 1 ∧ u.host.nextRead = s.cycle + 32 ∧ u.host.nextCard = n + 1
    (s.arg = .num q → s.cardTurn = some q → (∀ c ∈ s.host.cards, c.id ≠ n) →
      (2 ^ x.log2.toNat < (x.wr - x.rd).toNat → (∀ i, (i, s.nextKind q) ∈
          [(Instr.jobCardLaunch, 1), (.jobCardDrive, 2), (.jobCardNull, 3), (.jobCardInvalid, 0)] →
        ∃ u, exec i s = .next u ∧ (u.queue q).overrun = true ∧ (u.queue q).stopped = true ∧ u.host.cards = s.host.cards)) ∧
      ((x.wr - x.rd).toNat ≤ 2 ^ x.log2.toNat → s.peekCard q = none →
        ∃ u, exec .jobCardInvalid s = .next u ∧ (u.queue q).overrun = true ∧ (u.queue q).stopped = true ∧
          ((∃ i < 64, ((Tbl.find? s.host.events i).any fun e => e.valid) = false) →
            ∃ e ∈ u.host.events, e.2.valid = true ∧ e.2.source = 9 ∧ e.2.die = s.coachDie ∧ e.2.code = q ∧
              e.2.detailA = 0 ∧ e.2.detailB = x.slotVa)) ∧
      (∀ b, (x.wr - x.rd).toNat ≤ 2 ^ x.log2.toNat → s.peekCard q = some b →
        let ends (i : Instr) (status : Nat) (detail : Word) : Prop := ∃ u c k, exec i s = .next u ∧ read u ∧
          c ∈ u.host.cards ∧ c.id = n ∧ c.bits = b ∧ c.status = some (status, 0, detail) ∧ (k, .cardComplete, .num n) ∈ u.due
        (cardOk b = false → ends .jobCardInvalid 6 0) ∧
        (cardOk b = true → cardNdep b = 0 →
          (cardKind b = 3 → ends .jobCardNull 0 0) ∧
          (cardKind b = 2 → ∃ u, exec .jobCardDrive s = .next u ∧ read u ∧ n ∈ u.host.driveWaiting) ∧
          (cardKind b = 1 →
            let ctx := x.ctx.toNat
            let image := s.checkImage ctx (cardImage b) (cardField b 16 16)
            let g := cardField b 192 64
            (∀ status detail, image = .error (status, detail) →
              ends .jobCardLaunch status (BitVec.ofNat 64 (if status = 5 then detail else 0))) ∧
            (∀ info, image = .ok info →
              let addr := if g = 0 then info.geom else g
              (2 ^ 57 ≤ g ∨ s.readGeometry ctx addr info.nstage info.scratch = none → ends .jobCardLaunch 6 0) ∧
              (∀ geom, g < 2 ^ 57 → s.readGeometry ctx addr info.nstage info.scratch = some geom →
                (∀ l ∈ s.launches, l.lnum ≠ s.nextLnum) → (∀ c ∈ s.host.cards, c.lnum ≠ some s.nextLnum) →
                ∃ u l, exec .jobCardLaunch s = .next u ∧ read u ∧ u.nextLnum = s.nextLnum + 1 ∧ l ∈ u.launches ∧
                  l.lnum = s.nextLnum ∧ l.ctx = ctx ∧ l.card = n ∧ l.phase = .eligible ∧
                  l.prio = min (cardField b 4 3) x.prio.toNat ∧ l.args.toNat = cardField b 128 64 ∧
                  l.stages = info.entries.zip geom ∧ l.scratch = info.scratch)))))) ∧
    (∀ c status fcode detail, s.arg = .num c.id → s.host.cards.find? (·.id == c.id) = some c → c.fromDrive = none →
      s.cardEnd c = some (status, fcode, detail) →
        ∃ u, exec .cardComplete s = .next u ∧ (u.queue c.queue).done = (s.queue c.queue).done + 1 ∧
          (∀ d ∈ u.host.cards, d.id ≠ c.id) ∧ (∀ l ∈ u.launches, some l.lnum ≠ c.lnum) ∧
          (cardIrq c.bits = true → (s.queue c.queue).irqv.toNat ∈ u.host.msix) ∧
          (∀ core off, s.Inv → cardDone c.bits ≠ 0 → cardDone c.bits < 2 ^ 57 → cardDone c.bits % 16 = 0 →
            (s.ctx c.ctx).hotbase = 0 → s.ctxAccess c.ctx (cardDone c.bits) 16 .store = .ok (.sram core off) →
              u.bytesAt (.sram core off) 16 = natLe 4 (cardField c.bits 32 32) ++ natLe 2 status ++ natLe 2 fcode.toNat ++
                natLe 8 detail.toNat)) ∧
    (∀ c l, s.arg = .num c.id → s.host.cards.find? (·.id == c.id) = some c → c.status = none →
      c.lnum.bind s.launch? = some l → l.phase = .retiring → s.launchWrites l.lnum = true →
        ∃ u k, exec .cardComplete s = .next u ∧ u.host = s.host ∧ u.launches = s.launches ∧ u.mem = s.mem ∧
          (k, .cardComplete, .num c.id) ∈ u.due)

/-- 03 R84 to R92; 11 R283, R285; 15 R418, R420, R421: bindings, drive programs and what they send. -/
def Claim.DriveRules : Prop :=
  ∀ (s : State),
    (∀ n i v, s.arg = .reg n i .full v → n < 64 → i < 7 → s.host.welomUp = true → s.package.phase = .ready →
      let b : DBind := { target := v.extractLsb' 0 4, die := v.extractLsb' 4 4, unit := v.extractLsb' 8 2 }
      let die := b.die.toNat
      let inTable : Prop := (b.target = 0 ∧ b.unit = 0) ∨ (b.target = 1 ∧ b.unit = 0 ∧ s.host.activeHub = some die) ∨
        (b.target = 2 ∧ die ≤ 3) ∨ ((b.target = 3 ∨ b.target = 4) ∧ b.unit = 0 ∧ 6 ≤ die ∧ die ≤ 13) ∨
        ((b.target = 5 ∨ b.target = 6) ∧ b.unit = 0 ∧ (die = 4 ∨ die = 5))
      (inTable → ∃ u, exec .dbindWrite s = .next u ∧ (u.ctx n).dbind.getD i {} = b ∧
        ∀ j, j < 7 → j ≠ i → (u.ctx n).dbind.getD j {} = (s.ctx n).dbind.getD j {}) ∧
      (¬inTable → exec .dbindWrite s = .next (s.modCtx n fun c => { c with bindbad := true }))) ∧
    (∀ c, s.arg = .num c.id → s.driveNext = some c →
      let len := cardField c.bits 16 16
      let fails (detail : Nat) : Prop := ∃ u, exec .driveProgramStart s = .next u ∧ c.id ∉ u.host.driveWaiting ∧
        ∃ y ∈ u.host.cards, y.id = c.id ∧ y.status = some (8, 0, BitVec.ofNat 64 detail)
      (∀ d, s.coachRead c.ctx (cardImage c.bits) (64 * len) = .error d → fails (d / 64 * 64)) ∧
      (∀ bs, s.coachRead c.ctx (cardImage c.bits) (64 * len) = .ok bs →
        let prog := (List.range len).map fun i => beatOf ((bs.drop (64 * i)).take 64)
        (∀ off, driveBad prog (s.ctx c.ctx).dbind = some off → fails off) ∧
        (driveBad prog (s.ctx c.ctx).dbind = none → ∃ u k r, exec .driveProgramStart s = .next u ∧
          c.id ∉ u.host.driveWaiting ∧ u.host.runners.find? k = some r ∧ r.card = c.id ∧ r.ctx = c.ctx ∧ r.prog = prog ∧
          r.w = 0 ∧ r.period = (s.ctx c.ctx).dperiod ∧ r.dbind = (s.ctx c.ctx).dbind ∧ (u.ctx c.ctx).driveRun = true ∧
          (s.cycle, .drivePeriod, .num k) ∈ u.due))) ∧
    (∀ k r, s.arg = .num k → s.host.runners.find? k = some r →
      let finishes (status : Nat) (detail : Word) : Prop := ∃ u, exec .drivePeriod s = .next u ∧
        u.host.runners.find? k = none ∧ (u.ctx r.ctx).driveRun = false ∧ ∀ c ∈ s.host.cards, c.id = r.card →
          ∃ y ∈ u.host.cards, y.id = r.card ∧ y.status = some (status, 0, detail)
      let becomes (p : Runner → Prop) : Prop := ∃ u y, exec .drivePeriod s = .next u ∧ u.host.runners.find? k = some y ∧
        p y ∧ y.card = r.card ∧ y.prog = r.prog ∧ u.mem = s.mem ∧ (u.ctx r.ctx).driveWord = BitVec.ofNat 16 r.w
      (∀ status detail, r.ending = some (status, detail) → finishes status detail) ∧
      (r.ending = none → r.prog.length ≤ r.w → finishes 0 0) ∧
      (∀ w, r.ending = none → r.prog[r.w]? = some w →
        (dwCtl w = 0 → r.rep = none → becomes fun y => y.w = r.w + 1 ∧ y.ending = none) ∧
        (dwCtl w = 4 → becomes fun y => y.ending = some (0, 0)) ∧
        (dwCtl w = 3 → becomes fun y => y.w = r.w + 1 ∧ y.rep = some (r.w + 1, dwLo w, dwArg2 w)) ∧
        (dwCtl w = 1 → r.rep = none → r.isDead r.w = false → becomes fun y => y.w = r.w + 1 ∧
          ∀ v, y.isDead v = true ↔ r.isDead v = true ∨
            if (s.ctx r.ctx).dcond.getLsbD (dwField w 48 6) = w.getLsbD 54 then
              r.w + dwLo w < v ∧ v ≤ r.w + dwLo w + dwHi w
            else r.w < v ∧ v ≤ r.w + dwLo w) ∧
        (dwCtl w = 2 → dwField w 24 2 = 0 → r.rep = none →
          ((s.ctx r.ctx).dcond.getLsbD (dwField w 16 6) = true → becomes fun y => y.w = r.w + 1 ∧ y.waited = 0) ∧
          ((s.ctx r.ctx).dcond.getLsbD (dwField w 16 6) = false →
            (dwArg w = 0 ∨ r.waited + 1 < dwArg w → becomes fun y => y.w = r.w ∧ y.waited = r.waited + 1) ∧
            (dwArg w ≠ 0 → dwArg w ≤ r.waited + 1 → becomes fun y => y.ending = some (10, 0)))) ∧
        (dwCtl w = 2 → dwField w 24 2 = 1 → r.rep = none →
          (r.waited + 1 < dwArg w → becomes fun y => y.w = r.w ∧ y.waited = r.waited + 1) ∧
          (dwArg w ≤ r.waited + 1 → becomes fun y => y.w = r.w + 1 ∧ y.waited = 0)) ∧
        (r.waited = 0 → r.isDead r.w = false → ∃ u, exec .drivePeriod s = .next u ∧
          ∀ i, i < 7 → dwSlotv w i = true →
            let b := r.dbind.getD i {}
            ∃ q, (s.cycle + (dlat s.coachDie b.die.toNat + (r.dskew.getD i 0).toNat), .driveCommandArrive,
              .drive k r.card r.ctx q (64 * r.w + 8 + 8 * i) b.target.toNat b.die.toNat b.unit.toNat (dwSlot w i)) ∈ u.due))) ∧
    (∀ k card n q byteOff target die unit cmd r, s.arg = .drive k card n q byteOff target die unit cmd →
      (s.ctx n).phase = .live → s.host.runners.find? k = some r → r.card = card → (∃ c ∈ s.host.cards, c.id = card) →
      let used := s.host.driveEntries.getD 0 (driveKeyOf target die unit)
      let finishes (status detail : Nat) : Prop := ∃ u, exec .driveCommandArrive s = .next u ∧
        u.host.runners.find? k = none ∧ ∃ y ∈ u.host.cards, y.id = card ∧ y.status = some (status, 0, BitVec.ofNat 64 detail)
      let (bc, bo) := windowPlace (cmdBlock cmd)
      let (rc, ro) := windowPlace (cmdRoll cmd)
      let names (off : Nat) : Prop := scratchCluster (scratchBase + off) ≤ 23
      let held : Prop := names (cmdBlock cmd) ∧ s.inOneAlloc n bc bo (blockBytes (cmdEop cmd)) = true ∧
        names (cmdRoll cmd) ∧ s.inOneAlloc n rc ro 16 = true
      (16 ≤ used → finishes 9 0) ∧
      (used < 16 → ¬held → finishes 8 byteOff) ∧
      (used < 16 → held → ∃ u, exec .driveCommandArrive s = .next u ∧
        u.host.driveEntries.getD 0 (driveKeyOf target die unit) = used + 1 ∧
        (target = 1 → cmdEop cmd = 0x20 → (s.cycle, .lnch, .lnch n q cmd) ∈ u.due) ∧
        (target ≠ 1 ∨ cmdEop cmd ≠ 0x20 → ∃ o, u.engines.ops = s.engines.ops ++ [o] ∧ o.eop = cmdEop cmd ∧ o.ctx = n ∧
          o.die = die ∧ o.tid = none ∧ o.block = s.windowRead (cmdBlock cmd) (blockBytes (cmdEop cmd))))) ∧
    (∀ n q cmd, s.arg = .lnch n q cmd → s.launches.length < 2048 → (∀ c ∈ s.host.cards, c.id ≠ s.host.nextCard) →
      let b := beatOf ((s.windowRead (cmdBlock cmd + 0x40) 64))
      cmdBlock cmd % 128 = 0 →
      ∃ u c o, exec .lnch s = .next u ∧ c ∈ u.host.cards ∧ c.id = s.host.nextCard ∧ c.bits = b ∧ c.ctx = n ∧
        c.fromDrive = some o.id ∧ o ∈ u.engines.ops ∧ o.eop = 0x20 ∧ o.ctx = n ∧ o.started = true ∧
        (cardOk b = false ∨ cardKind b ≠ 1 → c.status = some (6, 0, 0)))

/-- 04 R98, R99, R96, R97: priorities along waiting chains of up to eight cards, the release of a launch, and the creation
of its tasks. -/
def Claim.LaunchRules : Prop :=
  ∀ (s : State),
    ((s.host.cards.map (·.id)).Nodup →
      let path (p : List Card) (m w : Card) : Prop := p.length ≤ 9 ∧ p.head? = some m ∧ p.getLast? = some w ∧
        ∀ k a b, p[k]? = some a → p[k + 1]? = some b → b ∈ s.host.cards ∧ b.waitsOn a = true
      ∃ u, exec .priorityRecompute s = .next u ∧ u.mem = s.mem ∧ u.host = s.host ∧
        u.launches.map (fun l => { l with eff := 0 }) = s.launches.map (fun l => { l with eff := 0 }) ∧
        (∀ l ∈ u.launches, ∀ m ∈ s.host.cards, m.id = l.card →
          (∃ p w, path p m w ∧ s.cardPrio w = l.eff) ∧ ∀ p w, path p m w → s.cardPrio w ≤ l.eff) ∧
        ∀ t ∈ u.tasks, ∀ l, u.launch? (tidLnum t.tid) = some l → t.prio = l.eff) ∧
    (∀ n l, s.arg = .num n → s.firstEligible n = some l →
      let c := s.ctx n
      (c.frcnt.toNat - c.frames.length < l.count → exec .launchRelease s = .next s) ∧
      (l.count ≤ c.frcnt.toNat - c.frames.length → ∃ u x, exec .launchRelease s = .next u ∧ x ∈ u.launches ∧
        x.lnum = l.lnum ∧ x.phase = .running ∧ x.framesLeft.length = l.count ∧ x.framesLeft.Nodup ∧
        (∀ f ∈ x.framesLeft, f < c.frcnt.toNat ∧ f ∉ c.frames) ∧ (u.ctx n).frames = c.frames ++ x.framesLeft ∧
        x.toCreate.length = l.count ∧ u.mem = s.mem ∧ u.tasks = s.tasks)) ∧
    (∀ n l st i rest f fs, s.arg = .num n → s.launch? (BitVec.ofNat 32 n) = some l → l.toCreate = (st, i) :: rest → l.framesLeft = f :: fs →
      l.lnum.toNat * 2 ^ 32 + st * 2 ^ 16 + i < 2 ^ 64 → ∃ u t entry w, exec .taskCreate s = .next u ∧
        u.tasks = s.tasks ++ [t] ∧ (entry, w) = l.stages.getD st (0, 0) ∧
        t.tid.toNat = l.lnum.toNat * 2 ^ 32 + st * 2 ^ 16 + i ∧ t.ctx = l.ctx ∧ t.phase = .created ∧ t.core = none ∧
        t.entry = entry ∧ t.args = l.args ∧ t.count = w.toNat % 2 ^ 16 ∧ t.frame = f ∧ t.prio = l.eff ∧
        t.scrBytes = l.scratch ∧ t.waitSince = s.cycle ∧ u.mem = s.mem ∧
        (∀ x ∈ s.launches, x.lnum = l.lnum → ∃ y ∈ u.launches, y.lnum = l.lnum ∧ y.toCreate = rest ∧ y.live = x.live + 1))

/-- 04 R97, R101 to R103, R122: a cluster's dispatcher binds its choice to a free sequencer, which loads it: a new task
starts in the state of R97, a stalled one as it was. -/
def Claim.BindRules : Prop :=
  ∀ (s : State),
    (∀ cluster t cs, s.arg = .num cluster →
      let s0 := s.wakeEnding cluster
      s0.bindChoice cluster = some (t, cs) → t.lockstep = false → s0.task? t.tid = some t →
      ∃ u y c q n, exec .taskBind s = .next u ∧ c ∈ cs ∧ u.task? t.tid = some y ∧ y.core = some c ∧ y.sq = some q ∧
        (s0.seq c q).phase = .free ∧ (u.seq c q).phase = .binding ∧ (u.seq c q).task = some t.tid ∧
        y.phase = t.phase ∧ y.r = t.r ∧ y.bindReq = none ∧ (n, .bindComplete, .num2 c q) ∈ u.due ∧
        (t.phase = .created → n = s.cycle + 8) ∧ (t.phase = .stalled → n = s.cycle + 32) ∧
        (t.phase = .framed → s.cycle + 256 ≤ n) ∧
        (t.alloc = none → 0 < t.scrBytes → ∃ o, y.alloc = some (o, (t.scrBytes + 4095) / 4096 * 4096))) ∧
    (∀ core sq t, s.arg = .num2 core sq → sq < 4 → (s.seq core sq).phase = .binding →
      (s.seq core sq).task = some t.tid → s.task? t.tid = some t → (s.ctx t.ctx).hold = false →
      let starts (p : Task → Prop) : Prop := t.preempt = false ∨ t.waitsOnSeq = false → ∃ u y,
        exec .bindComplete s = .next u ∧ (u.seq core sq).phase = .active ∧
        (u.seq core sq).task = some t.tid ∧ u.task? t.tid = some y ∧ y.phase = .bound ∧ p y
      (t.phase = .stalled → t.preempt = true → t.waitsOnSeq = true → t.lockstep = false → t.core = some core →
        t.sq = some sq → ∃ u y, exec .bindComplete s = .next u ∧ (u.seq core sq).phase = .saving ∧
          u.task? t.tid = some y ∧ y.phase = .framed ∧ y.saving = some 1 ∧ y.r = t.r) ∧
      (t.phase = .created → starts fun y => y.r.pc = t.entry ∧ y.r.getG 1 = t.args ∧ y.r.getG 2 = t.tid ∧
        y.r.getG 3 = BitVec.ofNat 64 (coreDie core + coreCluster core * 4 + coreIndex core * 128 + sq * 1024) ∧
        y.r.getG 4 = BitVec.ofNat 64 t.count ∧ (∀ n : Reg, 4 < n.toNat → y.r.getG n = 0) ∧
        (∀ k : KReg, k ≠ 0 → y.r.getK k = 0) ∧ y.r.fmt = 0 ∧ y.r.loops = []) ∧
      (t.phase = .stalled → starts fun y => y.r = t.r)) ∧
    (∀ tid t, s.arg = .task tid → s.task? tid = some t → s.preemptDue t = true →
      ∀ v, youngestLowest (s.holders t.bindSet.cores) = some v → v.tid ≠ tid → v.lockstep = false →
        s.task? v.tid = some v → v.saving = none → v.stalling = false → v.leaving = none → v.sq ≠ none →
        ∃ u y z, exec .bindWaitPreempt s = .next u ∧ u.task? tid = some y ∧ y.bindReq = some v.tid ∧
          u.task? v.tid = some z ∧ (z.preempt = true ∨ z.saving = some 1) ∧ z.r = v.r)

/-- 04 R105, R107 to R113, R106: aging, the ends of stalls and saves, eviction, and pre-emption. -/
def Obligations.SaveRules : Prop :=
  ∀ (s : State),
    (∀ core sq tid, s.arg = .num2 core sq → (s.seq core sq).task = some tid → sq < 4 →
      s.ageLimit tid ≤ (s.seq core sq).readyCount → ∃ u, exec .ageLimit s = .next u ∧
        u.seq core sq = { s.seq core sq with prio := min ((s.seq core sq).prio + 1) 7, readyCount := 0 } ∧
        u.tasks = s.tasks ∧ u.mem = s.mem ∧ ∀ n, n ≠ core → u.core n = s.core n) ∧
    (∀ tid t, s.arg = .task tid → s.task? tid = some t →
      let saves (i : Instr) (reason : Nat) (p : Task → Prop) : Prop := ∃ u y n, exec i s = .next u ∧
        u.task? tid = some y ∧ y.phase = .framed ∧ y.saving = some reason ∧ y.r = t.r ∧ p y ∧
        (n, .frameSaveComplete, .task tid) ∈ u.due ∧ s.cycle < n ∧ u.mem = s.mem
      (t.phase = .stalled → t.stalling = true → t.wounded = false → ∃ u y, exec .stallEntryComplete s = .next u ∧
        u.task? tid = some y ∧ y.phase = .stalled ∧ y.stalling = false ∧ y.preempt = false ∧ y.sq = none ∧
        y.wait = t.wait ∧ y.r = t.r ∧
        (t.wait = none → y.readyToBind = true) ∧
        ∀ c q, t.core = some c → t.sq = some q → q < 4 → (u.seq c q).phase = .free) ∧
      (s.evictDue t = true → saves .waitEviction 4 fun y =>
        (t.wait ≠ none → y.wait = t.wait) ∧ (t.wait = none → y.wait = some .ending)) ∧
      (t.phase = .bound → t.saving = none → t.preempt = true → t.lockstep = false →
        saves .forcedSave 1 fun y => y.preempt = false) ∧
      (∀ core reason, t.saving = some reason → t.core = some core → s.saveBusy t core reason = true →
        exec .frameSaveComplete s = .next (s.post 1 .frameSaveComplete (.task tid))) ∧
      (∀ core reason, t.saving = some reason → t.core = some core → s.saveBusy t core reason = false → t.wounded = false →
        t.phase = .framed → ∃ u y, exec .frameSaveComplete s = .next u ∧ u.task? tid = some y ∧ y.phase = .framed ∧
          y.saving = none ∧ y.sq = none ∧ y.wait = t.wait ∧ (t.wait = none → y.readyToBind = true) ∧
          ∀ q, t.sq = some q → q < 4 → (u.seq core q).phase = .free) ∧
      (∀ c q, t.core = some c → t.sq = some q → s.gapReached c q t = true → t.phase = .bound → t.wait = none →
        t.busyUntil ≤ s.cycle → t.lockstep = false → t.trap.mode = false → s.tvec t ≠ 0 →
        ∃ u y, exec .markGap s = .next u ∧ u.task? tid = some y ∧ y.trap.mode = true ∧ y.r.pc = s.tvec t ∧
          y.trap.pc = t.r.pc.setWidth 64 ∧ y.trap.code.toNat % 2 ^ 16 = 0x0109 ∧
          y.trap.info = BitVec.ofNat 64 (s.seq c q).boundCount ∧ u.mem = s.mem) ∧
      (t.leaving ≠ none → exec .wound s = .next s) ∧
      (t.leaving = none → t.saving = none → t.stalling = false → t.lockstep = false → s.mmaBusy t = true → ∃ u y,
        exec .wound s = .next u ∧ u.task? tid = some y ∧ y.phase = .ended ∧ y.leaving = some .restart ∧ y.core = t.core ∧
        y.sq = t.sq ∧ y.wait = none ∧ y.commitQ = [] ∧ y.faults = [] ∧ ∀ v ∈ u.mem.versions, v.tid ≠ tid) ∧
      (t.leaving = none → t.saving = none → t.stalling = false → t.lockstep = false → t.tandemOf = none →
        s.mmaBusy t = false → ∃ u y, exec .wound s = .next u ∧
        u.task? tid = some y ∧ y.phase = .created ∧ y.restarted = true ∧ y.readyToBind = true ∧ y.core = t.core ∧
        y.alloc = t.alloc ∧ y.frame = t.frame ∧ y.sq = none ∧ y.wait = none ∧ y.commitQ = [] ∧
        ∀ v ∈ u.mem.versions, v.tid ≠ tid) ∧
      (t.leaving = none → t.saving ≠ none ∨ t.stalling = true → ∃ u y, exec .wound s = .next u ∧ u.task? tid = some y ∧
        y = { t with wounded := true } ∧ u.mem = s.mem)) ∧
    (∀ n i v, s.arg = .reg n i .full v → n < 64 → s.host.welomUp = true → s.package.phase = .ready →
      let c := s.ctx n
      (∃ u, exec .preemptHoldWrite s = .next u ∧ (u.ctx n).hold = v.getLsbD 0 ∧
        (v.getLsbD 0 = true → ∀ t ∈ s.tasks, t.ctx = n → t.phase = .bound → t.lockstep = false → t.sq ≠ none →
          t.stalling = false → t.leaving = none → s.task? t.tid = some t → ∃ y, u.task? t.tid = some y ∧ (y.preempt = true ∨ y.saving ≠ none) ∧ y.r = t.r)) ∧
      let base := if i = 0 then v.toNat / 2 ^ 16 % 2 ^ 36 else c.frbase.toNat
      let count := if i = 0 then c.frcnt.toNat else v.toNat % 2 ^ 16
      let bad : Prop := (∃ l ∈ s.launches, l.ctx = n) ∨ 2 ^ 35 ≤ base ∨
        (count ≠ 0 ∧ 0x6000000000 < base * 2 ^ 16 + count * 0x28000)
      (bad → exec .frameAreaWrite s = .next (s.modCtx n fun c => { c with wrign := true })) ∧
      (¬bad → exec .frameAreaWrite s =
        .next (s.modCtx n fun c => { c with frbase := BitVec.ofNat 36 base, frcnt := BitVec.ofNat 16 count }))) ∧
    (∀ cluster ts, s.arg = .num cluster → (s.cores.tandems.getD {} cluster).group = [] → s.tandemSet cluster = some ts →
      ts.all s.tandemBound = true → (ts.map (·.tid)).Nodup → ∃ u, exec .tandemGroupForm s = .next u ∧ u.mem = s.mem ∧
        (u.cores.tandems.getD {} cluster).group = ts.map (·.tid) ∧
        ∀ t ∈ ts, ∃ y lead, u.task? t.tid = some y ∧ y.lockstep = true ∧ y.wait = none ∧ y.tandemOf = none ∧
          ts.head? = some lead ∧ y.r = { t.r with loops := lead.r.loops })

/-- 05 R139, R152, R156; 06 R174; 09 R225: writes of HOTBASE, TLBINV, IVB, LKCOMPAT and SPCFG. -/
def Claim.ContextRegisterRules : Prop :=
  ∀ (s : State) (n i : Nat) (h : Half) (v : Word), s.arg = .reg n i h v → n < 64 → i < 16 → s.host.welomUp = true →
    s.package.phase = .ready →
    let c := s.ctx n
    let launched : Prop := ∃ l ∈ s.launches, l.ctx = n
    let becomes (j : Instr) (c1 : Ctx) : Prop := ∃ u, exec j s = .next u ∧ u.ctx n = c1 ∧ u.mem = s.mem ∧
      u.tasks = s.tasks ∧ u.cores = s.cores ∧ ∀ m, m ≠ n → u.ctx m = s.ctx m
    let refused (j : Instr) : Prop := becomes j { c with wrign := true }
    let inside (pa len : Nat) : Prop := pa + len ≤ 0x6000000000
    let base := (regMerge (BitVec.ofNat 64 (c.hotbase.toNat * 2 ^ 12)) h v).toNat / 2 ^ 12 % 2 ^ 40
    (base = 0 ∨ inside (base * 2 ^ 12) 0x1000 → becomes .hotbaseWrite { c with hotbase := BitVec.ofNat 40 base }) ∧
    (base ≠ 0 → ¬inside (base * 2 ^ 12) 0x1000 → refused .hotbaseWrite) ∧
    (let w := c.iv.getD {} i
     let x := regMerge w.ivb h v
     let outside : Prop := x.getLsbD 0 = true ∧ ¬inside (w.shadow.toNat * 2 ^ 12) (w.len.toNat * 2 ^ 15)
     let put (arm : Bool) (interval : BitVec 32) : Tbl IvWindow := c.iv.put i
       { w with arm := arm, mode := x.getLsbD 1, bell := x.extractLsb' 2 5, bellv := x.getLsbD 7
                base := x.extractLsb' 16 41, interval := interval }
     (launched → refused .ivbWrite) ∧
     (¬launched → outside → becomes .ivbWrite { c with iv := put false w.interval, wrign := true }) ∧
     (¬launched → ¬outside → becomes .ivbWrite
       { c with iv := put (x.getLsbD 0) (if x.getLsbD 0 = true ∧ w.arm = false then 0 else w.interval) })) ∧
    ((c.tlbBusy = true → refused .tlbinvWrite) ∧
     (c.tlbBusy = false → ∃ u k, exec .tlbinvWrite s = .next u ∧ (k, .tlbInvalidateComplete, .num n) ∈ u.due ∧
       u.ctx n = { c with tlbBusy := true, tlbSize := (halfBits h v).toNat % 4, tlbPage := (halfBits h v).toNat / 2 ^ 16 % 2 ^ 41 } ∧
       u.mem = s.mem)) ∧
    (let x := (regMerge (c.lkcompat.setWidth 64) h v).setWidth 25
     let bad : Prop := (∃ a b, a < 5 ∧ b < 5 ∧ x.getLsbD (5 * a + b) ≠ x.getLsbD (5 * b + a)) ∨
       ∃ a, a < 5 ∧ (x.getLsbD (20 + a) = true ∨ x.getLsbD (5 * a + 4) = true)
     (launched → refused .lkcompatWrite) ∧
     (¬launched → bad → becomes .lkcompatWrite { c with lkbad := true }) ∧
     (¬launched → ¬bad → becomes .lkcompatWrite { c with lkcompat := x, lkbad := c.lkbad && !(halfBits h v).getLsbD 25 })) ∧
    (let split := v.toNat % 4
     let leaves (split : Nat) (busy : Bool) : Prop := ∃ u, exec .spcfgWrite s = .next u ∧ u.cores.spSplit = split ∧
       u.cores.spBusy = busy ∧ u.cores.cores = s.cores.cores ∧ u.mem = s.mem ∧ u.tasks = s.tasks
     let same : Prop := split = 3 ∨ split = s.cores.spSplit
     let quiet : Prop := ∀ m, m < 64 → s.quiet m = true
     (h = .hi → exec .spcfgWrite s = .next s) ∧
     (h ≠ .hi → (same → leaves s.cores.spSplit (s.cores.spBusy && !v.getLsbD 2)) ∧
     (¬same → quiet → leaves split (s.cores.spBusy && !v.getLsbD 2)) ∧
     (¬same → ¬quiet → leaves s.cores.spSplit true)))

/-- 05 R150 to R154: how a walk ends, what a page fault resolved by the driver sets going, and what an invalidation drops. -/
def Obligations.TranslationRules : Prop :=
  ∀ (s : State),
    (∀ id w, s.arg = .num id → (s.mem.walks.find? fun x => x.id == id && x.active) = some w →
      let va := w.page * 2 ^ 16
      let ends (u : State) : Prop := exec .pageWalkComplete s = .next u ∧ (∀ x ∈ u.mem.walks, x.id ≠ id) ∧ SameBytes s u
      let faults (code info : Nat) : Prop := ∃ u, ends u ∧ ∀ tid ∈ w.waiters, ∀ t, s.task? tid = some t →
        ∃ y, u.task? tid = some y ∧ y.r = t.r ∧
          y.walkFault = some (w.page, w.kind, w.fetch, BitVec.ofNat 16 code, BitVec.ofNat 64 info)
      let parks (cow : Bool) (level : Nat) : Prop := ∃ u, ends u ∧ ∀ tid ∈ w.waiters, ∀ t, s.task? tid = some t →
        t.phase = .bound → t.wait = none → ∃ y, u.task? tid = some y ∧ y.r = t.r ∧ y.wait = some (.pageFault va cow) ∧
          y.phase = .framed ∧ y.saving = some 2 ∧
          ((∃ e ∈ (u.ctx t.ctx).pfent, e.2.vpage.toNat = w.page % 2 ^ 41 ∧ e.2.cow = cow ∧ e.2.waiters ≠ 0) ∨
            (cow, level, va, false) ∈ (u.ctx t.ctx).pfKept)
      (∀ code info, s.walk w.ctx va = .bad code info → faults code info) ∧
      (∀ level, s.walk w.ctx va = .notPresent level → w.page < 2 ^ 41 → parks false level) ∧
      ∀ level e, s.walk w.ctx va = .leaf level e →
        (∀ code a info, leafOutcome e va w.kind w.fetch = some (.bad code a info) → faults code info) ∧
        (∀ a cow l, leafOutcome e va w.kind w.fetch = some (.resolve a cow l) → w.page < 2 ^ 41 → parks cow l) ∧
        (leafOutcome e va w.kind w.fetch = none → ∃ u, ends u ∧ SameRegs s u ∧
          ∀ tid ∈ w.waiters, ∀ t core, s.task? tid = some t → t.core = some core →
            (⟨w.asid, w.page, level, e⟩ : TlbEnt) ∈ (u.core core).tlb)) ∧
    (∀ n i e, s.arg = .num2 n i → n < 64 → s.host.welomUp = true → s.package.phase = .ready →
      Tbl.find? (s.ctx n).pfent i = some e → (s.ctx n).pfKept = [] →
      ∃ u, exec .pageResolve s = .next u ∧ SameBytes s u ∧ SameRegs s u ∧ (u.ctx n).pfent = (s.ctx n).pfent.del i ∧
        (∀ t ∈ s.tasks, ∀ va, t.wait = some (.pageFault va e.cow) → t.ctx = n → va / 2 ^ 16 = e.vpage.toNat →
          s.task? t.tid = some t → ∃ y, u.task? t.tid = some y ∧ y.wait = none ∧
            (t.phase = .framed → t.saving = none → y.readyToBind = true)) ∧
        (∀ x ∈ s.fabric.targetWaits, (x.ctx = n ∧ x.va / 2 ^ 16 = e.vpage.toNat ∧ x.cow = e.cow → x ∉ u.fabric.targetWaits) ∧
          (¬(x.ctx = n ∧ x.va / 2 ^ 16 = e.vpage.toNat ∧ x.cow = e.cow) → x ∈ u.fabric.targetWaits)) ∧
        ∀ o ∈ s.engines.ops, ∀ va, o.parked = some (va, e.cow) → o.ctx = n → va / 2 ^ 16 = e.vpage.toNat →
          (s.cycle, .engineComplete, .num o.id) ∈ u.due) ∧
    (∀ n, s.arg = .num n → (s.ctx n).tlbBusy = true →
      let c := s.ctx n
      let named (e : TlbEnt) : Prop :=
        let k := 2 ^ (pageBits e.level - 16)
        let first := e.vpage / k * k
        let meets (size : Nat) : Prop := c.tlbPage / size * size < first + k ∧ first < c.tlbPage / size * size + size
        e.asid = c.asid ∧ match c.tlbSize with
          | 0 => meets 1
          | 1 => meets (2 ^ 5)
          | 2 => meets (2 ^ 14)
          | _ => True
      let drops (u : State) : Prop :=
        (∀ core, ∀ e ∈ (u.core core).tlb, ¬named e) ∧ (∀ k, ∀ e ∈ u.cores.clusterTlb.getD [] k, ¬named e) ∧
        (∀ e ∈ u.cores.fabricTlb, ¬named e) ∧
        ∀ core, ∀ e ∈ (s.core core).tlb, ¬named e → e ∈ (u.core core).tlb
      (s.tlbHeld n (tlbRange c.tlbSize c.tlbPage) = true → ∃ u k, exec .tlbInvalidateComplete s = .next u ∧ drops u ∧
        u.mem = s.mem ∧ (u.ctx n).tlbBusy = true ∧ (k, .tlbInvalidateComplete, .num n) ∈ u.due) ∧
      (s.tlbHeld n (tlbRange c.tlbSize c.tlbPage) = false → (∀ t ∈ s.tasks, ∀ a k o, t.wait ≠ some (.roll a k o)) →
        s.mem.stores.Pairwise (fun p q => p.id < q.id) →
        (∀ p ∈ s.mem.stores, ∀ q ∈ s.mem.stores, p.tid = q.tid → p.ctx = q.ctx) →
        let keeps (u : State) : Prop := ∀ p ∈ s.mem.stores, p.ctx ≠ n → p ∈ u.mem.stores
        ((∀ p ∈ s.mem.stores, p.ctx = n → s.storeBlocked p = false) →
          ∃ u, exec .tlbInvalidateComplete s = .next u ∧ drops u ∧ keeps u ∧ (u.ctx n).tlbBusy = false ∧
            (∀ p ∈ u.mem.stores, p.ctx ≠ n) ∧
            ∀ t ∈ u.tasks, t.ctx = n → ∀ f, t.walkFault = some f → inTlbRange (tlbRange c.tlbSize c.tlbPage) f.1 1 = false) ∧
        ((∃ p ∈ s.mem.stores, p.ctx = n ∧ s.stampWaits p ≠ none) → ∃ u k, exec .tlbInvalidateComplete s = .next u ∧
          drops u ∧ keeps u ∧ (u.ctx n).tlbBusy = true ∧ (k, .tlbInvalidateComplete, .num n) ∈ u.due)))

/-- 07 R179, R189, R190: a store that reaches its home is performed, each byte taking the last value the store gives it;
one whose release another die has not heard settled waits there until it has, and one that must follow a remote access
comes again; a settled release is heard by every die. -/
def Claim.StoreEventRules : Prop :=
  ∀ (s : State), s.Inv →
    let laid (key : MemOp → Option (Nat × List Byte)) (ops : List MemOp) (a : Nat) (old : Byte) : Byte :=
      ops.foldl (fun b op => match key op with
        | some (p, d) => if p ≤ a ∧ a < p + d.length then d.getD (a - p) 0 else b
        | none => b) old
    let memKey (op : MemOp) : Option (Nat × List Byte) := match op with
      | .phys p d => some (p, d)
      | .host p d => some (p, d)
      | .sram _ _ _ => none
    let padKey (op : MemOp) : Option (Nat × List Byte) := match op with
      | .sram c o d => some (sramKey c o, d)
      | _ => none
    let first (p : PendStore) : Prop := ∀ q ∈ s.mem.stores, q.tid = p.tid → p.id ≤ q.id
    let performs (i : Instr) (p : PendStore) : Prop := ∃ u, exec i s = .next u ∧ SameRegs s u ∧
      u.mem.stores = s.mem.stores.filter (fun q => q.id ≠ p.id) ∧
      (∀ a, cellGet u.mem.bytes a = laid memKey p.ops a (cellGet s.mem.bytes a)) ∧
      ∀ a, cellGet u.mem.sram a = laid padKey p.ops a (cellGet s.mem.sram a)
    let waits (i : Instr) (p : State → Prop) : Prop := ∃ u, exec i s = .next u ∧ u.mem = s.mem ∧ u.tasks = s.tasks ∧ p u
    let ready (p : PendStore) : Prop := first p ∧ s.stampWaits p = none ∧ s.storeHeldBack p = false ∧ p.slipTo = none ∧
      (∀ t ∈ s.tasks, ∀ a k o, t.wait ≠ some (.roll a k o)) ∧
      ∀ op ∈ p.ops, ∀ x, memKey op = some x → s.hostDown x.1 = false ∧
        ∀ l ∈ linesOf x.1 x.2.length, s.lineReadable (ctxSlot p.ctx) l = true
    (∀ id p, s.arg = .num id → (s.mem.stores.find? fun q => q.id == id) = some p →
      (ready p → performs .storePerformed p) ∧
      (first p → s.storeHeldBack p = true → waits .storePerformed fun u => ∃ k, (k, .storePerformed, .num id) ∈ u.due) ∧
      (∀ d, first p → s.storeHeldBack p = false → s.stampWaits p = some d →
        (∀ w ∈ s.clocks.waiting, w.act ≠ .store id) → waits .storePerformed fun u => ∃ w,
          u.clocks.waiting = s.clocks.waiting ++ [w] ∧ w.die = d ∧ w.stamp = p.stamp ∧ w.act = .store id)) ∧
    (∀ id w, s.arg = .num id → (s.clocks.waiting.find? fun x => x.id == id) = some w →
      let heard := s.clocks.heardAll w.die w.stamp
      let carried := s.anyPending w.after
      let s1 : State := s.onClocks fun c => { c with waiting := c.waiting.filter fun x => x.id != id }
      (heard = false → exec .stampedMessageApply s = .next s) ∧
      (heard = true → carried = true →
        waits .stampedMessageApply fun u => u.clocks = s.clocks ∧ ∃ k, (k, .stampedMessageApply, .num id) ∈ u.due) ∧
      (heard = true → carried = false →
        (∀ p, w.act = .store p.id → (s.mem.stores.find? fun q => q.id == p.id) = some p → ready p →
          performs .stampedMessageApply p) ∧
        (∀ key tid bit, w.act = .bell key tid bit → exec .stampedMessageApply s = .next (s1.bellCount key tid bit)) ∧
        (∀ core off n, w.act = .roll core off n →
          exec .stampedMessageApply s = .next (s1.setRoll core off ((s.roll core off).arrive n) 0)))) ∧
    (∀ die k ids tid, s.arg = .num2 die k → die < 14 →
      (s.clocks.unsettled.find? fun x => x.die == die) = some ⟨die, k, tid, ids⟩ →
      ((∀ p ∈ s.mem.stores, p.id ∉ ids) → ∃ u, exec .releaseSettled s = .next u ∧ u.mem = s.mem ∧ u.tasks = s.tasks ∧
        (∀ d, d < 14 → u.clocks.heardOf d die = k ∧ ∀ j, j < 14 → j ≠ die → u.clocks.heardOf d j = s.clocks.heardOf d j) ∧
        (∀ x ∈ u.clocks.unsettled, ¬(x.die = die ∧ x.count = k)) ∧
        ∀ w ∈ s.clocks.waiting, (s.cycle, .stampedMessageApply, .num w.id) ∈ u.due) ∧
      ((∃ p ∈ s.mem.stores, p.id ∈ ids) → ∃ u n, exec .releaseSettled s = .next u ∧ u.mem = s.mem ∧ u.tasks = s.tasks ∧
        u.clocks = s.clocks ∧ (n, .releaseSettled, .num2 die k) ∈ u.due))

/-- 05 R132; 01 R28; 06 R161, R162: data that arrives is in its register, with INTEGRITY queued where the beat was poisoned;
a deferred fault joins its task's queue of eight, and ends a wait but for a lock's. -/
def Claim.DataArrivalRules : Prop :=
  ∀ (s : State),
    (∀ id t e, s.arg = .num id →
      (s.tasks.findSome? fun t => (t.infl.find? fun e => e.id == id && !e.remote).map fun e => (t, e)) = some (t, e) →
      s.task? t.tid = some t → (t.infl.find? fun e => e.id == id) = some e → t.phase = .bound → e.toShadow = false →
      let lands (p : Task → Prop) : Prop := ∃ u y, exec .loadDataArrive s = .next u ∧ SameBytes s u ∧
        u.task? t.tid = some y ∧ y.r = t.r.write e.reg e.mask e.val ∧ y.infl = t.infl.filter (fun x => x.id ≠ id) ∧
        (∀ d v, e.reg = .g d → e.mask = BitVec.allOnes 64 → e.val = .word v → ∀ n : Reg,
          y.r.getG n = if n = d ∧ n ≠ 0 then v else t.r.getG n) ∧ p y
      (e.poison = none → lands fun y => y.faults = t.faults ∧ y.wait = t.wait) ∧
      (∀ pa info, e.poison = some (pa, info) → t.wait = none → lands fun y => y.wait = none ∧
        if t.faults.length < 8 then y.faults = t.faults ++
          [{ code := 0x0200, addr := BitVec.ofNat 64 pa, info := BitVec.ofNat 64 info, deferred := true }]
        else y.faults = t.faults ∧ y.ovfl = true)) ∧
    (∀ tid f t, s.arg = .fault tid f → s.task? tid = some t → ∃ u y, exec .deferredFaultArrive s = .next u ∧
      SameBytes s u ∧ u.task? tid = some y ∧
      (t.faults.length < 8 → y.faults = t.faults ++ [f] ∧ y.ovfl = t.ovfl) ∧
      (8 ≤ t.faults.length → y.faults = t.faults ∧ y.ovfl = true) ∧
      let stays : Prop := t.trap.mode = true ∨ t.wait = none ∨ ∃ lw m, t.wait = some (.lock lw m)
      (stays → y.wait = t.wait ∧ y.r = t.r ∧ u.cores = s.cores) ∧ (¬stays → y.wait = none))

/-- 14 R366; 01 R14, R15: an access to a full/empty word that comes again is performed if its condition now holds, takes a
place in the waiting list if there is one, is refused and retried 32 cycles later, or has a ticket at its second refusal; a
claim takes the place held for it; and one behind a ticketed access of its port waits there. -/
def Claim.FullEmptyRetryRules : Prop :=
  ∀ (s : State) (id core : Nat) (p : FePhase) (w : FeWait), s.Inv → s.arg = .num id →
    (s.cores.cores.findSome? fun x => x.2.feRefused.find? fun y => y.1.id == id) = some (w, core, p) →
    (w, core, p) ∈ (s.core core).feRefused →
    let off := w.word * 8
    let rest := (s.core core).feRefused.filter fun x => x.1.id != w.id
    let places := (s.core core).feWaits.length + (rest.filter fun x => x.2.2 == .held).length
    let ticketed : Prop := ∃ x ∈ rest, x.2.2 = .ticket
    let ported : Prop := ∃ x ∈ rest, (x.2.2 = .ticket ∨ x.2.2 = .held) ∧ s.feSource x.1 = s.feSource w
    let full := s.wordFull core off
    let holds : Prop := if w.kind = 0 then full = false else full = true
    let stays (q : FePhase) (again : Bool) : Prop := ∃ u, exec .fullEmptyRetry s = .next u ∧ u.mem = s.mem ∧
      u.tasks = s.tasks ∧ (u.core core).feWaits = (s.core core).feWaits ∧ (w, core, q) ∈ (u.core core).feRefused ∧
      if again then (s.cycle + 32, .fullEmptyRetry, .num w.id) ∈ u.due else u.due = s.due
    let lists : Prop := ∃ u, exec .fullEmptyRetry s = .next u ∧ u.mem = s.mem ∧ u.tasks = s.tasks ∧
      (u.core core).feWaits = (s.core core).feWaits ++ [w] ∧ ∀ x ∈ (u.core core).feRefused, x.1.id ≠ w.id
    (∀ b, p = .coming b →
      (ported → stays (.behind b) false) ∧
      (¬ported → ¬holds → places < 32 → (b = true ∨ ¬ticketed) → lists) ∧
      (¬ported → ¬holds → b = false → (32 ≤ places ∨ ticketed) → stays (.coming true) true) ∧
      (¬ported → ¬holds → b = true → 32 ≤ places → stays .ticket false)) ∧
    (p = .held → ¬holds → lists) ∧
    (holds → p = .held ∨ ¬ported ∧ (∃ b, p = .coming b) → (∀ x ∈ (s.core core).feWaits, x.word ≠ w.word) → ∀ t, s.task? w.tid = some t → t.phase = .bound →
      ∃ u y, exec .fullEmptyRetry s = .next u ∧ u.task? w.tid = some y ∧ y.wait = none ∧
        (w.kind = 0 → u.bytesAt (.sram core off) 8 = natLe 8 w.data.toNat ∧ SameBytesBut [.sram core off] 8 s u ∧
          u.wordFull core off = true ∧ y.r = t.r) ∧
        (w.kind ≠ 0 → SameBytes s u ∧ u.wordFull core off = decide (w.kind ≠ 1) ∧
          ∀ e, (t.infl.find? fun x => x.id == w.inflId) = some e → e.toShadow = false →
            y.r = t.r.write e.reg e.mask (.word (BitVec.ofNat 64 (leNat (s.bytesAt (.sram core off) 8))))))

/-- 14 R388: a cache operation that ends leaves its range's lines clean, or, for CINV, in no cache it names. -/
def Claim.CacheOperationEnd : Prop :=
  ∀ (s : State) (id : Nat) (op : CacheOp), s.arg = .num id → (s.mem.cacheOps.find? fun x => x.id == id) = some op →
    let inRange (va : Nat) : Prop := va < op.lo + op.len ∧ op.lo < va + 64
    let heapVa (line : Nat) : Nat := (line * 64 + (2 ^ 57 - op.heap.2.2 % 2 ^ 57)) % 2 ^ 57
    let inHeap (line : Nat) : Prop := op.heap.1 ≤ heapVa line ∧ heapVa line < op.heap.1 + op.heap.2.1 ∧ inRange (heapVa line)
    let leaves := s.leavesFrom op.lo (op.lo + op.len) 5 ((s.ctx op.ctx).ptbase.toNat * 2 ^ 12) 0
    let hit (line : Nat) : Prop := cacheTouches leaves op line = true
    (∀ line, inHeap line → hit line) ∧
    ∃ u, exec .cacheMaintenanceComplete s = .next u ∧ SameBytes s u ∧ u.tasks = s.tasks ∧ (∀ x ∈ u.mem.cacheOps, x.id ≠ id) ∧
      (op.evict = false → u.cores = s.cores ∧ u.mem.l2.map (fun l => { l with dirty := false }) =
          s.mem.l2.map (fun l => { l with dirty := false }) ∧
        (∀ l ∈ u.mem.l2, hit l.line → l.dirty = false) ∧ ∀ l ∈ s.mem.l2, ¬hit l.line → l ∈ u.mem.l2) ∧
      (op.evict = true → (∀ l ∈ u.mem.l2, ¬hit l.line) ∧ (∀ l ∈ s.mem.l2, ¬hit l.line → l ∈ u.mem.l2) ∧
        ∀ l ∈ (u.core op.core).l1, ¬hit l.1)

/-- 06 R174 to R177: the Invigilator's check of an access to one sector of an armed window. -/
def Obligations.InvigilatorRules : Prop :=
  ∀ (s : State) (acc : IvAccess) (x i : Nat) (t : Task), s.Inv → s.arg = .iv acc → acc ∈ s.mem.ivQueue →
    acc.sectors = [x] → (s.ctx acc.ctx).ivWindow (x * 32) = some i → s.task? acc.tid = some t → t.wait = none →
    t.faults.length < 8 →
    let c := s.ctx acc.ctx
    let w := c.iv.getD {} i
    let pa := w.shadow.toNat * 2 ^ 12 + 16 * (x - w.base.toNat * 2 ^ 11)
    pa < 2 ^ 51 → s.lineReadable (ctxSlot acc.ctx) (pa / 64) = true →
    let old := cellsRead s.mem.bytes pa 16
    let wtid := fieldAt old 0 8
    let word := fieldAt old 12 4
    let coord := acc.coord.toNat % 2 ^ 12
    let covers (scope a b : Nat) : Prop :=
      let same (n : Nat) : Prop := a % 2 ^ n = b % 2 ^ n
      match scope with
      | 0 => same 12
      | 1 => same 10
      | 2 => same 7
      | 3 => same 2
      | _ => True
    let ordered : Prop := word / 2 ^ 16 % 2 = 1 ∧ acc.kind = .atomic ∨
      word / 2 ^ 15 % 2 = 1 ∧ ∃ sc, acc.acq = some sc ∧
        covers (min (word / 2 ^ 12 % 8) (scopeCode sc)) (word % 2 ^ 12) coord
    let race : Prop := word / 2 ^ 17 % 2 = 1 ∧ wtid ≠ acc.tid.toNat ∧ fieldAt old 8 4 = w.interval.toNat ∧ ¬ordered
    let fresh := natLe 8 acc.tid.toNat ++ natLe 4 w.interval.toNat ++ natLe 4
      (coord + (match acc.rel with
        | some sc => scopeCode sc * 2 ^ 12 + 2 ^ 15
        | none => 0) + (if acc.kind = .atomic then 2 ^ 16 else 0) + 2 ^ 17)
    ∃ u y, exec .invigilatorCheck s = .next u ∧ SameRegs s u ∧ u.mem.ivQueue = s.mem.ivQueue.erase acc ∧
      (acc.kind = .load → SameBytes s u) ∧
      (acc.kind ≠ .load → cellsRead u.mem.bytes pa 16 = fresh ∧ SameBytesBut [.phys pa .home false] 16 s u) ∧
      u.task? acc.tid = some y ∧
      (¬race → y.faults = t.faults ∧ u.host = s.host) ∧
      (race → w.mode = false → u.host = s.host ∧ y.faults = t.faults ++
        [{ code := 0x0206, addr := BitVec.ofNat 64 (x * 32), info := BitVec.ofNat 64 wtid, deferred := true }]) ∧
      (race → w.mode = true → y.faults = t.faults ∧
        (∀ j, j < 16 → Tbl.find? c.ivlog j = none → (∀ k, k < j → Tbl.find? c.ivlog k ≠ none) →
          Tbl.find? (u.ctx acc.ctx).ivlog j =
            some ⟨acc.kind ≠ .load, i, acc.tid, BitVec.ofNat 64 wtid, BitVec.ofNat 57 (x * 32)⟩ ∧
          u.host.msix = c.ivIrqv.toNat :: s.host.msix) ∧
        ((∀ k, k < 16 → Tbl.find? c.ivlog k ≠ none) →
          (u.ctx acc.ctx).ivlost = min (c.ivlost + 1) (2 ^ 32 - 1) ∧ (u.ctx acc.ctx).ivlog = c.ivlog))

/-- 09 R229 to R234, R237, R240; 01 R14, R15: what a Prefect does with a request, a try and a release, how a grant reaches
its task, and how a refused request comes again: one that waits in its core's port behind a ticketed one, one that gets a
ticket at its second refusal, and one for which an entry and a record are held (when the notice comes is the model's choice,
log entry 80). -/
def Obligations.PrefectRules : Prop :=
  ∀ (s : State) (tid lw : Word) (m : LockMode) (id : Nat) (t : Task), s.task? tid = some t →
    let c := s.ctx t.ctx
    let o := s.lockObj c.asid lw
    let home := lwHome lw
    let compatible (h : Word × LockMode × Bool) : Prop := h.1 = tid ∨ modesCompat c.lkcompat h.2.1 m = true
    let now : Prop := (∀ h ∈ o.holders, compatible h) ∧ ∀ q ∈ o.queue, tidOlder tid q.1 = true
    let free : Prop := s.pfEntries home < 65536 ∧ s.pfRecords home < 262144
    let room : Prop := free ∧ ∀ k ∈ s.prefects.tickets, k.1 ≠ home
    let core := Task.onCore t
    let first : Prop := ∀ d ∈ s.due, s.lockFirst tid home d = false
    let crowded : Prop := (∀ h ∈ o.holders, h.1 ≠ tid) ∧ 262144 ≤ s.pfRecords home
    let holds (u : State) : Prop := (∃ b, (tid, m, b) ∈ (u.lockObj c.asid lw).holders) ∧
      ∀ h ∈ o.holders, h.1 ≠ tid → h ∈ (u.lockObj c.asid lw).holders
    let has (y : Task) : Prop := (lw, m) ∈ y.locks ∧ ∀ l ∈ t.locks, l.1 ≠ lw → l ∈ y.locks
    let granted (i : Instr) (p : State → Prop) : Prop := ∃ u y, exec i s = .next u ∧ SameBytes s u ∧ holds u ∧
      u.task? tid = some y ∧ has y ∧ y.wait = none ∧ (t.phase = .bound → y.r = t.r) ∧ p u
    let queued (i : Instr) (p : State → Prop) : Prop := ∃ u y before after, exec i s = .next u ∧ SameBytes s u ∧
      SameRegs s u ∧ u.task? tid = some y ∧ y.locks = t.locks ∧ y.wait = some (.lock lw m) ∧
      o.queue = before ++ after ∧ (u.lockObj c.asid lw).queue = before ++ (tid, m) :: after ∧
      (∀ q ∈ before, tidOlder tid q.1 = false) ∧ (∀ q, after.head? = some q → tidOlder tid q.1 = true) ∧
      (∀ h ∈ o.holders, ¬compatible h → s.woundSent h.1 = false → tidOlder tid h.1 = true →
        (s.cycle, .wound, .task h.1) ∈ u.due ∧ (h.1, h.2.1, true) ∈ (u.lockObj c.asid lw).holders) ∧
      (t.phase = .bound → t.core ≠ none → t.sq ≠ none → y.phase ≠ .bound) ∧ p u
    (s.arg = .lock tid lw m id → t.wait = some (.lock lw m) →
      let parks (n : Nat) (p : State → Prop) : Prop := ∃ u y, exec .prefectLockRequest s = .next u ∧ SameBytes s u ∧
        SameRegs s u ∧ u.task? tid = some y ∧ y.wait = some (.lock lw m) ∧ u.prefects.objs = s.prefects.objs ∧
        u.prefects.refused = s.prefects.refused ++ [⟨tid, lw, m, n, core⟩] ∧ p u
      (¬first → exec .prefectLockRequest s = .next (s.post 0 .prefectLockRequest s.arg)) ∧
      (first → s.portTicket core home = false →
        (now → room → granted .prefectLockRequest fun _ => True) ∧
        (¬now → room → queued .prefectLockRequest fun _ => True) ∧
        (crowded → parks 1 fun u => (u.ctx t.ctx).lkRefusals = min (c.lkRefusals + 1) (2 ^ 32 - 1) ∧
          (s.cycle + 32, .lockRefusalRetry, .task tid) ∈ u.due)) ∧
      (first → s.portTicket core home = true →
        parks 0 fun u => u.prefects.behind = s.prefects.behind ++ [(home, tid)])) ∧
    (s.arg = .lock tid lw m id → first → now → room → (∀ e ∈ t.infl, e.id ≠ id) →
      ∃ u y, exec .prefectLockTry s = .next u ∧ SameBytes s u ∧ u.task? tid = some y ∧ holds u ∧ has y ∧ y.r = t.r) ∧
    (∀ e, s.arg = .lock tid lw m id → first → (t.infl.find? fun e => e.id == id) = some e → e.toShadow = false → t.phase = .bound →
      let answers (v : Word) (p : State → Task → Prop) : Prop := ∃ u y, exec .prefectLockTry s = .next u ∧ SameBytes s u ∧
        u.task? tid = some y ∧ y.r = t.r.write e.reg e.mask (.word v) ∧ y.wait = t.wait ∧ p u y
      (now → room → answers 1 fun u y => holds u ∧ has y) ∧
      (¬now ∨ crowded → answers 0 fun u y => u.prefects = s.prefects ∧ y.locks = t.locks)) ∧
    (∀ k, s.prefects.tickets.find? (fun k => k.1 == home) = some k → free → ∃ d, d ≤ 64 ∧
      k ∈ (s.offerLock home).prefects.held ∧ (s.cycle + d, .lockRefusalRetry, .task k.2) ∈ (s.offerLock home).due) ∧
    (s.arg = .lock tid lw m id → (∃ h ∈ o.holders, h.1 = tid) → (∀ k ∈ s.prefects.tickets, k.1 ≠ home) →
      ∃ u, exec .prefectLockRelease s = .next u ∧ SameBytes s u ∧ u.tasks = s.tasks ∧
        let rest := o.holders.filter fun h => h.1 ≠ tid
        (o.queue = [] → (u.lockObj c.asid lw).holders = rest ∧ (u.lockObj c.asid lw).queue = [] ∧ u.due = s.due) ∧
        ∀ q mode more, o.queue = (q, mode) :: more →
          let fits : Prop := ∀ h ∈ rest, h.1 = q ∨ modesCompat c.lkcompat h.2.1 mode = true
          (fits → (s.cycle, .lockGrant, .task q) ∈ u.due ∧ (∃ b, (q, mode, b) ∈ (u.lockObj c.asid lw).holders) ∨
            ∃ h ∈ more, h.1 = q) ∧
          (¬fits → (u.lockObj c.asid lw).holders = rest ∧ (u.lockObj c.asid lw).queue = o.queue ∧ u.due = s.due)) ∧
    (s.arg = .task tid → t.wait = some (.lock lw m) → (∃ h ∈ o.holders, h.1 = tid ∧ h.2.1 = m) →
      granted .lockGrant fun u => u.prefects = s.prefects) ∧
    (∀ r, s.arg = .task tid → (s.prefects.refused.find? fun r => r.tid == tid) = some r → r.lw = lw → r.mode = m →
      t.wait = some (.lock lw m) → first →
      let gone (u : State) : Prop := (∀ x ∈ u.prefects.refused, x.tid ≠ tid) ∧ (∀ k ∈ u.prefects.tickets, k.2 ≠ tid) ∧
        (∀ k ∈ u.prefects.held, k.2 ≠ tid) ∧ ∀ k ∈ u.prefects.behind, k.2 ≠ tid
      let mine : Prop := (home, tid) ∈ s.prefects.held
      let waiting : Prop := (home, tid) ∈ s.prefects.behind
      (r.refusals ≠ 2 → waiting → exec .lockRefusalRetry s = .next s) ∧
      (r.refusals ≠ 2 → ¬waiting → s.portTicket r.core home = true → ∃ u, exec .lockRefusalRetry s = .next u ∧
        u.tasks = s.tasks ∧ u.mem = s.mem ∧ u.prefects = { s.prefects with behind := s.prefects.behind ++ [(home, tid)] }) ∧
      (r.refusals ≠ 2 → ¬waiting → s.portTicket r.core home = false →
        (now → free → granted .lockRefusalRetry gone) ∧ (¬now → free → queued .lockRefusalRetry gone) ∧
        (crowded → ∃ u, exec .lockRefusalRetry s = .next u ∧ u.tasks = s.tasks ∧ u.mem = s.mem ∧
          u.prefects.tickets = s.prefects.tickets ++ [(home, tid)] ∧ ⟨tid, lw, m, 2, r.core⟩ ∈ u.prefects.refused)) ∧
      (r.refusals = 2 → mine → (now → granted .lockRefusalRetry gone) ∧ (¬now → queued .lockRefusalRetry gone)) ∧
      (r.refusals = 2 → ¬mine → exec .lockRefusalRetry s = .next s))

/-- 10 R249, R250: enabling and flushing a hot-row group, and the end of a fill. -/
def Claim.HotRowRules : Prop :=
  ∀ (s : State) (n g : Nat),
    let x := s.hotGroup n g
    let becomes (i : Instr) (y : HotGroup) (p : State → Prop) : Prop := ∃ u, exec i s = .next u ∧ u.hotGroup n g = y ∧
      u.mem = s.mem ∧ u.tasks = s.tasks ∧ (∀ m h, (m, h) ≠ (n, g) → u.hotGroup m h = s.hotGroup m h) ∧ p u
    let later (u : State) : Prop := ∃ k, (k, .hotRowGroupReady, .num2 n g) ∈ u.due
    (s.arg = .num2 n g → n < 64 → g < 16 → s.host.welomUp = true → s.package.phase = .ready →
      let launched : Prop := ∃ l ∈ s.launches, l.ctx = n
      let die := 0x1800000000
      let lo (y : HotGroup) : Nat := y.base.toNat * 2 ^ 16
      let size (y : HotGroup) : Nat := 0x40000 + 2 ^ y.log2sets.toNat * 8 * (y.slot.toNat * 64)
      let mine := (s.host.ctxs.filter fun y => y.1 = n).flatMap fun y => y.2.hrg.filter fun z => z.1 ≠ g ∧ z.2.en = true
      let fits : Prop := lo x / die = (lo x + size x - 1) / die ∧ lo x + size x ≤ 4 * die ∧
        (mine.map fun z => size z.2).sum + size x ≤ 2 ^ 36 ∧
        ∀ y ∈ s.host.ctxs, ∀ z ∈ y.2.hrg, z.2.en = true → (y.1, z.1) ≠ (n, g) →
          lo x + size x ≤ lo z.2 ∨ lo z.2 + size z.2 ≤ lo x
      (x.en = true → exec .hotRowGroupEnable s = .next s) ∧
      (x.en = false → launched → exec .hotRowGroupEnable s = .next (s.modCtx n fun c => { c with wrign := true })) ∧
      (x.en = false → ¬launched → fits → ∃ u, exec .hotRowGroupEnable s = .next u ∧
        u.hotGroup n g = { x with en := true, busy := true, looks := 0, ways := [], lru := [] } ∧ u.tasks = s.tasks ∧
        (∀ m h, (m, h) ≠ (n, g) → u.hotGroup m h = s.hotGroup m h) ∧ u.mem.sram = s.mem.sram ∧
        (∀ a, cellGet u.mem.bytes a =
          if lo x ≤ a ∧ a < lo x + 0x40000 then 0 else cellGet s.mem.bytes a) ∧ later u) ∧
      (x.en = false → ¬launched → ¬fits → becomes .hotRowGroupEnable { x with bad := true } fun u => u.due = s.due) ∧
      becomes .hotRowGroupFlush { x with busy := true, ways := [], lru := [] } later) ∧
    (s.arg = .num2 n g → becomes .hotRowGroupReady { x with busy := false } fun u => u.due = s.due) ∧
    (∀ set way ok, s.arg = .fill n g set way ok →
      let w := 8 * set + way
      let fills (p : WayPhase × BitVec 64) : Prop := ∃ u, exec .hotRowFillComplete s = .next u ∧
        (u.hotGroup n g).way w = p ∧ (∀ v, v ≠ w → (u.hotGroup n g).way v = x.way v) ∧
        u.mem = s.mem ∧ u.tasks = s.tasks
      ((x.way w).1 = .filling → ok = true → fills (.valid, (x.way w).2)) ∧
      ((x.way w).1 = .filling → ok = false → fills (.invalid, 0)) ∧
      ((x.way w).1 ≠ .filling → exec .hotRowFillComplete s = .next s))

/-- 04 R104; 11 R266 to R270; 05 R132: the only task of a core's sequencers that is ready opens its next bundle, which has
been fetched and decoded; where the package is paused or stopped, or the die held, nothing issues. -/
def Obligations.IssueRules : Prop :=
  ∀ (s : State) (core sq : Nat) (t : Task), s.arg = .num core → s.cur = none →
    let stopped : Prop := s.package.pause = true ∨ coreDie core ∈ s.package.held ∨ s.package.phase = .halted ∨
      s.package.phase = .failed
    (stopped → exec .issueBundle s = .next s) ∧
    (¬stopped → sq < 4 → (s.seq core sq).task = some t.tid → (s.seq core sq).phase = .active → (s.seq core sq).prio ≤ 7 →
      (∀ q, q < 4 → q ≠ sq → (s.seq core q).task = none) → s.task? t.tid = some t → t.core = some core → t.sq = some sq →
      t.phase = .bound → t.wait = none → t.saving = none → t.busyUntil ≤ s.cycle → t.lockstep = false → t.faults = [] →
      s.groupOf core = [] → (∀ l, s.launch? (tidLnum t.tid) = some l → l.checked = false) → t.fences = [] →
      (s.core core).lastIssue ≠ some s.cycle →
      (∀ b s1, s.nextBundle t core = (.ready b, s1) → s.heldBy t core b = .no → s1.task? t.tid = some t →
        s1.heldBy t core b = .no →
        let c : Cur := { tid := t.tid, core := core, pc := t.r.pc, phys := b.phys, slots := b.slots, words := b.words
                         members := [t.tid], nullified := t.nullNext, bad := b.bad }
        exec .issueBundle s =
          .next { s1.tlbUse core (s1.ctx t.ctx).asid t.r.pc.toNat with cur := some c }) ∧
      (∀ f s1, s.nextBundle t core = (.fault f, s1) → s1.task? t.tid = some t → f.deferred = false ∨ t.trap.mode = false →
        exec .issueBundle s = .next (s1.trapEntry t.tid f t.r.pc)) ∧
      (∀ va s1, s.nextBundle t core = (.walk va, s1) →
        exec .issueBundle s = .next (s1.startWalk t.tid core va .load true)))

/-- 11 R264 to R269: what a bundle's words hold: at most sixteen of them through the first STOP, with four to eight
instruction slots, each decoded with its literals; a bundle that breaks a rule raises ILLEGAL_BUNDLE, its first unassigned
slot ILLEGAL_INSTRUCTION in its turn among the slots (06 R161). -/
def Obligations.BundleRules : Prop :=
  ∀ (ss : List (BitVec 32 × List (BitVec 26))),
    let words := ss.flatMap fun x => x.1 :: x.2.map litWord
    let count (lo hi : Nat) : Nat := (ss.filter fun x => decide (lo ≤ (wordClass x.1).toNat ∧ (wordClass x.1).toNat ≤ hi)).length
    let memory := count 18 25 + count 29 29
    let legal : Prop := 4 ≤ ss.length ∧ ss.length ≤ 8 ∧ (∀ x ∈ ss, x.2.length ≤ 2) ∧ count 1 5 ≤ 2 ∧ count 6 8 ≤ 1 ∧
      count 9 17 ≤ 4 ∧ memory ≤ 1 ∧ count 26 28 ≤ 1
    (∀ x ∈ ss, wordClass x.1 ≠ 31) →
    (∀ xs, legal → ss.map (fun x => decodeSlot x.1 x.2) = xs.map some →
      prepBundle false words true = .ready ⟨words.length, xs, ss.map (·.1), none⟩) ∧
    (∀ j w xs, legal → ss[j]? = some w → decodeSlot w.1 w.2 = none →
      (ss.take j).map (fun x => decodeSlot x.1 x.2) = xs.map some →
      prepBundle false words true = .ready ⟨words.length, xs, ss.map (·.1), some (j, w.1)⟩) ∧
    (∀ (s : State) (c : Cur) (t : Task) (j : Nat) (w : BitVec 32), s.cur = some c → s.me? = some t → c.bad = some (j, w) →
      s.slotFault j = some ((s.atSlot j).raise 0x0100 0 w.toNat)) ∧
    (¬legal → prepBundle false words true = .fault { code := 0x0101, info := BitVec.ofNat 64 ss.length }) ∧
    prepBundle false words false = .fault { code := 0x0101, info := BitVec.ofNat 64 ss.length } ∧
    prepBundle true words true = .ready ⟨words.length, [], [], none⟩

/-- 05 R129 to R131; 04 R104; 12 R308: a step whose turn is a core's issue runs the instructions that the bundle at the PC
decodes to, each by its meaning, and closes the bundle: the task's PC is past it, or where its control slot says. The
meanings are run on the registers as they stand before the bundle, in slot order but for the engine slots, which come
last. -/
def Obligations.StepRunsBundle : Prop :=
  ∀ (s s1 v : State) (core sq : Nat) (c c1 : Cur) (t : Task) (rest : List (Instr × EvArg)) (vs : List State) (js : List Nat),
    s.inputs = [] → (∀ e ∈ s.due, s.cycle < e.1) → s.turns = (.issueBundle, .num core) :: rest →
    exec .issueBundle { s with turns := rest, arg := .num2 core 0 } = .next s1 → s1.cur = some c → s1.me? = some t →
    t.lockstep = false → t.sq = some sq → c.nullified = false → c.bad = none →
    (∀ j, j < c.slots.length → s1.slotFault j = none) →
    let ins (j : Nat) : Instr := (c.slots.getD j (⟨0, false⟩, .nop)).2
    let order := (List.range c.slots.length).filter (fun j => !isMatrixSlot (ins j)) ++
      (List.range c.slots.length).filter fun j => isMatrixSlot (ins j)
    let runs (j : Nat) (a b : State) : Prop := exec (ins j) (a.atSlot j) = .next b ∧
      ∃ x, b.cur = some x ∧ x.slots = c.slots
    js = order → vs.length = js.length + 1 → vs[0]? = some s1 → vs[js.length]? = some v →
    (∀ (k j : Nat) (a b : State), js[k]? = some j → vs[k]? = some a → vs[k + 1]? = some b → runs j a b) →
    (∀ j, j < c.slots.length → ∃ b, runs j s1 b) → v.queueAfter ≤ 16 → v.commitHeld = false → v.cur = some c1 →
    let closed := (v.closeMember (c1.flow t.r.loops)).yieldAll [c.tid] c1.yieldReq
    (closed.issuedBy c.tid ≠ s1.issuedBy c.tid ∨ closed.task? c.tid = none) →
      step s = .next (closed.ageLosers core sq)

/-- The machine does at each step what comes first: an event from outside, else one that is due, else what is left of the
cycle, else the next cycle begins, with the events whose time has come due in it (log entries 5 and 79). -/
def Obligations.StepRunsEvent : Prop :=
  ∀ (s : State) (i : Instr) (a : EvArg), (i = .issueBundle → ∀ core, a ≠ .num core) →
    (∀ rest, s.inputs = (i, a) :: rest → step s = exec i { s with inputs := rest, arg := a }) ∧
    (∀ at_ rest, s.inputs = [] → s.due = (at_, i, a) :: rest → at_ ≤ s.cycle →
      step s = exec i { s with due := rest, arg := a }) ∧
    (∀ rest, s.inputs = [] → (∀ e, s.due.head? = some e → s.cycle < e.1) → s.turns = (i, a) :: rest →
      step s = exec i { s with turns := rest, arg := a }) ∧
    (s.inputs = [] → (∀ e, s.due.head? = some e → s.cycle < e.1) → s.turns = [] →
      ∃ u, step s = .next u ∧ u.cycle = s.cycle + 1 ∧ u.time = s.time + periodUnits s.package.point ∧
        u.turns = { u with turns := [] }.turnsNow ∧
        (∀ x ∈ s.timers, (x.1 ≤ u.time → x ∉ u.timers ∧ (u.cycle, x.2) ∈ u.due) ∧ (u.time < x.1 → x ∈ u.timers)) ∧
        ((∀ t ∈ s.tasks, ∀ b k o, t.wait ≠ some (.roll b k o)) → u.mem = s.mem ∧ u.tasks = s.tasks ∧
          ((∀ x ∈ s.timers, u.time < x.1) → u.due = s.due)))

/-- 11 R264 to R283: words written out from the encoding tables decode to the instructions they stand for. -/
def Obligations.DecodeSampleWords : Prop :=
  decodeSlot 0x04432000 [] = some (⟨0, false⟩, .add 2 3 4) ∧
  decodeSlot 0x08630800 [] = some (⟨0, false⟩, .addi 3 3 ⟨1, []⟩) ∧
  decodeSlot 0x1C034001 [] = some (⟨0, false⟩, .loopi 3 ⟨8, []⟩) ∧
  decodeSlot 0x4CC5030E [0x0000002] = some (⟨3, false⟩, .st .z64 6 5 ⟨0, [2]⟩) ∧
  decodeSlot 0x28C11200 [] = some (⟨2, false⟩, .vfma .f32 6 1 2)

/-- 12 R294: a slot of classes 1 to 8 that bit 0 of its guard disables does nothing; so does a scalar memory slot, and an
engine command (05 R125). -/
def Obligations.GuardedOff : Prop :=
  ∀ (s : State) (g : Guard) (i : Instr) (r : RawSlot), i.toRaw g = some r → s.enabled = false →
    (1 ≤ r.cls.toNat ∧ r.cls.toNat ≤ 8 ∨ r.cls.toNat ∈ [18, 19, 22, 23, 24, 25, 28]) → exec i s = .next s

/-- 11 R264 to R283: the words of every well-formed slot instruction decode to it, with its guard; each has STOP clear. -/
def Obligations.DecodeEncode : Prop :=
  ∀ (g : Guard) (i : Instr), g.wf = true → i.wf = true → i.isSlot = true → (i = .nop → g = ⟨0, false⟩) →
    ∃ ws, encode g i = some ws ∧ decodeWords ws = some (g, i) ∧ ∀ w ∈ ws, wordStop w = false

/-- Every step keeps memory, the scratchpads and the mailbox's two buffers in their one canonical form. -/
def Obligations.StepKeepsCanonicalForm : Prop :=
  ∀ (s t : State), s.Inv → step s = .next t → t.Inv

/-- 02 R55; 03 R65, R67, R71; 04 R106; 09 R225; 01 R23, R31; 05 R139: what a full reset leaves: no task, launch or card, the
clock of cycles at 0, and each register at the value its table gives, as the host reads it once the link is up and the
device READY. The machine's state after reset keeps the canonical form. -/
def Obligations.ResetRules : Prop :=
  let s := State.reset
  let up : State := { s with host := { s.host with welomUp := true }, package := { s.package with phase := .ready } }
  s.cycle = 0 ∧ s.package.phase = .reset ∧ s.tasks = [] ∧ s.launches = [] ∧ s.host.cards = [] ∧ s.cur = none ∧ s.Inv ∧
  (∀ a, cellGet s.mem.bytes a = 0) ∧
  (∀ q, q < 64 → up.readReg (0xC0000 + 0x100 * q) = 0x400 ∧ up.readReg (0xC0000 + 0x100 * q + 0x08) = 0 ∧
    up.readReg (0xC0000 + 0x100 * q + 0x10) = 4 ∧ up.readReg (0xC0000 + 0x100 * q + 0x18) = 0 ∧
    up.readReg (0xC0000 + 0x100 * q + 0x20) = 0 ∧ up.readReg (0xC0000 + 0x100 * q + 0x28) = 0) ∧
  (∀ n, n < 64 → up.readReg (0x100000 + 0x1000 * n + 0x100) = 0 ∧ up.readReg (0x100000 + 0x1000 * n + 0x108) = 0 ∧
    up.readReg (0x100000 + 0x1000 * n + 0x110) = 4096 ∧ up.readReg (0x100000 + 0x1000 * n + 0x118) = 20000 ∧
    up.readReg (0x100000 + 0x1000 * n + 0x120) = 50000 ∧ up.readReg (0x100000 + 0x1000 * n + 0x128) = 2 ∧
    up.readReg (0x100000 + 0x1000 * n + 0x168) = 0x5956F) ∧
  (∀ b, b = 0x40000 ∨ b = 0x80000 → up.readReg (b + 0x21000) = 0x1000000 ∧ up.readReg (b + 0x21008) = 0x400000 ∧
    up.readReg (b + 0x21010) = 0) ∧
  up.readReg 0x100 = 0 ∧ up.readReg 0x200 = 0 ∧ up.readReg 0x300 = 0

/-- 11 R267; 12 R298 to R300: immediate values, and the instructions of class 2. -/
def Obligations.ImmediateResults : Prop := Claim.ImmediateValues ∧ Claim.ImmediateAluResults

/-- 12 R301 to R303: class 3. -/
def Obligations.MultiplyBitResults : Prop := Claim.MultiplyDivideResults ∧ Claim.BitFieldCountResults

/-- 05 R136; 12 R311 to R313: hardware loops. -/
def Obligations.HardwareLoops : Prop := Claim.LoopSetup ∧ Claim.LoopBackRule

/-- 05 R127; 08 R207, R208; 12 R315 to R317: system registers and FMT. -/
def Obligations.SystemRegisters : Prop := Claim.SystemRegisterAccess ∧ Claim.FormatRegisterStored

/-- 06 R159, R163, R164, R166; 12 R320, R321: TRAP enters the handler; TRAPRET, TRAPRETG and TRAPRST leave it. -/
def Obligations.TrapEntryAndReturn : Prop := Claim.TrapEntryByTrap ∧ Claim.TrapReturns

/-- 13 R332, R333: classes 10 and 16. -/
def Obligations.FusedAndDivideResults : Prop := Claim.FusedMultiplyAddResults ∧ Claim.DivideTranscendentalResults

/-- 13 R335 to R337: class 12. -/
def Obligations.CompareLogicResults : Prop := Claim.VectorCompareResults ∧ Claim.VectorLogicMoveResults

/-- 08 R220, R221; 13 R338 to R340, R344, R345: classes 13, 14 and 15. -/
def Obligations.ReductionConversionResults : Prop := Claim.ReductionScanResults ∧ Claim.ConvertQuantiseResults

/-- 12 R304 to R306: classes 4 and 5. -/
def Obligations.ScalarConvertCompare : Prop := Claim.ComparePredicateResults ∧ Claim.ScalarConversionResults

/-- 06 R169; 07 R179; 14 R360, R361: scalar stores, plain and of a versioned task. -/
def Obligations.ScalarStores : Prop := Claim.ScalarStoreResults ∧ Claim.VersionedStoreResults

/-- 14 R362 to R364: vector loads and stores. -/
def Obligations.VectorMemoryResults : Prop := Claim.VectorLoadResults ∧ Claim.VectorStoreResults

/-- 07 R196; 14 R369 to R371: atomics of one place. -/
def Obligations.ScalarAtomics : Prop := Claim.ScalarAtomicResults ∧ Claim.WideFloatAtomicResults

/-- 14 R365, R366: full/empty accesses at issue and when they come again. -/
def Obligations.FullEmptyRules : Prop := Claim.FullEmptyResults ∧ Claim.FullEmptyRetryRules

/-- 03 R89; 14 R375 to R377, R379 to R381: bells and rolls. -/
def Obligations.BellsAndRolls : Prop := Claim.BellResults ∧ Claim.RollResults

/-- 02 R35, R45, R50, R51; 14 R358, R382 to R384: slip stores, and accesses to pages of a peer. -/
def Obligations.SlipAndRemoteIssue : Prop := Claim.SlipStoreResults ∧ Claim.RemoteIssueResults

/-- 09 R222 to R227, R231, R233, R238; 14 R385: lock instructions and their checks. -/
def Obligations.LockInstructions : Prop := Claim.LockRequestRules ∧ Claim.LockInstructionResults

/-- 05 R145, R146; 14 R387, R388: cache controls, and the end of a cache operation. -/
def Obligations.CacheControlRules : Prop := Claim.CacheControlResults ∧ Claim.CacheOperationEnd

/-- 13 R348 to R350: stream operations. -/
def Obligations.StreamOperationRules : Prop :=
  Claim.StreamStartResults ∧ Claim.StreamElementRule ∧ Claim.StreamMergeResults

/-- 08 R217, R218; 15 R394: what an MMA computes. -/
def Obligations.MmaRules : Prop := Claim.ExactSumRule ∧ Claim.MmaResult

/-- 06 R170; 10 R245; 11 R284; 15 R405 to R409: engine commands, from the fork to the end. -/
def Obligations.EngineRules : Prop := Claim.EngineForkResults ∧ Claim.EngineWorkResults

/-- 01 R16 to R19, R23 to R26, R29 to R31, R442: start-up, alarms and power. -/
def Obligations.StartUpAndAlarms : Prop := Claim.StartUpRules ∧ Claim.AlarmPowerRules

/-- 01 R20, R25; 03 R66: the mailbox and its protocol. -/
def Obligations.MailboxProtocol : Prop := Claim.MailboxRules ∧ Claim.MailboxGoRules

/-- 02 R32 to R41, R43, R44; 18 R428: links, flits and a hub's registers. -/
def Obligations.LinkAndHubRules : Prop := Claim.LinkRules ∧ Claim.HubRegisterRules

/-- 02 R45, R46, R54, R55; 06 R160: requests at their target and replies at their issuer. -/
def Obligations.RemoteAccessRules : Prop := Claim.RemoteTargetRules ∧ Claim.RemoteReplyRules

/-- 02 R47 to R55: the slip table, holds and timetables. -/
def Obligations.SlipAndTimetableRules : Prop := Claim.SlipTableRules ∧ Claim.TimetableRules

/-- 01 R19; 02 R56 to R60; 03 R83; 15 R413: collectives, CXL ports, Ultra Ethernet and a partition. -/
def Obligations.CollectiveAndEdgeRules : Prop := Claim.CollectiveRules ∧ Claim.EdgeRules

/-- 00 R7; 03 R62, R63, R65, R68, R440; 05 R155; 14 R371: the aperture and register writes. -/
def Obligations.HostWindowRules : Prop := Claim.ApertureRules ∧ Claim.RegisterWriteRules

/-- 03 R68 to R78, R81, R84 to R92; 04 R95, R96, R98; 11 R283, R285; 15 R418, R420, R421: contexts, queues, job
cards and the drive. -/
def Obligations.CoachmanRules : Prop := Claim.QueueContextRules ∧ Claim.JobCardRules ∧ Claim.DriveRules

/-- 04 R96 to R99, R101 to R103, R122: release, creation and binding. -/
def Obligations.LaunchAndBindRules : Prop := Claim.LaunchRules ∧ Claim.BindRules

/-- 05 R139, R152, R156; 06 R174; 09 R225; 10 R249, R250: registers of a context, and hot-row groups. -/
def Obligations.ContextAndHotRowRules : Prop := Claim.ContextRegisterRules ∧ Claim.HotRowRules

/-- 01 R28; 05 R132; 06 R161, R162; 07 R179, R189, R190: stores performed, releases settled, data and faults that
arrive. -/
def Obligations.StoreAndDataEvents : Prop := Claim.StoreEventRules ∧ Claim.DataArrivalRules
end

