-- ==== Sys2Proof/Laws/State.lean ====
section
/-! SUPPORT. One lemma for each field of the state under each update of Base: a later proof unfolds no record. -/

namespace Sys2Proof.Machine

open Sys2Proof

variable (s : State)

/-! ### onPackage -/

@[simp] theorem State.onPackage_cycle (f : Package → Package) : (s.onPackage f).cycle = s.cycle := rfl
@[simp] theorem State.onPackage_time (f : Package → Package) : (s.onPackage f).time = s.time := rfl
@[simp] theorem State.onPackage_package (f : Package → Package) : (s.onPackage f).package = f s.package := rfl
@[simp] theorem State.onPackage_fabric (f : Package → Package) : (s.onPackage f).fabric = s.fabric := rfl
@[simp] theorem State.onPackage_host (f : Package → Package) : (s.onPackage f).host = s.host := rfl
@[simp] theorem State.onPackage_launches (f : Package → Package) : (s.onPackage f).launches = s.launches := rfl
@[simp] theorem State.onPackage_nextLnum (f : Package → Package) : (s.onPackage f).nextLnum = s.nextLnum := rfl
@[simp] theorem State.onPackage_tasks (f : Package → Package) : (s.onPackage f).tasks = s.tasks := rfl
@[simp] theorem State.onPackage_cores (f : Package → Package) : (s.onPackage f).cores = s.cores := rfl
@[simp] theorem State.onPackage_mem (f : Package → Package) : (s.onPackage f).mem = s.mem := rfl
@[simp] theorem State.onPackage_clocks (f : Package → Package) : (s.onPackage f).clocks = s.clocks := rfl
@[simp] theorem State.onPackage_prefects (f : Package → Package) : (s.onPackage f).prefects = s.prefects := rfl
@[simp] theorem State.onPackage_engines (f : Package → Package) : (s.onPackage f).engines = s.engines := rfl
@[simp] theorem State.onPackage_freeCtr (f : Package → Package) : (s.onPackage f).freeCtr = s.freeCtr := rfl
@[simp] theorem State.onPackage_nextId (f : Package → Package) : (s.onPackage f).nextId = s.nextId := rfl
@[simp] theorem State.onPackage_cur (f : Package → Package) : (s.onPackage f).cur = s.cur := rfl
@[simp] theorem State.onPackage_inputs (f : Package → Package) : (s.onPackage f).inputs = s.inputs := rfl
@[simp] theorem State.onPackage_due (f : Package → Package) : (s.onPackage f).due = s.due := rfl
@[simp] theorem State.onPackage_timers (f : Package → Package) : (s.onPackage f).timers = s.timers := rfl
@[simp] theorem State.onPackage_turns (f : Package → Package) : (s.onPackage f).turns = s.turns := rfl
@[simp] theorem State.onPackage_arg (f : Package → Package) : (s.onPackage f).arg = s.arg := rfl

/-! ### onFabric -/

@[simp] theorem State.onFabric_cycle (f : Fabric → Fabric) : (s.onFabric f).cycle = s.cycle := rfl
@[simp] theorem State.onFabric_time (f : Fabric → Fabric) : (s.onFabric f).time = s.time := rfl
@[simp] theorem State.onFabric_package (f : Fabric → Fabric) : (s.onFabric f).package = s.package := rfl
@[simp] theorem State.onFabric_fabric (f : Fabric → Fabric) : (s.onFabric f).fabric = f s.fabric := rfl
@[simp] theorem State.onFabric_host (f : Fabric → Fabric) : (s.onFabric f).host = s.host := rfl
@[simp] theorem State.onFabric_launches (f : Fabric → Fabric) : (s.onFabric f).launches = s.launches := rfl
@[simp] theorem State.onFabric_nextLnum (f : Fabric → Fabric) : (s.onFabric f).nextLnum = s.nextLnum := rfl
@[simp] theorem State.onFabric_tasks (f : Fabric → Fabric) : (s.onFabric f).tasks = s.tasks := rfl
@[simp] theorem State.onFabric_cores (f : Fabric → Fabric) : (s.onFabric f).cores = s.cores := rfl
@[simp] theorem State.onFabric_mem (f : Fabric → Fabric) : (s.onFabric f).mem = s.mem := rfl
@[simp] theorem State.onFabric_clocks (f : Fabric → Fabric) : (s.onFabric f).clocks = s.clocks := rfl
@[simp] theorem State.onFabric_prefects (f : Fabric → Fabric) : (s.onFabric f).prefects = s.prefects := rfl
@[simp] theorem State.onFabric_engines (f : Fabric → Fabric) : (s.onFabric f).engines = s.engines := rfl
@[simp] theorem State.onFabric_freeCtr (f : Fabric → Fabric) : (s.onFabric f).freeCtr = s.freeCtr := rfl
@[simp] theorem State.onFabric_nextId (f : Fabric → Fabric) : (s.onFabric f).nextId = s.nextId := rfl
@[simp] theorem State.onFabric_cur (f : Fabric → Fabric) : (s.onFabric f).cur = s.cur := rfl
@[simp] theorem State.onFabric_inputs (f : Fabric → Fabric) : (s.onFabric f).inputs = s.inputs := rfl
@[simp] theorem State.onFabric_due (f : Fabric → Fabric) : (s.onFabric f).due = s.due := rfl
@[simp] theorem State.onFabric_timers (f : Fabric → Fabric) : (s.onFabric f).timers = s.timers := rfl
@[simp] theorem State.onFabric_turns (f : Fabric → Fabric) : (s.onFabric f).turns = s.turns := rfl
@[simp] theorem State.onFabric_arg (f : Fabric → Fabric) : (s.onFabric f).arg = s.arg := rfl

/-! ### onHost -/

@[simp] theorem State.onHost_cycle (f : HostSide → HostSide) : (s.onHost f).cycle = s.cycle := rfl
@[simp] theorem State.onHost_time (f : HostSide → HostSide) : (s.onHost f).time = s.time := rfl
@[simp] theorem State.onHost_package (f : HostSide → HostSide) : (s.onHost f).package = s.package := rfl
@[simp] theorem State.onHost_fabric (f : HostSide → HostSide) : (s.onHost f).fabric = s.fabric := rfl
@[simp] theorem State.onHost_host (f : HostSide → HostSide) : (s.onHost f).host = f s.host := rfl
@[simp] theorem State.onHost_launches (f : HostSide → HostSide) : (s.onHost f).launches = s.launches := rfl
@[simp] theorem State.onHost_nextLnum (f : HostSide → HostSide) : (s.onHost f).nextLnum = s.nextLnum := rfl
@[simp] theorem State.onHost_tasks (f : HostSide → HostSide) : (s.onHost f).tasks = s.tasks := rfl
@[simp] theorem State.onHost_cores (f : HostSide → HostSide) : (s.onHost f).cores = s.cores := rfl
@[simp] theorem State.onHost_mem (f : HostSide → HostSide) : (s.onHost f).mem = s.mem := rfl
@[simp] theorem State.onHost_clocks (f : HostSide → HostSide) : (s.onHost f).clocks = s.clocks := rfl
@[simp] theorem State.onHost_prefects (f : HostSide → HostSide) : (s.onHost f).prefects = s.prefects := rfl
@[simp] theorem State.onHost_engines (f : HostSide → HostSide) : (s.onHost f).engines = s.engines := rfl
@[simp] theorem State.onHost_freeCtr (f : HostSide → HostSide) : (s.onHost f).freeCtr = s.freeCtr := rfl
@[simp] theorem State.onHost_nextId (f : HostSide → HostSide) : (s.onHost f).nextId = s.nextId := rfl
@[simp] theorem State.onHost_cur (f : HostSide → HostSide) : (s.onHost f).cur = s.cur := rfl
@[simp] theorem State.onHost_inputs (f : HostSide → HostSide) : (s.onHost f).inputs = s.inputs := rfl
@[simp] theorem State.onHost_due (f : HostSide → HostSide) : (s.onHost f).due = s.due := rfl
@[simp] theorem State.onHost_timers (f : HostSide → HostSide) : (s.onHost f).timers = s.timers := rfl
@[simp] theorem State.onHost_turns (f : HostSide → HostSide) : (s.onHost f).turns = s.turns := rfl
@[simp] theorem State.onHost_arg (f : HostSide → HostSide) : (s.onHost f).arg = s.arg := rfl

/-! ### onCores -/

@[simp] theorem State.onCores_cycle (f : Cores → Cores) : (s.onCores f).cycle = s.cycle := rfl
@[simp] theorem State.onCores_time (f : Cores → Cores) : (s.onCores f).time = s.time := rfl
@[simp] theorem State.onCores_package (f : Cores → Cores) : (s.onCores f).package = s.package := rfl
@[simp] theorem State.onCores_fabric (f : Cores → Cores) : (s.onCores f).fabric = s.fabric := rfl
@[simp] theorem State.onCores_host (f : Cores → Cores) : (s.onCores f).host = s.host := rfl
@[simp] theorem State.onCores_launches (f : Cores → Cores) : (s.onCores f).launches = s.launches := rfl
@[simp] theorem State.onCores_nextLnum (f : Cores → Cores) : (s.onCores f).nextLnum = s.nextLnum := rfl
@[simp] theorem State.onCores_tasks (f : Cores → Cores) : (s.onCores f).tasks = s.tasks := rfl
@[simp] theorem State.onCores_cores (f : Cores → Cores) : (s.onCores f).cores = f s.cores := rfl
@[simp] theorem State.onCores_mem (f : Cores → Cores) : (s.onCores f).mem = s.mem := rfl
@[simp] theorem State.onCores_clocks (f : Cores → Cores) : (s.onCores f).clocks = s.clocks := rfl
@[simp] theorem State.onCores_prefects (f : Cores → Cores) : (s.onCores f).prefects = s.prefects := rfl
@[simp] theorem State.onCores_engines (f : Cores → Cores) : (s.onCores f).engines = s.engines := rfl
@[simp] theorem State.onCores_freeCtr (f : Cores → Cores) : (s.onCores f).freeCtr = s.freeCtr := rfl
@[simp] theorem State.onCores_nextId (f : Cores → Cores) : (s.onCores f).nextId = s.nextId := rfl
@[simp] theorem State.onCores_cur (f : Cores → Cores) : (s.onCores f).cur = s.cur := rfl
@[simp] theorem State.onCores_inputs (f : Cores → Cores) : (s.onCores f).inputs = s.inputs := rfl
@[simp] theorem State.onCores_due (f : Cores → Cores) : (s.onCores f).due = s.due := rfl
@[simp] theorem State.onCores_timers (f : Cores → Cores) : (s.onCores f).timers = s.timers := rfl
@[simp] theorem State.onCores_turns (f : Cores → Cores) : (s.onCores f).turns = s.turns := rfl
@[simp] theorem State.onCores_arg (f : Cores → Cores) : (s.onCores f).arg = s.arg := rfl

/-! ### onMem -/

@[simp] theorem State.onMem_cycle (f : Mem → Mem) : (s.onMem f).cycle = s.cycle := rfl
@[simp] theorem State.onMem_time (f : Mem → Mem) : (s.onMem f).time = s.time := rfl
@[simp] theorem State.onMem_package (f : Mem → Mem) : (s.onMem f).package = s.package := rfl
@[simp] theorem State.onMem_fabric (f : Mem → Mem) : (s.onMem f).fabric = s.fabric := rfl
@[simp] theorem State.onMem_host (f : Mem → Mem) : (s.onMem f).host = s.host := rfl
@[simp] theorem State.onMem_launches (f : Mem → Mem) : (s.onMem f).launches = s.launches := rfl
@[simp] theorem State.onMem_nextLnum (f : Mem → Mem) : (s.onMem f).nextLnum = s.nextLnum := rfl
@[simp] theorem State.onMem_tasks (f : Mem → Mem) : (s.onMem f).tasks = s.tasks := rfl
@[simp] theorem State.onMem_cores (f : Mem → Mem) : (s.onMem f).cores = s.cores := rfl
@[simp] theorem State.onMem_mem (f : Mem → Mem) : (s.onMem f).mem = f s.mem := rfl
@[simp] theorem State.onMem_clocks (f : Mem → Mem) : (s.onMem f).clocks = s.clocks := rfl
@[simp] theorem State.onMem_prefects (f : Mem → Mem) : (s.onMem f).prefects = s.prefects := rfl
@[simp] theorem State.onMem_engines (f : Mem → Mem) : (s.onMem f).engines = s.engines := rfl
@[simp] theorem State.onMem_freeCtr (f : Mem → Mem) : (s.onMem f).freeCtr = s.freeCtr := rfl
@[simp] theorem State.onMem_nextId (f : Mem → Mem) : (s.onMem f).nextId = s.nextId := rfl
@[simp] theorem State.onMem_cur (f : Mem → Mem) : (s.onMem f).cur = s.cur := rfl
@[simp] theorem State.onMem_inputs (f : Mem → Mem) : (s.onMem f).inputs = s.inputs := rfl
@[simp] theorem State.onMem_due (f : Mem → Mem) : (s.onMem f).due = s.due := rfl
@[simp] theorem State.onMem_timers (f : Mem → Mem) : (s.onMem f).timers = s.timers := rfl
@[simp] theorem State.onMem_turns (f : Mem → Mem) : (s.onMem f).turns = s.turns := rfl
@[simp] theorem State.onMem_arg (f : Mem → Mem) : (s.onMem f).arg = s.arg := rfl

/-! ### onEngines -/

@[simp] theorem State.onEngines_cycle (f : Engines → Engines) : (s.onEngines f).cycle = s.cycle := rfl
@[simp] theorem State.onEngines_time (f : Engines → Engines) : (s.onEngines f).time = s.time := rfl
@[simp] theorem State.onEngines_package (f : Engines → Engines) : (s.onEngines f).package = s.package := rfl
@[simp] theorem State.onEngines_fabric (f : Engines → Engines) : (s.onEngines f).fabric = s.fabric := rfl
@[simp] theorem State.onEngines_host (f : Engines → Engines) : (s.onEngines f).host = s.host := rfl
@[simp] theorem State.onEngines_launches (f : Engines → Engines) : (s.onEngines f).launches = s.launches := rfl
@[simp] theorem State.onEngines_nextLnum (f : Engines → Engines) : (s.onEngines f).nextLnum = s.nextLnum := rfl
@[simp] theorem State.onEngines_tasks (f : Engines → Engines) : (s.onEngines f).tasks = s.tasks := rfl
@[simp] theorem State.onEngines_cores (f : Engines → Engines) : (s.onEngines f).cores = s.cores := rfl
@[simp] theorem State.onEngines_mem (f : Engines → Engines) : (s.onEngines f).mem = s.mem := rfl
@[simp] theorem State.onEngines_clocks (f : Engines → Engines) : (s.onEngines f).clocks = s.clocks := rfl
@[simp] theorem State.onEngines_prefects (f : Engines → Engines) : (s.onEngines f).prefects = s.prefects := rfl
@[simp] theorem State.onEngines_engines (f : Engines → Engines) : (s.onEngines f).engines = f s.engines := rfl
@[simp] theorem State.onEngines_freeCtr (f : Engines → Engines) : (s.onEngines f).freeCtr = s.freeCtr := rfl
@[simp] theorem State.onEngines_nextId (f : Engines → Engines) : (s.onEngines f).nextId = s.nextId := rfl
@[simp] theorem State.onEngines_cur (f : Engines → Engines) : (s.onEngines f).cur = s.cur := rfl
@[simp] theorem State.onEngines_inputs (f : Engines → Engines) : (s.onEngines f).inputs = s.inputs := rfl
@[simp] theorem State.onEngines_due (f : Engines → Engines) : (s.onEngines f).due = s.due := rfl
@[simp] theorem State.onEngines_timers (f : Engines → Engines) : (s.onEngines f).timers = s.timers := rfl
@[simp] theorem State.onEngines_turns (f : Engines → Engines) : (s.onEngines f).turns = s.turns := rfl
@[simp] theorem State.onEngines_arg (f : Engines → Engines) : (s.onEngines f).arg = s.arg := rfl

/-! ### onPrefects -/

@[simp] theorem State.onPrefects_cycle (f : Prefects → Prefects) : (s.onPrefects f).cycle = s.cycle := rfl
@[simp] theorem State.onPrefects_time (f : Prefects → Prefects) : (s.onPrefects f).time = s.time := rfl
@[simp] theorem State.onPrefects_package (f : Prefects → Prefects) : (s.onPrefects f).package = s.package := rfl
@[simp] theorem State.onPrefects_fabric (f : Prefects → Prefects) : (s.onPrefects f).fabric = s.fabric := rfl
@[simp] theorem State.onPrefects_host (f : Prefects → Prefects) : (s.onPrefects f).host = s.host := rfl
@[simp] theorem State.onPrefects_launches (f : Prefects → Prefects) : (s.onPrefects f).launches = s.launches := rfl
@[simp] theorem State.onPrefects_nextLnum (f : Prefects → Prefects) : (s.onPrefects f).nextLnum = s.nextLnum := rfl
@[simp] theorem State.onPrefects_tasks (f : Prefects → Prefects) : (s.onPrefects f).tasks = s.tasks := rfl
@[simp] theorem State.onPrefects_cores (f : Prefects → Prefects) : (s.onPrefects f).cores = s.cores := rfl
@[simp] theorem State.onPrefects_mem (f : Prefects → Prefects) : (s.onPrefects f).mem = s.mem := rfl
@[simp] theorem State.onPrefects_clocks (f : Prefects → Prefects) : (s.onPrefects f).clocks = s.clocks := rfl
@[simp] theorem State.onPrefects_prefects (f : Prefects → Prefects) : (s.onPrefects f).prefects = f s.prefects := rfl
@[simp] theorem State.onPrefects_engines (f : Prefects → Prefects) : (s.onPrefects f).engines = s.engines := rfl
@[simp] theorem State.onPrefects_freeCtr (f : Prefects → Prefects) : (s.onPrefects f).freeCtr = s.freeCtr := rfl
@[simp] theorem State.onPrefects_nextId (f : Prefects → Prefects) : (s.onPrefects f).nextId = s.nextId := rfl
@[simp] theorem State.onPrefects_cur (f : Prefects → Prefects) : (s.onPrefects f).cur = s.cur := rfl
@[simp] theorem State.onPrefects_inputs (f : Prefects → Prefects) : (s.onPrefects f).inputs = s.inputs := rfl
@[simp] theorem State.onPrefects_due (f : Prefects → Prefects) : (s.onPrefects f).due = s.due := rfl
@[simp] theorem State.onPrefects_timers (f : Prefects → Prefects) : (s.onPrefects f).timers = s.timers := rfl
@[simp] theorem State.onPrefects_turns (f : Prefects → Prefects) : (s.onPrefects f).turns = s.turns := rfl
@[simp] theorem State.onPrefects_arg (f : Prefects → Prefects) : (s.onPrefects f).arg = s.arg := rfl

/-! ### onClocks -/

@[simp] theorem State.onClocks_cycle (f : Clocks → Clocks) : (s.onClocks f).cycle = s.cycle := rfl
@[simp] theorem State.onClocks_time (f : Clocks → Clocks) : (s.onClocks f).time = s.time := rfl
@[simp] theorem State.onClocks_package (f : Clocks → Clocks) : (s.onClocks f).package = s.package := rfl
@[simp] theorem State.onClocks_fabric (f : Clocks → Clocks) : (s.onClocks f).fabric = s.fabric := rfl
@[simp] theorem State.onClocks_host (f : Clocks → Clocks) : (s.onClocks f).host = s.host := rfl
@[simp] theorem State.onClocks_launches (f : Clocks → Clocks) : (s.onClocks f).launches = s.launches := rfl
@[simp] theorem State.onClocks_nextLnum (f : Clocks → Clocks) : (s.onClocks f).nextLnum = s.nextLnum := rfl
@[simp] theorem State.onClocks_tasks (f : Clocks → Clocks) : (s.onClocks f).tasks = s.tasks := rfl
@[simp] theorem State.onClocks_cores (f : Clocks → Clocks) : (s.onClocks f).cores = s.cores := rfl
@[simp] theorem State.onClocks_mem (f : Clocks → Clocks) : (s.onClocks f).mem = s.mem := rfl
@[simp] theorem State.onClocks_clocks (f : Clocks → Clocks) : (s.onClocks f).clocks = f s.clocks := rfl
@[simp] theorem State.onClocks_prefects (f : Clocks → Clocks) : (s.onClocks f).prefects = s.prefects := rfl
@[simp] theorem State.onClocks_engines (f : Clocks → Clocks) : (s.onClocks f).engines = s.engines := rfl
@[simp] theorem State.onClocks_freeCtr (f : Clocks → Clocks) : (s.onClocks f).freeCtr = s.freeCtr := rfl
@[simp] theorem State.onClocks_nextId (f : Clocks → Clocks) : (s.onClocks f).nextId = s.nextId := rfl
@[simp] theorem State.onClocks_cur (f : Clocks → Clocks) : (s.onClocks f).cur = s.cur := rfl
@[simp] theorem State.onClocks_inputs (f : Clocks → Clocks) : (s.onClocks f).inputs = s.inputs := rfl
@[simp] theorem State.onClocks_due (f : Clocks → Clocks) : (s.onClocks f).due = s.due := rfl
@[simp] theorem State.onClocks_timers (f : Clocks → Clocks) : (s.onClocks f).timers = s.timers := rfl
@[simp] theorem State.onClocks_turns (f : Clocks → Clocks) : (s.onClocks f).turns = s.turns := rfl
@[simp] theorem State.onClocks_arg (f : Clocks → Clocks) : (s.onClocks f).arg = s.arg := rfl

/-! ### onCur -/

@[simp] theorem State.onCur_cycle (f : Cur → Cur) : (s.onCur f).cycle = s.cycle := rfl
@[simp] theorem State.onCur_time (f : Cur → Cur) : (s.onCur f).time = s.time := rfl
@[simp] theorem State.onCur_package (f : Cur → Cur) : (s.onCur f).package = s.package := rfl
@[simp] theorem State.onCur_fabric (f : Cur → Cur) : (s.onCur f).fabric = s.fabric := rfl
@[simp] theorem State.onCur_host (f : Cur → Cur) : (s.onCur f).host = s.host := rfl
@[simp] theorem State.onCur_launches (f : Cur → Cur) : (s.onCur f).launches = s.launches := rfl
@[simp] theorem State.onCur_nextLnum (f : Cur → Cur) : (s.onCur f).nextLnum = s.nextLnum := rfl
@[simp] theorem State.onCur_tasks (f : Cur → Cur) : (s.onCur f).tasks = s.tasks := rfl
@[simp] theorem State.onCur_cores (f : Cur → Cur) : (s.onCur f).cores = s.cores := rfl
@[simp] theorem State.onCur_mem (f : Cur → Cur) : (s.onCur f).mem = s.mem := rfl
@[simp] theorem State.onCur_clocks (f : Cur → Cur) : (s.onCur f).clocks = s.clocks := rfl
@[simp] theorem State.onCur_prefects (f : Cur → Cur) : (s.onCur f).prefects = s.prefects := rfl
@[simp] theorem State.onCur_engines (f : Cur → Cur) : (s.onCur f).engines = s.engines := rfl
@[simp] theorem State.onCur_freeCtr (f : Cur → Cur) : (s.onCur f).freeCtr = s.freeCtr := rfl
@[simp] theorem State.onCur_nextId (f : Cur → Cur) : (s.onCur f).nextId = s.nextId := rfl
@[simp] theorem State.onCur_cur (f : Cur → Cur) : (s.onCur f).cur = s.cur.map f := rfl
@[simp] theorem State.onCur_inputs (f : Cur → Cur) : (s.onCur f).inputs = s.inputs := rfl
@[simp] theorem State.onCur_due (f : Cur → Cur) : (s.onCur f).due = s.due := rfl
@[simp] theorem State.onCur_timers (f : Cur → Cur) : (s.onCur f).timers = s.timers := rfl
@[simp] theorem State.onCur_turns (f : Cur → Cur) : (s.onCur f).turns = s.turns := rfl
@[simp] theorem State.onCur_arg (f : Cur → Cur) : (s.onCur f).arg = s.arg := rfl

/-! ### bumpFree -/

@[simp] theorem State.bumpFree_cycle (n : Nat) : (s.bumpFree n).cycle = s.cycle := rfl
@[simp] theorem State.bumpFree_time (n : Nat) : (s.bumpFree n).time = s.time := rfl
@[simp] theorem State.bumpFree_package (n : Nat) : (s.bumpFree n).package = s.package := rfl
@[simp] theorem State.bumpFree_fabric (n : Nat) : (s.bumpFree n).fabric = s.fabric := rfl
@[simp] theorem State.bumpFree_host (n : Nat) : (s.bumpFree n).host = s.host := rfl
@[simp] theorem State.bumpFree_launches (n : Nat) : (s.bumpFree n).launches = s.launches := rfl
@[simp] theorem State.bumpFree_nextLnum (n : Nat) : (s.bumpFree n).nextLnum = s.nextLnum := rfl
@[simp] theorem State.bumpFree_tasks (n : Nat) : (s.bumpFree n).tasks = s.tasks := rfl
@[simp] theorem State.bumpFree_cores (n : Nat) : (s.bumpFree n).cores = s.cores := rfl
@[simp] theorem State.bumpFree_mem (n : Nat) : (s.bumpFree n).mem = s.mem := rfl
@[simp] theorem State.bumpFree_clocks (n : Nat) : (s.bumpFree n).clocks = s.clocks := rfl
@[simp] theorem State.bumpFree_prefects (n : Nat) : (s.bumpFree n).prefects = s.prefects := rfl
@[simp] theorem State.bumpFree_engines (n : Nat) : (s.bumpFree n).engines = s.engines := rfl
@[simp] theorem State.bumpFree_freeCtr (n : Nat) : (s.bumpFree n).freeCtr = s.freeCtr + n := rfl
@[simp] theorem State.bumpFree_nextId (n : Nat) : (s.bumpFree n).nextId = s.nextId := rfl
@[simp] theorem State.bumpFree_cur (n : Nat) : (s.bumpFree n).cur = s.cur := rfl
@[simp] theorem State.bumpFree_inputs (n : Nat) : (s.bumpFree n).inputs = s.inputs := rfl
@[simp] theorem State.bumpFree_due (n : Nat) : (s.bumpFree n).due = s.due := rfl
@[simp] theorem State.bumpFree_timers (n : Nat) : (s.bumpFree n).timers = s.timers := rfl
@[simp] theorem State.bumpFree_turns (n : Nat) : (s.bumpFree n).turns = s.turns := rfl
@[simp] theorem State.bumpFree_arg (n : Nat) : (s.bumpFree n).arg = s.arg := rfl

/-! ### post -/

@[simp] theorem State.post_cycle (n : Nat) (i : Instr) (a : EvArg) : (s.post n i a).cycle = s.cycle := rfl
@[simp] theorem State.post_time (n : Nat) (i : Instr) (a : EvArg) : (s.post n i a).time = s.time := rfl
@[simp] theorem State.post_package (n : Nat) (i : Instr) (a : EvArg) : (s.post n i a).package = s.package := rfl
@[simp] theorem State.post_fabric (n : Nat) (i : Instr) (a : EvArg) : (s.post n i a).fabric = s.fabric := rfl
@[simp] theorem State.post_host (n : Nat) (i : Instr) (a : EvArg) : (s.post n i a).host = s.host := rfl
@[simp] theorem State.post_launches (n : Nat) (i : Instr) (a : EvArg) : (s.post n i a).launches = s.launches := rfl
@[simp] theorem State.post_nextLnum (n : Nat) (i : Instr) (a : EvArg) : (s.post n i a).nextLnum = s.nextLnum := rfl
@[simp] theorem State.post_tasks (n : Nat) (i : Instr) (a : EvArg) : (s.post n i a).tasks = s.tasks := rfl
@[simp] theorem State.post_cores (n : Nat) (i : Instr) (a : EvArg) : (s.post n i a).cores = s.cores := rfl
@[simp] theorem State.post_mem (n : Nat) (i : Instr) (a : EvArg) : (s.post n i a).mem = s.mem := rfl
@[simp] theorem State.post_clocks (n : Nat) (i : Instr) (a : EvArg) : (s.post n i a).clocks = s.clocks := rfl
@[simp] theorem State.post_prefects (n : Nat) (i : Instr) (a : EvArg) : (s.post n i a).prefects = s.prefects := rfl
@[simp] theorem State.post_engines (n : Nat) (i : Instr) (a : EvArg) : (s.post n i a).engines = s.engines := rfl
@[simp] theorem State.post_freeCtr (n : Nat) (i : Instr) (a : EvArg) : (s.post n i a).freeCtr = s.freeCtr := rfl
@[simp] theorem State.post_nextId (n : Nat) (i : Instr) (a : EvArg) : (s.post n i a).nextId = s.nextId := rfl
@[simp] theorem State.post_cur (n : Nat) (i : Instr) (a : EvArg) : (s.post n i a).cur = s.cur := rfl
@[simp] theorem State.post_inputs (n : Nat) (i : Instr) (a : EvArg) : (s.post n i a).inputs = s.inputs := rfl
@[simp] theorem State.post_due (n : Nat) (i : Instr) (a : EvArg) :
    (s.post n i a).due = insertDue (s.cycle + n) i a s.due := rfl
@[simp] theorem State.post_timers (n : Nat) (i : Instr) (a : EvArg) : (s.post n i a).timers = s.timers := rfl
@[simp] theorem State.post_turns (n : Nat) (i : Instr) (a : EvArg) : (s.post n i a).turns = s.turns := rfl
@[simp] theorem State.post_arg (n : Nat) (i : Instr) (a : EvArg) : (s.post n i a).arg = s.arg := rfl

/-! ### postFree -/

@[simp] theorem State.postFree_cycle (i : Instr) (a : EvArg) : (s.postFree i a).cycle = s.cycle := rfl
@[simp] theorem State.postFree_time (i : Instr) (a : EvArg) : (s.postFree i a).time = s.time := rfl
@[simp] theorem State.postFree_package (i : Instr) (a : EvArg) : (s.postFree i a).package = s.package := rfl
@[simp] theorem State.postFree_fabric (i : Instr) (a : EvArg) : (s.postFree i a).fabric = s.fabric := rfl
@[simp] theorem State.postFree_host (i : Instr) (a : EvArg) : (s.postFree i a).host = s.host := rfl
@[simp] theorem State.postFree_launches (i : Instr) (a : EvArg) : (s.postFree i a).launches = s.launches := rfl
@[simp] theorem State.postFree_nextLnum (i : Instr) (a : EvArg) : (s.postFree i a).nextLnum = s.nextLnum := rfl
@[simp] theorem State.postFree_tasks (i : Instr) (a : EvArg) : (s.postFree i a).tasks = s.tasks := rfl
@[simp] theorem State.postFree_cores (i : Instr) (a : EvArg) : (s.postFree i a).cores = s.cores := rfl
@[simp] theorem State.postFree_mem (i : Instr) (a : EvArg) : (s.postFree i a).mem = s.mem := rfl
@[simp] theorem State.postFree_clocks (i : Instr) (a : EvArg) : (s.postFree i a).clocks = s.clocks := rfl
@[simp] theorem State.postFree_prefects (i : Instr) (a : EvArg) : (s.postFree i a).prefects = s.prefects := rfl
@[simp] theorem State.postFree_engines (i : Instr) (a : EvArg) : (s.postFree i a).engines = s.engines := rfl
@[simp] theorem State.postFree_freeCtr (i : Instr) (a : EvArg) : (s.postFree i a).freeCtr = s.freeCtr + 1 := rfl
@[simp] theorem State.postFree_nextId (i : Instr) (a : EvArg) : (s.postFree i a).nextId = s.nextId := rfl
@[simp] theorem State.postFree_cur (i : Instr) (a : EvArg) : (s.postFree i a).cur = s.cur := rfl
@[simp] theorem State.postFree_inputs (i : Instr) (a : EvArg) : (s.postFree i a).inputs = s.inputs := rfl
@[simp] theorem State.postFree_due (i : Instr) (a : EvArg) :
    (s.postFree i a).due = insertDue (s.cycle + (Config.latency s.freeCtr + 1)) i a s.due := rfl
@[simp] theorem State.postFree_timers (i : Instr) (a : EvArg) : (s.postFree i a).timers = s.timers := rfl
@[simp] theorem State.postFree_turns (i : Instr) (a : EvArg) : (s.postFree i a).turns = s.turns := rfl
@[simp] theorem State.postFree_arg (i : Instr) (a : EvArg) : (s.postFree i a).arg = s.arg := rfl

/-! ### unpost -/

@[simp] theorem State.unpost_cycle (i : Instr) (a : EvArg) : (s.unpost i a).cycle = s.cycle := rfl
@[simp] theorem State.unpost_time (i : Instr) (a : EvArg) : (s.unpost i a).time = s.time := rfl
@[simp] theorem State.unpost_package (i : Instr) (a : EvArg) : (s.unpost i a).package = s.package := rfl
@[simp] theorem State.unpost_fabric (i : Instr) (a : EvArg) : (s.unpost i a).fabric = s.fabric := rfl
@[simp] theorem State.unpost_host (i : Instr) (a : EvArg) : (s.unpost i a).host = s.host := rfl
@[simp] theorem State.unpost_launches (i : Instr) (a : EvArg) : (s.unpost i a).launches = s.launches := rfl
@[simp] theorem State.unpost_nextLnum (i : Instr) (a : EvArg) : (s.unpost i a).nextLnum = s.nextLnum := rfl
@[simp] theorem State.unpost_tasks (i : Instr) (a : EvArg) : (s.unpost i a).tasks = s.tasks := rfl
@[simp] theorem State.unpost_cores (i : Instr) (a : EvArg) : (s.unpost i a).cores = s.cores := rfl
@[simp] theorem State.unpost_mem (i : Instr) (a : EvArg) : (s.unpost i a).mem = s.mem := rfl
@[simp] theorem State.unpost_clocks (i : Instr) (a : EvArg) : (s.unpost i a).clocks = s.clocks := rfl
@[simp] theorem State.unpost_prefects (i : Instr) (a : EvArg) : (s.unpost i a).prefects = s.prefects := rfl
@[simp] theorem State.unpost_engines (i : Instr) (a : EvArg) : (s.unpost i a).engines = s.engines := rfl
@[simp] theorem State.unpost_freeCtr (i : Instr) (a : EvArg) : (s.unpost i a).freeCtr = s.freeCtr := rfl
@[simp] theorem State.unpost_nextId (i : Instr) (a : EvArg) : (s.unpost i a).nextId = s.nextId := rfl
@[simp] theorem State.unpost_cur (i : Instr) (a : EvArg) : (s.unpost i a).cur = s.cur := rfl
@[simp] theorem State.unpost_inputs (i : Instr) (a : EvArg) : (s.unpost i a).inputs = s.inputs := rfl
@[simp] theorem State.unpost_due (i : Instr) (a : EvArg) :
    (s.unpost i a).due = s.due.filter fun d => !(decide (d.2.1 = i) && decide (d.2.2 = a)) := rfl
@[simp] theorem State.unpost_timers (i : Instr) (a : EvArg) : (s.unpost i a).timers = s.timers := rfl
@[simp] theorem State.unpost_turns (i : Instr) (a : EvArg) : (s.unpost i a).turns = s.turns := rfl
@[simp] theorem State.unpost_arg (i : Instr) (a : EvArg) : (s.unpost i a).arg = s.arg := rfl

/-! ### postTime -/

@[simp] theorem State.postTime_cycle (n : Nat) (i : Instr) (a : EvArg) : (s.postTime n i a).cycle = s.cycle := rfl
@[simp] theorem State.postTime_time (n : Nat) (i : Instr) (a : EvArg) : (s.postTime n i a).time = s.time := rfl
@[simp] theorem State.postTime_package (n : Nat) (i : Instr) (a : EvArg) : (s.postTime n i a).package = s.package := rfl
@[simp] theorem State.postTime_fabric (n : Nat) (i : Instr) (a : EvArg) : (s.postTime n i a).fabric = s.fabric := rfl
@[simp] theorem State.postTime_host (n : Nat) (i : Instr) (a : EvArg) : (s.postTime n i a).host = s.host := rfl
@[simp] theorem State.postTime_launches (n : Nat) (i : Instr) (a : EvArg) :
    (s.postTime n i a).launches = s.launches := rfl
@[simp] theorem State.postTime_nextLnum (n : Nat) (i : Instr) (a : EvArg) :
    (s.postTime n i a).nextLnum = s.nextLnum := rfl
@[simp] theorem State.postTime_tasks (n : Nat) (i : Instr) (a : EvArg) : (s.postTime n i a).tasks = s.tasks := rfl
@[simp] theorem State.postTime_cores (n : Nat) (i : Instr) (a : EvArg) : (s.postTime n i a).cores = s.cores := rfl
@[simp] theorem State.postTime_mem (n : Nat) (i : Instr) (a : EvArg) : (s.postTime n i a).mem = s.mem := rfl
@[simp] theorem State.postTime_clocks (n : Nat) (i : Instr) (a : EvArg) : (s.postTime n i a).clocks = s.clocks := rfl
@[simp] theorem State.postTime_prefects (n : Nat) (i : Instr) (a : EvArg) :
    (s.postTime n i a).prefects = s.prefects := rfl
@[simp] theorem State.postTime_engines (n : Nat) (i : Instr) (a : EvArg) : (s.postTime n i a).engines = s.engines := rfl
@[simp] theorem State.postTime_freeCtr (n : Nat) (i : Instr) (a : EvArg) : (s.postTime n i a).freeCtr = s.freeCtr := rfl
@[simp] theorem State.postTime_nextId (n : Nat) (i : Instr) (a : EvArg) : (s.postTime n i a).nextId = s.nextId := rfl
@[simp] theorem State.postTime_cur (n : Nat) (i : Instr) (a : EvArg) : (s.postTime n i a).cur = s.cur := rfl
@[simp] theorem State.postTime_inputs (n : Nat) (i : Instr) (a : EvArg) : (s.postTime n i a).inputs = s.inputs := rfl
@[simp] theorem State.postTime_due (n : Nat) (i : Instr) (a : EvArg) : (s.postTime n i a).due = s.due := rfl
@[simp] theorem State.postTime_timers (n : Nat) (i : Instr) (a : EvArg) :
    (s.postTime n i a).timers = insertDue (s.time + n) i a s.timers := rfl
@[simp] theorem State.postTime_turns (n : Nat) (i : Instr) (a : EvArg) : (s.postTime n i a).turns = s.turns := rfl
@[simp] theorem State.postTime_arg (n : Nat) (i : Instr) (a : EvArg) : (s.postTime n i a).arg = s.arg := rfl

/-! ### untime -/

@[simp] theorem State.untime_cycle (i : Instr) (a : EvArg) : (s.untime i a).cycle = s.cycle := rfl
@[simp] theorem State.untime_time (i : Instr) (a : EvArg) : (s.untime i a).time = s.time := rfl
@[simp] theorem State.untime_package (i : Instr) (a : EvArg) : (s.untime i a).package = s.package := rfl
@[simp] theorem State.untime_fabric (i : Instr) (a : EvArg) : (s.untime i a).fabric = s.fabric := rfl
@[simp] theorem State.untime_host (i : Instr) (a : EvArg) : (s.untime i a).host = s.host := rfl
@[simp] theorem State.untime_launches (i : Instr) (a : EvArg) : (s.untime i a).launches = s.launches := rfl
@[simp] theorem State.untime_nextLnum (i : Instr) (a : EvArg) : (s.untime i a).nextLnum = s.nextLnum := rfl
@[simp] theorem State.untime_tasks (i : Instr) (a : EvArg) : (s.untime i a).tasks = s.tasks := rfl
@[simp] theorem State.untime_cores (i : Instr) (a : EvArg) : (s.untime i a).cores = s.cores := rfl
@[simp] theorem State.untime_mem (i : Instr) (a : EvArg) : (s.untime i a).mem = s.mem := rfl
@[simp] theorem State.untime_clocks (i : Instr) (a : EvArg) : (s.untime i a).clocks = s.clocks := rfl
@[simp] theorem State.untime_prefects (i : Instr) (a : EvArg) : (s.untime i a).prefects = s.prefects := rfl
@[simp] theorem State.untime_engines (i : Instr) (a : EvArg) : (s.untime i a).engines = s.engines := rfl
@[simp] theorem State.untime_freeCtr (i : Instr) (a : EvArg) : (s.untime i a).freeCtr = s.freeCtr := rfl
@[simp] theorem State.untime_nextId (i : Instr) (a : EvArg) : (s.untime i a).nextId = s.nextId := rfl
@[simp] theorem State.untime_cur (i : Instr) (a : EvArg) : (s.untime i a).cur = s.cur := rfl
@[simp] theorem State.untime_inputs (i : Instr) (a : EvArg) : (s.untime i a).inputs = s.inputs := rfl
@[simp] theorem State.untime_due (i : Instr) (a : EvArg) : (s.untime i a).due = s.due := rfl
@[simp] theorem State.untime_timers (i : Instr) (a : EvArg) :
    (s.untime i a).timers = s.timers.filter fun d => !(decide (d.2.1 = i) && decide (d.2.2 = a)) := rfl
@[simp] theorem State.untime_turns (i : Instr) (a : EvArg) : (s.untime i a).turns = s.turns := rfl
@[simp] theorem State.untime_arg (i : Instr) (a : EvArg) : (s.untime i a).arg = s.arg := rfl

/-! ### modTask -/

@[simp] theorem State.modTask_cycle (w : Word) (f : Task → Task) : (s.modTask w f).cycle = s.cycle := rfl
@[simp] theorem State.modTask_time (w : Word) (f : Task → Task) : (s.modTask w f).time = s.time := rfl
@[simp] theorem State.modTask_package (w : Word) (f : Task → Task) : (s.modTask w f).package = s.package := rfl
@[simp] theorem State.modTask_fabric (w : Word) (f : Task → Task) : (s.modTask w f).fabric = s.fabric := rfl
@[simp] theorem State.modTask_host (w : Word) (f : Task → Task) : (s.modTask w f).host = s.host := rfl
@[simp] theorem State.modTask_launches (w : Word) (f : Task → Task) : (s.modTask w f).launches = s.launches := rfl
@[simp] theorem State.modTask_nextLnum (w : Word) (f : Task → Task) : (s.modTask w f).nextLnum = s.nextLnum := rfl
@[simp] theorem State.modTask_tasks (w : Word) (f : Task → Task) :
    (s.modTask w f).tasks = s.tasks.map fun t => if t.tid == w then f t else t := rfl
@[simp] theorem State.modTask_cores (w : Word) (f : Task → Task) : (s.modTask w f).cores = s.cores := rfl
@[simp] theorem State.modTask_mem (w : Word) (f : Task → Task) : (s.modTask w f).mem = s.mem := rfl
@[simp] theorem State.modTask_clocks (w : Word) (f : Task → Task) : (s.modTask w f).clocks = s.clocks := rfl
@[simp] theorem State.modTask_prefects (w : Word) (f : Task → Task) : (s.modTask w f).prefects = s.prefects := rfl
@[simp] theorem State.modTask_engines (w : Word) (f : Task → Task) : (s.modTask w f).engines = s.engines := rfl
@[simp] theorem State.modTask_freeCtr (w : Word) (f : Task → Task) : (s.modTask w f).freeCtr = s.freeCtr := rfl
@[simp] theorem State.modTask_nextId (w : Word) (f : Task → Task) : (s.modTask w f).nextId = s.nextId := rfl
@[simp] theorem State.modTask_cur (w : Word) (f : Task → Task) : (s.modTask w f).cur = s.cur := rfl
@[simp] theorem State.modTask_inputs (w : Word) (f : Task → Task) : (s.modTask w f).inputs = s.inputs := rfl
@[simp] theorem State.modTask_due (w : Word) (f : Task → Task) : (s.modTask w f).due = s.due := rfl
@[simp] theorem State.modTask_timers (w : Word) (f : Task → Task) : (s.modTask w f).timers = s.timers := rfl
@[simp] theorem State.modTask_turns (w : Word) (f : Task → Task) : (s.modTask w f).turns = s.turns := rfl
@[simp] theorem State.modTask_arg (w : Word) (f : Task → Task) : (s.modTask w f).arg = s.arg := rfl

/-! ### modLaunch -/

@[simp] theorem State.modLaunch_cycle (n : BitVec 32) (f : Launch → Launch) : (s.modLaunch n f).cycle = s.cycle := rfl
@[simp] theorem State.modLaunch_time (n : BitVec 32) (f : Launch → Launch) : (s.modLaunch n f).time = s.time := rfl
@[simp] theorem State.modLaunch_package (n : BitVec 32) (f : Launch → Launch) :
    (s.modLaunch n f).package = s.package := rfl
@[simp] theorem State.modLaunch_fabric (n : BitVec 32) (f : Launch → Launch) :
    (s.modLaunch n f).fabric = s.fabric := rfl
@[simp] theorem State.modLaunch_host (n : BitVec 32) (f : Launch → Launch) : (s.modLaunch n f).host = s.host := rfl
@[simp] theorem State.modLaunch_launches (n : BitVec 32) (f : Launch → Launch) :
    (s.modLaunch n f).launches = s.launches.map fun l => if l.lnum == n then f l else l := rfl
@[simp] theorem State.modLaunch_nextLnum (n : BitVec 32) (f : Launch → Launch) :
    (s.modLaunch n f).nextLnum = s.nextLnum := rfl
@[simp] theorem State.modLaunch_tasks (n : BitVec 32) (f : Launch → Launch) : (s.modLaunch n f).tasks = s.tasks := rfl
@[simp] theorem State.modLaunch_cores (n : BitVec 32) (f : Launch → Launch) : (s.modLaunch n f).cores = s.cores := rfl
@[simp] theorem State.modLaunch_mem (n : BitVec 32) (f : Launch → Launch) : (s.modLaunch n f).mem = s.mem := rfl
@[simp] theorem State.modLaunch_clocks (n : BitVec 32) (f : Launch → Launch) :
    (s.modLaunch n f).clocks = s.clocks := rfl
@[simp] theorem State.modLaunch_prefects (n : BitVec 32) (f : Launch → Launch) :
    (s.modLaunch n f).prefects = s.prefects := rfl
@[simp] theorem State.modLaunch_engines (n : BitVec 32) (f : Launch → Launch) :
    (s.modLaunch n f).engines = s.engines := rfl
@[simp] theorem State.modLaunch_freeCtr (n : BitVec 32) (f : Launch → Launch) :
    (s.modLaunch n f).freeCtr = s.freeCtr := rfl
@[simp] theorem State.modLaunch_nextId (n : BitVec 32) (f : Launch → Launch) :
    (s.modLaunch n f).nextId = s.nextId := rfl
@[simp] theorem State.modLaunch_cur (n : BitVec 32) (f : Launch → Launch) : (s.modLaunch n f).cur = s.cur := rfl
@[simp] theorem State.modLaunch_inputs (n : BitVec 32) (f : Launch → Launch) :
    (s.modLaunch n f).inputs = s.inputs := rfl
@[simp] theorem State.modLaunch_due (n : BitVec 32) (f : Launch → Launch) : (s.modLaunch n f).due = s.due := rfl
@[simp] theorem State.modLaunch_timers (n : BitVec 32) (f : Launch → Launch) :
    (s.modLaunch n f).timers = s.timers := rfl
@[simp] theorem State.modLaunch_turns (n : BitVec 32) (f : Launch → Launch) : (s.modLaunch n f).turns = s.turns := rfl
@[simp] theorem State.modLaunch_arg (n : BitVec 32) (f : Launch → Launch) : (s.modLaunch n f).arg = s.arg := rfl

/-! ### modCore -/

@[simp] theorem State.modCore_cycle (c : Nat) (f : CoreSt → CoreSt) : (s.modCore c f).cycle = s.cycle := rfl
@[simp] theorem State.modCore_time (c : Nat) (f : CoreSt → CoreSt) : (s.modCore c f).time = s.time := rfl
@[simp] theorem State.modCore_package (c : Nat) (f : CoreSt → CoreSt) : (s.modCore c f).package = s.package := rfl
@[simp] theorem State.modCore_fabric (c : Nat) (f : CoreSt → CoreSt) : (s.modCore c f).fabric = s.fabric := rfl
@[simp] theorem State.modCore_host (c : Nat) (f : CoreSt → CoreSt) : (s.modCore c f).host = s.host := rfl
@[simp] theorem State.modCore_launches (c : Nat) (f : CoreSt → CoreSt) : (s.modCore c f).launches = s.launches := rfl
@[simp] theorem State.modCore_nextLnum (c : Nat) (f : CoreSt → CoreSt) : (s.modCore c f).nextLnum = s.nextLnum := rfl
@[simp] theorem State.modCore_tasks (c : Nat) (f : CoreSt → CoreSt) : (s.modCore c f).tasks = s.tasks := rfl
@[simp] theorem State.modCore_cores (c : Nat) (f : CoreSt → CoreSt) :
    (s.modCore c f).cores = { s.cores with cores := s.cores.cores.upd {} c f } := rfl
@[simp] theorem State.modCore_mem (c : Nat) (f : CoreSt → CoreSt) : (s.modCore c f).mem = s.mem := rfl
@[simp] theorem State.modCore_clocks (c : Nat) (f : CoreSt → CoreSt) : (s.modCore c f).clocks = s.clocks := rfl
@[simp] theorem State.modCore_prefects (c : Nat) (f : CoreSt → CoreSt) : (s.modCore c f).prefects = s.prefects := rfl
@[simp] theorem State.modCore_engines (c : Nat) (f : CoreSt → CoreSt) : (s.modCore c f).engines = s.engines := rfl
@[simp] theorem State.modCore_freeCtr (c : Nat) (f : CoreSt → CoreSt) : (s.modCore c f).freeCtr = s.freeCtr := rfl
@[simp] theorem State.modCore_nextId (c : Nat) (f : CoreSt → CoreSt) : (s.modCore c f).nextId = s.nextId := rfl
@[simp] theorem State.modCore_cur (c : Nat) (f : CoreSt → CoreSt) : (s.modCore c f).cur = s.cur := rfl
@[simp] theorem State.modCore_inputs (c : Nat) (f : CoreSt → CoreSt) : (s.modCore c f).inputs = s.inputs := rfl
@[simp] theorem State.modCore_due (c : Nat) (f : CoreSt → CoreSt) : (s.modCore c f).due = s.due := rfl
@[simp] theorem State.modCore_timers (c : Nat) (f : CoreSt → CoreSt) : (s.modCore c f).timers = s.timers := rfl
@[simp] theorem State.modCore_turns (c : Nat) (f : CoreSt → CoreSt) : (s.modCore c f).turns = s.turns := rfl
@[simp] theorem State.modCore_arg (c : Nat) (f : CoreSt → CoreSt) : (s.modCore c f).arg = s.arg := rfl

/-! ### modCtx -/

@[simp] theorem State.modCtx_cycle (n : Nat) (f : Ctx → Ctx) : (s.modCtx n f).cycle = s.cycle := rfl
@[simp] theorem State.modCtx_time (n : Nat) (f : Ctx → Ctx) : (s.modCtx n f).time = s.time := rfl
@[simp] theorem State.modCtx_package (n : Nat) (f : Ctx → Ctx) : (s.modCtx n f).package = s.package := rfl
@[simp] theorem State.modCtx_fabric (n : Nat) (f : Ctx → Ctx) : (s.modCtx n f).fabric = s.fabric := rfl
@[simp] theorem State.modCtx_host (n : Nat) (f : Ctx → Ctx) :
    (s.modCtx n f).host = { s.host with ctxs := s.host.ctxs.upd {} n f } := rfl
@[simp] theorem State.modCtx_launches (n : Nat) (f : Ctx → Ctx) : (s.modCtx n f).launches = s.launches := rfl
@[simp] theorem State.modCtx_nextLnum (n : Nat) (f : Ctx → Ctx) : (s.modCtx n f).nextLnum = s.nextLnum := rfl
@[simp] theorem State.modCtx_tasks (n : Nat) (f : Ctx → Ctx) : (s.modCtx n f).tasks = s.tasks := rfl
@[simp] theorem State.modCtx_cores (n : Nat) (f : Ctx → Ctx) : (s.modCtx n f).cores = s.cores := rfl
@[simp] theorem State.modCtx_mem (n : Nat) (f : Ctx → Ctx) : (s.modCtx n f).mem = s.mem := rfl
@[simp] theorem State.modCtx_clocks (n : Nat) (f : Ctx → Ctx) : (s.modCtx n f).clocks = s.clocks := rfl
@[simp] theorem State.modCtx_prefects (n : Nat) (f : Ctx → Ctx) : (s.modCtx n f).prefects = s.prefects := rfl
@[simp] theorem State.modCtx_engines (n : Nat) (f : Ctx → Ctx) : (s.modCtx n f).engines = s.engines := rfl
@[simp] theorem State.modCtx_freeCtr (n : Nat) (f : Ctx → Ctx) : (s.modCtx n f).freeCtr = s.freeCtr := rfl
@[simp] theorem State.modCtx_nextId (n : Nat) (f : Ctx → Ctx) : (s.modCtx n f).nextId = s.nextId := rfl
@[simp] theorem State.modCtx_cur (n : Nat) (f : Ctx → Ctx) : (s.modCtx n f).cur = s.cur := rfl
@[simp] theorem State.modCtx_inputs (n : Nat) (f : Ctx → Ctx) : (s.modCtx n f).inputs = s.inputs := rfl
@[simp] theorem State.modCtx_due (n : Nat) (f : Ctx → Ctx) : (s.modCtx n f).due = s.due := rfl
@[simp] theorem State.modCtx_timers (n : Nat) (f : Ctx → Ctx) : (s.modCtx n f).timers = s.timers := rfl
@[simp] theorem State.modCtx_turns (n : Nat) (f : Ctx → Ctx) : (s.modCtx n f).turns = s.turns := rfl
@[simp] theorem State.modCtx_arg (n : Nat) (f : Ctx → Ctx) : (s.modCtx n f).arg = s.arg := rfl

/-! ### putWrite -/

@[simp] theorem State.putWrite_cycle (n : Nat) (r : RegId) (m : Word) (v : RegVal) :
    (s.putWrite n r m v).cycle = s.cycle := rfl
@[simp] theorem State.putWrite_time (n : Nat) (r : RegId) (m : Word) (v : RegVal) :
    (s.putWrite n r m v).time = s.time := rfl
@[simp] theorem State.putWrite_package (n : Nat) (r : RegId) (m : Word) (v : RegVal) :
    (s.putWrite n r m v).package = s.package := rfl
@[simp] theorem State.putWrite_fabric (n : Nat) (r : RegId) (m : Word) (v : RegVal) :
    (s.putWrite n r m v).fabric = s.fabric := rfl
@[simp] theorem State.putWrite_host (n : Nat) (r : RegId) (m : Word) (v : RegVal) :
    (s.putWrite n r m v).host = s.host := rfl
@[simp] theorem State.putWrite_launches (n : Nat) (r : RegId) (m : Word) (v : RegVal) :
    (s.putWrite n r m v).launches = s.launches := rfl
@[simp] theorem State.putWrite_nextLnum (n : Nat) (r : RegId) (m : Word) (v : RegVal) :
    (s.putWrite n r m v).nextLnum = s.nextLnum := rfl
@[simp] theorem State.putWrite_tasks (n : Nat) (r : RegId) (m : Word) (v : RegVal) :
    (s.putWrite n r m v).tasks = s.tasks := rfl
@[simp] theorem State.putWrite_cores (n : Nat) (r : RegId) (m : Word) (v : RegVal) :
    (s.putWrite n r m v).cores = s.cores := rfl
@[simp] theorem State.putWrite_mem (n : Nat) (r : RegId) (m : Word) (v : RegVal) :
    (s.putWrite n r m v).mem = s.mem := rfl
@[simp] theorem State.putWrite_clocks (n : Nat) (r : RegId) (m : Word) (v : RegVal) :
    (s.putWrite n r m v).clocks = s.clocks := rfl
@[simp] theorem State.putWrite_prefects (n : Nat) (r : RegId) (m : Word) (v : RegVal) :
    (s.putWrite n r m v).prefects = s.prefects := rfl
@[simp] theorem State.putWrite_engines (n : Nat) (r : RegId) (m : Word) (v : RegVal) :
    (s.putWrite n r m v).engines = s.engines := rfl
@[simp] theorem State.putWrite_freeCtr (n : Nat) (r : RegId) (m : Word) (v : RegVal) :
    (s.putWrite n r m v).freeCtr = s.freeCtr := rfl
@[simp] theorem State.putWrite_nextId (n : Nat) (r : RegId) (m : Word) (v : RegVal) :
    (s.putWrite n r m v).nextId = s.nextId := rfl
@[simp] theorem State.putWrite_cur (n : Nat) (r : RegId) (m : Word) (v : RegVal) :
    (s.putWrite n r m v).cur = s.cur.map fun c => { c with writes := c.writes ++ [⟨r, m, v, n, 0, c.slot⟩] } := rfl
@[simp] theorem State.putWrite_inputs (n : Nat) (r : RegId) (m : Word) (v : RegVal) :
    (s.putWrite n r m v).inputs = s.inputs := rfl
@[simp] theorem State.putWrite_due (n : Nat) (r : RegId) (m : Word) (v : RegVal) :
    (s.putWrite n r m v).due = s.due := rfl
@[simp] theorem State.putWrite_timers (n : Nat) (r : RegId) (m : Word) (v : RegVal) :
    (s.putWrite n r m v).timers = s.timers := rfl
@[simp] theorem State.putWrite_turns (n : Nat) (r : RegId) (m : Word) (v : RegVal) :
    (s.putWrite n r m v).turns = s.turns := rfl
@[simp] theorem State.putWrite_arg (n : Nat) (r : RegId) (m : Word) (v : RegVal) :
    (s.putWrite n r m v).arg = s.arg := rfl

/-! ### putG -/

@[simp] theorem State.putG_cycle (n : Nat) (d : Reg) (v : Word) : (s.putG n d v).cycle = s.cycle := rfl
@[simp] theorem State.putG_time (n : Nat) (d : Reg) (v : Word) : (s.putG n d v).time = s.time := rfl
@[simp] theorem State.putG_package (n : Nat) (d : Reg) (v : Word) : (s.putG n d v).package = s.package := rfl
@[simp] theorem State.putG_fabric (n : Nat) (d : Reg) (v : Word) : (s.putG n d v).fabric = s.fabric := rfl
@[simp] theorem State.putG_host (n : Nat) (d : Reg) (v : Word) : (s.putG n d v).host = s.host := rfl
@[simp] theorem State.putG_launches (n : Nat) (d : Reg) (v : Word) : (s.putG n d v).launches = s.launches := rfl
@[simp] theorem State.putG_nextLnum (n : Nat) (d : Reg) (v : Word) : (s.putG n d v).nextLnum = s.nextLnum := rfl
@[simp] theorem State.putG_tasks (n : Nat) (d : Reg) (v : Word) : (s.putG n d v).tasks = s.tasks := rfl
@[simp] theorem State.putG_cores (n : Nat) (d : Reg) (v : Word) : (s.putG n d v).cores = s.cores := rfl
@[simp] theorem State.putG_mem (n : Nat) (d : Reg) (v : Word) : (s.putG n d v).mem = s.mem := rfl
@[simp] theorem State.putG_clocks (n : Nat) (d : Reg) (v : Word) : (s.putG n d v).clocks = s.clocks := rfl
@[simp] theorem State.putG_prefects (n : Nat) (d : Reg) (v : Word) : (s.putG n d v).prefects = s.prefects := rfl
@[simp] theorem State.putG_engines (n : Nat) (d : Reg) (v : Word) : (s.putG n d v).engines = s.engines := rfl
@[simp] theorem State.putG_freeCtr (n : Nat) (d : Reg) (v : Word) : (s.putG n d v).freeCtr = s.freeCtr := rfl
@[simp] theorem State.putG_nextId (n : Nat) (d : Reg) (v : Word) : (s.putG n d v).nextId = s.nextId := rfl
@[simp] theorem State.putG_cur (n : Nat) (d : Reg) (v : Word) :
    (s.putG n d v).cur = s.cur.map fun c => { c with writes := c.writes ++ [⟨.g d, BitVec.allOnes 64, .word v, n, 0, c.slot⟩] } := rfl
@[simp] theorem State.putG_inputs (n : Nat) (d : Reg) (v : Word) : (s.putG n d v).inputs = s.inputs := rfl
@[simp] theorem State.putG_due (n : Nat) (d : Reg) (v : Word) : (s.putG n d v).due = s.due := rfl
@[simp] theorem State.putG_timers (n : Nat) (d : Reg) (v : Word) : (s.putG n d v).timers = s.timers := rfl
@[simp] theorem State.putG_turns (n : Nat) (d : Reg) (v : Word) : (s.putG n d v).turns = s.turns := rfl
@[simp] theorem State.putG_arg (n : Nat) (d : Reg) (v : Word) : (s.putG n d v).arg = s.arg := rfl

/-! ### putK -/

@[simp] theorem State.putK_cycle (n : Nat) (d : KReg) (v : Word) : (s.putK n d v).cycle = s.cycle := rfl
@[simp] theorem State.putK_time (n : Nat) (d : KReg) (v : Word) : (s.putK n d v).time = s.time := rfl
@[simp] theorem State.putK_package (n : Nat) (d : KReg) (v : Word) : (s.putK n d v).package = s.package := rfl
@[simp] theorem State.putK_fabric (n : Nat) (d : KReg) (v : Word) : (s.putK n d v).fabric = s.fabric := rfl
@[simp] theorem State.putK_host (n : Nat) (d : KReg) (v : Word) : (s.putK n d v).host = s.host := rfl
@[simp] theorem State.putK_launches (n : Nat) (d : KReg) (v : Word) : (s.putK n d v).launches = s.launches := rfl
@[simp] theorem State.putK_nextLnum (n : Nat) (d : KReg) (v : Word) : (s.putK n d v).nextLnum = s.nextLnum := rfl
@[simp] theorem State.putK_tasks (n : Nat) (d : KReg) (v : Word) : (s.putK n d v).tasks = s.tasks := rfl
@[simp] theorem State.putK_cores (n : Nat) (d : KReg) (v : Word) : (s.putK n d v).cores = s.cores := rfl
@[simp] theorem State.putK_mem (n : Nat) (d : KReg) (v : Word) : (s.putK n d v).mem = s.mem := rfl
@[simp] theorem State.putK_clocks (n : Nat) (d : KReg) (v : Word) : (s.putK n d v).clocks = s.clocks := rfl
@[simp] theorem State.putK_prefects (n : Nat) (d : KReg) (v : Word) : (s.putK n d v).prefects = s.prefects := rfl
@[simp] theorem State.putK_engines (n : Nat) (d : KReg) (v : Word) : (s.putK n d v).engines = s.engines := rfl
@[simp] theorem State.putK_freeCtr (n : Nat) (d : KReg) (v : Word) : (s.putK n d v).freeCtr = s.freeCtr := rfl
@[simp] theorem State.putK_nextId (n : Nat) (d : KReg) (v : Word) : (s.putK n d v).nextId = s.nextId := rfl
@[simp] theorem State.putK_cur (n : Nat) (d : KReg) (v : Word) :
    (s.putK n d v).cur = s.cur.map fun c => { c with writes := c.writes ++ [⟨.k d, BitVec.allOnes 64, .word v, n, 0, c.slot⟩] } := rfl
@[simp] theorem State.putK_inputs (n : Nat) (d : KReg) (v : Word) : (s.putK n d v).inputs = s.inputs := rfl
@[simp] theorem State.putK_due (n : Nat) (d : KReg) (v : Word) : (s.putK n d v).due = s.due := rfl
@[simp] theorem State.putK_timers (n : Nat) (d : KReg) (v : Word) : (s.putK n d v).timers = s.timers := rfl
@[simp] theorem State.putK_turns (n : Nat) (d : KReg) (v : Word) : (s.putK n d v).turns = s.turns := rfl
@[simp] theorem State.putK_arg (n : Nat) (d : KReg) (v : Word) : (s.putK n d v).arg = s.arg := rfl

/-! ### putV -/

@[simp] theorem State.putV_cycle (n : Nat) (d : Reg) (m : Word) (v : VReg) : (s.putV n d m v).cycle = s.cycle := rfl
@[simp] theorem State.putV_time (n : Nat) (d : Reg) (m : Word) (v : VReg) : (s.putV n d m v).time = s.time := rfl
@[simp] theorem State.putV_package (n : Nat) (d : Reg) (m : Word) (v : VReg) :
    (s.putV n d m v).package = s.package := rfl
@[simp] theorem State.putV_fabric (n : Nat) (d : Reg) (m : Word) (v : VReg) : (s.putV n d m v).fabric = s.fabric := rfl
@[simp] theorem State.putV_host (n : Nat) (d : Reg) (m : Word) (v : VReg) : (s.putV n d m v).host = s.host := rfl
@[simp] theorem State.putV_launches (n : Nat) (d : Reg) (m : Word) (v : VReg) :
    (s.putV n d m v).launches = s.launches := rfl
@[simp] theorem State.putV_nextLnum (n : Nat) (d : Reg) (m : Word) (v : VReg) :
    (s.putV n d m v).nextLnum = s.nextLnum := rfl
@[simp] theorem State.putV_tasks (n : Nat) (d : Reg) (m : Word) (v : VReg) : (s.putV n d m v).tasks = s.tasks := rfl
@[simp] theorem State.putV_cores (n : Nat) (d : Reg) (m : Word) (v : VReg) : (s.putV n d m v).cores = s.cores := rfl
@[simp] theorem State.putV_mem (n : Nat) (d : Reg) (m : Word) (v : VReg) : (s.putV n d m v).mem = s.mem := rfl
@[simp] theorem State.putV_clocks (n : Nat) (d : Reg) (m : Word) (v : VReg) : (s.putV n d m v).clocks = s.clocks := rfl
@[simp] theorem State.putV_prefects (n : Nat) (d : Reg) (m : Word) (v : VReg) :
    (s.putV n d m v).prefects = s.prefects := rfl
@[simp] theorem State.putV_engines (n : Nat) (d : Reg) (m : Word) (v : VReg) :
    (s.putV n d m v).engines = s.engines := rfl
@[simp] theorem State.putV_freeCtr (n : Nat) (d : Reg) (m : Word) (v : VReg) :
    (s.putV n d m v).freeCtr = s.freeCtr := rfl
@[simp] theorem State.putV_nextId (n : Nat) (d : Reg) (m : Word) (v : VReg) : (s.putV n d m v).nextId = s.nextId := rfl
@[simp] theorem State.putV_cur (n : Nat) (d : Reg) (m : Word) (v : VReg) :
    (s.putV n d m v).cur = s.cur.map fun c => { c with writes := c.writes ++ [⟨.v d, m, .vec v, n, 0, c.slot⟩] } := rfl
@[simp] theorem State.putV_inputs (n : Nat) (d : Reg) (m : Word) (v : VReg) : (s.putV n d m v).inputs = s.inputs := rfl
@[simp] theorem State.putV_due (n : Nat) (d : Reg) (m : Word) (v : VReg) : (s.putV n d m v).due = s.due := rfl
@[simp] theorem State.putV_timers (n : Nat) (d : Reg) (m : Word) (v : VReg) : (s.putV n d m v).timers = s.timers := rfl
@[simp] theorem State.putV_turns (n : Nat) (d : Reg) (m : Word) (v : VReg) : (s.putV n d m v).turns = s.turns := rfl
@[simp] theorem State.putV_arg (n : Nat) (d : Reg) (m : Word) (v : VReg) : (s.putV n d m v).arg = s.arg := rfl

/-! ### arith -/

@[simp] theorem State.arith_cycle (lane : Nat) (evs : List Nat) : (s.arith lane evs).cycle = s.cycle := rfl
@[simp] theorem State.arith_time (lane : Nat) (evs : List Nat) : (s.arith lane evs).time = s.time := rfl
@[simp] theorem State.arith_package (lane : Nat) (evs : List Nat) : (s.arith lane evs).package = s.package := rfl
@[simp] theorem State.arith_fabric (lane : Nat) (evs : List Nat) : (s.arith lane evs).fabric = s.fabric := rfl
@[simp] theorem State.arith_host (lane : Nat) (evs : List Nat) : (s.arith lane evs).host = s.host := rfl
@[simp] theorem State.arith_launches (lane : Nat) (evs : List Nat) : (s.arith lane evs).launches = s.launches := rfl
@[simp] theorem State.arith_nextLnum (lane : Nat) (evs : List Nat) : (s.arith lane evs).nextLnum = s.nextLnum := rfl
@[simp] theorem State.arith_tasks (lane : Nat) (evs : List Nat) : (s.arith lane evs).tasks = s.tasks := rfl
@[simp] theorem State.arith_cores (lane : Nat) (evs : List Nat) : (s.arith lane evs).cores = s.cores := rfl
@[simp] theorem State.arith_mem (lane : Nat) (evs : List Nat) : (s.arith lane evs).mem = s.mem := rfl
@[simp] theorem State.arith_clocks (lane : Nat) (evs : List Nat) : (s.arith lane evs).clocks = s.clocks := rfl
@[simp] theorem State.arith_prefects (lane : Nat) (evs : List Nat) : (s.arith lane evs).prefects = s.prefects := rfl
@[simp] theorem State.arith_engines (lane : Nat) (evs : List Nat) : (s.arith lane evs).engines = s.engines := rfl
@[simp] theorem State.arith_freeCtr (lane : Nat) (evs : List Nat) : (s.arith lane evs).freeCtr = s.freeCtr := rfl
@[simp] theorem State.arith_nextId (lane : Nat) (evs : List Nat) : (s.arith lane evs).nextId = s.nextId := rfl
@[simp] theorem State.arith_cur (lane : Nat) (evs : List Nat) :
    (s.arith lane evs).cur = s.cur.map fun c => { c with events := c.events ++ evs.map fun e => (c.slot, lane, e) } := rfl
@[simp] theorem State.arith_inputs (lane : Nat) (evs : List Nat) : (s.arith lane evs).inputs = s.inputs := rfl
@[simp] theorem State.arith_due (lane : Nat) (evs : List Nat) : (s.arith lane evs).due = s.due := rfl
@[simp] theorem State.arith_timers (lane : Nat) (evs : List Nat) : (s.arith lane evs).timers = s.timers := rfl
@[simp] theorem State.arith_turns (lane : Nat) (evs : List Nat) : (s.arith lane evs).turns = s.turns := rfl
@[simp] theorem State.arith_arg (lane : Nat) (evs : List Nat) : (s.arith lane evs).arg = s.arg := rfl

/-! ### A slot that its guard does not enable -/

theorem State.whenOn_of_enabled {s : State} (f : State → State) (h : s.enabled = true) : s.whenOn f = f s := by
  simp [State.whenOn, h]

theorem State.whenOn_of_disabled {s : State} (f : State → State) (h : s.enabled = false) : s.whenOn f = s := by
  simp [State.whenOn, h]

/-! ### Tables -/

theorem State.core_modCore_same (c : Nat) (f : CoreSt → CoreSt) : (s.modCore c f).core c = f (s.core c) := by
  simp [State.core, Tbl.upd, Tbl.getD, Tbl.find?_put_same]

theorem State.core_modCore_other {c d : Nat} (f : CoreSt → CoreSt) (h : d ≠ c) : (s.modCore c f).core d = s.core d := by
  simp [State.core, Tbl.upd, Tbl.getD, Tbl.find?_put_other _ _ h]

theorem State.ctx_modCtx_same (n : Nat) (f : Ctx → Ctx) : (s.modCtx n f).ctx n = f (s.ctx n) := by
  simp [State.ctx, Tbl.upd, Tbl.getD, Tbl.find?_put_same]

theorem State.ctx_modCtx_other {n m : Nat} (f : Ctx → Ctx) (h : m ≠ n) : (s.modCtx n f).ctx m = s.ctx m := by
  simp [State.ctx, Tbl.upd, Tbl.getD, Tbl.find?_put_other _ _ h]

end Sys2Proof.Machine
end

