-- ==== Sys2Proof/Laws/Memory.lean ====
section
/-! SUPPORT. Reading after writing, and the canonical form of memory: what every operation of Memory keeps. -/

namespace Sys2Proof.Machine

open Sys2Proof

/-! ## Above an address -/

theorem cellsAbove_cons {a k : Nat} {x : Byte} {t : List Host.Cell} :
    cellsAbove (some a) ((k, x) :: t) = true ↔ a < k ∧ x ≠ 0#8 ∧ cellsAbove (some k) t = true := by
  simp [cellsAbove, bne_iff_ne, and_assoc]

theorem cellsWf_cons {k : Nat} {x : Byte} {t : List Host.Cell} :
    cellsWf ((k, x) :: t) = true ↔ x ≠ 0#8 ∧ cellsAbove (some k) t = true := by
  simp [cellsWf, cellsAbove, bne_iff_ne]

theorem cellsAbove_weaken {a b : Nat} (h : a ≤ b) {m : List Host.Cell} (hm : cellsAbove (some b) m = true) :
    cellsAbove (some a) m = true := by
  cases m with
  | nil => rfl
  | cons c t =>
    obtain ⟨hk, hx⟩ := cellsAbove_cons.mp hm
    exact cellsAbove_cons.mpr ⟨by omega, hx⟩

theorem cellsWf_of_above {a : Nat} {m : List Host.Cell} (h : cellsAbove (some a) m = true) : cellsWf m = true := by
  cases m with
  | nil => rfl
  | cons c t => exact cellsWf_cons.mpr (cellsAbove_cons.mp h).2

/-- An address at or below all those listed reads zero. -/
theorem cellGet_of_above {a : Nat} {m : List Host.Cell} (h : cellsAbove (some a) m = true) {x : Nat} (hx : x ≤ a) :
    cellGet m x = 0 := by
  induction m generalizing a with
  | nil => rfl
  | cons c t ih =>
    obtain ⟨hk, _, ht⟩ := cellsAbove_cons.mp h
    have : ¬ c.1 = x := by omega
    simp only [cellGet, this, if_false]
    exact ih ht (by omega)

/-! ## One byte -/

theorem cellPut_above {a k : Nat} {x : Byte} (hx : x ≠ 0#8) {m : List Host.Cell} (ha : a < k)
    (h : cellsAbove (some a) m = true) : cellsAbove (some a) (cellPut m k x) = true := by
  induction m generalizing a with
  | nil => exact cellsAbove_cons.mpr ⟨ha, hx, rfl⟩
  | cons c t ih =>
    obtain ⟨hk, hy, ht⟩ := cellsAbove_cons.mp h
    unfold cellPut
    split
    · exact cellsAbove_cons.mpr ⟨ha, hx, cellsAbove_cons.mpr ⟨by assumption, hy, ht⟩⟩
    · split
      · subst_vars; exact cellsAbove_cons.mpr ⟨ha, hx, ht⟩
      · exact cellsAbove_cons.mpr ⟨hk, hy, ih (by omega) ht⟩

theorem cellDel_above {a k : Nat} {m : List Host.Cell} (h : cellsAbove (some a) m = true) :
    cellsAbove (some a) (cellDel m k) = true := by
  induction m generalizing a with
  | nil => rfl
  | cons c t ih =>
    obtain ⟨hk, hy, ht⟩ := cellsAbove_cons.mp h
    unfold cellDel
    split
    · exact cellsAbove_weaken (by omega) ht
    · exact cellsAbove_cons.mpr ⟨hk, hy, ih ht⟩

theorem cellPut_wf {m : List Host.Cell} (h : cellsWf m = true) (a : Nat) {x : Byte} (hx : x ≠ 0#8) :
    cellsWf (cellPut m a x) = true := by
  cases m with
  | nil => exact cellsWf_cons.mpr ⟨hx, rfl⟩
  | cons c t =>
    obtain ⟨hy, ht⟩ := cellsWf_cons.mp h
    unfold cellPut
    split
    · exact cellsWf_cons.mpr ⟨hx, cellsAbove_cons.mpr ⟨by assumption, hy, ht⟩⟩
    · split
      · subst_vars; exact cellsWf_cons.mpr ⟨hx, ht⟩
      · exact cellsWf_cons.mpr ⟨hy, cellPut_above hx (by omega) ht⟩

theorem cellDel_wf {m : List Host.Cell} (h : cellsWf m = true) (a : Nat) : cellsWf (cellDel m a) = true := by
  cases m with
  | nil => rfl
  | cons c t =>
    obtain ⟨hy, ht⟩ := cellsWf_cons.mp h
    unfold cellDel
    split
    · exact cellsWf_of_above ht
    · exact cellsWf_cons.mpr ⟨hy, cellDel_above ht⟩

theorem cellSet_wf {m : List Host.Cell} (h : cellsWf m = true) (a : Nat) (x : Byte) :
    cellsWf (cellSet m a x) = true := by
  unfold cellSet
  split
  · exact cellDel_wf h a
  · exact cellPut_wf h a (by assumption)

theorem cellGet_cellPut_same (m : List Host.Cell) (a : Nat) (x : Byte) : cellGet (cellPut m a x) a = x := by
  induction m with
  | nil => simp [cellPut, cellGet]
  | cons c t ih =>
    obtain ⟨k, y⟩ := c
    unfold cellPut
    split
    · simp [cellGet]
    · split
      · simp [cellGet]
      · have hk : ¬ k = a := by omega
        simp [cellGet, hk, ih]

theorem cellGet_cellPut_other (m : List Host.Cell) {a b : Nat} (x : Byte) (h : b ≠ a) :
    cellGet (cellPut m a x) b = cellGet m b := by
  have hab : ¬ a = b := fun e => h e.symm
  induction m with
  | nil => simp [cellPut, cellGet, hab]
  | cons c t ih =>
    obtain ⟨k, y⟩ := c
    unfold cellPut
    split
    · simp [cellGet, hab]
    · split
      · subst_vars; simp [cellGet, hab]
      · simp [cellGet, ih]

theorem cellGet_cellDel_other (m : List Host.Cell) {a b : Nat} (h : b ≠ a) : cellGet (cellDel m a) b = cellGet m b := by
  induction m with
  | nil => rfl
  | cons c t ih =>
    obtain ⟨k, y⟩ := c
    unfold cellDel
    split
    · have : ¬ k = b := by omega
      simp [cellGet, this]
    · simp [cellGet, ih]

theorem cellGet_cellDel_same {m : List Host.Cell} (h : cellsWf m = true) (a : Nat) : cellGet (cellDel m a) a = 0 := by
  have go : ∀ (m : List Host.Cell), cellsWf m = true → cellGet (cellDel m a) a = 0 := by
    intro m
    induction m with
    | nil => intro _; rfl
    | cons c t ih =>
      obtain ⟨k, y⟩ := c
      intro h
      have ht := (cellsWf_cons.mp h).2
      unfold cellDel
      split
      · subst_vars; exact cellGet_of_above ht (Nat.le_refl _)
      · simp only [cellGet, *, if_false]; exact ih (cellsWf_of_above ht)
  exact go m h

/-- A read after a write to the same address gives the value written. -/
theorem cellGet_cellSet_same {m : List Host.Cell} (h : cellsWf m = true) (a : Nat) (x : Byte) :
    cellGet (cellSet m a x) a = x := by
  by_cases hx : x = 0#8
  · simp [cellSet, hx, cellGet_cellDel_same h]
  · simp [cellSet, hx, cellGet_cellPut_same]

/-- A write leaves every other address alone. -/
theorem cellGet_cellSet_other (m : List Host.Cell) {a b : Nat} (x : Byte) (h : b ≠ a) :
    cellGet (cellSet m a x) b = cellGet m b := by
  by_cases hx : x = 0#8
  · simp [cellSet, hx, cellGet_cellDel_other m h]
  · simp [cellSet, hx, cellGet_cellPut_other m x h]

/-! ## Several bytes -/

theorem cellsWrite_wf {m : List Host.Cell} (h : cellsWf m = true) (a : Nat) (bs : List Byte) :
    cellsWf (cellsWrite m a bs) = true := by
  induction bs generalizing m a with
  | nil => exact h
  | cons b bs ih => exact ih (cellSet_wf h a b) (a + 1)

theorem cellGet_cellsWrite_outside (m : List Host.Cell) (a : Nat) (bs : List Byte) {x : Nat}
    (h : x < a ∨ a + bs.length ≤ x) : cellGet (cellsWrite m a bs) x = cellGet m x := by
  induction bs generalizing m a with
  | nil => rfl
  | cons b bs ih =>
    simp only [List.length_cons] at h
    rw [cellsWrite, ih _ _ (by omega), cellGet_cellSet_other _ _ (by omega)]

theorem cellGet_cellsWrite_inside {m : List Host.Cell} (hm : cellsWf m = true) (a : Nat) (bs : List Byte) {i : Nat}
    (h : i < bs.length) : cellGet (cellsWrite m a bs) (a + i) = bs[i] := by
  induction bs generalizing m a i with
  | nil => simp at h
  | cons b bs ih =>
    cases i with
    | zero =>
      rw [cellsWrite, Nat.add_zero, cellGet_cellsWrite_outside _ _ _ (Or.inl (by omega))]
      simpa using cellGet_cellSet_same hm a b
    | succ j =>
      have hj : j < bs.length := by simpa using h
      have := ih (cellSet_wf hm a b) (a + 1) hj
      rw [cellsWrite, show a + (j + 1) = a + 1 + j by omega, this]
      simp

theorem cellsAbove_filter (p : Host.Cell → Bool) {a : Nat} {m : List Host.Cell} (h : cellsAbove (some a) m = true) :
    cellsAbove (some a) (m.filter p) = true := by
  induction m generalizing a with
  | nil => rfl
  | cons c t ih =>
    obtain ⟨hk, hy, ht⟩ := cellsAbove_cons.mp h
    by_cases hp : p c = true
    · rw [List.filter_cons_of_pos hp]; exact cellsAbove_cons.mpr ⟨hk, hy, ih ht⟩
    · rw [List.filter_cons_of_neg hp]; exact cellsAbove_weaken (by omega) (ih ht)

theorem cellsWf_filter (p : Host.Cell → Bool) {m : List Host.Cell} (h : cellsWf m = true) : cellsWf (m.filter p) = true := by
  cases m with
  | nil => rfl
  | cons c t =>
    obtain ⟨hy, ht⟩ := cellsWf_cons.mp h
    by_cases hp : p c = true
    · rw [List.filter_cons_of_pos hp]; exact cellsWf_cons.mpr ⟨hy, cellsAbove_filter p ht⟩
    · rw [List.filter_cons_of_neg hp]; exact cellsWf_of_above (cellsAbove_filter p ht)

/-! ## Byte order -/

@[simp] theorem natLe_length (n x : Nat) : (natLe n x).length = n := by
  induction n generalizing x with
  | zero => rfl
  | succ n ih => simp [natLe, ih]

theorem leNat_natLe (n x : Nat) : leNat (natLe n x) = x % 256 ^ n := by
  induction n generalizing x with
  | zero => simp [natLe, leNat, Nat.mod_one]
  | succ n ih =>
    have h8 : (2 : Nat) ^ 8 = 256 := by decide
    rw [natLe, leNat, ih, BitVec.toNat_ofNat, h8, Nat.pow_succ, Nat.mul_comm (256 ^ n) 256, Nat.mod_mul]

/-! ## The operations keep the canonical form -/

theorem Mem.wf_iff {m : Mem} : m.wf = true ↔ cellsWf m.bytes = true ∧ cellsWf m.sram = true := by
  simp [Mem.wf]

theorem State.rekey_wf {s : State} (h : s.mem.wf = true) (slot line : Nat) : (s.rekey slot line).mem.wf = true := by
  obtain ⟨hb, hr⟩ := Mem.wf_iff.mp h
  unfold State.rekey
  split
  · exact h
  · refine Mem.wf_iff.mpr ?_
    simp only [State.onMem_mem]
    split
    · exact ⟨hb, hr⟩
    · simp only [State.freeBytes, State.onMem_mem, State.bumpFree_mem]
      exact ⟨cellsWrite_wf hb _ _, hr⟩

theorem State.rekeyAll_wf {s : State} (h : s.mem.wf = true) (slot : Nat) (ls : List Nat) :
    (ls.foldl (fun s l => s.rekey slot l) s).mem.wf = true := by
  induction ls generalizing s with
  | nil => exact h
  | cons l ls ih => exact ih (State.rekey_wf h slot l)

theorem State.physWrite_wf {s : State} (h : s.mem.wf = true) (slot pa : Nat) (bs : List Byte) :
    (s.physWrite slot pa bs).mem.wf = true := by
  unfold State.physWrite
  split
  · exact h
  · obtain ⟨hb, hr⟩ := Mem.wf_iff.mp (State.rekeyAll_wf h slot (linesOf pa bs.length))
    exact Mem.wf_iff.mpr ⟨by simpa using cellsWrite_wf hb pa bs, by simpa using hr⟩

theorem State.sramWrite_wf {s : State} (h : s.mem.wf = true) (core off : Nat) (bs : List Byte) :
    (s.sramWrite core off bs).mem.wf = true := by
  obtain ⟨hb, hr⟩ := Mem.wf_iff.mp h
  exact Mem.wf_iff.mpr ⟨by simpa [State.sramWrite] using hb, by simpa [State.sramWrite] using cellsWrite_wf hr _ bs⟩

theorem State.clearSram_wf {s : State} (h : s.mem.wf = true) (core off n : Nat) :
    (s.clearSram core off n).mem.wf = true := by
  obtain ⟨hb, hr⟩ := Mem.wf_iff.mp h
  exact Mem.wf_iff.mpr ⟨by simpa [State.clearSram] using hb, by simpa [State.clearSram] using cellsWf_filter _ hr⟩

@[simp] theorem State.setFull_wf (s : State) (core off : Nat) (b : Bool) :
    (s.setFull core off b).mem.wf = s.mem.wf := by simp [State.setFull, Mem.wf]

@[simp] theorem State.poisonLine_wf (s : State) (stage die l : Nat) : (s.poisonLine stage die l).mem.wf = s.mem.wf := by
  simp [State.poisonLine, Mem.wf]

@[simp] theorem State.hbmActive_mem (s : State) (line : Nat) : (s.hbmActive line).mem = s.mem := by
  unfold State.hbmActive
  split <;> rfl

@[simp] theorem State.recordEvent_mem (s : State) (a b c d e : Nat) : (s.recordEvent a b c d e).mem = s.mem := by
  unfold State.recordEvent
  split <;> rfl

@[simp] theorem State.leaveL2_wf (s : State) (l : L2Line) : (s.leaveL2 l).mem.wf = s.mem.wf := by
  unfold State.leaveL2
  dsimp only
  split <;> split <;> simp [Mem.wf]

@[simp] theorem State.evictL2_wf (s : State) (line : Nat) : (s.evictL2 line).mem.wf = s.mem.wf := by
  unfold State.evictL2
  split <;> simp

@[simp] theorem State.makeWay_wf (s : State) (line : Nat) : (s.makeWay line).mem.wf = s.mem.wf := by
  unfold State.makeWay
  dsimp only
  split
  · rfl
  · split <;> simp

@[simp] theorem State.touchL2_wf (s : State) (ctx pa : Nat) (how : LineClass × Option Nat) (d : Bool) :
    (s.touchL2 ctx pa how d).mem.wf = s.mem.wf := by
  have h : ∀ (u : State) (f : List L2Line), (u.onMem fun m => { m with l2 := f }).mem.wf = u.mem.wf := fun _ _ => rfl
  unfold State.touchL2
  split
  · rfl
  · dsimp only
    rw [h]
    split <;> simp

@[simp] theorem State.atHome_wf (s : State) (place : Place) (pa : Nat) : (s.atHome place pa).mem.wf = s.mem.wf := by
  unfold State.atHome
  split <;> simp

end Sys2Proof.Machine
end

