-- ==== Sys2Proof/Laws/Access.lean ====
section
/-! SUPPORT. What the shared operations of an access can do: noting it, acquiring, entering its result, issuing its
store. -/

namespace Sys2Proof.Machine

open Sys2Proof

/-- What an access that is noted can leave changed: the dies' activity, counts of buffers, the driver's event table, the
forward caches, the order of TLB entries, L2 lines, the Invigilator's queue, what the bundle traces, and what is due. -/
structure Noted (s u : State) : Prop where
  shape : ∃ wakes ctxs events evlost msix hubs cores ctlb l2 ivQueue due cur, u =
    { s with
      package := { s.package with wakes := wakes }
      host := { s.host with ctxs := ctxs, events := events, evlost := evlost, msix := msix }
      fabric := { s.fabric with hubs := hubs }
      cores := { s.cores with cores := cores, clusterTlb := ctlb }
      mem := { s.mem with l2 := l2, ivQueue := ivQueue }
      due := due
      cur := cur }
  core : ∀ c, ∃ tlb tr, u.core c = { s.core c with tlb := tlb, trace := tr }
  ctx : ∀ n, ∃ hot, u.ctx n = { s.ctx n with hot := hot }
  cur : ∃ f : Cur → List (Nat × Nat × Bool × Word), u.cur = s.cur.map fun c => { c with traced := f c }
  due : ∀ x ∈ s.due, x ∈ u.due

theorem Noted.refl (s : State) : Noted s s where
  shape := ⟨_, _, _, _, _, _, _, _, _, _, _, _, rfl⟩
  core c := ⟨(s.core c).tlb, (s.core c).trace, rfl⟩
  ctx n := ⟨(s.ctx n).hot, rfl⟩
  cur := ⟨fun c => c.traced, by cases s.cur <;> rfl⟩
  due _ h := h

theorem Noted.trans {s u v : State} (h : Noted s u) (k : Noted u v) : Noted s v where
  shape := by
    obtain ⟨_, _, _, _, _, _, _, _, _, _, _, _, h⟩ := h.shape
    obtain ⟨_, _, _, _, _, _, _, _, _, _, _, _, k⟩ := k.shape
    exact ⟨_, _, _, _, _, _, _, _, _, _, _, _, by rw [k, h]⟩
  core c := by
    obtain ⟨_, _, h⟩ := h.core c
    obtain ⟨a, b, k⟩ := k.core c
    exact ⟨a, b, by rw [k, h]⟩
  ctx n := by
    obtain ⟨a, h⟩ := h.ctx n
    obtain ⟨b, k⟩ := k.ctx n
    exact ⟨b, by rw [k, h]⟩
  cur := by
    obtain ⟨f, h⟩ := h.cur
    obtain ⟨g, k⟩ := k.cur
    exact ⟨fun c => g { c with traced := f c }, by rw [k, h]; cases s.cur <;> rfl⟩
  due x hx := k.due x (h.due x hx)

/-- A change of the wakes, the contexts' counts, the event table, the forward caches, L2 and the like, cores and bundle
apart. -/
theorem noted_of {s u : State} (shape : ∃ wakes ctxs events evlost msix hubs cores ctlb l2 ivQueue due cur, u =
    { s with
      package := { s.package with wakes := wakes }
      host := { s.host with ctxs := ctxs, events := events, evlost := evlost, msix := msix }
      fabric := { s.fabric with hubs := hubs }
      cores := { s.cores with cores := cores, clusterTlb := ctlb }
      mem := { s.mem with l2 := l2, ivQueue := ivQueue }
      due := due
      cur := cur })
    (core : ∀ c, u.core c = s.core c) (ctx : ∀ n, u.ctx n = s.ctx n) (cur : u.cur = s.cur) (due : u.due = s.due) :
    Noted s u where
  shape := shape
  core c := ⟨(s.core c).tlb, (s.core c).trace, core c⟩
  ctx n := ⟨(s.ctx n).hot, ctx n⟩
  cur := ⟨fun c => c.traced, by rw [cur]; cases s.cur <;> rfl⟩
  due _ h := due ▸ h

theorem noted_foldl {α : Type} (f : State → α → State) (h : ∀ s a, Noted s (f s a)) (l : List α) (s : State) :
    Noted s (l.foldl f s) := by
  induction l generalizing s with
  | nil => exact Noted.refl s
  | cons a l ih => exact (h s a).trans (ih _)

theorem mem_insertDue {t : Nat} {i : Instr} {a : EvArg} {l : List (Nat × Instr × EvArg)} {x : Nat × Instr × EvArg} :
    x ∈ insertDue t i a l ↔ x = (t, i, a) ∨ x ∈ l := by
  induction l with
  | nil => simp [insertDue]
  | cons y l ih =>
    obtain ⟨u, y⟩ := y
    simp only [insertDue]
    split <;> simp_all [or_left_comm]

theorem noted_post (s : State) (n : Nat) (i : Instr) (a : EvArg) : Noted s (s.post n i a) where
  shape := ⟨_, _, _, _, _, _, _, _, _, _, _, _, rfl⟩
  core c := ⟨(s.core c).tlb, (s.core c).trace, rfl⟩
  ctx n := ⟨(s.ctx n).hot, rfl⟩
  cur := ⟨fun c => c.traced, by cases h : s.cur <;> simp [h]⟩
  due _ h := mem_insertDue.2 (.inr h)

theorem noted_countBytes (s : State) (ctx buf n : Nat) : Noted s (s.countBytes ctx buf n) where
  shape := ⟨_, _, _, _, _, _, _, _, _, _, _, _, rfl⟩
  core c := ⟨(s.core c).tlb, (s.core c).trace, rfl⟩
  ctx m := by
    unfold State.countBytes
    by_cases h : m = ctx
    · subst h
      rw [State.ctx_modCtx_same]
      exact ⟨_, rfl⟩
    · rw [State.ctx_modCtx_other _ _ h]
      exact ⟨_, rfl⟩
  cur := ⟨fun c => c.traced, by cases h : s.cur <;> simp [State.countBytes, h]⟩
  due _ h := h

theorem noted_modCore {s : State} (c : Nat) (f : CoreSt → CoreSt)
    (h : ∀ x, ∃ tlb tr, f x = { x with tlb := tlb, trace := tr }) : Noted s (s.modCore c f) where
  shape := ⟨_, _, _, _, _, _, _, _, _, _, _, _, rfl⟩
  core d := by
    by_cases hd : d = c
    · subst hd
      rw [State.core_modCore_same]
      exact h _
    · rw [State.core_modCore_other _ _ hd]
      exact ⟨_, _, rfl⟩
  ctx n := ⟨(s.ctx n).hot, rfl⟩
  cur := ⟨fun c => c.traced, by cases h : s.cur <;> simp [h]⟩
  due _ h := h

theorem noted_traceEvent (s : State) (tid : Word) (k aux : Nat) (st : Bool) (v : Word) :
    Noted s (s.traceEvent tid k aux st v) := by
  unfold State.traceEvent
  repeat' first | split | (dsimp only; split)
  all_goals first | exact Noted.refl s | exact noted_modCore _ _ fun x => ⟨_, _, rfl⟩

theorem noted_traceTrigger (s : State) (tid : Word) (k : Nat) (hit : Trace → Bool) :
    Noted s (s.traceTrigger tid k hit) := by
  unfold State.traceTrigger
  repeat' first | split | (dsimp only; split)
  all_goals first | exact Noted.refl s | exact noted_modCore _ _ fun x => ⟨_, _, rfl⟩

theorem noted_traceOne (s : State) (tid : Word) (slot : Nat) (e : TraceEv) : Noted s (s.traceOne tid slot e) := by
  cases e with
  | branch => exact noted_traceEvent _ _ _ _ _ _
  | kwrite => exact noted_traceEvent _ _ _ _ _ _
  | access n store va =>
    exact (noted_traceEvent s tid 2 n store va).trans
      (noted_traceTrigger _ tid 3 fun tr => tr.trig.extractLsb' 6 51 == va.extractLsb' 6 51)

theorem noted_traced (s : State) (f : Cur → List (Nat × Nat × Bool × Word)) :
    Noted s (s.onCur fun c => { c with traced := f c }) where
  shape := ⟨_, _, _, _, _, _, _, _, _, _, _, _, rfl⟩
  core c := ⟨(s.core c).tlb, (s.core c).trace, rfl⟩
  ctx n := ⟨(s.ctx n).hot, rfl⟩
  cur := ⟨f, rfl⟩
  due _ h := h

theorem noted_markActive (s : State) (die : Nat) : Noted s (s.markActive die) :=
  noted_of ⟨_, _, _, _, _, _, _, _, _, _, _, _, rfl⟩ (fun _ => rfl) (fun _ => rfl) rfl rfl

theorem noted_hbmActive (s : State) (line : Nat) : Noted s (s.hbmActive line) := by
  unfold State.hbmActive
  split
  · exact noted_markActive _ _
  · exact Noted.refl s

theorem noted_recordEvent (s : State) (a b c d e : Nat) : Noted s (s.recordEvent a b c d e) := by
  unfold State.recordEvent
  split <;> exact noted_of ⟨_, _, _, _, _, _, _, _, _, _, _, _, rfl⟩ (fun _ => rfl) (fun _ => rfl) rfl rfl

theorem noted_l2 (s : State) (l2 : List L2Line) : Noted s (s.onMem fun m => { m with l2 := l2 }) :=
  noted_of ⟨_, _, _, _, _, _, _, _, _, _, _, _, rfl⟩ (fun _ => rfl) (fun _ => rfl) rfl rfl

theorem noted_leaveL2 (s : State) (l : L2Line) : Noted s (s.leaveL2 l) := by
  have h1 : Noted s (if l.dirty then s.hbmActive l.line else s) := by
    split
    · exact noted_hbmActive _ _
    · exact Noted.refl s
  unfold State.leaveL2
  dsimp only
  split
  · exact (h1.trans (noted_l2 _ _)).trans (noted_recordEvent _ _ _ _ _ _)
  · exact h1.trans (noted_l2 _ _)

theorem noted_makeWay (s : State) (line : Nat) : Noted s (s.makeWay line) := by
  unfold State.makeWay
  simp only
  split
  · exact Noted.refl s
  · split
    · exact noted_leaveL2 _ _
    · exact Noted.refl s

theorem noted_touchL2 (s : State) (ctx pa : Nat) (how : LineClass × Option Nat) (d : Bool) :
    Noted s (s.touchL2 ctx pa how d) := by
  unfold State.touchL2
  split
  · exact Noted.refl s
  · simp only
    refine Noted.trans ?_ (noted_l2 _ _)
    split
    · exact Noted.refl s
    · exact (noted_makeWay _ _).trans (noted_hbmActive _ _)

theorem noted_noteL2 (s : State) (t : Task) (k : AccKind) (p : Piece) : Noted s (s.noteL2 t k p) := by
  unfold State.noteL2
  split
  · split
    · exact Noted.refl s
    · exact noted_touchL2 _ _ _ _ _
  · exact Noted.refl s

theorem noted_fwdUse (s : State) (die : Nat) (e : Option FwdEntry) : Noted s (s.fwdUse die e) := by
  unfold State.fwdUse
  split
  · exact noted_of ⟨_, _, _, _, _, _, _, _, _, _, _, _, rfl⟩ (fun _ => rfl) (fun _ => rfl) rfl rfl
  · exact Noted.refl s

theorem noted_tlbUse (s : State) (core : Nat) (asid : BitVec 16) (va : Nat) : Noted s (s.tlbUse core asid va) := by
  unfold State.tlbUse
  split
  · exact noted_modCore _ _ fun x => ⟨_, _, rfl⟩
  · split
    · exact noted_of ⟨_, _, _, _, _, _, _, _, _, _, _, _, rfl⟩ (fun _ => rfl) (fun _ => rfl) rfl rfl
    · exact Noted.refl s

theorem noted_notePiece (s : State) (t : Task) (core : Nat) (k : AccKind) (p : Piece) :
    Noted s (s.notePiece t core k p) :=
  ((noted_noteL2 _ _ _ _).trans (noted_fwdUse _ _ _)).trans (noted_tlbUse _ _ _ _)

theorem noteAccess_noted (s : State) (t : Task) (core : Nat) (k : AccKind) (ps : List Piece) (n : Nat)
    (acq rel : Option Scope) : Noted s (s.noteAccess t core k ps n acq rel) := by
  unfold State.noteAccess
  cases ps with
  | nil => exact Noted.refl s
  | cons p ps =>
    dsimp only
    refine Noted.trans ?_ (noted_foldl _ (fun s p => noted_notePiece s t core k p) _ _)
    refine Noted.trans ?_ (noted_countBytes _ _ _ _)
    have h1 : Noted s (s.traceAccess t.tid p.va (n * (p :: ps).length) (k != .load)) := by
      unfold State.traceAccess
      dsimp only
      split
      · split
        · exact noted_traced _ fun c => c.traced ++ [(c.slot, (n * (p :: ps).length).log2, k != .load, BitVec.ofNat 64 p.va)]
        · exact noted_traceOne _ _ _ _
      · exact noted_traceOne _ _ _ _
    split
    · exact h1
    · refine h1.trans (Noted.trans ?_ (noted_post _ _ _ _))
      exact noted_of ⟨_, _, _, _, _, _, _, _, _, _, _, _, rfl⟩ (fun _ => rfl) (fun _ => rfl) rfl rfl

/-- Noting an access leaves the canonical form of memory. -/
theorem Noted.wf {s u : State} (h : Noted s u) : u.mem.wf = s.mem.wf := by
  obtain ⟨_, _, _, _, _, _, _, _, _, _, _, _, h⟩ := h.shape
  rw [h]; rfl

end Sys2Proof.Machine
end

