-- ==== Sys2Proof/Laws/Encoding.lean ====
section
/-! SUPPORT. The fields of a slot and its word carry the same information. -/

namespace Sys2Proof

theorem RawSlot.ofWord_word (r : RawSlot) : RawSlot.ofWord r.word r.lits = r := by
  obtain ⟨cls, d, a, b, k, gn, op, lits⟩ := r
  simp only [RawSlot.ofWord, RawSlot.word, RawSlot.mk.injEq]
  refine ⟨?_, ?_, ?_, ?_, ?_, ?_, ?_, trivial⟩
  case refine_6 =>
    rw [BitVec.getLsbD_append, BitVec.getLsbD_append]
    cases gn <;> rfl
  all_goals (apply BitVec.eq_of_getLsbD_eq; intro i hi; simp; grind)

theorem wordStop_word (r : RawSlot) : wordStop r.word = false := by
  simp only [wordStop, RawSlot.word]
  repeat rw [BitVec.getLsbD_append]
  rfl

theorem wordStop_litWord (p : BitVec 26) : wordStop (litWord p) = false := by
  simp only [wordStop, litWord]
  repeat rw [BitVec.getLsbD_append]
  rfl

theorem wordClass_litWord (p : BitVec 26) : wordClass (litWord p) = 31 := by
  apply BitVec.eq_of_getLsbD_eq
  intro i hi
  simp only [wordClass, litWord, BitVec.getLsbD_extractLsb']
  rw [BitVec.getLsbD_append, BitVec.getLsbD_append]
  have h : ∀ i, i < 5 → (decide (i < 5) && if 26 + i < 26 then p.getLsbD (26 + i) else
      if 26 + i - 26 < 5 then BitVec.getLsbD 31#5 (26 + i - 26) else BitVec.getLsbD 0#1 (26 + i - 26 - 5)) =
      BitVec.getLsbD 31#5 i := by
    intro i hi
    have : ¬ 26 + i < 26 := by omega
    simp [this, hi]
  exact h i hi

theorem litWord_payload (p : BitVec 26) : (litWord p).extractLsb' 0 26 = p := by
  apply BitVec.eq_of_getLsbD_eq
  intro i hi
  simp [litWord]
  grind

/-- The words of a slot decode to what its fields hold. -/
theorem decodeWords_word (r : RawSlot) : decodeWords (r.word :: r.lits.map litWord) = r.decode := by
  have h : (r.lits.map litWord).map (·.extractLsb' 0 26) = r.lits := by
    simp [List.map_map, Function.comp_def, litWord_payload]
  simp only [decodeWords, decodeSlot, h, RawSlot.ofWord_word]
  simp [wordClass_litWord]

theorem decode_of {g : Guard} {r : RawSlot} {i : Instr} (hg : g.wf = true) (hi : r.instr = some i)
    (hk : r.k = g.k := by rfl) (hn : r.gn = g.neg := by rfl) : r.decode = some (g, i) := by
  obtain ⟨k, n⟩ := g
  subst hk hn
  simp [RawSlot.decode, hg, hi]

@[simp] theorem kField_setWidth (k : KReg) : kField (k.setWidth 5) = some k := by
  have h : (k.setWidth 5).toNat < 8 := by simp; omega
  simp [kField]
  omega

@[simp] theorem zField_setWidth (z : ZReg) : zField (z.setWidth 5) = some z := by
  simp [zField]
  omega

theorem kField_bind {α : Type} (k : KReg) (f : KReg → Option α) : (kField (k.setWidth 5)).bind f = f k := by
  rw [kField_setWidth]; rfl

@[simp] theorem join15 (x : BitVec 15) :
    ((x.extractLsb' 10 5 ++ x.extractLsb' 5 5 ++ x.extractLsb' 0 5 : BitVec (5 + 5 + 5)) : BitVec 15) = x := by
  apply BitVec.eq_of_getLsbD_eq
  intro i hi
  rw [BitVec.getLsbD_append, BitVec.getLsbD_append]
  simp only [BitVec.getLsbD_extractLsb']
  grind

@[simp] theorem join10 (x : BitVec 10) :
    ((x.extractLsb' 5 5 ++ x.extractLsb' 0 5 : BitVec (5 + 5)) : BitVec 10) = x := by
  apply BitVec.eq_of_getLsbD_eq
  intro i hi
  rw [BitVec.getLsbD_append]
  simp only [BitVec.getLsbD_extractLsb']
  grind

@[simp] theorem join14 (x : BitVec 14) :
    ((((x.extractLsb' 10 4).setWidth 5).setWidth 4 ++ x.extractLsb' 5 5 ++ x.extractLsb' 0 5 : BitVec (4 + 5 + 5)) :
      BitVec 14) = x := by
  apply BitVec.eq_of_getLsbD_eq
  intro i hi
  rw [BitVec.getLsbD_append, BitVec.getLsbD_append]
  simp only [BitVec.getLsbD_extractLsb', BitVec.getLsbD_setWidth]
  grind

/-! ## Codes -/

theorem Ty.code_lt (t : Ty) : t.code < 16 := by cases t <;> decide
@[simp] theorem Ty.ofCode_code (t : Ty) : Ty.ofCode t.code = some t := by cases t <;> rfl
theorem Scope.code_lt (s : Scope) : s.code < 6 := by cases s <;> decide
@[simp] theorem Scope.ofCode_code (s : Scope) : Scope.ofCode s.code = some s := by cases s <;> rfl
theorem Rc.code_lt (r : Rc) : r.code < 6 := by cases r <;> decide
@[simp] theorem Rc.ofCode_code (r : Rc) : Rc.ofCode r.code = some r := by cases r <;> rfl
theorem LockMode.code_lt (m : LockMode) : m.code < 5 := by cases m <;> decide
@[simp] theorem LockMode.ofCode_code (m : LockMode) : LockMode.ofCode m.code = some m := by cases m <;> rfl
theorem AWidth.code_lt (w : AWidth) : w.code < 2 := by cases w <;> decide
@[simp] theorem AWidth.of_code (w : AWidth) : (if w.code = 0 then AWidth.w32 else .w64) = w := by cases w <;> rfl
theorem AOrd.code_lt (o : AOrd) : o.code < 4 := by cases o <;> simp [AOrd.code]
@[simp] theorem AOrd.decode_code (o : AOrd) : AOrd.decode o.code o.lits = some o := by
  cases o with
  | plain => rfl
  | acq s => cases s <;> rfl
  | rel s => cases s <;> rfl
  | ar s => cases s <;> rfl

end Sys2Proof
end

