-- ==== Sys2Proof/Laws/PerInstr.lean ====
section
/-! SUPPORT. Decoding undoes encoding, constructor by constructor. -/

set_option Elab.async false

namespace Sys2Proof.Laws.RoundTrip

open Sys2Proof

/-- A guarded slot instruction that is well-formed has fields, and they decode to it; an event is no slot. -/
def Statement (i : Instr) : Prop :=
  ∀ g : Guard, g.wf = true → i.wf = true → i.isSlot = true → (i = .nop → g = ⟨0, false⟩) →
    ∃ r, i.toRaw g = some r ∧ r.decode = some (g, i)

theorem add (d : Reg) (a : Reg) (b : Reg) : Statement (.add d a b) := by
  intro g hg hw _ _
  exact ⟨_, rfl, decode_of hg rfl⟩
theorem sub (d : Reg) (a : Reg) (b : Reg) : Statement (.sub d a b) := by
  intro g hg hw _ _
  exact ⟨_, rfl, decode_of hg rfl⟩
theorem and (d : Reg) (a : Reg) (b : Reg) : Statement (.and d a b) := by
  intro g hg hw _ _
  exact ⟨_, rfl, decode_of hg rfl⟩
theorem or (d : Reg) (a : Reg) (b : Reg) : Statement (.or d a b) := by
  intro g hg hw _ _
  exact ⟨_, rfl, decode_of hg rfl⟩
theorem xor (d : Reg) (a : Reg) (b : Reg) : Statement (.xor d a b) := by
  intro g hg hw _ _
  exact ⟨_, rfl, decode_of hg rfl⟩
theorem andn (d : Reg) (a : Reg) (b : Reg) : Statement (.andn d a b) := by
  intro g hg hw _ _
  exact ⟨_, rfl, decode_of hg rfl⟩
theorem shl (d : Reg) (a : Reg) (b : Reg) : Statement (.shl d a b) := by
  intro g hg hw _ _
  exact ⟨_, rfl, decode_of hg rfl⟩
theorem shr (d : Reg) (a : Reg) (b : Reg) : Statement (.shr d a b) := by
  intro g hg hw _ _
  exact ⟨_, rfl, decode_of hg rfl⟩
theorem sar (d : Reg) (a : Reg) (b : Reg) : Statement (.sar d a b) := by
  intro g hg hw _ _
  exact ⟨_, rfl, decode_of hg rfl⟩
theorem ror (d : Reg) (a : Reg) (b : Reg) : Statement (.ror d a b) := by
  intro g hg hw _ _
  exact ⟨_, rfl, decode_of hg rfl⟩
theorem minS64 (d : Reg) (a : Reg) (b : Reg) : Statement (.minS64 d a b) := by
  intro g hg hw _ _
  exact ⟨_, rfl, decode_of hg rfl⟩
theorem maxS64 (d : Reg) (a : Reg) (b : Reg) : Statement (.maxS64 d a b) := by
  intro g hg hw _ _
  exact ⟨_, rfl, decode_of hg rfl⟩
theorem minZ64 (d : Reg) (a : Reg) (b : Reg) : Statement (.minZ64 d a b) := by
  intro g hg hw _ _
  exact ⟨_, rfl, decode_of hg rfl⟩
theorem maxZ64 (d : Reg) (a : Reg) (b : Reg) : Statement (.maxZ64 d a b) := by
  intro g hg hw _ _
  exact ⟨_, rfl, decode_of hg rfl⟩
theorem addx2 (d : Reg) (a : Reg) (b : Reg) : Statement (.addx2 d a b) := by
  intro g hg hw _ _
  exact ⟨_, rfl, decode_of hg rfl⟩
theorem addx4 (d : Reg) (a : Reg) (b : Reg) : Statement (.addx4 d a b) := by
  intro g hg hw _ _
  exact ⟨_, rfl, decode_of hg rfl⟩
theorem addx8 (d : Reg) (a : Reg) (b : Reg) : Statement (.addx8 d a b) := by
  intro g hg hw _ _
  exact ⟨_, rfl, decode_of hg rfl⟩
theorem addi (d : Reg) (a : Reg) (i : Imm 5) : Statement (.addi d a i) := by
  intro g hg hw _ _
  exact ⟨_, rfl, decode_of hg (if_pos hw)⟩
theorem andi (d : Reg) (a : Reg) (i : Imm 5) : Statement (.andi d a i) := by
  intro g hg hw _ _
  exact ⟨_, rfl, decode_of hg (if_pos hw)⟩
theorem ori (d : Reg) (a : Reg) (i : Imm 5) : Statement (.ori d a i) := by
  intro g hg hw _ _
  exact ⟨_, rfl, decode_of hg (if_pos hw)⟩
theorem xori (d : Reg) (a : Reg) (i : Imm 5) : Statement (.xori d a i) := by
  intro g hg hw _ _
  exact ⟨_, rfl, decode_of hg (if_pos hw)⟩
theorem shli (d : Reg) (a : Reg) (i : Imm 5) : Statement (.shli d a i) := by
  intro g hg hw _ _
  exact ⟨_, rfl, decode_of hg (if_pos hw)⟩
theorem shri (d : Reg) (a : Reg) (i : Imm 5) : Statement (.shri d a i) := by
  intro g hg hw _ _
  exact ⟨_, rfl, decode_of hg (if_pos hw)⟩
theorem sari (d : Reg) (a : Reg) (i : Imm 5) : Statement (.sari d a i) := by
  intro g hg hw _ _
  exact ⟨_, rfl, decode_of hg (if_pos hw)⟩
theorem rori (d : Reg) (a : Reg) (i : Imm 5) : Statement (.rori d a i) := by
  intro g hg hw _ _
  exact ⟨_, rfl, decode_of hg (if_pos hw)⟩
theorem movi (d : Reg) (i : Imm 5) : Statement (.movi d i) := by
  intro g hg hw _ _
  refine ⟨_, rfl, decode_of hg ?_⟩
  simp [Instr.wf, Imm.wf] at hw
  simp [hw, RawSlot.instr, decodeClass2]
theorem adpc (d : Reg) (i : Imm 5) : Statement (.adpc d i) := by
  intro g hg hw _ _
  refine ⟨_, rfl, decode_of hg ?_⟩
  simp [Instr.wf, Imm.wf] at hw
  simp [hw, RawSlot.instr, decodeClass2]
theorem mul (d : Reg) (a : Reg) (b : Reg) : Statement (.mul d a b) := by
  intro g hg hw _ _
  exact ⟨_, rfl, decode_of hg rfl⟩
theorem mulhS64 (d : Reg) (a : Reg) (b : Reg) : Statement (.mulhS64 d a b) := by
  intro g hg hw _ _
  exact ⟨_, rfl, decode_of hg rfl⟩
theorem mulhZ64 (d : Reg) (a : Reg) (b : Reg) : Statement (.mulhZ64 d a b) := by
  intro g hg hw _ _
  exact ⟨_, rfl, decode_of hg rfl⟩
theorem divS64 (d : Reg) (a : Reg) (b : Reg) : Statement (.divS64 d a b) := by
  intro g hg hw _ _
  exact ⟨_, rfl, decode_of hg rfl⟩
theorem divZ64 (d : Reg) (a : Reg) (b : Reg) : Statement (.divZ64 d a b) := by
  intro g hg hw _ _
  exact ⟨_, rfl, decode_of hg rfl⟩
theorem remS64 (d : Reg) (a : Reg) (b : Reg) : Statement (.remS64 d a b) := by
  intro g hg hw _ _
  exact ⟨_, rfl, decode_of hg rfl⟩
theorem remZ64 (d : Reg) (a : Reg) (b : Reg) : Statement (.remZ64 d a b) := by
  intro g hg hw _ _
  exact ⟨_, rfl, decode_of hg rfl⟩
theorem bfxZ64 (d : Reg) (a : Reg) (b : Reg) : Statement (.bfxZ64 d a b) := by
  intro g hg hw _ _
  exact ⟨_, rfl, decode_of hg rfl⟩
theorem bfxS64 (d : Reg) (a : Reg) (b : Reg) : Statement (.bfxS64 d a b) := by
  intro g hg hw _ _
  exact ⟨_, rfl, decode_of hg rfl⟩
theorem bfi (d : Reg) (a : Reg) (b : Reg) : Statement (.bfi d a b) := by
  intro g hg hw _ _
  exact ⟨_, rfl, decode_of hg rfl⟩
theorem clz (d : Reg) (a : Reg) : Statement (.clz d a) := by
  intro g hg hw _ _
  exact ⟨_, rfl, decode_of hg rfl⟩
theorem ctz (d : Reg) (a : Reg) : Statement (.ctz d a) := by
  intro g hg hw _ _
  exact ⟨_, rfl, decode_of hg rfl⟩
theorem popc (d : Reg) (a : Reg) : Statement (.popc d a) := by
  intro g hg hw _ _
  exact ⟨_, rfl, decode_of hg rfl⟩
theorem brev (d : Reg) (a : Reg) : Statement (.brev d a) := by
  intro g hg hw _ _
  exact ⟨_, rfl, decode_of hg rfl⟩
theorem bswap (d : Reg) (a : Reg) : Statement (.bswap d a) := by
  intro g hg hw _ _
  exact ⟨_, rfl, decode_of hg rfl⟩
theorem cmpeq (d : KReg) (a : Reg) (b : Reg) : Statement (.cmpeq d a b) := by
  intro g hg hw _ _
  refine ⟨_, rfl, decode_of hg ?_⟩
  simp [RawSlot.instr, decodeClass4]
theorem cmpne (d : KReg) (a : Reg) (b : Reg) : Statement (.cmpne d a b) := by
  intro g hg hw _ _
  refine ⟨_, rfl, decode_of hg ?_⟩
  simp [RawSlot.instr, decodeClass4]
theorem cmpltS64 (d : KReg) (a : Reg) (b : Reg) : Statement (.cmpltS64 d a b) := by
  intro g hg hw _ _
  refine ⟨_, rfl, decode_of hg ?_⟩
  simp [RawSlot.instr, decodeClass4]
theorem cmpleS64 (d : KReg) (a : Reg) (b : Reg) : Statement (.cmpleS64 d a b) := by
  intro g hg hw _ _
  refine ⟨_, rfl, decode_of hg ?_⟩
  simp [RawSlot.instr, decodeClass4]
theorem cmpltZ64 (d : KReg) (a : Reg) (b : Reg) : Statement (.cmpltZ64 d a b) := by
  intro g hg hw _ _
  refine ⟨_, rfl, decode_of hg ?_⟩
  simp [RawSlot.instr, decodeClass4]
theorem cmpleZ64 (d : KReg) (a : Reg) (b : Reg) : Statement (.cmpleZ64 d a b) := by
  intro g hg hw _ _
  refine ⟨_, rfl, decode_of hg ?_⟩
  simp [RawSlot.instr, decodeClass4]
theorem cmpeqi (d : KReg) (a : Reg) (i : Imm 5) : Statement (.cmpeqi d a i) := by
  intro g hg hw _ _
  refine ⟨_, rfl, decode_of hg ?_⟩
  simp [Instr.wf, Imm.wf] at hw
  simp [hw, RawSlot.instr, decodeClass4]
theorem cmpnei (d : KReg) (a : Reg) (i : Imm 5) : Statement (.cmpnei d a i) := by
  intro g hg hw _ _
  refine ⟨_, rfl, decode_of hg ?_⟩
  simp [Instr.wf, Imm.wf] at hw
  simp [hw, RawSlot.instr, decodeClass4]
theorem cmpltiS64 (d : KReg) (a : Reg) (i : Imm 5) : Statement (.cmpltiS64 d a i) := by
  intro g hg hw _ _
  refine ⟨_, rfl, decode_of hg ?_⟩
  simp [Instr.wf, Imm.wf] at hw
  simp [hw, RawSlot.instr, decodeClass4]
theorem cmpleiS64 (d : KReg) (a : Reg) (i : Imm 5) : Statement (.cmpleiS64 d a i) := by
  intro g hg hw _ _
  refine ⟨_, rfl, decode_of hg ?_⟩
  simp [Instr.wf, Imm.wf] at hw
  simp [hw, RawSlot.instr, decodeClass4]
theorem cmpltiZ64 (d : KReg) (a : Reg) (i : Imm 5) : Statement (.cmpltiZ64 d a i) := by
  intro g hg hw _ _
  refine ⟨_, rfl, decode_of hg ?_⟩
  simp [Instr.wf, Imm.wf] at hw
  simp [hw, RawSlot.instr, decodeClass4]
theorem cmpleiZ64 (d : KReg) (a : Reg) (i : Imm 5) : Statement (.cmpleiZ64 d a i) := by
  intro g hg hw _ _
  refine ⟨_, rfl, decode_of hg ?_⟩
  simp [Instr.wf, Imm.wf] at hw
  simp [hw, RawSlot.instr, decodeClass4]
theorem kand (d : KReg) (a : KReg) (b : KReg) : Statement (.kand d a b) := by
  intro g hg hw _ _
  refine ⟨_, rfl, decode_of hg ?_⟩
  simp [RawSlot.instr, decodeClass4]
theorem kor (d : KReg) (a : KReg) (b : KReg) : Statement (.kor d a b) := by
  intro g hg hw _ _
  refine ⟨_, rfl, decode_of hg ?_⟩
  simp [RawSlot.instr, decodeClass4]
theorem kxor (d : KReg) (a : KReg) (b : KReg) : Statement (.kxor d a b) := by
  intro g hg hw _ _
  refine ⟨_, rfl, decode_of hg ?_⟩
  simp [RawSlot.instr, decodeClass4]
theorem kandn (d : KReg) (a : KReg) (b : KReg) : Statement (.kandn d a b) := by
  intro g hg hw _ _
  refine ⟨_, rfl, decode_of hg ?_⟩
  simp [RawSlot.instr, decodeClass4]
theorem knot (d : KReg) (a : KReg) : Statement (.knot d a) := by
  intro g hg hw _ _
  refine ⟨_, rfl, decode_of hg ?_⟩
  simp [RawSlot.instr, decodeClass4]
theorem kfromg (d : KReg) (a : Reg) : Statement (.kfromg d a) := by
  intro g hg hw _ _
  refine ⟨_, rfl, decode_of hg ?_⟩
  simp [RawSlot.instr, decodeClass4]
theorem gfromk (d : Reg) (a : KReg) : Statement (.gfromk d a) := by
  intro g hg hw _ _
  refine ⟨_, rfl, decode_of hg ?_⟩
  simp [RawSlot.instr, decodeClass4]
theorem cvtF32S64 (d : Reg) (a : Reg) (r : Rc) : Statement (.cvtF32S64 d a r) := by
  intro g hg hw _ _
  refine ⟨_, rfl, decode_of hg ?_⟩
  have h1 : (BitVec.ofNat 5 r.code).toNat = r.code := by
    have := Rc.code_lt r
    simp only [BitVec.toNat_ofNat]; omega
  generalize BitVec.ofNat 5 r.code = b at *
  simp [RawSlot.instr, decodeClass5, h1]
theorem cvtF32Z64 (d : Reg) (a : Reg) (r : Rc) : Statement (.cvtF32Z64 d a r) := by
  intro g hg hw _ _
  refine ⟨_, rfl, decode_of hg ?_⟩
  have h1 : (BitVec.ofNat 5 r.code).toNat = r.code := by
    have := Rc.code_lt r
    simp only [BitVec.toNat_ofNat]; omega
  generalize BitVec.ofNat 5 r.code = b at *
  simp [RawSlot.instr, decodeClass5, h1]
theorem cvtS64F32 (d : Reg) (a : Reg) (r : Rc) : Statement (.cvtS64F32 d a r) := by
  intro g hg hw _ _
  refine ⟨_, rfl, decode_of hg ?_⟩
  have h1 : (BitVec.ofNat 5 r.code).toNat = r.code := by
    have := Rc.code_lt r
    simp only [BitVec.toNat_ofNat]; omega
  generalize BitVec.ofNat 5 r.code = b at *
  simp [RawSlot.instr, decodeClass5, h1]
theorem cvtZ64F32 (d : Reg) (a : Reg) (r : Rc) : Statement (.cvtZ64F32 d a r) := by
  intro g hg hw _ _
  refine ⟨_, rfl, decode_of hg ?_⟩
  have h1 : (BitVec.ofNat 5 r.code).toNat = r.code := by
    have := Rc.code_lt r
    simp only [BitVec.toNat_ofNat]; omega
  generalize BitVec.ofNat 5 r.code = b at *
  simp [RawSlot.instr, decodeClass5, h1]
theorem br (i : Imm 15) : Statement (.br i) := by
  intro g hg hw _ _
  refine ⟨_, rfl, decode_of hg ?_⟩
  simp [Instr.wf, Imm.wf] at hw
  simp [hw, RawSlot.instr, decodeClass6]
theorem call (i : Imm 15) : Statement (.call i) := by
  intro g hg hw _ _
  refine ⟨_, rfl, decode_of hg ?_⟩
  simp [Instr.wf, Imm.wf] at hw
  simp [hw, RawSlot.instr, decodeClass6]
theorem jmp (a : Reg) : Statement (.jmp a) := by
  intro g hg hw _ _
  exact ⟨_, rfl, decode_of hg rfl⟩
theorem callr (a : Reg) : Statement (.callr a) := by
  intro g hg hw _ _
  exact ⟨_, rfl, decode_of hg rfl⟩
theorem loop (a : Reg) (i : Imm 10) : Statement (.loop a i) := by
  intro g hg hw _ _
  refine ⟨_, rfl, decode_of hg ?_⟩
  simp [Instr.wf, Imm.wf] at hw
  simp [hw, RawSlot.instr, decodeClass7]
theorem loopi (c : BitVec 5) (i : Imm 10) : Statement (.loopi c i) := by
  intro g hg hw _ _
  refine ⟨_, rfl, decode_of hg ?_⟩
  simp [Instr.wf, Imm.wf] at hw
  simp [hw, RawSlot.instr, decodeClass7]
theorem lcnt (d : Reg) (n : BitVec 5) : Statement (.lcnt d n) := by
  intro g hg hw _ _
  refine ⟨_, rfl, decode_of hg ?_⟩
  simp [Instr.wf, Imm.wf] at hw
  simp [hw, RawSlot.instr, decodeClass7]
theorem mfs (d : Reg) (n : BitVec 10) : Statement (.mfs d n) := by
  intro g hg hw _ _
  refine ⟨_, rfl, decode_of hg ?_⟩
  simp [Instr.wf, Imm.wf] at hw
  simp [hw, RawSlot.instr, decodeClass8]
theorem mts (n : BitVec 10) (a : Reg) : Statement (.mts n a) := by
  intro g hg hw _ _
  refine ⟨_, rfl, decode_of hg ?_⟩
  simp [Instr.wf, Imm.wf] at hw
  simp [hw, RawSlot.instr, decodeClass8]
theorem feat (d : Reg) (w : BitVec 5) : Statement (.feat d w) := by
  intro g hg hw _ _
  exact ⟨_, rfl, decode_of hg rfl⟩
theorem setfmt (a : Reg) : Statement (.setfmt a) := by
  intro g hg hw _ _
  exact ⟨_, rfl, decode_of hg rfl⟩
theorem setfmti (v : BitVec 14) : Statement (.setfmti v) := by
  intro g hg hw _ _
  refine ⟨_, rfl, decode_of hg ?_⟩
  have h : ((v.extractLsb' 10 4).setWidth 5).toNat < 16 := by simp; omega
  have j := join14 v
  simp only [RawSlot.instr, decodeClass8] at j ⊢
  simp_all
theorem trap (i : BitVec 15) : Statement (.trap i) := by
  intro g hg hw _ _
  refine ⟨_, rfl, decode_of hg ?_⟩
  simp [RawSlot.instr, decodeClass8]
theorem trapretg (a : Reg) : Statement (.trapretg a) := by
  intro g hg hw _ _
  exact ⟨_, rfl, decode_of hg rfl⟩
theorem vaddFp (t : Ty) (d : Reg) (a : Reg) (b : Reg) : Statement (.vaddFp t d a b) := by
  intro g hg hw _ _
  refine ⟨_, rfl, decode_of hg ?_⟩
  simp only [Instr.wf, Imm.wf, Bool.and_eq_true, decide_eq_true_eq] at hw
  have h1 : (BitVec.ofNat 7 (0x00 + t.code)).toNat / 16 = 0 := by
    have := Ty.code_lt t
    simp only [BitVec.toNat_ofNat]; omega
  have h2 : (BitVec.ofNat 7 (0x00 + t.code)).toNat % 16 = t.code := by
    have := Ty.code_lt t
    simp only [BitVec.toNat_ofNat]; omega
  generalize BitVec.ofNat 7 (0x00 + t.code) = op at *
  simp [RawSlot.instr, decodeClass9, h1, h2, hw]
theorem vsubFp (t : Ty) (d : Reg) (a : Reg) (b : Reg) : Statement (.vsubFp t d a b) := by
  intro g hg hw _ _
  refine ⟨_, rfl, decode_of hg ?_⟩
  simp only [Instr.wf, Imm.wf, Bool.and_eq_true, decide_eq_true_eq] at hw
  have h1 : (BitVec.ofNat 7 (0x10 + t.code)).toNat / 16 = 1 := by
    have := Ty.code_lt t
    simp only [BitVec.toNat_ofNat]; omega
  have h2 : (BitVec.ofNat 7 (0x10 + t.code)).toNat % 16 = t.code := by
    have := Ty.code_lt t
    simp only [BitVec.toNat_ofNat]; omega
  generalize BitVec.ofNat 7 (0x10 + t.code) = op at *
  simp [RawSlot.instr, decodeClass9, h1, h2, hw]
theorem vmulFp (t : Ty) (d : Reg) (a : Reg) (b : Reg) : Statement (.vmulFp t d a b) := by
  intro g hg hw _ _
  refine ⟨_, rfl, decode_of hg ?_⟩
  simp only [Instr.wf, Imm.wf, Bool.and_eq_true, decide_eq_true_eq] at hw
  have h1 : (BitVec.ofNat 7 (0x20 + t.code)).toNat / 16 = 2 := by
    have := Ty.code_lt t
    simp only [BitVec.toNat_ofNat]; omega
  have h2 : (BitVec.ofNat 7 (0x20 + t.code)).toNat % 16 = t.code := by
    have := Ty.code_lt t
    simp only [BitVec.toNat_ofNat]; omega
  generalize BitVec.ofNat 7 (0x20 + t.code) = op at *
  simp [RawSlot.instr, decodeClass9, h1, h2, hw]
theorem vminFp (t : Ty) (d : Reg) (a : Reg) (b : Reg) : Statement (.vminFp t d a b) := by
  intro g hg hw _ _
  refine ⟨_, rfl, decode_of hg ?_⟩
  simp only [Instr.wf, Imm.wf, Bool.and_eq_true, decide_eq_true_eq] at hw
  have h1 : (BitVec.ofNat 7 (0x30 + t.code)).toNat / 16 = 3 := by
    have := Ty.code_lt t
    simp only [BitVec.toNat_ofNat]; omega
  have h2 : (BitVec.ofNat 7 (0x30 + t.code)).toNat % 16 = t.code := by
    have := Ty.code_lt t
    simp only [BitVec.toNat_ofNat]; omega
  generalize BitVec.ofNat 7 (0x30 + t.code) = op at *
  simp [RawSlot.instr, decodeClass9, h1, h2, hw]
theorem vmaxFp (t : Ty) (d : Reg) (a : Reg) (b : Reg) : Statement (.vmaxFp t d a b) := by
  intro g hg hw _ _
  refine ⟨_, rfl, decode_of hg ?_⟩
  simp only [Instr.wf, Imm.wf, Bool.and_eq_true, decide_eq_true_eq] at hw
  have h1 : (BitVec.ofNat 7 (0x40 + t.code)).toNat / 16 = 4 := by
    have := Ty.code_lt t
    simp only [BitVec.toNat_ofNat]; omega
  have h2 : (BitVec.ofNat 7 (0x40 + t.code)).toNat % 16 = t.code := by
    have := Ty.code_lt t
    simp only [BitVec.toNat_ofNat]; omega
  generalize BitVec.ofNat 7 (0x40 + t.code) = op at *
  simp [RawSlot.instr, decodeClass9, h1, h2, hw]
theorem vabsFp (t : Ty) (d : Reg) (a : Reg) : Statement (.vabsFp t d a) := by
  intro g hg hw _ _
  refine ⟨_, rfl, decode_of hg ?_⟩
  simp only [Instr.wf, Imm.wf, Bool.and_eq_true, decide_eq_true_eq] at hw
  have h1 : (BitVec.ofNat 7 (0x50 + t.code)).toNat / 16 = 5 := by
    have := Ty.code_lt t
    simp only [BitVec.toNat_ofNat]; omega
  have h2 : (BitVec.ofNat 7 (0x50 + t.code)).toNat % 16 = t.code := by
    have := Ty.code_lt t
    simp only [BitVec.toNat_ofNat]; omega
  generalize BitVec.ofNat 7 (0x50 + t.code) = op at *
  simp [RawSlot.instr, decodeClass9, h1, h2, hw]
theorem vneg (t : Ty) (d : Reg) (a : Reg) : Statement (.vneg t d a) := by
  intro g hg hw _ _
  refine ⟨_, rfl, decode_of hg ?_⟩
  simp only [Instr.wf, Imm.wf, Bool.and_eq_true, decide_eq_true_eq] at hw
  have h1 : (BitVec.ofNat 7 (0x60 + t.code)).toNat / 16 = 6 := by
    have := Ty.code_lt t
    simp only [BitVec.toNat_ofNat]; omega
  have h2 : (BitVec.ofNat 7 (0x60 + t.code)).toNat % 16 = t.code := by
    have := Ty.code_lt t
    simp only [BitVec.toNat_ofNat]; omega
  generalize BitVec.ofNat 7 (0x60 + t.code) = op at *
  simp [RawSlot.instr, decodeClass9, h1, h2, hw]
theorem vcpys (t : Ty) (d : Reg) (a : Reg) (b : Reg) : Statement (.vcpys t d a b) := by
  intro g hg hw _ _
  refine ⟨_, rfl, decode_of hg ?_⟩
  simp only [Instr.wf, Imm.wf, Bool.and_eq_true, decide_eq_true_eq] at hw
  have h1 : (BitVec.ofNat 7 (0x70 + t.code)).toNat / 16 = 7 := by
    have := Ty.code_lt t
    simp only [BitVec.toNat_ofNat]; omega
  have h2 : (BitVec.ofNat 7 (0x70 + t.code)).toNat % 16 = t.code := by
    have := Ty.code_lt t
    simp only [BitVec.toNat_ofNat]; omega
  generalize BitVec.ofNat 7 (0x70 + t.code) = op at *
  simp [RawSlot.instr, decodeClass9, h1, h2, hw]
theorem vfma (t : Ty) (d : Reg) (a : Reg) (b : Reg) : Statement (.vfma t d a b) := by
  intro g hg hw _ _
  refine ⟨_, rfl, decode_of hg ?_⟩
  simp only [Instr.wf, Imm.wf, Bool.and_eq_true, decide_eq_true_eq] at hw
  have h1 : (BitVec.ofNat 7 (0x00 + t.code)).toNat / 16 = 0 := by
    have := Ty.code_lt t
    simp only [BitVec.toNat_ofNat]; omega
  have h2 : (BitVec.ofNat 7 (0x00 + t.code)).toNat % 16 = t.code := by
    have := Ty.code_lt t
    simp only [BitVec.toNat_ofNat]; omega
  generalize BitVec.ofNat 7 (0x00 + t.code) = op at *
  simp [RawSlot.instr, decodeClass10, h1, h2, hw]
theorem vfms (t : Ty) (d : Reg) (a : Reg) (b : Reg) : Statement (.vfms t d a b) := by
  intro g hg hw _ _
  refine ⟨_, rfl, decode_of hg ?_⟩
  simp only [Instr.wf, Imm.wf, Bool.and_eq_true, decide_eq_true_eq] at hw
  have h1 : (BitVec.ofNat 7 (0x10 + t.code)).toNat / 16 = 1 := by
    have := Ty.code_lt t
    simp only [BitVec.toNat_ofNat]; omega
  have h2 : (BitVec.ofNat 7 (0x10 + t.code)).toNat % 16 = t.code := by
    have := Ty.code_lt t
    simp only [BitVec.toNat_ofNat]; omega
  generalize BitVec.ofNat 7 (0x10 + t.code) = op at *
  simp [RawSlot.instr, decodeClass10, h1, h2, hw]
theorem vfnma (t : Ty) (d : Reg) (a : Reg) (b : Reg) : Statement (.vfnma t d a b) := by
  intro g hg hw _ _
  refine ⟨_, rfl, decode_of hg ?_⟩
  simp only [Instr.wf, Imm.wf, Bool.and_eq_true, decide_eq_true_eq] at hw
  have h1 : (BitVec.ofNat 7 (0x20 + t.code)).toNat / 16 = 2 := by
    have := Ty.code_lt t
    simp only [BitVec.toNat_ofNat]; omega
  have h2 : (BitVec.ofNat 7 (0x20 + t.code)).toNat % 16 = t.code := by
    have := Ty.code_lt t
    simp only [BitVec.toNat_ofNat]; omega
  generalize BitVec.ofNat 7 (0x20 + t.code) = op at *
  simp [RawSlot.instr, decodeClass10, h1, h2, hw]
theorem vfnms (t : Ty) (d : Reg) (a : Reg) (b : Reg) : Statement (.vfnms t d a b) := by
  intro g hg hw _ _
  refine ⟨_, rfl, decode_of hg ?_⟩
  simp only [Instr.wf, Imm.wf, Bool.and_eq_true, decide_eq_true_eq] at hw
  have h1 : (BitVec.ofNat 7 (0x30 + t.code)).toNat / 16 = 3 := by
    have := Ty.code_lt t
    simp only [BitVec.toNat_ofNat]; omega
  have h2 : (BitVec.ofNat 7 (0x30 + t.code)).toNat % 16 = t.code := by
    have := Ty.code_lt t
    simp only [BitVec.toNat_ofNat]; omega
  generalize BitVec.ofNat 7 (0x30 + t.code) = op at *
  simp [RawSlot.instr, decodeClass10, h1, h2, hw]
theorem vaddInt (t : Ty) (d : Reg) (a : Reg) (b : Reg) : Statement (.vaddInt t d a b) := by
  intro g hg hw _ _
  refine ⟨_, rfl, decode_of hg ?_⟩
  simp only [Instr.wf, Imm.wf, Bool.and_eq_true, decide_eq_true_eq] at hw
  have h1 : (BitVec.ofNat 7 (0x00 + t.code)).toNat / 16 = 0 := by
    have := Ty.code_lt t
    simp only [BitVec.toNat_ofNat]; omega
  have h2 : (BitVec.ofNat 7 (0x00 + t.code)).toNat % 16 = t.code := by
    have := Ty.code_lt t
    simp only [BitVec.toNat_ofNat]; omega
  generalize BitVec.ofNat 7 (0x00 + t.code) = op at *
  simp [RawSlot.instr, decodeClass11, h1, h2, hw]
theorem vsubInt (t : Ty) (d : Reg) (a : Reg) (b : Reg) : Statement (.vsubInt t d a b) := by
  intro g hg hw _ _
  refine ⟨_, rfl, decode_of hg ?_⟩
  simp only [Instr.wf, Imm.wf, Bool.and_eq_true, decide_eq_true_eq] at hw
  have h1 : (BitVec.ofNat 7 (0x10 + t.code)).toNat / 16 = 1 := by
    have := Ty.code_lt t
    simp only [BitVec.toNat_ofNat]; omega
  have h2 : (BitVec.ofNat 7 (0x10 + t.code)).toNat % 16 = t.code := by
    have := Ty.code_lt t
    simp only [BitVec.toNat_ofNat]; omega
  generalize BitVec.ofNat 7 (0x10 + t.code) = op at *
  simp [RawSlot.instr, decodeClass11, h1, h2, hw]
theorem vminInt (t : Ty) (d : Reg) (a : Reg) (b : Reg) : Statement (.vminInt t d a b) := by
  intro g hg hw _ _
  refine ⟨_, rfl, decode_of hg ?_⟩
  simp only [Instr.wf, Imm.wf, Bool.and_eq_true, decide_eq_true_eq] at hw
  have h1 : (BitVec.ofNat 7 (0x20 + t.code)).toNat / 16 = 2 := by
    have := Ty.code_lt t
    simp only [BitVec.toNat_ofNat]; omega
  have h2 : (BitVec.ofNat 7 (0x20 + t.code)).toNat % 16 = t.code := by
    have := Ty.code_lt t
    simp only [BitVec.toNat_ofNat]; omega
  generalize BitVec.ofNat 7 (0x20 + t.code) = op at *
  simp [RawSlot.instr, decodeClass11, h1, h2, hw]
theorem vmaxInt (t : Ty) (d : Reg) (a : Reg) (b : Reg) : Statement (.vmaxInt t d a b) := by
  intro g hg hw _ _
  refine ⟨_, rfl, decode_of hg ?_⟩
  simp only [Instr.wf, Imm.wf, Bool.and_eq_true, decide_eq_true_eq] at hw
  have h1 : (BitVec.ofNat 7 (0x30 + t.code)).toNat / 16 = 3 := by
    have := Ty.code_lt t
    simp only [BitVec.toNat_ofNat]; omega
  have h2 : (BitVec.ofNat 7 (0x30 + t.code)).toNat % 16 = t.code := by
    have := Ty.code_lt t
    simp only [BitVec.toNat_ofNat]; omega
  generalize BitVec.ofNat 7 (0x30 + t.code) = op at *
  simp [RawSlot.instr, decodeClass11, h1, h2, hw]
theorem vadds (t : Ty) (d : Reg) (a : Reg) (b : Reg) : Statement (.vadds t d a b) := by
  intro g hg hw _ _
  refine ⟨_, rfl, decode_of hg ?_⟩
  simp only [Instr.wf, Imm.wf, Bool.and_eq_true, decide_eq_true_eq] at hw
  have h1 : (BitVec.ofNat 7 (0x40 + t.code)).toNat / 16 = 4 := by
    have := Ty.code_lt t
    simp only [BitVec.toNat_ofNat]; omega
  have h2 : (BitVec.ofNat 7 (0x40 + t.code)).toNat % 16 = t.code := by
    have := Ty.code_lt t
    simp only [BitVec.toNat_ofNat]; omega
  generalize BitVec.ofNat 7 (0x40 + t.code) = op at *
  simp [RawSlot.instr, decodeClass11, h1, h2, hw]
theorem vsubs (t : Ty) (d : Reg) (a : Reg) (b : Reg) : Statement (.vsubs t d a b) := by
  intro g hg hw _ _
  refine ⟨_, rfl, decode_of hg ?_⟩
  simp only [Instr.wf, Imm.wf, Bool.and_eq_true, decide_eq_true_eq] at hw
  have h1 : (BitVec.ofNat 7 (0x50 + t.code)).toNat / 16 = 5 := by
    have := Ty.code_lt t
    simp only [BitVec.toNat_ofNat]; omega
  have h2 : (BitVec.ofNat 7 (0x50 + t.code)).toNat % 16 = t.code := by
    have := Ty.code_lt t
    simp only [BitVec.toNat_ofNat]; omega
  generalize BitVec.ofNat 7 (0x50 + t.code) = op at *
  simp [RawSlot.instr, decodeClass11, h1, h2, hw]
theorem vmulInt (t : Ty) (d : Reg) (a : Reg) (b : Reg) : Statement (.vmulInt t d a b) := by
  intro g hg hw _ _
  refine ⟨_, rfl, decode_of hg ?_⟩
  simp only [Instr.wf, Imm.wf, Bool.and_eq_true, decide_eq_true_eq] at hw
  have h1 : (BitVec.ofNat 7 (0x60 + t.code)).toNat / 16 = 6 := by
    have := Ty.code_lt t
    simp only [BitVec.toNat_ofNat]; omega
  have h2 : (BitVec.ofNat 7 (0x60 + t.code)).toNat % 16 = t.code := by
    have := Ty.code_lt t
    simp only [BitVec.toNat_ofNat]; omega
  generalize BitVec.ofNat 7 (0x60 + t.code) = op at *
  simp [RawSlot.instr, decodeClass11, h1, h2, hw]
theorem vabsInt (t : Ty) (d : Reg) (a : Reg) : Statement (.vabsInt t d a) := by
  intro g hg hw _ _
  refine ⟨_, rfl, decode_of hg ?_⟩
  simp only [Instr.wf, Imm.wf, Bool.and_eq_true, decide_eq_true_eq] at hw
  have h1 : (BitVec.ofNat 7 (0x70 + t.code)).toNat / 16 = 7 := by
    have := Ty.code_lt t
    simp only [BitVec.toNat_ofNat]; omega
  have h2 : (BitVec.ofNat 7 (0x70 + t.code)).toNat % 16 = t.code := by
    have := Ty.code_lt t
    simp only [BitVec.toNat_ofNat]; omega
  generalize BitVec.ofNat 7 (0x70 + t.code) = op at *
  simp [RawSlot.instr, decodeClass11, h1, h2, hw]
theorem vcmpeq (t : Ty) (d : KReg) (a : Reg) (b : Reg) : Statement (.vcmpeq t d a b) := by
  intro g hg hw _ _
  refine ⟨_, rfl, decode_of hg ?_⟩
  simp only [Instr.wf, Imm.wf, Bool.and_eq_true, decide_eq_true_eq] at hw
  have h1 : (BitVec.ofNat 7 (0x00 + t.code)).toNat / 16 = 0 := by
    have := Ty.code_lt t
    simp only [BitVec.toNat_ofNat]; omega
  have h2 : (BitVec.ofNat 7 (0x00 + t.code)).toNat % 16 = t.code := by
    have := Ty.code_lt t
    simp only [BitVec.toNat_ofNat]; omega
  generalize BitVec.ofNat 7 (0x00 + t.code) = op at *
  simp [RawSlot.instr, decodeClass12, h1, h2, hw]
theorem vcmpne (t : Ty) (d : KReg) (a : Reg) (b : Reg) : Statement (.vcmpne t d a b) := by
  intro g hg hw _ _
  refine ⟨_, rfl, decode_of hg ?_⟩
  simp only [Instr.wf, Imm.wf, Bool.and_eq_true, decide_eq_true_eq] at hw
  have h1 : (BitVec.ofNat 7 (0x10 + t.code)).toNat / 16 = 1 := by
    have := Ty.code_lt t
    simp only [BitVec.toNat_ofNat]; omega
  have h2 : (BitVec.ofNat 7 (0x10 + t.code)).toNat % 16 = t.code := by
    have := Ty.code_lt t
    simp only [BitVec.toNat_ofNat]; omega
  generalize BitVec.ofNat 7 (0x10 + t.code) = op at *
  simp [RawSlot.instr, decodeClass12, h1, h2, hw]
theorem vcmplt (t : Ty) (d : KReg) (a : Reg) (b : Reg) : Statement (.vcmplt t d a b) := by
  intro g hg hw _ _
  refine ⟨_, rfl, decode_of hg ?_⟩
  simp only [Instr.wf, Imm.wf, Bool.and_eq_true, decide_eq_true_eq] at hw
  have h1 : (BitVec.ofNat 7 (0x20 + t.code)).toNat / 16 = 2 := by
    have := Ty.code_lt t
    simp only [BitVec.toNat_ofNat]; omega
  have h2 : (BitVec.ofNat 7 (0x20 + t.code)).toNat % 16 = t.code := by
    have := Ty.code_lt t
    simp only [BitVec.toNat_ofNat]; omega
  generalize BitVec.ofNat 7 (0x20 + t.code) = op at *
  simp [RawSlot.instr, decodeClass12, h1, h2, hw]
theorem vcmple (t : Ty) (d : KReg) (a : Reg) (b : Reg) : Statement (.vcmple t d a b) := by
  intro g hg hw _ _
  refine ⟨_, rfl, decode_of hg ?_⟩
  simp only [Instr.wf, Imm.wf, Bool.and_eq_true, decide_eq_true_eq] at hw
  have h1 : (BitVec.ofNat 7 (0x30 + t.code)).toNat / 16 = 3 := by
    have := Ty.code_lt t
    simp only [BitVec.toNat_ofNat]; omega
  have h2 : (BitVec.ofNat 7 (0x30 + t.code)).toNat % 16 = t.code := by
    have := Ty.code_lt t
    simp only [BitVec.toNat_ofNat]; omega
  generalize BitVec.ofNat 7 (0x30 + t.code) = op at *
  simp [RawSlot.instr, decodeClass12, h1, h2, hw]
theorem vcmpun (d : KReg) (a : Reg) (b : Reg) : Statement (.vcmpun d a b) := by
  intro g hg hw _ _
  refine ⟨_, rfl, decode_of hg ?_⟩
  simp [RawSlot.instr, decodeClass12]
theorem vand (d : Reg) (a : Reg) (b : Reg) : Statement (.vand d a b) := by
  intro g hg hw _ _
  refine ⟨_, rfl, decode_of hg ?_⟩
  simp [RawSlot.instr, decodeClass12]
theorem vor (d : Reg) (a : Reg) (b : Reg) : Statement (.vor d a b) := by
  intro g hg hw _ _
  refine ⟨_, rfl, decode_of hg ?_⟩
  simp [RawSlot.instr, decodeClass12]
theorem vxor (d : Reg) (a : Reg) (b : Reg) : Statement (.vxor d a b) := by
  intro g hg hw _ _
  refine ⟨_, rfl, decode_of hg ?_⟩
  simp [RawSlot.instr, decodeClass12]
theorem vandn (d : Reg) (a : Reg) (b : Reg) : Statement (.vandn d a b) := by
  intro g hg hw _ _
  refine ⟨_, rfl, decode_of hg ?_⟩
  simp [RawSlot.instr, decodeClass12]
theorem vnot (d : Reg) (a : Reg) : Statement (.vnot d a) := by
  intro g hg hw _ _
  refine ⟨_, rfl, decode_of hg ?_⟩
  simp [RawSlot.instr, decodeClass12]
theorem vshl (d : Reg) (a : Reg) (b : Reg) : Statement (.vshl d a b) := by
  intro g hg hw _ _
  refine ⟨_, rfl, decode_of hg ?_⟩
  simp [RawSlot.instr, decodeClass12]
theorem vshr (d : Reg) (a : Reg) (b : Reg) : Statement (.vshr d a b) := by
  intro g hg hw _ _
  refine ⟨_, rfl, decode_of hg ?_⟩
  simp [RawSlot.instr, decodeClass12]
theorem vsar (d : Reg) (a : Reg) (b : Reg) : Statement (.vsar d a b) := by
  intro g hg hw _ _
  refine ⟨_, rfl, decode_of hg ?_⟩
  simp [RawSlot.instr, decodeClass12]
theorem vsel (d : Reg) (a : Reg) (b : Reg) : Statement (.vsel d a b) := by
  intro g hg hw _ _
  refine ⟨_, rfl, decode_of hg ?_⟩
  simp [RawSlot.instr, decodeClass12]
theorem vmov (d : Reg) (a : Reg) : Statement (.vmov d a) := by
  intro g hg hw _ _
  refine ⟨_, rfl, decode_of hg ?_⟩
  simp [RawSlot.instr, decodeClass12]
theorem vbcst (d : Reg) (a : Reg) : Statement (.vbcst d a) := by
  intro g hg hw _ _
  refine ⟨_, rfl, decode_of hg ?_⟩
  simp [RawSlot.instr, decodeClass12]
theorem vextr (d : Reg) (a : Reg) (b : Reg) : Statement (.vextr d a b) := by
  intro g hg hw _ _
  refine ⟨_, rfl, decode_of hg ?_⟩
  simp [RawSlot.instr, decodeClass12]
theorem vinsr (d : Reg) (a : Reg) (b : Reg) : Statement (.vinsr d a b) := by
  intro g hg hw _ _
  refine ⟨_, rfl, decode_of hg ?_⟩
  simp [RawSlot.instr, decodeClass12]
theorem kpopc (d : Reg) (a : KReg) : Statement (.kpopc d a) := by
  intro g hg hw _ _
  refine ⟨_, rfl, decode_of hg ?_⟩
  simp [RawSlot.instr, decodeClass12]
theorem kfirst (d : Reg) (a : KReg) : Statement (.kfirst d a) := by
  intro g hg hw _ _
  refine ⟨_, rfl, decode_of hg ?_⟩
  simp [RawSlot.instr, decodeClass12]
theorem klast (d : Reg) (a : KReg) : Statement (.klast d a) := by
  intro g hg hw _ _
  refine ⟨_, rfl, decode_of hg ?_⟩
  simp [RawSlot.instr, decodeClass12]
theorem cvtVector (t : Ty) (src : Ty) (r : Rc) (d : Reg) (a : Reg) : Statement (.cvtVector t src r d a) := by
  intro g hg hw _ _
  refine ⟨_, rfl, decode_of hg ?_⟩
  simp only [Instr.wf, Imm.wf, Bool.and_eq_true, decide_eq_true_eq] at hw
  have h1 : (BitVec.ofNat 7 (8 * t.code + r.code)).toNat / 8 = t.code := by
    have := Ty.code_lt t; have := Ty.code_lt src; have := Rc.code_lt r
    simp only [BitVec.toNat_ofNat]; omega
  have h2 : (BitVec.ofNat 7 (8 * t.code + r.code)).toNat % 8 = r.code := by
    have := Ty.code_lt t; have := Ty.code_lt src; have := Rc.code_lt r
    simp only [BitVec.toNat_ofNat]; omega
  have h3 : (BitVec.ofNat 5 src.code).toNat = src.code := by
    have := Ty.code_lt t; have := Ty.code_lt src; have := Rc.code_lt r
    simp only [BitVec.toNat_ofNat]; omega
  generalize BitVec.ofNat 7 (8 * t.code + r.code) = op at *
  generalize BitVec.ofNat 5 src.code = b at *
  simp [RawSlot.instr, decodeClass13, h1, h2, h3, hw]
theorem vqnt (t : Ty) (d : Reg) (a : Reg) (b : Reg) : Statement (.vqnt t d a b) := by
  intro g hg hw _ _
  refine ⟨_, rfl, decode_of hg ?_⟩
  simp only [Instr.wf, Imm.wf, Bool.and_eq_true, decide_eq_true_eq] at hw
  have h1 : (BitVec.ofNat 7 (0x00 + t.code)).toNat / 16 = 0 := by
    have := Ty.code_lt t
    simp only [BitVec.toNat_ofNat]; omega
  have h2 : (BitVec.ofNat 7 (0x00 + t.code)).toNat % 16 = t.code := by
    have := Ty.code_lt t
    simp only [BitVec.toNat_ofNat]; omega
  generalize BitVec.ofNat 7 (0x00 + t.code) = op at *
  simp [RawSlot.instr, decodeClass14, h1, h2, hw]
theorem vdq (out : Ty) (src : Ty) (d : Reg) (a : Reg) (b : Reg) : Statement (.vdq out src d a b) := by
  intro g hg hw _ _
  refine ⟨_, rfl, decode_of hg ?_⟩
  simp only [Instr.wf, Bool.and_eq_true, decide_eq_true_eq] at hw
  obtain ⟨⟨ho, hs⟩, hb⟩ := hw
  have hc : out.code < 3 := by cases out <;> first | (cases ho; done) | decide
  have hl := src.code_lt
  have h1 : (BitVec.ofNat 7 (0x10 + 0x10 * out.code + src.code)).toNat / 16 = out.code + 1 := by
    simp only [BitVec.toNat_ofNat]; omega
  have h2 : (BitVec.ofNat 7 (0x10 + 0x10 * out.code + src.code)).toNat % 16 = src.code := by
    simp only [BitVec.toNat_ofNat]; omega
  generalize BitVec.ofNat 7 (0x10 + 0x10 * out.code + src.code) = op at *
  have e := Ty.ofCode_code out
  obtain h | h | h : out.code = 0 ∨ out.code = 1 ∨ out.code = 2 := by omega
  all_goals
    rw [h] at h1 e
    simp [RawSlot.instr, decodeClass14, h1, h2, e, ho, hs, hb]
theorem vperm (d : Reg) (a : Reg) (b : Reg) : Statement (.vperm d a b) := by
  intro g hg hw _ _
  refine ⟨_, rfl, decode_of hg ?_⟩
  simp [RawSlot.instr, decodeClass14]
theorem vrot (d : Reg) (a : Reg) (b : Reg) : Statement (.vrot d a b) := by
  intro g hg hw _ _
  refine ⟨_, rfl, decode_of hg ?_⟩
  simp [RawSlot.instr, decodeClass14]
theorem vziplo (d : Reg) (a : Reg) (b : Reg) : Statement (.vziplo d a b) := by
  intro g hg hw _ _
  refine ⟨_, rfl, decode_of hg ?_⟩
  simp [RawSlot.instr, decodeClass14]
theorem vziphi (d : Reg) (a : Reg) (b : Reg) : Statement (.vziphi d a b) := by
  intro g hg hw _ _
  refine ⟨_, rfl, decode_of hg ?_⟩
  simp [RawSlot.instr, decodeClass14]
theorem vcomp (d : Reg) (a : Reg) : Statement (.vcomp d a) := by
  intro g hg hw _ _
  refine ⟨_, rfl, decode_of hg ?_⟩
  simp [RawSlot.instr, decodeClass14]
theorem vexpd (d : Reg) (a : Reg) : Statement (.vexpd d a) := by
  intro g hg hw _ _
  refine ⟨_, rfl, decode_of hg ?_⟩
  simp [RawSlot.instr, decodeClass14]
theorem viota (d : Reg) : Statement (.viota d) := by
  intro g hg hw _ _
  refine ⟨_, rfl, decode_of hg ?_⟩
  simp [RawSlot.instr, decodeClass14]
theorem vclmullo (d : Reg) (a : Reg) (b : Reg) : Statement (.vclmullo d a b) := by
  intro g hg hw _ _
  refine ⟨_, rfl, decode_of hg ?_⟩
  simp [RawSlot.instr, decodeClass14]
theorem vclmulhi (d : Reg) (a : Reg) (b : Reg) : Statement (.vclmulhi d a b) := by
  intro g hg hw _ _
  refine ⟨_, rfl, decode_of hg ?_⟩
  simp [RawSlot.instr, decodeClass14]
theorem vrsum (t : Ty) (d : Reg) (a : Reg) : Statement (.vrsum t d a) := by
  intro g hg hw _ _
  refine ⟨_, rfl, decode_of hg ?_⟩
  simp only [Instr.wf, Imm.wf, Bool.and_eq_true, decide_eq_true_eq] at hw
  have h1 : (BitVec.ofNat 7 (0x00 + t.code)).toNat / 16 = 0 := by
    have := Ty.code_lt t
    simp only [BitVec.toNat_ofNat]; omega
  have h2 : (BitVec.ofNat 7 (0x00 + t.code)).toNat % 16 = t.code := by
    have := Ty.code_lt t
    simp only [BitVec.toNat_ofNat]; omega
  generalize BitVec.ofNat 7 (0x00 + t.code) = op at *
  simp [RawSlot.instr, decodeClass15, h1, h2, hw]
theorem vrmax (t : Ty) (d : Reg) (a : Reg) : Statement (.vrmax t d a) := by
  intro g hg hw _ _
  refine ⟨_, rfl, decode_of hg ?_⟩
  simp only [Instr.wf, Imm.wf, Bool.and_eq_true, decide_eq_true_eq] at hw
  have h1 : (BitVec.ofNat 7 (0x10 + t.code)).toNat / 16 = 1 := by
    have := Ty.code_lt t
    simp only [BitVec.toNat_ofNat]; omega
  have h2 : (BitVec.ofNat 7 (0x10 + t.code)).toNat % 16 = t.code := by
    have := Ty.code_lt t
    simp only [BitVec.toNat_ofNat]; omega
  generalize BitVec.ofNat 7 (0x10 + t.code) = op at *
  simp [RawSlot.instr, decodeClass15, h1, h2, hw]
theorem vrmin (t : Ty) (d : Reg) (a : Reg) : Statement (.vrmin t d a) := by
  intro g hg hw _ _
  refine ⟨_, rfl, decode_of hg ?_⟩
  simp only [Instr.wf, Imm.wf, Bool.and_eq_true, decide_eq_true_eq] at hw
  have h1 : (BitVec.ofNat 7 (0x20 + t.code)).toNat / 16 = 2 := by
    have := Ty.code_lt t
    simp only [BitVec.toNat_ofNat]; omega
  have h2 : (BitVec.ofNat 7 (0x20 + t.code)).toNat % 16 = t.code := by
    have := Ty.code_lt t
    simp only [BitVec.toNat_ofNat]; omega
  generalize BitVec.ofNat 7 (0x20 + t.code) = op at *
  simp [RawSlot.instr, decodeClass15, h1, h2, hw]
theorem vscsum (t : Ty) (d : Reg) (a : Reg) : Statement (.vscsum t d a) := by
  intro g hg hw _ _
  refine ⟨_, rfl, decode_of hg ?_⟩
  simp only [Instr.wf, Imm.wf, Bool.and_eq_true, decide_eq_true_eq] at hw
  have h1 : (BitVec.ofNat 7 (0x40 + t.code)).toNat / 16 = 4 := by
    have := Ty.code_lt t
    simp only [BitVec.toNat_ofNat]; omega
  have h2 : (BitVec.ofNat 7 (0x40 + t.code)).toNat % 16 = t.code := by
    have := Ty.code_lt t
    simp only [BitVec.toNat_ofNat]; omega
  generalize BitVec.ofNat 7 (0x40 + t.code) = op at *
  simp [RawSlot.instr, decodeClass15, h1, h2, hw]
theorem vscmax (t : Ty) (d : Reg) (a : Reg) : Statement (.vscmax t d a) := by
  intro g hg hw _ _
  refine ⟨_, rfl, decode_of hg ?_⟩
  simp only [Instr.wf, Imm.wf, Bool.and_eq_true, decide_eq_true_eq] at hw
  have h1 : (BitVec.ofNat 7 (0x50 + t.code)).toNat / 16 = 5 := by
    have := Ty.code_lt t
    simp only [BitVec.toNat_ofNat]; omega
  have h2 : (BitVec.ofNat 7 (0x50 + t.code)).toNat % 16 = t.code := by
    have := Ty.code_lt t
    simp only [BitVec.toNat_ofNat]; omega
  generalize BitVec.ofNat 7 (0x50 + t.code) = op at *
  simp [RawSlot.instr, decodeClass15, h1, h2, hw]
theorem vscmin (t : Ty) (d : Reg) (a : Reg) : Statement (.vscmin t d a) := by
  intro g hg hw _ _
  refine ⟨_, rfl, decode_of hg ?_⟩
  simp only [Instr.wf, Imm.wf, Bool.and_eq_true, decide_eq_true_eq] at hw
  have h1 : (BitVec.ofNat 7 (0x60 + t.code)).toNat / 16 = 6 := by
    have := Ty.code_lt t
    simp only [BitVec.toNat_ofNat]; omega
  have h2 : (BitVec.ofNat 7 (0x60 + t.code)).toNat % 16 = t.code := by
    have := Ty.code_lt t
    simp only [BitVec.toNat_ofNat]; omega
  generalize BitVec.ofNat 7 (0x60 + t.code) = op at *
  simp [RawSlot.instr, decodeClass15, h1, h2, hw]
theorem vdiv (t : Ty) (d : Reg) (a : Reg) (b : Reg) : Statement (.vdiv t d a b) := by
  intro g hg hw _ _
  refine ⟨_, rfl, decode_of hg ?_⟩
  simp only [Instr.wf, Imm.wf, Bool.and_eq_true, decide_eq_true_eq] at hw
  have h1 : (BitVec.ofNat 7 (0x00 + t.code)).toNat / 16 = 0 := by
    have := Ty.code_lt t
    simp only [BitVec.toNat_ofNat]; omega
  have h2 : (BitVec.ofNat 7 (0x00 + t.code)).toNat % 16 = t.code := by
    have := Ty.code_lt t
    simp only [BitVec.toNat_ofNat]; omega
  generalize BitVec.ofNat 7 (0x00 + t.code) = op at *
  simp [RawSlot.instr, decodeClass16, h1, h2, hw]
theorem vsqrt (t : Ty) (d : Reg) (a : Reg) : Statement (.vsqrt t d a) := by
  intro g hg hw _ _
  refine ⟨_, rfl, decode_of hg ?_⟩
  simp only [Instr.wf, Imm.wf, Bool.and_eq_true, decide_eq_true_eq] at hw
  have h1 : (BitVec.ofNat 7 (0x10 + t.code)).toNat / 16 = 1 := by
    have := Ty.code_lt t
    simp only [BitVec.toNat_ofNat]; omega
  have h2 : (BitVec.ofNat 7 (0x10 + t.code)).toNat % 16 = t.code := by
    have := Ty.code_lt t
    simp only [BitVec.toNat_ofNat]; omega
  generalize BitVec.ofNat 7 (0x10 + t.code) = op at *
  simp [RawSlot.instr, decodeClass16, h1, h2, hw]
theorem vrcp (t : Ty) (d : Reg) (a : Reg) : Statement (.vrcp t d a) := by
  intro g hg hw _ _
  refine ⟨_, rfl, decode_of hg ?_⟩
  simp only [Instr.wf, Imm.wf, Bool.and_eq_true, decide_eq_true_eq] at hw
  have h1 : (BitVec.ofNat 7 (0x20 + t.code)).toNat / 16 = 2 := by
    have := Ty.code_lt t
    simp only [BitVec.toNat_ofNat]; omega
  have h2 : (BitVec.ofNat 7 (0x20 + t.code)).toNat % 16 = t.code := by
    have := Ty.code_lt t
    simp only [BitVec.toNat_ofNat]; omega
  generalize BitVec.ofNat 7 (0x20 + t.code) = op at *
  simp [RawSlot.instr, decodeClass16, h1, h2, hw]
theorem vrsqrt (t : Ty) (d : Reg) (a : Reg) : Statement (.vrsqrt t d a) := by
  intro g hg hw _ _
  refine ⟨_, rfl, decode_of hg ?_⟩
  simp only [Instr.wf, Imm.wf, Bool.and_eq_true, decide_eq_true_eq] at hw
  have h1 : (BitVec.ofNat 7 (0x30 + t.code)).toNat / 16 = 3 := by
    have := Ty.code_lt t
    simp only [BitVec.toNat_ofNat]; omega
  have h2 : (BitVec.ofNat 7 (0x30 + t.code)).toNat % 16 = t.code := by
    have := Ty.code_lt t
    simp only [BitVec.toNat_ofNat]; omega
  generalize BitVec.ofNat 7 (0x30 + t.code) = op at *
  simp [RawSlot.instr, decodeClass16, h1, h2, hw]
theorem vexp2 (t : Ty) (d : Reg) (a : Reg) : Statement (.vexp2 t d a) := by
  intro g hg hw _ _
  refine ⟨_, rfl, decode_of hg ?_⟩
  simp only [Instr.wf, Imm.wf, Bool.and_eq_true, decide_eq_true_eq] at hw
  have h1 : (BitVec.ofNat 7 (0x40 + t.code)).toNat / 16 = 4 := by
    have := Ty.code_lt t
    simp only [BitVec.toNat_ofNat]; omega
  have h2 : (BitVec.ofNat 7 (0x40 + t.code)).toNat % 16 = t.code := by
    have := Ty.code_lt t
    simp only [BitVec.toNat_ofNat]; omega
  generalize BitVec.ofNat 7 (0x40 + t.code) = op at *
  simp [RawSlot.instr, decodeClass16, h1, h2, hw]
theorem vlog2 (t : Ty) (d : Reg) (a : Reg) : Statement (.vlog2 t d a) := by
  intro g hg hw _ _
  refine ⟨_, rfl, decode_of hg ?_⟩
  simp only [Instr.wf, Imm.wf, Bool.and_eq_true, decide_eq_true_eq] at hw
  have h1 : (BitVec.ofNat 7 (0x50 + t.code)).toNat / 16 = 5 := by
    have := Ty.code_lt t
    simp only [BitVec.toNat_ofNat]; omega
  have h2 : (BitVec.ofNat 7 (0x50 + t.code)).toNat % 16 = t.code := by
    have := Ty.code_lt t
    simp only [BitVec.toNat_ofNat]; omega
  generalize BitVec.ofNat 7 (0x50 + t.code) = op at *
  simp [RawSlot.instr, decodeClass16, h1, h2, hw]
theorem vtanh (t : Ty) (d : Reg) (a : Reg) : Statement (.vtanh t d a) := by
  intro g hg hw _ _
  refine ⟨_, rfl, decode_of hg ?_⟩
  simp only [Instr.wf, Imm.wf, Bool.and_eq_true, decide_eq_true_eq] at hw
  have h1 : (BitVec.ofNat 7 (0x60 + t.code)).toNat / 16 = 6 := by
    have := Ty.code_lt t
    simp only [BitVec.toNat_ofNat]; omega
  have h2 : (BitVec.ofNat 7 (0x60 + t.code)).toNat % 16 = t.code := by
    have := Ty.code_lt t
    simp only [BitVec.toNat_ofNat]; omega
  generalize BitVec.ofNat 7 (0x60 + t.code) = op at *
  simp [RawSlot.instr, decodeClass16, h1, h2, hw]
theorem vsigm (t : Ty) (d : Reg) (a : Reg) : Statement (.vsigm t d a) := by
  intro g hg hw _ _
  refine ⟨_, rfl, decode_of hg ?_⟩
  simp only [Instr.wf, Imm.wf, Bool.and_eq_true, decide_eq_true_eq] at hw
  have h1 : (BitVec.ofNat 7 (0x70 + t.code)).toNat / 16 = 7 := by
    have := Ty.code_lt t
    simp only [BitVec.toNat_ofNat]; omega
  have h2 : (BitVec.ofNat 7 (0x70 + t.code)).toNat % 16 = t.code := by
    have := Ty.code_lt t
    simp only [BitVec.toNat_ofNat]; omega
  generalize BitVec.ofNat 7 (0x70 + t.code) = op at *
  simp [RawSlot.instr, decodeClass16, h1, h2, hw]
theorem sbind (d : ZReg) (a : Reg) : Statement (.sbind d a) := by
  intro g hg hw _ _
  refine ⟨_, rfl, decode_of hg ?_⟩
  simp [RawSlot.instr, decodeClass17]
theorem sint (d : ZReg) (a : ZReg) (b : ZReg) : Statement (.sint d a b) := by
  intro g hg hw _ _
  refine ⟨_, rfl, decode_of hg ?_⟩
  simp [Instr.wf, Imm.wf] at hw
  simp [hw, RawSlot.instr, decodeClass17]
theorem suni (d : ZReg) (a : ZReg) (b : ZReg) : Statement (.suni d a b) := by
  intro g hg hw _ _
  refine ⟨_, rfl, decode_of hg ?_⟩
  simp [Instr.wf, Imm.wf] at hw
  simp [hw, RawSlot.instr, decodeClass17]
theorem ssub (d : ZReg) (a : ZReg) (b : ZReg) : Statement (.ssub d a b) := by
  intro g hg hw _ _
  refine ⟨_, rfl, decode_of hg ?_⟩
  simp [Instr.wf, Imm.wf] at hw
  simp [hw, RawSlot.instr, decodeClass17]
theorem smadd (d : ZReg) (a : ZReg) (b : ZReg) : Statement (.smadd d a b) := by
  intro g hg hw _ _
  refine ⟨_, rfl, decode_of hg ?_⟩
  simp [Instr.wf, Imm.wf] at hw
  simp [hw, RawSlot.instr, decodeClass17]
theorem sdrain (d : Reg) (a : ZReg) : Statement (.sdrain d a) := by
  intro g hg hw _ _
  refine ⟨_, rfl, decode_of hg ?_⟩
  simp [RawSlot.instr, decodeClass17]
theorem scnt (d : Reg) (a : ZReg) : Statement (.scnt d a) := by
  intro g hg hw _ _
  refine ⟨_, rfl, decode_of hg ?_⟩
  simp [RawSlot.instr, decodeClass17]
theorem sfree (d : ZReg) : Statement (.sfree d) := by
  intro g hg hw _ _
  refine ⟨_, rfl, decode_of hg ?_⟩
  simp [RawSlot.instr, decodeClass17]
theorem ld (t : Ty) (d : Reg) (a : Reg) (i : Imm 5) : Statement (.ld t d a i) := by
  intro g hg hw _ _
  refine ⟨_, rfl, decode_of hg ?_⟩
  simp only [Instr.wf, Imm.wf, Bool.and_eq_true, decide_eq_true_eq] at hw
  have h1 : (BitVec.ofNat 7 (0x00 + t.code)).toNat / 16 = 0 := by
    have := Ty.code_lt t
    simp only [BitVec.toNat_ofNat]; omega
  have h2 : (BitVec.ofNat 7 (0x00 + t.code)).toNat % 16 = t.code := by
    have := Ty.code_lt t
    simp only [BitVec.toNat_ofNat]; omega
  generalize BitVec.ofNat 7 (0x00 + t.code) = op at *
  simp [RawSlot.instr, decodeClass18, h1, h2, hw]
theorem ldacq (sc : Scope) (t : Ty) (d : Reg) (a : Reg) (i : Imm 5) : Statement (.ldacq sc t d a i) := by
  intro g hg hw _ _
  refine ⟨_, rfl, decode_of hg ?_⟩
  simp only [Instr.wf, Imm.wf, Bool.and_eq_true, decide_eq_true_eq] at hw
  have h1 : (BitVec.ofNat 7 (0x10 * (sc.code + 1) + t.code)).toNat / 16 = sc.code + 1 := by
    have := Scope.code_lt sc; have := Ty.code_lt t
    simp only [BitVec.toNat_ofNat]; omega
  have h2 : (BitVec.ofNat 7 (0x10 * (sc.code + 1) + t.code)).toNat % 16 = t.code := by
    have := Scope.code_lt sc; have := Ty.code_lt t
    simp only [BitVec.toNat_ofNat]; omega
  generalize BitVec.ofNat 7 (0x10 * (sc.code + 1) + t.code) = op at *
  cases sc <;> simp_all [RawSlot.instr, decodeClass18, Scope.code, Scope.ofCode]
theorem lds (t : Ty) (d : Reg) (a : Reg) (i : Imm 5) : Statement (.lds t d a i) := by
  intro g hg hw _ _
  refine ⟨_, rfl, decode_of hg ?_⟩
  simp only [Instr.wf, Imm.wf, Bool.and_eq_true, decide_eq_true_eq] at hw
  have h1 : (BitVec.ofNat 7 (0x70 + t.code)).toNat / 16 = 7 := by
    have := Ty.code_lt t
    simp only [BitVec.toNat_ofNat]; omega
  have h2 : (BitVec.ofNat 7 (0x70 + t.code)).toNat % 16 = t.code := by
    have := Ty.code_lt t
    simp only [BitVec.toNat_ofNat]; omega
  generalize BitVec.ofNat 7 (0x70 + t.code) = op at *
  simp [RawSlot.instr, decodeClass18, h1, h2, hw]
theorem st (t : Ty) (d : Reg) (a : Reg) (i : Imm 5) : Statement (.st t d a i) := by
  intro g hg hw _ _
  refine ⟨_, rfl, decode_of hg ?_⟩
  simp only [Instr.wf, Imm.wf, Bool.and_eq_true, decide_eq_true_eq] at hw
  have h1 : (BitVec.ofNat 7 (0x00 + t.code)).toNat / 16 = 0 := by
    have := Ty.code_lt t
    simp only [BitVec.toNat_ofNat]; omega
  have h2 : (BitVec.ofNat 7 (0x00 + t.code)).toNat % 16 = t.code := by
    have := Ty.code_lt t
    simp only [BitVec.toNat_ofNat]; omega
  generalize BitVec.ofNat 7 (0x00 + t.code) = op at *
  simp [RawSlot.instr, decodeClass19, h1, h2, hw]
theorem strel (sc : Scope) (t : Ty) (d : Reg) (a : Reg) (i : Imm 5) : Statement (.strel sc t d a i) := by
  intro g hg hw _ _
  refine ⟨_, rfl, decode_of hg ?_⟩
  simp only [Instr.wf, Imm.wf, Bool.and_eq_true, decide_eq_true_eq] at hw
  have h1 : (BitVec.ofNat 7 (0x10 * (sc.code + 1) + t.code)).toNat / 16 = sc.code + 1 := by
    have := Scope.code_lt sc; have := Ty.code_lt t
    simp only [BitVec.toNat_ofNat]; omega
  have h2 : (BitVec.ofNat 7 (0x10 * (sc.code + 1) + t.code)).toNat % 16 = t.code := by
    have := Scope.code_lt sc; have := Ty.code_lt t
    simp only [BitVec.toNat_ofNat]; omega
  generalize BitVec.ofNat 7 (0x10 * (sc.code + 1) + t.code) = op at *
  cases sc <;> simp_all [RawSlot.instr, decodeClass19, Scope.code, Scope.ofCode]
theorem sts (t : Ty) (d : Reg) (a : Reg) (i : Imm 5) : Statement (.sts t d a i) := by
  intro g hg hw _ _
  refine ⟨_, rfl, decode_of hg ?_⟩
  simp only [Instr.wf, Imm.wf, Bool.and_eq_true, decide_eq_true_eq] at hw
  have h1 : (BitVec.ofNat 7 (0x70 + t.code)).toNat / 16 = 7 := by
    have := Ty.code_lt t
    simp only [BitVec.toNat_ofNat]; omega
  have h2 : (BitVec.ofNat 7 (0x70 + t.code)).toNat % 16 = t.code := by
    have := Ty.code_lt t
    simp only [BitVec.toNat_ofNat]; omega
  generalize BitVec.ofNat 7 (0x70 + t.code) = op at *
  simp [RawSlot.instr, decodeClass19, h1, h2, hw]
theorem vld (d : Reg) (a : Reg) (i : Imm 5) : Statement (.vld d a i) := by
  intro g hg hw _ _
  refine ⟨_, rfl, decode_of hg ?_⟩
  simp [Instr.wf, Imm.wf] at hw
  simp [hw, RawSlot.instr, decodeClass20]
theorem vldacq (sc : Scope) (d : Reg) (a : Reg) (i : Imm 5) : Statement (.vldacq sc d a i) := by
  intro g hg hw _ _
  refine ⟨_, rfl, decode_of hg ?_⟩
  simp only [Instr.wf, Imm.wf, Bool.and_eq_true, decide_eq_true_eq] at hw
  have h1 : (BitVec.ofNat 7 (0x10 * (sc.code + 1) + 0)).toNat / 16 = sc.code + 1 := by
    have := Scope.code_lt sc
    simp only [BitVec.toNat_ofNat]; omega
  have h2 : (BitVec.ofNat 7 (0x10 * (sc.code + 1) + 0)).toNat % 16 = 0 := by
    have := Scope.code_lt sc
    simp only [BitVec.toNat_ofNat]; omega
  generalize BitVec.ofNat 7 (0x10 * (sc.code + 1) + 0) = op at *
  cases sc <;> simp_all [RawSlot.instr, decodeClass20, Scope.code, Scope.ofCode]
theorem vlds (d : Reg) (a : Reg) (i : Imm 5) : Statement (.vlds d a i) := by
  intro g hg hw _ _
  refine ⟨_, rfl, decode_of hg ?_⟩
  simp [Instr.wf, Imm.wf] at hw
  simp [hw, RawSlot.instr, decodeClass20]
theorem vst (d : Reg) (a : Reg) (i : Imm 5) : Statement (.vst d a i) := by
  intro g hg hw _ _
  refine ⟨_, rfl, decode_of hg ?_⟩
  simp [Instr.wf, Imm.wf] at hw
  simp [hw, RawSlot.instr, decodeClass20]
theorem vstrel (sc : Scope) (d : Reg) (a : Reg) (i : Imm 5) : Statement (.vstrel sc d a i) := by
  intro g hg hw _ _
  refine ⟨_, rfl, decode_of hg ?_⟩
  simp only [Instr.wf, Imm.wf, Bool.and_eq_true, decide_eq_true_eq] at hw
  have h1 : (BitVec.ofNat 7 (0x10 * (sc.code + 1) + 1)).toNat / 16 = sc.code + 1 := by
    have := Scope.code_lt sc
    simp only [BitVec.toNat_ofNat]; omega
  have h2 : (BitVec.ofNat 7 (0x10 * (sc.code + 1) + 1)).toNat % 16 = 1 := by
    have := Scope.code_lt sc
    simp only [BitVec.toNat_ofNat]; omega
  generalize BitVec.ofNat 7 (0x10 * (sc.code + 1) + 1) = op at *
  cases sc <;> simp_all [RawSlot.instr, decodeClass20, Scope.code, Scope.ofCode]
theorem vsts (d : Reg) (a : Reg) (i : Imm 5) : Statement (.vsts d a i) := by
  intro g hg hw _ _
  refine ⟨_, rfl, decode_of hg ?_⟩
  simp [Instr.wf, Imm.wf] at hw
  simp [hw, RawSlot.instr, decodeClass20]
theorem fill (d : Reg) (a : Reg) (i : Imm 5) : Statement (.fill d a i) := by
  intro g hg hw _ _
  exact ⟨_, rfl, decode_of hg (if_pos hw)⟩
theorem take (d : Reg) (a : Reg) (i : Imm 5) : Statement (.take d a i) := by
  intro g hg hw _ _
  exact ⟨_, rfl, decode_of hg (if_pos hw)⟩
theorem readf (d : Reg) (a : Reg) (i : Imm 5) : Statement (.readf d a i) := by
  intro g hg hw _ _
  exact ⟨_, rfl, decode_of hg (if_pos hw)⟩
theorem writef (d : Reg) (a : Reg) (i : Imm 5) : Statement (.writef d a i) := by
  intro g hg hw _ _
  exact ⟨_, rfl, decode_of hg (if_pos hw)⟩
theorem sete (d : Reg) (a : Reg) (i : Imm 5) : Statement (.sete d a i) := by
  intro g hg hw _ _
  exact ⟨_, rfl, decode_of hg (if_pos hw)⟩
theorem vgath (d : Reg) (a : Reg) (b : Reg) : Statement (.vgath d a b) := by
  intro g hg hw _ _
  exact ⟨_, rfl, decode_of hg rfl⟩
theorem vscat (d : Reg) (a : Reg) (b : Reg) : Statement (.vscat d a b) := by
  intro g hg hw _ _
  exact ⟨_, rfl, decode_of hg rfl⟩
theorem vgaths (d : Reg) (a : Reg) (b : Reg) : Statement (.vgaths d a b) := by
  intro g hg hw _ _
  exact ⟨_, rfl, decode_of hg rfl⟩
theorem vscats (d : Reg) (a : Reg) (b : Reg) : Statement (.vscats d a b) := by
  intro g hg hw _ _
  exact ⟨_, rfl, decode_of hg rfl⟩
theorem vmcst (d : Reg) (a : Reg) (b : Reg) : Statement (.vmcst d a b) := by
  intro g hg hw _ _
  exact ⟨_, rfl, decode_of hg rfl⟩
theorem vrdst (d : Reg) (a : Reg) (b : Reg) : Statement (.vrdst d a b) := by
  intro g hg hw _ _
  exact ⟨_, rfl, decode_of hg rfl⟩
theorem aadd (o : AOrd) (w : AWidth) (d : Reg) (a : Reg) (b : Reg) : Statement (.aadd o w d a b) := by
  intro g hg hw _ _
  refine ⟨_, rfl, decode_of hg ?_⟩
  have h1 : (BitVec.ofNat 7 (0x00 + 2 * o.code + w.code)).toNat / 8 = 0 := by
    have := AOrd.code_lt o; have := AWidth.code_lt w
    simp only [BitVec.toNat_ofNat]; omega
  have h2 : (BitVec.ofNat 7 (0x00 + 2 * o.code + w.code)).toNat / 2 % 4 = o.code := by
    have := AOrd.code_lt o; have := AWidth.code_lt w
    simp only [BitVec.toNat_ofNat]; omega
  have h3 : (BitVec.ofNat 7 (0x00 + 2 * o.code + w.code)).toNat % 2 = w.code := by
    have := AOrd.code_lt o; have := AWidth.code_lt w
    simp only [BitVec.toNat_ofNat]; omega
  generalize BitVec.ofNat 7 (0x00 + 2 * o.code + w.code) = op at *
  simp [RawSlot.instr, decodeClass22, h1, h2, h3]
theorem aand (o : AOrd) (w : AWidth) (d : Reg) (a : Reg) (b : Reg) : Statement (.aand o w d a b) := by
  intro g hg hw _ _
  refine ⟨_, rfl, decode_of hg ?_⟩
  have h1 : (BitVec.ofNat 7 (0x08 + 2 * o.code + w.code)).toNat / 8 = 1 := by
    have := AOrd.code_lt o; have := AWidth.code_lt w
    simp only [BitVec.toNat_ofNat]; omega
  have h2 : (BitVec.ofNat 7 (0x08 + 2 * o.code + w.code)).toNat / 2 % 4 = o.code := by
    have := AOrd.code_lt o; have := AWidth.code_lt w
    simp only [BitVec.toNat_ofNat]; omega
  have h3 : (BitVec.ofNat 7 (0x08 + 2 * o.code + w.code)).toNat % 2 = w.code := by
    have := AOrd.code_lt o; have := AWidth.code_lt w
    simp only [BitVec.toNat_ofNat]; omega
  generalize BitVec.ofNat 7 (0x08 + 2 * o.code + w.code) = op at *
  simp [RawSlot.instr, decodeClass22, h1, h2, h3]
theorem aor (o : AOrd) (w : AWidth) (d : Reg) (a : Reg) (b : Reg) : Statement (.aor o w d a b) := by
  intro g hg hw _ _
  refine ⟨_, rfl, decode_of hg ?_⟩
  have h1 : (BitVec.ofNat 7 (0x10 + 2 * o.code + w.code)).toNat / 8 = 2 := by
    have := AOrd.code_lt o; have := AWidth.code_lt w
    simp only [BitVec.toNat_ofNat]; omega
  have h2 : (BitVec.ofNat 7 (0x10 + 2 * o.code + w.code)).toNat / 2 % 4 = o.code := by
    have := AOrd.code_lt o; have := AWidth.code_lt w
    simp only [BitVec.toNat_ofNat]; omega
  have h3 : (BitVec.ofNat 7 (0x10 + 2 * o.code + w.code)).toNat % 2 = w.code := by
    have := AOrd.code_lt o; have := AWidth.code_lt w
    simp only [BitVec.toNat_ofNat]; omega
  generalize BitVec.ofNat 7 (0x10 + 2 * o.code + w.code) = op at *
  simp [RawSlot.instr, decodeClass22, h1, h2, h3]
theorem axor (o : AOrd) (w : AWidth) (d : Reg) (a : Reg) (b : Reg) : Statement (.axor o w d a b) := by
  intro g hg hw _ _
  refine ⟨_, rfl, decode_of hg ?_⟩
  have h1 : (BitVec.ofNat 7 (0x18 + 2 * o.code + w.code)).toNat / 8 = 3 := by
    have := AOrd.code_lt o; have := AWidth.code_lt w
    simp only [BitVec.toNat_ofNat]; omega
  have h2 : (BitVec.ofNat 7 (0x18 + 2 * o.code + w.code)).toNat / 2 % 4 = o.code := by
    have := AOrd.code_lt o; have := AWidth.code_lt w
    simp only [BitVec.toNat_ofNat]; omega
  have h3 : (BitVec.ofNat 7 (0x18 + 2 * o.code + w.code)).toNat % 2 = w.code := by
    have := AOrd.code_lt o; have := AWidth.code_lt w
    simp only [BitVec.toNat_ofNat]; omega
  generalize BitVec.ofNat 7 (0x18 + 2 * o.code + w.code) = op at *
  simp [RawSlot.instr, decodeClass22, h1, h2, h3]
theorem aminSigned (o : AOrd) (w : AWidth) (d : Reg) (a : Reg) (b : Reg) : Statement (.aminSigned o w d a b) := by
  intro g hg hw _ _
  refine ⟨_, rfl, decode_of hg ?_⟩
  have h1 : (BitVec.ofNat 7 (0x20 + 2 * o.code + w.code)).toNat / 8 = 4 := by
    have := AOrd.code_lt o; have := AWidth.code_lt w
    simp only [BitVec.toNat_ofNat]; omega
  have h2 : (BitVec.ofNat 7 (0x20 + 2 * o.code + w.code)).toNat / 2 % 4 = o.code := by
    have := AOrd.code_lt o; have := AWidth.code_lt w
    simp only [BitVec.toNat_ofNat]; omega
  have h3 : (BitVec.ofNat 7 (0x20 + 2 * o.code + w.code)).toNat % 2 = w.code := by
    have := AOrd.code_lt o; have := AWidth.code_lt w
    simp only [BitVec.toNat_ofNat]; omega
  generalize BitVec.ofNat 7 (0x20 + 2 * o.code + w.code) = op at *
  simp [RawSlot.instr, decodeClass22, h1, h2, h3]
theorem amaxSigned (o : AOrd) (w : AWidth) (d : Reg) (a : Reg) (b : Reg) : Statement (.amaxSigned o w d a b) := by
  intro g hg hw _ _
  refine ⟨_, rfl, decode_of hg ?_⟩
  have h1 : (BitVec.ofNat 7 (0x28 + 2 * o.code + w.code)).toNat / 8 = 5 := by
    have := AOrd.code_lt o; have := AWidth.code_lt w
    simp only [BitVec.toNat_ofNat]; omega
  have h2 : (BitVec.ofNat 7 (0x28 + 2 * o.code + w.code)).toNat / 2 % 4 = o.code := by
    have := AOrd.code_lt o; have := AWidth.code_lt w
    simp only [BitVec.toNat_ofNat]; omega
  have h3 : (BitVec.ofNat 7 (0x28 + 2 * o.code + w.code)).toNat % 2 = w.code := by
    have := AOrd.code_lt o; have := AWidth.code_lt w
    simp only [BitVec.toNat_ofNat]; omega
  generalize BitVec.ofNat 7 (0x28 + 2 * o.code + w.code) = op at *
  simp [RawSlot.instr, decodeClass22, h1, h2, h3]
theorem aminUnsigned (o : AOrd) (w : AWidth) (d : Reg) (a : Reg) (b : Reg) : Statement (.aminUnsigned o w d a b) := by
  intro g hg hw _ _
  refine ⟨_, rfl, decode_of hg ?_⟩
  have h1 : (BitVec.ofNat 7 (0x30 + 2 * o.code + w.code)).toNat / 8 = 6 := by
    have := AOrd.code_lt o; have := AWidth.code_lt w
    simp only [BitVec.toNat_ofNat]; omega
  have h2 : (BitVec.ofNat 7 (0x30 + 2 * o.code + w.code)).toNat / 2 % 4 = o.code := by
    have := AOrd.code_lt o; have := AWidth.code_lt w
    simp only [BitVec.toNat_ofNat]; omega
  have h3 : (BitVec.ofNat 7 (0x30 + 2 * o.code + w.code)).toNat % 2 = w.code := by
    have := AOrd.code_lt o; have := AWidth.code_lt w
    simp only [BitVec.toNat_ofNat]; omega
  generalize BitVec.ofNat 7 (0x30 + 2 * o.code + w.code) = op at *
  simp [RawSlot.instr, decodeClass22, h1, h2, h3]
theorem amaxUnsigned (o : AOrd) (w : AWidth) (d : Reg) (a : Reg) (b : Reg) : Statement (.amaxUnsigned o w d a b) := by
  intro g hg hw _ _
  refine ⟨_, rfl, decode_of hg ?_⟩
  have h1 : (BitVec.ofNat 7 (0x38 + 2 * o.code + w.code)).toNat / 8 = 7 := by
    have := AOrd.code_lt o; have := AWidth.code_lt w
    simp only [BitVec.toNat_ofNat]; omega
  have h2 : (BitVec.ofNat 7 (0x38 + 2 * o.code + w.code)).toNat / 2 % 4 = o.code := by
    have := AOrd.code_lt o; have := AWidth.code_lt w
    simp only [BitVec.toNat_ofNat]; omega
  have h3 : (BitVec.ofNat 7 (0x38 + 2 * o.code + w.code)).toNat % 2 = w.code := by
    have := AOrd.code_lt o; have := AWidth.code_lt w
    simp only [BitVec.toNat_ofNat]; omega
  generalize BitVec.ofNat 7 (0x38 + 2 * o.code + w.code) = op at *
  simp [RawSlot.instr, decodeClass22, h1, h2, h3]
theorem aswap (o : AOrd) (w : AWidth) (d : Reg) (a : Reg) (b : Reg) : Statement (.aswap o w d a b) := by
  intro g hg hw _ _
  refine ⟨_, rfl, decode_of hg ?_⟩
  have h1 : (BitVec.ofNat 7 (0x40 + 2 * o.code + w.code)).toNat / 8 = 8 := by
    have := AOrd.code_lt o; have := AWidth.code_lt w
    simp only [BitVec.toNat_ofNat]; omega
  have h2 : (BitVec.ofNat 7 (0x40 + 2 * o.code + w.code)).toNat / 2 % 4 = o.code := by
    have := AOrd.code_lt o; have := AWidth.code_lt w
    simp only [BitVec.toNat_ofNat]; omega
  have h3 : (BitVec.ofNat 7 (0x40 + 2 * o.code + w.code)).toNat % 2 = w.code := by
    have := AOrd.code_lt o; have := AWidth.code_lt w
    simp only [BitVec.toNat_ofNat]; omega
  generalize BitVec.ofNat 7 (0x40 + 2 * o.code + w.code) = op at *
  simp [RawSlot.instr, decodeClass22, h1, h2, h3]
theorem acas (o : AOrd) (w : AWidth) (d : Reg) (a : Reg) (b : Reg) : Statement (.acas o w d a b) := by
  intro g hg hw _ _
  refine ⟨_, rfl, decode_of hg ?_⟩
  have h1 : (BitVec.ofNat 7 (0x48 + 2 * o.code + w.code)).toNat / 8 = 9 := by
    have := AOrd.code_lt o; have := AWidth.code_lt w
    simp only [BitVec.toNat_ofNat]; omega
  have h2 : (BitVec.ofNat 7 (0x48 + 2 * o.code + w.code)).toNat / 2 % 4 = o.code := by
    have := AOrd.code_lt o; have := AWidth.code_lt w
    simp only [BitVec.toNat_ofNat]; omega
  have h3 : (BitVec.ofNat 7 (0x48 + 2 * o.code + w.code)).toNat % 2 = w.code := by
    have := AOrd.code_lt o; have := AWidth.code_lt w
    simp only [BitVec.toNat_ofNat]; omega
  generalize BitVec.ofNat 7 (0x48 + 2 * o.code + w.code) = op at *
  simp [RawSlot.instr, decodeClass22, h1, h2, h3]
theorem acasw (o : AOrd) (d : Reg) (a : Reg) (b : Reg) : Statement (.acasw o d a b) := by
  intro g hg hw _ _
  refine ⟨_, rfl, decode_of hg ?_⟩
  simp only [Instr.wf, Imm.wf, Bool.and_eq_true, decide_eq_true_eq] at hw
  have h1 : (BitVec.ofNat 7 (0x00 + 2 * o.code)).toNat / 8 = 0 := by
    have := AOrd.code_lt o
    simp only [BitVec.toNat_ofNat]; omega
  have h2 : (BitVec.ofNat 7 (0x00 + 2 * o.code)).toNat / 2 % 4 = o.code := by
    have := AOrd.code_lt o
    simp only [BitVec.toNat_ofNat]; omega
  have h3 : (BitVec.ofNat 7 (0x00 + 2 * o.code)).toNat % 2 = 0 := by
    have := AOrd.code_lt o
    simp only [BitVec.toNat_ofNat]; omega
  generalize BitVec.ofNat 7 (0x00 + 2 * o.code) = op at *
  simp [RawSlot.instr, decodeClass29, h1, h2, h3, hw]
theorem aswapw (o : AOrd) (d : Reg) (a : Reg) (b : Reg) : Statement (.aswapw o d a b) := by
  intro g hg hw _ _
  refine ⟨_, rfl, decode_of hg ?_⟩
  simp only [Instr.wf, Imm.wf, Bool.and_eq_true, decide_eq_true_eq] at hw
  have h1 : (BitVec.ofNat 7 (0x08 + 2 * o.code)).toNat / 8 = 1 := by
    have := AOrd.code_lt o
    simp only [BitVec.toNat_ofNat]; omega
  have h2 : (BitVec.ofNat 7 (0x08 + 2 * o.code)).toNat / 2 % 4 = o.code := by
    have := AOrd.code_lt o
    simp only [BitVec.toNat_ofNat]; omega
  have h3 : (BitVec.ofNat 7 (0x08 + 2 * o.code)).toNat % 2 = 0 := by
    have := AOrd.code_lt o
    simp only [BitVec.toNat_ofNat]; omega
  generalize BitVec.ofNat 7 (0x08 + 2 * o.code) = op at *
  simp [RawSlot.instr, decodeClass29, h1, h2, h3, hw]
theorem afaddF32 (o : AOrd) (d : Reg) (a : Reg) (b : Reg) : Statement (.afaddF32 o d a b) := by
  intro g hg hw _ _
  refine ⟨_, rfl, decode_of hg ?_⟩
  have h1 : (BitVec.ofNat 7 (0x10 + 2 * o.code)).toNat / 8 = 2 := by
    have := AOrd.code_lt o
    simp only [BitVec.toNat_ofNat]; omega
  have h2 : (BitVec.ofNat 7 (0x10 + 2 * o.code)).toNat / 2 % 4 = o.code := by
    have := AOrd.code_lt o
    simp only [BitVec.toNat_ofNat]; omega
  have h3 : (BitVec.ofNat 7 (0x10 + 2 * o.code)).toNat % 2 = 0 := by
    have := AOrd.code_lt o
    simp only [BitVec.toNat_ofNat]; omega
  generalize BitVec.ofNat 7 (0x10 + 2 * o.code) = op at *
  simp [RawSlot.instr, decodeClass29, h1, h2, h3]
theorem afaddBf16 (o : AOrd) (d : Reg) (a : Reg) (b : Reg) : Statement (.afaddBf16 o d a b) := by
  intro g hg hw _ _
  refine ⟨_, rfl, decode_of hg ?_⟩
  have h1 : (BitVec.ofNat 7 (0x18 + 2 * o.code)).toNat / 8 = 3 := by
    have := AOrd.code_lt o
    simp only [BitVec.toNat_ofNat]; omega
  have h2 : (BitVec.ofNat 7 (0x18 + 2 * o.code)).toNat / 2 % 4 = o.code := by
    have := AOrd.code_lt o
    simp only [BitVec.toNat_ofNat]; omega
  have h3 : (BitVec.ofNat 7 (0x18 + 2 * o.code)).toNat % 2 = 0 := by
    have := AOrd.code_lt o
    simp only [BitVec.toNat_ofNat]; omega
  generalize BitVec.ofNat 7 (0x18 + 2 * o.code) = op at *
  simp [RawSlot.instr, decodeClass29, h1, h2, h3]
theorem vafaddF32 (o : AOrd) (d : Reg) (a : Reg) (b : Reg) : Statement (.vafaddF32 o d a b) := by
  intro g hg hw _ _
  refine ⟨_, rfl, decode_of hg ?_⟩
  have h1 : (BitVec.ofNat 7 (0x20 + 2 * o.code)).toNat / 8 = 4 := by
    have := AOrd.code_lt o
    simp only [BitVec.toNat_ofNat]; omega
  have h2 : (BitVec.ofNat 7 (0x20 + 2 * o.code)).toNat / 2 % 4 = o.code := by
    have := AOrd.code_lt o
    simp only [BitVec.toNat_ofNat]; omega
  have h3 : (BitVec.ofNat 7 (0x20 + 2 * o.code)).toNat % 2 = 0 := by
    have := AOrd.code_lt o
    simp only [BitVec.toNat_ofNat]; omega
  generalize BitVec.ofNat 7 (0x20 + 2 * o.code) = op at *
  simp [RawSlot.instr, decodeClass29, h1, h2, h3]
theorem vaaddZ32 (o : AOrd) (d : Reg) (a : Reg) (b : Reg) : Statement (.vaaddZ32 o d a b) := by
  intro g hg hw _ _
  refine ⟨_, rfl, decode_of hg ?_⟩
  have h1 : (BitVec.ofNat 7 (0x28 + 2 * o.code)).toNat / 8 = 5 := by
    have := AOrd.code_lt o
    simp only [BitVec.toNat_ofNat]; omega
  have h2 : (BitVec.ofNat 7 (0x28 + 2 * o.code)).toNat / 2 % 4 = o.code := by
    have := AOrd.code_lt o
    simp only [BitVec.toNat_ofNat]; omega
  have h3 : (BitVec.ofNat 7 (0x28 + 2 * o.code)).toNat % 2 = 0 := by
    have := AOrd.code_lt o
    simp only [BitVec.toNat_ofNat]; omega
  generalize BitVec.ofNat 7 (0x28 + 2 * o.code) = op at *
  simp [RawSlot.instr, decodeClass29, h1, h2, h3]
theorem fenceAcq (sc : Scope) : Statement (.fenceAcq sc) := by
  intro g hg hw _ _
  refine ⟨_, rfl, decode_of hg ?_⟩
  have h1 : (BitVec.ofNat 7 (0x00 + sc.code)).toNat / 8 = 0 := by
    have := Scope.code_lt sc
    simp only [BitVec.toNat_ofNat]; omega
  have h2 : (BitVec.ofNat 7 (0x00 + sc.code)).toNat % 8 = sc.code := by
    have := Scope.code_lt sc
    simp only [BitVec.toNat_ofNat]; omega
  generalize BitVec.ofNat 7 (0x00 + sc.code) = op at *
  simp [RawSlot.instr, decodeClass23, h1, h2]
theorem fenceRel (sc : Scope) : Statement (.fenceRel sc) := by
  intro g hg hw _ _
  refine ⟨_, rfl, decode_of hg ?_⟩
  have h1 : (BitVec.ofNat 7 (0x08 + sc.code)).toNat / 8 = 1 := by
    have := Scope.code_lt sc
    simp only [BitVec.toNat_ofNat]; omega
  have h2 : (BitVec.ofNat 7 (0x08 + sc.code)).toNat % 8 = sc.code := by
    have := Scope.code_lt sc
    simp only [BitVec.toNat_ofNat]; omega
  generalize BitVec.ofNat 7 (0x08 + sc.code) = op at *
  simp [RawSlot.instr, decodeClass23, h1, h2]
theorem fence (sc : Scope) : Statement (.fence sc) := by
  intro g hg hw _ _
  refine ⟨_, rfl, decode_of hg ?_⟩
  have h1 : (BitVec.ofNat 7 (0x10 + sc.code)).toNat / 8 = 2 := by
    have := Scope.code_lt sc
    simp only [BitVec.toNat_ofNat]; omega
  have h2 : (BitVec.ofNat 7 (0x10 + sc.code)).toNat % 8 = sc.code := by
    have := Scope.code_lt sc
    simp only [BitVec.toNat_ofNat]; omega
  generalize BitVec.ofNat 7 (0x10 + sc.code) = op at *
  simp [RawSlot.instr, decodeClass23, h1, h2]
theorem bella (a : Reg) : Statement (.bella a) := by
  intro g hg hw _ _
  refine ⟨_, rfl, decode_of hg ?_⟩
  simp [RawSlot.instr, decodeClass23]
theorem bellw (a : Reg) : Statement (.bellw a) := by
  intro g hg hw _ _
  refine ⟨_, rfl, decode_of hg ?_⟩
  simp [RawSlot.instr, decodeClass23]
theorem bellm (a : Reg) (b : Reg) : Statement (.bellm a b) := by
  intro g hg hw _ _
  refine ⟨_, rfl, decode_of hg ?_⟩
  simp [RawSlot.instr, decodeClass23]
theorem rolli (a : Reg) (b : Reg) : Statement (.rolli a b) := by
  intro g hg hw _ _
  refine ⟨_, rfl, decode_of hg ?_⟩
  simp [RawSlot.instr, decodeClass23]
theorem rolla (a : Reg) (b : Reg) : Statement (.rolla a b) := by
  intro g hg hw _ _
  refine ⟨_, rfl, decode_of hg ?_⟩
  simp [RawSlot.instr, decodeClass23]
theorem rollw (d : Reg) (a : Reg) : Statement (.rollw d a) := by
  intro g hg hw _ _
  refine ⟨_, rfl, decode_of hg ?_⟩
  simp [RawSlot.instr, decodeClass23]
theorem stslip (d : Reg) (a : Reg) (b : Reg) : Statement (.stslip d a b) := by
  intro g hg hw _ _
  refine ⟨_, rfl, decode_of hg ?_⟩
  simp [RawSlot.instr, decodeClass23]
theorem stwait1 (d : Reg) (a : Reg) (b : Reg) : Statement (.stwait1 d a b) := by
  intro g hg hw _ _
  refine ⟨_, rfl, decode_of hg ?_⟩
  simp [RawSlot.instr, decodeClass23]
theorem stwait2 (d : Reg) (a : Reg) (b : Reg) : Statement (.stwait2 d a b) := by
  intro g hg hw _ _
  refine ⟨_, rfl, decode_of hg ?_⟩
  simp [RawSlot.instr, decodeClass23]
theorem lkreq (m : LockMode) (a : Reg) : Statement (.lkreq m a) := by
  intro g hg hw _ _
  refine ⟨_, rfl, decode_of hg ?_⟩
  have h1 : (BitVec.ofNat 7 (0x00 + m.code)).toNat / 8 = 0 := by
    have := LockMode.code_lt m
    simp only [BitVec.toNat_ofNat]; omega
  have h2 : (BitVec.ofNat 7 (0x00 + m.code)).toNat % 8 = m.code := by
    have := LockMode.code_lt m
    simp only [BitVec.toNat_ofNat]; omega
  generalize BitVec.ofNat 7 (0x00 + m.code) = op at *
  simp [RawSlot.instr, decodeClass24, h1, h2]
theorem lktry (m : LockMode) (d : Reg) (a : Reg) : Statement (.lktry m d a) := by
  intro g hg hw _ _
  refine ⟨_, rfl, decode_of hg ?_⟩
  have h1 : (BitVec.ofNat 7 (0x08 + m.code)).toNat / 8 = 1 := by
    have := LockMode.code_lt m
    simp only [BitVec.toNat_ofNat]; omega
  have h2 : (BitVec.ofNat 7 (0x08 + m.code)).toNat % 8 = m.code := by
    have := LockMode.code_lt m
    simp only [BitVec.toNat_ofNat]; omega
  generalize BitVec.ofNat 7 (0x08 + m.code) = op at *
  simp [RawSlot.instr, decodeClass24, h1, h2]
theorem lkrel (a : Reg) : Statement (.lkrel a) := by
  intro g hg hw _ _
  refine ⟨_, rfl, decode_of hg ?_⟩
  simp [RawSlot.instr, decodeClass24]
theorem cpin (n : KReg) (a : Reg) (b : Reg) : Statement (.cpin n a b) := by
  intro g hg hw _ _
  refine ⟨_, rfl, decode_of hg ?_⟩
  simp [RawSlot.instr, decodeClass25]
theorem cevf (n : KReg) (a : Reg) (b : Reg) : Statement (.cevf n a b) := by
  intro g hg hw _ _
  refine ⟨_, rfl, decode_of hg ?_⟩
  simp [RawSlot.instr, decodeClass25]
theorem cunpin (n : KReg) : Statement (.cunpin n) := by
  intro g hg hw _ _
  refine ⟨_, rfl, decode_of hg ?_⟩
  simp [RawSlot.instr, decodeClass25]
theorem cflush (a : Reg) (b : Reg) : Statement (.cflush a b) := by
  intro g hg hw _ _
  refine ⟨_, rfl, decode_of hg ?_⟩
  simp [RawSlot.instr, decodeClass25]
theorem cinv (a : Reg) (b : Reg) : Statement (.cinv a b) := by
  intro g hg hw _ _
  refine ⟨_, rfl, decode_of hg ?_⟩
  simp [RawSlot.instr, decodeClass25]
theorem pref (a : Reg) (i : Imm 5) : Statement (.pref a i) := by
  intro g hg hw _ _
  refine ⟨_, rfl, decode_of hg ?_⟩
  simp [Instr.wf, Imm.wf] at hw
  simp [hw, RawSlot.instr, decodeClass25]
theorem mma (d : ZReg) (a : Reg) (b : Reg) : Statement (.mma d a b) := by
  intro g hg hw _ _
  refine ⟨_, rfl, decode_of hg ?_⟩
  simp [RawSlot.instr, decodeClass26]
theorem mmag (d : ZReg) (a : Reg) (b : Reg) : Statement (.mmag d a b) := by
  intro g hg hw _ _
  refine ⟨_, rfl, decode_of hg ?_⟩
  simp [RawSlot.instr, decodeClass26]
theorem mmab (d : ZReg) (a : Reg) (b : Reg) : Statement (.mmab d a b) := by
  intro g hg hw _ _
  refine ⟨_, rfl, decode_of hg ?_⟩
  simp [RawSlot.instr, decodeClass26]
theorem zclr (d : ZReg) : Statement (.zclr d) := by
  intro g hg hw _ _
  refine ⟨_, rfl, decode_of hg ?_⟩
  simp [RawSlot.instr, decodeClass27]
theorem zld (d : ZReg) (a : Reg) : Statement (.zld d a) := by
  intro g hg hw _ _
  refine ⟨_, rfl, decode_of hg ?_⟩
  simp [RawSlot.instr, decodeClass27]
theorem zst (d : ZReg) (a : Reg) : Statement (.zst d a) := by
  intro g hg hw _ _
  refine ⟨_, rfl, decode_of hg ?_⟩
  simp [RawSlot.instr, decodeClass27]
theorem zrd (d : Reg) (a : ZReg) (b : Reg) : Statement (.zrd d a b) := by
  intro g hg hw _ _
  refine ⟨_, rfl, decode_of hg ?_⟩
  simp [RawSlot.instr, decodeClass27]
theorem zget (d : ZReg) : Statement (.zget d) := by
  intro g hg hw _ _
  refine ⟨_, rfl, decode_of hg ?_⟩
  simp [RawSlot.instr, decodeClass27]
theorem zput (d : ZReg) : Statement (.zput d) := by
  intro g hg hw _ _
  refine ⟨_, rfl, decode_of hg ?_⟩
  simp [RawSlot.instr, decodeClass27]
theorem scld (a : Reg) : Statement (.scld a) := by
  intro g hg hw _ _
  refine ⟨_, rfl, decode_of hg ?_⟩
  simp [RawSlot.instr, decodeClass27]
theorem tgemm (a : Reg) : Statement (.tgemm a) := by
  intro g hg hw _ _
  refine ⟨_, rfl, decode_of hg ?_⟩
  simp [RawSlot.instr, decodeClass27]
theorem cpy (a : Reg) (b : Reg) : Statement (.cpy a b) := by
  intro g hg hw _ _
  exact ⟨_, rfl, decode_of hg rfl⟩
theorem cpym (a : Reg) (b : Reg) : Statement (.cpym a b) := by
  intro g hg hw _ _
  exact ⟨_, rfl, decode_of hg rfl⟩
theorem irr (a : Reg) (b : Reg) : Statement (.irr a b) := by
  intro g hg hw _ _
  exact ⟨_, rfl, decode_of hg rfl⟩
theorem embg (a : Reg) (b : Reg) : Statement (.embg a b) := by
  intro g hg hw _ _
  exact ⟨_, rfl, decode_of hg rfl⟩
theorem embu (a : Reg) (b : Reg) : Statement (.embu a b) := by
  intro g hg hw _ _
  exact ⟨_, rfl, decode_of hg rfl⟩
theorem a2a (a : Reg) (b : Reg) : Statement (.a2a a b) := by
  intro g hg hw _ _
  exact ⟨_, rfl, decode_of hg rfl⟩
theorem coll (a : Reg) (b : Reg) : Statement (.coll a b) := by
  intro g hg hw _ _
  exact ⟨_, rfl, decode_of hg rfl⟩
theorem hcfg (a : Reg) (b : Reg) : Statement (.hcfg a b) := by
  intro g hg hw _ _
  exact ⟨_, rfl, decode_of hg rfl⟩
theorem hkst (a : Reg) (b : Reg) : Statement (.hkst a b) := by
  intro g hg hw _ _
  exact ⟨_, rfl, decode_of hg rfl⟩
theorem hgth (a : Reg) (b : Reg) : Statement (.hgth a b) := by
  intro g hg hw _ _
  exact ⟨_, rfl, decode_of hg rfl⟩
theorem ttload (a : Reg) (b : Reg) : Statement (.ttload a b) := by
  intro g hg hw _ _
  exact ⟨_, rfl, decode_of hg rfl⟩
theorem nop : Statement (.nop) := by
  intro g _ _ _ h
  cases h rfl
  exact ⟨_, rfl, rfl⟩
theorem ret : Statement (.ret) := by
  intro g hg hw _ _
  exact ⟨_, rfl, decode_of hg rfl⟩
theorem mark : Statement (.mark) := by
  intro g hg hw _ _
  exact ⟨_, rfl, decode_of hg rfl⟩
theorem yield : Statement (.yield) := by
  intro g hg hw _ _
  exact ⟨_, rfl, decode_of hg rfl⟩
theorem endTask : Statement (.endTask) := by
  intro g hg hw _ _
  exact ⟨_, rfl, decode_of hg rfl⟩
theorem trapret : Statement (.trapret) := by
  intro g hg hw _ _
  exact ⟨_, rfl, decode_of hg rfl⟩
theorem traprst : Statement (.traprst) := by
  intro g hg hw _ _
  exact ⟨_, rfl, decode_of hg rfl⟩
theorem commit : Statement (.commit) := by
  intro g hg hw _ _
  exact ⟨_, rfl, decode_of hg rfl⟩
theorem clrfel : Statement (.clrfel) := by
  intro g hg hw _ _
  exact ⟨_, rfl, decode_of hg rfl⟩
theorem tandem : Statement (.tandem) := by
  intro g hg hw _ _
  exact ⟨_, rfl, decode_of hg rfl⟩
theorem decouple : Statement (.decouple) := by
  intro g hg hw _ _
  exact ⟨_, rfl, decode_of hg rfl⟩
theorem rejoin : Statement (.rejoin) := by
  intro g hg hw _ _
  exact ⟨_, rfl, decode_of hg rfl⟩
theorem registerWrite : Statement .registerWrite := fun _ _ _ h _ => nomatch h
theorem packageRequest : Statement .packageRequest := fun _ _ _ h _ => nomatch h
theorem requestRetry : Statement .requestRetry := fun _ _ _ h _ => nomatch h
theorem trackerEntryFree : Statement .trackerEntryFree := fun _ _ _ h _ => nomatch h
theorem ticketNoticeResend : Statement .ticketNoticeResend := fun _ _ _ h _ => nomatch h
theorem ticketClaim : Statement .ticketClaim := fun _ _ _ h _ => nomatch h
theorem sourcePortReset : Statement .sourcePortReset := fun _ _ _ h _ => nomatch h
theorem proctorBoot : Statement .proctorBoot := fun _ _ _ h _ => nomatch h
theorem welomLinkTrained : Statement .welomLinkTrained := fun _ _ _ h _ => nomatch h
theorem manifestVerify : Statement .manifestVerify := fun _ _ _ h _ => nomatch h
theorem dieMeasureRelease : Statement .dieMeasureRelease := fun _ _ _ h _ => nomatch h
theorem deviceReady : Statement .deviceReady := fun _ _ _ h _ => nomatch h
theorem powerUp : Statement .powerUp := fun _ _ _ h _ => nomatch h
theorem mrstnAssert : Statement .mrstnAssert := fun _ _ _ h _ => nomatch h
theorem modrstGo : Statement .modrstGo := fun _ _ _ h _ => nomatch h
theorem getVersion : Statement .getVersion := fun _ _ _ h _ => nomatch h
theorem getCapabilities : Statement .getCapabilities := fun _ _ _ h _ => nomatch h
theorem negotiateAlgorithms : Statement .negotiateAlgorithms := fun _ _ _ h _ => nomatch h
theorem getDigests : Statement .getDigests := fun _ _ _ h _ => nomatch h
theorem getCertificate : Statement .getCertificate := fun _ _ _ h _ => nomatch h
theorem challenge : Statement .challenge := fun _ _ _ h _ => nomatch h
theorem getMeasurements : Statement .getMeasurements := fun _ _ _ h _ => nomatch h
theorem keyExchange : Statement .keyExchange := fun _ _ _ h _ => nomatch h
theorem finish : Statement .finish := fun _ _ _ h _ => nomatch h
theorem heartbeat : Statement .heartbeat := fun _ _ _ h _ => nomatch h
theorem keyUpdate : Statement .keyUpdate := fun _ _ _ h _ => nomatch h
theorem endSession : Statement .endSession := fun _ _ _ h _ => nomatch h
theorem chunkSend : Statement .chunkSend := fun _ _ _ h _ => nomatch h
theorem chunkGet : Statement .chunkGet := fun _ _ _ h _ => nomatch h
theorem alarmRaise : Statement .alarmRaise := fun _ _ _ h _ => nomatch h
theorem spdmUnsupportedRequest : Statement .spdmUnsupportedRequest := fun _ _ _ h _ => nomatch h
theorem keyLoadConfirm : Statement .keyLoadConfirm := fun _ _ _ h _ => nomatch h
theorem keyLoadTimeout : Statement .keyLoadTimeout := fun _ _ _ h _ => nomatch h
theorem keyZeroiseConfirm : Statement .keyZeroiseConfirm := fun _ _ _ h _ => nomatch h
theorem sensorExcursionStart : Statement .sensorExcursionStart := fun _ _ _ h _ => nomatch h
theorem sensorExcursionPersist : Statement .sensorExcursionPersist := fun _ _ _ h _ => nomatch h
theorem sensorExcursionClear : Statement .sensorExcursionClear := fun _ _ _ h _ => nomatch h
theorem tamperMeshOpen : Statement .tamperMeshOpen := fun _ _ _ h _ => nomatch h
theorem debugPortOpen : Statement .debugPortOpen := fun _ _ _ h _ => nomatch h
theorem dieQuiet : Statement .dieQuiet := fun _ _ _ h _ => nomatch h
theorem dieWakeStart : Statement .dieWakeStart := fun _ _ _ h _ => nomatch h
theorem clusterWake : Statement .clusterWake := fun _ _ _ h _ => nomatch h
theorem powerWindowEnd : Statement .powerWindowEnd := fun _ _ _ h _ => nomatch h
theorem thermalFloorEnter : Statement .thermalFloorEnter := fun _ _ _ h _ => nomatch h
theorem thermalFloorExit : Statement .thermalFloorExit := fun _ _ _ h _ => nomatch h
theorem clockChangePauseEnd : Statement .clockChangePauseEnd := fun _ _ _ h _ => nomatch h
theorem pwrctlWrite : Statement .pwrctlWrite := fun _ _ _ h _ => nomatch h
theorem flitReceive : Statement .flitReceive := fun _ _ _ h _ => nomatch h
theorem linkPacketReceive : Statement .linkPacketReceive := fun _ _ _ h _ => nomatch h
theorem nack : Statement .nack := fun _ _ _ h _ => nomatch h
theorem replayTimeout : Statement .replayTimeout := fun _ _ _ h _ => nomatch h
theorem laneLossOfLock : Statement .laneLossOfLock := fun _ _ _ h _ => nomatch h
theorem laneRetire : Statement .laneRetire := fun _ _ _ h _ => nomatch h
theorem laneSymbolRateExpiry : Statement .laneSymbolRateExpiry := fun _ _ _ h _ => nomatch h
theorem retrain : Statement .retrain := fun _ _ _ h _ => nomatch h
theorem retrainAnswerTimeout : Statement .retrainAnswerTimeout := fun _ _ _ h _ => nomatch h
theorem equalisationDone : Statement .equalisationDone := fun _ _ _ h _ => nomatch h
theorem resume : Statement .resume := fun _ _ _ h _ => nomatch h
theorem linkTrained : Statement .linkTrained := fun _ _ _ h _ => nomatch h
theorem resyncSend : Statement .resyncSend := fun _ _ _ h _ => nomatch h
theorem resync : Statement .resync := fun _ _ _ h _ => nomatch h
theorem fabidWrite : Statement .fabidWrite := fun _ _ _ h _ => nomatch h
theorem routeWrite : Statement .routeWrite := fun _ _ _ h _ => nomatch h
theorem fctxmapWrite : Statement .fctxmapWrite := fun _ _ _ h _ => nomatch h
theorem fwdCacheFlush : Statement .fwdCacheFlush := fun _ _ _ h _ => nomatch h
theorem fwdCacheFlushDone : Statement .fwdCacheFlushDone := fun _ _ _ h _ => nomatch h
theorem remtoExpiry : Statement .remtoExpiry := fun _ _ _ h _ => nomatch h
theorem readRequest : Statement .readRequest := fun _ _ _ h _ => nomatch h
theorem readReply : Statement .readReply := fun _ _ _ h _ => nomatch h
theorem writePacket : Statement .writePacket := fun _ _ _ h _ => nomatch h
theorem writeAcknowledgement : Statement .writeAcknowledgement := fun _ _ _ h _ => nomatch h
theorem atomicRequest : Statement .atomicRequest := fun _ _ _ h _ => nomatch h
theorem atomicReply : Statement .atomicReply := fun _ _ _ h _ => nomatch h
theorem forwardingReply : Statement .forwardingReply := fun _ _ _ h _ => nomatch h
theorem statusReply : Statement .statusReply := fun _ _ _ h _ => nomatch h
theorem slipQuery : Statement .slipQuery := fun _ _ _ h _ => nomatch h
theorem slipAnswer : Statement .slipAnswer := fun _ _ _ h _ => nomatch h
theorem landedNotice : Statement .landedNotice := fun _ _ _ h _ => nomatch h
theorem collectiveData : Statement .collectiveData := fun _ _ _ h _ => nomatch h
theorem collectiveAbortFrame : Statement .collectiveAbortFrame := fun _ _ _ h _ => nomatch h
theorem circuitData : Statement .circuitData := fun _ _ _ h _ => nomatch h
theorem timetableBankWrite : Statement .timetableBankWrite := fun _ _ _ h _ => nomatch h
theorem timetableBankSwitch : Statement .timetableBankSwitch := fun _ _ _ h _ => nomatch h
theorem slipEntryFree : Statement .slipEntryFree := fun _ _ _ h _ => nomatch h
theorem holdLimitExpiry : Statement .holdLimitExpiry := fun _ _ _ h _ => nomatch h
theorem holdFullRetry : Statement .holdFullRetry := fun _ _ _ h _ => nomatch h
theorem collectiveLimitTimeout : Statement .collectiveLimitTimeout := fun _ _ _ h _ => nomatch h
theorem cxlEnumeration : Statement .cxlEnumeration := fun _ _ _ h _ => nomatch h
theorem girthCheck : Statement .girthCheck := fun _ _ _ h _ => nomatch h
theorem adapterUnsupportedAccess : Statement .adapterUnsupportedAccess := fun _ _ _ h _ => nomatch h
theorem apertureRead : Statement .apertureRead := fun _ _ _ h _ => nomatch h
theorem apertureWrite : Statement .apertureWrite := fun _ _ _ h _ => nomatch h
theorem apertureAtomic : Statement .apertureAtomic := fun _ _ _ h _ => nomatch h
theorem mailboxGo : Statement .mailboxGo := fun _ _ _ h _ => nomatch h
theorem contextCreate : Statement .contextCreate := fun _ _ _ h _ => nomatch h
theorem contextDestroy : Statement .contextDestroy := fun _ _ _ h _ => nomatch h
theorem queueEnable : Statement .queueEnable := fun _ _ _ h _ => nomatch h
theorem jobCardLaunch : Statement .jobCardLaunch := fun _ _ _ h _ => nomatch h
theorem jobCardDrive : Statement .jobCardDrive := fun _ _ _ h _ => nomatch h
theorem jobCardNull : Statement .jobCardNull := fun _ _ _ h _ => nomatch h
theorem jobCardInvalid : Statement .jobCardInvalid := fun _ _ _ h _ => nomatch h
theorem cardComplete : Statement .cardComplete := fun _ _ _ h _ => nomatch h
theorem dbindWrite : Statement .dbindWrite := fun _ _ _ h _ => nomatch h
theorem driveProgramStart : Statement .driveProgramStart := fun _ _ _ h _ => nomatch h
theorem drivePeriod : Statement .drivePeriod := fun _ _ _ h _ => nomatch h
theorem driveCommandArrive : Statement .driveCommandArrive := fun _ _ _ h _ => nomatch h
theorem lnch : Statement .lnch := fun _ _ _ h _ => nomatch h
theorem priorityRecompute : Statement .priorityRecompute := fun _ _ _ h _ => nomatch h
theorem launchRelease : Statement .launchRelease := fun _ _ _ h _ => nomatch h
theorem taskCreate : Statement .taskCreate := fun _ _ _ h _ => nomatch h
theorem taskBind : Statement .taskBind := fun _ _ _ h _ => nomatch h
theorem bindComplete : Statement .bindComplete := fun _ _ _ h _ => nomatch h
theorem ageLimit : Statement .ageLimit := fun _ _ _ h _ => nomatch h
theorem stallEntryComplete : Statement .stallEntryComplete := fun _ _ _ h _ => nomatch h
theorem waitEviction : Statement .waitEviction := fun _ _ _ h _ => nomatch h
theorem markGap : Statement .markGap := fun _ _ _ h _ => nomatch h
theorem preemptHoldWrite : Statement .preemptHoldWrite := fun _ _ _ h _ => nomatch h
theorem bindWaitPreempt : Statement .bindWaitPreempt := fun _ _ _ h _ => nomatch h
theorem forcedSave : Statement .forcedSave := fun _ _ _ h _ => nomatch h
theorem frameSaveComplete : Statement .frameSaveComplete := fun _ _ _ h _ => nomatch h
theorem frameAreaWrite : Statement .frameAreaWrite := fun _ _ _ h _ => nomatch h
theorem tandemGroupForm : Statement .tandemGroupForm := fun _ _ _ h _ => nomatch h
theorem issueBundle : Statement .issueBundle := fun _ _ _ h _ => nomatch h
theorem deferredFaultArrive : Statement .deferredFaultArrive := fun _ _ _ h _ => nomatch h
theorem loadDataArrive : Statement .loadDataArrive := fun _ _ _ h _ => nomatch h
theorem mmaComplete : Statement .mmaComplete := fun _ _ _ h _ => nomatch h
theorem spcfgWrite : Statement .spcfgWrite := fun _ _ _ h _ => nomatch h
theorem pageWalkComplete : Statement .pageWalkComplete := fun _ _ _ h _ => nomatch h
theorem pageResolve : Statement .pageResolve := fun _ _ _ h _ => nomatch h
theorem tlbinvWrite : Statement .tlbinvWrite := fun _ _ _ h _ => nomatch h
theorem tlbInvalidateComplete : Statement .tlbInvalidateComplete := fun _ _ _ h _ => nomatch h
theorem hotbaseWrite : Statement .hotbaseWrite := fun _ _ _ h _ => nomatch h
theorem wound : Statement .wound := fun _ _ _ h _ => nomatch h
theorem invigilatorCheck : Statement .invigilatorCheck := fun _ _ _ h _ => nomatch h
theorem ivbWrite : Statement .ivbWrite := fun _ _ _ h _ => nomatch h
theorem releaseSettled : Statement .releaseSettled := fun _ _ _ h _ => nomatch h
theorem stampedMessageApply : Statement .stampedMessageApply := fun _ _ _ h _ => nomatch h
theorem prefectLockRequest : Statement .prefectLockRequest := fun _ _ _ h _ => nomatch h
theorem prefectLockTry : Statement .prefectLockTry := fun _ _ _ h _ => nomatch h
theorem prefectLockRelease : Statement .prefectLockRelease := fun _ _ _ h _ => nomatch h
theorem lockGrant : Statement .lockGrant := fun _ _ _ h _ => nomatch h
theorem lockRefusalRetry : Statement .lockRefusalRetry := fun _ _ _ h _ => nomatch h
theorem lkcompatWrite : Statement .lkcompatWrite := fun _ _ _ h _ => nomatch h
theorem hotRowGroupEnable : Statement .hotRowGroupEnable := fun _ _ _ h _ => nomatch h
theorem hotRowGroupFlush : Statement .hotRowGroupFlush := fun _ _ _ h _ => nomatch h
theorem hotRowGroupReady : Statement .hotRowGroupReady := fun _ _ _ h _ => nomatch h
theorem hotRowFillComplete : Statement .hotRowFillComplete := fun _ _ _ h _ => nomatch h
theorem engineComplete : Statement .engineComplete := fun _ _ _ h _ => nomatch h
theorem streamOperationEnd : Statement .streamOperationEnd := fun _ _ _ h _ => nomatch h
theorem tgemmStepComplete : Statement .tgemmStepComplete := fun _ _ _ h _ => nomatch h
theorem fullEmptyRetry : Statement .fullEmptyRetry := fun _ _ _ h _ => nomatch h
theorem cacheMaintenanceComplete : Statement .cacheMaintenanceComplete := fun _ _ _ h _ => nomatch h
theorem tileLoadComplete : Statement .tileLoadComplete := fun _ _ _ h _ => nomatch h
theorem storePerformed : Statement .storePerformed := fun _ _ _ h _ => nomatch h
theorem ultraEthernetPacket : Statement .ultraEthernetPacket := fun _ _ _ h _ => nomatch h
theorem ultraEthernetPortState : Statement .ultraEthernetPortState := fun _ _ _ h _ => nomatch h
theorem adapterEndpointReset : Statement .adapterEndpointReset := fun _ _ _ h _ => nomatch h

end Sys2Proof.Laws.RoundTrip
end

