-- ==== Sys2Proof/Laws/Reads.lean ====
section
/-! SUPPORT. What a task's reads give where the bytes are plain: no store, version, poison or other key meets them. -/

namespace Sys2Proof.Machine

open Sys2Proof

/-- Bytes that do not cross a line lie in one. -/
theorem linesOf_one {pa n : Nat} (hn : 0 < n) (h : pa % 64 + n ≤ 64) : linesOf pa n = [pa / 64] := by
  have e : (pa + n - 1) / 64 - pa / 64 + 1 = 1 := by omega
  simp [linesOf, Nat.ne_of_gt hn, e]

/-- No store, no overlay. -/
theorem overlayStores_nil {l : List PendStore} (pa : Nat) (bs : List Byte) (h : l = []) : overlayStores l pa bs = bs := by
  subst h; simp only [overlayStores, List.foldl_nil]
  exact List.zipIdx_map_fst 0 bs
/-- The same for the scratchpad. -/
theorem overlaySram_nil {l : List PendStore} (c o : Nat) (bs : List Byte) (h : l = []) : overlaySram l c o bs = bs := by
  subst h; simp only [overlaySram, List.foldl_nil]
  exact List.zipIdx_map_fst 0 bs

/-- A task that has issued no store, and has none in the hold queue, has none still to be performed. -/
theorem ownStores_nil {s : State} {tid : Word} (h : ∀ p ∈ s.mem.stores, p.tid ≠ tid)
    (k : ∀ r ∈ s.fabric.remotes, r.use.tid? ≠ some tid) : s.ownStores tid = [] := by
  have h1 : s.slipStores tid = [] := by
    simp only [State.slipStores, List.filterMap_eq_nil_iff]
    intro r hr
    have := k r hr
    split
    · rename_i t place he
      have ht : t ≠ tid := by simpa [he, RemoteUse.tid?] using this
      simp [ht]
    · rfl
  have h2 : s.mem.stores.filter (·.tid == tid) = [] := by simpa [List.filter_eq_nil_iff] using h
  simp [State.ownStores, h1, h2]

/-- The bytes of a poisoned line are taken from its beat only where a poisoned line meets the read. -/
theorem poisonTaken_none {s : State} {t : Task} {core pa n : Nat} {place : Place} (h : s.poisonedLine pa n = none) :
    s.poisonTaken t core pa n place = none := by
  simp only [State.poisonedLine, List.find?_eq_none] at h
  simp only [State.poisonTaken, List.find?_eq_none, Bool.and_eq_true, not_and]
  intro l hl hp
  exact absurd hp (h l hl)

/-- A task without version lines has no version of a byte. -/
theorem versionByte_none {s : State} {tid : Word} (h : ∀ v ∈ s.mem.versions, v.tid ≠ tid) (pa : Nat) :
    s.versionByte tid pa = none := by
  have : s.vline? tid (pa / 64) = none := by
    simp only [State.vline?, List.find?_eq_none, Bool.and_eq_true, beq_iff_eq, not_and]
    intro v hv h'
    exact absurd h' (h v hv)
  simp [State.versionByte, this]

/-- Nothing queued, nothing laid over. -/
theorem overBytes_none (bs : List Byte) (own : List (Option Byte)) (h : ∀ i, own.getD i none = none) :
    overBytes bs own = bs := by
  simp only [overBytes, h, Option.getD_none]
  exact List.zipIdx_map_fst 0 bs

/-- An empty commit queue lays nothing over. -/
theorem commitOver_nil (va n : Nat) (i : Nat) : (commitOver [] va n).getD i none = none := by
  simp only [commitOver, List.foldl_nil, List.getD_eq_getElem?_getD, List.getElem?_map]
  cases (List.range n)[i]? <;> rfl

/-- Physical memory whose lines are readable under the key reads its bytes and changes nothing. -/
theorem physRead_plain {s : State} {slot pa n : Nat} (h : ∀ l ∈ linesOf pa n, s.lineReadable slot l = true) :
    s.physRead slot pa n = (cellsRead s.mem.bytes pa n, s) := by
  have h2 : (linesOf pa n).all (s.lineReadable slot) = true := by simpa using h
  have h3 : (List.range n).map (fun i => s.physByte slot (pa + i) i) = cellsRead s.mem.bytes pa n := by
    apply List.map_congr_left
    intro i hi
    have hi := List.mem_range.1 hi
    have : s.lineReadable slot ((pa + i) / 64) = true := by
      apply h
      have : ¬ n = 0 := by omega
      simp only [linesOf, this, if_false, List.mem_map, List.mem_range]
      exact ⟨(pa + i) / 64 - pa / 64, by omega, by omega⟩
    simp [State.physByte, this]
  simp [State.physRead, h2, h3]

/-- Bytes of a line, taken out of the line. -/
theorem drop_take_cells (m : List Host.Cell) (pa n : Nat) (h : pa % 64 + n ≤ 64) :
    ((cellsRead m (pa / 64 * 64) 64).drop (pa % 64)).take n = cellsRead m pa n := by
  apply List.ext_getElem
  · simp [cellsRead]; omega
  · intro i h1 h2
    simp [cellsRead]
    congr 1; omega

/-- Without version lines the bytes stand. -/
theorem zipVersion (s : State) (tid : Word) (pa : Nat) (bs : List Byte) (h : ∀ v ∈ s.mem.versions, v.tid ≠ tid) :
   (bs.zipIdx.map fun (b, i) => (s.versionByte tid (pa + i)).getD b) = bs := by
  simp only [versionByte_none h, Option.getD_none]
  exact List.zipIdx_map_fst 0 bs

/-- A read of plain bytes gives them, with no poison, and changes the caches at most. -/
theorem readLocal_plain {s : State} {t : Task} {core va n : Nat} {loc : Loc} (hn : 0 < n)
    (h : s.Plain t n loc) (hc : s.Uncached core loc) :
    ∃ cs, s.readLocal t core va n loc = (s.bytesAt loc n, none, { s with cores := cs }) := by
  obtain ⟨h1, h2, h3, h4⟩ := h
  cases loc with
  | peer => exact absurd h4 (by simp)
  | sram c o =>
    refine ⟨s.cores, ?_⟩
    simp [State.readLocal, overlaySram_nil _ _ _ h1, State.sramRead, State.bytesAt]
  | phys pa place evf =>
    obtain ⟨h5, h6, h7⟩ := h4
    have hu := hc pa place evf rfl t.ctx
    have hr : ∃ cs, s.readThroughL1 t.ctx core pa n place = (cellsRead s.mem.bytes pa n, { s with cores := cs }) := by
      unfold State.readThroughL1
      rw [hu, ite_self]
      dsimp only
      split
      · rw [physRead_plain (by rw [linesOf_one (by omega) (by omega)]; simpa using h7)]
        dsimp only
        rw [drop_take_cells _ _ _ h5]
        exact ⟨_, rfl⟩
      · rw [physRead_plain (by rw [linesOf_one hn h5]; simpa using h7)]
        exact ⟨s.cores, rfl⟩
    obtain ⟨cs, hr⟩ := hr
    refine ⟨cs, ?_⟩
    unfold State.readLocal
    simp only [poisonTaken_none h6, hr, h3, overlayStores_nil _ _ h1]
    rw [zipVersion _ _ _ _ h2, overBytes_none _ _ (commitOver_nil _ _)]
    rfl

/-- An acquire changes the L1 and the clocks of tasks at most. -/
theorem acquireOpt_shape (s : State) (tid : Word) (core : Nat) (acq : Option Scope) :
    ∃ cs f, s.acquireOpt tid core acq = { s with cores := cs, tasks := s.tasks.map f } ∧
      (∀ t, (f t).tid = t.tid ∧ (f t).r = t.r ∧ (f t).trap = t.trap) ∧
      (∀ c, (s.acquireOpt tid core acq).core c = s.core c ∨ (s.acquireOpt tid core acq).core c = { s.core c with l1 := [] }) := by
  have hid : s.tasks.map id = s.tasks := List.map_id _
  have core_drop (c : Nat) : (s.dropL1 core).core c = s.core c ∨ (s.dropL1 core).core c = { s.core c with l1 := [] } := by
    unfold State.dropL1
    by_cases h : c = core
    · subst h; rw [State.core_modCore_same]; exact .inr rfl
    · rw [State.core_modCore_other _ _ h]; exact .inl rfl
  have same : ∃ cs f, s = { s with cores := cs, tasks := s.tasks.map f } ∧
      (∀ t, (f t).tid = t.tid ∧ (f t).r = t.r ∧ (f t).trap = t.trap) ∧ (∀ c, s.core c = s.core c ∨ s.core c = { s.core c with l1 := [] }) :=
    ⟨s.cores, id, by rw [hid], fun _ => ⟨rfl, rfl, rfl⟩, fun _ => .inl rfl⟩
  have drop : ∃ cs f, s.dropL1 core = { s with cores := cs, tasks := s.tasks.map f } ∧
      (∀ t, (f t).tid = t.tid ∧ (f t).r = t.r ∧ (f t).trap = t.trap) ∧
      (∀ c, (s.dropL1 core).core c = s.core c ∨ (s.dropL1 core).core c = { s.core c with l1 := [] }) :=
    ⟨_, id, by rw [hid]; rfl, fun _ => ⟨rfl, rfl, rfl⟩, core_drop⟩
  let w (cl : List Nat) : State := (s.dropL1 core).modTask tid fun t => { t with clock := joinClock t.clock cl }
  have wide (cl : List Nat) : ∃ cs f, w cl = { s with cores := cs, tasks := s.tasks.map f } ∧
      (∀ t, (f t).tid = t.tid ∧ (f t).r = t.r ∧ (f t).trap = t.trap) ∧
      (∀ c, (w cl).core c = s.core c ∨ (w cl).core c = { s.core c with l1 := [] }) :=
    ⟨_, _, rfl, fun t => by dsimp only; split <;> exact ⟨rfl, rfl, rfl⟩, core_drop⟩
  unfold State.acquireOpt
  cases acq with
  | none => exact same
  | some sc =>
    unfold State.acquireBy
    cases sc with
    | seq => exact same
    | core => exact same
    | cluster => exact drop
    | die => exact drop
    | pkg => exact wide _
    | fabric => exact wide _

/-- A load of a known value enters one interlocked result. -/
theorem putLoad_interlocked (s : State) (t : Task) (reg : RegId) (m : Word) (v : RegVal) :
    Interlocked s (s.putLoad t reg m v none) [(reg, m, v)] := by
  refine ⟨[{ id := s.nextId, reg := reg, mask := m, val := v, ord := 0, load := true, buf := t.r.buf }],
    ⟨[], by cases h : s.cur <;> simp [State.putLoad, State.putKnown, State.putInfl, State.fresh, h]⟩, rfl, ?_⟩
  intro e he
  simp only [List.mem_singleton] at he
  subst he
  exact ⟨rfl, rfl, rfl, _, mem_insertDue.2 (.inl rfl)⟩

/-- So does an atomic's, a lock's or a roll's. -/
theorem putResult_interlocked (s : State) (reg : RegId) (m : Word) (v : RegVal) :
    Interlocked s (s.putResult reg m v) [(reg, m, v)] := by
  refine ⟨[{ id := s.nextId, reg := reg, mask := m, val := v, ord := 0 }],
    ⟨[], by cases h : s.cur <;> simp [State.putResult, State.putKnown, State.putInfl, State.fresh, h]⟩, rfl, ?_⟩
  intro e he
  simp only [List.mem_singleton] at he
  subst he
  exact ⟨rfl, rfl, rfl, _, mem_insertDue.2 (.inl rfl)⟩

/-- A whole line of plain bytes that L1 does not hold is taken from its beat: a poisoned one is consumed. -/
theorem poisonTaken_line {s : State} {t : Task} {core g : Nat} {place : Place} (h1 : s.ownStores t.tid = [])
    (h2 : ∀ v ∈ s.mem.versions, v.tid ≠ t.tid) (hl : s.l1Line t.ctx core g = none) :
    s.poisonTaken t core (g * 64) 64 place = s.poisonedLine (g * 64) 64 := by
  have ht : s.takesBeat t core (g * 64) 64 place g = true := by
    have hv : ¬ ∀ i < 64, ((g * 64 + i) / 64 != g || (s.versionByte t.tid (g * 64 + i)).isSome) = true := by
      intro h
      have h0 := h 0 (by omega)
      rw [versionByte_none h2, show (g * 64 + 0) / 64 = g by omega] at h0
      simp at h0
    have hv' : ((List.range 64).all fun i =>
        (g * 64 + i) / 64 != g || (s.versionByte t.tid (g * 64 + i)).isSome) = false := by
      rw [Bool.eq_false_iff]
      intro h
      exact hv fun i hi => List.all_eq_true.1 h i (List.mem_range.2 hi)
    have hw : ((List.range 64).all fun _ => false) = false := by decide
    unfold State.takesBeat
    simp only [h1, hl, hv', Option.isSome_none, Bool.and_false, List.any_nil, hw, Bool.not_false, Bool.and_true]
  simp only [State.poisonTaken, State.poisonedLine]
  rw [linesOf_one (by omega) (by omega), show g * 64 / 64 = g by omega]
  simp [ht]

/-- The line of a matrix operand, where its bytes are plain. -/
theorem readGranule_plain {s : State} {t : Task} {core line g : Nat} (h1 : s.ownStores t.tid = [])
    (h2 : ∀ v ∈ s.mem.versions, v.tid ≠ t.tid) (h3 : t.commitQ = []) (hl : s.l1Line t.ctx core g = none)
    (hr : s.lineReadable (ctxSlot t.ctx) g = true) (hg : g < 2 ^ 46) :
    s.readGranule t core line g = (cellsRead s.mem.bytes (g * 64) 64, s.poisonedLine (g * 64) 64) := by
  have hn : ¬2 ^ 46 ≤ g := by omega
  unfold State.readGranule
  simp only [hn, if_false, hl, h3, overlayStores_nil _ _ h1, poisonTaken_line h1 h2 hl]
  rw [physRead_plain (by rw [linesOf_one (by omega) (by omega)]; simpa using hr), zipVersion _ _ _ _ h2,
    overBytes_none _ _ (commitOver_nil _ _)]

/-- The lines of an operand whose addresses translate to themselves. -/
theorem checkLines_ok (acc : Nat → Chk Loc) (i : Nat) (l : List Nat)
    (h : ∀ p ∈ l, acc p = .ok (.phys p .near false) ∧ p < 2 ^ 51) :
    checkLines acc i l = .ok (l.map fun p => (p, .phys p .near false)) := by
  induction l with
  | nil => rfl
  | cons p ps ih =>
    have hp := h p (by simp)
    have hf : (Loc.phys p .near false).foreign = false := by simp only [Loc.foreign, decide_eq_false_iff_not]; omega
    simp [checkLines, hp.1, Chk.bind, hf, ih fun q hq => h q (by simp [hq])]

end Sys2Proof.Machine
end

