-- ==== Sys2Proof/Laws/Waiting.lean ====
section
/-! SUPPORT. The places of a full/empty waiting list (14 R366): offering, releasing and withdrawing touch neither memory nor
tasks, and the accesses that wait are left as they are but for those withdrawn. -/

namespace Sys2Proof.Machine

open Sys2Proof

/-- Memory and tasks are the same. -/
def SameMemTasks (s u : State) : Prop := u.mem = s.mem ∧ u.tasks = s.tasks

theorem SameMemTasks.trans {s u v : State} (h : SameMemTasks s u) (k : SameMemTasks u v) : SameMemTasks s v :=
  ⟨k.1.trans h.1, k.2.trans h.2⟩

theorem sameMemTasks_foldl {α : Type} (f : State → α → State) (h : ∀ s a, SameMemTasks s (f s a)) (l : List α) (s : State) :
    SameMemTasks s (l.foldl f s) := by
  induction l generalizing s with
  | nil => exact ⟨rfl, rfl⟩
  | cons a l ih => exact (h s a).trans (ih (f s a))

theorem setFe_same (s : State) (core id : Nat) (p : FePhase) : SameMemTasks s (s.setFe core id p) := ⟨rfl, rfl⟩

theorem feOffer_same (s : State) (core n : Nat) : SameMemTasks s (s.feOffer core n) := by
  induction n generalizing s with
  | zero => exact ⟨rfl, rfl⟩
  | succ n ih =>
    unfold State.feOffer
    split
    · exact ⟨rfl, rfl⟩
    · split
      · exact SameMemTasks.trans ⟨rfl, rfl⟩ (ih _)
      · exact ⟨rfl, rfl⟩

theorem feRelease_same (s : State) (core : Nat) : SameMemTasks s (s.feRelease core) := by
  refine sameMemTasks_foldl _ (fun s r => ?_) _ s
  split
  · split <;> exact ⟨rfl, rfl⟩
  · exact ⟨rfl, rfl⟩

theorem feFreed_same (s : State) (core : Nat) : SameMemTasks s (s.feFreed core) := by
  unfold State.feFreed
  split
  · exact ⟨rfl, rfl⟩
  · exact (feOffer_same s core _).trans (feRelease_same _ core)

theorem feDrop_same (s : State) (core : Nat) (p : FeWait → Bool) : SameMemTasks s (s.feDrop core p) :=
  SameMemTasks.trans (u := s.modCore core _) ⟨rfl, rfl⟩ (feFreed_same _ core)

theorem feWithdraw_same (s : State) (p : FeWait → Bool) : SameMemTasks s (s.feWithdraw p) :=
  sameMemTasks_foldl (fun s (x : Nat × CoreSt) => s.feDrop x.1 p) (fun s x => feDrop_same s x.1 p) _ s

end Sys2Proof.Machine
end

