-- ==== Sys2Proof/Tests/Slice0.lean ====
section
/-! SUPPORT. The model's own tests: ill-formed terms that the well-formedness check refuses, words written out from the
encoding tables and what they decode to, single steps on small states, and for every statement a state that meets its
hypotheses. -/
set_option Elab.async false
open Sys2Proof Sys2Proof.Machine
namespace Sys2Proof.Tests

/-! ## Well-formedness: one ill-formed term for each check -/

theorem wf_guard_negated_k0 : Guard.wf ⟨0, true⟩ = false := by decide
theorem wf_three_literals : (Instr.addi 1 2 ⟨0, [0, 0, 0]⟩).wf = false := by decide
theorem wf_branch_two_literals : (Instr.br ⟨0, [0, 0]⟩).wf = false := by decide
theorem wf_loop_entry_6 : (Instr.lcnt 1 6).wf = false := by decide
theorem wf_system_register : (Instr.mfs 1 0x004).wf = false ∧ (Instr.mts 0x076 1).wf = false := by decide
theorem wf_float_type : (Instr.vaddFp .s32 1 2 3).wf = false := by decide
theorem wf_integer_type : (Instr.vaddInt .s64 1 2 3).wf = false := by decide
theorem wf_absolute_unsigned : (Instr.vabsInt .z8 1 2).wf = false := by decide
theorem wf_compare_type : (Instr.vcmpeq .bf16 1 2 3).wf = false := by decide
theorem wf_convert_same : (Instr.cvtVector .f32 .f32 .fmt 1 2).wf = false := by decide
theorem wf_convert_64 : (Instr.cvtVector .s64 .f32 .fmt 1 2).wf = false := by decide
theorem wf_quantise_type : (Instr.vqnt .z64 1 2 3).wf = false := by decide
theorem wf_dequantise_odd : (Instr.vdq .f32 .s8 1 2 3).wf = false := by decide
theorem wf_reduction_type : (Instr.vrsum .e4m3 1 2).wf = false := by decide
theorem wf_stream_output_is_input : (Instr.sint 1 1 2).wf = false := by decide
theorem wf_load_type : (Instr.ld .f32 1 2 ⟨0, []⟩).wf = false := by decide
theorem wf_pair_odd : (Instr.acasw .plain 3 1 2).wf = false ∧ (Instr.aswapw .plain 2 1 3).wf = false := by decide

/-! ## Decoding: words written out from 11 R264 to R281 -/

theorem decode_nop : decodeSlot 0x0000_0000 [] = some (⟨0, false⟩, .nop) := by decide
theorem decode_add : decodeSlot 0x0443_2000 [] = some (⟨0, false⟩, .add 2 3 4) := by decide
theorem decode_ror : decodeSlot 0x07E0_0F89 [] = some (⟨7, true⟩, .ror 31 0 1) := by decide
theorem decode_addi : decodeSlot 0x0863_0800 [] = some (⟨0, false⟩, .addi 3 3 ⟨1, []⟩) := by decide
theorem decode_movi : decodeSlot 0x0920_F820 [0x3ffffff] = some (⟨0, false⟩, .movi 9 ⟨31, [0x3FFFFFF]⟩) := by decide
theorem decode_bfi : decodeSlot 0x0C22_1812 [] = some (⟨0, false⟩, .bfi 1 2 3) := by decide
theorem decode_cmplei : decodeSlot 0x10A6_8013 [] = some (⟨0, false⟩, .cmpleiS64 5 6 ⟨16, []⟩) := by decide
theorem decode_gfromk : decodeSlot 0x1107_0026 [] = some (⟨0, false⟩, .gfromk 8 7) := by decide
theorem decode_cvt_z64 : decodeSlot 0x1422_1003 [] = some (⟨0, false⟩, .cvtZ64F32 1 2 .rtz) := by decide
theorem decode_br : decodeSlot 0x1BFF_E000 [] = some (⟨0, false⟩, .br ⟨0x7FFC, []⟩) := by decide
theorem decode_callr : decodeSlot 0x1815_0003 [] = some (⟨0, false⟩, .callr 21) := by decide
theorem decode_loopi : decodeSlot 0x1C03_4001 [] = some (⟨0, false⟩, .loopi 3 ⟨8, []⟩) := by decide
theorem decode_lcnt : decodeSlot 0x1C80_0008 [] = some (⟨0, false⟩, .lcnt 4 0) := by decide
theorem decode_mfs : decodeSlot 0x2061_4000 [] = some (⟨0, false⟩, .mfs 3 0x028) := by decide
theorem decode_mts : decodeSlot 0x2007_C001 [] = some (⟨0, false⟩, .mts 0x018 7) := by decide
theorem decode_setfmti : decodeSlot 0x2001_1004 [] = some (⟨0, false⟩, .setfmti 0x0022) := by decide
theorem decode_vadd_bf16 : decodeSlot 0x2422_1801 [] = some (⟨0, false⟩, .vaddFp .bf16 1 2 3) := by decide
theorem decode_vfma : decodeSlot 0x28C1_1200 [] = some (⟨2, false⟩, .vfma .f32 6 1 2) := by decide
theorem decode_vabs_s16 : decodeSlot 0x2C85_0078 [] = some (⟨0, false⟩, .vabsInt .s16 4 5) := by decide
theorem decode_vcmplt : decodeSlot 0x3022_182D [] = some (⟨0, false⟩, .vcmplt .z32 1 2 3) := by decide
theorem decode_vinsr : decodeSlot 0x3022_185C [] = some (⟨0, false⟩, .vinsr 1 2 3) := by decide
theorem decode_cvt : decodeSlot 0x3489_000D [] = some (⟨0, false⟩, .cvtVector .bf16 .f32 .rna 4 9) := by decide
theorem decode_vdq : decodeSlot 0x3822_2023 [] = some (⟨0, false⟩, .vdq .bf16 .e4m3 1 2 4) := by decide
theorem decode_vclmullo : decodeSlot 0x38A3_2048 [] = some (⟨0, false⟩, .vclmullo 5 3 4) := by decide
theorem decode_vscsum : decodeSlot 0x3C22_0049 [] = some (⟨0, false⟩, .vscsum .s32 1 2) := by decide
theorem decode_vsigm : decodeSlot 0x4022_0072 [] = some (⟨0, false⟩, .vsigm .f16 1 2) := by decide
theorem decode_smadd : decodeSlot 0x4401_1004 [] = some (⟨0, false⟩, .smadd 0 1 2) := by decide
theorem decode_ldacq : decodeSlot 0x48E4_4049 [] = some (⟨0, false⟩, .ldacq .die .s32 7 4 ⟨8, []⟩) := by decide
theorem decode_st : decodeSlot 0x4CC5_030E [0x2] = some (⟨3, false⟩, .st .z64 6 5 ⟨0, [2]⟩) := by decide
theorem decode_vsts : decodeSlot 0x5022_1871 [] = some (⟨0, false⟩, .vsts 1 2 ⟨3, []⟩) := by decide
theorem decode_take : decodeSlot 0x5514_0701 [] = some (⟨7, false⟩, .take 8 20 ⟨0, []⟩) := by decide
theorem decode_vrdst : decodeSlot 0x5422_1815 [] = some (⟨0, false⟩, .vrdst 1 2 3) := by decide
theorem decode_aadd : decodeSlot 0x58A6_3803 [0x3] = some (⟨0, false⟩, .aadd (.acq .die) .w64 5 6 7) := by decide
theorem decode_fence : decodeSlot 0x5C00_0015 [] = some (⟨0, false⟩, .fence .fabric) := by decide
theorem decode_stwait2 : decodeSlot 0x5C22_1832 [] = some (⟨0, false⟩, .stwait2 1 2 3) := by decide
theorem decode_lktry : decodeSlot 0x6022_000B [] = some (⟨0, false⟩, .lktry .inc 1 2) := by decide
theorem decode_cevf : decodeSlot 0x64A2_1801 [] = some (⟨0, false⟩, .cevf 5 2 3) := by decide
theorem decode_mma : decodeSlot 0x6824_2800 [] = some (⟨0, false⟩, .mma 1 4 5) := by decide
theorem decode_zrd : decodeSlot 0x6D22_1803 [] = some (⟨0, false⟩, .zrd 9 2 3) := by decide
theorem decode_cpy : decodeSlot 0x7006_3801 [] = some (⟨0, false⟩, .cpy 6 7) := by decide
theorem decode_acasw : decodeSlot 0x7443_2004 [0x5] = some (⟨0, false⟩, .acasw (.rel .fabric) 2 3 4) := by decide
theorem decode_vaadd : decodeSlot 0x7443_2828 [] = some (⟨0, false⟩, .vaaddZ32 .plain 2 3 5) := by decide

/-- Reserved codes, reserved fields and missing literals are unassigned (11 R269). -/
theorem decode_refuses : decodeSlot 0x7800_0000 [] = none ∧ decodeSlot 0x0443_2080 [] = none ∧
    decodeSlot 0x0443_200A [0] = none ∧ decodeSlot 0x58A6_3803 [] = none ∧ decodeSlot 0x58A6_3803 [6] = none ∧
    decodeSlot 0x4803_000F [] = none ∧ decodeSlot 0x1003_2008 [] = none ∧ decodeSlot 0x1103_2000 [] = none ∧
    decodeSlot 0x1504_3003 [] = none := by decide
/-- The table's numbering of a row's bits is that of the word. -/
theorem decode_table_word : decodeTableWord 32 0x0443_2000 = some (.add 2 3 4) := by decide
/-- The encoder writes the words of a two-word store with a guard. -/
theorem encode_store : encode ⟨3, false⟩ (.st .z64 6 5 ⟨0, [2]⟩) = some [0x4CC5_030E, 0x7C00_0002] := by decide

/-! ## One step: a bundle of one instruction and three NOPs -/

/-- The placed machine with some G registers set. -/
def prep (w : BitVec 32) (gs : List (Reg × Word)) : State :=
  let r := gs.foldl (fun r x => r.write (.g x.1) (BitVec.allOnes 64) (.word x.2)) placeTask.r
  { State.reset.placeWord w with tasks := [{ placeTask with r := r }] }

/-- What a step leaves of the placed task, with every pending write applied. -/
def stepped (s : State) : Option Task :=
  match step s with
  | .next u => (u.task? 0).map fun t => t.applyAll
  | _ => none

/-- The value of a G register after a step. -/
def gAfter (s : State) (r : Reg) : Option Word := (stepped s).map fun t => t.r.getG r
/-- The value of a K register after a step. -/
def kAfter (s : State) (r : KReg) : Option Word := (stepped s).map fun t => t.r.getK r
/-- The first lanes of a V register after a step. -/
def vAfter (s : State) (r : Reg) (n : Nat) : Option (List Lane) := (stepped s).map fun t => (t.r.getV r).toList.take n

theorem test_add_wraps : gAfter (prep 0x0443_2000 [(3, 0xFFFFFFFFFFFFFFFF), (4, 2)]) 2 = some 1 := by decide +kernel
theorem test_pc_moves : (stepped (prep 0x0443_2000 [])).map (fun t => t.r.pc) = some 0x10010 := by decide +kernel
theorem test_g0_discards : gAfter (prep 0x0403_2000 [(3, 5), (4, 2)]) 0 = some 0 := by decide +kernel
theorem test_sub_operands : gAfter (prep 0x0443_2001 [(3, 5), (4, 2)]) 2 = some 3 := by decide +kernel
theorem test_sar_sign : gAfter (prep 0x0443_2008 [(3, 0x8000000000000000), (4, 63)]) 2 = some 0xFFFFFFFFFFFFFFFF := by
  decide +kernel
theorem test_addi_negative : gAfter (prep 0x0863_F800 [(3, 0)]) 3 = some 0xFFFFFFFFFFFFFFFF := by decide +kernel
theorem test_mulh_signed : gAfter (prep 0x0C43_2001 [(3, 0xFFFFFFFFFFFFFFFF), (4, 2)]) 2 = some 0xFFFFFFFFFFFFFFFF := by
  decide +kernel
/-- 12 R301: the quotient of the least number by −1 wraps. -/
theorem test_div_overflow :
    gAfter (prep 0x0C43_2008 [(3, 0x8000000000000000), (4, 0xFFFFFFFFFFFFFFFF)]) 2 = some 0x8000000000000000 := by
  decide +kernel
theorem test_div_by_zero : gAfter (prep 0x0C43_2008 [(3, 7), (4, 0)]) 2 = some 0xFFFFFFFFFFFFFFFF := by decide +kernel
theorem test_compare_signed : kAfter (prep 0x1023_2002 [(3, 0xFFFFFFFFFFFFFFFF), (4, 0)]) 1 = some 0xFFFFFFFFFFFFFFFF ∧
    kAfter (prep 0x1023_2004 [(3, 0xFFFFFFFFFFFFFFFF), (4, 0)]) 1 = some 0 := by decide +kernel
/-- 12 R306: −0.7 converts to 0 as an unsigned number. -/
theorem test_convert_unsigned : gAfter (prep 0x1443_0803 [(3, 0xBF333333)]) 2 = some 0 := by decide +kernel
theorem test_branch_back : (stepped (prep 0x1BFF_E000 [])).map (fun t => t.r.pc) = some 0xFFF0 := by decide +kernel
theorem test_call_link : gAfter (prep 0x1800_2001 []) 31 = some 0x10010 := by decide +kernel
theorem test_loop_pushes : (stepped (prep 0x1C03_4001 [])).map (fun t => t.r.loops) =
    some [⟨0x10010, 0x10020, 3⟩] := by decide +kernel
theorem test_setfmti_reserved : (stepped (prep 0x2000_3804 [])).map (fun t => t.r.fmt) = some 0 := by decide +kernel
theorem test_mfs_trap_register : (stepped (prep 0x2063_0000 [])).map (fun t => (t.trap.mode, t.trap.code, t.r.pc)) =
    some (true, 0x0105, 0x20000) := by decide +kernel
theorem test_trap : (stepped (prep 0x2000_180B [])).map (fun t => (t.trap.mode, t.trap.code, t.trap.info, t.trap.pc)) =
    some (true, 0x0108, 3, 0x10000) := by decide +kernel
theorem test_illegal_instruction :
    (stepped (prep 0x7800_0000 [])).map (fun t => (t.trap.code, t.trap.info)) = some (0x0100, 0x78000000) := by decide +kernel
theorem test_illegal_bundle : (stepped (prep 0x8443_2000 [])).map (fun t => t.r.getG 2) = some 1 ∧
    (stepped (prep 0x7C00_0000 [])).map (fun t => t.trap.code) = some 0x0101 := by decide +kernel
/-- 13 R341: VIOTA writes lane numbers. -/
theorem test_viota : vAfter (prep 0x3820_0046 []) 1 3 = some [0, 1, 2] := by decide +kernel
theorem test_vbcst : vAfter (prep 0x3023_005A [(3, 0x100000007)]) 1 2 = some [7, 7] := by decide +kernel
theorem test_vsubs_saturates : vAfter (prep 0x2C21_100C [(3, 0)]) 1 1 = some [0] := by decide +kernel
theorem test_load_misaligned : (stepped (prep 0x4843_000E [(3, 0x104)])).map (fun t => (t.trap.code, t.trap.addr, t.trap.info)) =
    some (0x010A, 0x104, 3) := by decide +kernel
/-- The placed machine with some V registers set, each to one value in every lane. -/
def prepV (w : BitVec 32) (vs : List (Reg × Lane)) : State :=
  let r := vs.foldl (fun r x => r.write (.v x.1) (BitVec.allOnes 64) (.vec (Vector.replicate 64 x.2))) placeTask.r
  { State.reset.placeWord w with tasks := [{ placeTask with r := r }] }
/-- What a step makes of the whole state. -/
def after (s : State) : Option State :=
  match step s with
  | .next u => some u
  | _ => none

theorem test_vadd : vAfter (prepV 0x2421_1000 [(1, 0x3F800000), (2, 0x40000000)]) 1 1 = some [0x40400000] := by decide +kernel
/-- 13 R332: one rounding: (1 + 2^-12)^2 − 1 keeps its lowest term, 2^-24. -/
theorem test_vfma_once :
    vAfter (prepV 0x28C1_0800 [(1, 0x3F800800), (6, 0xBF800000)]) 6 1 = some [0x3A000400] := by decide +kernel
theorem test_vcmp_nan : kAfter (prepV 0x3021_1010 [(1, 0x7FC00000), (2, 0)]) 1 = some 0xFFFFFFFFFFFFFFFF ∧
    kAfter (prepV 0x3021_1000 [(1, 0x7FC00000), (2, 0x7FC00000)]) 1 = some 0 := by decide +kernel
theorem test_vrsum : vAfter (prepV 0x3C21_0000 [(1, 0x3F800000)]) 1 2 = some [0x42800000, 0] := by decide +kernel
theorem test_store_waits : (after (prep 0x4CC5_000E [(5, 0x100), (6, 7)])).map (fun u =>
    (u.mem.stores.map fun x => x.ops, u.mem.bytes == (prep 0x4CC5_000E []).mem.bytes)) =
      some ([[.phys 0x100 [7, 0, 0, 0, 0, 0, 0, 0]]], true) := by decide +kernel
theorem test_atomic_add : (after (prep 0x58A6_3801 [(6, 0x10000), (7, 5)])).map (fun u =>
    (cellsRead u.mem.bytes 0x10000 8, (u.tasks.map fun t => t.infl.map (·.val)))) =
      some ([6, 0x38, 0xA6, 0x58, 0, 0, 0, 0], [[.word 0x58A63801]]) := by decide +kernel
theorem test_fill : (after (prep 0x5528_0000 [(8, 0x1FFFFFF80000100), (9, 0x55)])).map (fun u =>
    (cellsRead u.mem.sram 0x100 2, u.wordFull 0 0x100)) = some ([0x55, 0], true) := by decide +kernel
theorem test_zget : (after (prep 0x6C20_0004 [])).map (fun u => (u.tile 0 1).owner) = some (some 0) := by decide +kernel
theorem test_bellm : (after (prep 0x5C08_4822 [(8, 1), (9, 3)])).map (fun u => (u.bell (bellKey 1 0)).memb) =
    some 3 := by decide +kernel
theorem test_lock_request : (after (prep 0x6008_0004 [(8, 0x100000000)])).map (fun u => u.tasks.map (·.wait)) =
    some [some (.lock 0x100000000 .x)] := by decide +kernel
theorem test_boot : (after { State.reset with inputs := [(.proctorBoot, .none)] }).map (fun u =>
    (u.package.phase, u.package.bootStep)) = some (.booting, 0) := by decide +kernel
theorem test_idle_cycle : (after State.reset).map (fun u => u.cycle) = some 1 := by decide +kernel

/-! ## Witnesses: states and operands that meet the hypotheses of the statements -/

/-- The bundle that the placed task has opened, at its PC. -/
def wCur : Cur := { tid := 0, core := 0, pc := 0x10000, phys := 4, slots := [(⟨0, false⟩, .nop)], members := [0] }
/-- The placed machine while the slots of a bundle run. -/
def wit : State := { State.reset.placeWord 0 with cur := some wCur, turns := [] }
/-- The same, with its task changed. -/
def witTask (f : Task → Task) : State := { wit with tasks := [f placeTask] }
/-- The same, with its core changed. -/
def witCore (f : CoreSt → CoreSt) : State := { wit with cores := { wit.cores with cores := [(0, f placeCore)] } }
/-- The same, with G registers set. -/
def witG (gs : List (Reg × Word)) : State :=
  witTask fun t => { t with r := gs.foldl (fun r x => r.write (.g x.1) (BitVec.allOnes 64) (.word x.2)) t.r }
/-- The task in trap mode. -/
def trapped : Task := { placeTask with trap := { placeTask.trap with mode := true } }
/-- The machine of a versioned launch. -/
def witVers : State := { wit with launches := [{ placeLaunch with vers := true }] }
/-- The machine READY, its Welom Link up. -/
def witHost : State :=
  { State.reset with host := { State.reset.host with welomUp := true }, package := { State.reset.package with phase := .ready } }

theorem wit_open : wit.cur = some wCur ∧ wit.me? = some placeTask ∧ wit.enabled = true ∧ wit.versioned = false := by
  decide +kernel
theorem wit_inv : wit.Inv := by unfold State.Inv; decide +kernel

/-- IntegerAluResults, ImmediateAluResults, BitFieldCountResults, ComparePredicateResults. -/
theorem wit_IntegerAluResults : wit.enabled = true := wit_open.2.2.1
theorem wit_ImmediateValues : 1 ≤ 5 ∧ 5 ≤ 12 := by decide
/-- MultiplyDivideResults: a divisor of 0, and one that is not. -/
theorem wit_MultiplyDivideResults : wit.getG 5 = 0 ∧ wit.getG 4 ≠ 0 := by decide +kernel
/-- ScalarConversionResults: its two examples. -/
theorem wit_ScalarConversionResults : (witG [(2, 0xBF333333)]).enabled = true ∧ (witG [(2, 0xBF333333)]).getG 2 = 0xBF333333 ∧
    (witG [(2, 0x7FC00000)]).enabled = true ∧ (witG [(2, 0x7FC00000)]).getG 2 = 0x7FC00000 := by decide +kernel
/-- ExposedWriteVisibility: the last bundle before an effect of latency 8, and the first after it. -/
theorem wit_ExposedWriteVisibility : placeTask.pend = [] ∧ placeTask.infl = [] ∧ 1 ≤ 8 ∧ 6 + 1 < 8 ∧ 8 ≤ 7 + 1 := by
  decide +kernel
/-- LoopSetup: an empty loop stack, a count of 0, a full stack, and a body that ends at this bundle. -/
theorem wit_LoopSetup :
    (loopAct wCur.pc placeTask.r.loops).1.length < 6 ∧ wit.getG 4 ≠ 0 ∧ wit.getG 5 = 0 ∧
    (∀ e, placeTask.r.loops.getLast? = some e → e.stop ≠ wCur.pc) ∧
    6 ≤ (loopAct wCur.pc (List.replicate 6 ⟨0, 4, 1⟩)).1.length ∧
    (loopAct wCur.pc (List.replicate 5 ⟨0, 4, 1⟩)).1.length < 6 ∧
    (witTask fun t => { t with r := { t.r with loops := List.replicate 6 ⟨0, 4, 1⟩ } }).me? =
      some { placeTask with r := { placeTask.r with loops := List.replicate 6 ⟨0, 4, 1⟩ } } ∧
    ∃ e, [(⟨0, 0x10000, 1⟩ : LoopEnt)].getLast? = some e ∧ e.stop = wCur.pc := by
  refine ⟨by decide, by decide +kernel, by decide +kernel, ?_, by decide, by decide, by decide +kernel, _, rfl, rfl⟩
  intro e h; rw [show placeTask.r.loops = [] by decide +kernel] at h; simp at h
/-- LoopBackRule: counts 1 and 2 at the END, an address elsewhere; targets below, at both ends, and above. -/
theorem wit_LoopBackRule : let e : LoopEnt := ⟨8, 16, 1⟩
    e.stop = 16#57 ∧ e.stop ≠ 12#57 ∧ e.count.toNat ≤ 1 ∧ 1 < ({ e with count := 2 } : LoopEnt).count.toNat ∧
    7#57 < e.start ∧ e.start ≤ 8#57 ∧ 16#57 ≤ e.stop ∧ e.stop < 17#57 := by decide
/-- SystemRegisterAccess: numbers at the edges of the ranges, in trap mode and outside it. -/
theorem wit_SystemRegisterAccess : placeTask.trap.mode = false ∧ trapped.trap.mode = true ∧
    (0x05F#10).toNat < 0x060 ∧ 0x060 ≤ (0x060#10).toNat ∧ 3 ≤ (3#5).toNat ∧
    (witTask fun _ => trapped).me? = some trapped ∧ (witTask fun _ => trapped).enabled = true := by decide +kernel
/-- ControlMarks: END at once; COMMIT of a versioned launch and of another; a task in lock-step, in trap mode, of a former
group. -/
theorem wit_ControlMarks : wit.remoteBusy 0 = false ∧ (∀ x ∈ wit.mem.ivQueue, x.tid ≠ 0) ∧
    wit.launch? (tidLnum 0) = some placeLaunch ∧ placeLaunch.vers = false ∧
    witVers.launch? (tidLnum 0) = some { placeLaunch with vers := true } ∧ witVers.me? = some placeTask ∧
    placeTask.lockstep = false ∧ placeTask.trap.mode = false ∧ placeTask.tandemOf = none ∧
    (witTask fun t => { t with lockstep := true }).me? = some { placeTask with lockstep := true } ∧
    (witTask fun t => { t with tandemOf := some (0, 1) }).me? = some { placeTask with tandemOf := some (0, 1) } := by decide +kernel
/-- TrapEntryByTrap: a handler, none, and trap mode. -/
theorem wit_TrapEntryByTrap : wit.task? wCur.tid = some placeTask ∧ placeTask.trap.mode = false ∧ wit.tvec placeTask ≠ 0 ∧
    (witTask fun _ => trapped).task? wCur.tid = some trapped ∧
    { wit with launches := [{ placeLaunch with tvec := 0 }] }.tvec placeTask = 0 := by decide +kernel
theorem wit_TrapReturns : (witTask fun _ => trapped).me? = some trapped ∧ wit.me? = some placeTask := by decide +kernel
/-- VectorFloatResults, FusedMultiplyAddResults, DivideTranscendentalResults, VectorIntegerResults, VectorCompareResults,
ReductionScanResults, ConvertQuantiseResults: a type of each kind. -/
theorem wit_vector_types : Ty.f16.isFp = true ∧ Ty.z32.isVInt = true ∧ Ty.s8.isVAbs = true ∧ Ty.s32.isVCmp = true ∧
    Ty.bf16.isRed = true ∧ Ty.i4.isCvt = true ∧ Ty.d8.isQuant = true ∧ Ty.i4.isDq = true ∧ (30#5).toNat % 2 = 0 := by decide

/-- Plain bytes at a place of the heap and at one of the scratchpad. -/
def wHeap (a : Nat) : Piece := ⟨0, a, .phys a .near false, none⟩
/-- A word of the task's scratch allocation. -/
def wScr (o : Nat) : Piece := ⟨0, 0x1FFFFFF80000000 + o, .sram 0 o, none⟩

/-- A core with an empty L1 holds no copy of any line. -/
theorem l1Line_empty {s : State} {core : Nat} (h : (s.core core).l1 = []) (ctx line : Nat) :
    s.l1Line ctx core line = none := by simp [State.l1Line, h]
theorem wit_plain : wit.Plain placeTask 8 (wHeap 0x38).loc ∧ wit.Plain placeTask 8 (wScr 0xFF8).loc ∧
    wit.Uncached 0 (wHeap 0x38).loc ∧ wit.Uncached 0 (wScr 0xFF8).loc := by
  refine ⟨⟨by decide, by decide, rfl, ?_⟩, ⟨by decide, by decide, rfl, trivial⟩, ?_, ?_⟩
  · exact ⟨by decide, by decide +kernel, by decide +kernel⟩
  · intro pa place evf _ ctx
    exact l1Line_empty (by decide +kernel) ctx _
  · intro pa place evf h; simp [wScr] at h
/-- A core that holds a copy of the line of address 0x38. -/
def witCached : State := witCore fun c => { c with l1 := [(0, wit.keyNum (ctxSlot 0), 0)] }
/-- ScalarLoadResults: the last eight bytes of a beat, those of the scratch allocation, and a line in the L1. -/
theorem wit_ScalarLoadResults :
    wit.checkOne placeTask 0 false 0x38 0 (scalarReq 8 .load) = .ok (wHeap 0x38) ∧
    wit.checkOne placeTask 0 true 0xFF8 0 (scalarReq 8 .load) = .ok (wScr 0xFF8) ∧ Ty.z64.isMem = true ∧
    eaOf ((witG [(8, 0x38)]).getG 8) (immS (⟨0, []⟩ : Imm 5)) = 0x38 ∧
    witCached.checkOne placeTask 0 false 0x38 0 (scalarReq 8 .load) = .ok (wHeap 0x38) ∧
    l1Able witCached 0x38 .near = true ∧ witCached.l1Line placeTask.ctx 0 (0x38 / 64) = some 0 := by decide +kernel
/-- ScalarStoreResults, and SlipStoreResults to a place of this chip. -/
theorem wit_ScalarStoreResults :
    wit.checkOne placeTask 0 false 0x38 0 (scalarReq 8 .store) = .ok (wHeap 0x38) ∧
    wit.checkOne placeTask 0 true 0xFF8 0 (scalarReq 8 .store) = .ok (wScr 0xFF8) ∧ (wHeap 0x38).loc.isHere = true ∧
    wit.rangeHeld 0 [wHeap 0x38] 8 = false ∧ wit.rangeHeld 0 [wScr 0xFF8] 8 = false := by decide +kernel

/-- VersionedStoreResults: room for a version line, and a set whose four ways hold versions. -/
def witFull : State :=
  { witVers with mem := { witVers.mem with versions := [⟨1, 0, 0, 0, 0⟩, ⟨2, 0, 0, 0, 0⟩, ⟨3, 0, 0, 0, 0⟩, ⟨4, 0, 0, 0, 0⟩] } }
theorem wit_VersionedStoreResults :
    witVers.versioned = true ∧ witVers.me? = some placeTask ∧
    witVers.checkOne placeTask 0 false 0x38 0 (scalarReq 8 .store) = .ok (wHeap 0x38) ∧ versionable 0x38 = true ∧ 0x38 % 8 = 0 ∧
    witVers.rangeHeld 0 [wHeap 0x38] 8 = false ∧ witVers.versionFull 0 0x38 8 = false ∧
    witFull.versioned = true ∧ witFull.me? = some placeTask ∧ witFull.rangeHeld 0 [wHeap 0x38] 8 = false ∧
    witFull.checkOne placeTask 0 false 0x38 0 (scalarReq 8 .store) = .ok (wHeap 0x38) ∧
    witFull.versionFull 0 0x38 8 = true := by decide +kernel

/-- The task with its slot under a guard K1 that holds `m`. -/
def witMask (m : Word) : State :=
  { witTask fun t => { t with r := t.r.write (.k 1) (BitVec.allOnes 64) (.word m) } with
    cur := some { wCur with guard := ⟨1, false⟩ } }
/-- Its task. -/
def maskTask (m : Word) : Task := { placeTask with r := placeTask.r.write (.k 1) (BitVec.allOnes 64) (.word m) }
/-- Lanes 0 and 63 of a vector access from the last word of a beat on. -/
def wLanes : List Piece := [⟨0, 0x3C, .phys 0x3C .near false, none⟩, ⟨63, 0x138, .phys 0x138 .near false, none⟩]
/-- VectorLoadResults, VectorStoreResults, VectorAtomicResults: two lanes enabled, and none. -/
theorem wit_vector_access :
    (witMask 0x8000000000000001).me? = some (maskTask 0x8000000000000001) ∧ (witMask 0x8000000000000001).mask ≠ 0 ∧
    (witMask 0x8000000000000001).versioned = false ∧ (witMask 0).mask = 0 ∧ (witMask 0).me? = some (maskTask 0) ∧
    (∀ k, k = AccKind.load ∨ k = .store ∨ k = .atomic →
      (witMask 0x8000000000000001).checkLanes (maskTask 0x8000000000000001) 0 false (scalarReq 4 k)
        ((maskLanes (witMask 0x8000000000000001).mask).map fun k => (k, (0x3C + 4 * k) % 2 ^ 57)) = .ok wLanes) ∧
    (∀ p ∈ wLanes, p.loc.isHere = true ∧ p.loc.key.2 % 4 = 0) ∧ (witMask 0x8000000000000001).rangeHeld 0 wLanes 4 = false := by
  refine ⟨by decide +kernel, by decide +kernel, by decide +kernel, by decide +kernel, by decide +kernel, ?_,
    by decide, by decide +kernel⟩
  rintro k (rfl | rfl | rfl) <;> decide +kernel
theorem wit_vector_plain : ∀ p ∈ wLanes, (witMask 0x8000000000000001).Plain (maskTask 0x8000000000000001) 4 p.loc ∧
    (witMask 0x8000000000000001).Uncached 0 p.loc := by
  intro p hp
  simp only [wLanes, List.mem_cons, List.not_mem_nil, or_false] at hp
  rcases hp with rfl | rfl
  all_goals
    refine ⟨⟨by decide, by decide, by decide +kernel, by decide, by decide +kernel, by decide +kernel⟩, ?_⟩
    intro pa place evf _ ctx
    exact l1Line_empty (by decide +kernel) ctx _
/-- One destination, at address 0x100, listed at the start of the scratch allocation. -/
def witList : State := { witMask 1 with mem := { wit.mem with sram := [(1, 1)] } }
/-- VectorStoreResults of VMCST and VectorAtomicResults of VRDST. -/
theorem wit_destinations :
    witList.destList (maskTask 1) 0 0x1FFFFFF80000000 1 = .ok [0x100] ∧ 0x100 % 256 = 0 ∧
    witList.probeAll (maskTask 1) 0 .store (maskLanes witList.mask) [0x100] = .ok [[⟨0, 0x100, .phys 0x100 .near false, none⟩]] ∧
    witList.probeAll (maskTask 1) 0 .atomic (maskLanes witList.mask) [0x100] = .ok [[⟨0, 0x100, .phys 0x100 .near false, none⟩]] := by
  decide +kernel

/-- ScalarAtomicResults, WideFloatAtomicResults: the last 4, 8 and 16 bytes of a beat, at FABRIC scope and below. -/
theorem wit_ScalarAtomicResults :
    (∀ b, b = true ∨ b = false →
      wit.checkOne placeTask 0 false 0x3C 0 { n := 4, align := 4, info := 2, kind := .atomic, pcie := b } = .ok (wHeap 0x3C) ∧
      wit.checkOne placeTask 0 false 0x38 0 { n := 8, align := 8, info := 3, kind := .atomic, pcie := b } = .ok (wHeap 0x38) ∧
      wit.checkOne placeTask 0 false 0x30 0 { n := 16, align := 16, info := 4, kind := .atomic, pcie := b } = .ok (wHeap 0x30) ∧
      wit.checkOne placeTask 0 false 0x3E 0 { n := 2, align := 2, info := 1, kind := .atomic, pcie := b } = .ok (wHeap 0x3E)) ∧
    wit.rangeHeld 0 [wHeap 0x30] 16 = false ∧ AOrd.relScope (.rel .fabric) = some .fabric ∧ wit.remoteBusy 0 = false ∧
    wit.Ordered placeTask 0 (some .fabric) [wHeap 0x30] := by
  refine ⟨?_, by decide +kernel, by decide, by decide +kernel, ?_, ?_⟩
  rotate_left
  · intro m h; simp [show placeTask.relMark = none by decide +kernel] at h
  · intro p hp d h1 h2
    obtain rfl := List.mem_singleton.1 hp
    exact absurd (by rw [show (wHeap 0x30).homeDie wit = some 0 by decide +kernel] at h1; exact (Option.some.inj h1).symm) h2
  rintro b (rfl | rfl) <;> decide +kernel

/-- The last word of the scratch allocation FULL. -/
def witWord : State := { wit with mem := { wit.mem with full := [0x1FF] } }
/-- The core's waiting list with its 31st access. -/
def witWaits : State := witCore fun c => { c with feWaits := List.replicate 31 ⟨0, 1, 0, 0, 0, 0⟩ }
/-- FullEmptyResults: an EMPTY word, a FULL one, and the last place of the waiting list. -/
theorem wit_FullEmptyResults :
    wit.feAddr placeTask 0 0x1FFFFFF80000FF8 .store = .ok (wScr 0xFF8) ∧
    wit.feAddr placeTask 0 0x1FFFFFF80000FF8 .load = .ok (wScr 0xFF8) ∧
    witWord.feAddr placeTask 0 0x1FFFFFF80000FF8 .store = .ok (wScr 0xFF8) ∧
    witWord.feAddr placeTask 0 0x1FFFFFF80000FF8 .load = .ok (wScr 0xFF8) ∧
    wit.wordFull 0 0xFF8 = false ∧ witWord.wordFull 0 0xFF8 = true ∧
    (∀ w ∈ (witWaits.core 0).feWaits, w.word ≠ 0xFF8 / 8) ∧ (witWaits.core 0).feWaits.length < 32 ∧
    (witWaits.core 0).feRefused = [] ∧ wit.fePort 0 0 = false ∧ witWord.fePort 0 0 = false ∧ placeTask.core = some 0 := by
  decide +kernel
/-- FullEmptyResults: a ticketed access of the same port. -/
def witPort : State := witCore fun c => { c with feRefused := [(⟨9, 7, 1, 2, 0, 0⟩, 0, .ticket)] }
theorem wit_FullEmptyPort : witPort.fePort 0 0 = true ∧ witPort.me? = some placeTask ∧
    witPort.feAddr placeTask 0 0x1FFFFFF80000FF8 .store = .ok (wScr 0xFF8) ∧
    witPort.feAddr placeTask 0 0x1FFFFFF80000FF8 .load = .ok (wScr 0xFF8) := by decide +kernel
theorem wit_FenceResults : wit.me? = some placeTask ∧ wit.versioned = false ∧ ∀ p ∈ wit.mem.stores, p.tid ≠ (0 : Word) := by
  decide +kernel

/-- A bell of the cluster (own form) and its key; member sequencer 0 of core 0. -/
def witBell (b : Bell) : State := { wit with cores := { wit.cores with bells := [(0, b)] } }
/-- BellResults: a bell without membership, one open and with members, one that completes, one of another context, a
malformed identifier and another cluster's. -/
theorem wit_BellResults :
    bellBad 0 = false ∧ bellKey 0 0 = 0 ∧ bellCovers 0 0 = true ∧ bellBad 64 = true ∧ bellCovers (bellKey 0x200 0) 0 = false ∧
    (wit.bell 0).isOpen = false ∧ (wit.bell 0).owner = none ∧ bellLevel 0 = 0 ∧ bellLevel 0x100 = 2 ∧
    ((witBell { owner := some 0, memb := 3 }).bell 0).owner = some 0 ∧
    ((witBell { owner := some 0, memb := 3 }).bell 0).memb &&& (1#32 <<< 0) ≠ 0 ∧
    ((witBell { owner := some 0, memb := 3 }).bell 0).arr &&& (1#32 <<< 0) = 0 ∧
    (0#32 ||| (1#32 <<< 0)) ≠ ((witBell { owner := some 0, memb := 3 }).bell 0).memb ∧
    (2#32 ||| (1#32 <<< 0)) = ((witBell { owner := some 0, memb := 3, arr := 2, isOpen := true }).bell 0).memb ∧
    ((witBell { owner := some 1, memb := 3, isOpen := true }).bell 0).isOpen = true ∧
    (witBell { owner := some 0, memb := 3 }).me? = some placeTask ∧
    (wit.releaseBy 0 0 (bellScope 0)).messageWaits placeTask 0 (wit.bellHome 0) = false := by decide +kernel
/-- BellResults, RollResults: a package bell, whose home is H0, and the stamp of a release that H0 has heard and one that
it has not. -/
theorem wit_BellResults_stamp : let key := bellKey 0x100 0
    let s : State := { wit with cores := { wit.cores with bells := [(key, { owner := some 0, memb := 3 })] } }
    let h : State := { s with clocks := { s.clocks with heard := [(4 * 16, 1)] } }
    bellBad 0x100 = false ∧ bellCovers key 0 = true ∧ bellLevel key = 2 ∧ s.bellHome key = 4 ∧ (s.bell key).owner = some 0 ∧
    (s.releaseBy 0 0 (bellScope key)).messageWaits placeTask 0 4 = true ∧
    (h.releaseBy 0 0 (bellScope key)).messageWaits placeTask 0 4 = false ∧
    (s.releaseBy 0 0 .pkg).messageWaits placeTask 0 (coreDie 192) = true ∧
    (s.releaseBy 0 0 .pkg).messageWaits placeTask 0 (coreDie 0) = false := by decide +kernel
/-- A context with a scratch allocation on the next die. -/
def witFar : State := { wit with cores := { wit.cores with cores := (192, placeCore) :: wit.cores.cores } }
theorem wit_RollResults_far : witFar.checkRoll 0 (0x1FFFFFF80000000 + 2 ^ 29 + 0xFF0) = .ok (192, 0xFF0) ∧
    coreDie 192 ≠ coreDie 0 := by decide +kernel

/-- A roll at the end of the scratch allocation, armed, with 16 bytes expected; and one not armed with a code. -/
def witRoll : State := { wit with mem := { wit.mem with sram := [(0xFF0, 16), (0xFF8, 2)] } }
def witRollDone : State := { wit with mem := { wit.mem with sram := [(0xFF0, 16), (0xFF4, 17), (0xFF8, 1), (0xFFA, 1), (0xFFB, 3)] } }
theorem wit_RollResults :
    witRoll.checkRoll 0 0x1FFFFFF80000FF0 = .ok (0, 0xFF0) ∧ (witRoll.roll 0 0xFF0).armed = true ∧
    witRollDone.checkRoll 0 0x1FFFFFF80000FF0 = .ok (0, 0xFF0) ∧ (witRollDone.roll 0 0xFF0).armed = false ∧
    (witRollDone.roll 0 0xFF0).code ≠ 0 ∧ placeTask.faults.length < 8 ∧ placeTask.wait = none ∧
    (∀ x ∈ witRoll.tasks, x.wait = none) ∧ cellsWf witRollDone.mem.sram = true := by decide +kernel

/-- A page of chip 3, fabric context 5, in the core's TLB, and a route to chip 3. -/
def witPeer : State :=
  { witCore fun c => { c with tlb := ⟨0, 0x1000000, 2, 0x5003011F⟩ :: c.tlb } with
    fabric := { wit.fabric with hubs := [(5, { routes := [(3, 1)] })] } }
/-- A place in it. -/
def wPeer : Piece := ⟨0, 0x10000000038, .peer 3 5 0x10000000038, none⟩
/-- SlipStoreResults, RemoteIssueResults. -/
theorem wit_RemoteIssueResults :
    witPeer.checkOne placeTask 0 false 0x10000000038 0 (scalarReq 8 .load) = .ok wPeer ∧
    witPeer.checkOne placeTask 0 false 0x10000000038 0 (scalarReq 8 .store) = .ok wPeer ∧
    witPeer.checkOne placeTask 0 false 0x10000000038 0 { n := 8, align := 8, info := 3, kind := .atomic, pcie := true } = .ok wPeer ∧
    witPeer.rangeHeld 0 [wPeer] 8 = false ∧ witPeer.slipFree? 0 = some 2048 ∧ witPeer.me? = some placeTask ∧
    wPeer.loc.isHere = false ∧ (wHeap 0x38).loc.isHere = true ∧ placeTask.commitQ = [] := by decide +kernel

/-- Lock words: region 1, its tile 2, and line 3 of the tile. -/
def wRegion : Word := 0x0000000100000000
def wTile : Word := 0x0100000100002000
/-- LockRequestRules, LockInstructionResults: no lock, one held in each mode, a parent not held, a full table. -/
theorem wit_LockRequestRules :
    lwBad wRegion = false ∧ lwLevel wRegion = 0 ∧ lwBad wTile = false ∧ lwParent wTile = some wRegion ∧
    lwBad 0x0300000000000000 = true ∧ lockCheck placeTask wRegion .x = .send ∧
    lockCheck placeTask wTile .s = .bad 0x0114 ∧
    (∀ h ∈ [LockMode.is, .ix, .s, .inc, .x], ({ placeTask with locks := [(wRegion, h)] } : Task).locks.find? (·.1 == wRegion) = some (wRegion, h)) ∧
    lockCheck { placeTask with locks := [(wRegion, .x)] } wRegion .s = .done ∧
    lockCheck { placeTask with locks := (List.range 64).map fun k => (BitVec.ofNat 64 k, .s) } wRegion .x = .bad 0x0115 := by
  decide +kernel
theorem wit_LockRelease : ∃ held, ({ placeTask with locks := [(wRegion, .ix)] } : Task).locks.find? (·.1 == wRegion) =
      some (wRegion, held) ∧ (∀ l ∈ ({ placeTask with locks := [(wRegion, .ix)] } : Task).locks, lwParent l.1 ≠ some wRegion) ∧
    ∃ l ∈ ({ placeTask with locks := [(wRegion, .ix), (wTile, .x)] } : Task).locks, lwParent l.1 = some wRegion :=
  ⟨.ix, by decide, by decide, (wTile, .x), by decide, by decide⟩

theorem wit_CacheControlResults : wit.prefPlace placeTask 0x38 = some (0x38, .near, false) ∧ isCacheable wit 0x38 = true ∧
    wit.prefPlace placeTask 0x1FFFFFF80000000 = none ∧ (witG [(5, 1)]).getG 5 ≠ 0 ∧ wit.getG 5 = 0 := by decide +kernel

/-- A stream register bound as an input, as an output, and BAD. -/
def sIn : Stream := { bind := 1, kaddr := 0x100, len := 3, pos := 2 }
def sOut : Stream := { bind := 2, kaddr := 0x200, len := 8 }
/-- The task with stream registers. -/
def streamTask (d a b : Stream) : Task :=
  { placeTask with r := { placeTask.r with streams := (((Vector.replicate 4 ({} : Stream)).set 0 d).set 1 a).set 2 b } }
/-- StreamRegisterResults, StreamStartResults: unbound, roles kept and broken, BAD, an input with keys left, a block in
and out of line. -/
theorem wit_StreamRegisterResults :
    placeTask.r.streamOp? = none ∧ (witTask fun _ => streamTask sOut sIn sIn).me? = some (streamTask sOut sIn sIn) ∧
    (streamTask sOut sIn sIn).r.streamOp? = none ∧ ((streamTask sOut sIn sIn).r.getS 0).bind = 2 ∧
    ((streamTask sOut sIn sIn).r.getS 1).bind = 1 ∧ ((streamTask sOut sIn sIn).r.getS 2).bind = 1 ∧
    ((streamTask sIn sIn sIn).r.getS 0).bind ≠ 2 ∧ ((streamTask { sOut with bind := 3 } sIn sIn).r.getS 0).bind = 3 ∧
    (placeTask.r.getS 0).bind = 0 ∧ sIn.pos.toNat ≤ sIn.len.toNat ∧
    0x1FFFFFF80000FE0 % 32 = 0 ∧ (scratchRegs placeTask 0).1.toNat = 0x1FFFFFF80000000 ∧
    (scratchRegs placeTask 0).2.toNat = 0x1000 ∧ 0x1FFFFFF80000008 % 32 ≠ 0 := by decide +kernel
/-- A merge of one key each: the output, and two inputs at their last key. -/
def mergeTask (op : BitVec 3) : Task :=
  streamTask { sOut with op := op, srca := 1, srcb := 2 } sIn { sIn with kaddr := 0x300 }
theorem wit_StreamMergeResults : ∀ op, op = 1#3 ∨ op = 2#3 ∨ op = 3#3 ∨ op = 4#3 →
    let s : State := { witTask fun _ => mergeTask op with arg := .task 0, cur := none }
    s.task? (mergeTask op).tid = some (mergeTask op) ∧ (mergeTask op).phase = .bound ∧ (mergeTask op).core = some 0 ∧
    (mergeTask op).r.streamOp? = some (0, 1, 2) ∧ s.mem.wf = true ∧
    ((mergeTask op).r.getS 0).op.toNat ≤ 4 ∧ ((mergeTask op).r.getS 0).pos.toNat + 2 ≤ ((mergeTask op).r.getS 0).len.toNat ∧
    ((mergeTask op).r.getS 1).pos.toNat + 1 = ((mergeTask op).r.getS 1).len.toNat ∧
    ((mergeTask op).r.getS 2).pos.toNat + 1 = ((mergeTask op).r.getS 2).len.toNat := by
  rintro op (rfl | rfl | rfl | rfl) <;> decide +kernel
theorem wit_StreamMergeApart : ∀ k, k = 1#2 ∨ k = 2#2 → ∀ i j,
    inArray i ((mergeTask 1).r.getS 0).keys = true → inArray j ((mergeTask 1).r.getS k).keys = true → i ≠ j := by
  rintro k (rfl | rfl) i j hi hj
  · rw [show ((mergeTask 1).r.getS 0).keys = (0x200, 32) by decide +kernel] at hi
    rw [show ((mergeTask 1).r.getS 1#2).keys = (0x100, 12) by decide +kernel] at hj
    simp [inArray] at hi hj; omega
  · rw [show ((mergeTask 1).r.getS 0).keys = (0x200, 32) by decide +kernel] at hi
    rw [show ((mergeTask 1).r.getS 2#2).keys = (0x300, 12) by decide +kernel] at hj
    simp [inArray] at hi hj; omega
/-- StreamElementRule: the same merge, served by the unit of core 0. -/
theorem wit_StreamElementRule :
    let s : State := { witTask fun _ => mergeTask 2 with cur := none }
    s.task? (mergeTask 2).tid = some (mergeTask 2) ∧ s.streamServes 0 = some (0, mergeTask 2) ∧
    (mergeTask 2).r.streamOp? = some (0, 1, 2) ∧ ((mergeTask 2).r.getS 0).pend = false ∧ s.mem.wf = true ∧
    (∀ k, k = 1#2 ∨ k = 2#2 → ((mergeTask 2).r.getS k).kty = false ∧ ((mergeTask 2).r.getS k).lastv = false ∧
      ((mergeTask 2).r.getS k).pos.toNat < ((mergeTask 2).r.getS k).len.toNat) ∧
    ((mergeTask 2).r.getS 0).pos.toNat < ((mergeTask 2).r.getS 0).len.toNat := by
  refine ⟨by decide +kernel, by decide +kernel, by decide +kernel, by decide +kernel, by decide +kernel, ?_, by decide +kernel⟩
  rintro k (rfl | rfl) <;> decide +kernel

/-- The core with tile 1 of the task. -/
def witTile (f : Tile → Tile) : State := witCore fun c => { c with tiles := c.tiles.set 1 (f { owner := some 0 }) }
/-- TileResults, MmaIssueResults: a free tile, one of the task, a busy one, one of another task; the blocks' lines. -/
theorem wit_TileResults :
    (wit.tile 0 1).owner = none ∧ (wit.tile 0 1).heldFor = none ∧ ((witTile id).tile 0 1).owner = some 0 ∧
    ((witTile id).tile 0 1).writers = 0 ∧ ((witTile fun t => { t with owner := some 7 }).tile 0 1).owner ≠ some 0 ∧
    (witTile id).me? = some placeTask ∧ placeTask.tgemm = none := by decide +kernel
theorem wit_tile_points : (linePoints 0x40000 36864).length = 576 ∧ (linePoints 0x40000 384).length = 6 ∧
    (∀ k, k = AccKind.load ∨ k = .store → ∀ p ∈ linePoints 0x40000 36864,
      (witTile id).lineAcc placeTask 0 k p = .ok (.phys p .near false) ∧ p < 2 ^ 51) ∧
    ∀ p ∈ linePoints 0x40000 36864, (witTile id).l1Line 0 0 (p / 64) = none ∧
      (witTile id).lineReadable (ctxSlot 0) (p / 64) = true ∧ (witTile id).poisonedLine (p / 64 * 64) 64 = none := by
  refine ⟨by decide +kernel, by decide +kernel, ?_, by decide +kernel⟩
  rintro k (rfl | rfl) <;> decide +kernel
/-- TileResults: the lines of a tile, to load and to store, and what they hold. -/
theorem wit_tile_lines : ∃ ls, ls.length = 576 ∧
    checkLines ((witTile id).lineAcc placeTask 0 .load) 0 (linePoints 0x40000 36864) = .ok ls ∧
    checkLines ((witTile id).lineAcc placeTask 0 .store) 1 (linePoints 0x40000 36864) = .ok ls ∧
    ∀ (k : Nat) (x : Nat × Loc), ls[k]? = some x → x.2.granule < noGranule ∧ ∃ bs, bs.length = 64 ∧
      (witTile id).readGranule placeTask 0 (x.1 / 64) x.2.granule = (bs, none) := by
  have h := wit_tile_points
  generalize linePoints 0x40000 36864 = pts at h ⊢
  refine ⟨_, by rw [List.length_map]; exact h.1, checkLines_ok _ _ _ (h.2.2.1 _ (.inl rfl)),
    checkLines_ok _ _ _ (h.2.2.1 _ (.inr rfl)), ?_⟩
  intro k x hx
  obtain ⟨p, hp, rfl⟩ := List.mem_map.1 (List.mem_of_getElem? hx)
  have hr := h.2.2.2 p hp
  have hlt := (h.2.2.1 _ (.inl rfl) p hp).2
  have hg : (Loc.phys p .near false).granule = p / 64 := rfl
  refine ⟨by simp only [hg, noGranule]; omega, cellsRead (witTile id).mem.bytes (p / 64 * 64) 64, by simp [cellsRead], ?_⟩
  simp only [hg]
  rw [readGranule_plain (by decide) (by decide) rfl hr.1 hr.2.1 (by omega), hr.2.2]

/-- MmaIssueResults: FMT 0 has operands of one width; the lines of A, of B, and of a gated block with an empty mask. -/
theorem wit_MmaIssueResults : tyBits (tyOfFmtCode (fmtA 0)) = tyBits (tyOfFmtCode (fmtB 0)) ∧
    checkLines ((witTile id).lineAcc placeTask 0 .load) 0 (linePoints 0x40000 (aBytes 0)) =
      .ok ((linePoints 0x40000 (aBytes 0)).map fun a => (a, .phys a .near false)) ∧
    checkLines ((witTile id).lineAcc placeTask 0 .load) 0 (linePoints 0x80000 12288) =
      .ok ((linePoints 0x80000 12288).map fun a => (a, .phys a .near false)) ∧
    (witTile id).checkGate placeTask 0 0x80000 = .ok (0x80000, .phys 0x80000 .near false) ∧
    checkLines ((witTile id).lineAcc placeTask 0 .load) 0 (linePointsAll (bRanges 0 0x80000 (some 0))) =
      .ok [(0x80000, .phys 0x80000 .near false)] ∧ ((witTile id).core 0).mmas.length < 4 := by decide +kernel
/-- An MMA in flight whose lines have been read. -/
def wMma (step : Bool) : MmaOp :=
  { id := 5, tid := 0, tile := 1, aAddr := 0, bAddr := 0, gate := none, fmt := 0, sb := [], baddr := 0, slot := 0
    readA := [(0, 0)], readB := [(0, 0)], seenA := [List.replicate 64 0], seenB := [List.replicate 64 0], granA := []
    granB := [], step := step }
def witMma (step : Bool) : State := witCore fun c =>
  { c with mmas := [wMma step], tiles := c.tiles.set 1 { owner := some 0, writers := 1 } }
theorem wit_MmaResult : (witMma false).cores.cores.findSome?
      (fun (c, x) => (x.mmas.find? fun m => m.id == 5 && !m.step).map (c, ·)) = some (0, wMma false) ∧
    (witMma false).task? (wMma false).tid = some placeTask ∧ placeTask.leaving = none ∧ (wMma false).tile < 4 ∧ fmtScale (wMma false).fmt = 0 ∧
    (witMma false).readGranule placeTask 0 0 0 = (List.replicate 64 0, none) := by decide +kernel
theorem wit_ExactSumRule : (∀ p ∈ [(FpVal.fin false 1 (-150), FpVal.fin true 3 (-150))], -300 ≤ (-150 : Int) + (-150) ∧ p = p) ∧
    valIsNan (decodeTy .f32 0x3F800000) = false := by decide +kernel
/-- A TGEMM block of no step, and one of one step. -/
def tgBlock (steps : Nat) : List Byte := (List.replicate 0x20 0) ++ natLe 2 steps ++ [0, 0, 1] ++ List.replicate 27 0
def witTgemm (steps : Nat) : State := { witTile id with mem := { wit.mem with bytes := cellsWrite [] 0x40000 (tgBlock steps) } }
theorem wit_TgemmResults : ∀ n, n = 0 ∨ n = 1 →
    checkLines ((witTgemm n).lineAcc placeTask 0 .load) 0 [0x40000] = .ok [(0x40000, .phys 0x40000 .near false)] ∧
    (witTgemm n).readGranule placeTask 0 (0x40000 / 64) (Loc.phys 0x40000 .near false).granule = (tgBlock n, none) ∧
    ((witTgemm n).tile 0 (tgTile (tgBlock n))).owner = some 0 ∧ ((witTgemm n).tile 0 (tgTile (tgBlock n))).writers = 0 ∧
    tgAlign (tgBlock n) = .ok () ∧ placeTask.saving = none ∧ placeTask.tgemm = none ∧
    ∃ pages, (witTgemm n).tgPages placeTask 0 0 (tgBlock n) (leNat (((tgBlock n).drop 0x20).take 2)) 0 = .ok pages := by
  rintro n (rfl | rfl)
  · refine ⟨by decide +kernel, by decide +kernel, by decide +kernel, by decide +kernel, by decide +kernel, rfl, rfl, [], ?_⟩
    decide +kernel
  · refine ⟨by decide +kernel, by decide +kernel, by decide +kernel, by decide +kernel, by decide +kernel, rfl, rfl, [0], ?_⟩
    decide +kernel
/-- A step that ends: the last one, and one before the last; a tile load that ends. -/
theorem wit_TgemmSteps : (witMma true).cores.cores.findSome?
      (fun (c, x) => (x.mmas.find? fun m => m.tid == 0 && m.step).map (c, ·)) = some (0, wMma true) ∧
    tgSteps (tgBlock 1) ≤ 0 + 1 ∧ 0 + 1 < tgSteps (tgBlock 2) ∧
    ({ wit with mem := { wit.mem with tileLoads := [(9, 0, 1, 0)] } } : State).mem.tileLoads.find? (·.1 == 9) =
      some (9, 0, 1, 0) := by decide +kernel

/-- EngineForkResults: the last block and roll of the allocation, of 64 and of 128 bytes. -/
theorem wit_EngineForkResults :
    (∀ e ∈ [0x01, 0x02, 0x03, 0x10, 0x11, 0x12, 0x18], wit.checkEngine 0 e 0x1FFFFFF80000FC0 0x1FFFFFF80000F00 = .ok ()) ∧
    (∀ e ∈ [0x08, 0x09, 0x0A, 0x0B], wit.checkEngine 0 e 0x1FFFFFF80000F80 0x1FFFFFF80000F00 = .ok ()) ∧
    wit.bulkCount 0 < 64 ∧ witVers.checkEngine 0 1 0x1FFFFFF80000FC0 0x1FFFFFF80000F00 = .ok () ∧
    placeTask.commitQ.length < 64 := by decide +kernel
/-- An engine's CPY of eight bytes from offset 0x100 of the scratchpad to address 0x2000, with its roll. -/
def wBlock (n : Nat) : List Byte :=
  natLe 8 0 ++ natLe 8 0 ++ natLe 8 0x1FFFFFF80000100 ++ natLe 8 0x2000 ++ natLe 4 n ++ List.replicate 28 0

/-- The operation: its block at window offset 0xFC0, its roll at 0xF00. -/
def wOp (n : Nat) : EngineOp :=
  { id := 5, eop := 0x01, ctx := 0, tid := none, core := none, die := 0, unit := 0, pblk := 0xFC0, roll := 0xF00
    block := wBlock n, cmd := 0 }
def witOp (n : Nat) : State := { witHost with
  arg := .num 5, engines := { ops := [wOp n], proj := [] }, cores := wit.cores
  host := { witHost.host with ctxs := [(0, { phase := .live, hwb := 0, hwl := 0x1000 })] } }
/-- EngineWorkResults: a copy of 8 bytes that meets its map; and a block whose reserved bytes are not zero. -/
theorem wit_EngineWorkResults :
    (witOp 8).engines.ops.find? (·.id == (wOp 8).id) = some (wOp 8) ∧ (wOp 8).die ∉ (witOp 8).package.held ∧
    (wOp 8).field 5 1 / 2 = 0 ∧ (wOp 8).field 6 2 / 2 = 0 ∧ (wOp 8).zero 0x24 4 = true ∧ (wOp 8).zero 0x2C 20 = true ∧
    ({ wOp 8 with block := (wBlock 8).set 63 1 } : EngineOp).zero 0x2C 20 = false ∧ (wOp 8).field 0x20 4 = 8 ∧
    (witOp 8).ctxAccess 0 ((wOp 8).addr 0x10) 8 .load = .ok (.sram 0 0x100) ∧
    (witOp 8).ctxAccess 0 ((wOp 8).addr 0x18) 8 .store = .ok (.phys 0x2000 .near false) ∧
    (wOp 8).addr 0x18 + 8 ≤ (wOp 8).addr 0x10 ∧ (wOp 8).addr 0x10 % 65536 + 8 ≤ 65536 ∧
    (witOp 8).poisonedLine 0x2000 8 = none ∧ 0xF00 + 16 ≤ 0xFC0 ∧ (witOp 8).fabric.remotes = [] ∧ (wOp 8).ended = false ∧
    (wOp 8).started = false ∧ (wOp 8).parked = none ∧ (wOp 8).fault = none ∧ (wOp 8).coll = none ∧ (wOp 8).driveKey = none ∧
    (wOp 8).release = none ∧ (wOp 8).pinned = [] ∧ (witOp 8).clocks.heardAll (wOp 8).die (wOp 8).clock = true ∧
    coreDie (windowPlace (wOp 8).roll).1 = (wOp 8).die := by
  decide +kernel

/-! ### Events -/

/-- A tracker of H0 for engines. -/
def witTracker (t : Tracker) : State :=
  { State.reset with package := { State.reset.package with trackers := [(4, .engine, t)] } }
/-- TrackerRules: the last entry, a full tracker, a ticketed port, a refused request, a claim, and a stale notice. -/
theorem wit_TrackerRules :
    ((witTracker { used := 255 }).tracker 4 .engine).used + 0 < 256 ∧ ¬((witTracker { used := 256 }).tracker 4 .engine).used < 256 ∧
    (∃ x ∈ ((witTracker { used := 1, tickets := [(3, 9)] }).tracker 4 .engine).tickets, x.1 = 3) ∧
    ((3, 9) ∈ ((witTracker { used := 255, refused := [(3, 9)] }).tracker 4 .engine).refused) ∧
    (∃ x ∈ ((witTracker { used := 1, held := [(3, 9, 0)], behind := [(3, 4, true), (3, 5, false)] }).tracker 4 .engine).held,
      x.1 = 3) ∧ ((witTracker { used := 1, held := [(3, 9, 0)] }).tracker 4 .engine).tickets = [] ∧
    ((witTracker { used := 255, held := [(2, 8, 0)], tickets := [(3, 9)] }).tracker 4 .engine).used +
      ((witTracker { used := 255, held := [(2, 8, 0)], tickets := [(3, 9)] }).tracker 4 .engine).held.length = 256 ∧
    (∃ x ∈ ((witTracker { used := 1, held := [(3, 9, 0)] }).tracker 4 .engine).held,
      x.2.2 + 1024 ≤ { witTracker { used := 1, held := [(3, 9, 0)] } with cycle := 1024 }.cycle) := by decide +kernel

/-- StartUpRules: a phase of the start-up. -/
def witBoot (f : Package → Package) : State :=
  { State.reset with package := f { State.reset.package with phase := .booting } }
/-- A manifest that passes, and one whose signature does not. -/
def wManifest (ok : Bool) : Manifest := ⟨ok, true, 0xFFFF, List.replicate 14 0⟩
theorem wit_StartUpRules : State.reset.package.phase = .reset ∧ (witBoot id).package.bootStep = 0 ∧
    (witBoot fun p => { p with bootStep := 1 }).package.bootStep = 1 ∧ (wManifest true).signatureOk = true ∧
    (wManifest false).signatureOk = false ∧
    ((witBoot fun p => { p with bootStep := 5, nextDie := 13, manifest := some (wManifest true) }).package.manifest.map
      fun m => m.digests.length) = some 14 ∧ (13 ∉ (witBoot id).package.released) ∧
    (∃ n, (n = 2 ∨ n = 4 ∨ n = 8) ∧ ∀ i, i < 8 → (List.replicate 8 8).getD i 0 = n) ∧
    13 ∉ (witBoot id).package.released ∧ (witBoot fun p => { p with bootStep := 6 }).package.bootStep = 6 ∧
    (∃ k ∈ (witBoot fun p => { p with keyLoads := [⟨0, 13, 2, 0⟩, ⟨64, 13, 1, 7⟩] }).package.keyLoads, k.keySlot = 0 ∧ k.ctl = 13) ∧
    (∀ n, n ≤ 2 → (witBoot fun p => { p with keyLoads := [⟨0, 13, 2, 0⟩, ⟨64, 13, n, 7⟩] }).package.keyLoads.find?
      (fun k => k.keySlot == 63 + 1 && k.ctl == 13) = some ⟨64, 13, n, 7⟩) ∧ (witBoot id).time < 7 ∧
    7 ≤ ({ witBoot id with time := 7 } : State).time ∧
    ({ witBoot id with host := { (witBoot id).host with ctxs := [(63, { phase := .creating })] } } : State).host.ctxs.getD {} 63 =
      { phase := .creating } ∧
    ((64, 13) ∈ (witBoot fun p => { p with zeroising := [(64, 13)] }).package.zeroising) ∧
    (0xA501#64).getLsbD 0 = true ∧ (0xA501#64).toNat / 2 ^ 8 % 2 ^ 8 = 0xA5 := by
  refine ⟨rfl, rfl, rfl, rfl, rfl, by decide, by decide, ⟨8, by decide, by decide⟩, by decide, rfl, by decide, ?_, by decide,
    by decide, by decide, by decide, by decide, by decide⟩
  intro n _
  rfl
theorem wit_manifest_version : Config.fusedMinVersion.toNat ≤ (wManifest true).secVersion.toNat := by
  have h := Config.fusedMinVersion.isLt
  simp only [wManifest]
  show _ ≤ 65535
  omega

/-- MailboxRules: a request in the mailbox at each stage of the protocol. -/
def witMail (bs : List Byte) (f : Package → Package) : State :=
  { witHost with package := f witHost.package, host := { witHost.host with mbBusy := true, mbIn := cellsWrite [] 0 bs } }
theorem witMail_inv (bs : List Byte) (f : Package → Package) : (witMail bs f).Inv :=
  ⟨show State.reset.mem.wf = true by decide, cellsWrite_wf (by decide) 0 bs, rfl⟩
theorem wit_MailboxRules : (witMail [] id).host.mbBusy = true ∧ (witMail [] id).package.spdmInner = none ∧ (witMail [] id).package.spdmPhase < 3 ∧
    3 ≤ (witMail [] fun p => { p with spdmPhase := 3 }).package.spdmPhase ∧
    (witMail [] fun p => { p with spdmSession := true }).package.spdmSession = true ∧
    (witMail [] fun p => { p with spdmHandshake := true }).package.spdmHandshake = true ∧
    (cellGet (witMail [0x13, 0x82, 1, 0] id).host.mbIn 2).toNat % 16 ≤ 1 ∧
    1 < (cellGet (witMail [0x13, 0x82, 2, 0] id).host.mbIn 2).toNat % 16 ∧
    (cellGet (witMail [0x13, 0xE0, 0, 17] id).host.mbIn 3).toNat ≤ 17 ∧
    (cellGet (witMail [0x13, 0xE0, 0, 0xFF] id).host.mbIn 3).toNat = 0xFF := by decide +kernel
/-- A chunk of a request: number `q`, last or not, its first chunk with the request's size. -/
def wChunk (q : Nat) (last : Byte) (size : Nat) (bs : List Byte) : List Byte :=
  [0x13, 0x85, last, 7] ++ natLe 4 q ++ natLe 4 bs.length ++ (if q = 0 then natLe 4 size else []) ++ bs
/-- MailboxRules: the first chunk of a long request, its last, a whole one, one that is out of turn, and a long response
with a chunk left. -/
theorem wit_MailboxRules_chunks :
    (∀ q last bs, (q, last, bs) ∈ [(0, 0, [1, 2]), (0, 1, [0x13, 0x84, 0, 0]), (1, (1 : Byte), [(9 : Byte)])] →
      let s := witMail (wChunk q last 4 bs) fun p => { p with spdmPhase := 2, spdmChunks := if q = 0 then none else some ⟨7, 1, 4, [0, 1, 0]⟩ }
      leNat (cellsRead s.host.mbIn 4 2) = q ∧ (cellGet s.host.mbIn 2).toNat % 2 = last.toNat ∧ (cellGet s.host.mbIn 3).toNat = 7 ∧
      cellsRead s.host.mbIn (if q = 0 then 16 else 12) (min (leNat (cellsRead s.host.mbIn 8 4)) 4096) = bs ∧
      (q = 0 → leNat (cellsRead s.host.mbIn 12 4) = 4)) ∧
    (witMail (wChunk 1 1 4 [9]) id).package.spdmChunks = none ∧
    (let s := witMail [0x13, 0x86, 0, 7, 2, 0] fun p => { p with spdmReply := some ⟨7, 2, 9, [1, 2]⟩ }
     leNat (cellsRead s.host.mbIn 4 2) = 2 ∧ (cellGet s.host.mbIn 3).toNat = 7 ∧ s.package.spdmReply = some ⟨7, 2, 9, [1, 2]⟩) := by
  refine ⟨?_, by decide +kernel⟩
  intro q last bs h
  fin_cases h <;> decide +kernel
/-- An ALARM_RAISE of the adapter's vendor: event `e`, level `l`, reserved byte `z`. -/
def wAlarm (e l z : Byte) : List Byte :=
  [0x13, 0xFE, 0, 0, 3, 0, 2] ++ natLe 2 Config.vendorId.toNat ++ [4, 0, 1, e, l, z]
theorem wit_AlarmRaise (e l z : Byte) : (witMail (wAlarm e l z) id).isAlarmRaise = true := by
  have hlen : (wAlarm e l z).length = 15 := by simp [wAlarm, natLe_length]
  have get (i : Nat) (hi : i < 15) : cellGet (cellsWrite [] 0 (wAlarm e l z)) i = (wAlarm e l z).getD i 0 := by
    have h := cellGet_cellsWrite_inside (m := []) (by decide) 0 (wAlarm e l z) (i := i) (by omega)
    rw [Nat.zero_add] at h
    rw [h, List.getD_eq_getElem _ _ (by omega)]
  have b (i : Nat) (hi : i < 15) : (witMail (wAlarm e l z) id).mbByte i = ((wAlarm e l z).getD i 0).toNat := by
    rw [← get i hi]; rfl
  have hv : Config.vendorId.toNat < 65536 := Config.vendorId.isLt
  unfold State.isAlarmRaise
  rw [b 4 (by omega), b 5 (by omega), b 6 (by omega), b 7 (by omega), b 8 (by omega), show vdPayload = 11 from rfl, b 11 (by omega)]
  simp [wAlarm, natLe]
  omega

/-- MailboxGoRules: lengths at both ends, and beyond them; DONE cleared. -/
theorem wit_MailboxGoRules : witHost.host.welomUp = true ∧ witHost.host.mbBusy = false ∧
    (0x10001#64).getLsbD 0 = true ∧ ((0x10001#64).extractLsb' 16 13).toNat = 1 ∧
    ((0x10000001#64).extractLsb' 16 13).toNat = 4096 ∧ (0x1#64).extractLsb' 16 13 = 0#13 ∧
    4096 < ((0x10010001#64).extractLsb' 16 13).toNat ∧ (4#64).getLsbD 0 = false := by decide
/-- AlarmPowerRules: each alarm level, excursions, dies asleep and awake, and each outcome of a power window at the edges. -/
theorem wit_AlarmPowerRules :
    State.reset.package.excursions = [] ∧
    (let p : Package := { State.reset.package with excursions := [⟨1, 3, .halt, .log, 0⟩] }
     p.excursions.find? (fun e => e.code == 1 && e.die == 3) = some ⟨1, 3, .halt, .log, 0⟩) ∧
    State.reset.time < 0 + usUnits ∧ 0 + usUnits ≤ ({ State.reset with time := usUnits } : State).time ∧ State.reset.package.alarms.getD 0 .log = .halt ∧
    State.reset.package.alarms.getD 3 .log = .erase ∧ State.reset.package.alarms.getD 6 .log = .log ∧
    State.reset.host.events.find? 0 = none ∧ State.reset.package.debugFails < 2 ∧ (State.reset.dieWake 0).awake = false ∧
    (wit.dieWake 0).awake = true ∧ (wit.dieWake 0).lastActive + 256 ≤ ({ wit with cycle := 256 } : State).cycle ∧
    wit.cycle < (wit.dieWake 0).lastActive + 256 ∧ 23 ∉ (wit.dieWake 0).clusters ∧
    State.reset.package.therm = false ∧ State.reset.package.topMove = false ∧ 2400 < (2401#16).toNat ∧
    (2400#16).toNat ≤ 2400 ∧ 2280 < (2281#16).toNat ∧ (2280#16).toNat ≤ 2280 ∧
    ({ State.reset.package with lowWindows := 8 } : Package).lowWindows + 1 < 10 ∧
    10 ≤ ({ State.reset.package with lowWindows := 9 } : Package).lowWindows + 1 := by decide

/-- A port that is up. -/
def witLink (f : Link → Link) : State :=
  { State.reset with fabric := { State.reset.fabric with links := [(0, f { phase := .up })] } }
/-- A flit header with its LCRC. -/
def wFlit (lo : Nat) (d : BeatBits) : BitVec 128 :=
  BitVec.ofNat 128 (lo + (crc32 (beatBytes d ++ natLe 12 lo)).toNat * 2 ^ 96)
theorem wit_flitOk (lo : Nat) (d : BeatBits) (h : lo < 64) :
    flitOk (wFlit lo d) d = true ∧ hdrField (wFlit lo d) 0 2 = lo % 4 ∧ (wFlit lo d).getLsbD 2 = decide (lo / 4 % 2 = 1) := by
  have hc := (crc32 (beatBytes d ++ natLe 12 lo)).isLt
  unfold flitOk wFlit hdrField
  generalize hx : (crc32 (beatBytes d ++ natLe 12 lo)).toNat = c at hc
  have e : (BitVec.ofNat 128 (lo + c * 2 ^ 96)).toNat = lo + c * 2 ^ 96 := by
    rw [BitVec.toNat_ofNat]; exact Nat.mod_eq_of_lt (by omega)
  have f : (lo + c * 2 ^ 96) / 2 ^ 0 % 2 ^ 96 = lo := by omega
  rw [BitVec.getLsbD, Nat.testBit_eq_decide_div_mod_eq, e, f, hx]
  simp only [Bool.and_eq_true, beq_iff_eq, decide_eq_decide]
  omega
/-- LinkRules: flits that pass and fail, a packet in reception, sequence numbers at the edges, lanes, and the widths that
are left. -/
theorem wit_LinkRules :
    headerLen 0x10000000000 = 1 ∧ flitOk 64 0 = false ∧
    ((witLink fun l => { l with rx := some ⟨{}, none, 2, []⟩ }).link 0).rx = some ⟨{}, none, 2, []⟩ ∧
    (0#16) = ((witLink id).link 0).rxSeq + 1 ∧ (1#16) = ((witLink id).link 0).rxSeq + 2 ∧
    (0x7FFF#16) = ((witLink id).link 0).rxSeq + 32768#16 ∧ (0x8000#16) = ((witLink id).link 0).rxSeq + 32769#16 ∧
    packetEvent 1 = some .readRequest ∧ (({ } : Packet).dst = (witLink id).ownChip (portHub 0)) ∧
    ((witLink fun l => { l with txSeq := 1, replay := [{ pseq := 0 }, { pseq := 1 }] }).link 0).acked = 0xFFFF ∧
    ((witLink id).link 0).uses 15 = true ∧ ((witLink id).link 0).failed.getLsbD 15 = false ∧
    ((witLink fun l => { l with waitAnswer := true, stopped := true }).link 0).waitAnswer = true ∧
    65536 ≤ ((witLink fun l => { l with sinceResync := 65536 }).link 0).sinceResync ∧
    (State.reset.link 17).phase = .down ∧ portHub 17 ∉ State.reset.package.held ∧
    ((witLink fun l => { l with replay := [{}], replayAt := some 0 }).link 0).replayAt = some 0 ∧
    0 ≤ (witLink id).time ∧ (witLink id).time < 1 ∧
    ((witLink fun l => { l with phase := .training }).link 0).phase = .training ∧
    ((witLink fun l => { l with waitAnswer := true, answerAt := 1 }).link 0).answerAt = 1 ∧
    15 ∈ ((witLink fun l => { l with lossOfLock := [15] }).link 0).lossOfLock ∧ ((witLink id).link 0).lossOfLock = [] ∧
    ((witLink fun l => { l with phase := .retraining, chosen := some (1, 0) }).link 0).chosen = some (1, 0) ∧
    groupMask 1 0 &&& 0x8000#16 = 0 ∧ groupMask 1 0 &&& 1#16 ≠ 0 ∧ ((witLink id).link 0).gotReq ≠ 3 := by decide +kernel
/-- LinkRules: a width that is clean of the failed lanes, the first such, and none. -/
theorem wit_LinkRules_width :
    (∀ lane, lane < 16 → lane / (16 / 2 ^ 1) = 0 → (0x8000#16).getLsbD lane = false) ∧
    (∀ w g : Nat, w ≤ 2 → g < 2 ^ w → ∃ lane, lane < 16 ∧ lane / (16 / 2 ^ w) = g ∧ (0x8888#16).getLsbD lane = true) := by
  refine ⟨by decide, ?_⟩
  intro w g hw hg
  have : w = 0 ∨ w = 1 ∨ w = 2 := by omega
  rcases this with rfl | rfl | rfl
  · obtain rfl : g = 0 := by omega
    exact ⟨3, by decide⟩
  · have : g = 0 ∨ g = 1 := by omega
    rcases this with rfl | rfl
    exacts [⟨3, by decide⟩, ⟨11, by decide⟩]
  · have : g = 0 ∨ g = 1 ∨ g = 2 ∨ g = 3 := by omega
    rcases this with rfl | rfl | rfl | rfl
    exacts [⟨3, by decide⟩, ⟨7, by decide⟩, ⟨11, by decide⟩, ⟨15, by decide⟩]
/-- HubRegisterRules: every link down and one up; chip numbers 511 and 512; ports 17 and 18. -/
theorem wit_HubRegisterRules : witHost.host.welomUp = true ∧ witHost.package.phase = .ready ∧
    (∀ p, p < 18 → (witHost.link p).phase = .down) ∧ ((witLink id).link 0).phase ≠ .down ∧
    ((0x1FF#64).extractLsb' 0 12).toNat ≤ 511 ∧ 511 < ((0x200#64).extractLsb' 0 12).toNat ∧
    ((0x89#23).extractLsb' 3 5).toNat ≤ 17 ∧ ((0x89#23).extractLsb' 1 2).toNat = 0 ∧ 17 < ((0x91#23).extractLsb' 3 5).toNat := by
  decide +kernel

/-- A chip whose fabric context 5 is its context 0, with heap, scratchpad and page table of the placed machine. -/
def witTarget : State := { witHost with
  cores := wit.cores
  fabric := { witHost.fabric with fctxmap := [(5, 1)] }
  host := { witHost.host with ctxs := [(0, { phase := .live, hwb := 0, hwl := 0x1000, ptbase := 0x100 })] } }
/-- A request of chip 3 for eight bytes. -/
def wReq (op : BitVec 8) (va : BitVec 57) : Packet :=
  { src := 3, op := op, fctx := 5, vaddr := va, srcunit := 9, reqid := 4096, size := 3, payload := [⟨0, false⟩] }
/-- Its filter. -/
def wFilter (d : List (BitVec 32 × Packet)) (i : List (BitVec 32)) : DupFilter := { newest := 8191, done := d, inProgress := i }
def witFilter (f : DupFilter) : State :=
  { witTarget with fabric := { witTarget.fabric with filters := [((3, 9), f)] } }
/-- RemoteTargetRules: ages at the edges of the window, a reply kept, a request in progress, an unmapped context, and what
the check of the address finds. -/
theorem wit_RemoteTargetRules :
    (wReq 1 0).tepoch = (witTarget.hubOf 4).epoch ∧ ({ wReq 1 0 with tepoch := 1 } : Packet).tepoch ≠ (witTarget.hubOf 4).epoch ∧
    (wFilter [] []).newest - (wReq 1 0).reqid = 4095#32 ∧ (wFilter [] []).newest - 4095#32 = 4096#32 ∧
    (wFilter [] []).newest - 8192#32 = 0xFFFFFFFF#32 ∧
    (witFilter (wFilter [(4096, { op := 0x02 })] [])).filter? (wReq 1 0) = some (wFilter [(4096, { op := 0x02 })] []) ∧
    (wFilter [(4096, { op := 0x02 })] []).done.find? (·.1 == (wReq 1 0).reqid) = some ((wReq 1 0).reqid, { op := 0x02 }) ∧
    packetEvent 2 = some .readReply ∧ (wReq 1 0).reqid ∈ (wFilter [] [4096]).inProgress ∧
    witTarget.fctxOf 5 = some 0 ∧ witTarget.fctxOf 6 = none ∧
    witTarget.targetCheck 0 0x1FFFFFF80000100 8 .load false = .at_ (.sram 0 0x100) ∧
    witTarget.targetCheck 0 0x1FFFFFF80000100 8 .store false = .at_ (.sram 0 0x100) ∧
    witTarget.targetCheck 0 0x1FFFFFF80001000 8 .load false = .deny 0x010B ∧ pktBytes (wReq 1 0) = 8 ∧
    (wReq 1 0).mapped = none ∧ (wReq 1 0).headPoison = false ∧ (wReq 1 0).slipn = 0 ∧ pktKind (wReq 5 0) = .atomic ∧
    pktBytes (wReq 5 0) = 8 ∧
    (∀ op ∈ [(1 : BitVec 5), 3], witTarget.targetCheck 0 0x1FFFFFF80000100 8 .atomic (atomOfPkt { wReq 5 0 with aop := op }).pcie =
      .at_ (.sram 0 0x100)) := by decide +kernel
theorem witTarget_inv : witTarget.Inv := by unfold State.Inv; decide +kernel
/-- The same with page tables: a leaf that has MOVED, and a page that is not present. -/
def witMoved (leaf : Nat) : State :=
  let bs := cellsWrite (cellsWrite (cellsWrite [] 0x100000 (natLe 8 0x101002)) 0x101000 (natLe 8 0x102002)) 0x102008 (natLe 8 leaf)
  { witTarget with mem := { witTarget.mem with bytes := bs } }
theorem wit_RemoteTarget_pages : (∃ w, (witMoved 0x40000407).targetCheck 0 0x40000000 8 .load false = .moved w) ∧
    ∃ level, (witMoved 1).targetCheck 0 0x40000000 8 .load false = .page false level :=
  ⟨⟨newHome 2 0x40000407, by decide +kernel⟩, 2, by decide +kernel⟩
/-- RemoteTargetRules: an atomic on a doubleword of memory, whose beat is good and whose line is readable. -/
theorem wit_RemoteTarget_atomic : (witMoved 0x1F).targetCheck 0 0x40000000 8 .atomic false = .at_ (.phys 0 .near false) ∧
    (witMoved 0x1F).poisonedLine 0 8 = none ∧ (∀ l ∈ linesOf 0 8, (witMoved 0x1F).lineReadable (ctxSlot 0) l = true) := by
  decide +kernel
/-- HOLD_FULL: a full hold queue. -/
theorem wit_RemoteTarget_full : 256 ≤ ({ hold := List.replicate 256 ⟨0, {}, [], 0⟩ } : Hub).hold.length ∧
    (0 : BitVec 2) ≠ ({ wReq 3 0 with slipn := 1 } : Packet).slipn := by
  rw [List.length_replicate]
  decide

/-- A remote request of the placed task, and the chip with it outstanding. -/
def wRemote (op : BitVec 8) (use : RemoteUse) : RemoteReq :=
  { id := 7, pkt := { dst := 3, op := op, fctx := 5, vaddr := 0x38, srcunit := 9, reqid := 4, size := 3 }, hub := 5, port := none
    deadline := 0, ctx := 0, use := use }
def witRemote (r : RemoteReq) : State :=
  { wit with
    fabric := { wit.fabric with remotes := [r] }
    tasks := [{ placeTask with infl := [{ id := 1, reg := .g 2, mask := BitVec.allOnes 64, val := .word 0, ord := 0, remote := true },
      { id := 2, reg := .g 3, mask := BitVec.allOnes 64, val := .word 0, ord := 1, remote := true }] }] }
/-- The task of it. -/
def remoteTask : Task := { placeTask with
  infl := [{ id := 1, reg := .g 2, mask := BitVec.allOnes 64, val := .word 0, ord := 0, remote := true },
    { id := 2, reg := .g 3, mask := BitVec.allOnes 64, val := .word 0, ord := 1, remote := true }] }
/-- RemoteReplyRules: replies to a load, a 128-bit atomic and a store; each status; forwards and reissues at their limits. -/
theorem wit_RemoteReplyRules :
    (∀ u, u = RemoteUse.load 0 1 none 8 false [] ∨ u = .pair 0 1 2 ∨ u = .store 0 →
      (witRemote (wRemote 1 u)).remoteOf { src := 3, srcunit := 9, reqid := 4 } = some (wRemote 1 u) ∧
      (witRemote (wRemote 1 u)).fabric.remotes.find? (·.id == 7) = some (wRemote 1 u) ∧
      (wRemote 1 u).use.tid? = some 0) ∧
    (witRemote (wRemote 1 (.store 0))).task? 0 = some remoteTask ∧ remoteTask.phase = .bound ∧ remoteTask.wait = none ∧
    (remoteTask.infl.find? (·.id == 1)).isSome = true ∧ (remoteTask.infl.find? (·.id == 2)).isSome = true ∧
    remoteTask.faults.length < 8 ∧ (∀ n ∈ [1, 2, 3, 4, 5], (BitVec.ofNat 64 n).toNat % 256 = n) ∧
    (0x34#64).toNat % 4 = 0 ∧ (0x34#64).toNat / 4 % 4 ≠ 3 ∧ (0x04#64).toNat / 4 % 4 ≠ 3 ∧
    (0x04#64).extractLsb' 4 12 = (witRemote (wRemote 1 (.store 0))).ownChip 5 ∧ (wRemote 1 (.store 0)).heldAtUnit = false ∧
    (∀ e ∈ remoteTask.infl, e.toShadow = false) ∧ (wRemote 5 (.pair 0 1 2)).pkt.op = 0x05 ∧
    ({ wRemote 1 (.store 0) with forwards := 3 } : RemoteReq).forwards < 4 ∧
    4 ≤ ({ wRemote 1 (.store 0) with forwards := 4 } : RemoteReq).forwards ∧
    0 < ({ wRemote 1 (.store 0) with refusals := 1 } : RemoteReq).refusals ∧
    (wRemote 1 (.store 0)).deadline ≤ (witRemote (wRemote 1 (.store 0))).cycle := by
  refine ⟨?_, ?_⟩
  · rintro u (rfl | rfl | rfl) <;> decide +kernel
  · decide +kernel

/-- An entry of the slip table. -/
def witSlip (i : Nat) (e : SlipEntry) : State :=
  { witHost with fabric := { witHost.fabric with slips := [(i, e)] } }
/-- SlipTableRules: each phase of an entry, the last entry of either half, its time at the edge, and a held write. -/
theorem wit_SlipTableRules :
    ((witSlip 2047 { phase := .landed }).slipEntry 2047).phase = .landed ∧
    ((witSlip 2048 { phase := .expired }).slipEntry 2048).phase = .expired ∧
    ((witSlip 2048 { phase := .pending, count := 3 }).slipEntry 2048).count = (0x000#12 ++ 2048#12 ++ 3#8).setWidth 8 ∧
    (0x000#12 ++ 2048#12 ++ 3#8 : BitVec 32).toNat / 2 ^ 8 % 2 ^ 12 = 2048 ∧
    ((witSlip 2047 { phase := .landed }).slipEntry 2047).leftAt + 1048576 ≤
      ({ witSlip 2047 { phase := .landed } with cycle := 1048576 } : State).cycle ∧ 5 ∉ witHost.package.held ∧
    5 ∈ ({ witHost with package := { witHost.package with held := [5] } } : State).package.held ∧
    (({ hold := [⟨1, {}, [0x0080003], 0⟩] } : Hub).hold.find? (·.id == 1)) = some ⟨1, {}, [0x0080003], 0⟩ ∧
    (1#64).getLsbD 0 = true ∧ (0#64).getLsbD 0 = false ∧ (4#64).toNat % 4 = 0 ∧ (2#64).toNat % 4 = 2 := by decide +kernel

/-- A router output that exists and one that does not; a bank without conflict, one with; a bank loaded. -/
def wRouter : RouterOut := ⟨0, 0, 23, 12⟩
/-- A girth crossing in use in slot 0 from input 2 as circuit 1. -/
def wEntry : BitVec 32 := 0x109
def witBank : State := { witHost with
  fabric := { witHost.fabric with timetables := [(wRouter, { bank0 := [wEntry], switchAt := some 256 })] } }
theorem wit_TimetableRules : routerThere wRouter = true ∧ routerThere ⟨0, 0, 24, 12⟩ = false ∧
    witHost.ttConflict wRouter [] = false ∧
    (witBank.timetable wRouter).switchAt = some 256 ∧ 256 % 256 = 0 ∧
    ((witBank.timetable wRouter).now.getD (256 % 256) 0).getLsbD 0 = true ∧
    (((witBank.timetable wRouter).now.getD (256 % 256) 0).extractLsb' 2 6).toNat = 2 ∧
    (((witBank.timetable wRouter).now.getD (256 % 256) 0).extractLsb' 8 12).toNat = 1 ∧
    witBank.fabric.circuitWait = [] ∧ (witBank.timetable wRouter).free ≤ 256 ∧
    256 < ({ witBank.timetable wRouter with free := 257 } : Timetable).free ∧
    (wReq 3 0).payload ≠ [] ∧ ({ op := 0x0E } : Packet).payload = [] := by decide +kernel
theorem wit_TimetableRules_conflict : witHost.ttConflict wRouter [0x003] = true ∧
    ({ witHost with fabric := { witHost.fabric with timetables := [(wRouter, { bank0 := [wEntry] })] } } : State).ttConflict
      ⟨0, 0, 23, 11⟩ [wEntry] = true := by decide +kernel

/-- An open collective of an operation. -/
def wColl : CollState := { collid := 9, members := [0, 3], fctx := 5, limit := 65536, lastProgress := 0 }
def wCollOp (eop : Nat) : EngineOp := { wOp 8 with eop := eop, coll := some wColl, pblk := 0xF80 }
def witColl (eop : Nat) : State := { witHost with engines := { ops := [wCollOp eop], proj := [] } }
/-- CollectiveRules: data that agrees and does not, none open, one completed at the edge of its time, a limit at its edge. -/
theorem wit_CollectiveRules :
    (∀ e, e = 0x0A ∨ e = 0x0B → (witColl e).collOp 9 = some (wCollOp e, wColl) ∧ (wCollOp e).pblk % 128 = 0 ∧
      (wCollOp e).roll % 16 = 0 ∧ (witColl e).engines.ops.find? (·.id == 5) = some (wCollOp e)) ∧
    collAgrees (wCollOp 0x0A) (.bucket 0 0 1 []) = true ∧ collAgrees (wCollOp 0x0B) (.bucket 0 0 1 []) = false ∧
    (∀ e, e = 0x0A ∨ e = 0x0B → sramKey (windowPlace (wCollOp e).roll).1 (windowPlace (wCollOp e).roll).2 + 16 ≤
      sramKey (windowPlace (wCollOp e).pblk).1 (windowPlace (wCollOp e).pblk).2) ∧
    witHost.collOp 9 = none ∧ wColl.lastProgress + wColl.limit ≤ ({ witHost with cycle := 65536 } : State).cycle ∧
    ({ witHost with cycle := 65535 } : State).cycle < wColl.lastProgress + wColl.limit ∧
    (∃ d ∈ [((9 : BitVec 32), 1)], d.1 = 9 ∧ 1048577 ≤ d.2 + 1048576) := by
  refine ⟨?_, by decide +kernel, by decide +kernel, ?_, by decide +kernel⟩
  all_goals rintro e (rfl | rfl) <;> decide +kernel
theorem witColl_inv (e : Nat) : (witColl e).Inv := ⟨show State.reset.mem.wf = true by decide, rfl, rfl⟩

/-- The placed machine READY, its Welom Link up: context 0 LIVE, with its first 256 MiB at themselves. -/
def wCtx : Ctx := { phase := .live, hwl := 0x1000, frcnt := 4 }
def witCtx : State := { wit with cur := none, host := { witHost.host with ctxs := [(0, wCtx)] } }
/-- Bytes put in its memory. -/
def witMem (a : Nat) (bs : List Byte) (s : State) : State := { s with mem := { s.mem with bytes := cellsWrite s.mem.bytes a bs } }

/-- EdgeRules: four dies in a row, two failed links that part the hubs, and two that do not. -/
def witHubs : State := { witHost with package := { witHost.package with released := [4, 1, 0, 5] } }
/-- One step of the girth. -/
def wNext (failed : List (Nat × Nat)) (a b : Nat) : Prop :=
  (b ∈ witHubs.package.released ∧ b ∉ witHubs.package.held) ∧ girthLinked b a = true ∧ (a, b) ∉ failed ∧ (b, a) ∉ failed
theorem wit_EdgeRules_girth : (∀ d ∈ witHubs.package.released, d < 14) ∧ 4 ∈ witHubs.package.released ∧
    4 ∉ witHubs.package.held ∧ 5 ∈ witHubs.package.released ∧ 5 ∉ witHubs.package.held ∧
    2 ≤ [((0 : Nat), (1 : Nat)), (2, 3)].length ∧ 2 ≤ [((2 : Nat), (0 : Nat)), (2, 3)].length := by decide +kernel
theorem wit_EdgeRules_whole : Relation.ReflTransGen (wNext [(2, 0), (2, 3)]) 4 5 :=
  ((Relation.ReflTransGen.single (b := 1) (by unfold wNext; decide +kernel)).tail (c := 0)
    (by unfold wNext; decide +kernel)).tail (by unfold wNext; decide +kernel)
theorem wit_EdgeRules_parted : ¬Relation.ReflTransGen (wNext [(0, 1), (2, 3)]) 4 5 := by
  have key : ∀ x, Relation.ReflTransGen (wNext [(0, 1), (2, 3)]) 4 x → x = 4 ∨ x = 1 := by
    intro x hx
    induction hx with
    | refl => exact .inl rfl
    | tail _ hs ih =>
      obtain ⟨⟨hr, _⟩, hl, hn, hm⟩ := hs
      rw [show witHubs.package.released = [4, 1, 0, 5] from rfl] at hr
      simp only [List.mem_cons, List.not_mem_nil, or_false] at hr
      rcases ih with rfl | rfl <;> rcases hr with rfl | rfl | rfl | rfl <;> revert hl hn hm <;> decide
  intro h
  exact absurd (key 5 h) (by decide)
/-- EdgeRules: CXL devices of both types, an Ultra Ethernet port that is up, data for another chip and for this one, and
remote accesses of the scratchpad. -/
theorem wit_EdgeRules :
    let l : List CxlDevice := [⟨0, 3, 2 ^ 43, []⟩, ⟨3, 1, 2 ^ 42, []⟩, ⟨2, 3, 0, [2 ^ 41, 2 ^ 41]⟩]
    let up : State := { witCtx with fabric := { witCtx.fabric with uet := [(3, true)] } }
    (l.map (·.port)).Nodup ∧ (∀ d ∈ l, d.port < 4) ∧ (l.map fun d => d.capacity + d.logical.sum).sum ≤ 2 ^ 44 ∧
    up.fabric.uet.getD false 3 = true ∧ up.fabric.uet.getD false 4 = false ∧ up.ownChip 4 = 0 ∧ up.ownChip 5 = 0 ∧
    5 ∉ up.package.held ∧ up.package.phase = .ready ∧ up.fabric.girthDown = [] ∧ up.uetConn 4 9 = {} ∧
    UetPacket.fits (.rmaRead 9 0 0x1FFFFFF80000FF8 8) = true ∧ (∀ k psn again, UetPacket.rmaRead 9 0 0 8 ≠ .ack k psn again) ∧
    (({ unacked := [(3, .rmaRead 9 0 0 8)] } : UetConn).unacked.find? (·.1 == 3)) = some (3, .rmaRead 9 0 0 8) ∧
    up.collOp 9 = none ∧ (∀ d ∈ up.fabric.collDone, d.1 ≠ (9 : BitVec 32)) ∧ (up.ctx 0).phase = .live ∧
    up.ctxAccess 0 0x1FFFFFF80000FF8 8 .store = .ok (.sram 0 0xFF8) ∧
    up.ctxAccess 0 0x1FFFFFF80000FF8 8 .load = .ok (.sram 0 0xFF8) := by
  refine ⟨by decide, by decide, by decide, by decide +kernel, by decide +kernel, by decide +kernel, by decide +kernel,
    by decide +kernel, by decide +kernel, by decide +kernel, by decide +kernel, by decide, ?_, by decide, by decide +kernel⟩
  intro k psn again h
  cases h

/-- ApertureRules: both modes, the last bytes of a page, a poisoned place and one that does not exist. -/
def witApCtx : State := { witCtx with host := { witCtx.host with apMode := true } }
theorem wit_ApertureRules :
    witCtx.host.welomUp = true ∧ witCtx.package.phase = .ready ∧ 0xFFF8 % 65536 + 8 ≤ 65536 ∧ 0xFFF8 % 8 = 0 ∧
    (∀ kind, kind = .load ∨ kind = .store ∨ kind = .atomic →
      witCtx.aperturePiece 0xFFF8 8 kind = .ok (.phys 0xFFF8 .system false) ∧
      witApCtx.aperturePiece 0xFFF8 8 kind = .ok (.phys 0xFFF8 .near false)) ∧
    witCtx.poisonedLine 0xFFF8 8 = none ∧ (∀ l ∈ linesOf 0xFFF8 8, witCtx.lineReadable 0 l = true) ∧
    (∀ l ∈ linesOf 0xFFF8 8, witApCtx.lineReadable (ctxSlot 0) l = true) ∧
    witCtx.aperturePiece (2 ^ 51) 8 .load = .error (2 ^ 51) ∧ witCtx.host.events.find? 0 = none ∧
    witHost.package.phase = .ready ∧ State.reset.host.welomUp = false := by
  refine ⟨by decide +kernel, by decide +kernel, by decide, by decide, ?_, by decide +kernel⟩
  rintro k (rfl | rfl | rfl) <;> decide +kernel
theorem wit_no_roll_waits : ∀ x ∈ witCtx.tasks, ∀ v k e, x.wait ≠ some (.roll v k e) := by
  intro x hx v k e
  rw [show witCtx.tasks = [placeTask] from rfl, List.mem_singleton] at hx
  subst hx
  simp [show placeTask.wait = none by decide +kernel]

/-- RegisterWriteRules: the registers named, at the ends of their ranges. -/
theorem wit_RegisterWriteRules : witHost.host.welomUp = true ∧ witHost.package.phase = .ready ∧ witHost.Inv ∧
    0x21000 ≤ 0x21FF8 ∧ 0x21FF8 < 0x22000 ∧ 0x21FF8 % 8 = 0 ∧ State.reset.package.phase ≠ .ready := by
  refine ⟨rfl, rfl, ?_, by decide, by decide, by decide, by decide⟩
  unfold State.Inv; decide +kernel

/-- A queue of context 0, not enabled, with LOG2 at its limits; the same enabled as queue 0. -/
def wQueue (log2 : BitVec 5) : Queue := { base := 0x1000, log2 := log2, weight := 1 }
def witQueue (x : Queue) (f : HostSide → HostSide) : State := { witCtx with host := { f witCtx.host with queues := [(0, x)] } }
/-- QueueContextRules. -/
theorem wit_QueueContextRules :
    (∀ k ∈ [(4 : BitVec 5), 16], let s := witQueue (wQueue k) id
      (s.queue 0).enable = false ∧ (s.ctx 0).phase = .live ∧ 4 ≤ (s.queue 0).log2.toNat ∧ (s.queue 0).log2.toNat ≤ 16 ∧
      ∀ n ∈ List.range 64, (s.queue n).enable = false) ∧
    (witQueue { wQueue 4 with enable := true } id).queue 0 = { wQueue 4 with enable := true } ∧
    ((witQueue (wQueue 3) id).queue 0).log2.toNat < 4 ∧ 16 < ((witQueue (wQueue 17) id).queue 0).log2.toNat ∧
    (1#64).getLsbD 0 = true ∧ (1#64).extractLsb' 1 6 = 0 ∧ (witCtx.ctx 63).phase = .free ∧ (witCtx.ctx 63).asid = (witCtx.ctx 0).asid ∧
    (∀ m ∈ List.range 64, (witHost.ctx m).phase = .free) := by decide +kernel

/-- A card of a KIND whose IMAGE is an address: 64 bytes, bits 31:16 as given. -/
def wCard (kind hi image : Nat) : List Byte := natLe 2 kind ++ natLe 2 hi ++ natLe 4 7 ++ natLe 8 image ++ List.replicate 48 0
/-- Queue 0 of context 0 enabled, with a card at its slot 0. -/
def witCard (bs : List Byte) : State :=
  witMem 0x40000 bs (witQueue { wQueue 4 with enable := true, wr := 1 } fun h => { h with images := [(0, 0x50000, 9)] })
/-- A kernel image of one kernel of one stage, 304 bytes, with its geometry: one task. -/
def wImage (magic gen : Nat) : List Byte :=
  natLe 4 magic ++ natLe 2 1 ++ natLe 2 128 ++ natLe 8 304 ++ natLe 4 (2 ^ gen) ++ natLe 2 1 ++ natLe 2 1 ++ natLe 4 0x80 ++
  List.replicate 0x2C 0 ++ natLe 4 9 ++ List.replicate 52 0 ++
  natLe 2 (1 + 256 * gen) ++ List.replicate 6 0 ++ natLe 8 0 ++ natLe 8 304 ++ natLe 4 0xA0 ++ List.replicate 4 0 ++
  natLe 4 0x100 ++ List.replicate 28 0 ++ natLe 4 0x1000 ++ natLe 4 1 ++ natLe 4 0xE0 ++ List.replicate 20 0 ++
  natLe 8 1 ++ natLe 8 1 ++ List.replicate 56 0
def witImage (magic gen : Nat) : State :=
  { witMem 0x50000 (wImage magic gen) (witCard (wCard 1 0 0x50000)) with nextLnum := 1 }
/-- JobCardRules: a card of each KIND, one of no KIND, a queue past its end and one that is not mapped. -/
theorem wit_JobCardRules_kinds :
    (∀ k ∈ [0, 1, 2, 3], let s := witCard (wCard k (if k = 2 then 1 else 0) (if k = 3 then 0 else 0x50000))
      s.cardTurn = some 0 ∧ (∀ c ∈ s.host.cards, c.id ≠ s.host.nextCard) ∧ (s.queue 0).wr - (s.queue 0).rd = 1 ∧
      ∃ b, s.peekCard 0 = some b ∧ cardKind b = k ∧ cardOk b = decide (k ≠ 0) ∧ cardNdep b = 0) ∧
    (witQueue { wQueue 4 with enable := true, wr := 17 } id).cardTurn = some 0 ∧
    (witQueue { wQueue 4 with enable := true, wr := 16, base := 0x400000 } id).peekCard 0 = none ∧
    (witQueue { wQueue 4 with enable := true, wr := 16, base := 0x400000 } id).cardTurn = some 0 := by
  refine ⟨?_, by decide +kernel⟩
  intro k hk
  fin_cases hk <;> refine ⟨by decide +kernel, by decide +kernel, by decide +kernel, _, rfl, ?_⟩ <;> decide +kernel
/-- JobCardRules: an image that is good, one with another first word, and one for another generation. -/
theorem wit_JobCardRules_image :
    (witImage 0x4D495849 3).checkImage 0 0x50000 0 = .ok ⟨[0x50100], 1, 0x1000, 0x500E0, 9⟩ ∧
    (witImage 0x4D495849 3).readGeometry 0 0x500E0 1 0x1000 = some [1] ∧
    (witImage 0x4D495849 3).readGeometry 0 0x500E4 1 0x1000 = none ∧
    (witImage 0x4D495848 3).checkImage 0 0x50000 0 = .error (5, 0) ∧
    (witImage 0x4D495849 4).checkImage 0 0x50000 0 = .error (3, 0) ∧
    (∀ l ∈ (witImage 0x4D495849 3).launches, l.lnum ≠ (witImage 0x4D495849 3).nextLnum) ∧ (witImage 0x4D495849 3).host.cards = [] := by decide +kernel
/-- JobCardRules: a card that has ended and writes its record to the scratchpad. -/
def wEnded : Card := { id := 4, queue := 0, ctx := 0, pos := 0, edges := [], status := some (6, 0, 0)
                       bits := beatOf (natLe 4 0x203 ++ List.replicate 28 0 ++ natLe 8 0x1FFFFFF80000FF0 ++ List.replicate 24 0) }
def witEnded : State := { witCtx with host := { witCtx.host with cards := [wEnded] } }
theorem wit_JobCardRules_complete : witEnded.host.cards.find? (·.id == wEnded.id) = some wEnded ∧ wEnded.fromDrive = none ∧
    witEnded.cardEnd wEnded = some (6, 0, 0) ∧ cardIrq wEnded.bits = true ∧ cardDone wEnded.bits = 0x1FFFFFF80000FF0 ∧
    cardDone wEnded.bits < 2 ^ 57 ∧ cardDone wEnded.bits % 16 = 0 ∧ (witEnded.ctx wEnded.ctx).hotbase = 0 ∧
    witEnded.ctxAccess wEnded.ctx (cardDone wEnded.bits) 16 .store = .ok (.sram 0 0xFF0) := by decide +kernel
/-- A launch that has retired, with a store of its task to a peer still on its way. -/
def witWrites : State := { witRemote (wRemote 3 (.store 0)) with
  launches := [{ placeLaunch with phase := .retiring }]
  host := { witHost.host with cards := [{ wEnded with status := none, lnum := some 0 }] } }
theorem wit_JobCardRules_writes : witWrites.launchWrites 0 = true ∧
    ({ wEnded with lnum := some 0 } : Card).lnum.bind witWrites.launch? = some { placeLaunch with phase := .retiring } := by
  decide +kernel
theorem witEnded_inv : witEnded.Inv := by unfold State.Inv; decide +kernel

/-- A drive word: CTL, SLOTV and NA of slot 0's command, the other control fields as given. -/
def wDrive (ctl more : Nat) (cmd : Nat) : BitVec 512 := BitVec.ofNat 512 (ctl + more + cmd * 2 ^ 64)
/-- A command with its block at window offset 0xF80 and its roll at 0xF00. -/
def wCmd (eop : Nat) : CmdWord := BitVec.ofNat 64 (eop + 0xF80 / 64 * 2 ^ 8 + 0xF00 / 16 * 2 ^ 33)
/-- A runner of card 4 that plays one word, REPEATed no more. -/
def wRunner (w : BitVec 512) : Runner :=
  { card := 4, ctx := 0, period := 64, dbind := [⟨2, 0, 0⟩], dskew := [], prog := [w, 0, 0], startAt := 0 }
/-- A drive card, waiting and being played. -/
def wDriveCard : Card :=
  { id := 4, queue := 0, ctx := 0, pos := 0, edges := [], bits := beatOf (wCard 2 1 0x60000) }
def witDrive (w : BitVec 512) : State := witMem 0x60000 ((List.range 64).map fun i => w.extractLsb' (8 * i) 8)
  { witCtx with host := { witCtx.host with cards := [wDriveCard], driveWaiting := [4], images := [] } }
def witRunner (w : BitVec 512) (f : Runner → Runner) : State :=
  { witDrive w with host := { (witDrive w).host with runners := [(0, f (wRunner w))], driveWaiting := []
                                                     ctxs := [(0, { wCtx with dcond := 1 })] } }
/-- DriveRules: a binding in the table and one outside it; programs that are good, bad, and that fail to read. -/
theorem wit_DriveRules_start : witHost.host.activeHub = some 4 ∧ (witDrive 0).driveNext = some wDriveCard ∧
    cardField wDriveCard.bits 16 16 = 1 ∧
    (witDrive 0).coachRead wDriveCard.ctx (cardImage wDriveCard.bits) 64 = .ok (List.replicate 64 0) ∧
    driveBad [0] ((witDrive 0).ctx 0).dbind = none ∧ driveBad [5] ((witDrive 0).ctx 0).dbind = some 0 ∧
    (witDrive 0).coachRead 0 0x10000000 64 = .error 0 := by decide +kernel
/-- DriveRules: words of every CTL, a wait whose condition holds, one that goes on, and one at its limit. -/
theorem wit_DriveRules_words :
    (witRunner 0 id).host.runners.find? 0 = some (wRunner 0) ∧ (wRunner 0).prog[(wRunner 0).w]? = some 0 ∧
    dwCtl 0 = 0 ∧ dwCtl (wDrive 4 0 0) = 4 ∧ dwCtl (wDrive 3 (2 ^ 32) 0) = 3 ∧ dwCtl (wDrive 1 (2 ^ 32) 0) = 1 ∧
    (wRunner 0).isDead 0 = false ∧ (wRunner 0).waited = 0 ∧ (wRunner 0).rep = none ∧ (wRunner 0).ending = none ∧
    dwCtl (wDrive 2 (2 ^ 32) 0) = 2 ∧ dwField (wDrive 2 (2 ^ 32) 0) 24 2 = 0 ∧
    (((witRunner 0 id).ctx 0).dcond).getLsbD (dwField (wDrive 2 (2 ^ 32) 0) 16 6) = true ∧
    (((witRunner 0 id).ctx 0).dcond).getLsbD (dwField (wDrive 2 (2 ^ 16 + 2 ^ 32) 0) 16 6) = false ∧
    dwArg (wDrive 2 (2 ^ 32) 0) = 1 ∧ dwArg (wDrive 2 (2 ^ 33) 0) = 2 ∧ dwArg (wDrive 2 0 0) = 0 ∧
    dwField (wDrive 2 (2 ^ 24 + 2 ^ 32) 0) 24 2 = 1 ∧ dwSlotv (wDrive 0 (2 ^ 5) 1) 0 = true ∧
    3 ≤ ({ wRunner 0 with w := 3 } : Runner).w ∧ (wRunner 0).prog.length = 3 := by decide +kernel
/-- DriveRules: commands of a runner, within their allocation and outside it, at a queue with room and at a full one;
a launch from a drive command. -/
theorem wit_DriveRules_commands : ((witRunner 0 id).ctx 0).phase = .live ∧ (∃ c ∈ (witRunner 0 id).host.cards, c.id = 4) ∧
    (witRunner 0 id).host.driveEntries.getD 0 (driveKeyOf 2 0 0) = 0 ∧
    Tbl.getD [(driveKeyOf 2 0 0, 16)] 0 (driveKeyOf 2 0 0) = 16 ∧
    (let (bc, bo) := windowPlace (cmdBlock (wCmd 0x20)); let (rc, ro) := windowPlace (cmdRoll (wCmd 0x20))
     (witRunner 0 id).inOneAlloc 0 bc bo (blockBytes 0x20) = true ∧ (witRunner 0 id).inOneAlloc 0 rc ro 16 = true ∧
     (witRunner 0 id).inOneAlloc 1 bc bo (blockBytes 0x20) = false) ∧
    scratchCluster (scratchBase + cmdBlock (wCmd 0x20)) ≤ 23 ∧ scratchCluster (scratchBase + cmdRoll (wCmd 0x20)) ≤ 23 ∧
    23 < scratchCluster (scratchBase + cmdBlock (wCmd 0x20 ||| BitVec.ofNat 64 (24 * 2 ^ 26))) ∧ cmdEop (wCmd 0x20) = 0x20 ∧ cmdEop (wCmd 0x01) = 0x01 ∧
    (witRunner 0 id).launches.length < 2048 ∧ cmdBlock (wCmd 0x20) % 128 = 0 ∧
    (∀ c ∈ witCtx.host.cards, c.id ≠ witCtx.host.nextCard) ∧ cardOk (beatOf (wCard 0 0 0)) = false := by
  refine ⟨by decide +kernel, ⟨wDriveCard, ?_, rfl⟩, ?_⟩
  · exact List.mem_singleton.2 rfl
  · decide +kernel

/-- LaunchRules: two cards, one waiting on the other; a launch with frames enough and one without; one being created. -/
def wLaunch : Launch := { placeLaunch with lnum := 1, phase := .eligible, live := 0, stages := [(0x10000, 4)] }
def witLaunch (f : Launch → Launch) (frames : List Nat) : State :=
  { witCtx with launches := [f wLaunch], host := { witCtx.host with ctxs := [(0, { wCtx with frames := frames })] } }
theorem wit_LaunchRules :
    (let m : Card := { wDriveCard with id := 1, pos := 5 }
     let w : Card := { wDriveCard with id := 2, pos := 6, edges := [0], bits := BitVec.ofNat 512 (5 * 2 ^ 320) }
     w.waitsOn m = true ∧ ([m, w].map (·.id)).Nodup) ∧
    (witLaunch id []).firstEligible 0 = some wLaunch ∧ (witLaunch id [2]).firstEligible 0 = some wLaunch ∧
    wLaunch.count = ((witLaunch id []).ctx 0).frcnt.toNat ∧
    ((witLaunch id [2]).ctx 0).frcnt.toNat - ((witLaunch id [2]).ctx 0).frames.length < wLaunch.count ∧
    (let l : Launch := { wLaunch with toCreate := [(0, 3)], framesLeft := [2] }
     (witLaunch (fun _ => l) []).launch? (BitVec.ofNat 32 1) = some l ∧ l.lnum.toNat * 2 ^ 32 + 0 * 2 ^ 16 + 3 < 2 ^ 64) := by decide +kernel

/-- BindRules: a task of each kind that waits for its sequencer. -/
def wWaiter (p : TaskPhase) : Task :=
  { placeTask with tid := 0x10000, phase := p, sq := none, core := if p = .created then none else some 0
                   alloc := if p = .created then none else some (0, 0x1000) }
def witBind (p : TaskPhase) : State := { witCtx with tasks := [placeTask, wWaiter p] }
theorem wit_BindRules_choice : ∀ p ∈ [TaskPhase.created, .stalled, .framed],
    (witBind p).wakeEnding 0 = witBind p ∧ (witBind p).bindChoice 0 = some (wWaiter p, [0]) ∧
    (witBind p).task? (wWaiter p).tid = some (wWaiter p) ∧ (wWaiter p).lockstep = false ∧ 0 < (wWaiter p).scrBytes ∧
    ((wWaiter p).alloc = none ↔ p = .created) := by decide +kernel
/-- BindRules: a sequencer that loads a task. -/
def witLoad (p : TaskPhase) : State :=
  { witBind p with cores := { wit.cores with
      cores := [(0, { placeCore with seqs := placeCore.seqs.set 3 { phase := .binding, task := some 0x10000 } })] } }
theorem wit_BindRules_load : ∀ p ∈ [TaskPhase.created, .stalled],
    ((witLoad p).seq 0 3).phase = .binding ∧ ((witLoad p).seq 0 3).task = some (wWaiter p).tid ∧
    (witLoad p).task? (wWaiter p).tid = some (wWaiter p) ∧ ((witLoad p).ctx (wWaiter p).ctx).hold = false := by decide +kernel
/-- A core whose four sequencers hold running tasks, and one more that waits for it. -/
def wFour (q : Nat) : Task := { placeTask with tid := BitVec.ofNat 64 (0x10000 * q), sq := some q }
def witCrowd (wait : Option Wait) : State :=
  { witCtx with
    cycle := 2048
    tasks := [{ wFour 0 with wait := wait }, wFour 1, wFour 2, wFour 3,
      { wWaiter .stalled with tid := 0x40000, prio := 3, waitSince := 1024 }]
    cores := { wit.cores with cores := [(0, { placeCore with
      seqs := #v[{ phase := .active, task := some 0, waitAt := wait.map fun _ => 0 }, { phase := .active, task := some 0x10000 },
        { phase := .active, task := some 0x20000 }, { phase := .active, task := some 0x30000 }] })] } }
/-- The last of the four is the youngest. -/
theorem wit_BindRules_preempt : let t : Task := { wWaiter .stalled with tid := 0x40000, prio := 3, waitSince := 1024 }
    (witCrowd none).task? 0x40000 = some t ∧ (witCrowd none).preemptDue t = true ∧
    youngestLowest (((witCrowd none).holders t.bindSet.cores).filter fun u => u.phase == .bound) = some (wFour 3) ∧
    (wFour 3).tid ≠ 0x40000 ∧ (witCrowd none).task? (wFour 3).tid = some (wFour 3) ∧ (wFour 3).saving = none ∧
    (wFour 3).preempt = false ∧ (wFour 3).lockstep = false := by decide +kernel

/-- SaveRules: AGE at its limit; a stall entry, an eviction, a request with its PDL over, a save with and without work in
progress, the mark gap at its limit, a wound, frame areas that fit and that do not, and eight arrived tasks. -/
theorem wit_SaveRules_age : ((witCore fun c => { c with seqs := c.seqs.set 0 { phase := .active, task := some 0, readyCount := 4096 } }).seq 0
      0).task = some 0 ∧ wit.ageLimit 0 = 4096 := by decide +kernel
theorem wit_SaveRules_tasks :
    ((witTask fun t => { t with phase := .stalled, stalling := true }).task? 0).isSome = true ∧
    (witCrowd (some (.bell 0 1))).evictDue { wFour 0 with wait := some (.bell 0 1) } = true ∧
    ((witCrowd (some (.bell 0 1))).task? 0) = some { wFour 0 with wait := some (.bell 0 1) } ∧
    ((witTask fun t => { t with preempt := true }).task? 0) = some { placeTask with preempt := true } ∧ placeTask.phase = .bound ∧
    (witTask fun t => { t with saving := some 1, phase := .framed }).saveBusy { placeTask with saving := some 1, phase := .framed } 0 1 = false ∧
    ({ wit with mem := { wit.mem with tileLoads := [(1, 0, 1, 0)] } } : State).saveBusy { placeTask with saving := some 1 } 0 1 = true ∧
    ({ witCore (fun c => { c with seqs := c.seqs.set 0 { phase := .active, task := some 0, boundCount := 50000 } }) with
        launches := [{ placeLaunch with checked := true }] } : State).gapReached 0 0 placeTask = true ∧
    placeTask.busyUntil = 0 ∧ wit.tvec placeTask ≠ 0 ∧ placeTask.saving = none ∧ placeTask.stalling = false := by decide +kernel
/-- SaveRules: a task with an MMA in flight that is wounded, one that is leaving, and one with a save under way. -/
theorem wit_SaveRules_wound : (witMma false).mmaBusy placeTask = true ∧ wit.mmaBusy placeTask = false ∧
    (witMma false).task? 0 = some placeTask ∧ placeTask.leaving = none ∧ placeTask.lockstep = false ∧ placeTask.tandemOf = none ∧
    (witTask fun t => { t with leaving := some .restart }).task? 0 = some { placeTask with leaving := some .restart } ∧
    (witTask fun t => { t with saving := some 1 }).task? 0 = some { placeTask with saving := some 1 } := by decide +kernel
theorem wit_SaveRules_area : (∃ l ∈ witCtx.launches, l.ctx = 0) ∧ (∀ l ∈ witHost.launches, l.ctx ≠ 0) ∧
    ¬(2 ^ 35 ≤ 0x5FFFD8 ∨ (1 ≠ 0 ∧ 0x6000000000 < 0x5FFFD8 * 2 ^ 16 + 1 * 0x28000)) ∧
    0x6000000000 < 0x5FFFFF * 2 ^ 16 + 1 * 0x28000 := by decide +kernel
/-- Eight tasks, one on each core of cluster 0, that have arrived. -/
def wEight (k : Nat) : Task := { placeTask with tid := BitVec.ofNat 64 k, core := some k, wait := some .tandem }
def witEight : State := { witCtx with
    tasks := (List.range 8).map wEight
    cores := { wit.cores with
      cores := (List.range 8).map fun k => (k, { placeCore with
        seqs := placeCore.seqs.set 0 { phase := .active, task := some (BitVec.ofNat 64 k) } })
      tandems := [(0, { group := [], arrived := (List.range 8).map (BitVec.ofNat 64) })] } }
theorem wit_SaveRules_tandem : (witEight.cores.tandems.getD {} 0).group = [] ∧
    witEight.tandemSet 0 = some ((List.range 8).map wEight) ∧ ((List.range 8).map wEight).all witEight.tandemBound = true ∧
    (((List.range 8).map wEight).map (·.tid)).Nodup := by decide +kernel

/-- ContextRegisterRules: a context with launches and one without; a matrix that is symmetric and one that is not; a window
inside memory and one outside; a split with every sequencer free and one with a task bound. -/
theorem wit_ContextRegisterRules : (∃ l ∈ witCtx.launches, l.ctx = 0) ∧ (∀ l ∈ witHost.launches, l.ctx ≠ 0) ∧
    0x5FFFFFF * 2 ^ 12 + 0x1000 ≤ 0x6000000000 ∧ ¬(0x6000000 * 2 ^ 12 + 0x1000 ≤ 0x6000000000) ∧
    (∀ m ∈ List.range 64, witHost.quiet m = true) ∧ witCtx.quiet 0 = false ∧ witHost.cores.spSplit = 0 ∧
    (∀ a ∈ List.range 5, ∀ b ∈ List.range 5, (0x5956F#25).getLsbD (5 * a + b) = (0x5956F#25).getLsbD (5 * b + a)) ∧
    (0x100000#25).getLsbD 20 = true ∧ (1#64).getLsbD 0 = true ∧ (witHost.ctx 63).tlbBusy = false ∧
    (({} : Ctx).iv.getD {} 15).arm = false := by decide +kernel

/-- A page table of three levels for address 0, and a walk of it that the placed task waits for. -/
def witTable (leaf : Nat) : State :=
  witMem 0x100000 (natLe 8 0x110002) (witMem 0x110000 (natLe 8 0x120002) (witMem 0x120000 (natLe 8 leaf)
    { witCtx with
      host := { witCtx.host with ctxs := [(0, { wCtx with hwl := 0, ptbase := 0x100 })] }
      mem := { witCtx.mem with walks := [⟨3, 0, 0, 0, 0, .store, false, [0], true⟩] } }))
theorem wit_TranslationRules_walk :
    ((witTable 0x1F).mem.walks.find? fun x => x.id == 3 && x.active) = some ⟨3, 0, 0, 0, 0, .store, false, [0], true⟩ ∧
    (witTable 0x1F).walk 0 0 = .leaf 2 0x1F ∧ leafOutcome 0x1F 0 .store false = none ∧
    (witTable 0x3F).walk 0 0 = .leaf 2 0x3F ∧ leafOutcome 0x3F 0 .store false = some (.resolve 0 true 0) ∧
    (witTable 0x17).walk 0 0 = .leaf 2 0x17 ∧ leafOutcome 0x17 0 .store false = some (.bad 0x0110 0 1) ∧
    (witTable 0).walk 0 0 = .bad 0x010E 2 ∧ (witTable 1).walk 0 0 = .notPresent 2 ∧
    (witTable 1).task? 0 = some placeTask ∧ placeTask.phase = .bound ∧ placeTask.wait = none ∧ placeTask.core = some 0 := by
  decide +kernel
/-- An entry of the page-fault table, with a task that waits for it; an invalidation, held by a pinned page and not. -/
def wPf : PfEnt := ⟨false, 2, 5, 1, false⟩
def witPf : State := { witTask (fun t => { t with phase := .framed, wait := some (.pageFault 0x50000 false) }) with
  host := { witHost.host with ctxs := [(0, { wCtx with pfent := [(7, wPf)] })] } }
theorem wit_TranslationRules_resolve : Tbl.find? (witPf.ctx 0).pfent 7 = some wPf ∧ (witPf.ctx 0).pfKept = [] ∧
    witPf.host.welomUp = true ∧ witPf.package.phase = .ready ∧ 0x50000 / 2 ^ 16 = wPf.vpage.toNat ∧
    witPf.task? 0 = some { placeTask with phase := .framed, wait := some (.pageFault 0x50000 false) } := by decide +kernel
def witInval (pins : List (Nat × Nat × Nat)) : State := { witCtx with
  host := { witCtx.host with ctxs := [(0, { wCtx with tlbBusy := true, tlbSize := 3 })] }
  mem := { witCtx.mem with pins := pins } }
theorem wit_TranslationRules_invalidate : ((witInval []).ctx 0).tlbBusy = true ∧
    (witInval []).tlbHeld 0 (tlbRange 3 0) = false ∧ (witInval [(1, 0, 0)]).tlbHeld 0 (tlbRange 3 0) = true := by decide +kernel

/-- TranslationRules: an invalidation with no store of the context still to be performed, with one that can be performed,
and with one that another die holds back. -/
def witInvalStore (stamp : List Nat) : State := { witInval [] with
  mem := { (witInval []).mem with stores := [{ id := 9, tid := 0, ctx := 0, core := 0, ops := [.sram 192 0 [3]], release := none, stamp := stamp }] } }
theorem wit_TranslationRules_stores : (witInval []).mem.stores = [] ∧ (∀ p ∈ (witInvalStore []).mem.stores, p.ctx = 0 ∧
      (witInvalStore []).storeBlocked p = false) ∧
    (∀ p ∈ (witInvalStore [0, 1]).mem.stores, p.ctx = 0 ∧ (witInvalStore [0, 1]).stampWaits p ≠ none) ∧
    (witInvalStore [0, 1]).mem.stores ≠ [] ∧ ((witInvalStore [0, 1]).mem.stores.map (·.id)).Nodup ∧
    (∀ t ∈ (witInvalStore [0, 1]).tasks, t.wait = none) := by decide +kernel

/-- StoreEventRules: a store that is ready, one whose stamp die 1 has not heard settled, and one behind a remote access. -/
def wStore : PendStore := { id := 9, tid := 0, ctx := 0, core := 0, ops := [.phys 0x1000 [1, 2], .sram 0 8 [3], .host (2 ^ 51) [4]]
                            release := some .fabric }
def witStore (p : PendStore) : State := { witCtx with mem := { witCtx.mem with stores := [p] } }
theorem wit_StoreEventRules_ready : ((witStore wStore).mem.stores.find? fun q => q.id == 9) = some wStore ∧
    (∀ q ∈ (witStore wStore).mem.stores, q.tid = wStore.tid → wStore.id ≤ q.id) ∧ (witStore wStore).stampWaits wStore = none ∧
    (witStore wStore).storeHeldBack wStore = false ∧ wStore.slipTo = none ∧ (witStore wStore).hostDown 0x1000 = false ∧
    (witStore wStore).hostDown (2 ^ 51) = false ∧
    (∀ l ∈ linesOf 0x1000 2 ++ linesOf (2 ^ 51) 1, (witStore wStore).lineReadable (ctxSlot 0) l = true) := by decide +kernel
theorem wit_StoreEventRules_waits :
    (let p : PendStore := { wStore with stamp := [0, 1], ops := [.sram 192 0 [3]] }
     let s := witStore p
     s.stampWaits p = some 1 ∧ s.storeHeldBack p = false ∧ (∀ w ∈ s.clocks.waiting, w.act ≠ .store 9) ∧
     s.clocks.heardAll 1 p.stamp = false) ∧
    ({ witRemote (wRemote 3 (.store 0)) with mem := (witStore wStore).mem } : State).storeHeldBack wStore = true ∧
    (let c : Clocks := { unsettled := [⟨13, 1, 0, [9]⟩], waiting := [⟨4, 1, [0, 1], .store 9, []⟩] }
     (c.unsettled.find? fun x => x.die == 13) = some ⟨13, 1, 0, [9]⟩ ∧
     (c.waiting.find? fun x => x.id == 4) = some ⟨4, 1, [0, 1], .store 9, []⟩) ∧
    (∀ act ∈ [StampAct.store 9, .bell 0 0 1, .roll 0 0xFF0 8], ∀ n ∈ [0, 1],
      let c : Clocks := { heard := [(16 + 1, n)], waiting := [⟨4, 1, [0, 1], act, [8]⟩] }
      (c.waiting.find? fun x => x.id == 4) = some ⟨4, 1, [0, 1], act, [8]⟩ ∧ c.heardAll 1 [0, 1] = decide (n = 1)) ∧
    (witStore wStore).anyPending [8] = false ∧ (witStore wStore).anyPending [9] = true ∧
    (∃ p ∈ (witStore wStore).mem.stores, p.id ∈ [9]) ∧ (∀ p ∈ witCtx.mem.stores, p.id ∉ [9]) := by
  refine ⟨by decide +kernel, by decide +kernel, by decide +kernel, by decide +kernel, by decide +kernel, by decide +kernel,
    ⟨wStore, List.mem_singleton.2 rfl, by decide⟩, ?_⟩
  decide +kernel

/-- DataArrivalRules: a load in flight, from a good beat and from a poisoned one; a queue of seven faults and of eight. -/
def wLoad (p : Option (Nat × Nat)) : Infl := { id := 6, reg := .g 2, mask := BitVec.allOnes 64, val := .word 5, ord := 0, poison := p }
theorem wit_DataArrivalRules : (∀ p, p = none ∨ p = some (0x1000, 0x21) →
      let t : Task := { placeTask with infl := [wLoad p] }
      ((witTask fun _ => t).tasks.findSome? fun t => (t.infl.find? fun e => e.id == 6 && !e.remote).map fun e => (t, e)) =
        some (t, wLoad p) ∧ (witTask fun _ => t).task? t.tid = some t ∧ (t.infl.find? fun e => e.id == 6) = some (wLoad p) ∧
      t.phase = .bound ∧ t.wait = none) ∧
    (List.replicate 7 ({ code := 0x0200 } : FaultRec)).length < 8 ∧ 8 ≤ (List.replicate 8 ({ code := 0x0200 } : FaultRec)).length := by
  refine ⟨?_, by decide, by decide⟩
  rintro p (rfl | rfl) <;> decide +kernel

/-- FullEmptyRetryRules: a FILL of a word that is EMPTY and of one that is FULL, the list of waits with room and full. -/
def wFe (kind : Nat) : FeWait := ⟨8, 0, kind, 1, 0x77, 6⟩
def witFe (kind : Nat) (p : FePhase) (waits : Nat) (others : List (FeWait × Nat × FePhase)) : State := witCore fun c =>
  { c with feRefused := (wFe kind, 0, p) :: others, feWaits := List.replicate waits ⟨9, 0, 1, 2, 0, 0⟩ }
theorem wit_FullEmptyRetryRules :
    (∀ p ∈ [FePhase.coming false, .coming true, .held], ∀ waits ∈ [0, 31, 32], ∀ kind ∈ [0, 1, 2],
      ∀ o ∈ [[], [(⟨9, 7, 1, 2, 0, 0⟩, 0, FePhase.ticket)]],
      let s := witFe kind p waits o
      (s.cores.cores.findSome? fun x => x.2.feRefused.find? fun y => y.1.id == 8) = some (wFe kind, 0, p) ∧
      s.wordFull 0 8 = false ∧ (s.core 0).feWaits.length = waits ∧ (∀ x ∈ (s.core 0).feWaits, x.word ≠ (wFe kind).word) ∧
      s.task? (wFe kind).tid = some placeTask ∧ (s.core 0).feRefused.filter (fun x => x.1.id != 8) = o ∧
      s.feSource ⟨9, 7, 1, 2, 0, 0⟩ = s.feSource (wFe kind)) := by decide +kernel
theorem witFe_inv : (witFe 0 (.coming false) 0 []).Inv := by unfold State.Inv; decide +kernel

/-- CacheOperationEnd: a clean and an invalidation of the heap. -/
def wCacheOp (evict : Bool) : CacheOp := ⟨5, 0, 0, 0x1000, 0x40, (0, 0x10000000, 0), evict, 0⟩
theorem wit_CacheOperationEnd : ∀ e ∈ [true, false],
    (({ wit with mem := { wit.mem with cacheOps := [wCacheOp e] } } : State).mem.cacheOps.find? fun x => x.id == 5) =
      some (wCacheOp e) := by decide +kernel

/-- InvigilatorRules: a race between two tasks, in both modes, an access of the same task, and an ordered one. -/
def wAcc (kind : AccKind) (acq : Option Scope) : IvAccess := ⟨0, 0, [0x800], 0, kind, acq, none⟩
def witIv (acc : IvAccess) (mode : Bool) (old : List Byte) : State := witMem 0x200000 old { witCtx with
  host := { witCtx.host with ctxs := [(0, { wCtx with iv := [(15, { arm := true, mode := mode, base := 1, len := 1, shadow := 0x200 })] })] }
  mem := { witCtx.mem with ivQueue := [acc] } }
theorem wit_InvigilatorRules : ∀ k ∈ [AccKind.load, .store, .atomic], ∀ m ∈ [true, false],
    let acc := wAcc k (some .die)
    let s := witIv acc m (natLe 8 0x10000 ++ natLe 4 0 ++ natLe 4 (2 ^ 17))
    acc ∈ s.mem.ivQueue ∧ (s.ctx acc.ctx).ivWindow (0x800 * 32) = some 15 ∧ s.task? acc.tid = some placeTask ∧
    placeTask.wait = none ∧ placeTask.faults.length < 8 ∧ s.lineReadable (ctxSlot 0) (0x200000 / 64) = true ∧
    fieldAt (cellsRead s.mem.bytes 0x200000 16) 0 8 ≠ acc.tid.toNat ∧
    fieldAt (cellsRead s.mem.bytes 0x200000 16) 12 4 / 2 ^ 17 % 2 = 1 ∧
    fieldAt (cellsRead s.mem.bytes 0x200000 16) 12 4 / 2 ^ 15 % 2 = 0 := by decide +kernel
theorem witIv_inv : (witIv (wAcc .store none) true (natLe 8 0x10000 ++ natLe 4 0 ++ natLe 4 (2 ^ 17))).Inv := by
  unfold State.Inv; decide +kernel

/-- The placed task waiting for a lock of home 0, and the objects of the Prefects as given. -/
def wLw : Word := 0x100000000
def witPref (objs : List LockObj) (f : Prefects → Prefects) : State :=
  { witTask (fun t => { t with wait := some (.lock wLw .s), infl := [wLoad none] }) with prefects := f { objs := objs } }
def wHeld (mode : LockMode) (queue : List (Word × LockMode)) : LockObj := ⟨0, wLw, [(0x10000, mode, false)], queue⟩
/-- PrefectRules: a lock that is free, held in a mode that allows the request, held in one that does not; refused once and
twice, with and without a ticket. -/
theorem wit_PrefectRules : (witPref [] id).task? 0 = some { placeTask with wait := some (.lock wLw .s), infl := [wLoad none] } ∧
    ((witPref [] id).lockObj 0 wLw).holders = [] ∧ ((witPref [] id).lockObj 0 wLw).queue = [] ∧
    (∀ o ∈ [[], [wHeld .s []], [wHeld .x []]], (witPref o id).pfEntries 0 < 65536 ∧ (witPref o id).pfRecords 0 < 262144 ∧
      ∀ k ∈ (witPref o id).prefects.tickets, k.1 ≠ 0) ∧ lwHome wLw = 0 ∧
    modesCompat 0x5956F .s .s = true ∧ modesCompat 0x5956F .x .s = false ∧ (0x10000 : Word) ≠ 0 ∧
    tidOlder 0 0x10000 = true ∧ (∀ q ∈ (wHeld .s [(0x10000, .x)]).queue, tidOlder 0 q.1 = true) ∧
    (∀ n ∈ [0, 1, 2], ((witPref [wHeld .s []] fun p => { p with refused := [⟨0, wLw, .s, n, 0⟩], tickets := [(0, 0)] }).prefects.refused.find?
      fun r => r.tid == 0) = some ⟨0, wLw, .s, n, 0⟩) ∧
    (([((0 : Nat), (0 : Word))].find? fun k => k.1 == 0) = some (0, 0)) ∧
    (∃ h ∈ (⟨0, wLw, [(0, .s, false)], []⟩ : LockObj).holders, h.1 = 0 ∧ h.2.1 = .s) := by
  refine ⟨by decide +kernel, by decide +kernel, by decide +kernel, by decide +kernel, by decide, by decide, by decide, by decide,
    by decide, by decide, by decide +kernel, by decide, (0, .s, false), List.mem_singleton.2 rfl, rfl, rfl⟩
/-- PrefectRules: a request that comes first and one that an older one precedes; a core's port with a ticketed request and
without one; a request that waits behind it; a ticket to offer, and an entry held for it. -/
theorem wit_PrefectRules_ports :
    let ported : State := witPref [] fun p => { p with refused := [⟨0x10000, wLw, .s, 2, 0⟩, ⟨0, wLw, .s, 1, 0⟩], tickets := [(0, 0x10000)]
                                                       behind := [(0, 0)] }
    let offered : State := witPref [] fun p => { p with refused := [⟨0, wLw, .s, 2, 0⟩], held := [(0, 0)] }
    (∀ d ∈ wit.due, wit.lockFirst 0 0 d = false) ∧
    wit.lockFirst 0x10000 0 (0, .prefectLockRequest, .lock 0 wLw .s 0) = true ∧ Task.onCore placeTask = 0 ∧
    wit.portTicket 0 0 = false ∧ ported.portTicket 0 0 = true ∧ (0, 0) ∈ ported.prefects.behind ∧ ported.pfEntries 0 < 65536 ∧
    ported.pfRecords 0 < 262144 ∧ (ported.prefects.tickets.find? fun k => k.1 == 0) = some (0, 0x10000) ∧
    (0, 0) ∈ offered.prefects.held ∧ (offered.prefects.refused.find? fun r => r.tid == 0) = some ⟨0, wLw, .s, 2, 0⟩ := by
  decide +kernel
/-- PrefectRules: a Prefect whose 262,144 records are all in use, by another object. -/
def wMany (n : Nat) : State := witPref [⟨0, 0, List.replicate n (0x20000, .is, false), []⟩] id
theorem wit_PrefectRules_records (n : Nat) : ((wMany n).lockObj 0 wLw).holders = [] ∧ (wMany n).pfRecords 0 = n := by
  refine ⟨rfl, ?_⟩
  simp [State.pfRecords, State.pfHeld, wMany, witPref, witTask, lwHome]
theorem wit_PrefectRules_crowded : 262144 ≤ (wMany 262144).pfRecords 0 :=
  Nat.le_of_eq (wit_PrefectRules_records 262144).2.symm

/-- HotRowRules: a group that fits, one that reaches past its die's memory; a fill in progress and none. -/
def witHot (x : HotGroup) (l : List Launch) : State :=
  { witCtx with launches := l, host := { witCtx.host with ctxs := [(0, { wCtx with hrg := [(15, x)] })] } }
theorem wit_HotRowRules : (witHot {} []).hotGroup 0 15 = {} ∧ (witHot { en := true } []).hotGroup 0 15 = { en := true } ∧
    (∃ l ∈ (witHot {} [placeLaunch]).launches, l.ctx = 0) ∧ (witHot {} []).launches = [] ∧
    (let size := 0x40000 + 2 ^ 0 * 8 * (1 * 64)
     0 / 0x1800000000 = (0 + size - 1) / 0x1800000000 ∧ 0 + size ≤ 4 * 0x1800000000 ∧ size ≤ 2 ^ 36 ∧
     (0x17FFFF * 2 ^ 16) / 0x1800000000 ≠ (0x17FFFF * 2 ^ 16 + size - 1) / 0x1800000000) ∧
    (((witHot { ways := [(7, (.filling, 5))] } []).hotGroup 0 15).way 7).1 = .filling ∧
    (((witHot {} []).hotGroup 0 15).way 7).1 ≠ .filling := by decide +kernel

/-- The placed machine about to issue: an ADD, a literal of no slot; and one whose code is not mapped. -/
def witIssue (w : BitVec 32) (f : CoreSt → CoreSt) : State :=
  { State.reset.placeWord w with arg := .num 0, turns := [], cores := { wit.cores with cores := [(0, f placeCore)] } }
theorem wit_IssueRules : (∀ w, w = 0x04432000 ∨ w = 0x7C000000 → ∀ f, f = id ∨ f = (fun c : CoreSt => { c with tlb := [] }) →
      let s := witIssue w f
      s.cur = none ∧ s.package.pause = false ∧ coreDie 0 ∉ s.package.held ∧ s.package.phase = .ready ∧
      (s.seq 0 0).task = some placeTask.tid ∧ (s.seq 0 0).phase = .active ∧ (s.seq 0 0).prio ≤ 7 ∧
      (∀ q, q < 4 → q ≠ 0 → (s.seq 0 q).task = none) ∧ s.task? placeTask.tid = some placeTask ∧ placeTask.core = some 0 ∧
      placeTask.sq = some 0 ∧ placeTask.faults = [] ∧ s.groupOf 0 = [] ∧ s.launch? 0 = some placeLaunch ∧
      placeLaunch.checked = false ∧ placeTask.fences = [] ∧ placeTask.trap.mode = false ∧ (s.core 0).lastIssue ≠ some s.cycle) := by
  rintro w (rfl | rfl) f (rfl | rfl) <;> decide +kernel
theorem wit_IssueRules_ready : let s := witIssue 0x04432000 id
    (match s.nextBundle placeTask 0 with
     | (.ready b, s1) => s1.task? placeTask.tid == some placeTask && s1.heldBy placeTask 0 b == .no && s.heldBy placeTask 0 b == .no
     | _ => false) = true ∧
    (match (witIssue 0x7C000000 id).nextBundle placeTask 0 with
     | (.fault _, s1) => s1.task? placeTask.tid == some placeTask
     | _ => false) = true ∧
    (match (witIssue 0 fun c => { c with tlb := [] }).nextBundle placeTask 0 with
     | (.walk va, _) => va == 0x10000
     | _ => false) = true := by decide +kernel

/-- BundleRules: four slots that decode, one of them with a literal; one of no instruction; three slots. -/
def wSlots (w : BitVec 32) : List (BitVec 32 × List (BitVec 26)) := [(0x04432000, []), (0x4CC5030E, [2]), (w, []), (0, [])]
theorem wit_BundleRules : (∀ w, w = 0 ∨ w = 0x04432080 →
      (∀ x ∈ wSlots w, wordClass x.1 ≠ 31) ∧ (wSlots w).length = 4 ∧ (∀ x ∈ wSlots w, x.2.length ≤ 2) ∧
      ((wSlots w).filter fun x => decide (18 ≤ (wordClass x.1).toNat ∧ (wordClass x.1).toNat ≤ 25)).length = 1 ∧
      ((wSlots w).filter fun x => decide (1 ≤ (wordClass x.1).toNat ∧ (wordClass x.1).toNat ≤ 5)).length ≤ 2) ∧
    (wSlots 0).map (fun x => decodeSlot x.1 x.2) =
      [(⟨0, false⟩, Instr.add 2 3 4), (⟨3, false⟩, .st .z64 6 5 ⟨0, [2]⟩), (⟨0, false⟩, .nop), (⟨0, false⟩, .nop)].map some ∧
    decodeSlot 0x04432080 [] = none ∧ (wSlots 0x04432080)[2]? = some (0x04432080, []) ∧
    (∀ k x, k < 2 → (wSlots 0x04432080)[k]? = some x → decodeSlot x.1 x.2 ≠ none) := by
  refine ⟨?_, by decide, by decide, rfl, ?_⟩
  · rintro w (rfl | rfl) <;> decide
  · intro k x hk hx
    have : k = 0 ∨ k = 1 := by omega
    rcases this with rfl | rfl <;> · simp only [wSlots, List.getElem?_cons_zero, List.getElem?_cons_succ, Option.some.injEq] at hx
                                     subst hx; decide

/-- BundleRules: an open bundle whose slot 1 is no instruction. -/
theorem wit_BundleRules_bad : let s : State := { wit with cur := some { wCur with bad := some (1, 0x78000000) } }
    s.cur = some { wCur with bad := some (1, 0x78000000) } ∧ s.me? = some placeTask := by decide +kernel
/-- StepRunsBundle: the placed ADD with its three NOPs, opened, run slot by slot, and closed. -/
def wNextOf : Out → State
  | .next s => s
  | _ => State.reset
def wOk : Out → Bool
  | .next _ => true
  | _ => false
theorem wOk_next (o : Out) (h : wOk o = true) : o = .next (wNextOf o) := by cases o <;> simp_all [wOk, wNextOf]
def wIssued : State := wNextOf (exec .issueBundle { State.reset.placeWord 0x04432000 with turns := [], arg := .num2 0 0 })
def wIns (j : Nat) : Instr := (((wIssued.cur.map (·.slots)).getD []).getD j (⟨0, false⟩, .nop)).2
def wRun : Nat → State
  | 0 => wIssued
  | k + 1 => wNextOf (exec (wIns k) ((wRun k).atSlot k))
theorem wit_StepRunsBundle :
    wOk (exec .issueBundle { State.reset.placeWord 0x04432000 with turns := [], arg := .num2 0 0 }) = true ∧
    (wIssued.cur.any fun c => decide (c.slots = (⟨0, false⟩, .add 2 3 4) :: List.replicate 3 (⟨0, false⟩, .nop)) &&
      c.bad.isNone && (List.range 4).all (fun j => (wIssued.slotFault j).isNone) && !c.nullified && c.tid == 0 && c.core == 0) = true ∧ wIssued.me? = some placeTask ∧ placeTask.lockstep = false ∧
    placeTask.sq = some 0 ∧ (∀ j ∈ List.range 4, isMatrixSlot (wIns j) = false ∧
      wOk (exec (wIns j) ((wRun j).atSlot j)) = true ∧ (wRun (j + 1)).cur.map (·.slots) = wIssued.cur.map (·.slots) ∧
      wOk (exec (wIns j) (wIssued.atSlot j)) = true ∧
      (wNextOf (exec (wIns j) (wIssued.atSlot j))).cur.map (·.slots) = wIssued.cur.map (·.slots)) := by
  refine ⟨?_, ?_, ?_⟩ <;> decide +kernel
theorem wit_StepRunsBundle_close : (wRun 4).queueAfter ≤ 16 ∧ (wRun 4).commitHeld = false ∧
    ((wRun 4).cur.any fun c1 => (((wRun 4).closeMember (c1.flow placeTask.r.loops)).yieldAll [0] c1.yieldReq).issuedBy 0 !=
      wIssued.issuedBy 0) = true := by decide +kernel

/-- StepRunsEvent: an event from outside, one that is due and one that is not yet, a turn, and nothing; a timer that comes
due in the next cycle and one that does not. -/
theorem wit_StepRunsEvent : (Instr.proctorBoot ≠ .issueBundle) ∧ State.reset.inputs = [] ∧ State.reset.turns = [] ∧
    State.reset.due = [] ∧
    (let s : State := { State.reset with due := [(5, .cardComplete, .none)] }
     (∀ e, s.due.head? = some e → s.cycle < e.1) ∧ s.inputs = []) ∧
    (∀ t ∈ State.reset.tasks, t.wait = none) ∧ State.reset.timers = [] ∧
    0 ≤ State.reset.time + periodUnits State.reset.package.point ∧
    State.reset.time + periodUnits State.reset.package.point < 2 ^ 40 := by
  refine ⟨by decide, rfl, rfl, rfl, ⟨?_, rfl⟩, by decide +kernel⟩
  intro e h
  simp only [List.head?_cons, Option.some.injEq] at h
  subst h
  decide +kernel

/-- GuardedOff: an open bundle whose guard is K1, with K1 0: an ADD and a store. -/
def witOff : State := { wit with cur := some { wCur with guard := ⟨1, false⟩ } }
theorem wit_GuardedOff : witOff.enabled = false ∧ ((Instr.add 2 3 4).toRaw ⟨1, false⟩).map (·.cls.toNat) = some 1 ∧
    ((Instr.st .z64 6 5 ⟨0, []⟩).toRaw ⟨1, false⟩).map (·.cls.toNat) = some 19 := by decide +kernel
/-- DecodeEncode: an instruction with two literals and a guard. -/
theorem wit_DecodeEncode : Guard.wf ⟨7, true⟩ = true ∧ (Instr.addi 31 31 ⟨31, [0x3FFFFFF, 0x3FFFFFF]⟩).wf = true ∧
    (Instr.addi 31 31 ⟨31, [0x3FFFFFF, 0x3FFFFFF]⟩).isSlot = true ∧ Instr.addi 31 31 ⟨31, [0x3FFFFFF, 0x3FFFFFF]⟩ ≠ .nop := by decide
/-- StepKeepsCanonicalForm: a state with memory listed. -/
theorem wit_StepKeepsCanonicalForm : (State.reset.placeWord 0x04432000).Inv ∧
    wOk (step (State.reset.placeWord 0x04432000)) = true := by
  refine ⟨by unfold State.Inv; decide +kernel, by decide +kernel⟩

end Sys2Proof.Tests
end

section
/-! PROOF. Plain bytes: what a read, a write and an atomic of them leave, and what an event of the table leaves. -/

namespace Sys2Proof.Machine

open Sys2Proof

/-! ## Bytes as numbers, and reading cells after writing them -/

@[simp] theorem cellsRead_length (m : List Host.Cell) (a n : Nat) : (cellsRead m a n).length = n := by
  simp [cellsRead]

theorem cellsRead_add (m : List Host.Cell) (a j k : Nat) :
    cellsRead m a (j + k) = cellsRead m a j ++ cellsRead m (a + j) k := by
  simp [cellsRead, List.range_add, Nat.add_assoc]

/-- A write outside the cells read does not show. -/
theorem cellsRead_cellsWrite_outside (m : List Host.Cell) (a n w : Nat) (bs : List Byte)
    (h : a + n ≤ w ∨ w + bs.length ≤ a) : cellsRead (cellsWrite m w bs) a n = cellsRead m a n := by
  apply List.map_congr_left
  intro i hi
  have := List.mem_range.1 hi
  exact cellGet_cellsWrite_outside m w bs (by omega)

/-- What was written is read. -/
theorem cellsRead_cellsWrite_same {m : List Host.Cell} (hm : cellsWf m = true) (a : Nat) (bs : List Byte) :
    cellsRead (cellsWrite m a bs) a bs.length = bs := by
  apply List.ext_getElem
  · simp
  · intro i _ h
    simpa [cellsRead] using cellGet_cellsWrite_inside hm a bs h

/-- Bytes after others weigh more. -/
theorem leNat_append (xs ys : List Byte) : leNat (xs ++ ys) = leNat xs + 256 ^ xs.length * leNat ys := by
  induction xs with
  | nil => simp [leNat]
  | cons x xs ih => simp only [List.cons_append, leNat, ih, List.length_cons, Nat.pow_succ]; ring

theorem leNat_lt (bs : List Byte) : leNat bs < 256 ^ bs.length := by
  induction bs with
  | nil => simp [leNat]
  | cons b bs ih =>
    have hb : b.toNat < 256 := b.isLt
    simp only [leNat, List.length_cons, Nat.pow_succ]
    omega

/-- The bytes of the number that bytes stand for are those bytes. -/
theorem natLe_leNat (bs : List Byte) : natLe bs.length (leNat bs) = bs := by
  induction bs with
  | nil => rfl
  | cons b bs ih =>
    have hb : b.toNat < 256 := b.isLt
    have hq : (b.toNat + 256 * leNat bs) / 256 = leNat bs := by omega
    have h0 : BitVec.ofNat 8 (b.toNat + 256 * leNat bs) = b := by
      apply BitVec.eq_of_toNat_eq
      rw [BitVec.toNat_ofNat]
      omega
    rw [List.length_cons, leNat, natLe, hq, h0, ih]

theorem State.bytesAt_length {s : State} {loc : Loc} (h : loc.isHere = true) (n : Nat) : (s.bytesAt loc n).length = n := by
  cases loc with
  | phys => exact cellsRead_length _ _ _
  | sram => exact cellsRead_length _ _ _
  | peer => exact Bool.noConfusion h

/-! ## What an access that is noted leaves -/

theorem Noted.sameBytes {s u : State} (h : Noted s u) : SameBytes s u := by
  obtain ⟨_, _, _, _, _, _, _, _, _, _, _, _, h⟩ := h.shape
  subst h; exact ⟨fun _ => rfl, fun _ => rfl⟩

theorem Noted.bytesAt {s u : State} (h : Noted s u) (loc : Loc) (n : Nat) : u.bytesAt loc n = s.bytesAt loc n := by
  obtain ⟨_, _, _, _, _, _, _, _, _, _, _, _, h⟩ := h.shape
  subst h; rfl

theorem Noted.tasks {s u : State} (h : Noted s u) : u.tasks = s.tasks := by
  obtain ⟨_, _, _, _, _, _, _, _, _, _, _, _, h⟩ := h.shape
  rw [h]

theorem Noted.replies {s u : State} (h : Noted s u) : u.host.replies = s.host.replies := by
  obtain ⟨_, _, _, _, _, _, _, _, _, _, _, _, h⟩ := h.shape
  rw [h]

theorem noted_unitTouch (s : State) (ctx va pa n : Nat) (evf d : Bool) : Noted s (s.unitTouch ctx va pa n evf d) :=
  noted_foldl _ (fun s l => noted_touchL2 s ctx (l * 64) _ d) _ s

theorem noted_evictL2 (s : State) (line : Nat) : Noted s (s.evictL2 line) := by
  unfold State.evictL2
  split
  · exact noted_leaveL2 _ _
  · exact Noted.refl s

theorem noted_atHome (s : State) (place : Place) (pa : Nat) : Noted s (s.atHome place pa) := by
  unfold State.atHome
  split
  · exact Noted.refl s
  · exact (noted_evictL2 s _).trans (noted_hbmActive _ _)

/-- The numbering of a release is no matter of the host's. -/
theorem State.countRelease_host (s : State) (die : Nat) (tid : Word) : (s.countRelease die tid).host = s.host := rfl

/-! ## A write of plain bytes -/

/-- Bytes of a place of this chip have been written: they read back, and every other byte, the tasks and what the adapter
has answered stand as they did. -/
structure Wrote (s u : State) (loc : Loc) (bs : List Byte) : Prop where
  bytes : u.bytesAt loc bs.length = bs
  others : SameBytesBut [loc] bs.length s u
  tasks : u.tasks = s.tasks
  replies : u.host.replies = s.host.replies

theorem Wrote.refl {s : State} {loc : Loc} {bs : List Byte} (h : s.bytesAt loc bs.length = bs) : Wrote s s loc bs :=
  ⟨h, ⟨fun _ _ => rfl, fun _ _ => rfl⟩, rfl, rfl⟩

theorem Wrote.noted {s u v : State} {loc : Loc} {bs : List Byte} (h : Wrote s u loc bs) (k : Noted u v) :
    Wrote s v loc bs where
  bytes := (k.bytesAt loc _).trans h.bytes
  others :=
    ⟨fun a ha => (k.sameBytes.1 a).trans (h.others.1 a ha), fun a ha => (k.sameBytes.2 a).trans (h.others.2 a ha)⟩
  tasks := k.tasks.trans h.tasks
  replies := k.replies.trans h.replies

/-- A line that the key reads is already one of the key: giving it the key changes no byte, and what the key reads it still
reads. -/
theorem rekey_readable {s : State} {slot line : Nat} (h : s.lineReadable slot line = true) :
    ∃ lk, s.rekey slot line = s.onMem (fun m => { m with lineKey := lk }) ∧
      ∀ l, s.lineReadable slot l = true → (s.rekey slot line).lineReadable slot l = true := by
  unfold State.rekey
  split
  · exact ⟨s.mem.lineKey, rfl, fun _ hl => hl⟩
  · refine ⟨_, rfl, fun l hl => ?_⟩
    by_cases e : l = line
    · subst e; simp [State.lineReadable, State.keyNum, Tbl.find?_put_same]
    · simpa [State.lineReadable, State.keyNum, Tbl.find?_put_other _ _ e] using hl

theorem rekeyAll_readable {s : State} {slot : Nat} (ls : List Nat) (h : ∀ l ∈ ls, s.lineReadable slot l = true) :
    ∃ lk, ls.foldl (fun s l => s.rekey slot l) s = s.onMem fun m => { m with lineKey := lk } := by
  induction ls generalizing s with
  | nil => exact ⟨s.mem.lineKey, rfl⟩
  | cons l ls ih =>
    obtain ⟨k1, e1, keep⟩ := rekey_readable (h l (by simp))
    obtain ⟨k2, e2⟩ := ih fun x hx => keep x (h x (by simp [hx]))
    exact ⟨k2, by rw [List.foldl_cons, e2, e1]; rfl⟩

/-- Physical memory whose lines are readable under the key takes the bytes, and nothing else of it changes that reads. -/
theorem wrote_physWrite {s : State} {slot pa : Nat} {place : Place} {evf : Bool} {bs : List Byte} (hs : s.mem.wf = true)
    (hup : s.host.welomUp = true) (h : ∀ l ∈ linesOf pa bs.length, s.lineReadable slot l = true) :
    Wrote s (s.physWrite slot pa bs) (.phys pa place evf) bs := by
  obtain ⟨lk, e⟩ := rekeyAll_readable _ h
  have hd : s.hostDown pa = false := by simp [State.hostDown, hup]
  simp only [State.physWrite, hd, Bool.false_eq_true, if_false, e]
  refine ⟨cellsRead_cellsWrite_same (Mem.wf_iff.1 hs).1 pa bs, ⟨fun a ha => ?_, fun _ _ => rfl⟩, rfl, rfl⟩
  have := ha (.phys pa place evf) (by simp)
  simp only [Loc.key, true_and, not_and_or, not_le, not_lt] at this
  exact cellGet_cellsWrite_outside _ _ _ this

theorem wrote_sramWrite {s : State} {core off : Nat} {bs : List Byte} (hs : s.mem.wf = true) :
    Wrote s (s.sramWrite core off bs) (.sram core off) bs := by
  refine ⟨cellsRead_cellsWrite_same (Mem.wf_iff.1 hs).2 _ bs, ⟨fun _ _ => rfl, fun a ha => ?_⟩, rfl, rfl⟩
  have := ha (.sram core off) (by simp)
  simp only [Loc.key, true_and, not_and_or, not_le, not_lt] at this
  exact cellGet_cellsWrite_outside _ _ _ this

/-- Where no task waits for a roll, no wait ends. -/
theorem pokeRolls_none {s : State} (h : ∀ x ∈ s.tasks, ∀ v k e, x.wait ≠ some (.roll v k e)) (faddr : Nat) :
    s.pokeRolls faddr = s := by
  unfold State.pokeRolls
  refine List.foldlRecOn (motive := fun u => u = s) s.tasks _ rfl fun u hu t ht => ?_
  split
  · exact absurd ‹_› (h t ht _ _ _)
  · exact hu

/-! ## Atomics on plain bytes -/

/-- An atomic on memory that the key reads and no poison meets answers the old value and leaves the new one. -/
theorem atomKey_plain {s : State} {slot pa : Nat} {place : Place} {evf : Bool} {a : AtomSpec} (hs : s.mem.wf = true)
    (hup : s.host.welomUp = true) (hp : s.poisonedLine pa a.n = none)
    (h : ∀ l ∈ linesOf pa a.n, s.lineReadable slot l = true) :
    ∃ u, s.atomKey slot pa a = (some (leNat (cellsRead s.mem.bytes pa a.n)), u) ∧
      Wrote s u (.phys pa place evf)
        (natLe a.n ((a.eval (leNat (cellsRead s.mem.bytes pa a.n))).getD (leNat (cellsRead s.mem.bytes pa a.n)))) := by
  unfold State.atomKey
  simp only [hp, physRead_plain h]
  cases a.eval (leNat (cellsRead s.mem.bytes pa a.n)) with
  | some new => exact ⟨_, rfl, wrote_physWrite hs hup (by simpa using h)⟩
  | none =>
    refine ⟨s, rfl, Wrote.refl ?_⟩
    simpa [State.bytesAt] using (natLe_leNat (cellsRead s.mem.bytes pa a.n)).symm

theorem atomSram_plain {s : State} {core off : Nat} {a : AtomSpec} (hs : s.mem.wf = true) :
    ∃ u, s.atomSram core off a = (leNat (s.sramRead core off a.n), u) ∧
      Wrote s u (.sram core off)
        (natLe a.n ((a.eval (leNat (s.sramRead core off a.n))).getD (leNat (s.sramRead core off a.n)))) := by
  unfold State.atomSram
  dsimp only
  cases a.eval (leNat (s.sramRead core off a.n)) with
  | some new => exact ⟨_, rfl, wrote_sramWrite hs⟩
  | none =>
    refine ⟨s, rfl, Wrote.refl ?_⟩
    simpa [State.bytesAt, State.sramRead] using (natLe_leNat (s.sramRead core off a.n)).symm

/-! ## The event table (03 R65) -/

/-- An event takes the lowest free entry. -/
theorem recordEvent_lowest {s : State} {k : Nat} (source die code a b : Nat) (hk : k < 64)
    (hfree : ¬∃ e, Tbl.find? s.host.events k = some e ∧ e.valid = true)
    (hused : ∀ j, j < k → ∃ e, Tbl.find? s.host.events j = some e ∧ e.valid = true) :
    Tbl.find? (s.recordEvent source die code a b).host.events k =
      some { source := source, die := die, code := code, time := s.sinceReset, detailA := a, detailB := b } := by
  have hany (j : Nat) : (Tbl.find? s.host.events j).any (·.valid) = true ↔
      ∃ e, Tbl.find? s.host.events j = some e ∧ e.valid = true := Option.any_eq_true _ _
  have hfind : (List.range 64).find? (fun i => !((Tbl.find? s.host.events i).any (·.valid))) = some k := by
    rw [List.find?_range_eq_some]
    refine ⟨?_, List.mem_range.2 hk, fun j hj => ?_⟩
    · rw [Bool.not_eq_true', Bool.eq_false_iff, ne_eq, hany]; exact hfree
    · rw [Bool.not_not, hany]; exact hused j hj
  unfold State.recordEvent
  simp only [hfind]
  exact Tbl.find?_put_same _ _ _

@[simp] theorem recordEvent_replies (s : State) (source die code a b : Nat) :
    (s.recordEvent source die code a b).host.replies = s.host.replies :=
  (noted_recordEvent s source die code a b).replies

end Sys2Proof.Machine
end

section
/-! PROOF. The device memory aperture (03 R62, R63; 05 R155; 14 R371). -/

namespace Sys2Proof.Machine

open Sys2Proof

/-! ## One piece of an aperture access (03 R63) -/

/-- The slot of the key under which the aperture reads and writes. -/
def State.apertureSlot (s : State) : Nat := if s.host.apMode then ctxSlot s.host.apCtx.toNat else 0

/-- A place of this chip where no poison meets the bytes and the aperture's key reads them. -/
def State.AperturePlain (s : State) (loc : Loc) (n : Nat) : Prop :=
  loc.isHere = true ∧ ∀ pa pl e, loc = .phys pa pl e →
    s.poisonedLine pa n = none ∧ ∀ l ∈ linesOf pa n, s.lineReadable s.apertureSlot l = true

theorem apertureOpen_iff {s : State} : s.apertureOpen = true ↔ s.host.welomUp = true ∧ s.package.phase = .ready := by
  simp [State.apertureOpen]

/-- An access that stays within a page of 64 KiB is one piece. -/
theorem apertureCuts_one {a n : Nat} (hn : 0 < n) (h : a % 65536 + n ≤ 65536) : apertureCuts a n = [(a, n)] := by
  have hk : min n (0x10000 - a % 0x10000) = n := by omega
  have h0 : n ≠ 0 := by omega
  simp only [apertureCuts, cutRange, h0, if_false, hk, Nat.sub_self, if_true]

theorem aperturePieces_ok {s : State} {kind : AccKind} {a n : Nat} {loc : Loc} (h : s.aperturePiece a n kind = .ok loc) :
    s.aperturePieces kind [(a, n)] = .ok [(a, n, loc)] := by
  simp only [State.aperturePieces, h]

theorem aperturePieces_error {s : State} {kind : AccKind} {a n pa : Nat} (h : s.aperturePiece a n kind = .error pa) :
    s.aperturePieces kind [(a, n)] = .error pa := by
  simp only [State.aperturePieces, h]

/-- A read of plain bytes gives them. -/
theorem apertureRead_plain {s : State} {loc : Loc} {n : Nat} (h : s.AperturePlain loc n) (a : Nat) :
    ∃ u, s.apertureRead a n loc = (s.bytesAt loc n, u) ∧ Noted s u := by
  obtain ⟨hhere, hplain⟩ := h
  cases loc with
  | phys pa pl e =>
    obtain ⟨-, hr⟩ := hplain pa pl e rfl
    cases hm : s.host.apMode with
    | false =>
      have hr0 : ∀ l ∈ linesOf pa n, s.lineReadable 0 l = true := by simpa [State.apertureSlot, hm] using hr
      refine ⟨s, ?_, Noted.refl s⟩
      simp only [State.apertureRead, hm, physRead_plain hr0, State.bytesAt]
    | true =>
      have hrc : ∀ l ∈ linesOf pa n, s.lineReadable (ctxSlot s.host.apCtx.toNat) l = true := by
        simpa [State.apertureSlot, hm] using hr
      refine ⟨_, ?_, noted_unitTouch s s.host.apCtx.toNat (a % 2 ^ 57) pa n (e || false) false⟩
      simp only [State.apertureRead, hm, State.locRead, physRead_plain hrc, State.bytesAt]
  | sram core off => exact ⟨s, by cases hm : s.host.apMode <;> simp only [State.apertureRead, hm] <;> rfl, Noted.refl s⟩
  | peer => exact Bool.noConfusion hhere

/-- A write of plain bytes puts them there. -/
theorem apertureWrite_plain {s : State} {loc : Loc} {bs : List Byte} (hs : s.mem.wf = true) (hup : s.host.welomUp = true)
    (h : s.AperturePlain loc bs.length) (hroll : ∀ x ∈ s.tasks, ∀ v k e, x.wait ≠ some (.roll v k e)) (a : Nat) :
    Wrote s (s.apertureWrite a loc bs) loc bs := by
  obtain ⟨hhere, hplain⟩ := h
  cases loc with
  | phys pa pl e =>
    obtain ⟨-, hr⟩ := hplain pa pl e rfl
    have hw : Wrote s (s.physWrite s.apertureSlot pa bs) (.phys pa pl e) bs := wrote_physWrite hs hup hr
    cases hm : s.host.apMode with
    | false => simpa only [State.apertureWrite, State.apertureSlot, hm, Bool.false_eq_true, if_false] using hw
    | true =>
      simp only [State.apertureSlot, hm, if_true] at hw
      simp only [State.apertureWrite, State.locWrite, hm]
      exact hw.noted (noted_unitTouch _ _ _ _ _ _ _)
  | sram core off =>
    have hpoke : (s.sramWrite core off bs).pokeRolls 0 = s.sramWrite core off bs :=
      pokeRolls_none (s := s.sramWrite core off bs) hroll 0
    have hw : s.apertureWrite a (.sram core off) bs = s.sramWrite core off bs := by
      cases hm : s.host.apMode <;> simp only [State.apertureWrite, State.locWrite, hm, hpoke]
    rw [hw]
    exact wrote_sramWrite hs
  | peer => exact Bool.noConfusion hhere

/-- An atomic on plain bytes answers the old value and leaves the new one. -/
theorem apertureAtom_plain {s : State} {loc : Loc} {a : AtomSpec} (hs : s.mem.wf = true) (hup : s.host.welomUp = true)
    (h : s.AperturePlain loc a.n) :
    ∃ u, s.apertureAtom loc a = (some (leNat (s.bytesAt loc a.n)), u) ∧
      Wrote s u loc (natLe a.n ((a.eval (leNat (s.bytesAt loc a.n))).getD (leNat (s.bytesAt loc a.n)))) := by
  obtain ⟨hhere, hplain⟩ := h
  cases loc with
  | phys pa pl e =>
    obtain ⟨hp, hr⟩ := hplain pa pl e rfl
    obtain ⟨u, hu, hw⟩ := atomKey_plain (place := pl) (evf := e) hs hup hp hr
    refine ⟨u.atHome .system pa, ?_, hw.noted (noted_atHome _ _ _)⟩
    unfold State.apertureSlot at hu
    simp only [State.apertureAtom, hu, State.bytesAt]
  | sram core off =>
    obtain ⟨u, hu, hw⟩ := atomSram_plain (core := core) (off := off) (a := a) hs
    exact ⟨u, by simp only [State.apertureAtom, hu]; rfl, hw⟩
  | peer => exact Bool.noConfusion hhere

/-! ## PCIe AtomicOps (14 R371) -/

/-- The bytes of a PCIe AtomicOp. -/
def pcieBytes (wide : Bool) : Nat := if wide then 8 else 4

/-- The value a PCIe AtomicOp leaves. -/
def pcieNew (op : PcieAtomic) (wide : Bool) (x y : Word) (old : Nat) : Nat :=
  let n := pcieBytes wide
  match op with
  | .fetchAdd => (old + x.toNat) % 2 ^ (8 * n)
  | .swap => x.toNat % 2 ^ (8 * n)
  | .cas => if old = y.toNat % 2 ^ (8 * n) then x.toNat % 2 ^ (8 * n) else old

@[simp] theorem pcieSpec_n (op : PcieAtomic) (wide : Bool) (x y : Word) : (pcieSpec op wide x y).n = pcieBytes wide := by
  cases op <;> rfl

theorem pcieSpec_eval (op : PcieAtomic) (wide : Bool) (x y : Word) (old : Nat) :
    ((pcieSpec op wide x y).eval old).getD old = pcieNew op wide x y old := by
  cases op with
  | fetchAdd => simp [pcieSpec, AtomSpec.eval, pcieNew, pcieBytes]
  | swap => rfl
  | cas =>
    simp only [pcieSpec, AtomSpec.eval, pcieNew, ← pcieBytes.eq_1]
    split <;> rfl

theorem pcieNew_lt {op : PcieAtomic} {wide : Bool} {x y : Word} {old : Nat} (h : old < 256 ^ pcieBytes wide) :
    pcieNew op wide x y old < 256 ^ pcieBytes wide := by
  have e : 256 ^ pcieBytes wide = 2 ^ (8 * pcieBytes wide) := by rw [Nat.pow_mul]
  rw [e] at h ⊢
  have hpos : 0 < 2 ^ (8 * pcieBytes wide) := Nat.two_pow_pos _
  cases op with
  | fetchAdd => exact Nat.mod_lt _ hpos
  | swap => exact Nat.mod_lt _ hpos
  | cas =>
    simp only [pcieNew]
    split
    · exact Nat.mod_lt _ hpos
    · exact h

/-! ## A failed access (03 R63, R65) -/

/-- An access has failed: memory stands, and the event table's lowest free entry holds the event of source 6. -/
def State.ApertureFailed (s u : State) (pa : Nat) : Prop :=
  u.mem = s.mem ∧ ∀ k, k < 64 → (¬∃ e, Tbl.find? s.host.events k = some e ∧ e.valid = true) →
    (∀ j, j < k → ∃ e, Tbl.find? s.host.events j = some e ∧ e.valid = true) →
      ∃ e, Tbl.find? u.host.events k = some e ∧ e.source = 6 ∧ e.detailA = pa ∧
        e.code = if s.host.apMode then s.host.apCtx.toNat else 0

theorem apertureFail_failed (s : State) (pa : Nat) : s.ApertureFailed (s.apertureFail pa) pa :=
  ⟨State.recordEvent_mem _ _ _ _ _ _, fun _ hk hfree hused =>
    ⟨_, recordEvent_lowest 6 s.coachDie _ pa 0 hk hfree hused, rfl, rfl, rfl⟩⟩

/-- The answer to a read stands before those given earlier. -/
@[simp] theorem reply_replies (s : State) (bs : List Byte) : (s.reply bs).host.replies = bs :: s.host.replies := rfl

theorem apertureFailed_reply {s u : State} {pa : Nat} (h : s.ApertureFailed u pa) (bs : List Byte) :
    s.ApertureFailed (u.reply bs) pa := h

@[simp] theorem apertureFail_replies (s : State) (pa : Nat) : (s.apertureFail pa).host.replies = s.host.replies :=
  recordEvent_replies _ _ _ _ _ _

/-! ## The three accesses -/

theorem exec_apertureRead (s : State) : exec .apertureRead s = execApertureRead s := rfl
theorem exec_apertureWrite (s : State) : exec .apertureWrite s = execApertureWrite s := rfl
theorem exec_apertureAtomic (s : State) : exec .apertureAtomic s = execApertureAtomic s := rfl

theorem exec_apertureRead_closed {s : State} {off n : Nat} (harg : s.arg = .num2 off n) (h : s.apertureOpen = false) :
    exec .apertureRead s = .next (s.reply (onesBytes n)) := by
  simp only [exec_apertureRead, execApertureRead, harg, h, Bool.false_eq_true, if_false]

theorem exec_apertureRead_ok {s : State} {off n : Nat} {loc : Loc} (harg : s.arg = .num2 off n)
    (h : s.apertureOpen = true) (hn : 0 < n) (hpage : s.apertureAddr off % 65536 + n ≤ 65536)
    (hloc : s.aperturePiece (s.apertureAddr off) n .load = .ok loc) :
    exec .apertureRead s = .next ((s.apertureRead (s.apertureAddr off) n loc).2.reply
      (s.apertureRead (s.apertureAddr off) n loc).1) := by
  simp only [exec_apertureRead, execApertureRead, harg, h, if_true, apertureCuts_one hn hpage, aperturePieces_ok hloc,
    List.foldl_cons, List.foldl_nil, List.nil_append]

theorem exec_apertureRead_error {s : State} {off n pa : Nat} (harg : s.arg = .num2 off n) (h : s.apertureOpen = true)
    (hn : 0 < n) (hpage : s.apertureAddr off % 65536 + n ≤ 65536)
    (herr : s.aperturePiece (s.apertureAddr off) n .load = .error pa) :
    exec .apertureRead s = .next ((s.apertureFail pa).reply (onesBytes n)) := by
  simp only [exec_apertureRead, execApertureRead, harg, h, if_true, apertureCuts_one hn hpage, aperturePieces_error herr]

theorem exec_apertureWrite_closed {s : State} {off : Nat} {bs : List Byte} (harg : s.arg = .bytes off bs)
    (h : s.apertureOpen = false) : exec .apertureWrite s = .next s := by
  simp only [exec_apertureWrite, execApertureWrite, harg, h, Bool.false_eq_true, if_false]

theorem exec_apertureWrite_ok {s : State} {off : Nat} {bs : List Byte} {loc : Loc} (harg : s.arg = .bytes off bs)
    (h : s.apertureOpen = true) (hn : 0 < bs.length) (hpage : s.apertureAddr off % 65536 + bs.length ≤ 65536)
    (hloc : s.aperturePiece (s.apertureAddr off) bs.length .store = .ok loc) :
    exec .apertureWrite s = .next ((s.apertureWrite (s.apertureAddr off) loc bs).countRelease s.coachDie 0) := by
  simp only [exec_apertureWrite, execApertureWrite, harg, h, if_true, apertureCuts_one hn hpage, aperturePieces_ok hloc,
    List.foldl_cons, List.foldl_nil, List.take_length]

theorem exec_apertureWrite_error {s : State} {off pa : Nat} {bs : List Byte} (harg : s.arg = .bytes off bs)
    (h : s.apertureOpen = true) (hn : 0 < bs.length) (hpage : s.apertureAddr off % 65536 + bs.length ≤ 65536)
    (herr : s.aperturePiece (s.apertureAddr off) bs.length .store = .error pa) :
    exec .apertureWrite s = .next (s.apertureFail pa) := by
  simp only [exec_apertureWrite, execApertureWrite, harg, h, if_true, apertureCuts_one hn hpage, aperturePieces_error herr]

section
variable {s : State} {off : Nat} {op : PcieAtomic} {wide : Bool} {x y : Word}

theorem exec_apertureAtomic_closed (harg : s.arg = .pcie off op wide x y) (hal : off % pcieBytes wide = 0)
    (h : s.apertureOpen = false) : exec .apertureAtomic s = .next (s.reply (onesBytes (pcieBytes wide))) := by
  simp only [exec_apertureAtomic, execApertureAtomic, harg, h, pcieSpec_n, hal, ne_eq, not_true_eq_false,
    Bool.false_eq_true, if_false]

theorem exec_apertureAtomic_ok {loc : Loc} {old : Nat} {u : State} (harg : s.arg = .pcie off op wide x y)
    (hal : off % pcieBytes wide = 0) (h : s.apertureOpen = true)
    (hloc : s.aperturePiece (s.apertureAddr off) (pcieBytes wide) .atomic = .ok loc)
    (hatom : s.apertureAtom loc (pcieSpec op wide x y) = (some old, u)) :
    exec .apertureAtomic s = .next ((u.countRelease s.coachDie 0).reply (natLe (pcieBytes wide) old)) := by
  simp only [exec_apertureAtomic, execApertureAtomic, harg, h, pcieSpec_n, hal, ne_eq, not_true_eq_false, if_false,
    if_true, hloc, hatom]

theorem exec_apertureAtomic_error {pa : Nat} (harg : s.arg = .pcie off op wide x y) (hal : off % pcieBytes wide = 0)
    (h : s.apertureOpen = true) (herr : s.aperturePiece (s.apertureAddr off) (pcieBytes wide) .atomic = .error pa) :
    exec .apertureAtomic s = .next ((s.apertureFail pa).reply (onesBytes (pcieBytes wide))) := by
  simp only [exec_apertureAtomic, execApertureAtomic, harg, h, pcieSpec_n, hal, ne_eq, not_true_eq_false, if_false,
    if_true, herr]

end

/-- An AtomicOp on plain bytes answers the old bytes and leaves the value that the operation gives. -/
theorem exec_apertureAtomic_plain {s : State} {off : Nat} {op : PcieAtomic} {wide : Bool} {x y : Word} {loc : Loc}
    (hs : s.mem.wf = true) (harg : s.arg = .pcie off op wide x y) (hal : off % pcieBytes wide = 0)
    (h : s.apertureOpen = true) (hloc : s.aperturePiece (s.apertureAddr off) (pcieBytes wide) .atomic = .ok loc)
    (hplain : s.AperturePlain loc (pcieBytes wide)) :
    ∃ u, exec .apertureAtomic s = .next u ∧ u.host.replies = s.bytesAt loc (pcieBytes wide) :: s.host.replies ∧
      SameBytesBut [loc] (pcieBytes wide) s u ∧
      leNat (u.bytesAt loc (pcieBytes wide)) = pcieNew op wide x y (leNat (s.bytesAt loc (pcieBytes wide))) := by
  have hlen : (s.bytesAt loc (pcieBytes wide)).length = pcieBytes wide := State.bytesAt_length hplain.1 _
  have hold : leNat (s.bytesAt loc (pcieBytes wide)) < 256 ^ pcieBytes wide := by
    simpa only [hlen] using leNat_lt (s.bytesAt loc (pcieBytes wide))
  have hback := natLe_leNat (s.bytesAt loc (pcieBytes wide))
  obtain ⟨v, hv, hw⟩ := apertureAtom_plain (a := pcieSpec op wide x y) hs (apertureOpen_iff.1 h).1
    (by simpa only [pcieSpec_n] using hplain)
  rw [pcieSpec_eval, pcieSpec_n] at hw
  rw [pcieSpec_n] at hv
  obtain ⟨hbytes, hothers, -, hreplies⟩ := hw
  rw [natLe_length] at hbytes hothers
  refine ⟨_, exec_apertureAtomic_ok harg hal h hloc hv, ?_, hothers, ?_⟩
  · rw [hlen] at hback
    rw [reply_replies, State.countRelease_host, hreplies, hback]
  · calc leNat (v.bytesAt loc (pcieBytes wide))
        = pcieNew op wide x y (leNat (s.bytesAt loc (pcieBytes wide))) % 256 ^ pcieBytes wide := by
          rw [hbytes, leNat_natLe]
      _ = _ := Nat.mod_eq_of_lt (pcieNew_lt hold)

/-- Accesses through the aperture, all three kinds (03 R62, R63, R65; 05 R155; 14 R371). -/
theorem apertureRules : Claim.ApertureRules := by
  intro s hinv opened at_ shown failed slot plain
  have hs : s.mem.wf = true := hinv.1
  have hclosed (h : ¬opened) : s.apertureOpen = false := Bool.eq_false_iff.2 fun k => h (apertureOpen_iff.1 k)
  refine ⟨fun off n harg => ⟨fun h => exec_apertureRead_closed harg (hclosed h), fun h hn hpage => ⟨?_, ?_⟩⟩,
    fun off bs harg => ⟨fun h => exec_apertureWrite_closed harg (hclosed h), fun h hn hpage => ⟨?_, ?_⟩⟩, ?_⟩
  · intro loc hloc hplain
    obtain ⟨u, hu, hnoted⟩ := apertureRead_plain (s := s) hplain (at_ off)
    refine ⟨_, exec_apertureRead_ok harg (apertureOpen_iff.2 h) hn hpage hloc, ?_⟩
    rw [show s.apertureRead (s.apertureAddr off) n loc = _ from hu]
    exact ⟨congrArg _ hnoted.replies, hnoted.sameBytes, hnoted.tasks⟩
  · exact fun pa herr => ⟨_, exec_apertureRead_error harg (apertureOpen_iff.2 h) hn hpage herr,
      apertureFailed_reply (apertureFail_failed s pa) _, congrArg _ (apertureFail_replies s pa)⟩
  · intro loc hloc hplain hroll
    obtain ⟨hbytes, hothers, htasks, -⟩ := apertureWrite_plain hs h.1 hplain hroll (at_ off)
    exact ⟨_, exec_apertureWrite_ok harg (apertureOpen_iff.2 h) hn hpage hloc, hbytes, hothers, htasks⟩
  · exact fun pa herr => ⟨_, exec_apertureWrite_error harg (apertureOpen_iff.2 h) hn hpage herr,
      apertureFail_failed s pa⟩
  · intro off op wide x y harg n hal
    refine ⟨fun h => exec_apertureAtomic_closed harg hal (hclosed h), fun loc h hloc hplain _ => ?_, fun pa h herr => ?_⟩
    · exact exec_apertureAtomic_plain hs harg hal (apertureOpen_iff.2 h) hloc hplain
    · exact ⟨_, exec_apertureAtomic_error harg hal (apertureOpen_iff.2 h) herr,
        apertureFailed_reply (apertureFail_failed s pa) _, congrArg _ (apertureFail_replies s pa)⟩

end Sys2Proof.Machine
end

section
/-! PROOF. Register writes of the window, block by block (03 R61, R62, R440). -/

namespace Sys2Proof.Machine

open Sys2Proof

/-! ## Words, fields and halves (03 R440) -/

/-- A field of a word, back in its place, is the word under the field's mask. -/
theorem field_in_place (w : Word) (lo n : Nat) :
    (w.extractLsb' lo n).setWidth 64 <<< lo = w &&& ((BitVec.allOnes n).setWidth 64 <<< lo) := by
  ext i hi
  by_cases h : i < lo
  · simp [h]
  · have e : lo + (i - lo) = i := by omega
    simp [h, e, hi, Bool.and_comm]

/-- The same for a field at bit 0. -/
theorem field_at_zero (w : Word) (n : Nat) : (w.extractLsb' 0 n).setWidth 64 = w &&& (BitVec.allOnes n).setWidth 64 := by
  simpa using field_in_place w 0 n

theorem regMerge_full (old v : Word) : regMerge old .full v = v := by
  simp [regMerge, halfMask, halfBits]

/-- The word of two halves. -/
def joinHalves (hi lo : BitVec 32) : Word := lo.setWidth 64 ||| hi.setWidth 64 <<< 32

theorem getLsbD_joinHalves (a b : BitVec 32) {i : Nat} (hi : i < 64) :
    (joinHalves a b).getLsbD i = if i < 32 then b.getLsbD i else a.getLsbD (i - 32) := by
  by_cases h : i < 32
  · simp [joinHalves, h, hi]
  · simp [joinHalves, h, hi, BitVec.getLsbD_of_ge b i (by omega)]

/-- A write of the low half leaves the high one. -/
theorem regMerge_lo (a b : BitVec 32) (v : Word) : regMerge (joinHalves a b) .lo v = joinHalves a (v.setWidth 32) := by
  have hm : (0xFFFFFFFF : Word) = joinHalves 0#32 (BitVec.allOnes 32) := by decide
  apply BitVec.eq_of_getLsbD_eq
  intro i hi
  rw [regMerge, halfMask, halfBits, hm]
  by_cases h : i < 32 <;>
    simp only [BitVec.getLsbD_or, BitVec.getLsbD_and, BitVec.getLsbD_not, getLsbD_joinHalves _ _ hi, BitVec.getLsbD_allOnes,
      BitVec.getLsbD_zero, BitVec.getLsbD_setWidth, h, hi, decide_true, if_true, if_false, Bool.not_true, Bool.not_false,
      Bool.and_true, Bool.and_false, Bool.true_and, Bool.or_false, Bool.false_or]

/-- A write of the high half leaves the low one. -/
theorem regMerge_hi (a b : BitVec 32) (v : Word) : regMerge (joinHalves a b) .hi v = joinHalves (v.setWidth 32) b := by
  have hm : (0xFFFFFFFF00000000 : Word) = joinHalves (BitVec.allOnes 32) 0#32 := by decide
  apply BitVec.eq_of_getLsbD_eq
  intro i hi
  rw [regMerge, halfMask, halfBits, hm]
  have h32 : i - 32 < 32 := by omega
  by_cases h : i < 32 <;>
    simp only [BitVec.getLsbD_or, BitVec.getLsbD_and, BitVec.getLsbD_not, getLsbD_joinHalves _ _ hi, BitVec.getLsbD_allOnes,
      BitVec.getLsbD_zero, BitVec.getLsbD_setWidth, BitVec.getLsbD_shiftLeft, h, hi, h32, decide_true, decide_false, if_true,
      if_false, Bool.not_true, Bool.not_false, Bool.and_true, Bool.and_false, Bool.true_and, Bool.false_and, Bool.or_false,
      Bool.false_or]

/-- A number placed from a bit on, above a number that ends below it. -/
theorem ofNat_add_shift {l k : Nat} (hl : l < 2 ^ k) (u : Nat) :
    BitVec.ofNat 64 (l + u * 2 ^ k) = BitVec.ofNat 64 l ||| BitVec.ofNat 64 u <<< k := by
  apply BitVec.eq_of_getLsbD_eq
  intro i hi
  rw [Nat.add_comm, Nat.mul_comm, BitVec.getLsbD_ofNat, Nat.testBit_two_pow_mul_add u hl, BitVec.getLsbD_or,
    BitVec.getLsbD_shiftLeft, BitVec.getLsbD_ofNat, BitVec.getLsbD_ofNat]
  by_cases h : i < k
  · simp [h, hi]
  · have hlow : l.testBit i = false :=
      Nat.testBit_lt_two_pow (lt_of_lt_of_le hl (Nat.pow_le_pow_right (by omega) (by omega)))
    simp [h, hi, hlow, show i - k < 64 by omega]

/-- A word of two halves given as numbers. -/
theorem ofNat_halves {l : Nat} (hl : l < 2 ^ 32) (u : Nat) :
    BitVec.ofNat 64 (l + u * 2 ^ 32) = joinHalves (BitVec.ofNat 32 u) (BitVec.ofNat 32 l) := by
  have hlow : (BitVec.ofNat 32 l).setWidth 64 = BitVec.ofNat 64 l := by
    apply BitVec.eq_of_toNat_eq
    simp only [BitVec.toNat_setWidth, BitVec.toNat_ofNat]
    omega
  have hhigh : (BitVec.ofNat 32 u).setWidth 64 <<< 32 = BitVec.ofNat 64 u <<< 32 := by
    apply BitVec.eq_of_toNat_eq
    simp only [BitVec.toNat_shiftLeft, BitVec.toNat_setWidth, BitVec.toNat_ofNat, Nat.shiftLeft_eq]
    omega
  rw [ofNat_add_shift hl, joinHalves, hlow, hhigh]

theorem ofNat_flag (b : Bool) : BitVec.ofNat 64 (flag b) = (BitVec.ofBool b).setWidth 64 := by cases b <;> rfl

theorem flag_lt (b : Bool) : flag b < 2 ^ 1 := by cases b <;> decide

/-- Clearing bit 0 clears the flag there. -/
theorem ofNat_flag_clear (b : Bool) (u : Nat) :
    BitVec.ofNat 64 (flag b + u * 2 ^ 1) &&& ~~~1#64 = BitVec.ofNat 64 (flag false + u * 2 ^ 1) := by
  have hflag (b : Bool) : BitVec.ofNat 64 (flag b) &&& ~~~1#64 = 0#64 := by cases b <;> decide
  have hrest (w : Word) : w <<< 1 &&& ~~~1#64 = w <<< 1 := by
    apply BitVec.eq_of_getLsbD_eq
    intro i hi
    rw [BitVec.getLsbD_and, BitVec.getLsbD_not, BitVec.getLsbD_one, BitVec.getLsbD_shiftLeft]
    cases i with
    | zero => simp
    | succ i => simp [hi]
  rw [ofNat_add_shift (flag_lt b), ofNat_add_shift (flag_lt false), BitVec.and_or_distrib_right, hflag, hrest]
  simp [flag]

/-! ## Where a write and a read go (03 R61, R62) -/

theorem exec_registerWrite {s : State} {o i : Nat} {h : Half} {v : Word} (harg : s.arg = .reg o i h v) :
    exec .registerWrite s = .next (s.writeReg o h v) := by
  rw [show exec .registerWrite s = execRegisterWrite s from rfl]
  simp only [execRegisterWrite, harg]

/-- A write of a register has given it a value, and has touched neither memory nor the tasks. -/
def State.Takes (s : State) (o : Nat) (h : Half) (v w : Word) : Prop :=
  (s.writeReg o h v).readReg o = w ∧ (s.writeReg o h v).mem = s.mem ∧ (s.writeReg o h v).tasks = s.tasks

/-- The device is READY and the Welom Link is up: every block of the window answers. -/
def State.Answers (s : State) : Prop := s.host.welomUp = true ∧ s.package.phase = .ready

theorem State.Answers.onHost {s : State} (ha : s.Answers) (f : HostSide → HostSide)
    (hf : (f s.host).welomUp = s.host.welomUp) : (s.onHost f).Answers :=
  ⟨hf.trans ha.1, ha.2⟩

theorem writeReg_unaligned {s : State} {o : Nat} (ho : o % 8 ≠ 0) (h : Half) (v : Word) : s.writeReg o h v = s := by
  simp only [State.writeReg, ho, ne_eq, not_false_eq_true, if_true]

/-- Nothing of the window is written while the link is down, and before READY only the mailbox is. -/
theorem writeReg_closed {s : State} {o : Nat} (ho : o < 0x200000) (hc : s.host.welomUp = false ∨
    (s.package.phase ≠ .ready ∧ ¬(0x20000 ≤ o ∧ o < 0x30000))) (h : Half) (v : Word) : s.writeReg o h v = s := by
  have hbar : ¬0x200000 ≤ o := by omega
  rcases hc with hdown | ⟨hphase, hmb⟩
  · simp only [State.writeReg, hbar, hdown, if_false, if_true, ite_self]
  · simp only [State.writeReg, hbar, hmb, hphase, ne_eq, not_false_eq_true, if_false, if_true, ite_self]

theorem writeReg_adapter (s : State) {o : Nat} (ho : o % 8 = 0) (h : Half) (v : Word) :
    s.writeReg (0x200000 + o) h v = s.writeAdapter o h v := by
  simp (disch := omega) only [State.writeReg, if_neg, if_pos, Nat.add_sub_cancel_left]

theorem readReg_adapter (s : State) (o : Nat) : s.readReg (0x200000 + o) = s.readAdapter o := by
  simp (disch := omega) only [State.readReg, if_pos, Nat.add_sub_cancel_left]

theorem writeReg_mailbox {s : State} {o : Nat} (hup : s.host.welomUp = true) (ho : o % 8 = 0) (hlt : o < 0x10000) (h : Half)
    (v : Word) : s.writeReg (0x20000 + o) h v = s.writeMbReg o h v := by
  simp (disch := omega) only [State.writeReg, hup, if_neg, if_pos, Nat.add_sub_cancel_left, Bool.true_eq_false, if_false]

theorem readReg_mailbox {s : State} {o : Nat} (hup : s.host.welomUp = true) (hlt : o < 0x10000) :
    s.readReg (0x20000 + o) = s.readMbReg o := by
  simp (disch := omega) only [State.readReg, hup, if_neg, if_pos, Nat.add_sub_cancel_left, Bool.true_eq_false, if_false]

/-- The offset of a register of a context block. -/
def ctxReg (n x : Nat) : Nat := 0x100000 + 0x1000 * n + x

theorem writeReg_ctx {s : State} {n x : Nat} (ha : s.Answers) (hn : n < 64) (hx : x < 0x1000) (h8 : x % 8 = 0) (h : Half)
    (v : Word) : s.writeReg (ctxReg n x) h v = s.writeCtxReg n x h v := by
  have hplace : (ctxReg n x - 0x100000) / 0x1000 = n ∧ ctxReg n x % 0x1000 = x := by unfold ctxReg; omega
  have hblock : ctxReg n x % 8 = 0 ∧ 0x100000 ≤ ctxReg n x ∧ ctxReg n x < 0x140000 := by unfold ctxReg; omega
  simp (disch := omega) only [State.writeReg, ha.1, ha.2, hplace, if_neg, if_pos, ne_eq, not_true_eq_false,
    Bool.true_eq_false, if_false]

theorem readReg_ctx {s : State} {n x : Nat} (ha : s.Answers) (hn : n < 64) (hx : x < 0x1000) :
    s.readReg (ctxReg n x) = s.readCtxReg n x := by
  have hplace : (ctxReg n x - 0x100000) / 0x1000 = n ∧ ctxReg n x % 0x1000 = x := by unfold ctxReg; omega
  have hblock : 0x100000 ≤ ctxReg n x ∧ ctxReg n x < 0x140000 := by unfold ctxReg; omega
  simp (disch := omega) only [State.readReg, ha.1, ha.2, hplace, if_neg, if_pos, ne_eq, not_true_eq_false,
    Bool.true_eq_false, if_false]

/-! ## The adapter's MSI-X table and the mailbox (log entry 81; 03 R66) -/

/-- The MSI-X table takes whole words and halves, whatever the state of the module. -/
theorem takes_msix (s : State) {k : Nat} (hk : k < 128) (h : Half) (v : Word) :
    s.Takes (0x200000 + (0x1000 + 8 * k)) h v (regMerge (s.readReg (0x200000 + (0x1000 + 8 * k))) h v) := by
  have hk8 : (0x1000 + 8 * k - 0x1000) / 8 = k := by omega
  simp (disch := omega) only [State.Takes, writeReg_adapter, readReg_adapter, State.writeAdapter, State.readAdapter, if_neg,
    if_pos, hk8, State.onHost_host, State.onHost_mem, State.onHost_tasks, Tbl.upd, Tbl.getD_put_same, and_self]

/-- Eight bytes as a word of two halves. -/
theorem leWord_halves (m : List Host.Cell) (a : Nat) :
    BitVec.ofNat 64 (leNat (cellsRead m a 8)) =
      joinHalves (BitVec.ofNat 32 (leNat (cellsRead m (a + 4) 4))) (BitVec.ofNat 32 (leNat (cellsRead m a 4))) := by
  have hl : leNat (cellsRead m a 4) < 2 ^ 32 := by simpa using leNat_lt (cellsRead m a 4)
  rw [cellsRead_add m a 4 4, leNat_append, cellsRead_length, Nat.mul_comm, show 256 ^ 4 = 2 ^ 32 by decide, ofNat_halves hl]

/-- The bytes that a write of a word, or of a half of it, stores read back as the word merged. -/
theorem leWord_cellsWrite_half {m : List Host.Cell} (hm : cellsWf m = true) (a : Nat) (h : Half) (v : Word) :
    BitVec.ofNat 64 (leNat (cellsRead (cellsWrite m (a + (halfBytes h v).1) (halfBytes h v).2) a 8)) =
      regMerge (BitVec.ofNat 64 (leNat (cellsRead m a 8))) h v := by
  have hread (n w : Nat) : leNat (cellsRead (cellsWrite m w (natLe n v.toNat)) w n) = v.toNat % 256 ^ n := by
    simpa [leNat_natLe] using congrArg leNat (cellsRead_cellsWrite_same hm w (natLe n v.toNat))
  have hword : BitVec.ofNat 32 (v.toNat % 256 ^ 4) = v.setWidth 32 := by
    apply BitVec.eq_of_toNat_eq; simp
  cases h with
  | full =>
    rw [regMerge_full, halfBytes, Nat.add_zero, hread]
    apply BitVec.eq_of_toNat_eq
    have := v.isLt
    rw [BitVec.toNat_ofNat]
    omega
  | lo =>
    rw [leWord_halves m, regMerge_lo, leWord_halves, halfBytes, Nat.add_zero, hread, hword,
      cellsRead_cellsWrite_outside _ _ _ _ _ (by simp)]
  | hi =>
    rw [leWord_halves m, regMerge_hi, leWord_halves, halfBytes, hread, hword,
      cellsRead_cellsWrite_outside _ _ _ _ _ (by simp)]

/-- MBIN takes whole words and halves (03 R66). -/
theorem takes_mbIn {s : State} {o : Nat} (hm : cellsWf s.host.mbIn = true) (hup : s.host.welomUp = true) (ho : o % 8 = 0)
    (hlt : o < 0x1000) (h : Half) (v : Word) :
    s.Takes (0x20000 + (0x1000 + o)) h v (regMerge (s.readReg (0x20000 + (0x1000 + o))) h v) := by
  have hw := writeReg_mailbox hup (show (0x1000 + o) % 8 = 0 by omega) (by omega) h v
  simp (disch := omega) only [State.writeMbReg, if_neg, if_pos, Nat.add_sub_cancel_left] at hw
  refine ⟨?_, by rw [hw]; rfl, by rw [hw]; rfl⟩
  rw [hw, readReg_mailbox hup (by omega), readReg_mailbox (by exact hup) (by omega)]
  simp (disch := omega) only [State.readMbReg, if_neg, if_pos, Nat.add_sub_cancel_left]
  exact leWord_cellsWrite_half hm o h v

/-! ## Registers of a context (03 R68) -/

/-- A write that changes a context, and a read that tells of it. -/
theorem takes_ctx {s : State} {n x : Nat} {h : Half} {v : Word} {get : Ctx → Word} {upd : Ctx → Ctx} (ha : s.Answers)
    (hn : n < 64) (hx : x < 0x1000) (h8 : x % 8 = 0) (hread : ∀ u : State, u.readCtxReg n x = get (u.ctx n))
    (hwrite : s.writeCtxReg n x h v = s.modCtx n upd) : s.Takes (ctxReg n x) h v (get (upd (s.ctx n))) := by
  have hw := (writeReg_ctx ha hn hx h8 h v).trans hwrite
  refine ⟨?_, by rw [hw]; rfl, by rw [hw]; rfl⟩
  have ha' : (s.modCtx n upd).Answers := ha
  rw [hw, readReg_ctx ha' hn hx, hread, State.ctx_modCtx_same]

/-- A register of a context that takes what is written, through what its field keeps of a word. -/
theorem takes_ctx_merged {s : State} {n x : Nat} {h : Half} {v : Word} (get : Ctx → Word) (set : Ctx → Word → Ctx)
    (keep : Word → Word) (ha : s.Answers) (hn : n < 64) (hkeep : ∀ c w, get (set c w) = keep w)
    (hx : x < 0x1000 := by decide) (h8 : x % 8 = 0 := by decide)
    (hread : ∀ u : State, u.readCtxReg n x = get (u.ctx n) := by exact fun _ => rfl)
    (hwrite : s.writeCtxReg n x h v = s.modCtx n (fun c => set c (regMerge (get c) h v)) := by rfl) :
    s.Takes (ctxReg n x) h v (keep (regMerge (s.readReg (ctxReg n x)) h v)) := by
  have ht := takes_ctx ha hn hx h8 hread hwrite
  rwa [hkeep, ← hread, ← readReg_ctx ha hn hx] at ht

/-! ## APCTL (03 R63) -/

theorem writeReg_pkg {s : State} {o : Nat} (ha : s.Answers) (ho : o % 8 = 0) (hlt : o < 0x10000) (h : Half)
    (v : Word) : s.writeReg o h v = s.writePkgReg o h v := by
  simp (disch := omega) only [State.writeReg, ha.1, ha.2, if_neg, if_pos, ne_eq, not_true_eq_false, Bool.true_eq_false,
    if_false]

theorem readReg_pkg {s : State} {o : Nat} (ha : s.Answers) (hlt : o < 0x10000) :
    s.readReg o = s.readPkgReg o := by
  simp (disch := omega) only [State.readReg, ha.1, ha.2, if_neg, if_pos, ne_eq, not_true_eq_false, Bool.true_eq_false,
    if_false]

/-- APCTL as its three fields, each in its place. -/
theorem apctlWord_fields (s : State) : s.apctlWord =
    (BitVec.ofBool s.host.apMode).setWidth 64 ||| s.host.apCtx.setWidth 64 <<< 1 ||| s.host.apBase.setWidth 64 <<< 30 := by
  have hc : s.host.apCtx.toNat < 2 ^ 6 := s.host.apCtx.isLt
  have hf := flag_lt s.host.apMode
  have hlow : flag s.host.apMode + s.host.apCtx.toNat * 2 ^ 1 < 2 ^ 30 := by omega
  have hword : s.apctlWord =
      BitVec.ofNat 64 (flag s.host.apMode + s.host.apCtx.toNat * 2 ^ 1 + s.host.apBase.toNat * 2 ^ 30) := rfl
  rw [hword, ofNat_add_shift hlow, ofNat_add_shift hf, ofNat_flag, BitVec.ofNat_toNat, BitVec.ofNat_toNat]

theorem ofBool_bit_zero (w : Word) : (BitVec.ofBool (w.getLsbD 0)).setWidth 64 = w &&& 1#64 := by
  apply BitVec.eq_of_getLsbD_eq
  intro i hi
  cases i <;> simp

/-- A write of APCTL changes the adapter's fields alone, and each takes what is written in its bits. -/
theorem writeApctl_onHost (s : State) (h : Half) (v : Word) :
    ∃ f : HostSide → HostSide, s.writeApctl h v = s.onHost f ∧ (f s.host).welomUp = s.host.welomUp ∧
      (s.onHost f).apctlWord = regMerge s.apctlWord h v &&& 0x1FFFFFFC000007F := by
  have hmask : (1#64 ||| (BitVec.allOnes 6).setWidth 64 <<< 1 ||| (BitVec.allOnes 27).setWidth 64 <<< 30) =
      0x1FFFFFFC000007F := by decide
  refine ⟨_, State.writeApctl.eq_1 s h v, rfl, ?_⟩
  rw [apctlWord_fields, State.onHost_host]
  dsimp only
  rw [ofBool_bit_zero, field_in_place, field_in_place, ← BitVec.and_or_distrib_left, ← BitVec.and_or_distrib_left, hmask]

/-- APCTL takes what is written in the bits it has. -/
theorem takes_apctl {s : State} (ha : s.Answers) (h : Half) (v : Word) :
    s.Takes 0x200 h v (regMerge (s.readReg 0x200) h v &&& 0x1FFFFFFC000007F) := by
  have hw : s.writeReg 0x200 h v = s.writeApctl h v := writeReg_pkg ha (by decide) (by decide) h v
  have hread {u : State} (hu : u.Answers) : u.readReg 0x200 = u.apctlWord := readReg_pkg hu (by decide)
  obtain ⟨f, hf, hup, hword⟩ := writeApctl_onHost s h v
  have hafter : (s.onHost f).Answers := ha.onHost f hup
  rw [State.Takes, hw, hf, hread hafter, hread ha, hword]
  exact ⟨rfl, State.onHost_mem s f, State.onHost_tasks s f⟩

/-! ## A hub's limits (02 R45, R55) -/

theorem hubOf_modHub_same (s : State) (hub : Nat) (f : Hub → Hub) : (s.modHub hub f).hubOf hub = f (s.hubOf hub) := by
  simp only [State.hubOf, State.modHub, State.onFabric_fabric, Tbl.upd, Tbl.getD_put_same]

/-- The offset of a register of a hub's block. -/
def hubReg (hub x : Nat) : Nat := (if hub = 4 then 0x40000 else 0x80000) + x

/-- A limit of a hub takes what is written, through what its field keeps of a word. -/
theorem takes_hub_merged {s : State} {hub x : Nat} {h : Half} {v : Word} (get : Hub → Word) (set : Hub → Word → Hub)
    {keep : Word → Word} (ha : s.Answers) (hhub : hub = 4 ∨ hub = 5) (hx : x = 0x21000 ∨ x = 0x21008)
    (hread : ∀ u : State, u.readHubReg hub x = get (u.hubOf hub))
    (hwrite : s.writeHubReg hub x h v = s.modHub hub fun y => set y (regMerge (get y) h v))
    (hkeep : ∀ y w, get (set y w) = keep w) :
    s.Takes (hubReg hub x) h v (keep (regMerge (s.readReg (hubReg hub x)) h v)) := by
  have hw : s.writeReg (hubReg hub x) h v = s.writeHubReg hub x h v := by
    rcases hhub with rfl | rfl <;> rcases hx with rfl | rfl <;> simp [State.writeReg, hubReg, ha.1, ha.2]
  have hr {u : State} (hu : u.Answers) : u.readReg (hubReg hub x) = get (u.hubOf hub) := by
    rw [← hread]
    rcases hhub with rfl | rfl <;> rcases hx with rfl | rfl <;> simp [State.readReg, hubReg, hu.1, hu.2]
  rw [State.Takes, hw, hwrite, hr ha, hr (show (s.modHub hub _).Answers from ha), hubOf_modHub_same, hkeep]
  exact ⟨rfl, rfl, rfl⟩

theorem wordField_zero (w : Word) (n : Nat) : wordField w 0 n = w.toNat % 2 ^ n := by simp [wordField]

theorem takes_holdLim {s : State} {hub : Nat} (ha : s.Answers) (hhub : hub = 4 ∨ hub = 5) (h : Half) (v : Word) :
    s.Takes (hubReg hub 0x21000) h v (BitVec.ofNat 64
      (min (max ((regMerge (s.readReg (hubReg hub 0x21000)) h v).toNat % 2 ^ 28) 65536) 0x8000000)) :=
  takes_hub_merged (fun y => BitVec.ofNat 64 y.holdLim)
    (fun y w => { y with holdLim := clampNat 0x10000 0x8000000 (wordField w 0 28) })
    (keep := fun w => BitVec.ofNat 64 (min (max (w.toNat % 2 ^ 28) 65536) 0x8000000)) ha hhub (.inl rfl)
    (fun u => by simp [State.readHubReg]) (by simp [State.writeHubReg]) (fun y w => by simp only [clampNat, wordField_zero])

theorem takes_remto {s : State} {hub : Nat} (ha : s.Answers) (hhub : hub = 4 ∨ hub = 5) (h : Half) (v : Word) :
    s.Takes (hubReg hub 0x21008) h v (BitVec.ofNat 64
      (min (max ((regMerge (s.readReg (hubReg hub 0x21008)) h v).toNat % 2 ^ 32) 65536) (2 ^ 32 - 1))) :=
  takes_hub_merged (fun y => BitVec.ofNat 64 y.remto)
    (fun y w => { y with remto := clampNat 0x10000 (2 ^ 32 - 1) (wordField w 0 32) })
    (keep := fun w => BitVec.ofNat 64 (min (max (w.toNat % 2 ^ 32) 65536) (2 ^ 32 - 1))) ha hhub (.inr rfl)
    (fun u => by simp [State.readHubReg]) (by simp [State.writeHubReg]) (fun y w => by simp only [clampNat, wordField_zero])

/-! ## VALID of an event-table entry (03 R65) -/

/-- Changing the entry at a key changes what is found there. -/
theorem find?_map_at {α : Type} (t : Tbl α) (k : Nat) (f : α → α) :
    Tbl.find? (t.map fun (i, e) => (i, if i = k then f e else e)) k = (Tbl.find? t k).map f := by
  induction t with
  | nil => rfl
  | cons x t ih =>
    obtain ⟨i, e⟩ := x
    by_cases hi : i = k <;> simp [Tbl.find?, hi, ih]

/-- The first word of an event-table entry. -/
def State.eventHead (s : State) (k : Nat) : Word := ((Tbl.find? s.host.events k).map (·.word 0)).getD 0

/-- Clearing VALID clears bit 0 of an entry's first word. -/
theorem eventWord_invalid (e : EventRec) : ({ e with valid := false } : EventRec).word 0 = e.word 0 &&& ~~~1#64 := by
  have hword (e : EventRec) : e.word 0 =
      BitVec.ofNat 64 (flag e.valid + (e.source * 2 ^ 7 + e.die * 2 ^ 15 + e.code * 2 ^ 31) * 2 ^ 1) :=
    congrArg (BitVec.ofNat 64)
      (show flag e.valid + e.source * 2 ^ 8 + e.die * 2 ^ 16 + e.code * 2 ^ 32 = _ by ring)
  rw [hword e, ofNat_flag_clear, hword]

theorem writeReg_coach {s : State} {o : Nat} (ha : s.Answers) (ho : o % 8 = 0) (hlt : o < 0x10000) (h : Half)
    (v : Word) : s.writeReg (0x30000 + o) h v = s.writeCoachReg o h v := by
  simp (disch := omega) only [State.writeReg, ha.1, ha.2, if_neg, if_pos, ne_eq, not_true_eq_false, Bool.true_eq_false,
    if_false, Nat.add_sub_cancel_left]

theorem readReg_coach {s : State} {o : Nat} (ha : s.Answers) (hlt : o < 0x10000) :
    s.readReg (0x30000 + o) = s.readCoachReg o := by
  simp (disch := omega) only [State.readReg, ha.1, ha.2, if_neg, if_pos, ne_eq, not_true_eq_false, Bool.true_eq_false,
    if_false, Nat.add_sub_cancel_left]

theorem readCoachReg_event (s : State) {k : Nat} (hk : k < 64) : s.readCoachReg (0x1000 + 0x20 * k) = s.eventHead k := by
  have hidx : (0x1000 + 0x20 * k - 0x1000) / 0x20 = k := by omega
  have hword : (0x1000 + 0x20 * k) % 0x20 / 8 = 0 := by omega
  simp (disch := omega) only [State.readCoachReg, if_neg, if_pos, hidx, hword, State.eventHead]
  cases Tbl.find? s.host.events k <;> rfl

/-- Writing 1 to VALID clears it, and the entry's other fields stay (03 R65). -/
theorem takes_eventClear {s : State} {k : Nat} {h : Half} {v : Word} (ha : s.Answers) (hk : k < 64)
    (hset : (halfBits h v).getLsbD 0 = true) :
    s.Takes (0x30000 + (0x1000 + 0x20 * k)) h v (s.readReg (0x30000 + (0x1000 + 0x20 * k)) &&& ~~~1#64) := by
  have hentry : 0x1000 ≤ 0x1000 + 0x20 * k ∧ 0x1000 + 0x20 * k < 0x1800 ∧ (0x1000 + 0x20 * k) % 0x20 = 0 ∧
      bitSet h v 0 = true := ⟨by omega, by omega, by omega, hset⟩
  have hidx : (0x1000 + 0x20 * k - 0x1000) / 0x20 = k := by omega
  have hw := writeReg_coach ha (show (0x1000 + 0x20 * k) % 8 = 0 by omega) (by omega) h v
  rw [State.writeCoachReg, if_pos hentry, hidx] at hw
  refine ⟨?_, by rw [hw]; rfl, by rw [hw]; rfl⟩
  rw [hw, readReg_coach (ha.onHost _ rfl) (by omega), readReg_coach ha (by omega), readCoachReg_event _ hk,
    readCoachReg_event _ hk, State.eventHead, State.eventHead]
  simp only [State.onHost_host]
  rw [find?_map_at (f := fun e : EventRec => { e with valid := false })]
  cases Tbl.find? s.host.events k with
  | none => simp
  | some e => exact eventWord_invalid e

/-! ## The registers of a context that only take what is written (03 R68) -/

/-- A field with a lower bound, as wide as the field's bits allow. -/
theorem bounded_field {n lo : Nat} (hn : n ≤ 64) (hlo : lo < 2 ^ n) (x : Nat) :
    (BitVec.ofNat n (max lo (x % 2 ^ n))).setWidth 64 = BitVec.ofNat 64 (min (max (x % 2 ^ n) lo) (2 ^ n - 1)) := by
  have hx : x % 2 ^ n < 2 ^ n := Nat.mod_lt _ (Nat.two_pow_pos n)
  have hmin : min (max (x % 2 ^ n) lo) (2 ^ n - 1) = max lo (x % 2 ^ n) := by omega
  have hle : 2 ^ n ≤ 2 ^ 64 := Nat.pow_le_pow_right (by omega) hn
  apply BitVec.eq_of_toNat_eq
  rw [hmin, BitVec.toNat_setWidth, BitVec.toNat_ofNat, BitVec.toNat_ofNat,
    Nat.mod_eq_of_lt (a := max lo _) (b := 2 ^ n) (by omega)]

theorem padSkews_getD {l : List (BitVec 10)} {k : Nat} (hk : k < 7) : (padSkews l).getD k 0 = l.getD k 0 := by
  simp [padSkews, List.getD_eq_getElem?_getD, hk]

theorem padSkews_set_getD {l : List (BitVec 10)} {k : Nat} (hk : k < 7) (b : BitVec 10) :
    ((padSkews l).set k b).getD k 0 = b := by
  simp [padSkews, List.getD_eq_getElem?_getD, hk]

/-- The registers of a context that keep some bits of what is written. -/
theorem takes_ctx_masked {s : State} {n x : Nat} {m : Word} (ha : s.Answers) (hn : n < 64) (h : Half) (v : Word)
    (hmem : (x, m) ∈ [(0x010, 0x1FFFFFFFFFF0000#64), (0x018, 0x1FFFFFFFFFF0000), (0x020, 0xFFFFFFFFFFFF0000),
      (0x028, 0x1FFFFFFFFFFFFFC), (0x0C0, 0xFFFFFFFFFFFFFFFF), (0x148, 0x3F), (0x160, 0x3F), (0x178, 1)]) :
    s.Takes (ctxReg n x) h v (regMerge (s.readReg (ctxReg n x)) h v &&& m) := by
  simp only [List.mem_cons, Prod.mk.injEq, List.not_mem_nil, or_false] at hmem
  rcases hmem with ⟨rfl, rfl⟩ | ⟨rfl, rfl⟩ | ⟨rfl, rfl⟩ | ⟨rfl, rfl⟩ | ⟨rfl, rfl⟩ | ⟨rfl, rfl⟩ | ⟨rfl, rfl⟩ |
    ⟨rfl, rfl⟩
  · exact takes_ctx_merged (fun c => c.hwb.setWidth 64 <<< 16) (fun c w => { c with hwb := w.extractLsb' 16 41 })
      (· &&& 0x1FFFFFFFFFF0000#64) ha hn fun _ w => field_in_place w 16 41
  · exact takes_ctx_merged (fun c => c.hwl.setWidth 64 <<< 16) (fun c w => { c with hwl := w.extractLsb' 16 41 })
      (· &&& 0x1FFFFFFFFFF0000#64) ha hn fun _ w => field_in_place w 16 41
  · exact takes_ctx_merged (fun c => c.hwo.setWidth 64 <<< 16) (fun c w => { c with hwo := w.extractLsb' 16 48 })
      (· &&& 0xFFFFFFFFFFFF0000#64) ha hn fun _ w => field_in_place w 16 48
  · exact takes_ctx_merged (fun c => c.tvec.setWidth 64 <<< 2) (fun c w => { c with tvec := w.extractLsb' 2 55 })
      (· &&& 0x1FFFFFFFFFFFFFC#64) ha hn fun _ w => field_in_place w 2 55
  · exact takes_ctx_merged (fun c => c.dcond) (fun c w => { c with dcond := w })
      (· &&& 0xFFFFFFFFFFFFFFFF#64) ha hn fun _ _ => BitVec.and_allOnes.symm
  · exact takes_ctx_merged (fun c => c.pfIrqv.setWidth 64) (fun c w => { c with pfIrqv := w.extractLsb' 0 6 })
      (· &&& 0x3F#64) ha hn fun _ w => field_at_zero w 6
  · exact takes_ctx_merged (fun c => c.ivIrqv.setWidth 64) (fun c w => { c with ivIrqv := w.extractLsb' 0 6 })
      (· &&& 0x3F#64) ha hn fun _ w => field_at_zero w 6
  · exact takes_ctx_merged (fun c => BitVec.ofNat 64 (flag c.ttAllow)) (fun c w => { c with ttAllow := w.getLsbD 0 })
      (· &&& 1#64) ha hn fun _ w => (ofNat_flag _).trans (ofBool_bit_zero w)

/-- DSKEW keeps ten bits of each of its seven words. -/
theorem takes_dskew {s : State} {n k : Nat} (ha : s.Answers) (hn : n < 64) (hk : k < 7) (h : Half) (v : Word) :
    s.Takes (ctxReg n (0x080 + 8 * k)) h v (regMerge (s.readReg (ctxReg n (0x080 + 8 * k))) h v &&& 0x3FF) := by
  have hidx : (0x080 + 8 * k - 0x080) / 8 = k := by omega
  refine takes_ctx_merged (fun c => (c.dskew.getD k 0).setWidth 64)
    (fun c w => { c with dskew := (padSkews c.dskew).set k (w.extractLsb' 0 10) }) (· &&& 0x3FF#64) ha hn
    (fun c w => ?_) (by omega) (by omega) (fun u => ?_) ?_
  · dsimp only
    rw [padSkews_set_getD hk]
    exact field_at_zero w 10
  · simp (disch := omega) only [State.readCtxReg, if_neg, if_pos, hidx]
  · simp (disch := omega) only [State.writeCtxReg, if_neg, if_pos, hidx, padSkews_getD hk]

/-- The registers of a context that keep a number within limits. -/
theorem takes_dperiod {s : State} {n : Nat} (ha : s.Answers) (hn : n < 64) (h : Half) (v : Word) :
    s.Takes (ctxReg n 0x030) h v (BitVec.ofNat 64
      (min (max ((regMerge (s.readReg (ctxReg n 0x030)) h v).toNat % 2 ^ 13) 16) 4096)) :=
  takes_ctx_merged (fun c => BitVec.ofNat 64 c.dperiod)
    (fun c w => { c with dperiod := clampNat 16 4096 (wordField w 0 13) })
    (fun w => BitVec.ofNat 64 (min (max (w.toNat % 2 ^ 13) 16) 4096)) ha hn
    fun _ w => by simp only [clampNat, wordField_zero]

theorem takes_age {s : State} {n : Nat} (ha : s.Answers) (hn : n < 64) (h : Half) (v : Word) :
    s.Takes (ctxReg n 0x110) h v (BitVec.ofNat 64
      (min (max ((regMerge (s.readReg (ctxReg n 0x110)) h v).toNat % 2 ^ 16) 64) 65535)) :=
  takes_ctx_merged (fun c => c.age.setWidth 64) (fun c w => { c with age := BitVec.ofNat 16 (max 64 (wordField w 0 16)) })
    (fun w => BitVec.ofNat 64 (min (max (w.toNat % 2 ^ 16) 64) (2 ^ 16 - 1))) ha hn
    fun _ w => by simpa only [wordField_zero] using bounded_field (n := 16) (by decide) (by decide) w.toNat

theorem takes_pdl {s : State} {n : Nat} (ha : s.Answers) (hn : n < 64) (h : Half) (v : Word) :
    s.Takes (ctxReg n 0x118) h v (BitVec.ofNat 64
      (min (max ((regMerge (s.readReg (ctxReg n 0x118)) h v).toNat % 2 ^ 32) 256) (2 ^ 32 - 1))) :=
  takes_ctx_merged (fun c => c.pdl.setWidth 64) (fun c w => { c with pdl := BitVec.ofNat 32 (max 256 (wordField w 0 32)) })
    (fun w => BitVec.ofNat 64 (min (max (w.toNat % 2 ^ 32) 256) (2 ^ 32 - 1))) ha hn
    fun _ w => by simpa only [wordField_zero] using bounded_field (n := 32) (by decide) (by decide) w.toNat

theorem takes_markgap {s : State} {n : Nat} (ha : s.Answers) (hn : n < 64) (h : Half) (v : Word) :
    s.Takes (ctxReg n 0x120) h v (BitVec.ofNat 64
      (min (max ((regMerge (s.readReg (ctxReg n 0x120)) h v).toNat % 2 ^ 32) 1024) (2 ^ 32 - 1))) :=
  takes_ctx_merged (fun c => c.markgap.setWidth 64)
    (fun c w => { c with markgap := BitVec.ofNat 32 (max 1024 (wordField w 0 32)) })
    (fun w => BitVec.ofNat 64 (min (max (w.toNat % 2 ^ 32) 1024) (2 ^ 32 - 1))) ha hn
    fun _ w => by simpa only [wordField_zero] using bounded_field (n := 32) (by decide) (by decide) w.toNat

/-- DCOND's bits are set through one register and cleared through another. -/
theorem takes_dcond_set {s : State} {n : Nat} (ha : s.Answers) (hn : n < 64) (h : Half) (v : Word) :
    s.Takes (ctxReg n 0x0C8) h v ((s.ctx n).dcond ||| halfBits h v) :=
  takes_ctx (get := fun c => c.dcond) (upd := fun c => { c with dcond := c.dcond ||| halfBits h v }) ha hn (by decide)
    (by decide) (fun _ => rfl) rfl

theorem takes_dcond_clear {s : State} {n : Nat} (ha : s.Answers) (hn : n < 64) (h : Half) (v : Word) :
    s.Takes (ctxReg n 0x0D0) h v ((s.ctx n).dcond &&& ~~~(halfBits h v)) :=
  takes_ctx (get := fun c => c.dcond) (upd := fun c => { c with dcond := c.dcond &&& ~~~(halfBits h v) }) ha hn (by decide)
    (by decide) (fun _ => rfl) rfl

/-- Register writes, block by block (00 R7; 03 R62, R65, R68, R440). -/
theorem registerWriteRules : Claim.RegisterWriteRules := by
  intro s o i h v harg mailbox ctxReg' new takes clamp
  have hexec := exec_registerWrite harg
  have htakes {w : Word} (ht : s.Takes o h v w) : takes w := ⟨_, hexec, ht⟩
  refine ⟨fun ho => by rw [hexec, writeReg_unaligned ho], fun ho hc => by rw [hexec, writeReg_closed ho hc],
    fun k hk ho => ?_, fun ho hup hlo hhi hinv => ?_, fun hup hready => ?_⟩
  · obtain rfl : o = 0x200000 + (0x1000 + 8 * k) := by omega
    exact htakes (takes_msix s hk h v)
  · obtain ⟨x, rfl⟩ : ∃ x, o = 0x20000 + (0x1000 + x) := ⟨o - 0x21000, by omega⟩
    exact htakes (takes_mbIn hinv.2.1 hup (by omega) (by omega) h v)
  have ha : s.Answers := ⟨hup, hready⟩
  refine ⟨?_, ?_, ?_, ?_, ?_, ?_, ?_⟩
  · rintro rfl; exact htakes (takes_apctl ha h v)
  · rintro n x m hn rfl hm; exact htakes (takes_ctx_masked ha hn h v hm)
  · rintro n k hn hk rfl; exact htakes (takes_dskew ha hn hk h v)
  · refine fun n hn => ⟨?_, ?_, ?_, ?_, ?_, ?_⟩
    · rintro rfl; exact htakes (takes_dperiod ha hn h v)
    · rintro rfl; exact htakes (takes_age ha hn h v)
    · rintro rfl; exact htakes (takes_pdl ha hn h v)
    · rintro rfl; exact htakes (takes_markgap ha hn h v)
    · rintro rfl; exact htakes (takes_dcond_set ha hn h v)
    · rintro rfl; exact htakes (takes_dcond_clear ha hn h v)
  · rintro (rfl | rfl)
    · exact htakes (takes_holdLim (hub := 4) ha (.inl rfl) h v)
    · exact htakes (takes_holdLim (hub := 5) ha (.inr rfl) h v)
  · rintro (rfl | rfl)
    · exact htakes (takes_remto (hub := 4) ha (.inl rfl) h v)
    · exact htakes (takes_remto (hub := 5) ha (.inr rfl) h v)
  · intro k hk ho hset
    obtain rfl : o = 0x30000 + (0x1000 + 0x20 * k) := by omega
    exact htakes (takes_eventClear ha hk hset)

/-- Settles O55: the aperture's accesses and the window's register writes. -/
theorem hostWindowRules : Obligations.HostWindowRules :=
  ⟨apertureRules, registerWriteRules⟩

end Sys2Proof.Machine
end

section
/-! PROOF. The order of a step, and the stream units as a cycle begins (13 R350; log entry 5). -/

namespace Sys2Proof.Machine

open Sys2Proof

/-- The machine after start-up with the placed task on core 0, whose stream unit is merging two empty inputs, and with
nothing else left to do in the cycle (13 R348, R350). -/
def streamingState : State :=
  let out : Stream := { bind := 2, op := 1, srca := 1, srcb := 2 }
  let input : Stream := { bind := 1 }
  let streams := ((placeTask.r.streams.set 0 out).set 1 input).set 2 input
  { State.reset.placeWord 0 with turns := [], tasks := [{ placeTask with r := { placeTask.r with streams := streams } }] }

/-- As the next cycle begins the stream unit finds no element left, and the end of its operation comes due (13 R349). -/
theorem streamingState_tick_due :
    streamingState.tick.due = [(1, .streamOperationEnd, .task placeTask.tid)] := by decide +kernel

/-- Refutes O23: a stream unit at work takes its element, or ends its operation, as the cycle begins (13 R350), with no
roll waiting and no timer set; so the tasks and the events due do not stay as they were. -/
theorem not_stepRunsEvent : ¬ Obligations.StepRunsEvent := by
  unfold Obligations.StepRunsEvent
  intro h
  obtain ⟨-, -, -, hnext⟩ := h streamingState .nop .none (fun hi => nomatch hi)
  obtain ⟨u, hu, -, -, -, -, hquiet⟩ := hnext rfl (fun e he => nomatch he) rfl
  have htick : u = streamingState.tick := (Host.Outcome.next.inj hu).symm
  have hwait : ∀ t ∈ streamingState.tasks, ∀ b k o, t.wait ≠ some (.roll b k o) := by
    intro t ht b k o
    rw [streamingState, List.mem_singleton] at ht
    subst ht
    exact fun hw => nomatch hw
  obtain ⟨-, -, hdue⟩ := hquiet hwait
  have hsame : u.due = [] := hdue (fun x hx => nomatch hx)
  rw [htick, streamingState_tick_due] at hsame
  exact absurd hsame (List.cons_ne_nil _ _)

end Sys2Proof.Machine
end

section
/-! PROOF. Request trackers: what an event of a tracker leaves (01 R13 to R15). -/

namespace Sys2Proof.Machine

open Sys2Proof

/-! ## Storing a tracker -/

/-- A tracker has become `v`; the other trackers, memory and the tasks stand as they did. -/
structure TrackerSet (s u : State) (home : Nat) (cls : SrcClass) (v : Tracker) : Prop where
  tracker : u.tracker home cls = v
  others : ∀ h k, (h ≠ home ∨ k ≠ cls) → u.tracker h k = s.tracker h k
  mem : u.mem = s.mem
  tasks : u.tasks = s.tasks

section
variable {s u : State} {home : Nat} {cls : SrcClass} {t v : Tracker}

theorem TrackerSet.frame (h : TrackerSet s u home cls v) :
    (∀ h k, (h ≠ home ∨ k ≠ cls) → u.tracker h k = s.tracker h k) ∧ u.mem = s.mem ∧ u.tasks = s.tasks :=
  ⟨h.others, h.mem, h.tasks⟩

theorem tracker_setTracker_other {h : Nat} {k : SrcClass} (hne : h ≠ home ∨ k ≠ cls) :
    (s.setTracker home cls t).tracker h k = s.tracker h k := by
  have hhead : (home == h && cls == k) = false := by
    rcases hne with hne | hne <;> simp [Ne.symm hne]
  have hrest : ∀ x : Nat × SrcClass × Tracker,
      decide ((!(x.1 == home && x.2.1 == cls)) = true ∧ (x.1 == h && x.2.1 == k) = true) =
        (x.1 == h && x.2.1 == k) := by
    intro x
    by_cases hx : x.1 = h ∧ x.2.1 = k
    · obtain ⟨rfl, rfl⟩ := hx
      rcases hne with hne | hne <;> simp [hne]
    · rw [not_and_or] at hx
      rcases hx with hx | hx <;> simp [hx]
  simp only [State.tracker, State.setTracker, State.onPackage_package, List.find?_cons, hhead, List.find?_filter, hrest]

theorem setTracker_set : TrackerSet s (s.setTracker home cls t) home cls t where
  tracker := by simp [State.tracker, State.setTracker]
  others _ _ h := tracker_setTracker_other h
  mem := rfl
  tasks := rfl

theorem TrackerSet.post (h : TrackerSet s u home cls v) (n : Nat) (i : Instr) (a : EvArg) :
    TrackerSet s (u.post n i a) home cls v := ⟨h.tracker, h.others, h.mem, h.tasks⟩

theorem offerTickets_set : TrackerSet s (s.offerTickets home cls t) home cls (t.offer s.cycle t.tickets.length) := by
  unfold State.offerTickets
  dsimp only
  split
  · exact setTracker_set.post _ _ _
  · exact setTracker_set

end

/-! ## Room, tickets and offers -/

theorem Tracker.room_iff {t : Tracker} : t.room = true ↔ t.used + t.held.length < 256 := decide_eq_true_iff

theorem Tracker.room_eq_false {t : Tracker} (h : ¬t.used + t.held.length < 256) : t.room = false := decide_eq_false h

theorem Tracker.hasTicket_eq_false_iff {t : Tracker} {port : Nat} :
    t.hasTicket port = false ↔ (∀ x ∈ t.tickets, x.1 ≠ port) ∧ ∀ x ∈ t.held, x.1 ≠ port := by
  simp [Tracker.hasTicket]

/-- Without a ticket nothing is offered. -/
theorem Tracker.offer_nil {t : Tracker} (h : t.tickets = []) (cycle n : Nat) : t.offer cycle n = t := by
  cases n with
  | zero => rfl
  | succ n => simp only [Tracker.offer, h]

/-- Without a free entry nothing is offered. -/
theorem Tracker.offer_full {t : Tracker} (h : t.room = false) (cycle n : Nat) : t.offer cycle n = t := by
  cases n with
  | zero => rfl
  | succ n =>
    unfold Tracker.offer
    split
    · rfl
    · simp only [h, Bool.false_eq_true, if_false]

/-- One free entry goes to the oldest ticket. -/
theorem Tracker.offer_one {t : Tracker} {x : Nat × Nat} {xs : List (Nat × Nat)} (h : t.tickets = x :: xs)
    (hroom : t.used + t.held.length = 255) (cycle n : Nat) :
    t.offer cycle (n + 1) = { t with tickets := xs, held := t.held ++ [(x.1, x.2, cycle)] } := by
  have hr : t.room = true := Tracker.room_iff.2 (by omega)
  simp only [Tracker.offer, h, hr, if_true]
  exact Tracker.offer_full (Tracker.room_eq_false (by simp; omega)) _ _

theorem offerTickets_nil {s : State} {home : Nat} {cls : SrcClass} {t : Tracker} (h : t.tickets = []) :
    (s.offerTickets home cls t).tracker home cls = t := offerTickets_set.tracker.trans (Tracker.offer_nil h _ _)

theorem offerTickets_full {s : State} {home : Nat} {cls : SrcClass} {t : Tracker} (h : t.room = false) :
    (s.offerTickets home cls t).tracker home cls = t := offerTickets_set.tracker.trans (Tracker.offer_full h _ _)

/-- One free entry goes to the oldest ticket, and the notice is due again 1,024 cycles later. -/
theorem offerTickets_one {s : State} {home : Nat} {cls : SrcClass} {t : Tracker} {x : Nat × Nat} {xs : List (Nat × Nat)}
    (h : t.tickets = x :: xs) (hroom : t.used + t.held.length = 255) :
    (s.offerTickets home cls t).tracker home cls =
        { t with tickets := xs, held := t.held ++ [(x.1, x.2, s.cycle)] } ∧
      (s.cycle + 1024, .ticketNoticeResend, .tracker home cls) ∈ (s.offerTickets home cls t).due := by
  have hoffer : t.offer s.cycle t.tickets.length = { t with tickets := xs, held := t.held ++ [(x.1, x.2, s.cycle)] } := by
    rw [h, List.length_cons, Tracker.offer_one h hroom]
  refine ⟨offerTickets_set.tracker.trans hoffer, ?_⟩
  have hgrew : t.held.length < (t.offer s.cycle t.tickets.length).held.length := by simp [hoffer]
  simp only [State.offerTickets, hgrew, if_true, State.post_due]
  exact mem_insertDue.2 (.inl rfl)

/-- No entry of a tracker names a port. -/
def Tracker.clear (t : Tracker) (port : Nat) : Prop :=
  (∀ x ∈ t.tickets, x.1 ≠ port) ∧ (∀ x ∈ t.held, x.1 ≠ port) ∧ (∀ x ∈ t.refused, x.1 ≠ port) ∧
    ∀ x ∈ t.behind, x.1 ≠ port

theorem Tracker.offer_clear {port : Nat} (cycle n : Nat) {t : Tracker} (h : t.clear port) :
    (t.offer cycle n).clear port := by
  induction n generalizing t with
  | zero => exact h
  | succ n ih =>
    unfold Tracker.offer
    split
    · exact h
    · rename_i p r rest he
      obtain ⟨ht, hh, hr, hb⟩ := h
      rw [he] at ht
      split
      · refine ih ⟨fun x hx => ht x (List.mem_cons_of_mem _ hx), fun x hx => ?_, hr, hb⟩
        rcases List.mem_append.1 hx with hx | hx
        · exact hh x hx
        · rw [List.mem_singleton.1 hx]
          exact ht _ List.mem_cons_self
      · exact ⟨he ▸ ht, hh, hr, hb⟩

/-! ## The events -/

section
variable {s : State} {home port req : Nat} {cls : SrcClass}

theorem exec_packageRequest (s : State) : exec .packageRequest s = execPackageRequest s := rfl
theorem exec_requestRetry (s : State) : exec .requestRetry s = execRequestRetry s := rfl
theorem exec_trackerEntryFree (s : State) : exec .trackerEntryFree s = execTrackerEntryFree s := rfl
theorem exec_ticketNoticeResend (s : State) : exec .ticketNoticeResend s = execTicketNoticeResend s := rfl
theorem exec_ticketClaim (s : State) : exec .ticketClaim s = execTicketClaim s := rfl
theorem exec_sourcePortReset (s : State) : exec .sourcePortReset s = execSourcePortReset s := rfl

theorem exec_packageRequest_accept (harg : s.arg = .request home cls port req)
    (hfree : (s.tracker home cls).hasTicket port = false) (hroom : (s.tracker home cls).room = true)
    (ht : (s.tracker home cls).tickets = []) : exec .packageRequest s =
      .next (s.setTracker home cls { s.tracker home cls with used := (s.tracker home cls).used + 1 }) := by
  simp [exec_packageRequest, execPackageRequest, harg, hfree, hroom, ht]

theorem exec_packageRequest_refuse (harg : s.arg = .request home cls port req)
    (hfree : (s.tracker home cls).hasTicket port = false)
    (hno : (s.tracker home cls).room = false ∨ (s.tracker home cls).tickets ≠ []) : exec .packageRequest s =
      .next ((s.setTracker home cls
        { s.tracker home cls with refused := (s.tracker home cls).refused ++ [(port, req)] }).post 32 .requestRetry
        (.request home cls port req)) := by
  have hno' : ¬((s.tracker home cls).room && (s.tracker home cls).tickets.isEmpty) = true := by
    rcases hno with hno | hno <;> simp [hno]
  simp only [exec_packageRequest, execPackageRequest, harg, hfree, hno', Bool.false_eq_true, if_false]

theorem exec_packageRequest_behind (harg : s.arg = .request home cls port req)
    (hticket : (s.tracker home cls).hasTicket port = true) : exec .packageRequest s =
      .next (s.setTracker home cls
        { s.tracker home cls with behind := (s.tracker home cls).behind ++ [(port, req, false)] }) := by
  simp only [exec_packageRequest, execPackageRequest, harg, hticket, if_true]

theorem exec_requestRetry_behind (harg : s.arg = .request home cls port req)
    (hmem : (port, req) ∈ (s.tracker home cls).refused) (hticket : (s.tracker home cls).hasTicket port = true) :
    exec .requestRetry s = .next (s.setTracker home cls { s.tracker home cls with
      refused := (s.tracker home cls).refused.erase (port, req)
      behind := (s.tracker home cls).behind ++ [(port, req, true)] }) := by
  simp [exec_requestRetry, execRequestRetry, harg, hmem, hticket]

theorem exec_requestRetry_accept (harg : s.arg = .request home cls port req)
    (hmem : (port, req) ∈ (s.tracker home cls).refused) (hfree : (s.tracker home cls).hasTicket port = false)
    (hroom : (s.tracker home cls).room = true) (ht : (s.tracker home cls).tickets = []) :
    exec .requestRetry s = .next (s.setTracker home cls { s.tracker home cls with
      refused := (s.tracker home cls).refused.erase (port, req), used := (s.tracker home cls).used + 1 }) := by
  simp [exec_requestRetry, execRequestRetry, harg, hmem, hfree, hroom, ht]

theorem exec_requestRetry_ticket (harg : s.arg = .request home cls port req)
    (hmem : (port, req) ∈ (s.tracker home cls).refused) (hfree : (s.tracker home cls).hasTicket port = false)
    (hroom : (s.tracker home cls).room = false) :
    exec .requestRetry s = .next (s.offerTickets home cls { s.tracker home cls with
      refused := (s.tracker home cls).refused.erase (port, req)
      tickets := (s.tracker home cls).tickets ++ [(port, req)] }) := by
  simp [exec_requestRetry, execRequestRetry, harg, hmem, hfree, hroom]

theorem exec_trackerEntryFree_used (harg : s.arg = .tracker home cls) (hused : 0 < (s.tracker home cls).used) :
    exec .trackerEntryFree s =
      .next (s.offerTickets home cls { s.tracker home cls with used := (s.tracker home cls).used - 1 }) := by
  have h0 : (s.tracker home cls).used ≠ 0 := by omega
  simp only [exec_trackerEntryFree, execTrackerEntryFree, harg, h0, if_false]

/-- A held entry whose notice is 1,024 cycles old is given the cycle of the notice that repeats it. -/
def renotice (cycle : Nat) (x : Nat × Nat × Nat) : Nat × Nat × Nat :=
  if x.2.2 + 1024 ≤ cycle then (x.1, x.2.1, cycle) else x

theorem renotice_map_names (cycle : Nat) (l : List (Nat × Nat × Nat)) :
    (l.map (renotice cycle)).map (fun x => (x.1, x.2.1)) = l.map fun x => (x.1, x.2.1) := by
  rw [List.map_map]
  refine List.map_congr_left fun x _ => ?_
  simp only [Function.comp_apply, renotice]
  split <;> rfl

theorem renotice_map_recent {cycle : Nat} {l : List (Nat × Nat × Nat)} {x : Nat × Nat × Nat}
    (hx : x ∈ l.map (renotice cycle)) : cycle < x.2.2 + 1024 := by
  obtain ⟨y, -, rfl⟩ := List.mem_map.1 hx
  unfold renotice
  split
  · exact Nat.lt_add_of_pos_right (by decide)
  · omega

theorem exec_ticketNoticeResend_late (harg : s.arg = .tracker home cls)
    (hlate : ∃ x ∈ (s.tracker home cls).held, x.2.2 + 1024 ≤ s.cycle) : exec .ticketNoticeResend s =
      .next ((s.setTracker home cls
        { s.tracker home cls with held := (s.tracker home cls).held.map (renotice s.cycle) }).post 1024
        .ticketNoticeResend (.tracker home cls)) := by
  have hany : ((s.tracker home cls).held.any fun x => decide (x.2.2 + 1024 ≤ s.cycle)) = true := by simpa using hlate
  have hf : renotice s.cycle = fun x => if x.2.2 + 1024 ≤ s.cycle then (x.1, x.2.1, s.cycle) else x := rfl
  simp only [exec_ticketNoticeResend, execTicketNoticeResend, harg, hany, if_true, decide_eq_true_eq, hf]

/-- The tracker after a claim: the entry held for the port is used, or is free again for a null request, and what waited
behind the port's ticketed request is to be made. -/
def Tracker.claimed (t : Tracker) (port : Nat) (null : Bool) : Tracker :=
  { t with
    held := t.held.filter (·.1 != port), used := if null then t.used else t.used + 1
    behind := t.behind.filter (·.1 != port)
    refused := t.refused ++ (t.behind.filter fun x => x.1 == port && x.2.2).map fun x => (x.1, x.2.1) }

theorem exec_ticketClaim_held {null : Bool} (harg : s.arg = .claim home cls port null)
    (hheld : ∃ x ∈ (s.tracker home cls).held, x.1 = port) : exec .ticketClaim s =
      .next (((s.tracker home cls).behind.filter (·.1 == port)).foldl (fun s x => s.fromBehind home cls x)
        (s.offerTickets home cls ((s.tracker home cls).claimed port null))) := by
  have hany : ((s.tracker home cls).held.any (·.1 == port)) = true := by simpa using hheld
  simp only [exec_ticketClaim, execTicketClaim, harg, hany, if_true, Tracker.claimed, List.filter_filter, Bool.and_comm]

end

/-- Requests that waited in a port are made: each is due, nothing that was due is lost, and the trackers stand. -/
theorem fromBehind_foldl (home : Nat) (cls : SrcClass) (l : List (Nat × Nat × Bool)) {s u : State} {v : Tracker}
    (h : TrackerSet s u home cls v) :
    let w := l.foldl (fun s x => s.fromBehind home cls x) u
    TrackerSet s w home cls v ∧ w.cycle = u.cycle ∧ (∀ d ∈ u.due, d ∈ w.due) ∧ ∀ x ∈ l,
      (u.cycle, if x.2.2 = true then Instr.requestRetry else Instr.packageRequest, EvArg.request home cls x.1 x.2.1) ∈ w.due := by
  induction l generalizing u with
  | nil => exact ⟨h, rfl, fun _ hd => hd, fun x hx => nomatch hx⟩
  | cons y l ih =>
    have h1 : TrackerSet s (u.fromBehind home cls y) home cls v := h.post _ _ _
    obtain ⟨hset, hcycle, hkeep, hdue⟩ := ih h1
    refine ⟨hset, hcycle, fun d hd => hkeep d (mem_insertDue.2 (.inr hd)), fun x hx => ?_⟩
    rcases List.mem_cons.1 hx with rfl | hx
    · exact hkeep _ (mem_insertDue.2 (.inl rfl))
    · exact hdue x hx

/-- After a claim the requests behind the port's ticketed one are due. -/
theorem exec_ticketClaim_made {s : State} {t : Tracker} (home port : Nat) (cls : SrcClass) :
    let u := ((s.tracker home cls).behind.filter (·.1 == port)).foldl (fun s x => s.fromBehind home cls x)
      (s.offerTickets home cls t)
    TrackerSet s u home cls (t.offer s.cycle t.tickets.length) ∧ ∀ x ∈ (s.tracker home cls).behind, x.1 = port →
      (s.cycle, if x.2.2 = true then Instr.requestRetry else Instr.packageRequest, EvArg.request home cls port x.2.1) ∈ u.due := by
  obtain ⟨hset, -, -, hdue⟩ := fromBehind_foldl home cls ((s.tracker home cls).behind.filter (·.1 == port))
    (offerTickets_set (s := s) (t := t))
  refine ⟨hset, fun x hx hp => ?_⟩
  have hcycle : (s.offerTickets home cls t).cycle = s.cycle := by
    unfold State.offerTickets; dsimp only; split <;> rfl
  have := hdue x (List.mem_filter.2 ⟨hx, beq_iff_eq.2 hp⟩)
  rwa [hcycle, hp] at this

/-- A tracker without what a reset port had there. -/
def Tracker.without (t : Tracker) (port : Nat) : Tracker :=
  { t with
    tickets := t.tickets.filter (·.1 != port), held := t.held.filter (·.1 != port)
    refused := t.refused.filter (·.1 != port), behind := t.behind.filter (·.1 != port) }

theorem Tracker.without_clear (t : Tracker) (port : Nat) : (t.without port).clear port := by
  simp [Tracker.without, Tracker.clear]

/-- Trackers that are stored without a port's entries are clear of it, and those that were clear stay so. -/
theorem without_foldl_clear (port : Nat) (l : List (Nat × SrcClass × Tracker)) (s : State) (h : Nat) (k : SrcClass)
    (hclear : (∃ x ∈ l, x.1 = h ∧ x.2.1 = k) ∨ (s.tracker h k).clear port) :
    ((l.foldl (fun s x => s.offerTickets x.1 x.2.1 (x.2.2.without port)) s).tracker h k).clear port := by
  induction l generalizing s with
  | nil => exact hclear.resolve_left fun ⟨_, hx, _⟩ => nomatch hx
  | cons x l ih =>
    have hset := offerTickets_set (s := s) (home := x.1) (cls := x.2.1) (t := x.2.2.without port)
    refine ih _ ?_
    by_cases hx : h = x.1 ∧ k = x.2.1
    · obtain ⟨rfl, rfl⟩ := hx
      exact .inr (hset.tracker ▸ Tracker.offer_clear _ _ (Tracker.without_clear _ _))
    · rw [not_and_or] at hx
      rw [hset.others h k hx]
      refine hclear.imp_left fun ⟨y, hy, hyh, hyk⟩ => ⟨y, (List.mem_cons.1 hy).resolve_left ?_, hyh, hyk⟩
      rintro rfl
      exact hx.elim (fun e => e hyh.symm) fun e => e hyk.symm

theorem exec_sourcePortReset_clear {s : State} {port : Nat} (harg : s.arg = .num port) :
    ∃ u, exec .sourcePortReset s = .next u ∧ ∀ h k, (u.tracker h k).clear port := by
  refine ⟨(s.dropPort port).package.trackers.foldl
    (fun s x => s.offerTickets x.1 x.2.1 (x.2.2.without port)) (s.dropPort port), ?_, fun h k => ?_⟩
  · simp only [exec_sourcePortReset, execSourcePortReset, harg, Tracker.without]
  · refine without_foldl_clear _ _ _ _ _ ?_
    rcases hf : (s.dropPort port).package.trackers.find? (fun x => x.1 == h && x.2.1 == k) with _ | x
    · refine .inr ?_
      simp only [State.tracker, hf]
      simp [Tracker.clear]
    · have hx := List.find?_some hf
      simp only [Bool.and_eq_true, beq_iff_eq] at hx
      exact .inl ⟨x, List.mem_of_find?_eq_some hf, hx⟩

/-- Settles O15, event by event. -/
theorem trackerRules : Obligations.TrackerRules := by
  unfold Obligations.TrackerRules
  intro s home port req cls t arg room free sets
  have hfree (h : free) : t.hasTicket port = false := Tracker.hasTicket_eq_false_iff.2 h
  have hticket (h : ¬free) : t.hasTicket port = true := by
    rw [← Bool.not_eq_false]; exact fun k => h (Tracker.hasTicket_eq_false_iff.1 k)
  have hroom (h : room) : t.room = true := Tracker.room_iff.2 h
  have hfull (h : ¬room) : t.room = false := Tracker.room_eq_false h
  have stored {v : Tracker} : TrackerSet s (s.setTracker home cls v) home cls v := setTracker_set
  have offered {v : Tracker} : TrackerSet s (s.offerTickets home cls v) home cls (v.offer s.cycle v.tickets.length) :=
    offerTickets_set
  refine ⟨fun harg => ⟨fun f r ht => ?_, fun f hno => ?_, fun nf => ?_, fun hmem => ⟨fun nf => ?_, fun f r ht => ?_,
    fun f nr => ?_⟩⟩, fun harg hused => ⟨fun ht => ?_, fun x xs ht h256 => ?_⟩, fun harg hlate => ?_,
    fun null harg hheld ht => ?_, fun harg => exec_sourcePortReset_clear harg⟩
  · exact ⟨_, exec_packageRequest_accept harg (hfree f) (hroom r) ht, stored.tracker, stored.frame⟩
  · exact ⟨_, exec_packageRequest_refuse harg (hfree f) (hno.imp_left hfull),
      ⟨stored.tracker, mem_insertDue.2 (.inl rfl)⟩, stored.frame⟩
  · exact ⟨_, exec_packageRequest_behind harg (hticket nf), stored.tracker, stored.frame⟩
  · exact ⟨_, exec_requestRetry_behind harg hmem (hticket nf), stored.tracker, stored.frame⟩
  · exact ⟨_, exec_requestRetry_accept harg hmem (hfree f) (hroom r) ht, stored.tracker, stored.frame⟩
  · exact ⟨_, exec_requestRetry_ticket harg hmem (hfree f) (hfull nr),
      offerTickets_full (hfull nr), offered.frame⟩
  · exact ⟨_, exec_trackerEntryFree_used harg hused, offerTickets_nil ht, offered.frame⟩
  · exact ⟨_, exec_trackerEntryFree_used harg hused, offerTickets_one (t := { t with used := t.used - 1 }) ht
      (by dsimp only; omega), offered.frame⟩
  · refine ⟨_, exec_ticketNoticeResend_late harg hlate, ?_, stored.frame⟩
    rw [(stored.post _ _ _).tracker]
    exact ⟨renotice_map_names _ _, fun x hx => renotice_map_recent hx, mem_insertDue.2 (.inl rfl)⟩
  · obtain ⟨hset, hdue⟩ := exec_ticketClaim_made (s := s) (t := t.claimed port null) home port cls
    have hnil : (t.claimed port null).offer s.cycle (t.claimed port null).tickets.length = t.claimed port null :=
      Tracker.offer_nil (t := t.claimed port null) ht _ _
    exact ⟨_, exec_ticketClaim_held harg hheld, ⟨hset.tracker.trans hnil, hdue⟩, hset.frame⟩

end Sys2Proof.Machine
end

section
/-! PROOF. The registers of a device after a full reset, as the host reads them (03 R62, R67, R68, R71). -/

namespace Sys2Proof.Machine

open Sys2Proof

/-! ## The blocks of the window -/

section
variable {s : State}

theorem readReg_hub (h : s.Answers) {b o : Nat} (hb : b = 0x40000 ∨ b = 0x80000) (ho : o < 0x40000) :
    s.readReg (b + o) = s.readHubReg (if b = 0x40000 then 4 else 5) o := by
  obtain ⟨hup, hready⟩ := h
  unfold State.readReg
  rw [if_neg (by omega), if_neg (by simp [hup]), if_neg (by omega), if_neg (by omega), if_neg (by simp [hready]),
    if_neg (by omega), if_neg (by omega)]
  rcases hb with rfl | rfl
  · rw [if_pos (by omega), if_pos rfl, Nat.add_sub_cancel_left]
  · rw [if_neg (by omega), if_pos (by omega), if_neg (by decide), Nat.add_sub_cancel_left]

theorem readReg_queue (h : s.Answers) {q o : Nat} (hq : q < 64) (ho : o < 0x100) :
    s.readReg (0xC0000 + 0x100 * q + o) = s.readQueueReg q o := by
  obtain ⟨hup, hready⟩ := h
  have hdiv : (0xC0000 + 0x100 * q + o - 0xC0000) / 0x100 = q := by omega
  have hmod : (0xC0000 + 0x100 * q + o) % 0x100 = o := by omega
  unfold State.readReg
  rw [if_neg (by omega), if_neg (by simp [hup]), if_neg (by omega), if_neg (by omega), if_neg (by simp [hready]),
    if_neg (by omega), if_neg (by omega), if_neg (by omega), if_neg (by omega), if_pos (by omega), hdiv, hmod]

/-- The offsets 0x100 to 0x1FF of a context block are in its first part. -/
theorem readReg_ctxLow (h : s.Answers) {n o : Nat} (hn : n < 64) (hlo : 0x100 ≤ o) (hhi : o < 0x200) :
    s.readReg (0x100000 + 0x1000 * n + o) = s.readCtxLow n o := by
  refine (readReg_ctx h hn (by omega)).trans ?_
  unfold State.readCtxReg
  dsimp only
  rw [if_neg (by omega), if_neg (by omega), if_neg (by omega), if_neg (by omega), if_neg (by omega), if_neg (by omega),
    if_neg (by omega)]

/-! ## Queues and contexts at their reset values -/

theorem readQueueReg_of_default (h : s.host.queues = []) (q : Nat) :
    s.readQueueReg q 0x00 = 0x400 ∧ s.readQueueReg q 0x08 = 0 ∧ s.readQueueReg q 0x10 = 4 ∧ s.readQueueReg q 0x18 = 0 ∧
      s.readQueueReg q 0x20 = 0 ∧ s.readQueueReg q 0x28 = 0 := by
  have hq : s.queue q = {} := by rw [State.queue, h]; rfl
  simp only [State.readQueueReg, hq]
  decide

theorem readCtxLow_of_default (h : s.host.ctxs = []) (n : Nat) :
    s.readCtxLow n 0x100 = 0 ∧ s.readCtxLow n 0x108 = 0 ∧ s.readCtxLow n 0x110 = 4096 ∧ s.readCtxLow n 0x118 = 20000 ∧
      s.readCtxLow n 0x120 = 50000 ∧ s.readCtxLow n 0x128 = BitVec.ofNat 64 (flag (s.quiet n) * 2) ∧
      s.readCtxLow n 0x168 = 0x5956F := by
  have hc : s.ctx n = {} := by rw [State.ctx, h]; rfl
  simp only [State.readCtxLow, hc]
  refine ⟨by decide, by decide, by decide, by decide, by decide, ?_, by decide⟩
  rw [flag, if_neg (by decide), Nat.zero_add]

theorem readHubReg_of_default (h : s.fabric.hubs = []) (hub : Nat) :
    s.readHubReg hub 0x21000 = 0x1000000 ∧ s.readHubReg hub 0x21008 = 0x400000 ∧ s.readHubReg hub 0x21010 = 0 := by
  have hx : s.hubOf hub = {} := by rw [State.hubOf, h]; rfl
  unfold State.readHubReg
  dsimp only
  rw [hx]
  exact ⟨rfl, rfl, rfl⟩

/-- With no task a context is quiet. -/
theorem quiet_of_no_task (h : s.tasks = []) (n : Nat) : s.quiet n = true := by simp [State.quiet, h]

end

/-- Settles O28: each register is read through its block, whose queues, contexts and hubs have their default values. -/
theorem resetRules : Obligations.ResetRules := by
  unfold Obligations.ResetRules
  intro s up
  have hup : up.Answers := ⟨rfl, rfl⟩
  refine ⟨rfl, rfl, rfl, rfl, rfl, rfl, ⟨rfl, rfl, rfl⟩, fun a => rfl, fun q hq => ?_, fun n hn => ?_, fun b hb => ?_, ?_⟩
  · obtain ⟨hctl, hbase, hlog, hwr, hrd, hdone⟩ := readQueueReg_of_default (s := up) rfl q
    exact ⟨(readReg_queue (o := 0) hup hq (by decide)).trans hctl, (readReg_queue hup hq (by decide)).trans hbase,
      (readReg_queue hup hq (by decide)).trans hlog, (readReg_queue hup hq (by decide)).trans hwr,
      (readReg_queue hup hq (by decide)).trans hrd, (readReg_queue hup hq (by decide)).trans hdone⟩
  · obtain ⟨hbase, hcnt, hage, hpdl, hgap, hpre, hlk⟩ := readCtxLow_of_default (s := up) rfl n
    rw [quiet_of_no_task rfl] at hpre
    have low {o : Nat} (hlo : 0x100 ≤ o) (hhi : o < 0x200) := readReg_ctxLow hup hn hlo hhi
    exact ⟨(low (by decide) (by decide)).trans hbase, (low (by decide) (by decide)).trans hcnt,
      (low (by decide) (by decide)).trans hage, (low (by decide) (by decide)).trans hpdl,
      (low (by decide) (by decide)).trans hgap, (low (by decide) (by decide)).trans hpre,
      (low (by decide) (by decide)).trans hlk⟩
  · obtain ⟨hlim, hto, hcnt⟩ := readHubReg_of_default (s := up) rfl (if b = 0x40000 then 4 else 5)
    exact ⟨(readReg_hub hup hb (by decide)).trans hlim, (readReg_hub hup hb (by decide)).trans hto,
      (readReg_hub hup hb (by decide)).trans hcnt⟩
  · rw [readReg_pkg hup (by decide), readReg_pkg hup (by decide), readReg_pkg hup (by decide)]
    decide

end Sys2Proof.Machine
end

section
/-! PROOF. Start-up and full reset: what each event of them leaves (01 R16 to R19, R21, R22, R442). -/

namespace Sys2Proof.Machine

open Sys2Proof

/-! ## Full reset -/

/-- What a full reset leaves (01 R19). -/
theorem fullReset_leaves (s : State) :
    s.fullReset.package.phase = .reset ∧ s.fullReset.package.keys = [] ∧ s.fullReset.package.released = [] ∧
      s.fullReset.tasks = [] ∧ s.fullReset.launches = [] ∧ s.fullReset.cores = {} ∧ s.fullReset.engines = {} ∧
      s.fullReset.prefects = {} ∧ s.fullReset.clocks = {} ∧ s.fullReset.host.ctxs = [] ∧ s.fullReset.host.cards = [] ∧
      s.fullReset.host.welomUp = false ∧ s.fullReset.mem.versions = [] ∧ s.fullReset.mem.stores = [] ∧
      s.fullReset.cycle = 0 ∧ s.fullReset.cur = none ∧ s.fullReset.due = [] ∧ s.fullReset.inputs = s.inputs ∧
      ∀ h, h = 4 ∨ h = 5 → (s.fullReset.hubOf h).epoch = (s.hubOf h).epoch + 1 := by
  refine ⟨rfl, rfl, rfl, rfl, rfl, rfl, rfl, rfl, rfl, rfl, rfl, rfl, rfl, rfl, rfl, rfl, rfl, rfl, fun h hh => ?_⟩
  rcases hh with rfl | rfl <;> rfl

/-! ## The population check and key loads -/

/-- The population check passes where each pannier has the same number of packages, 2, 4 or 8 (01 R442). -/
theorem badPannier_eq_none_iff {l : List Nat} :
    badPannier l = none ↔ ∃ n, (n = 2 ∨ n = 4 ∨ n = 8) ∧ ∀ i, i < 8 → l.getD i 0 = n := by
  have hbad : badPannier l = none ↔
      (∀ i, i < 8 → [2, 4, 8].contains (l.getD i 0) = true) ∧ ∀ i, i < 8 → l.getD i 0 = l.getD 0 0 := by
    unfold badPannier
    split
    · next i hi =>
      have hmem := List.mem_range.1 (List.mem_of_find?_eq_some hi)
      have hno := List.find?_some hi
      exact ⟨nofun, fun h => by rw [h.1 i hmem] at hno; exact nomatch hno⟩
    · next hnone =>
      simp only [List.find?_eq_none, List.mem_range, Bool.not_eq_true', Bool.not_eq_false, bne_iff_ne, ne_eq,
        Decidable.not_not] at hnone ⊢
      exact (and_iff_right hnone).symm
  rw [hbad]
  constructor
  · rintro ⟨hall, hsame⟩
    exact ⟨l.getD 0 0, by simpa using hall 0 (by decide), hsame⟩
  · rintro ⟨n, hn, hall⟩
    refine ⟨fun i hi => ?_, fun i hi => (hall i hi).trans (hall 0 (by decide)).symm⟩
    rw [hall i hi]
    simpa using hn

/-- The pannier that fails the check is one of the eight. -/
theorem badPannier_lt {l : List Nat} {i : Nat} (h : badPannier l = some i) : i < 8 := by
  unfold badPannier at h
  split at h
  · next k hk => exact List.mem_range.1 (Option.some.inj h ▸ List.mem_of_find?_eq_some hk)
  · exact List.mem_range.1 (List.mem_of_find?_eq_some h)

/-- The packages found on the eight panniers. -/
def panniers (pkgs : List Nat) : List Nat := (List.range 8).map fun i => pkgs.getD i 0

theorem panniers_getD {pkgs : List Nat} {i : Nat} (h : i < 8) : (panniers pkgs).getD i 0 = pkgs.getD i 0 := by
  simp [panniers, List.getD_eq_getElem?_getD, h]

theorem badPannier_panniers {pkgs : List Nat} :
    badPannier (panniers pkgs) = none ↔ ∃ n, (n = 2 ∨ n = 4 ∨ n = 8) ∧ ∀ i, i < 8 → pkgs.getD i 0 = n := by
  rw [badPannier_eq_none_iff]
  refine exists_congr fun n => and_congr_right fun _ => forall_congr' fun i => forall_congr' fun hi => ?_
  rw [panniers_getD hi]

/-- What one sent key load waits for: its confirmation, and the time limit of 100 µs. -/
theorem sendKey_timer (s : State) (slot ctl : Nat) :
    (s.time + keyLoadUnits, .keyLoadTimeout, .num2 slot ctl) ∈ (s.sendKey slot ctl).timers := mem_insertDue.2 (.inl rfl)

theorem loadKey_one (s : State) (slot ctl : Nat) : ∃ keys next,
    s.loadKey slot [ctl] = (s.onPackage fun p => { p with keys := keys, nextKey := next, keyLoads := p.keyLoads ++
      [{ keySlot := slot, ctl := ctl, resends := 0, deadline := s.time + keyLoadUnits }] }).sendKey slot ctl := by
  rcases hk : s.package.keys.find? slot with _ | k <;>
    simp only [State.loadKey, State.onPackage, hk, List.map_cons, List.map_nil, List.foldl_cons, List.foldl_nil]
  · exact ⟨_, _, rfl⟩
  · exact ⟨s.package.keys, s.package.nextKey, rfl⟩

/-! ## Measuring the dies (01 R17, R442) -/

section
variable {s : State}

/-- The population that the check before pannier 0 has found. -/
def State.counted (s : State) (pkgs : List Nat) : State :=
  if s.package.nextDie = 6 then
    s.onPackage fun p => { p with pkgs := panniers pkgs, capGib := (panniers pkgs).sum * 64 }
  else s

theorem counted_same (s : State) (pkgs : List Nat) : ∃ q c,
    s.counted pkgs = s.onPackage fun p => { p with pkgs := q, capGib := c } := by
  unfold State.counted
  split
  · exact ⟨_, _, rfl⟩
  · exact ⟨s.package.pkgs, s.package.capGib, rfl⟩

/-- A die may be measured now. -/
structure State.Measuring (s : State) : Prop where
  booting : s.package.phase = .booting
  from2 : 2 ≤ s.package.bootStep
  to5 : s.package.bootStep ≤ 5
  held : s.package.nextDie ∉ s.package.released

theorem exec_dieMeasureRelease_fits {digest : BitVec 384} {pkgs : List Nat} (harg : s.arg = .measure digest pkgs)
    (hm : s.Measuring) (hfit : s.package.nextDie ≠ 6 ∨ badPannier (panniers pkgs) = none) :
    exec .dieMeasureRelease s = .next ((s.counted pkgs).measureDie digest) := by
  obtain ⟨hp, h2, h5, hr⟩ := hm
  have hr : s.package.released.contains s.package.nextDie = false := by simpa using hr
  change execDieMeasureRelease s = _
  by_cases h6 : s.package.nextDie = 6
  · have hnone : badPannier ((List.range 8).map fun i => pkgs.getD i 0) = none := hfit.resolve_left (not_not_intro h6)
    simp only [execDieMeasureRelease, harg]
    rw [if_pos ⟨hp, h2, h5, hr⟩, if_pos h6, hnone, State.counted, if_pos h6]
    rfl
  · simp only [execDieMeasureRelease, harg]
    rw [if_pos ⟨hp, h2, h5, hr⟩, if_neg h6, State.counted, if_neg h6]

theorem exec_dieMeasureRelease_bad {digest : BitVec 384} {pkgs : List Nat} {i : Nat}
    (harg : s.arg = .measure digest pkgs) (hm : s.Measuring) (h6 : s.package.nextDie = 6)
    (hbad : badPannier (panniers pkgs) = some i) : exec .dieMeasureRelease s =
      .next ((s.onPackage fun p => { p with pkgs := panniers pkgs }).bootFail 3 (6 + i)) := by
  obtain ⟨hp, h2, h5, hr⟩ := hm
  have hr : s.package.released.contains s.package.nextDie = false := by simpa using hr
  have hbad : badPannier ((List.range 8).map fun i => pkgs.getD i 0) = some i := hbad
  change execDieMeasureRelease s = _
  simp only [execDieMeasureRelease, harg]
  rw [if_pos ⟨hp, h2, h5, hr⟩, if_pos h6, hbad]
  rfl

/-- The manifest gives this digest for the die in hand. -/
def State.wantsDigest (s : State) (digest : BitVec 384) : Prop :=
  ∃ m, s.package.manifest = some m ∧ m.digests[s.package.nextDie]? = some digest

theorem manifest_digest_iff {digest : BitVec 384} :
    ((s.package.manifest.map (·.digests)).getD [])[s.package.nextDie]? = some digest ↔ s.wantsDigest digest := by
  unfold State.wantsDigest
  rcases s.package.manifest with _ | m <;> simp

/-- A die that matches its digest is released and its slot-0 key is on its way. -/
theorem measureDie_wanted {digest : BitVec 384} (h : s.wantsDigest digest) :
    (s.measureDie digest).package.phase = s.package.phase ∧
      (s.measureDie digest).package.pkgs = s.package.pkgs ∧ (s.measureDie digest).package.capGib = s.package.capGib ∧
      (s.measureDie digest).package.released = s.package.released ++ [s.package.nextDie] ∧
      (⟨0, s.package.nextDie, 0, s.time + 100 * usUnits⟩ : KeyLoad) ∈ (s.measureDie digest).package.keyLoads ∧
      (s.time + 100 * usUnits, .keyLoadTimeout, .num2 0 s.package.nextDie) ∈ (s.measureDie digest).timers := by
  obtain ⟨keys, next, hload⟩ := loadKey_one
    (s.onPackage fun p => { p with released := p.released ++ [s.package.nextDie] }) 0 s.package.nextDie
  simp only [State.measureDie, if_pos (manifest_digest_iff.2 h), hload]
  exact ⟨rfl, rfl, rfl, rfl, List.mem_append_right _ List.mem_cons_self, sendKey_timer _ _ _⟩

theorem measureDie_unwanted {digest : BitVec 384} (h : ¬s.wantsDigest digest) :
    s.measureDie digest = s.bootFail 2 s.package.nextDie := by
  simp only [State.measureDie, if_neg (mt manifest_digest_iff.1 h)]

end

/-! ## Key loads confirmed, late and failed (01 R21, R22) -/

section
variable {s : State} {slot ctl : Nat}

theorem dropKeyLoad_none (s : State) (slot ctl : Nat) :
    ∀ k ∈ (s.dropKeyLoad slot ctl).package.keyLoads, ¬(k.keySlot = slot ∧ k.ctl = ctl) := by
  intro k hk
  have hno := (List.mem_filter.1 hk).2
  rintro ⟨rfl, rfl⟩
  simp at hno

/-- The load that is confirmed was awaited. -/
def State.awaits (s : State) (slot ctl : Nat) : Prop := ∃ k ∈ s.package.keyLoads, k.keySlot = slot ∧ k.ctl = ctl

theorem exec_keyLoadConfirm_boot {d : Nat} (harg : s.arg = .num2 0 d) (hp : s.package.phase = .booting)
    (hd : s.package.nextDie = d) (hk : s.awaits 0 d) : exec .keyLoadConfirm s = .next (s.dropKeyLoad 0 d).bootNext := by
  have hany : (s.package.keyLoads.any fun k => k.keySlot == 0 && k.ctl == d) = true := by simpa [State.awaits] using hk
  change execKeyLoadConfirm s = _
  simp only [execKeyLoadConfirm, harg]
  rw [if_pos hany, if_pos True.intro, if_pos ⟨hp, hd⟩]

theorem exec_keyLoadConfirm_last {n : Nat} (harg : s.arg = .num2 (n + 1) ctl) (hk : s.awaits (n + 1) ctl)
    (honly : ∀ k ∈ s.package.keyLoads, k.keySlot = n + 1 → k.ctl = ctl) (hc : (s.ctx n).phase = .creating) :
    exec .keyLoadConfirm s = .next ((s.dropKeyLoad (n + 1) ctl).ctxLive n) := by
  have hany : (s.package.keyLoads.any fun k => k.keySlot == n + 1 && k.ctl == ctl) = true := by
    simpa [State.awaits] using hk
  have hnone : ¬((s.dropKeyLoad (n + 1) ctl).package.keyLoads.any (·.keySlot == n + 1)) = true := by
    rw [List.any_eq_true]
    rintro ⟨k, hk, hslot⟩
    have hslot := beq_iff_eq.1 hslot
    exact dropKeyLoad_none s _ _ k hk ⟨hslot, honly k (List.mem_filter.1 hk).1 hslot⟩
  change execKeyLoadConfirm s = _
  simp only [execKeyLoadConfirm, harg]
  rw [if_pos hany, if_neg (Nat.succ_ne_zero n), if_neg hnone, Nat.add_sub_cancel]
  exact congrArg Host.Outcome.next (if_pos hc)

/-- A key load that a controller has not confirmed is sent again. -/
def State.resendKey (s : State) (slot ctl : Nat) : State :=
  (s.onPackage fun p => { p with keyLoads := p.keyLoads.map fun x =>
    if x.keySlot == slot && x.ctl == ctl then { x with resends := x.resends + 1, deadline := s.time + keyLoadUnits }
    else x }).sendKey slot ctl

theorem exec_keyLoadTimeout {k : KeyLoad} (harg : s.arg = .num2 slot ctl)
    (hk : s.package.keyLoads.find? (fun k => k.keySlot == slot && k.ctl == ctl) = some k) :
    (s.time < k.deadline → exec .keyLoadTimeout s = .next s) ∧
    (k.deadline ≤ s.time → k.resends < 2 → exec .keyLoadTimeout s = .next (s.resendKey slot ctl)) ∧
    (k.deadline ≤ s.time → 2 ≤ k.resends → exec .keyLoadTimeout s = .next
      (if slot = 0 then (s.onPackage fun p => { p with keyLoads := [] }).bootFail 4 ctl
       else s.ctxKeyFail (slot - 1))) := by
  change (_ → execKeyLoadTimeout s = _) ∧ (_ → _ → execKeyLoadTimeout s = _) ∧ (_ → _ → execKeyLoadTimeout s = _)
  simp only [execKeyLoadTimeout, harg, hk]
  refine ⟨fun hlt => ?_, fun hle hr => ?_, fun hle hr => ?_⟩
  · rw [if_pos hlt]
  · rw [if_neg (by omega), if_pos hr]; rfl
  · rw [if_neg (by omega), if_neg (by omega)]

theorem resendKey_load {k : KeyLoad}
    (hk : s.package.keyLoads.find? (fun k => k.keySlot == slot && k.ctl == ctl) = some k) :
    { k with resends := k.resends + 1, deadline := s.time + 100 * usUnits } ∈ (s.resendKey slot ctl).package.keyLoads := by
  exact List.mem_map.2 ⟨k, List.mem_of_find?_eq_some hk, if_pos (List.find?_some hk)⟩

@[simp] theorem recordEvent_ctxs (s : State) (source die code a b : Nat) :
    (s.recordEvent source die code a b).host.ctxs = s.host.ctxs := by
  unfold State.recordEvent; split <;> rfl

@[simp] theorem recordEvent_package (s : State) (source die code a b : Nat) :
    (s.recordEvent source die code a b).package = s.package := by
  unfold State.recordEvent; split <;> rfl

@[simp] theorem recordEvent_ctx (s : State) (source die code a b n : Nat) :
    (s.recordEvent source die code a b).ctx n = s.ctx n := by simp [State.ctx]

theorem Tbl.find?_del_same {α : Type} (t : Tbl α) (k : Nat) : (t.del k).find? k = none := by
  induction t with
  | nil => rfl
  | cons x t ih =>
    by_cases hx : x.1 = k
    · rwa [Tbl.del, if_pos hx]
    · rwa [Tbl.del, if_neg hx, Tbl.find?, if_neg hx]

theorem ctxKeyFail_leaves (s : State) (n : Nat) : ((s.ctxKeyFail n).ctx n).keyfail = true ∧
    ((s.ctxKeyFail n).ctx n).phase = .free ∧ (s.ctxKeyFail n).package.keys.find? (n + 1) = none := by
  simp only [State.ctxKeyFail, recordEvent_ctx, recordEvent_package, State.ctx_modCtx_same, State.modCtx_package, true_and]
  exact Tbl.find?_del_same _ _

/-- A controller has confirmed the zeroisation of a slot. -/
def State.zeroised (s : State) (slot ctl : Nat) : State :=
  s.onPackage fun p => { p with zeroising := p.zeroising.filter (· != (slot, ctl)) }

theorem zeroised_none (honly : ∀ z ∈ s.package.zeroising, z.1 = slot → z.2 = ctl) :
    ∀ z ∈ (s.zeroised slot ctl).package.zeroising, z.1 ≠ slot := fun z hz hslot =>
  bne_iff_ne.1 (List.mem_filter.1 hz).2 (Prod.ext hslot (honly z (List.mem_filter.1 hz).1 hslot))

theorem exec_keyZeroiseConfirm_last {n : Nat} (harg : s.arg = .num2 (n + 1) ctl)
    (hz : (n + 1, ctl) ∈ s.package.zeroising) : exec .keyZeroiseConfirm s = .next ((s.zeroised (n + 1) ctl).ctxFree n) := by
  have hc : s.package.zeroising.contains (n + 1, ctl) = true := by simpa using hz
  change execKeyZeroiseConfirm s = _
  simp only [execKeyZeroiseConfirm, harg]
  rw [if_pos hc, Nat.add_sub_cancel, State.zeroised]

/-- A context that is being destroyed is free once its slot is zeroised and it has no runner and no card. -/
theorem ctxFree_done {n : Nat} (hp : (s.ctx n).phase = .destroying) (hz : ∀ z ∈ s.package.zeroising, z.1 ≠ n + 1)
    (hr : ∀ r ∈ s.host.runners, r.2.ctx ≠ n) (hc : ∀ c ∈ s.host.cards, c.ctx ≠ n) :
    s.ctxFree n = (s.modCtx n fun c => { c with phase := .free }).recordEvent 7 s.coachDie n 0 0 := by
  unfold State.ctxFree
  have hz' : (s.package.zeroising.any fun z => z.1 == n + 1) = false := by simpa using fun a b h => hz (a, b) h
  have hr' : (s.host.runners.any fun r => r.2.ctx == n) = false := by simpa using fun a b h => hr (a, b) h
  have hc' : (s.host.cards.any fun c => c.ctx == n) = false := by simpa using hc
  simp only [hp, hz', hr', hc', ne_eq, not_true_eq_false, decide_false, Bool.or_false, Bool.false_eq_true, if_false]

theorem ctxFree_waits {n : Nat} (h : (∃ r ∈ s.host.runners, r.2.ctx = n) ∨ ∃ c ∈ s.host.cards, c.ctx = n) :
    s.ctxFree n = s := by
  unfold State.ctxFree
  refine if_pos ?_
  rcases h with ⟨r, hr, he⟩ | ⟨c, hc, he⟩
  · have : (s.host.runners.any fun r => r.2.ctx == n) = true := List.any_eq_true.2 ⟨r, hr, beq_iff_eq.2 he⟩
    simp [this]
  · have : (s.host.cards.any fun c => c.ctx == n) = true := List.any_eq_true.2 ⟨c, hc, beq_iff_eq.2 he⟩
    simp [this]

@[simp] theorem ctxFree_package (s : State) (n : Nat) : (s.ctxFree n).package = s.package := by
  unfold State.ctxFree; split <;> simp

end

/-! ## The statement -/

/-- The order in which the dies are measured (01 R17). -/
theorem bootAfter_table : ∀ x ∈ [(4, 5, 3), (5, 0, 4), (0, 1, 4), (1, 2, 4), (2, 3, 4), (3, 6, 5), (6, 7, 5), (7, 8, 5),
    (8, 9, 5), (9, 10, 5), (10, 11, 5), (11, 12, 5), (12, 13, 5)],
    bootAfter x.1 = some x.2.1 ∧ bootStepOf x.2.1 = x.2.2 := by decide

theorem bootNext_next {s : State} {e : Nat} (h : bootAfter s.package.nextDie = some e) :
    s.bootNext = s.onPackage fun p => { p with nextDie := e, bootStep := bootStepOf e } := by simp only [State.bootNext, h]

theorem bootNext_last {s : State} (h : bootAfter s.package.nextDie = none) :
    s.bootNext = (s.onPackage fun p => { p with bootStep := 6 }).postFree .deviceReady := by simp only [State.bootNext, h]

theorem exec_welomLinkTrained {s : State} {ok : Bool} (harg : s.arg = .flag ok) (hp : s.package.phase = .booting)
    (hstep : s.package.bootStep = 0) : exec .welomLinkTrained s = .next (if ok = true then
      (s.onPackage fun p => { p with bootStep := 1 }).onHost fun h => { h with welomUp := true } else s.bootFail 0 0) := by
  change execWelomLinkTrained s = _
  simp only [execWelomLinkTrained, harg]
  rw [if_pos ⟨hp, hstep⟩]

theorem exec_manifestVerify {s : State} {m : Manifest} (harg : s.arg = .manifest m) (hp : s.package.phase = .booting)
    (hstep : s.package.bootStep = 1) : exec .manifestVerify s = .next
      (if m.signatureOk = true ∧ m.keyOk = true ∧ Config.fusedMinVersion.toNat ≤ m.secVersion.toNat then
        s.onPackage fun p => { p with manifest := some m, secver := m.secVersion, bootStep := 2, nextDie := 4 }
      else s.bootFail 1 0) := by
  change execManifestVerify s = _
  simp only [execManifestVerify, harg, Bool.and_eq_true, decide_eq_true_eq, and_assoc]
  rw [if_pos ⟨hp, hstep⟩]

theorem exec_modrstGo {s : State} {a i : Nat} {v : Word} (harg : s.arg = .reg a i .full v) :
    exec .modrstGo s = .next (if v.getLsbD 0 = true ∧ v.toNat / 2 ^ 8 % 2 ^ 8 = 0xA5 then
      (s.onPackage fun p => { p with inReset := true }).fullReset else s) := by
  change execModrstGo s = _
  simp only [execModrstGo, harg, State.writeModrst, halfBits, wordField, Bool.and_eq_true, beq_iff_eq]

/-- The start-up, event by event (01 R16 to R19, R21, R22, R442). -/
theorem startUpRules : Claim.StartUpRules := by
  intro s p d failed resets counts fits limit wants measures
  refine ⟨fun hp => ?_, fun hp hstep => ⟨fun harg => ?_, fun harg => ?_⟩, fun m harg hp hstep => ⟨fun h1 h2 h3 => ?_,
    fun hno => ?_⟩, fun digest pkgs harg hp h2 h5 hd => ?_, fun hp hstep => ?_, fun harg hp hk => ⟨fun e step hmem => ?_,
    fun hd => ?_⟩, fun n ctl hn harg => ⟨fun hk honly hc => ?_, fun k hk => ⟨fun hlt => ?_, fun hle hr => ?_⟩,
    fun k hk hle hr => ?_, fun hz honly hc => ?_⟩, fun k harg hk hle hr => ?_, ?_, fun us harg => ⟨fun hus => ?_,
    fun hus => ?_⟩, fun a i v harg => ⟨fun hgo hkey => ?_, fun hno => ?_⟩⟩
  · change execProctorBoot s = _
    exact congrArg Host.Outcome.next (if_pos hp)
  · exact (exec_welomLinkTrained harg hp hstep).trans (congrArg _ (if_pos rfl))
  · exact ⟨_, (exec_welomLinkTrained harg hp hstep).trans (congrArg _ (if_neg Bool.false_ne_true)), rfl, rfl, rfl, rfl⟩
  · exact (exec_manifestVerify harg hp hstep).trans (congrArg _ (if_pos ⟨h1, h2, h3⟩))
  · exact ⟨_, (exec_manifestVerify harg hp hstep).trans (congrArg _ (if_neg hno)), rfl, rfl, rfl, rfl⟩
  · have hm : s.Measuring := ⟨hp, h2, h5, hd⟩
    obtain ⟨q, c, hsame⟩ := counted_same s pkgs
    have hwants : wants digest ↔ (s.counted pkgs).wantsDigest digest := by rw [hsame]; exact Iff.rfl
    refine ⟨fun hfit => ?_, fun h6 => ⟨fun hw hfit => ?_, fun hno => ?_⟩⟩
    · have hexec := exec_dieMeasureRelease_fits harg hm (hfit.imp_right badPannier_panniers.2)
      refine ⟨fun hw => ⟨_, hexec, ?_⟩, fun hno => ⟨_, hexec, ?_⟩⟩
      · obtain ⟨hphase, -, -, hrel, hload, htimer⟩ := measureDie_wanted (hwants.1 hw)
        rw [hsame] at hphase hrel hload htimer ⊢
        exact ⟨hphase.trans hp, hrel, hload, htimer⟩
      · rw [measureDie_unwanted (mt hwants.2 hno), hsame]
        exact ⟨rfl, rfl, rfl, rfl⟩
    · obtain ⟨-, hpkgs, hcap, -⟩ := measureDie_wanted (hwants.1 hw)
      refine ⟨_, exec_dieMeasureRelease_fits harg hm (.inr (badPannier_panniers.2 hfit)), ?_, ?_⟩
      · rw [hcap, State.counted, if_pos h6]; rfl
      · rw [hpkgs, State.counted, if_pos h6]; rfl
    · obtain ⟨i, hi⟩ := Option.ne_none_iff_exists'.1 (mt badPannier_panniers.1 hno)
      exact ⟨i, badPannier_lt hi, _, exec_dieMeasureRelease_bad harg hm h6 hi, rfl, rfl, rfl, rfl⟩
  · refine ⟨_, congrArg Host.Outcome.next (if_pos ⟨hp, hstep⟩), rfl, mem_insertDue.2 (.inl rfl)⟩
  · obtain ⟨hafter, hstep⟩ := bootAfter_table _ hmem
    refine ⟨_, exec_keyLoadConfirm_boot harg hp rfl hk, ?_⟩
    rw [bootNext_next (s := s.dropKeyLoad 0 d) hafter]
    exact ⟨rfl, hstep, dropKeyLoad_none s 0 d⟩
  · have hlast : bootAfter (s.dropKeyLoad 0 d).package.nextDie = none := by
      change bootAfter d = none
      rw [hd]; decide
    have hnext := exec_keyLoadConfirm_boot harg hp rfl hk
    rw [bootNext_last hlast] at hnext
    exact ⟨_, _, hnext, rfl, mem_insertDue.2 (.inl rfl)⟩
  · refine ⟨_, exec_keyLoadConfirm_last harg hk honly hc, ?_⟩
    rw [State.ctxLive, State.ctx_modCtx_same]
  · exact (exec_keyLoadTimeout harg hk).1 hlt
  · exact ⟨_, (exec_keyLoadTimeout harg hk).2.1 hle hr, resendKey_load hk, sendKey_timer _ _ _⟩
  · exact ⟨_, (exec_keyLoadTimeout harg hk).2.2 hle hr, ctxKeyFail_leaves s n⟩
  · have hleft := zeroised_none honly
    refine ⟨_, exec_keyZeroiseConfirm_last harg hz, ?_, fun hrun hcard => ?_, fun hbusy => ?_⟩
    · rw [ctxFree_package]; exact hleft
    · rw [ctxFree_done (s := s.zeroised (n + 1) ctl) hc hleft hrun hcard, recordEvent_ctx, State.ctx_modCtx_same]
    · rw [ctxFree_waits (s := s.zeroised (n + 1) ctl) hbusy]; exact hc
  · exact ⟨_, (exec_keyLoadTimeout harg hk).2.2 hle hr, rfl, rfl, rfl, rfl⟩
  · exact ⟨_, rfl, fullReset_leaves _⟩
  · refine ⟨s.fullReset, ?_, fullReset_leaves s⟩
    change execMrstnAssert s = _
    simp only [execMrstnAssert, harg]
    rw [if_pos hus]
  · change execMrstnAssert s = _
    simp only [execMrstnAssert, harg]
    rw [if_neg (by omega)]
  · exact ⟨_, (exec_modrstGo harg).trans (congrArg _ (if_pos ⟨hgo, hkey⟩)), fullReset_leaves _⟩
  · refine (exec_modrstGo harg).trans (congrArg _ (if_neg fun ⟨hgo, hkey⟩ => ?_))
    rcases hno with hno | hno
    · rw [hno] at hgo; exact nomatch hgo
    · exact hno hkey

end Sys2Proof.Machine
end

section
/-! PROOF. Alarms, the staggered start and the power manager (01 R23 to R26, R29 to R31). -/

namespace Sys2Proof.Machine

open Sys2Proof

/-! ## Alarms (01 R23 to R25) -/

theorem Tbl.find?_map {α : Type} (t : Tbl α) (f : Nat → α → α) (k : Nat) :
    Tbl.find? (t.map fun x => (x.1, f x.1 x.2)) k = (t.find? k).map (f k) := by
  induction t with
  | nil => rfl
  | cons x t ih =>
    obtain ⟨i, a⟩ := x
    by_cases h : i = k
    · simp [Tbl.find?, h]
    · simpa only [List.map_cons, Tbl.find?, if_neg h] using ih

/-- A link that goes quiet is down. -/
theorem downLinks_phase {s : State} {q : Nat → Bool} {n : Nat} (hq : q n = true) :
    ((s.downLinks q).link n).phase = .down := by
  have hmap := Tbl.find?_map s.fabric.links (fun i (l : Link) =>
    if q i then { l with phase := .down, txWait := [], replay := [], rx := none, stopped := false } else l) n
  unfold State.link Tbl.getD State.downLinks
  simp only [State.onFabric]
  rw [hmap]
  rcases s.fabric.links.find? n with _ | l
  · rfl
  · simp [hq]

/-- An alarm that halts the package: its dies are held and its links quiet (01 R24). -/
def State.alarmStop (s : State) : State :=
  (((s.holdDies.downLinks fun _ => true).onPackage fun p => { p with phase := .halted }).onFabric fun x =>
    { x with uet := [] }).onHost fun h => { h with welomUp := false }

theorem alarmAt_halt (s : State) (code die : Nat) :
    s.alarmAt .halt code die = (s.recordEvent 1 die (code + 256) 0 0).alarmStop := rfl

theorem alarmAt_erase (s : State) (code die : Nat) :
    s.alarmAt .erase code die = (s.recordEvent 1 die (code + 512) 0 0).zeroiseAll.alarmStop := rfl

theorem alarmStop_leaves (s : State) : s.alarmStop.package.phase = .halted ∧ s.alarmStop.package.held = s.package.released ∧
    s.alarmStop.host.welomUp = false ∧ s.alarmStop.fabric.uet = [] ∧ ∀ n, (s.alarmStop.link n).phase = .down :=
  ⟨rfl, rfl, rfl, rfl, fun _ => downLinks_phase (s := s.holdDies) (q := fun _ => true) rfl⟩

/-- An alarm is recorded, and acts at its level. -/
theorem alarmAt_acts (s : State) (lv : AlarmLevel) (code die : Nat) :
    (lv = .log → (s.alarmAt lv code die).package.phase = s.package.phase ∧
      (s.alarmAt lv code die).package.keys = s.package.keys) ∧
    (lv ≠ .log → (s.alarmAt lv code die).package.phase = .halted ∧
      (s.alarmAt lv code die).package.held = s.package.released ∧ (s.alarmAt lv code die).host.welomUp = false ∧
      (s.alarmAt lv code die).fabric.uet = [] ∧ ∀ n, ((s.alarmAt lv code die).link n).phase = .down) ∧
    (lv = .erase → (s.alarmAt lv code die).package.keys = []) ∧
    (s.alarmAt lv code die).host.events = (s.recordEvent 1 die (code + levelCode lv * 256) 0 0).host.events := by
  have hpk (c : Nat) : (s.recordEvent 1 die c 0 0).package = s.package := recordEvent_package s 1 die c 0 0
  cases lv with
  | log => exact ⟨fun _ => ⟨congrArg Package.phase (hpk _), congrArg Package.keys (hpk _)⟩, fun h => absurd rfl h, nofun, rfl⟩
  | halt =>
    obtain ⟨hphase, hheld, hrest⟩ := alarmStop_leaves (s.recordEvent 1 die (code + 256) 0 0)
    rw [alarmAt_halt]
    exact ⟨nofun, fun _ => ⟨hphase, hheld.trans (congrArg Package.released (hpk _)), hrest⟩, nofun, rfl⟩
  | erase =>
    obtain ⟨hphase, hheld, hrest⟩ := alarmStop_leaves (s.recordEvent 1 die (code + 512) 0 0).zeroiseAll
    have hreleased : (s.recordEvent 1 die (code + 512) 0 0).package.released = s.package.released :=
      congrArg Package.released (hpk (code + 512))
    rw [alarmAt_erase]
    exact ⟨nofun, fun _ => ⟨hphase, hheld.trans hreleased, hrest⟩, fun _ => rfl, rfl⟩

/-- The record of an alarm in the lowest free entry. -/
theorem alarmAt_recorded {s : State} {k : Nat} (lv : AlarmLevel) (code die : Nat) (hk : k < 64)
    (hfree : ¬∃ e, s.host.events.find? k = some e ∧ e.valid = true)
    (hused : ∀ j, j < k → ∃ e, s.host.events.find? j = some e ∧ e.valid = true) :
    ∃ e, (s.alarmAt lv code die).host.events.find? k = some e ∧ e.valid = true ∧ e.source = 1 ∧ e.die = die ∧
      e.code = code + levelCode lv * 256 ∧ e.time = s.cycle - s.package.bootCycle := by
  rw [(alarmAt_acts s lv code die).2.2.2]
  exact ⟨_, recordEvent_lowest 1 die _ 0 0 hk hfree hused, rfl, rfl, rfl, rfl, rfl⟩

section
variable {s : State} {code die : Nat}

theorem exec_sensorExcursionStart (harg : s.arg = .num2 code die) (hcode : code < 4)
    (hnew : ∀ e ∈ s.package.excursions, ¬(e.code = code ∧ e.die = die)) : exec .sensorExcursionStart s =
      .next ((s.onPackage fun p => { p with excursions := p.excursions ++
        [⟨code, die, s.levelNow code, s.levelNow 6, s.time⟩] }).postTime usUnits .sensorExcursionPersist (.num2 code die)) := by
  have hnone : (s.excursion? code die).isNone = true := by
    rw [Option.isNone_iff_eq_none]
    exact List.find?_eq_none.2 fun e he hm => hnew e he (by simpa using hm)
  change execSensorExcursionStart s = _
  simp only [execSensorExcursionStart, harg]
  rw [if_pos ⟨hcode, hnone⟩]

theorem exec_sensorExcursionPersist {e : Excursion} (harg : s.arg = .num2 code die)
    (he : s.excursion? code die = some e) : exec .sensorExcursionPersist s =
      .next (if s.time < e.since + usUnits then s else (s.endExcursion code die).alarmAt e.level code die) := by
  change execSensorExcursionPersist s = _
  simp only [execSensorExcursionPersist, harg, he]

theorem exec_sensorExcursionClear {e : Excursion} (harg : s.arg = .num2 code die)
    (he : s.excursion? code die = some e) : exec .sensorExcursionClear s =
      .next ((s.endExcursion code die).alarmAt e.shortLevel 6 die) := by
  change execSensorExcursionClear s = _
  simp only [execSensorExcursionClear, harg, he]

theorem exec_debugPortOpen {opened : Bool} (harg : s.arg = .flag opened) : exec .debugPortOpen s =
    .next (if opened = true then s.alarm 5 14
      else if 2 ≤ s.package.debugFails then (s.onPackage fun p => { p with debugFails := 0 }).alarm 5 14
      else s.onPackage fun p => { p with debugFails := p.debugFails + 1 }) := by
  change execDebugPortOpen s = _
  simp only [execDebugPortOpen, harg]

end

/-! ## The staggered start (01 R26) -/

section
variable {s : State} {die : Nat}

theorem dieWake_modWake_same (s : State) (die : Nat) (f : DieWake → DieWake) :
    (s.modWake die f).dieWake die = f (s.dieWake die) := by
  simp [State.dieWake, State.modWake, Tbl.upd, Tbl.getD, Tbl.find?_put_same]

/-- The wakes of clusters 1 to `n` come due. -/
def State.clusterWakes (s : State) (die n : Nat) : State :=
  (List.range n).foldl (fun s k => s.post (8 * (k + 1)) .clusterWake (.num2 die (k + 1))) s

theorem clusterWakes_succ (s : State) (die n : Nat) :
    s.clusterWakes die (n + 1) = (s.clusterWakes die n).post (8 * (n + 1)) .clusterWake (.num2 die (n + 1)) := by
  simp [State.clusterWakes, List.range_succ]

theorem clusterWakes_due (s : State) (die n : Nat) : (s.clusterWakes die n).package = s.package ∧
    (s.clusterWakes die n).cycle = s.cycle ∧
    ∀ k, k < n → (s.cycle + 8 * (k + 1), .clusterWake, .num2 die (k + 1)) ∈ (s.clusterWakes die n).due := by
  induction n with
  | zero => exact ⟨rfl, rfl, fun k hk => nomatch hk⟩
  | succ n ih =>
    obtain ⟨hpk, hcy, hdue⟩ := ih
    rw [clusterWakes_succ]
    refine ⟨hpk, hcy, fun k hk => mem_insertDue.2 ?_⟩
    rcases Nat.lt_succ_iff_lt_or_eq.1 hk with hk | rfl
    · exact .inr (hdue k hk)
    · rw [hcy]; exact .inl rfl

/-- A die begins to wake. -/
def DieWake.waking (cycle : Nat) (w : DieWake) : DieWake :=
  { w with awake := true, start := some cycle, clusters := [0], lastActive := cycle }

theorem wakeDie_asleep (h : (s.dieWake die).awake = false) :
    s.wakeDie die = ((s.modWake die (DieWake.waking s.cycle)).clusterWakes die 23).post 256 .dieQuiet (.num die) :=
  if_neg (by simp [h])

theorem wakeDie_wakes (h : (s.dieWake die).awake = false) : ((s.wakeDie die).dieWake die).awake = true ∧
    ((s.wakeDie die).dieWake die).start = some s.cycle ∧ ((s.wakeDie die).dieWake die).clusters = [0] ∧
    ∀ k, 1 ≤ k → k < 24 → (s.cycle + 8 * k, .clusterWake, .num2 die k) ∈ (s.wakeDie die).due := by
  obtain ⟨hpk, -, hdue⟩ := clusterWakes_due (s.modWake die (DieWake.waking s.cycle)) die 23
  have hwake : (s.wakeDie die).dieWake die = DieWake.waking s.cycle (s.dieWake die) := by
    rw [wakeDie_asleep h, ← dieWake_modWake_same s die (DieWake.waking s.cycle)]
    unfold State.dieWake
    rw [State.post_package, hpk]
  rw [hwake]
  refine ⟨rfl, rfl, rfl, fun k h1 h24 => ?_⟩
  obtain ⟨j, rfl⟩ : ∃ j, k = j + 1 := ⟨k - 1, by omega⟩
  rw [wakeDie_asleep h, State.post_due]
  exact mem_insertDue.2 (.inr (hdue j (by omega)))

theorem exec_dieQuiet (harg : s.arg = .num die) (ha : (s.dieWake die).awake = true) : exec .dieQuiet s =
    .next (if (s.dieWake die).lastActive + 256 ≤ s.cycle then
      s.modWake die fun w => { w with awake := false, start := none, clusters := [] }
      else s.post ((s.dieWake die).lastActive + 256 - s.cycle) .dieQuiet (.num die)) := by
  change execDieQuiet s = _
  simp only [execDieQuiet, harg, ha, Bool.not_true, Bool.false_eq_true, if_false]

theorem exec_clusterWake {k : Nat} (harg : s.arg = .num2 die k) (ha : (s.dieWake die).awake = true) (hk : k < 24)
    (hnew : k ∉ (s.dieWake die).clusters) :
    exec .clusterWake s = .next (s.modWake die fun w => { w with clusters := w.clusters ++ [k] }) := by
  have hc : (s.dieWake die).clusters.contains k = false := by simpa using hnew
  change execClusterWake s = _
  simp [execClusterWake, harg, ha, hk, hnew]

end

/-! ## Power (01 R29 to R31) -/

section
variable {s : State}

/-- A change of the operating point: issue pauses for 256 cycles where the point moves. -/
theorem setPoint_leaves (s : State) (n : Nat) :
    (s.setPoint n).package = { s.package with
      point := n, pause := if s.package.point = n then s.package.pause else true } ∧
    (s.package.point ≠ n → (s.cycle + 256, .clockChangePauseEnd, .none) ∈ (s.setPoint n).due) ∧
    (s.setPoint n).mem = s.mem ∧ (s.setPoint n).tasks = s.tasks := by
  unfold State.setPoint
  by_cases h : s.package.point = n
  · subst h
    simp
  · rw [if_neg h, if_neg h]
    exact ⟨rfl, fun _ => mem_insertDue.2 (.inl rfl), rfl, rfl⟩

theorem setPoint_same (s : State) : s.setPoint s.package.point = s := if_pos rfl

/-- The readings of a power window. -/
def State.powerRead (s : State) (modw compw : BitVec 16) : State := s.onPackage fun p => { p with modw := modw, compw := compw }

theorem exec_powerWindowEnd {modw compw : BitVec 16} (harg : s.arg = .power modw compw) : exec .powerWindowEnd s =
    .next (if s.package.therm = true then (s.powerRead modw compw).onPackage fun p => { p with lowWindows := 0, topMove := false }
      else if s.package.topMove = true then
        ((s.powerRead modw compw).onPackage fun p => { p with topMove := false, lowWindows := 0 }).setPoint
          (max s.package.point s.package.fastest)
      else if 2400 < modw.toNat then
        ((s.powerRead modw compw).onPackage fun p => { p with lowWindows := 0 }).setPoint (min (s.package.point + 1) 6)
      else if 2280 < modw.toNat then (s.powerRead modw compw).onPackage fun p => { p with lowWindows := 0 }
      else if s.package.lowWindows + 1 < 10 then
        (s.powerRead modw compw).onPackage fun p => { p with lowWindows := p.lowWindows + 1 }
      else ((s.powerRead modw compw).onPackage fun p => { p with lowWindows := 0 }).setPoint
        (if s.package.fastest < s.package.point then s.package.point - 1 else s.package.point)) := by
  change execPowerWindowEnd s = _
  simp only [execPowerWindowEnd, harg]
  rfl

theorem exec_pwrctlWrite {a i : Nat} {v : Word} (harg : s.arg = .reg a i .full v) (hup : s.host.welomUp = true)
    (hready : s.package.phase = .ready) : exec .pwrctlWrite s = .next (s.writePwrctl .full v) := by
  change execPwrctlWrite s = _
  simp [execPwrctlWrite, harg, State.whenBar, hup, hready]

end

/-- The alarms, the wake of dies and the power manager, event by event (01 R23 to R26, R29 to R31). -/
theorem alarmPowerRules : Claim.AlarmPowerRules := by
  intro s p shown actsAt level acts points
  have alarmed {i : Instr} {w : State} {lv : AlarmLevel} {code die : Nat} (hexec : exec i s = .next (w.alarmAt lv code die))
      (hphase : w.package.phase = p.phase) (hkeys : w.package.keys = p.keys) (hrel : w.package.released = p.released)
      (hboot : w.package.bootCycle = p.bootCycle) (hcycle : w.cycle = s.cycle) (hevents : w.host.events = s.host.events) :
      actsAt i lv code die := by
    obtain ⟨hlog, hhalt, herase, -⟩ := alarmAt_acts w lv code die
    rw [hphase, hkeys] at hlog
    rw [hrel] at hhalt
    refine ⟨_, hexec, hlog, hhalt, herase, fun k hk hfree hused => ?_⟩
    have hrec := alarmAt_recorded (s := w) lv code die hk (by rw [hevents]; exact hfree) (by rw [hevents]; exact hused)
    rwa [hboot, hcycle] at hrec
  have pointed {i : Instr} {w : State} {n : Nat} (f : Package → Package) (hexec : exec i s = .next (w.setPoint n))
      (hpk : { w.package with point := n, pause := if w.package.point = n then w.package.pause else true } =
        f { p with point := n, pause := if p.point = n then p.pause else true })
      (hpoint : w.package.point = p.point) (hcycle : w.cycle = s.cycle) (hmem : w.mem = s.mem) (htasks : w.tasks = s.tasks) :
      points i n f := by
    obtain ⟨hp, hdue, hm, ht⟩ := setPoint_leaves w n
    rw [hpoint, hcycle] at hdue
    exact ⟨_, hexec, hp.trans hpk, hdue, hm.trans hmem, ht.trans htasks⟩
  refine ⟨fun code die harg => ⟨fun hcode hnew => ?_, fun e he => ⟨fun hlt => ?_, fun hle => ?_, ?_⟩⟩, ?_, fun harg => ?_,
    fun harg h2 => ?_, fun harg h2 => ?_, fun die harg => ⟨fun ha hle => ?_, fun ha hlt => ?_, fun ha => ?_⟩,
    fun die k harg ha hk hnew => ?_, fun modw compw harg => ?_, ?_, rfl, rfl, fun a i v harg hup hready => ?_⟩
  · exact ⟨_, exec_sensorExcursionStart harg hcode hnew, rfl, mem_insertDue.2 (.inl rfl)⟩
  · exact (exec_sensorExcursionPersist harg he).trans (congrArg _ (if_pos hlt))
  · exact alarmed ((exec_sensorExcursionPersist harg he).trans (congrArg _ (if_neg (by omega)))) rfl rfl rfl rfl rfl rfl
  · exact alarmed (exec_sensorExcursionClear harg he) rfl rfl rfl rfl rfl rfl
  · exact alarmed (w := s) rfl rfl rfl rfl rfl rfl rfl
  · exact alarmed (w := s) ((exec_debugPortOpen harg).trans (congrArg _ (if_pos rfl))) rfl rfl rfl rfl rfl rfl
  · exact alarmed (w := s.onPackage fun p => { p with debugFails := 0 })
      ((exec_debugPortOpen harg).trans (congrArg _ ((if_neg Bool.false_ne_true).trans (if_pos h2)))) rfl rfl rfl rfl rfl rfl
  · exact (exec_debugPortOpen harg).trans (congrArg _ ((if_neg Bool.false_ne_true).trans (if_neg (Nat.not_le.2 h2))))
  · refine ⟨_, (exec_dieQuiet harg ha).trans (congrArg _ (if_pos hle)), ?_⟩
    rw [dieWake_modWake_same]
    exact ⟨rfl, rfl⟩
  · refine ⟨_, (exec_dieQuiet harg ha).trans (congrArg _ (if_neg (by omega))), rfl, mem_insertDue.2 (.inl ?_)⟩
    rw [Nat.add_sub_cancel' (by omega)]
  · refine ⟨s.wakeDie die, ?_, wakeDie_wakes ha⟩
    change execDieWakeStart s = _
    simp only [execDieWakeStart, harg]
  · refine ⟨_, exec_clusterWake harg ha hk hnew, ?_⟩
    rw [dieWake_modWake_same]
  · have hexec := exec_powerWindowEnd harg
    have htherm (h : p.therm = false) : ¬s.package.therm = true := ne_true_of_eq_false h
    have htop (h : p.topMove = false) : ¬s.package.topMove = true := ne_true_of_eq_false h
    intro fastest reads zero
    refine ⟨fun ht hm h1 => ?_, fun ht hm h1 h2 => ?_, fun ht hm h1 h2 => ?_, fun ht hm h1 h2 => ?_, fun ht hm => ?_, fun ht => ?_⟩
    · rw [if_neg (htherm ht), if_neg (htop hm), if_pos h1] at hexec
      exact pointed zero hexec rfl rfl rfl rfl rfl
    · rw [if_neg (htherm ht), if_neg (htop hm), if_neg (by omega), if_pos h1, ← setPoint_same (State.onPackage _ _)] at hexec
      exact pointed zero hexec rfl rfl rfl rfl rfl
    · rw [if_neg (htherm ht), if_neg (htop hm), if_neg (by omega), if_neg (by omega), if_pos h2,
        ← setPoint_same (State.onPackage _ _)] at hexec
      exact pointed (fun q => { reads q with lowWindows := p.lowWindows + 1 }) hexec rfl rfl rfl rfl rfl
    · rw [if_neg (htherm ht), if_neg (htop hm), if_neg (by omega), if_neg (by omega), if_neg (Nat.not_lt.2 h2)] at hexec
      exact pointed zero hexec rfl rfl rfl rfl rfl
    · rw [if_neg (htherm ht), if_pos hm] at hexec
      exact pointed (fun q => { zero q with topMove := false }) hexec rfl rfl rfl rfl rfl
    · rw [if_pos ht, ← setPoint_same (State.onPackage _ _)] at hexec
      exact pointed (fun q => { zero q with topMove := false }) hexec rfl rfl rfl rfl rfl
  · exact pointed (fun q => { q with therm := true }) (w := s.onPackage fun p => { p with therm := true }) rfl rfl rfl rfl rfl rfl
  · exact exec_pwrctlWrite harg hup hready

/-- Settles O49, from the rules of start-up and of alarms and power. -/
theorem startUpAndAlarms : Obligations.StartUpAndAlarms := ⟨startUpRules, alarmPowerRules⟩

end Sys2Proof.Machine
end

section
/-! PROOF. The mailbox and the SPDM responder: what each request is answered with (01 R20, R25; 03 R66). -/

namespace Sys2Proof.Machine

open Sys2Proof

/-! ## The request in the mailbox -/

section
variable {s : State}

theorem mbByte_plain (h : s.package.spdmInner = none) (i : Nat) : s.mbByte i = (cellGet s.host.mbIn i).toNat := by
  simp only [State.mbByte, h]

theorem mbByte_lt (h : s.package.spdmInner = none) (i : Nat) : s.mbByte i < 256 := by
  rw [mbByte_plain h]; exact (cellGet s.host.mbIn i).isLt

/-- A sum of bytes, each at its place, is the number they make. -/
theorem leNat_map_range (f : Nat → Byte) (n : Nat) :
    leNat ((List.range n).map f) = ((List.range n).map fun k => (f k).toNat * 256 ^ k).sum := by
  induction n with
  | zero => rfl
  | succ n ih => simp [List.range_succ, leNat_append, leNat, ih, Nat.mul_comm]

theorem mbField_plain (h : s.package.spdmInner = none) (i n : Nat) :
    s.mbField i n = leNat (cellsRead s.host.mbIn i n) := by
  rw [cellsRead, leNat_map_range]
  simp only [State.mbField, mbByte_plain h]

/-- The lowest byte of a field. -/
theorem mbField_low (h : s.package.spdmInner = none) (i n : Nat) :
    BitVec.ofNat 8 (s.mbField i (n + 1)) = cellGet s.host.mbIn i := by
  have hhead : cellsRead s.host.mbIn i (n + 1) =
      cellGet s.host.mbIn i :: (List.range n).map fun k => cellGet s.host.mbIn (i + (k + 1)) := by
    simp [cellsRead, List.range_succ_eq_map, Function.comp_def]
  rw [mbField_plain h, hhead, leNat]
  refine BitVec.eq_of_toNat_eq ?_
  rw [BitVec.toNat_ofNat, Nat.add_mul_mod_self_left, Nat.mod_eq_of_lt (cellGet s.host.mbIn i).isLt]

end

/-! ## The response -/

/-- A state in which the request still waits: the mailbox, memory and the tasks stand as they did. -/
structure Draft (s w : State) : Prop where
  host : w.host = s.host
  mem : w.mem = s.mem
  tasks : w.tasks = s.tasks
  inner : w.package.spdmInner = none

/-- The response `bs` stands in the mailbox, and the package is `pk`. -/
structure Answered (s : State) (pk : Package) (bs : List Byte) (u : State) : Prop where
  out : ∀ i, i < bs.length → cellGet u.host.mbOut i = bs.getD i 0
  len : u.host.mbLenOut = BitVec.ofNat 13 bs.length
  done : u.host.mbDone = true
  busy : u.host.mbBusy = false
  package : u.package = pk
  mem : u.mem = s.mem
  tasks : u.tasks = s.tasks

section
variable {s w : State} {bs : List Byte}

theorem Draft.refl (h : s.package.spdmInner = none) : Draft s s := ⟨rfl, rfl, rfl, h⟩

theorem Draft.onPackage (h : Draft s w) (f : Package → Package) (hf : (f w.package).spdmInner = none) :
    Draft s (w.onPackage f) := ⟨h.host, h.mem, h.tasks, hf⟩

theorem Draft.bumpFree (h : Draft s w) (n : Nat) : Draft s (w.bumpFree n) := ⟨h.host, h.mem, h.tasks, h.inner⟩

/-- What is placed is read back. -/
theorem place_answered (hwf : cellsWf s.host.mbOut = true) (h : Draft s w) (bs : List Byte) :
    Answered s w.package bs (w.place bs) where
  out i hi := by
    have hcell := cellGet_cellsWrite_inside (m := w.host.mbOut) (by rw [h.host]; exact hwf) 0 bs hi
    rw [Nat.zero_add] at hcell
    rw [List.getD_eq_getElem _ _ hi, ← hcell]
    rfl
  len := rfl
  done := rfl
  busy := rfl
  package := rfl
  mem := h.mem
  tasks := h.tasks

/-- A response that fits is placed as it is. -/
theorem respond_answered (hwf : cellsWf s.host.mbOut = true) (h : Draft s w) (hlen : bs.length ≤ 4096) :
    Answered s w.package bs (w.respond bs) := by
  have hplace : w.respond bs = w.place bs := by
    simp only [State.respond, h.inner, State.fitReply, if_pos hlen]
  exact hplace ▸ place_answered hwf h bs

/-- A response waits to be fetched in chunks. -/
def State.keepReply (s : State) (b : Option ChunkBuf) : State := s.onPackage fun p => { p with spdmReply := b }

/-- A response that does not fit is kept, and ERROR LargeResponse names it. -/
theorem respond_large (hwf : cellsWf s.host.mbOut = true) (h : Draft s w) (hlen : 4096 < bs.length) :
    ∃ c b, Answered s (w.keepReply (some b)).package (spdmHead 0x7F 0x0F 0 ++ [c]) (w.respond bs) := by
  have hplace : ∃ c b, w.respond bs = ((w.bumpFree 1).keepReply (some b)).place (spdmHead 0x7F 0x0F 0 ++ [c]) := by
    simp only [State.respond, h.inner, State.fitReply, if_neg (Nat.not_le.2 hlen)]
    exact ⟨_, _, rfl⟩
  obtain ⟨c, b, hplace⟩ := hplace
  have hd : Draft s ((w.bumpFree 1).keepReply (some b)) := ⟨h.host, h.mem, h.tasks, h.inner⟩
  exact ⟨c, b, hplace ▸ place_answered hwf hd _⟩

theorem freeBytes_length (s : State) (n : Nat) : (s.freeBytes n).1.length = n := by simp [State.freeBytes]

theorem choose_lt (s : State) {n : Nat} (h : 0 < n) : (s.choose n).1 < n := by
  simp only [State.choose]
  split
  · exact h
  · exact Nat.mod_lt _ h

theorem spdmFree_answered (hwf : cellsWf s.host.mbOut = true) (h : Draft s w) (code p1 p2 : Nat) {n : Nat}
    (hn : n ≤ 4092) : ∃ bs, bs.length = n ∧ Answered s w.package (spdmHead code p1 p2 ++ bs) (w.spdmFree code p1 p2 n) := by
  refine ⟨(w.freeBytes n).1, freeBytes_length w n, ?_⟩
  refine respond_answered (w := w.bumpFree n) hwf (h.bumpFree n) ?_
  simp [spdmHead, freeBytes_length]; omega

theorem whenBusy_busy (f : State → State) (h : s.host.mbBusy = true) : s.whenBusy f = f s := if_pos h

theorem atPhase_reached {n : Nat} (f : State → State) (h : s.host.mbBusy = true) (hn : n ≤ s.package.spdmPhase) :
    s.atPhase n f = f s := (whenBusy_busy _ h).trans (if_pos hn)

theorem atPhase_early {n : Nat} (f : State → State) (h : s.host.mbBusy = true) (hn : s.package.spdmPhase < n) :
    s.atPhase n f = s.spdmError 4 := (whenBusy_busy _ h).trans (if_neg (Nat.not_le.2 hn))

theorem inSession_open (f : State → State) (h : s.host.mbBusy = true) (ho : s.package.spdmSession = true) :
    s.inSession f = f s := (whenBusy_busy _ h).trans (if_pos ho)

theorem inSession_closed (f : State → State) (h : s.host.mbBusy = true) (ho : s.package.spdmSession = false) :
    s.inSession f = s.spdmError 4 := (whenBusy_busy _ h).trans (if_neg (ne_true_of_eq_false ho))

/-- ERROR and its code, and nothing else has changed. -/
theorem spdmError_answered (hwf : cellsWf s.host.mbOut = true) (h : Draft s w) (code : Nat) :
    Answered s w.package (spdmHead 0x7F code 0) (w.spdmError code) := respond_answered hwf h (by simp [spdmHead])

end

/-! ## Capabilities and algorithms -/

theorem ofNat8_testBit (x k : Nat) (hk : k < 8) : (BitVec.ofNat 8 (x / 256)).getLsbD k = x.testBit (8 + k) := by
  rw [BitVec.getLsbD_ofNat, decide_eq_true hk, Bool.true_and, show x / 256 = x / 2 ^ 8 from rfl, Nat.testBit_div_two_pow,
    Nat.add_comm]

/-- The flags leave out what no rule lets the responder offer: bits 8, 10 and 11 are clear. -/
theorem capFlags_clear (x k : Nat) (hk : k = 8 ∨ k = 10 ∨ k = 11) : (capFlags ||| (x &&& capOpen)).testBit k = false := by
  rw [Nat.testBit_or, Nat.testBit_and]
  rcases hk with rfl | rfl | rfl <;> simp [show capFlags.testBit 8 = false by decide, show capOpen.testBit 8 = false by decide,
    show capFlags.testBit 10 = false by decide, show capOpen.testBit 10 = false by decide,
    show capFlags.testBit 11 = false by decide, show capOpen.testBit 11 = false by decide]

theorem algAnswers_length (s : State) (n i : Nat) : (s.algAnswers n i).length = 4 * n := by
  induction n generalizing i with
  | zero => rfl
  | succ n ih => simp only [State.algAnswers, List.length_append, ih, natLe_length, List.length_cons, List.length_nil]; omega

/-! ## Measurements -/

/-- Measuring draws free values only. -/
structure Bumped (s w : State) : Prop where
  eq : ∃ n, w = s.bumpFree n

theorem Bumped.trans {s v w : State} (h : Bumped s v) (k : Bumped v w) : Bumped s w := by
  obtain ⟨n, rfl⟩ := h.eq
  obtain ⟨m, rfl⟩ := k.eq
  exact ⟨n + m, by simp [State.bumpFree, Nat.add_assoc]⟩

theorem Bumped.refl (s : State) : Bumped s s := ⟨0, rfl⟩

theorem Bumped.draft {s v w : State} (h : Draft s v) (k : Bumped v w) : Draft s w := by
  obtain ⟨n, rfl⟩ := k.eq
  exact h.bumpFree n

theorem Bumped.package {v w : State} (k : Bumped v w) : w.package = v.package := by
  obtain ⟨n, rfl⟩ := k.eq; rfl

theorem blockValue_bound (s : State) (i : Nat) (h : s.package.alarms.length = 7) :
    (s.blockValue i).1.length ≤ 48 ∧ Bumped s (s.blockValue i).2 := by
  unfold State.blockValue
  split
  · simp [h, Bumped.refl]
  · split
    · simp [Bumped.refl]
    · split
      · exact ⟨(freeBytes_length s 48).le, ⟨48, rfl⟩⟩
      · split
        · simp [Bumped.refl]
        · exact ⟨(freeBytes_length s 48).le, ⟨48, rfl⟩⟩

theorem block_bound (s : State) (i : Nat) (h : s.package.alarms.length = 7) :
    (s.block i).1.length ≤ 55 ∧ Bumped s (s.block i).2 := by
  obtain ⟨hlen, hb⟩ := blockValue_bound s i h
  simp only [State.block, List.length_append, List.length_cons, List.length_nil, natLe_length]
  exact ⟨by omega, hb⟩

theorem blockList_bound (s : State) (is : List Nat) (h : s.package.alarms.length = 7) :
    (s.blockList is).1.length ≤ 55 * is.length ∧ Bumped s (s.blockList is).2 := by
  induction is generalizing s with
  | nil => exact ⟨Nat.le_refl 0, Bumped.refl s⟩
  | cons i is ih =>
    obtain ⟨hlen, hb⟩ := block_bound s i h
    obtain ⟨hlens, hbs⟩ := ih (s.block i).2 (by rw [hb.package]; exact h)
    simp only [State.blockList, List.length_append, List.length_cons]
    exact ⟨by omega, hb.trans hbs⟩

end Sys2Proof.Machine
end

section
/-! PROOF. The requests of the mailbox, one after the other (01 R20, R25; 03 R66). -/

namespace Sys2Proof.Machine

open Sys2Proof

/-- A request waits in the mailbox, and it is no part of a longer one. -/
structure State.Asked (s : State) : Prop where
  wf : cellsWf s.host.mbOut = true
  busy : s.host.mbBusy = true
  inner : s.package.spdmInner = none

/-- An event answers the request: the package is then `pk`, and the response `bs`. -/
def State.Gives (s : State) (i : Instr) (pk : Package) (bs : List Byte) : Prop :=
  ∃ u, exec i s = .next u ∧ Answered s pk bs u

section
variable {s : State} (h : s.Asked)
include h

theorem State.Asked.draft : Draft s s := Draft.refl h.inner

theorem State.Asked.draftWith (f : Package → Package) (hf : (f s.package).spdmInner = none) : Draft s (s.onPackage f) :=
  h.draft.onPackage f hf

theorem gives_respond {i : Instr} {w : State} {bs : List Byte} (hexec : exec i s = .next (w.respond bs)) (hd : Draft s w)
    (hlen : bs.length ≤ 4096) : s.Gives i w.package bs := ⟨_, hexec, respond_answered h.wf hd hlen⟩

theorem gives_error {i : Instr} {code : Nat} (hexec : exec i s = .next (s.spdmError code)) :
    s.Gives i s.package (spdmHead 0x7F code 0) := ⟨_, hexec, spdmError_answered h.wf h.draft code⟩

theorem gives_free {i : Instr} {w : State} {code p1 p2 n : Nat} (hexec : exec i s = .next (w.spdmFree code p1 p2 n))
    (hd : Draft s w) (hn : n ≤ 4092) : ∃ bs, bs.length = n ∧ s.Gives i w.package (spdmHead code p1 p2 ++ bs) := by
  obtain ⟨bs, hlen, ha⟩ := spdmFree_answered h.wf hd code p1 p2 hn
  exact ⟨bs, hlen, _, hexec, ha⟩

/-! ## Version, capabilities, algorithms -/

theorem getVersion_gives : s.Gives .getVersion
    { s.package with
      spdmPhase := 1, spdmSession := false, spdmHandshake := false, spdmChunks := none, spdmReply := none }
    [0x10, 0x04, 0, 0, 0, 1, 0, 0x13] :=
  gives_respond h (congrArg _ (whenBusy_busy _ h.busy))
    (h.draftWith (fun p => { p with
      spdmPhase := 1, spdmSession := false, spdmHandshake := false, spdmChunks := none, spdmReply := none }) h.inner)
    (by decide)

theorem getCapabilities_gives (hp : 1 ≤ s.package.spdmPhase) : ∃ x y rest,
    s.Gives .getCapabilities { s.package with spdmPhase := max s.package.spdmPhase 2 }
      (spdmHead 0x61 0 0 ++ [0, x, 0, 0] ++ natLe 4 (capFlags ||| (y &&& capOpen)) ++ natLe 4 4096 ++ rest) := by
  have hd : Draft s ((s.onPackage fun p => { p with spdmPhase := max p.spdmPhase 2 }).bumpFree 9) :=
    (h.draftWith (fun p => { p with spdmPhase := max p.spdmPhase 2 }) h.inner).bumpFree 9
  exact ⟨_, _, _, gives_respond h (congrArg _ (atPhase_reached _ h.busy hp)) hd (by
    simp [spdmHead])⟩

theorem negotiateAlgorithms_gives (hp : 2 ≤ s.package.spdmPhase) : ∃ x y a b l z rest,
    s.Gives .negotiateAlgorithms { s.package with spdmPhase := 3 }
      (spdmHead 0x63 x 0 ++ natLe 2 l ++ [a, b] ++ natLe 4 y ++ natLe 4 (s.mbField 8 4 &&& 0x80) ++
        natLe 4 (s.mbField 12 4 &&& 2) ++ z ++ rest) := by
  have hd : Draft s ((s.onPackage fun p => { p with spdmPhase := 3 }).bumpFree 1) :=
    (h.draftWith (fun p => { p with spdmPhase := 3 }) h.inner).bumpFree 1
  have hn := mbByte_lt h.inner 2
  exact ⟨_, _, _, _, _, _, _, gives_respond h (congrArg _ (atPhase_reached _ h.busy hp)) hd (by
    simp [spdmHead, algAnswers_length]; omega)⟩

/-! ## Certificates and challenges -/

theorem getDigests_gives (hp : 3 ≤ s.package.spdmPhase) :
    ∃ bs, bs.length = 96 ∧ s.Gives .getDigests s.package (spdmHead 0x01 3 3 ++ bs) :=
  gives_free h (congrArg _ (atPhase_reached _ h.busy hp)) h.draft (by decide)

theorem exec_getCertificate (hp : 3 ≤ s.package.spdmPhase) (hslot : s.mbByte 2 % 16 ≤ 1) : ∃ n bs w,
    n ≤ s.mbField 6 2 ∧ bs.length = n + 8 ∧ bs.getD 1 0 = 0x02 ∧ exec .getCertificate s = .next (State.respond w bs) ∧
      Draft s w ∧ w.package = s.package := by
  have hn : (s.choose (s.mbField 6 2 + 1)).1 ≤ s.mbField 6 2 := Nat.le_of_lt_succ (choose_lt s (Nat.succ_pos _))
  have hexec : exec .getCertificate s = _ := congrArg Host.Outcome.next (atPhase_reached _ h.busy hp)
  rw [if_neg (Nat.not_lt.2 hslot)] at hexec
  refine ⟨(s.choose (s.mbField 6 2 + 1)).1, spdmHead 0x02 (s.mbByte 2 % 16) 0 ++
    natLe 2 (s.choose (s.mbField 6 2 + 1)).1 ++ ((s.bumpFree 1).freeBytes (2 + (s.choose (s.mbField 6 2 + 1)).1)).1,
    (s.bumpFree 1).bumpFree (2 + (s.choose (s.mbField 6 2 + 1)).1), hn, ?_, rfl,
    hexec, (h.draft.bumpFree _).bumpFree _, rfl⟩
  simp only [spdmHead, List.length_append, List.length_cons, List.length_nil, natLe_length, freeBytes_length]
  omega

theorem challenge_gives (hp : 3 ≤ s.package.spdmPhase) (hslot : s.mbByte 2 % 16 ≤ 1) : ∃ bs, bs.length = 226 ∧
    s.Gives .challenge s.package (spdmHead 0x03 (s.mbByte 2 % 16) 3 ++ bs) := by
  have hexec : exec .challenge s = _ := congrArg Host.Outcome.next (atPhase_reached _ h.busy hp)
  rw [if_neg (Nat.not_lt.2 hslot)] at hexec
  exact gives_free h hexec h.draft (by decide)

theorem certificate_slot_error (hp : 3 ≤ s.package.spdmPhase) (hslot : 1 < s.mbByte 2 % 16) :
    s.Gives .getCertificate s.package (spdmHead 0x7F 1 0) ∧ s.Gives .challenge s.package (spdmHead 0x7F 1 0) := by
  have hcert : exec .getCertificate s = _ := congrArg Host.Outcome.next (atPhase_reached _ h.busy hp)
  have hchal : exec .challenge s = _ := congrArg Host.Outcome.next (atPhase_reached _ h.busy hp)
  rw [if_pos hslot] at hcert hchal
  exact ⟨gives_error h hcert, gives_error h hchal⟩

/-! ## Measurements -/

/-- The measurement blocks that a request names (01 R20). -/
def measureIds (i : Nat) : List Nat := if i = 0 then [] else if i = 0xFF then (List.range 17).map (· + 1) else [i]

omit h in
theorem measureIds_length_le (i : Nat) : (measureIds i).length ≤ 17 := by
  unfold measureIds; split
  · decide
  · split
    · decide
    · exact Nat.le_of_ble_eq_true rfl

theorem getMeasurements_gives (hp : 3 ≤ s.package.spdmPhase) (hi : s.mbByte 3 = 0xFF ∨ s.mbByte 3 ≤ 17)
    (hlen : s.mbByte 3 = 0 ∨ s.package.alarms.length = 7) : ∃ rest, s.Gives .getMeasurements s.package
      (spdmHead 0x60 (if s.mbByte 3 = 0 then 17 else 0) 0 ++ [BitVec.ofNat 8 (measureIds (s.mbByte 3)).length] ++ rest) := by
  have hgo : ¬(s.mbByte 3 ≠ 0xFF ∧ 17 < s.mbByte 3) := by omega
  have hblocks : (s.blockList (measureIds (s.mbByte 3))).1.length ≤ 935 ∧
      Bumped s (s.blockList (measureIds (s.mbByte 3))).2 := by
    rcases hlen with h0 | h7
    · rw [h0]; exact ⟨by simp [measureIds, State.blockList], Bumped.refl s⟩
    · obtain ⟨hb, hs⟩ := blockList_bound s (measureIds (s.mbByte 3)) h7
      have := measureIds_length_le (s.mbByte 3)
      exact ⟨by omega, hs⟩
  obtain ⟨hlen, hbump⟩ := hblocks
  have hexec : exec .getMeasurements s = _ := congrArg Host.Outcome.next (atPhase_reached _ h.busy hp)
  rw [if_neg hgo] at hexec
  have hd := (hbump.draft h.draft).bumpFree (32 + if s.mbByte 2 % 2 = 1 then 96 else 0)
  obtain ⟨u, hu, ha⟩ := gives_respond h hexec hd (by
    simp only [spdmHead, List.length_append, List.length_cons, List.length_nil, natLe_length, List.length_take,
      List.length_drop, List.length_map, List.length_range]
    change _ + (s.blockList (measureIds (s.mbByte 3))).1.length + _ + _ + _ ≤ _
    split <;> omega)
  exact ⟨_, u, hu, by simpa only [List.append_assoc] using hbump.package ▸ ha⟩

/-! ## Sessions -/

theorem keyExchange_gives (hp : 3 ≤ s.package.spdmPhase) (hs : s.package.spdmSession = false) : ∃ bs, bs.length = 278 ∧
    s.Gives .keyExchange { s.package with spdmHandshake := true } (spdmHead 0x64 0 0 ++ bs) := by
  have hexec : exec .keyExchange s = _ := congrArg Host.Outcome.next (atPhase_reached _ h.busy hp)
  rw [if_neg (ne_true_of_eq_false hs)] at hexec
  exact gives_free h hexec (h.draftWith (fun p => { p with spdmHandshake := true }) h.inner) (by decide)

theorem finish_gives (hs : s.package.spdmHandshake = true) : ∃ bs, bs.length = 48 ∧
    s.Gives .finish { s.package with spdmHandshake := false, spdmSession := true } (spdmHead 0x65 0 0 ++ bs) := by
  have hexec : exec .finish s = _ := congrArg Host.Outcome.next (whenBusy_busy _ h.busy)
  rw [if_pos hs] at hexec
  exact gives_free h hexec (h.draftWith (fun p => { p with spdmHandshake := false, spdmSession := true }) h.inner) (by decide)

theorem finish_error (hs : s.package.spdmHandshake = false) : s.Gives .finish s.package (spdmHead 0x7F 4 0) := by
  have hexec : exec .finish s = _ := congrArg Host.Outcome.next (whenBusy_busy _ h.busy)
  rw [if_neg (ne_true_of_eq_false hs)] at hexec
  exact gives_error h hexec

theorem heartbeat_gives (hs : s.package.spdmSession = true) : s.Gives .heartbeat s.package (spdmHead 0x68 0 0) :=
  gives_respond h (congrArg _ (inSession_open _ h.busy hs)) h.draft (by decide)

theorem keyUpdate_gives (hs : s.package.spdmSession = true) :
    s.Gives .keyUpdate s.package (spdmHead 0x69 (s.mbByte 2) (s.mbByte 3)) :=
  gives_respond h (congrArg _ (inSession_open _ h.busy hs)) h.draft (Nat.le_of_ble_eq_true rfl)

theorem endSession_gives (hs : s.package.spdmSession = true) :
    s.Gives .endSession { s.package with spdmSession := false } (spdmHead 0x6C 0 0) :=
  gives_respond h (congrArg _ (inSession_open _ h.busy hs))
    (h.draftWith (fun p => { p with spdmSession := false }) h.inner) (by decide)

/-! ## Chunks (03 R66) -/

/-- The bytes of the chunk that a CHUNK_SEND carries. -/
def State.chunkPart (s : State) : List Byte :=
  cellsRead s.host.mbIn (if s.mbField 4 2 = 0 then 16 else 12) (min (s.mbField 8 4) 4096)

theorem chunkIn_plain : s.chunkIn = (s.mbField 12 4, s.chunkPart) := by
  simp only [State.chunkIn, State.chunkPart, cellsRead, mbByte_plain h.inner, BitVec.ofNat_toNat, BitVec.setWidth_eq]

/-- The first chunk begins a message, and each other goes on with the message of its handle in order. -/
theorem chunkJoin_eq_some_iff {c : ChunkBuf} : s.chunkJoin = some c ↔
    s.mbField 4 2 = 0 ∧ c = ⟨s.mbByte 3, 1, s.mbField 12 4, s.chunkPart⟩ ∨
      s.mbField 4 2 ≠ 0 ∧ ∃ b, s.package.spdmChunks = some b ∧ b.handle = s.mbByte 3 ∧ b.seq = s.mbField 4 2 ∧
        c = ⟨s.mbByte 3, s.mbField 4 2 + 1, b.size, b.bytes ++ s.chunkPart⟩ := by
  unfold State.chunkJoin
  rw [chunkIn_plain h]
  dsimp only
  by_cases hq : s.mbField 4 2 = 0
  · rw [if_pos hq, Option.some.injEq]
    simp only [hq, ne_eq, not_true_eq_false, false_and, or_false, true_and]
    exact eq_comm
  · rw [if_neg hq]
    rcases hb : s.package.spdmChunks with _ | b
    · simp [hq]
    · by_cases hm : b.handle = s.mbByte 3 ∧ b.seq = s.mbField 4 2
      · obtain ⟨hh, hs⟩ := hm
        simp [hq, hh, hs, eq_comm]
      · simp only [if_neg hm, reduceCtorEq, hq, false_and, false_or, false_iff]
        rintro ⟨-, c, hc, hh, hs, -⟩
        exact hm (Option.some.inj hc ▸ ⟨hh, hs⟩)

/-- What is kept of a long request. -/
def State.keepChunks (s : State) (b : Option ChunkBuf) : State := s.onPackage fun p => { p with spdmChunks := b }

theorem chunkSend_kept {c : ChunkBuf} (hp : 2 ≤ s.package.spdmPhase) (hc : s.chunkJoin = some c)
    (hmore : s.mbByte 2 % 2 = 0) : s.Gives .chunkSend { s.package with spdmChunks := some c }
      (spdmHead 0x05 0 c.handle ++ natLe 2 (s.mbField 4 2)) := by
  have hexec : exec .chunkSend s = _ := congrArg Host.Outcome.next (atPhase_reached _ h.busy hp)
  simp only [hc, if_pos hmore] at hexec
  exact gives_respond h hexec (h.draftWith (fun p => { p with spdmChunks := some c }) h.inner) (by
    simp [spdmHead])

/-- Chunks that make no message are dropped with ERROR InvalidRequest. -/
theorem chunkSend_dropped (hp : 2 ≤ s.package.spdmPhase) (hno : s.chunkJoin = none ∨
      ∃ c, s.chunkJoin = some c ∧ s.mbByte 2 % 2 = 1 ∧ c.bytes.length ≠ c.size) :
    s.Gives .chunkSend { s.package with spdmChunks := none } (spdmHead 0x7F 1 0) := by
  have hexec : exec .chunkSend s = _ := congrArg Host.Outcome.next (atPhase_reached _ h.busy hp)
  have hd : Draft s (s.keepChunks none) := h.draftWith (fun p => { p with spdmChunks := none }) h.inner
  have herr : exec .chunkSend s = .next ((s.keepChunks none).spdmError 1) := by
    rcases hno with hno | ⟨c, hc, hlast, hlen⟩
    · simp only [hno] at hexec
      exact hexec
    · simp only [hc] at hexec
      rw [if_neg (by omega), if_pos hlen] at hexec
      exact hexec
  exact ⟨_, herr, spdmError_answered h.wf hd 1⟩

/-- The state in which a long request is answered. -/
def State.carry (s : State) (handle q : Nat) (bs : List Byte) : State :=
  s.onPackage fun p => { p with spdmChunks := none, spdmInner := some (handle, q, bs) }

omit h in
theorem isChunkEvent_spdmEvent {s : State} (h5 : s.mbByte 1 ≠ 0x85) (h6 : s.mbByte 1 ≠ 0x86) :
    isChunkEvent s.spdmEvent = false := by
  unfold State.spdmEvent
  split <;> try rfl
  · exact absurd ‹_› h5
  · exact absurd ‹_› h6
  · split <;> rfl

theorem chunkSend_last {c : ChunkBuf} (hp : 2 ≤ s.package.spdmPhase) (hc : s.chunkJoin = some c)
    (hlast : s.mbByte 2 % 2 = 1) (hlen : c.bytes.length = c.size) (h5 : (c.bytes.getD 1 0).toNat ≠ 0x85)
    (h6 : (c.bytes.getD 1 0).toNat ≠ 0x86) : exec .chunkSend s =
      .next ((s.carry c.handle (s.mbField 4 2) c.bytes).postFree (s.carry c.handle (s.mbField 4 2) c.bytes).spdmEvent) := by
  have hexec : exec .chunkSend s = _ := congrArg Host.Outcome.next (atPhase_reached _ h.busy hp)
  have hev : isChunkEvent (s.carry c.handle (s.mbField 4 2) c.bytes).spdmEvent = false := isChunkEvent_spdmEvent h5 h6
  simp only [hc] at hexec
  rw [if_neg (by omega), if_neg (not_not_intro hlen)] at hexec
  exact hexec.trans (congrArg _ (if_neg (ne_true_of_eq_false hev)))

/-- The bytes of a long response that its next chunk carries (03 R66). -/
def ChunkBuf.now (b : ChunkBuf) : List Byte := b.bytes.take (if b.seq = 0 then 4080 else 4084)

/-- What is left of a long response after that. -/
def ChunkBuf.left (b : ChunkBuf) : Option ChunkBuf :=
  if b.bytes.length ≤ b.now.length then none
  else some { b with seq := b.seq + 1, bytes := b.bytes.drop b.now.length }

omit h in
theorem ChunkBuf.left_eq (b : ChunkBuf) : b.left =
    if b.bytes.drop (if b.seq = 0 then 4080 else 4084) = [] then none
    else some { b with seq := b.seq + 1, bytes := b.bytes.drop (if b.seq = 0 then 4080 else 4084) } := by
  unfold ChunkBuf.left ChunkBuf.now
  rw [List.length_take]
  generalize (if b.seq = 0 then 4080 else 4084) = n
  by_cases hle : b.bytes.length ≤ n
  · rw [if_pos (by omega), if_pos (List.drop_eq_nil_iff.2 hle)]
  · rw [if_neg (by omega), if_neg (mt List.drop_eq_nil_iff.1 hle), Nat.min_eq_left (by omega)]

/-- The bytes that stand before the chunk in its response. -/
def ChunkBuf.headed (b : ChunkBuf) (last : Nat) : List Byte :=
  spdmHead 0x06 last b.handle ++ natLe 2 b.seq ++ [0, 0] ++ natLe 4 b.now.length ++
    (if b.seq = 0 then natLe 4 b.size else [])

omit h in
theorem ChunkBuf.headed_length (b : ChunkBuf) (last : Nat) : (b.headed last).length = if b.seq = 0 then 16 else 12 := by
  unfold ChunkBuf.headed
  split <;> simp [spdmHead]

theorem chunkGet_gives {b : ChunkBuf} (hp : 2 ≤ s.package.spdmPhase) (hb : s.package.spdmReply = some b)
    (hh : b.handle = s.mbByte 3) (hq : b.seq = s.mbField 4 2) :
    ∃ last, s.Gives .chunkGet { s.package with spdmReply := b.left } (b.headed last ++ b.now) := by
  have hexec : exec .chunkGet s = _ := congrArg Host.Outcome.next (atPhase_reached _ h.busy hp)
  simp only [hb] at hexec
  rw [if_pos ⟨hh, hq⟩, ← ChunkBuf.left_eq] at hexec
  have hlen : ∀ last, (b.headed last ++ b.now).length ≤ 4096 := fun last => by
    rw [List.length_append, ChunkBuf.headed_length, ChunkBuf.now, List.length_take]
    split <;> omega
  exact ⟨_, gives_respond h hexec (h.draftWith (fun p => { p with spdmReply := b.left }) h.inner) (hlen _)⟩

theorem chunkGet_error (hp : 2 ≤ s.package.spdmPhase) (hno : s.package.spdmReply = none ∨
      ∃ b, s.package.spdmReply = some b ∧ (b.handle ≠ s.mbByte 3 ∨ b.seq ≠ s.mbField 4 2)) :
    s.Gives .chunkGet s.package (spdmHead 0x7F 1 0) := by
  have hexec : exec .chunkGet s = _ := congrArg Host.Outcome.next (atPhase_reached _ h.busy hp)
  rcases hno with hno | ⟨b, hb, hne⟩
  · simp only [hno] at hexec
    exact gives_error h hexec
  · simp only [hb] at hexec
    rw [if_neg (by omega)] at hexec
    exact gives_error h hexec

/-! ## ALARM_RAISE (01 R25) -/

/-- The response to an ALARM_RAISE. -/
def alarmBytes (status : Nat) (level : Byte) : List Byte :=
  spdmHead 0x7E 0 0 ++ [3, 0, 2] ++ natLe 2 Config.vendorId.toNat ++ natLe 2 4 ++ [1, BitVec.ofNat 8 status, level, 0]

/-- What an ALARM_RAISE of event `e` to level `l` is answered with, and what levels it leaves. -/
def State.raised (s : State) (e l pad : Nat) : Nat × List AlarmLevel :=
  if s.package.spdmSession = false then (3, s.package.alarms)
  else if 6 < e ∨ 2 < l ∨ pad ≠ 0 then (2, s.package.alarms)
  else if l < levelCode (s.package.alarms.getD e .log) then (1, s.package.alarms)
  else (0, s.package.alarms.set e (levelOf l))

/-- The level that an ALARM_RAISE finds, as its response gives it; that of no event is a free value. -/
def State.foundLevel (s : State) (e : Nat) : Byte :=
  match s.package.alarms[e]? with
  | some a => BitVec.ofNat 8 (levelCode a)
  | none => (s.freeBytes (if 6 < e then 1 else 0)).1.headD 0

omit h in
theorem levelCode_lt (a : AlarmLevel) : levelCode a < 256 := by cases a <;> decide

omit h in
theorem foundLevel_toNat {e : Nat} (he : e ≤ 6) : (s.foundLevel e).toNat = levelCode (s.package.alarms.getD e .log) := by
  unfold State.foundLevel
  rw [List.getD_eq_getElem?_getD]
  rcases s.package.alarms[e]? with _ | a
  · simp [if_neg (Nat.not_lt.2 he), State.freeBytes, levelCode]
  · simp [Nat.mod_eq_of_lt (levelCode_lt a)]

theorem exec_alarmRaise (ha : s.isAlarmRaise = true) : ∃ n, exec .alarmRaise s = .next
    (if (!s.package.spdmSession) = true then (s.bumpFree n).respond (alarmBytes 3 (s.foundLevel (s.mbByte 12)))
    else if 6 < s.mbByte 12 ∨ 2 < s.mbByte 13 ∨ s.mbByte 14 ≠ 0 then
      (s.bumpFree n).respond (alarmBytes 2 (s.foundLevel (s.mbByte 12)))
    else if s.mbByte 13 < (s.foundLevel (s.mbByte 12)).toNat then
      (s.bumpFree n).respond (alarmBytes 1 (s.foundLevel (s.mbByte 12)))
    else ((s.bumpFree n).onPackage fun p =>
      { p with alarms := p.alarms.set (s.mbByte 12) (levelOf (s.mbByte 13)) }).respond
        (alarmBytes 0 (BitVec.ofNat 8 (s.mbByte 13)))) := by
  have hexec : exec .alarmRaise s = _ := congrArg Host.Outcome.next (whenBusy_busy _ h.busy)
  rw [if_neg (by simp [ha])] at hexec
  exact ⟨if 6 < s.mbByte 12 then 1 else 0, hexec⟩

theorem alarmRaise_gives (ha : s.isAlarmRaise = true) : ∃ level, s.Gives .alarmRaise
    { s.package with alarms := (s.raised (s.mbByte 12) (s.mbByte 13) (s.mbByte 14)).2 }
    (alarmBytes (s.raised (s.mbByte 12) (s.mbByte 13) (s.mbByte 14)).1 level) := by
  obtain ⟨n, hexec⟩ := exec_alarmRaise h ha
  have hd : Draft s (s.bumpFree n) := h.draft.bumpFree n
  have hlen (status : Nat) (level : Byte) : (alarmBytes status level).length ≤ 4096 := Nat.le_of_ble_eq_true rfl
  unfold State.raised
  by_cases hs : s.package.spdmSession = false
  · rw [if_pos (by simp [hs])] at hexec
    rw [if_pos hs]
    exact ⟨_, gives_respond (w := s.bumpFree n) h hexec hd (hlen _ _)⟩
  · rw [if_neg (by simpa using hs)] at hexec
    rw [if_neg hs]
    by_cases hbad : 6 < s.mbByte 12 ∨ 2 < s.mbByte 13 ∨ s.mbByte 14 ≠ 0
    · rw [if_pos hbad] at hexec ⊢
      exact ⟨_, gives_respond (w := s.bumpFree n) h hexec hd (hlen _ _)⟩
    · rw [if_neg hbad, foundLevel_toNat (by omega)] at hexec
      rw [if_neg hbad]
      by_cases hlow : s.mbByte 13 < levelCode (s.package.alarms.getD (s.mbByte 12) .log)
      · rw [if_pos hlow] at hexec ⊢
        exact ⟨_, gives_respond (w := s.bumpFree n) h hexec hd (hlen _ _)⟩
      · rw [if_neg hlow] at hexec ⊢
        exact ⟨_, gives_respond h hexec (hd.onPackage _ h.inner) (hlen _ _)⟩

end

end Sys2Proof.Machine
end

section
/-! PROOF. The mailbox's statement, from what each request is answered with (01 R20, R25; 03 R66). -/

namespace Sys2Proof.Machine

open Sys2Proof

/-- What is written over MBOUT from byte `n` on reads back as the tail of the response. -/
theorem Answered.cellsRead_tail {s u : State} {pk : Package} {xs ys : List Byte} (h : Answered s pk (xs ++ ys) u) :
    cellsRead u.host.mbOut xs.length ys.length = ys := by
  refine List.ext_getElem (by simp [cellsRead]) fun k hk hk' => ?_
  simp only [cellsRead, List.getElem_map, List.getElem_range]
  rw [h.out _ (by rw [List.length_append]; omega), List.getD_eq_getElem _ _ (by rw [List.length_append]; omega),
    List.getElem_append_right (by omega)]
  simp

/-- Every request of the mailbox is answered as 01 R20, R25 and 03 R66 say. -/
theorem mailboxRules : Claim.MailboxRules := by
  intro s hinv hbusy hinner
  have h : s.Asked := ⟨hinv.2.2, hbusy, hinner⟩
  intro ph byte field out answers errs from_ session
  have hbyte (i : Nat) : byte i = s.mbByte i := (mbByte_plain hinner i).symm
  have hfield (i n : Nat) : field i n = s.mbField i n := (mbField_plain hinner i n).symm
  have hcell (i : Nat) : BitVec.ofNat 8 (s.mbByte i) = cellGet s.host.mbIn i := by
    rw [mbByte_plain hinner, BitVec.ofNat_toNat, BitVec.setWidth_eq]
  have reply {i : Instr} {pk : Package} {code : Byte} {p : State → Prop} {bs : List Byte} (hg : s.Gives i pk bs)
      (h1 : 1 < bs.length) (hc : bs.getD 1 0 = code) (hp : ∀ u, Answered s pk bs u → p u) : answers i code p := by
    obtain ⟨u, hexec, ha⟩ := hg
    exact ⟨u, hexec, hp u ha, ha.busy, ha.done, (ha.out 1 h1).trans hc, ha.mem, ha.tasks⟩
  have errorCode {pk : Package} {code : Nat} {u : State} (ha : Answered s pk (spdmHead 0x7F code 0) u) :
      cellGet u.host.mbOut 2 = BitVec.ofNat 8 code := ha.out 2 (by simp [spdmHead])
  have refused {i : Instr} {code : Nat} (hg : s.Gives i s.package (spdmHead 0x7F code 0)) : errs i (BitVec.ofNat 8 code) :=
    reply hg (by simp [spdmHead]) rfl fun u ha => ⟨errorCode ha, ha.package⟩
  have early {n : Nat} {i : Instr} {f : State → State} (hdef : exec i s = .next (s.atPhase n f)) (hn : ph < n) : errs i 4 :=
    refused (gives_error h (hdef.trans (congrArg _ (atPhase_early f hbusy hn))))
  have closed {i : Instr} {f : State → State} (hdef : exec i s = .next (s.inSession f))
      (ho : s.package.spdmSession = false) : errs i 4 :=
    refused (gives_error h (hdef.trans (congrArg _ (inSession_closed f hbusy ho))))
  refine ⟨?_, ⟨fun hp => ?_, early rfl⟩, ⟨fun hp => ?_, early rfl⟩, ⟨fun hp => ?_, early rfl⟩, fun hp hslot hlen => ?_,
    fun hp hslot hlen => ?_, fun hp hslot => ?_, fun hp hslot => ?_, fun hp => ⟨early rfl hp, early rfl hp, early rfl hp, early rfl hp⟩,
    fun hp h0 => ?_, fun hp hi h7 => ?_, fun hp hs => ?_, fun hs => ?_, fun hs => ?_, ⟨fun hs => ?_, closed rfl⟩,
    ⟨fun hs => ?_, closed rfl⟩, ⟨fun hs => ?_, closed rfl⟩, fun hp => ⟨early rfl hp, early rfl hp⟩, fun hp => ?_, ?_, fun ha => ?_⟩
  · refine reply (getVersion_gives h) (by decide) rfl fun u ha => ?_
    rw [ha.package, ha.len, ha.out 7 (by decide)]
    exact ⟨rfl, rfl, rfl, rfl⟩
  · obtain ⟨x, y, rest, hg⟩ := getCapabilities_gives h hp
    refine reply hg (by simp [spdmHead]) rfl fun u ha => ?_
    have h9 : out u 9 = BitVec.ofNat 8 ((capFlags ||| (y &&& capOpen)) / 256) := ha.out 9 (by simp [spdmHead]; omega)
    rw [ha.package, h9, ofNat8_testBit _ _ (by decide), ofNat8_testBit _ _ (by decide), ofNat8_testBit _ _ (by decide)]
    exact ⟨rfl, capFlags_clear _ _ (by decide), capFlags_clear _ _ (by decide), capFlags_clear _ _ (by decide)⟩
  · obtain ⟨x, y, a, b, l, z, rest, hg⟩ := negotiateAlgorithms_gives h hp
    refine reply hg (by simp [spdmHead]) rfl fun u ha => ⟨congrArg Package.spdmPhase ha.package, ?_, ?_⟩
    · refine (ha.out 12 (by simp [spdmHead]; omega)).trans (?_ : BitVec.ofNat 8 (s.mbField 8 4 &&& 0x80) = _)
      rw [BitVec.ofNat_and, mbField_low hinner]; rfl
    · refine (ha.out 16 (by simp [spdmHead]; omega)).trans (?_ : BitVec.ofNat 8 (s.mbField 12 4 &&& 2) = _)
      rw [BitVec.ofNat_and, mbField_low hinner]; rfl
  · obtain ⟨bs, hlen, hg⟩ := getDigests_gives h hp
    refine reply hg (by simp [spdmHead]) rfl fun u ha => ?_
    rw [ha.len, List.length_append, hlen]; rfl
  · rw [hbyte] at hslot
    rw [hfield] at hlen
    obtain ⟨n, bs, w, hn, hbs, h1, hexec, hd, -⟩ := exec_getCertificate h hp hslot
    exact reply (gives_respond h hexec hd (by omega)) (by omega) h1 fun _ _ => trivial
  · rw [hbyte] at hslot
    obtain ⟨n, bs, w, hn, hbs, h1, hexec, hd, -⟩ := exec_getCertificate h hp hslot
    by_cases hfit : bs.length ≤ 4096
    · obtain ⟨u, hu, ha⟩ := gives_respond h hexec hd hfit
      exact ⟨u, hu, ha.done, .inl ((ha.out 1 (by omega)).trans h1)⟩
    · obtain ⟨c, b, ha⟩ := respond_large (bs := bs) h.wf hd (by omega)
      refine ⟨_, hexec, ha.done, .inr ⟨ha.out 1 (by simp [spdmHead]), ha.out 2 (by simp [spdmHead]), ?_⟩⟩
      rw [ha.package]
      exact nofun
  · rw [hbyte] at hslot
    obtain ⟨bs, hlen, hg⟩ := challenge_gives h hp hslot
    refine reply hg (by simp [spdmHead]) rfl fun u ha => ?_
    rw [ha.len, List.length_append, hlen]; rfl
  · rw [hbyte] at hslot
    exact (certificate_slot_error h hp hslot).imp refused refused
  · rw [hbyte] at h0
    obtain ⟨rest, hg⟩ := getMeasurements_gives h hp (.inr (by omega)) (.inl h0)
    refine reply hg (by simp [spdmHead]) rfl fun u ha => (ha.out 2 (by simp [spdmHead])).trans ?_
    rw [h0]; rfl
  · rw [hbyte] at hi ⊢
    obtain ⟨rest, hg⟩ := getMeasurements_gives h hp (by omega) (.inr h7)
    refine reply hg (by simp [spdmHead]) rfl fun u ha => ?_
    refine (congrArg BitVec.toNat (ha.out 4 (by simp [spdmHead]))).trans
      (?_ : (BitVec.ofNat 8 (measureIds (s.mbByte 3)).length).toNat = _)
    by_cases hff : s.mbByte 3 = 0xFF
    · rw [hff]; rfl
    · rw [if_neg hff, measureIds, if_neg (by omega), if_neg hff]; rfl
  · obtain ⟨bs, -, hg⟩ := keyExchange_gives h hp hs
    exact reply hg (by simp [spdmHead]) rfl fun u ha => congrArg Package.spdmHandshake ha.package
  · obtain ⟨bs, -, hg⟩ := finish_gives h hs
    exact reply hg (by simp [spdmHead]) rfl fun u ha => congrArg Package.spdmSession ha.package
  · exact refused (finish_error h hs)
  · exact reply (heartbeat_gives h hs) (by decide) rfl fun u ha => ha.package
  · refine reply (keyUpdate_gives h hs) (by simp [spdmHead]) rfl fun u ha => (ha.out 2 (by simp [spdmHead])).trans ?_
    exact hcell 2
  · exact reply (endSession_gives h hs) (by decide) rfl fun u ha => congrArg Package.spdmSession ha.package
  · intro q part whole
    have hq : q = s.mbField 4 2 := hfield 4 2
    have hpart : part = s.chunkPart := by
      simp only [part, hq, hfield]; rfl
    have hwhole {c : ChunkBuf} : whole c ↔ s.chunkJoin = some c := by
      simp only [whole, hq, hpart, hbyte, hfield]
      exact (chunkJoin_eq_some_iff h).symm
    have hhandle {c : ChunkBuf} (hc : s.chunkJoin = some c) : c.handle = s.mbByte 3 := by
      rcases (chunkJoin_eq_some_iff h).1 hc with ⟨-, rfl⟩ | ⟨-, b, -, -, -, rfl⟩ <;> rfl
    refine ⟨fun c hw hmore => ?_, fun c hw hlast hlen => ?_, fun c hw hlast hlen h5 h6 => ?_, fun hno => ?_,
      fun b hb => ⟨fun hh hs => ?_, fun hne => ?_⟩, fun hno => refused (chunkGet_error h hp (.inl hno))⟩
    · rw [hbyte] at hmore
      exact reply (chunkSend_kept h hp (hwhole.1 hw) hmore) (by simp [spdmHead]) rfl fun u ha => ha.package
    · rw [hbyte] at hlast
      exact reply (chunkSend_dropped h hp (.inr ⟨c, hwhole.1 hw, hlast, hlen⟩)) (by decide) rfl fun u ha =>
        ⟨errorCode ha, congrArg Package.spdmChunks ha.package⟩
    · rw [hbyte] at hlast
      have hexec := chunkSend_last h hp (hwhole.1 hw) hlast hlen h5 h6
      rw [hhandle (hwhole.1 hw)] at hexec
      rw [hbyte, hq]
      exact ⟨_, _, hexec, rfl, rfl, mem_insertDue.2 (.inl rfl)⟩
    · have hnone : s.chunkJoin = none := Option.eq_none_iff_forall_ne_some.2 fun c hc => hno ⟨c, hwhole.2 hc⟩
      exact reply (chunkSend_dropped h hp (.inl hnone)) (by decide) rfl fun u ha =>
        ⟨errorCode ha, congrArg Package.spdmChunks ha.package⟩
    · rw [hbyte] at hh
      obtain ⟨last, hg⟩ := chunkGet_gives h hp hb hh (hs.trans hq)
      have hlen := b.headed_length last
      intro now
      have hnow : now = b.now := by simp only [now, ← hs]; rfl
      have hleft : (if b.bytes.length ≤ now.length then none
          else some { b with seq := q + 1, bytes := b.bytes.drop now.length }) = b.left := by
        rw [hnow, ← hs]; rfl
      refine reply hg ?_ rfl fun u ha => ⟨?_, ?_, (congrArg Package.spdmReply ha.package).trans hleft.symm⟩
      · rw [List.length_append, hlen]; split <;> omega
      · have h3 : 3 < (b.headed last ++ b.now).length := by rw [List.length_append, hlen]; split <;> omega
        refine (congrArg BitVec.toNat (ha.out 3 h3)).trans (?_ : (BitVec.ofNat 8 b.handle).toNat = _)
        rw [hh, hcell]
      · have htail := ha.cellsRead_tail
        rw [hlen] at htail
        rw [hnow, ← hs]
        exact htail
    · rw [hbyte, hq] at hne
      exact refused (chunkGet_error h hp (.inr ⟨b, hb, hne⟩))
  · exact refused (gives_error h (congrArg _ (whenBusy_busy _ hbusy)))
  · obtain ⟨level, hg⟩ := alarmRaise_gives h ha
    intro e l now replies
    have raise {status : Nat} {as : List AlarmLevel}
        (hr : s.raised (s.mbByte 12) (s.mbByte 13) (s.mbByte 14) = (status, as)) : replies (BitVec.ofNat 8 status) as := by
      rw [hr] at hg
      exact reply hg (Nat.le_of_ble_eq_true rfl) rfl fun u ha => ⟨ha.out 12 (Nat.le_of_ble_eq_true rfl), ha.package⟩
    have he : e = s.mbByte 12 := hbyte 12
    have hl : l = s.mbByte 13 := hbyte 13
    have hz : byte 14 = s.mbByte 14 := hbyte 14
    unfold State.raised at raise
    simp only [now, he, hl, hz]
    refine ⟨fun hs => ?_, fun hs h6 h2 h0 => ⟨fun hlt => ?_, fun hle => ?_⟩, fun hs hbad => ?_⟩
    · exact raise (if_pos hs)
    · exact raise (by rw [if_neg (by simp [hs]), if_neg (by omega), if_pos hlt])
    · exact raise (by rw [if_neg (by simp [hs]), if_neg (by omega), if_neg (by omega)]; rfl)
    · exact raise (by rw [if_neg (by simp [hs]), if_pos hbad])

/-- LEN, and DONE where the write clears it, after a write of MBCTL. -/
def State.mbctlTaken (s : State) (len : BitVec 13) (v : Word) : State :=
  s.onHost fun x => { x with mbLen := len, mbDone := x.mbDone && !v.getLsbD 2 }

/-- A write of MBCTL: GO places a request, and the bit that clears DONE clears it (03 R66). -/
theorem mailboxGoRules : Claim.MailboxGoRules := by
  intro s a i v harg hup len
  have hexec : exec .mailboxGo s = .next (s.writeMbctl .full v) := by
    change execMailboxGo s = _
    simp only [execMailboxGo, harg, hup, if_true]
  have hwrite : s.writeMbctl .full v = if (v.getLsbD 0 && !s.host.mbBusy) = true then
      if len = 0 ∨ 4096 < len.toNat then (s.mbctlTaken len v).onHost fun x => { x with mbDone := true, mbLenOut := 0 }
      else ((s.mbctlTaken len v).onHost fun x => { x with mbBusy := true }).postFree s.spdmEvent
    else s.mbctlTaken len v := rfl
  rw [hwrite] at hexec
  refine ⟨fun h0 hbusy hpos hle => ?_, fun h0 hbusy hbad => ?_, fun h0 => ?_⟩
  · have hlen : ¬(len = 0 ∨ 4096 < len.toNat) := by
      rintro (hlen | hlen)
      · rw [hlen] at hpos; exact absurd hpos (by decide)
      · omega
    rw [if_pos (by simp [h0, hbusy]), if_neg hlen] at hexec
    exact ⟨_, _, hexec, rfl, rfl, mem_insertDue.2 (.inl rfl)⟩
  · rw [if_pos (by simp [h0, hbusy]), if_pos hbad] at hexec
    exact ⟨_, hexec, hbusy, rfl, rfl⟩
  · have hoff : ¬(v.getLsbD 0 && !s.host.mbBusy) = true := by rw [h0]; exact Bool.false_ne_true
    rw [if_neg hoff] at hexec
    exact hexec

/-- Settles O50, from the rules of the requests and of GO. -/
theorem mailboxProtocol : Obligations.MailboxProtocol := ⟨mailboxRules, mailboxGoRules⟩

end Sys2Proof.Machine
end

section
/-! PROOF. What sending packets changes: links, requests on their way, free values, timers, and events that come due
(02 R39 to R45). -/

namespace Sys2Proof.Machine

open Sys2Proof

/-- Packets have been sent: the links and the requests on their way may have changed, events have come due, and all the rest
stands as it did. -/
structure Sent (s u : State) : Prop where
  shape : ∃ links remotes freeCtr timers due, u = { s with
    fabric := { s.fabric with links := links, remotes := remotes }, freeCtr := freeCtr, timers := timers, due := due }
  due : ∀ d ∈ s.due, d ∈ u.due

section
variable {s u v : State}

theorem Sent.refl (s : State) : Sent s s := ⟨⟨_, _, _, _, _, rfl⟩, fun _ h => h⟩

theorem Sent.trans (h : Sent s u) (k : Sent u v) : Sent s v := by
  obtain ⟨⟨l, r, f, t, d, rfl⟩, hdue⟩ := h
  obtain ⟨⟨l', r', f', t', d', rfl⟩, kdue⟩ := k
  exact ⟨⟨l', r', f', t', d', rfl⟩, fun x hx => kdue x (hdue x hx)⟩

theorem Sent.mem (h : Sent s u) : u.mem = s.mem := by obtain ⟨_, _, _, _, _, rfl⟩ := h.shape; rfl
theorem Sent.tasks (h : Sent s u) : u.tasks = s.tasks := by obtain ⟨_, _, _, _, _, rfl⟩ := h.shape; rfl
theorem Sent.cores (h : Sent s u) : u.cores = s.cores := by obtain ⟨_, _, _, _, _, rfl⟩ := h.shape; rfl
theorem Sent.clocks (h : Sent s u) : u.clocks = s.clocks := by obtain ⟨_, _, _, _, _, rfl⟩ := h.shape; rfl
theorem Sent.package (h : Sent s u) : u.package = s.package := by obtain ⟨_, _, _, _, _, rfl⟩ := h.shape; rfl
theorem Sent.host (h : Sent s u) : u.host = s.host := by obtain ⟨_, _, _, _, _, rfl⟩ := h.shape; rfl
theorem Sent.engines (h : Sent s u) : u.engines = s.engines := by obtain ⟨_, _, _, _, _, rfl⟩ := h.shape; rfl
theorem Sent.cycle (h : Sent s u) : u.cycle = s.cycle := by obtain ⟨_, _, _, _, _, rfl⟩ := h.shape; rfl

theorem sent_post (s : State) (n : Nat) (i : Instr) (a : EvArg) : Sent s (s.post n i a) :=
  ⟨⟨_, _, _, _, _, rfl⟩, fun _ h => mem_insertDue.2 (.inr h)⟩

theorem sent_postTime (s : State) (n : Nat) (i : Instr) (a : EvArg) : Sent s (s.postTime n i a) :=
  ⟨⟨_, _, _, _, _, rfl⟩, fun _ h => h⟩

theorem sent_bumpFree (s : State) (n : Nat) : Sent s (s.bumpFree n) := ⟨⟨_, _, _, _, _, rfl⟩, fun _ h => h⟩

theorem sent_modLink (s : State) (p : Nat) (f : Link → Link) : Sent s (s.modLink p f) :=
  ⟨⟨_, _, _, _, _, rfl⟩, fun _ h => h⟩

theorem sent_modRemote (s : State) (id : Nat) (f : RemoteReq → RemoteReq) : Sent s (s.modRemote id f) :=
  ⟨⟨_, _, _, _, _, rfl⟩, fun _ h => h⟩

theorem sent_onLink (s : State) (p : Nat) (f : Link → Link) : Sent s (s.onLink p f) := by
  have htimer (s : State) (due : Option Nat) (at_ : Option Nat) : Sent s (match due with
      | some t => if at_ = some t then s else s.postTime (t - s.time) .replayTimeout (.num p)
      | none => s) := by
    split
    · split
      · exact Sent.refl _
      · exact sent_postTime _ _ _ _
    · exact Sent.refl _
  unfold State.onLink
  dsimp only
  split
  · exact ((sent_modLink _ _ _).trans (htimer _ _ _)).trans (sent_post _ _ _ _)
  · exact (sent_modLink _ _ _).trans (htimer _ _ _)

theorem sent_linkSend (s : State) (port : Nat) (p : Packet) : Sent s (s.linkSend port p) := by
  unfold State.linkSend State.pumpLink
  exact (sent_modLink _ _ _).trans (sent_onLink _ _ _)

theorem sent_deliver (s : State) (hub : Nat) (p : Packet) : Sent s (s.deliver hub p) := by
  unfold State.deliver
  split
  · exact sent_post _ _ _ _
  · exact Sent.refl _

theorem sent_pickPortBut (s : State) (h : Nat) (chip : BitVec 12) (avoid : Option Nat) :
    Sent s (s.pickPortBut h chip avoid).2 := by
  unfold State.pickPortBut
  dsimp only
  split
  · exact Sent.refl _
  · exact sent_bumpFree _ 1

theorem sent_sendPacket (s : State) (hub : Nat) (p : Packet) : Sent s (s.sendPacket hub p) := by
  unfold State.sendPacket
  split
  · exact sent_deliver _ _ _
  · dsimp only
    split
    · exact (sent_pickPortBut _ _ _ _).trans (sent_linkSend _ _ _)
    · exact sent_pickPortBut _ _ _ _

theorem sent_transmitBut (s : State) (r : RemoteReq) (avoid : Option Nat) : Sent s (s.transmitBut r avoid) := by
  unfold State.transmitBut
  dsimp only
  split
  · exact ((sent_deliver _ _ _).trans (sent_modRemote _ _ _)).trans (sent_post _ _ _ _)
  · split
    · exact (((sent_pickPortBut _ _ _ _).trans (sent_linkSend _ _ _)).trans (sent_modRemote _ _ _)).trans (sent_post _ _ _ _)
    · exact ((sent_pickPortBut _ _ _ _).trans (sent_modRemote _ _ _)).trans (sent_post _ _ _ _)

theorem sent_pumpList (s : State) (before rs : List RemoteReq) : Sent s (pumpList s before rs) := by
  induction rs generalizing s before with
  | nil => exact Sent.refl _
  | cons r rs ih =>
    unfold pumpList
    dsimp only
    split
    · exact (sent_transmitBut _ _ _).trans (ih _ _)
    · exact ih _ _

theorem sent_pumpRemotes (s : State) : Sent s s.pumpRemotes := sent_pumpList _ _ _

theorem Sent.foldl {α : Type} (f : State → α → State) (h : ∀ s a, Sent s (f s a)) (l : List α) (s : State) :
    Sent s (l.foldl f s) := by
  induction l generalizing s with
  | nil => exact Sent.refl s
  | cons a l ih => exact (h s a).trans (ih _)

end

end Sys2Proof.Machine
end

section
/-! PROOF. Tasks: what is found after a change of one, the data that lands for it, and the end of its wait (04 R107; 05 R132). -/

namespace Sys2Proof.Machine

open Sys2Proof

/-! ## A changed task -/

section
variable {s : State} {w : Word} {t : Task}

theorem task?_tid (h : s.task? w = some t) : t.tid = w := by
  simpa using List.find?_some (p := fun x : Task => x.tid == w) h

/-- A change that leaves the TID changes the task that is found. -/
theorem task?_modTask_same {f : Task → Task} (h : s.task? w = some t) (hf : ∀ x, (f x).tid = x.tid) :
    (s.modTask w f).task? w = some (f t) := by
  have htid : t.tid = w := task?_tid h
  have hpred : ((fun x : Task => x.tid == w) ∘ fun x => if x.tid == w then f x else x) = fun x => x.tid == w := by
    funext x
    simp only [Function.comp_apply]
    split
    · rw [hf]
    · rfl
  unfold State.task? State.modTask at *
  rw [List.find?_map, hpred, h, Option.map_some, htid, beq_self_eq_true, if_pos rfl]

theorem task?_of_tasks {u : State} (h : u.tasks = s.tasks) (w : Word) : u.task? w = s.task? w := by
  rw [State.task?, State.task?, h]

/-! ## Data that lands (05 R132) -/

/-- Data of a bound task lands in its registers or its shadow. -/
theorem landFor_bound {id : Nat} {e : Infl} (v : RegVal) (h : s.task? w = some t)
    (he : (t.infl.find? fun x => x.id == id) = some e) (hp : t.phase = .bound) :
    s.landFor w id v = s.modTask w fun t => t.land id v := by
  have hne : ¬(t.phase = .framed ∧ t.saving = none) := by rw [hp]; exact fun h => nomatch h.1
  simp only [State.landFor, h, he, if_neg hne]

theorem Task.land_tid (t : Task) (id : Nat) (v : RegVal) : (t.land id v).tid = t.tid := by
  unfold Task.land
  split
  · rfl
  · dsimp only
    split
    · split <;> rfl
    · rfl

/-- What data outside the shadow leaves of its task. -/
theorem Task.land_plain {id : Nat} {e : Infl} (v : RegVal) (he : (t.infl.find? fun x => x.id == id) = some e)
    (hs : e.toShadow = false) :
    t.land id v = { t with infl := t.infl.filter (·.id != id), r := t.r.write e.reg e.mask v } := by
  simp only [Task.land, he, hs, Bool.false_eq_true, if_false]

theorem Task.land_fields {id : Nat} {e : Infl} (v : RegVal) (he : (t.infl.find? fun x => x.id == id) = some e)
    (hs : e.toShadow = false) : (t.land id v).r = t.r.write e.reg e.mask v ∧
      (t.land id v).infl = t.infl.filter (fun x => x.id ≠ id) ∧ (t.land id v).faults = t.faults ∧
      (t.land id v).wait = t.wait := by
  rw [Task.land_plain v he hs]
  exact ⟨rfl, List.filter_congr fun x _ => by by_cases hx : x.id = id <;> simp [hx], rfl, rfl⟩

end

/-- A whole G register takes the value, but for G0; the others stand. -/
theorem Regs.getG_write_whole (r : Regs) (d n : Reg) (v : Word) :
    (r.write (.g d) (BitVec.allOnes 64) (.word v)).getG n = if n = d ∧ n ≠ 0 then v else r.getG n := by
  have hmerge (old : Word) : mergeBits old (RegVal.word v).toWord (BitVec.allOnes 64) = v := by
    simp only [mergeBits, RegVal.toWord, BitVec.not_allOnes, BitVec.and_zero, BitVec.zero_or, BitVec.and_allOnes]
  simp only [Regs.write]
  by_cases hd : d = 0
  · subst hd
    rw [if_pos rfl, if_neg (fun h => h.2 h.1)]
  · rw [if_neg hd]
    have hlt : n.toNat < 32 := n.isLt
    by_cases hn : n = 0
    · simp [Regs.getG, hn]
    · by_cases hnd : n = d
      · subst hnd
        rw [if_pos ⟨rfl, hn⟩, hmerge]
        simp [Regs.getG, Array.getD_eq_getD_getElem?]
        exact fun h => absurd h hn
      · have hne : d.toNat ≠ n.toNat := fun h => hnd (BitVec.eq_of_toNat_eq h.symm)
        rw [if_neg (fun h => hnd h.1)]
        simp [Regs.getG, Array.getD_eq_getD_getElem?, hne]

/-! ## The end of a wait (04 R107) -/

/-- The wait of a task has ended: it waits for nothing, and memory, the requests of full/empty words and the Prefects stand
as they did. -/
structure Woken (s u : State) (w : Word) : Prop where
  shape : ∃ host cores tasks, u = { s with host := host, cores := cores, tasks := tasks }
  waits : ∀ c, (u.core c).feWaits = (s.core c).feWaits ∧ (u.core c).feRefused = (s.core c).feRefused
  task : ∀ t, s.task? w = some t → ∃ a b c, u.task? w = some { t with
    wait := none, heldLoad := none, readyToBind := a, returning := b, waitSince := c }

section
variable {s u : State} {w : Word}

theorem Woken.mem (h : Woken s u w) : u.mem = s.mem := by obtain ⟨_, _, _, rfl⟩ := h.shape; rfl
theorem Woken.prefects (h : Woken s u w) : u.prefects = s.prefects := by obtain ⟨_, _, _, rfl⟩ := h.shape; rfl
theorem Woken.due (h : Woken s u w) : u.due = s.due := by obtain ⟨_, _, _, rfl⟩ := h.shape; rfl
theorem Woken.cycle (h : Woken s u w) : u.cycle = s.cycle := by obtain ⟨_, _, _, rfl⟩ := h.shape; rfl

theorem modCore_waits (s : State) (c d : Nat) (f : CoreSt → CoreSt)
    (hf : ∀ x, (f x).feWaits = x.feWaits ∧ (f x).feRefused = x.feRefused) :
    ((s.modCore c f).core d).feWaits = (s.core d).feWaits ∧ ((s.modCore c f).core d).feRefused = (s.core d).feRefused := by
  by_cases h : d = c
  · subst h
    rw [State.core_modCore_same]
    exact hf _
  · rw [State.core_modCore_other s f h]
    exact ⟨rfl, rfl⟩

theorem Woken.modCore (h : Woken s u w) (c : Nat) (f : CoreSt → CoreSt)
    (hf : ∀ x, (f x).feWaits = x.feWaits ∧ (f x).feRefused = x.feRefused) : Woken s (u.modCore c f) w where
  shape := by
    obtain ⟨host, cores, tasks, rfl⟩ := h.shape
    exact ⟨host, _, tasks, rfl⟩
  waits d := ⟨(modCore_waits u c d f hf).1.trans (h.waits d).1, (modCore_waits u c d f hf).2.trans (h.waits d).2⟩
  task := h.task

theorem Woken.joinBind (h : Woken s u w) (n : Nat) : Woken s (u.modTask w fun t => t.joinBind n) w where
  shape := by
    obtain ⟨host, cores, tasks, rfl⟩ := h.shape
    exact ⟨host, cores, _, rfl⟩
  waits := h.waits
  task t ht := by
    obtain ⟨a, b, c, hu⟩ := h.task t ht
    exact ⟨_, _, _, task?_modTask_same hu fun _ => rfl⟩

theorem countHeldLoad_host (s : State) (t : Task) : ∃ host, s.countHeldLoad t = { s with host := host } := by
  unfold State.countHeldLoad
  split
  · exact ⟨_, rfl⟩
  · exact ⟨s.host, rfl⟩

theorem woken_wake {t : Task} (h : s.task? w = some t) : Woken s (s.wake w) w := by
  obtain ⟨host, hhost⟩ := countHeldLoad_host s t
  have h1 : Woken s ((s.countHeldLoad t).modTask w fun t => { t with wait := none, heldLoad := none }) w := by
    rw [hhost]
    refine ⟨⟨host, s.cores, _, rfl⟩, fun c => ⟨rfl, rfl⟩, fun x hx => ?_⟩
    exact ⟨x.readyToBind, x.returning, x.waitSince, task?_modTask_same (s := { s with host := host }) hx fun _ => rfl⟩
  simp only [State.wake, h]
  split
  · split
    · exact h1.modCore _ _ fun _ => ⟨rfl, rfl⟩
    · exact h1
  · split
    · exact h1
    · exact h1.joinBind _
  · split
    · exact h1
    · have h2 := h1.joinBind s.cycle
      unfold State.holdTiles
      split
      · exact h2
      · exact h2.modCore _ _ fun _ => ⟨rfl, rfl⟩
  · exact h1

end

end Sys2Proof.Machine
end

section
/-! PROOF. Stores that reach their homes, and releases that settle (07 R179, R189, R190). -/

namespace Sys2Proof.Machine

open Sys2Proof

/-! ## The pieces of a store (07 R179) -/

/-- The byte at `a` once bytes `d` lie from `p` on. -/
def layAt (k : Option (Nat × List Byte)) (a : Nat) (old : Byte) : Byte :=
  match k with
  | some (p, d) => if p ≤ a ∧ a < p + d.length then d.getD (a - p) 0 else old
  | none => old

theorem cellGet_cellsWrite_layAt {m : List Host.Cell} (hm : cellsWf m = true) (p a : Nat) (d : List Byte) :
    cellGet (cellsWrite m p d) a = layAt (some (p, d)) a (cellGet m a) := by
  simp only [layAt]
  by_cases h : p ≤ a ∧ a < p + d.length
  · obtain ⟨i, rfl⟩ := Nat.exists_eq_add_of_le h.1
    rw [if_pos h, cellGet_cellsWrite_inside hm p d (by omega), Nat.add_sub_cancel_left, List.getD_eq_getElem]
  · rw [if_neg h, cellGet_cellsWrite_outside m p d (by omega)]

/-- The scratchpad bytes that a piece writes, if it writes any. -/
def MemOp.padSpan : MemOp → Option (Nat × List Byte)
  | .sram c o d => some (sramKey c o, d)
  | _ => none

theorem lineReadable_of_eq {s u : State} (hk : u.mem.lineKey = s.mem.lineKey) (hp : u.package = s.package) (slot l : Nat) :
    u.lineReadable slot l = s.lineReadable slot l := by
  rw [State.lineReadable, State.lineReadable, State.keyNum, State.keyNum, hk, hp]

/-- Giving lines that the key reads to the key changes no byte, and what the key reads it still reads. -/
theorem rekeyAll_keeps {s : State} {slot : Nat} (ls : List Nat) (h : ∀ l ∈ ls, s.lineReadable slot l = true) :
    (∃ lk, ls.foldl (fun s l => s.rekey slot l) s = s.onMem fun m => { m with lineKey := lk }) ∧
      ∀ l, s.lineReadable slot l = true → (ls.foldl (fun s l => s.rekey slot l) s).lineReadable slot l = true := by
  refine ⟨rekeyAll_readable ls h, ?_⟩
  induction ls generalizing s with
  | nil => exact fun _ hl => hl
  | cons x ls ih =>
    obtain ⟨-, -, keep⟩ := rekey_readable (h x List.mem_cons_self)
    exact fun l hl => ih (fun y hy => keep y (h y (List.mem_cons_of_mem _ hy))) l (keep l hl)

/-- Pieces have been performed: bytes are laid one piece after the other, and tasks, the stores still to be performed and the
keys stand as they did. -/
structure Laid (slot : Nat) (ops : List MemOp) (s u : State) : Prop where
  tasks : u.tasks = s.tasks
  stores : u.mem.stores = s.mem.stores
  host : u.host = s.host
  wf : u.mem.wf = true
  readable : ∀ l, s.lineReadable slot l = true → u.lineReadable slot l = true
  bytes : ∀ a, cellGet u.mem.bytes a = ops.foldl (fun b op => layAt op.physSpan a b) (cellGet s.mem.bytes a)
  sram : ∀ a, cellGet u.mem.sram a = ops.foldl (fun b op => layAt op.padSpan a b) (cellGet s.mem.sram a)

/-- A piece may be written: its lines are the key's, and host memory is there. -/
def MemOp.lays (s : State) (slot : Nat) (op : MemOp) : Prop :=
  ∀ x, op.physSpan = some x → s.hostDown x.1 = false ∧ ∀ l ∈ linesOf x.1 x.2.length, s.lineReadable slot l = true

section
variable {s u v : State} {slot : Nat}

theorem Laid.trans {xs ys : List MemOp} (h : Laid slot xs s u) (k : Laid slot ys u v) : Laid slot (xs ++ ys) s v where
  tasks := k.tasks.trans h.tasks
  stores := k.stores.trans h.stores
  host := k.host.trans h.host
  wf := k.wf
  readable l hl := k.readable l (h.readable l hl)
  bytes a := by rw [k.bytes, h.bytes, List.foldl_append]
  sram a := by rw [k.sram, h.sram, List.foldl_append]

theorem laid_physWrite {pa : Nat} {d : List Byte} {op : MemOp} (hs : s.mem.wf = true) (hop : op.physSpan = some (pa, d))
    (hpad : op.padSpan = none) (h : op.lays s slot) : Laid slot [op] s (s.physWrite slot pa d) := by
  obtain ⟨hdown, hlines⟩ := h _ hop
  obtain ⟨⟨lk, hlk⟩, keep⟩ := rekeyAll_keeps (linesOf pa d.length) hlines
  have hwf := State.physWrite_wf hs slot pa d
  simp only [State.physWrite, hdown, Bool.false_eq_true, if_false] at hwf ⊢
  rw [hlk] at keep hwf ⊢
  refine ⟨rfl, rfl, rfl, hwf, keep, fun a => ?_, fun a => ?_⟩
  · simp only [List.foldl_cons, List.foldl_nil, hop]
    exact cellGet_cellsWrite_layAt (Mem.wf_iff.1 hs).1 pa a d
  · simp only [List.foldl_cons, List.foldl_nil, hpad]
    rfl

/-- The copies of a core are no matter of memory's. -/
theorem Laid.storeL1 {ops : List MemOp} (h : Laid slot ops s u) (ctx core pa : Nat) (d : List Byte) :
    Laid slot ops s (u.storeL1 ctx core pa d) :=
  ⟨h.tasks, h.stores, h.host, h.wf, fun l hl => (lineReadable_of_eq rfl rfl slot l).trans (h.readable l hl), h.bytes, h.sram⟩

theorem laid_sramWrite (hs : s.mem.wf = true) (c o : Nat) (d : List Byte) :
    Laid slot [.sram c o d] s (s.sramWrite c o d) := by
  refine ⟨rfl, rfl, rfl, State.sramWrite_wf hs c o d, fun l hl => (lineReadable_of_eq rfl rfl slot l).trans hl, fun a => ?_,
    fun a => ?_⟩
  · rw [List.foldl_cons, List.foldl_nil]
    rfl
  · have hspan : MemOp.padSpan (.sram c o d) = some (sramKey c o, d) := rfl
    rw [List.foldl_cons, List.foldl_nil, hspan, ← cellGet_cellsWrite_layAt (Mem.wf_iff.1 hs).2]
    rfl

theorem laid_performOp {ctx : Nat} (core : Nat) (op : MemOp) (hs : s.mem.wf = true) (h : op.lays s (ctxSlot ctx)) :
    Laid (ctxSlot ctx) [op] s (s.performOp ctx core op) := by
  cases op with
  | phys pa d => exact (laid_physWrite hs rfl rfl h).storeL1 _ _ _ _
  | host pa d => exact laid_physWrite hs rfl rfl h
  | sram c o d => exact laid_sramWrite hs c o d

theorem laid_performOps {ctx : Nat} (core : Nat) (ops : List MemOp) (hs : s.mem.wf = true)
    (h : ∀ op ∈ ops, op.lays s (ctxSlot ctx)) :
    Laid (ctxSlot ctx) ops s (ops.foldl (fun s op => s.performOp ctx core op) s) := by
  induction ops generalizing s with
  | nil => exact ⟨rfl, rfl, rfl, hs, fun _ hl => hl, fun _ => rfl, fun _ => rfl⟩
  | cons op ops ih =>
    have h1 := laid_performOp core op hs (h op List.mem_cons_self)
    refine h1.trans (ih h1.wf fun x hx y hy => ?_)
    obtain ⟨hdown, hlines⟩ := h x (List.mem_cons_of_mem _ hx) y hy
    exact ⟨by unfold State.hostDown at hdown ⊢; rwa [h1.host], fun l hl => h1.readable l (hlines l hl)⟩

end

/-! ## A store that reaches its home -/

/-- A store may be performed now: it is its task's first, it waits for no stamp and no remote access, no task waits for a
roll, and its bytes may be written. -/
structure State.Ready (s : State) (p : PendStore) : Prop where
  first : ∀ q ∈ s.mem.stores, q.tid = p.tid → p.id ≤ q.id
  stamp : s.stampWaits p = none
  free : s.storeHeldBack p = false
  plain : p.slipTo = none
  rolls : ∀ t ∈ s.tasks, ∀ a k o, t.wait ≠ some (.roll a k o)
  lays : ∀ op ∈ p.ops, op.lays s (ctxSlot p.ctx)

/-- A store has been performed. -/
structure StoreDone (p : PendStore) (s u : State) : Prop where
  regs : SameRegs s u
  stores : u.mem.stores = s.mem.stores.filter fun q => q.id ≠ p.id
  bytes : ∀ a, cellGet u.mem.bytes a = p.ops.foldl (fun b op => layAt op.physSpan a b) (cellGet s.mem.bytes a)
  sram : ∀ a, cellGet u.mem.sram a = p.ops.foldl (fun b op => layAt op.padSpan a b) (cellGet s.mem.sram a)

section
variable {s : State} {p : PendStore}

theorem storesBefore_first (h : ∀ q ∈ s.mem.stores, q.tid = p.tid → p.id ≤ q.id) : storesBefore s.mem.stores p = [] := by
  have hnone : (s.mem.stores.filter fun q => q.tid == p.tid && decide (q.id < p.id)) = [] := by
    refine List.filter_eq_nil_iff.2 fun q hq hlt => ?_
    rw [Bool.and_eq_true, beq_iff_eq, decide_eq_true_eq] at hlt
    exact absurd (h q hq hlt.1) (by omega)
  unfold storesBefore
  dsimp only
  rw [hnone]
  exact ite_self _

/-- A store that may be performed is performed, and requests that it held back go on. -/
theorem storeArrives_ready (hs : s.mem.wf = true) (h : s.Ready p) : StoreDone p s (s.storeArrives p) := by
  obtain ⟨hfirst, hstamp, hfree, hplain, hrolls, hlays⟩ := h
  have hlaid := laid_performOps p.core p.ops hs hlays
  have hstore : s.performStore p = (p.ops.foldl (fun s op => s.performOp p.ctx p.core op) s).onMem
      fun m => { m with stores := m.stores.filter (·.id != p.id) } := by
    simp only [State.performStore, hplain]
  have hpoke : (s.performStore p).pokeRolls 0 = s.performStore p :=
    pokeRolls_none (by rw [hstore]; exact hlaid.tasks ▸ hrolls) 0
  have harr : s.storeArrives p = (s.performStore p).pumpRemotes := by
    simp only [State.storeArrives, storesBefore_first hfirst, hstamp, hfree, List.any_nil, Bool.false_or, Bool.false_eq_true,
      if_false, State.performAll, List.nil_append, List.foldl_cons, List.foldl_nil, hpoke]
  rw [harr]
  have hsent := sent_pumpRemotes (s.performStore p)
  refine ⟨?_, ?_, ?_, ?_⟩
  · rw [SameRegs, hsent.tasks, hstore]
    exact congrArg _ hlaid.tasks
  · rw [hsent.mem, hstore]
    change List.filter _ (List.foldl _ s p.ops).mem.stores = _
    rw [hlaid.stores]
    exact List.filter_congr fun q _ => by by_cases hq : q.id = p.id <;> simp [hq]
  · rw [hsent.mem, hstore]
    exact hlaid.bytes
  · rw [hsent.mem, hstore]; exact hlaid.sram

theorem storeArrives_held (hfirst : ∀ q ∈ s.mem.stores, q.tid = p.tid → p.id ≤ q.id) (hheld : s.storeHeldBack p = true) :
    s.storeArrives p = s.postFree .storePerformed (.num p.id) := by
  simp only [State.storeArrives, storesBefore_first hfirst, hheld, List.any_nil, Bool.false_or, if_true]

theorem storeArrives_stamped {d : Nat} (hfirst : ∀ q ∈ s.mem.stores, q.tid = p.tid → p.id ≤ q.id)
    (hfree : s.storeHeldBack p = false) (hstamp : s.stampWaits p = some d)
    (hnew : ∀ w ∈ s.clocks.waiting, w.act ≠ .store p.id) : s.storeArrives p = s.onClocks fun c =>
      { c with waiting := c.waiting ++ [{ id := p.id, die := d, stamp := p.stamp, act := .store p.id }] } := by
  have hany : ¬(s.clocks.waiting.any fun w => decide (w.act = .store p.id)) = true := by
    rw [List.any_eq_true]
    rintro ⟨w, hw, hact⟩
    exact hnew w hw (of_decide_eq_true hact)
  simp only [State.storeArrives, storesBefore_first hfirst, hstamp, hfree, List.any_nil, Bool.false_or, Bool.false_eq_true,
    if_false]
  rw [if_neg hany]

end

/-! ## The events -/

section
variable {s : State} {id : Nat}

theorem exec_storePerformed {p : PendStore} (harg : s.arg = .num id)
    (hp : (s.mem.stores.find? fun q => q.id == id) = some p) : exec .storePerformed s = .next (s.storeArrives p) := by
  change execStorePerformed s = _
  simp only [execStorePerformed, harg, hp]

/-- A waiting message is taken. -/
def State.takeWaiting (s : State) (id : Nat) : State :=
  s.onClocks fun c => { c with waiting := c.waiting.filter fun x => x.id != id }

theorem exec_stampedMessageApply {w : Stamped} (harg : s.arg = .num id)
    (hw : (s.clocks.waiting.find? fun x => x.id == id) = some w) : exec .stampedMessageApply s =
      .next (if (!s.clocks.heardAll w.die w.stamp) = true then s
        else if s.anyPending w.after = true then s.postFree .stampedMessageApply (.num id)
        else (s.takeWaiting id).applyStamped w.act) := by
  change execStampedMessageApply s = _
  simp only [execStampedMessageApply, harg, hw]
  rfl

theorem exec_releaseSettled {die k : Nat} {x : Unsettled} (harg : s.arg = .num2 die k)
    (hx : (s.clocks.unsettled.find? fun x => x.die == die) = some x) (hk : x.count = k) :
    exec .releaseSettled s = .next (s.releaseSettles die k) := by
  have hdie : x.die = die := by simpa using List.find?_some (p := fun x : Unsettled => x.die == die) hx
  have hany : (s.clocks.unsettled.any fun u => u.die == die && u.count == k) = true :=
    List.any_eq_true.2 ⟨x, List.mem_of_find?_eq_some hx, by simp [hdie, hk]⟩
  change execReleaseSettled s = _
  simp only [execReleaseSettled, harg, hany, if_true]

/-- The heard counts once dies 0 to `n - 1` have heard of a release of `die`. -/
def hearAll (die k n : Nat) (t : Tbl Nat) : Tbl Nat := (List.range n).foldl (fun h d => h.put (d * 16 + die) k) t

theorem hearAll_getD (die k n x : Nat) (t : Tbl Nat) :
    (hearAll die k n t).getD 0 x = if ∃ d, d < n ∧ x = d * 16 + die then k else t.getD 0 x := by
  induction n with
  | zero => rw [if_neg (by simp)]; rfl
  | succ n ih =>
    have hput : hearAll die k (n + 1) t = (hearAll die k n t).put (n * 16 + die) k := by
      simp [hearAll, List.range_succ]
    rw [hput]
    by_cases hx : x = n * 16 + die
    · rw [if_pos ⟨n, by omega, hx⟩, hx, Tbl.getD, Tbl.find?_put_same, Option.getD_some]
    · rw [Tbl.getD, Tbl.find?_put_other _ _ hx, ← Tbl.getD, ih]
      refine if_congr ⟨fun ⟨d, hd, e⟩ => ⟨d, by omega, e⟩, fun ⟨d, hd, e⟩ => ⟨d, ?_, e⟩⟩ rfl rfl
      rcases Nat.lt_succ_iff_lt_or_eq.1 hd with hd | rfl
      · exact hd
      · exact absurd e hx

/-- Every die has heard of the count of `die`, and of the other dies what it had heard. -/
theorem hearAll_heard {die k d j : Nat} (t : Tbl Nat) (hdie : die < 14) (hd : d < 14) (hj : j < 14) :
    (hearAll die k 14 t).getD 0 (d * 16 + j) = if j = die then k else t.getD 0 (d * 16 + j) := by
  rw [hearAll_getD]
  refine if_congr ⟨fun ⟨e, _, he⟩ => by omega, fun h => ⟨d, hd, by omega⟩⟩ rfl rfl

/-- A release settles: every die hears of it. -/
def State.settles (s : State) (die k : Nat) : State :=
  s.onClocks fun c =>
    { c with
      unsettled := c.unsettled.filter fun x => !(x.die == die && x.count == k)
      heard := (List.range 14).foldl (fun h d => h.put (d * 16 + die) k) c.heard }

theorem settles_same (s : State) (die k : Nat) : (s.settles die k).mem = s.mem ∧ (s.settles die k).tasks = s.tasks ∧
    (s.settles die k).cycle = s.cycle := by
  simp only [State.settles, State.onClocks_mem, State.onClocks_tasks, State.onClocks_cycle, and_self]

theorem settles_heardOf {die k d j : Nat} (hdie : die < 14) (hd : d < 14) (hj : j < 14) :
    (s.settles die k).clocks.heardOf d j = if j = die then k else s.clocks.heardOf d j := by
  have hheard : (s.settles die k).clocks.heard = hearAll die k 14 s.clocks.heard := by
    simp only [State.settles, State.onClocks_clocks, hearAll]
  rw [Clocks.heardOf, Clocks.heardOf, hheard, hearAll_heard s.clocks.heard hdie hd hj]

theorem settles_unsettled {die k : Nat} {x : Unsettled} (hx : x ∈ (s.settles die k).clocks.unsettled) :
    ¬(x.die = die ∧ x.count = k) := by
  have hno := (List.mem_filter.1 hx).2
  rintro ⟨rfl, rfl⟩
  simp at hno

/-- Messages that wait are looked at again. -/
theorem applies_sent (l : List Stamped) (s : State) :
    Sent s (l.foldl (fun s w => s.post 0 .stampedMessageApply (.num w.id)) s) ∧
      ∀ w ∈ l, (s.cycle, .stampedMessageApply, .num w.id) ∈
        (l.foldl (fun s w => s.post 0 .stampedMessageApply (.num w.id)) s).due := by
  induction l generalizing s with
  | nil => exact ⟨Sent.refl s, nofun⟩
  | cons x l ih =>
    obtain ⟨hsent, hdue⟩ := ih (s.post 0 .stampedMessageApply (.num x.id))
    refine ⟨(sent_post _ _ _ _).trans hsent, fun w hw => ?_⟩
    rcases List.mem_cons.1 hw with rfl | hw
    · exact hsent.due _ (mem_insertDue.2 (.inl rfl))
    · exact hdue w hw

theorem releaseSettles_settled {die k : Nat} {x : Unsettled} (hx : (s.clocks.unsettled.find? fun x => x.die == die) = some x)
    (hk : x.count = k) (hdone : s.anyPending x.stores = false) :
    Sent (s.settles die k) (s.releaseSettles die k) ∧
      ∀ w ∈ s.clocks.waiting, (s.cycle, .stampedMessageApply, .num w.id) ∈ (s.releaseSettles die k).due := by
  obtain ⟨hsent, hdue⟩ := applies_sent s.clocks.waiting (s.settles die k)
  rw [(settles_same s die k).2.2] at hdue
  have hgo : ¬(x.count ≠ k ∨ s.anyPending x.stores = true) := by simp [hk, hdone]
  have heq : s.releaseSettles die k =
      (s.clocks.waiting.foldl (fun s w => s.post 0 .stampedMessageApply (.num w.id)) (s.settles die k)).pumpRemotes := by
    unfold State.releaseSettles
    rw [hx]
    exact if_neg hgo
  rw [heq]
  exact ⟨hsent.trans (sent_pumpRemotes _), fun w hw => (sent_pumpRemotes _).due _ (hdue w hw)⟩

theorem releaseSettles_waits {die k : Nat} {x : Unsettled} (hx : (s.clocks.unsettled.find? fun x => x.die == die) = some x)
    (hwait : s.anyPending x.stores = true) : s.releaseSettles die k = s.postFree .releaseSettled (.num2 die k) := by
  unfold State.releaseSettles
  rw [hx]
  exact if_pos (.inr hwait)

end

theorem anyPending_eq_true_iff {s : State} {ids : List Nat} :
    s.anyPending ids = true ↔ ∃ p ∈ s.mem.stores, p.id ∈ ids := by simp [State.anyPending]

/-- The events of stores and releases (07 R179, R189, R190). -/
theorem storeEventRules : Claim.StoreEventRules := by
  intro s hinv laid memKey padKey first performs waits ready
  have hready {p : PendStore} (h : ready p) : s.Ready p := by
    obtain ⟨hfirst, hstamp, hfree, hplain, hrolls, hlays⟩ := h
    exact ⟨hfirst, hstamp, hfree, hplain, hrolls, fun op hop x hx => hlays op hop x (by cases op <;> exact hx)⟩
  have hlaid (p : PendStore) (a : Nat) (old : Byte) :
      p.ops.foldl (fun b op => layAt op.physSpan a b) old = laid memKey p.ops a old ∧
        p.ops.foldl (fun b op => layAt op.padSpan a b) old = laid padKey p.ops a old :=
    ⟨congrArg (fun f => List.foldl f old p.ops) (funext₂ fun b op => by cases op <;> rfl),
      congrArg (fun f => List.foldl f old p.ops) (funext₂ fun b op => by cases op <;> rfl)⟩
  have performed {i : Instr} {p : PendStore} {w : State} (hexec : exec i s = .next (w.storeArrives p)) (hw : w.Ready p)
      (hmem : w.mem = s.mem) (htasks : w.tasks = s.tasks) : performs i p := by
    obtain ⟨hregs, hstores, hbytes, hsram⟩ := storeArrives_ready (by rw [hmem]; exact hinv.1) hw
    rw [SameRegs, htasks] at hregs
    rw [hmem] at hstores hbytes hsram
    exact ⟨_, hexec, hregs, hstores, fun a => (hbytes a).trans (hlaid p a _).1, fun a => (hsram a).trans (hlaid p a _).2⟩
  refine ⟨fun id p harg hp => ⟨fun hr => ?_, fun hfirst hheld => ?_, fun d hfirst hfree hstamp hnew => ?_⟩,
    fun id w harg hw => ?_, fun die k ids tid harg hdie hx => ⟨fun hdone => ?_, fun hwait => ?_⟩⟩
  · exact performed (exec_storePerformed harg hp) (hready hr) rfl rfl
  · have hid : p.id = id := by simpa using List.find?_some (p := fun q : PendStore => q.id == id) hp
    refine ⟨_, exec_storePerformed harg hp, ?_⟩
    rw [storeArrives_held hfirst hheld, hid]
    exact ⟨rfl, rfl, _, mem_insertDue.2 (.inl rfl)⟩
  · have hid : p.id = id := by simpa using List.find?_some (p := fun q : PendStore => q.id == id) hp
    subst hid
    refine ⟨_, exec_storePerformed harg hp, ?_⟩
    rw [storeArrives_stamped hfirst hfree hstamp hnew]
    exact ⟨rfl, rfl, _, rfl, rfl, rfl, rfl⟩
  · have hexec := exec_stampedMessageApply harg hw
    intro heard carried s1
    refine ⟨fun hh => ?_, fun hh hc => ?_, fun hh hc => ⟨fun p hact hp hr => ?_, fun key tid bit hact => ?_, fun core off n hact => ?_⟩⟩
    · exact hexec.trans (congrArg _ (if_pos (by rw [show s.clocks.heardAll w.die w.stamp = false from hh]; rfl)))
    · rw [if_neg (by rw [show s.clocks.heardAll w.die w.stamp = true from hh]; exact Bool.false_ne_true), if_pos hc] at hexec
      exact ⟨_, hexec, rfl, rfl, rfl, _, mem_insertDue.2 (.inl rfl)⟩
    all_goals
      rw [if_neg (by rw [show s.clocks.heardAll w.die w.stamp = true from hh]; exact Bool.false_ne_true),
        if_neg (ne_true_of_eq_false hc), hact] at hexec
    · have happly : (s.takeWaiting id).applyStamped (.store p.id) = (s.takeWaiting id).storeArrives p := by
        have hp' : ((s.takeWaiting id).mem.stores.find? fun q => q.id == p.id) = some p := hp
        simp only [State.applyStamped, hp']
      rw [happly] at hexec
      obtain ⟨hfirst, hstamp, hfree, hplain, hrolls, hlays⟩ := hready hr
      exact performed hexec ⟨hfirst, hstamp, hfree, hplain, hrolls, hlays⟩ rfl rfl
    · exact hexec
    · exact hexec
  · have hnone : s.anyPending ids = false := by
      rw [Bool.eq_false_iff, ne_eq, anyPending_eq_true_iff]
      exact fun ⟨p, hp, hin⟩ => hdone p hp hin
    obtain ⟨hsent, hdue⟩ := releaseSettles_settled hx rfl hnone
    obtain ⟨hmem, htasks, -⟩ := settles_same s die k
    refine ⟨_, exec_releaseSettled harg hx rfl, hsent.mem.trans hmem, hsent.tasks.trans htasks, fun d hd => ⟨?_, fun j hj hne => ?_⟩, fun y hy => ?_, hdue⟩
    · rw [hsent.clocks, settles_heardOf hdie hd hdie, if_pos rfl]
    · rw [hsent.clocks, settles_heardOf hdie hd hj, if_neg hne]
    · rw [hsent.clocks] at hy
      exact settles_unsettled hy
  · have hexec := exec_releaseSettled harg hx rfl
    rw [releaseSettles_waits hx (anyPending_eq_true_iff.2 hwait)] at hexec
    exact ⟨_, _, hexec, rfl, rfl, rfl, mem_insertDue.2 (.inl rfl)⟩

end Sys2Proof.Machine
end

section
/-! PROOF. Data that arrives, and deferred faults (01 R28; 05 R132; 06 R161, R162). -/

namespace Sys2Proof.Machine

open Sys2Proof

/-! ## Faults that join a task's queue (06 R161, R162) -/

/-- A fault joins the queue of eight, or is discarded with OVFL set. -/
def Task.takeFault (f : FaultRec) (t : Task) : Task :=
  if t.faults.length < 8 then { t with faults := t.faults ++ [f] } else { t with ovfl := true }

theorem Task.takeFault_tid (f : FaultRec) (t : Task) : (t.takeFault f).tid = t.tid := by
  unfold Task.takeFault; split <;> rfl

theorem Task.takeFault_joins {f : FaultRec} {t : Task} (h : t.faults.length < 8) :
    t.takeFault f = { t with faults := t.faults ++ [f] } := if_pos h

theorem Task.takeFault_full {f : FaultRec} {t : Task} (h : 8 ≤ t.faults.length) :
    t.takeFault f = { t with ovfl := true } := if_neg (Nat.not_lt.2 h)

/-- What a fault leaves: the queue, OVFL, and all the rest as it was. -/
theorem Task.takeFault_queue (f : FaultRec) (t : Task) :
    (t.faults.length < 8 → (t.takeFault f).faults = t.faults ++ [f] ∧ (t.takeFault f).ovfl = t.ovfl) ∧
      (8 ≤ t.faults.length → (t.takeFault f).faults = t.faults ∧ (t.takeFault f).ovfl = true) := by
  refine ⟨fun h => ?_, fun h => ?_⟩
  · rw [Task.takeFault_joins h]; exact ⟨rfl, rfl⟩
  · rw [Task.takeFault_full h]; exact ⟨rfl, rfl⟩

theorem Task.takeFault_rest (f : FaultRec) (t : Task) : (t.takeFault f).wait = t.wait ∧ (t.takeFault f).r = t.r ∧
    (t.takeFault f).infl = t.infl := by
  unfold Task.takeFault; split <;> exact ⟨rfl, rfl, rfl⟩

/-- A fault ends no wait of a task in trap mode, or of one that waits for a lock or for nothing. -/
def Task.staysWaiting (t : Task) : Prop := t.trap.mode = true ∨ t.wait = none ∨ ∃ lw m, t.wait = some (.lock lw m)

section
variable {s : State} {tid : Word} {t : Task} {f : FaultRec}

theorem queueFault_stays (ht : s.task? tid = some t) (h : t.staysWaiting) :
    s.queueFault tid f = s.modTask tid (Task.takeFault f) := by
  simp only [State.queueFault, ht]
  rcases h with hmode | hnone | ⟨lw, m, hlock⟩
  · split
    · rfl
    · rw [if_pos hmode]; rfl
    · rfl
  · rw [hnone]; rfl
  · rw [hlock]; rfl

theorem queueFault_ends (ht : s.task? tid = some t) (h : ¬t.staysWaiting) : ∃ w, t.wait = some w ∧
    s.queueFault tid f = ((s.modTask tid (Task.takeFault f)).cancelWait t w).wake tid := by
  unfold Task.staysWaiting at h
  simp only [not_or, not_exists] at h
  obtain ⟨hmode, hsome, hlock⟩ := h
  obtain ⟨w, hw⟩ := Option.ne_none_iff_exists'.1 hsome
  refine ⟨w, hw, ?_⟩
  simp only [State.queueFault, ht, hw]
  split
  · next heq => exact absurd (hw.trans heq) (hlock _ _)
  · next heq => obtain rfl := Option.some.inj heq; rw [if_neg hmode]; rfl
  · next heq => exact nomatch heq

theorem Task.toRedo_same (t : Task) : t.toRedo.tid = t.tid ∧ t.toRedo.faults = t.faults ∧ t.toRedo.ovfl = t.ovfl := by
  unfold Task.toRedo; split <;> exact ⟨rfl, rfl, rfl⟩

/-- What the end of a wait leaves of a task: its queue of faults, and memory. -/
theorem cancelWait_leaves {x : Task} (t : Task) (w : Wait) (hx : s.task? t.tid = some x) :
    (s.cancelWait t w).mem = s.mem ∧
      ∃ y, (s.cancelWait t w).task? t.tid = some y ∧ y.faults = x.faults ∧ y.ovfl = x.ovfl := by
  have redone {u : State} {g : Task → Task} (hmem : u.mem = s.mem) (htasks : u.tasks = s.tasks)
      (hg : ∀ t, (g t).tid = t.tid ∧ (g t).faults = t.faults ∧ (g t).ovfl = t.ovfl) :
      (u.modTask t.tid g).mem = s.mem ∧
        ∃ y, (u.modTask t.tid g).task? t.tid = some y ∧ y.faults = x.faults ∧ y.ovfl = x.ovfl :=
    ⟨hmem, _, task?_modTask_same ((task?_of_tasks htasks _).trans hx) fun t => (hg t).1, (hg x).2⟩
  have kept : s.mem = s.mem ∧ ∃ y, s.task? t.tid = some y ∧ y.faults = x.faults ∧ y.ovfl = x.ovfl := ⟨rfl, x, hx, rfl, rfl⟩
  unfold State.cancelWait
  split
  · obtain ⟨hmem, htasks⟩ := feWithdraw_same s (·.id == ‹Nat›)
    exact redone hmem htasks fun t => Task.toRedo_same _
  · exact redone rfl rfl fun t => Task.toRedo_same _
  · exact redone rfl rfl fun t => Task.toRedo_same _
  · exact redone (u := State.onCores _ _) rfl rfl fun t => Task.toRedo_same _
  · exact redone (u := State.onCores _ _) rfl rfl fun t => Task.toRedo_same _
  · unfold State.leavePageFault
    split <;> exact kept
  · exact kept

/-- A fault that ends the wait of its task: it is in the queue, and the task waits for nothing. -/
theorem queueFault_ended (ht : s.task? tid = some t) (h : ¬t.staysWaiting) : (s.queueFault tid f).mem = s.mem ∧
    ∃ y, (s.queueFault tid f).task? tid = some y ∧ y.wait = none ∧ y.faults = (t.takeFault f).faults ∧
      y.ovfl = (t.takeFault f).ovfl := by
  obtain ⟨w, -, heq⟩ := queueFault_ends (f := f) ht h
  have htid := task?_tid ht
  have hx : (s.modTask tid (Task.takeFault f)).task? t.tid = some (t.takeFault f) := by
    rw [htid]; exact task?_modTask_same ht (Task.takeFault_tid f)
  obtain ⟨hmem, x, hx, hfaults, hovfl⟩ := cancelWait_leaves t w hx
  rw [htid] at hx
  have hwoken := woken_wake hx
  obtain ⟨a, b, c, hy⟩ := hwoken.task x hx
  rw [heq]
  exact ⟨hwoken.mem.trans hmem, _, hy, rfl, hfaults, hovfl⟩

end

/-! ## The events -/

theorem exec_loadDataArrive {s : State} {id : Nat} {t : Task} {e : Infl} (harg : s.arg = .num id)
    (h : (s.tasks.findSome? fun t => (t.infl.find? fun e => e.id == id && !e.remote).map fun e => (t, e)) = some (t, e)) :
    exec .loadDataArrive s = .next (s.dataArrives t e) := by
  change execLoadDataArrive s = _
  simp only [execLoadDataArrive, harg, h]

/-- Data that arrives and faults that join a queue (01 R28; 05 R132; 06 R161, R162). -/
theorem dataArrivalRules : Claim.DataArrivalRules := by
  intro s
  refine ⟨fun id t e harg hfind ht he hphase hplain => ?_, fun tid f t harg ht => ?_⟩
  · intro lands
    have hexec := exec_loadDataArrive harg hfind
    have hid : e.id = id := by simpa using List.find?_some (p := fun x : Infl => x.id == id) he
    have hland := landFor_bound e.val ht he hphase
    have hy := task?_modTask_same ht fun x => Task.land_tid x id e.val
    obtain ⟨hr, hinfl, hfaults, hwait⟩ := Task.land_fields e.val he hplain
    generalize t.land id e.val = y at hy hr hinfl hfaults hwait
    have hwhole (d : Reg) (v : Word) (hreg : e.reg = .g d) (hmask : e.mask = BitVec.allOnes 64) (hval : e.val = .word v)
        (n : Reg) : (t.r.write e.reg e.mask e.val).getG n = if n = d ∧ n ≠ 0 then v else t.r.getG n := by
      rw [hreg, hmask, hval]; exact Regs.getG_write_whole t.r d n v
    refine ⟨fun hp => ?_, fun pa info hp hw => ?_⟩
    · simp only [State.dataArrives, hid, hland, hp] at hexec
      exact ⟨_, _, hexec, ⟨fun _ => rfl, fun _ => rfl⟩, hy, hr, hinfl, hr ▸ hwhole, hfaults, hwait⟩
    · simp only [State.dataArrives, hid, hland, hp] at hexec
      rw [queueFault_stays hy (.inr (.inl (hwait.trans hw)))] at hexec
      have hy2 := task?_modTask_same hy (Task.takeFault_tid
        { code := BitVec.ofNat 16 cIntegrity, addr := BitVec.ofNat 64 pa, info := BitVec.ofNat 64 info, deferred := true })
      obtain ⟨fwait, fr, finfl⟩ := Task.takeFault_rest
        { code := BitVec.ofNat 16 cIntegrity, addr := BitVec.ofNat 64 pa, info := BitVec.ofNat 64 info, deferred := true } y
      obtain ⟨fjoins, ffull⟩ := Task.takeFault_queue
        { code := BitVec.ofNat 16 cIntegrity, addr := BitVec.ofNat 64 pa, info := BitVec.ofNat 64 info, deferred := true } y
      rw [hfaults] at fjoins ffull
      refine ⟨_, _, hexec, ⟨fun _ => rfl, fun _ => rfl⟩, hy2, fr.trans hr, finfl.trans hinfl, (fr.trans hr) ▸ hwhole,
        fwait.trans (hwait.trans hw), ?_⟩
      by_cases h8 : t.faults.length < 8
      · rw [if_pos h8]; exact (fjoins h8).1
      · rw [if_neg h8]; exact ffull (Nat.not_lt.1 h8)
  · have hexec : exec .deferredFaultArrive s = .next (s.queueFault tid f) := by
      change execDeferredFaultArrive s = _
      simp only [execDeferredFaultArrive, harg]
    obtain ⟨hjoins, hfull⟩ := Task.takeFault_queue f t
    by_cases hstays : t.staysWaiting
    · obtain ⟨hwait, hr, -⟩ := Task.takeFault_rest f t
      rw [queueFault_stays ht hstays] at hexec
      exact ⟨_, _, hexec, ⟨fun _ => rfl, fun _ => rfl⟩, task?_modTask_same ht (Task.takeFault_tid f), hjoins, hfull,
        fun _ => ⟨hwait, hr, rfl⟩, fun h => absurd hstays h⟩
    · obtain ⟨hmem, y, hy, hnone, hfaults, hovfl⟩ := queueFault_ended (f := f) ht hstays
      rw [← hfaults, ← hovfl] at hjoins hfull
      exact ⟨_, y, hexec, ⟨fun _ => by rw [hmem], fun _ => by rw [hmem]⟩, hy, hjoins, hfull, fun h => absurd h hstays,
        fun _ => hnone⟩

/-- Settles O59, from the rules of stores and of data and faults. -/
theorem storeAndDataEvents : Obligations.StoreAndDataEvents := ⟨storeEventRules, dataArrivalRules⟩

end Sys2Proof.Machine
end

section
/-! PROOF. Full/empty words (14 R365): what an access that is noted leaves of the open bundle and of the waiting lists, a
release and an acquire of a task that has no store of its own left, and a word whose state has changed. -/

namespace Sys2Proof.Machine

open Sys2Proof

/-! ## The open bundle after an access that is noted (05 R158) -/

section
variable (s : State)

theorem traceEvent_cur (tid : Word) (k aux : Nat) (st : Bool) (v : Word) : (s.traceEvent tid k aux st v).cur = s.cur := by
  unfold State.traceEvent
  split
  · rfl
  · split
    · dsimp only
      split <;> rfl
    · rfl

theorem traceTrigger_cur (tid : Word) (k : Nat) (hit : Trace → Bool) : (s.traceTrigger tid k hit).cur = s.cur := by
  unfold State.traceTrigger
  split
  · rfl
  · split
    · dsimp only
      split <;> rfl
    · rfl

theorem traceOne_cur (tid : Word) (slot : Nat) (e : TraceEv) : (s.traceOne tid slot e).cur = s.cur := by
  cases e with
  | branch => exact traceEvent_cur ..
  | kwrite => exact traceEvent_cur ..
  | access => exact (traceTrigger_cur ..).trans (traceEvent_cur ..)

theorem hbmActive_cur (line : Nat) : (s.hbmActive line).cur = s.cur := by
  unfold State.hbmActive
  split <;> rfl

theorem recordEvent_cur (a b c d e : Nat) : (s.recordEvent a b c d e).cur = s.cur := by
  unfold State.recordEvent
  split <;> rfl

theorem leaveL2_cur (l : L2Line) : (s.leaveL2 l).cur = s.cur := by
  have hactive : (if l.dirty then s.hbmActive l.line else s).cur = s.cur := by
    split
    · exact hbmActive_cur s _
    · rfl
  unfold State.leaveL2
  dsimp only
  split
  · exact (recordEvent_cur ..).trans hactive
  · exact hactive

theorem makeWay_cur (line : Nat) : (s.makeWay line).cur = s.cur := by
  unfold State.makeWay
  dsimp only
  split
  · rfl
  · split
    · exact leaveL2_cur s _
    · rfl

theorem touchL2_cur (ctx pa : Nat) (how : LineClass × Option Nat) (d : Bool) : (s.touchL2 ctx pa how d).cur = s.cur := by
  unfold State.touchL2
  split
  · rfl
  · dsimp only
    rw [State.onMem_cur]
    split
    · rfl
    · exact (hbmActive_cur _ _).trans (makeWay_cur s _)

theorem noteL2_cur (t : Task) (k : AccKind) (p : Piece) : (s.noteL2 t k p).cur = s.cur := by
  unfold State.noteL2
  split
  · split
    · rfl
    · exact touchL2_cur ..
  · rfl

theorem fwdUse_cur (die : Nat) (e : Option FwdEntry) : (s.fwdUse die e).cur = s.cur := by
  unfold State.fwdUse
  split <;> rfl

theorem tlbUse_cur (core : Nat) (asid : BitVec 16) (va : Nat) : (s.tlbUse core asid va).cur = s.cur := by
  unfold State.tlbUse
  split
  · rfl
  · split <;> rfl

theorem notePiece_cur (t : Task) (core : Nat) (k : AccKind) (p : Piece) : (s.notePiece t core k p).cur = s.cur :=
  (tlbUse_cur ..).trans ((fwdUse_cur ..).trans (noteL2_cur ..))

theorem notePieces_cur (t : Task) (core : Nat) (k : AccKind) (ps : List Piece) :
    (ps.foldl (fun s p => s.notePiece t core k p) s).cur = s.cur := by
  induction ps generalizing s with
  | nil => rfl
  | cons p ps ih => exact (ih _).trans (notePiece_cur ..)

theorem sameCur_of_eq {s u : State} (h : u.cur = s.cur) : SameCur s u :=
  ⟨[], by rw [h]; cases s.cur <;> simp⟩

theorem traceAccess_sameCur (tid : Word) (va size : Nat) (store : Bool) : SameCur s (s.traceAccess tid va size store) := by
  unfold State.traceAccess
  dsimp only
  split
  · next c hc =>
    split
    · exact ⟨[(c.slot, size.log2, store, BitVec.ofNat 64 va)], by rw [State.onCur_cur, hc]; rfl⟩
    · exact sameCur_of_eq (traceOne_cur ..)
  · exact sameCur_of_eq (traceOne_cur ..)

theorem noteAccess_sameCur (t : Task) (core : Nat) (k : AccKind) (ps : List Piece) (n : Nat) (acq rel : Option Scope) :
    SameCur s (s.noteAccess t core k ps n acq rel) := by
  cases ps with
  | nil => exact sameCur_of_eq rfl
  | cons p ps =>
    have htrace := traceAccess_sameCur s t.tid p.va (n * (p :: ps).length) (k != .load)
    obtain ⟨tr, htrace⟩ := htrace
    refine ⟨tr, ?_⟩
    rw [← htrace]
    unfold State.noteAccess
    dsimp only
    rw [notePieces_cur]
    unfold State.countBytes
    rw [State.modCtx_cur]
    split <;> rfl

end

/-! ## What stands before a full/empty access acts -/

/-- Memory, its full/empty bits, the tasks and the full/empty waiting lists stand as they did, and the open bundle but for
what it traces. -/
structure FeKept (s u : State) : Prop where
  bytes : u.mem.bytes = s.mem.bytes
  sram : u.mem.sram = s.mem.sram
  full : u.mem.full = s.mem.full
  tasks : u.tasks = s.tasks
  cur : SameCur s u
  core c : (u.core c).feWaits = (s.core c).feWaits ∧ (u.core c).feRefused = (s.core c).feRefused

section
variable {s u v : State}

theorem SameCur.trans (h : SameCur s u) (k : SameCur u v) : SameCur s v := by
  obtain ⟨x, h⟩ := h
  obtain ⟨y, k⟩ := k
  exact ⟨x ++ y, by rw [k, h]; cases s.cur <;> simp⟩

theorem FeKept.refl (s : State) : FeKept s s := ⟨rfl, rfl, rfl, rfl, sameCur_of_eq rfl, fun _ => ⟨rfl, rfl⟩⟩

theorem FeKept.trans (h : FeKept s u) (k : FeKept u v) : FeKept s v where
  bytes := k.bytes.trans h.bytes
  sram := k.sram.trans h.sram
  full := k.full.trans h.full
  tasks := k.tasks.trans h.tasks
  cur := h.cur.trans k.cur
  core c := ⟨(k.core c).1.trans (h.core c).1, (k.core c).2.trans (h.core c).2⟩

theorem feKept_noteAccess (s : State) (t : Task) (core : Nat) (k : AccKind) (ps : List Piece) (n : Nat)
    (acq rel : Option Scope) : FeKept s (s.noteAccess t core k ps n acq rel) := by
  have hcur := noteAccess_sameCur s t core k ps n acq rel
  have hnoted := noteAccess_noted s t core k ps n acq rel
  have hcore (c) : ((s.noteAccess t core k ps n acq rel).core c).feWaits = (s.core c).feWaits ∧
      ((s.noteAccess t core k ps n acq rel).core c).feRefused = (s.core c).feRefused := by
    obtain ⟨_, _, h⟩ := hnoted.core c
    rw [h]
    exact ⟨rfl, rfl⟩
  obtain ⟨_, _, _, _, _, _, _, _, _, _, _, _, hshape⟩ := hnoted.shape
  exact ⟨by rw [hshape], by rw [hshape], by rw [hshape], by rw [hshape], hcur, hcore⟩

theorem Noted.ownStores (h : Noted s u) (tid : Word) : u.ownStores tid = s.ownStores tid := by
  obtain ⟨_, _, _, _, _, _, _, _, _, _, _, _, rfl⟩ := h.shape
  rfl

/-- A task that has no store of its own left has none in the memory's queue. -/
theorem stores_of_ownStores_nil {tid : Word} (h : s.ownStores tid = []) : s.mem.stores.filter (·.tid == tid) = [] := by
  unfold State.ownStores at h
  dsimp only at h
  rcases List.eq_nil_or_concat (s.slipStores tid) with hheld | ⟨held, p, hheld⟩
  · simpa only [hheld, List.foldl_nil] using h
  · rw [hheld, List.concat_eq_append, List.foldl_concat] at h
    simp at h

theorem flushStores_none {tid : Word} (h : s.ownStores tid = []) : s.flushStores tid = s := by
  unfold State.flushStores
  rw [stores_of_ownStores_nil h, List.foldl_nil]

theorem feKept_releaseBy {tid : Word} (core : Nat) (h : s.ownStores tid = []) : FeKept s (s.releaseBy tid core .pkg) := by
  unfold State.releaseBy
  rw [flushStores_none h]
  exact ⟨rfl, rfl, rfl, rfl, sameCur_of_eq rfl, fun _ => ⟨rfl, rfl⟩⟩

theorem FeKept.sameBytes (h : FeKept s u) : SameBytes s u :=
  ⟨fun a => by rw [h.bytes], fun a => by rw [h.sram]⟩

theorem FeKept.sameRegs (h : FeKept s u) : SameRegs s u := by unfold SameRegs; rw [h.tasks]

theorem FeKept.wordFull (h : FeKept s u) (core off : Nat) : u.wordFull core off = s.wordFull core off := by
  rw [State.wordFull, State.wordFull, h.full]

theorem FeKept.feSource (h : FeKept s u) (w : FeWait) : u.feSource w = s.feSource w := by
  rw [State.feSource, State.feSource, task?_of_tasks h.tasks]

theorem FeKept.fePort (h : FeKept s u) (core src : Nat) : u.fePort core src = s.fePort core src := by
  simp only [State.fePort, (h.core core).2, h.feSource]

/-! ## Full/empty bits (05 R140) -/

theorem mem_insertNat {a x : Nat} {l : List Nat} : x ∈ insertNat a l ↔ x = a ∨ x ∈ l := by
  induction l with
  | nil => simp [insertNat]
  | cons b l ih =>
    simp only [insertNat]
    split
    · simp
    · split
      · next hab => subst hab; simp
      · simp [ih, or_left_comm]

theorem wordFull_setFull (s : State) (core off : Nat) (b : Bool) : (s.setFull core off b).wordFull core off = b := by
  unfold State.wordFull State.setFull
  rw [State.onMem_mem]
  cases b with
  | true => simpa using mem_insertNat.2 (.inl rfl)
  | false => simp

/-- A word that no access waits for changes state with no effect. -/
theorem feChanged_none {core word : Nat} (h : ∀ w ∈ (s.core core).feWaits, w.word ≠ word) : s.feChanged core word = s := by
  have hfind : ((s.core core).feWaits.find? fun w => w.word == word && feReady (s.wordFull core (word * 8)) w.kind) = none := by
    rw [List.find?_eq_none]
    intro w hw
    simp [h w hw]
  unfold State.feChanged
  cases (s.core core).feWaits.length with
  | zero => rfl
  | succ n => rw [State.feExamine, hfind]

/-! ## An acquire of package scope (07 R189) -/

theorem modTask_sameRegs {w : Word} {f : Task → Task}
    (hf : ∀ t, (f t).tid = t.tid ∧ (f t).r = t.r ∧ (f t).trap = t.trap) : SameRegs s (s.modTask w f) := by
  unfold SameRegs State.modTask
  rw [List.map_map]
  refine List.map_congr_left fun t _ => ?_
  obtain ⟨htid, hr, htrap⟩ := hf t
  simp only [Function.comp_apply]
  split
  · rw [htid, hr, htrap]
  · rfl

theorem acquireBy_mem (s : State) (tid : Word) (core : Nat) : (s.acquireBy tid core .pkg).mem = s.mem := rfl

theorem acquireBy_cur (s : State) (tid : Word) (core : Nat) : (s.acquireBy tid core .pkg).cur = s.cur := rfl

theorem acquireBy_sameRegs (s : State) (tid : Word) (core : Nat) : SameRegs s (s.acquireBy tid core .pkg) :=
  modTask_sameRegs (s := s.dropL1 core) fun _ => ⟨rfl, rfl, rfl⟩

theorem acquireBy_waits (s : State) (tid : Word) (core c : Nat) :
    ((s.acquireBy tid core .pkg).core c).feWaits = (s.core c).feWaits ∧
      ((s.acquireBy tid core .pkg).core c).feRefused = (s.core c).feRefused :=
  modCore_waits s core c _ fun _ => ⟨rfl, rfl⟩

theorem Entered.of_sameCur {es : List Infl} (h : SameCur s u) (k : Entered u v es) : Entered s v es := by
  obtain ⟨x, h⟩ := h
  obtain ⟨y, k⟩ := k
  exact ⟨x ++ y, by rw [k, h]; cases s.cur <;> simp⟩

theorem Interlocked.of_sameCur {rs : List (RegId × Word × RegVal)} (h : SameCur s u) (k : Interlocked u v rs) :
    Interlocked s v rs := by
  obtain ⟨es, hes, hrest⟩ := k
  exact ⟨es, hes.of_sameCur h, hrest⟩

end

end Sys2Proof.Machine
end

section
/-! PROOF. O41, at issue (14 R365, R366): a full/empty access whose condition holds is performed, one whose condition does
not hold waits, and one behind a ticketed access of its port is kept there. -/

namespace Sys2Proof.Machine

open Sys2Proof

/-- The state in which a full/empty access finds its word: the access is noted, and a FILL has released (14 R365). -/
def State.feBegun (s : State) (t : Task) (core : Nat) (p : Piece) (kind : Nat) : State :=
  let s0 := s.noteAccess t core (if kind = 0 then .store else .load) [p] 8
    (if kind = 0 then none else some .pkg) (if kind = 0 then some .pkg else none)
  if kind = 0 then s0.releaseBy t.tid core .pkg else s0.flushStores t.tid

/-- The state in which WRITEF (`full`) or SETE finds its word. -/
def State.setBegun (s : State) (t : Task) (core : Nat) (p : Piece) (full : Bool) : State :=
  let s0 := s.noteAccess t core .store [p] 8 none (if full then some .pkg else none)
  if full then s0.releaseBy t.tid core .pkg else s0.flushStores t.tid

/-- TAKE (kind 1) or READF from its word on. -/
def State.feReads (s : State) (c off kind : Nat) : State :=
  if kind = 1 then (s.setFull c off false).feChanged c (off / 8) else s

/-- What a store to a word and its bit leaves. -/
def State.feStores (s : State) (c off : Nat) (full : Bool) (data : Word) : State :=
  ((s.sramWrite c off (natLe 8 data.toNat)).setFull c off full).feChanged c (off / 8)

/-- The access that a FILL, TAKE or READF leaves where its condition does not hold. -/
def State.feWaiter (s : State) (t : Task) (kind off : Nat) (data : Word) : FeWait :=
  { id := s.nextId, tid := t.tid, kind := kind, word := off / 8, data := data, inflId := s.nextId }

/-- The state in which that access looks for its place: its number is taken, and a TAKE or READF has its result entered. -/
def State.feEntered (s : State) (t : Task) (kind : Nat) (d : Reg) : State :=
  let s2 : State := { s with nextId := s.nextId + 1 }
  if kind = 0 then s2 else s2.putInfl
    { id := s.nextId, reg := .g d, mask := BitVec.allOnes 64, val := .word 0, ord := 0, buf := t.r.buf }

section
variable {s u : State} {c : Cur} {t : Task} {d a : Reg} {i : Imm 5} {p : Piece} {core off kind : Nat}

theorem feKept_noted_release (core : Nat) (k : AccKind) (acq rel : Option Scope) (hown : s.ownStores t.tid = []) :
    FeKept s ((s.noteAccess t core k [p] 8 acq rel).releaseBy t.tid core .pkg) :=
  (feKept_noteAccess s t core k [p] 8 acq rel).trans
    (feKept_releaseBy core (((noteAccess_noted s t core k [p] 8 acq rel).ownStores t.tid).trans hown))

theorem feKept_noted_flush (core : Nat) (k : AccKind) (acq rel : Option Scope) (hown : s.ownStores t.tid = []) :
    FeKept s ((s.noteAccess t core k [p] 8 acq rel).flushStores t.tid) := by
  rw [flushStores_none (((noteAccess_noted s t core k [p] 8 acq rel).ownStores t.tid).trans hown)]
  exact feKept_noteAccess s t core k [p] 8 acq rel

theorem feKept_feBegun (kind : Nat) (hown : s.ownStores t.tid = []) : FeKept s (s.feBegun t core p kind) := by
  unfold State.feBegun
  dsimp only
  split
  · exact feKept_noted_release core _ _ _ hown
  · exact feKept_noted_flush core _ _ _ hown

theorem feKept_setBegun (full : Bool) (hown : s.ownStores t.tid = []) : FeKept s (s.setBegun t core p full) := by
  unfold State.setBegun
  dsimp only
  split
  · exact feKept_noted_release core _ _ _ hown
  · exact feKept_noted_flush core _ _ _ hown

/-! ## The bundle's own stores do not hold it (07 R180) -/

theorem ownMeets_none {tid : Word} {ops : List MemOp} (hown : s.ownStores tid = []) :
    (s.flushStores tid).ownMeets tid ops = false := by
  rw [flushStores_none hown, State.ownMeets, hown, List.any_nil]

theorem storesLeft_none {tid : Word} (hown : s.ownStores tid = []) : (s.flushStores tid).storesLeft tid = false := by
  rw [flushStores_none hown, State.storesLeft, hown]
  rfl

/-! ## The two outcomes of FILL, TAKE and READF -/

section
variable (hcur : s.cur = some c) (hme : s.me? = some t) (hon : s.enabled = true) (hown : s.ownStores t.tid = [])
  (hloc : p.loc = .sram core off)
include hcur hme hon hown hloc

/-- What FILL, TAKE and READF do at a word of a scratchpad. -/
theorem feWaitSlot_at (hheld : s.rangeHeld c.core [p] 8 = false)
    (haddr : s.feAddr t c.core (eaOf (s.getG a) (immS i)) (if kind = 0 then .store else .load) = .ok p) :
    s.feWaitSlot kind d a i =
      let s1 := s.feBegun t c.core p kind
      if feReady (s1.wordFull core off) kind && !s1.fePort core c.core then
        if kind = 0 then s1.feStores core off true (s.getG d)
        else ((s1.feReads core off kind).acquireBy t.tid c.core .pkg).putLoad t (.g d) (BitVec.allOnes 64)
          (.word (leWord (s1.sramRead core off 8))) none
      else
        let s3 := s1.feEntered t kind d
        let w := s1.feWaiter t kind off (s.getG d)
        (if s3.fePort core c.core then s3.feKeep core w (.behind false) else s3.feQueue core w false).onCur
          fun x => { x with wait := some (.fullEmpty w.id) } := by
  have hcore : s.curCore = c.core := by rw [State.curCore, hcur]
  unfold State.feWaitSlot State.whenOn
  rw [if_pos hon]
  dsimp only
  rw [hme]
  dsimp only
  rw [hcore, haddr]
  simp only [State.onChk, hloc, hheld, Bool.and_false, Bool.false_or, storesLeft_none hown, ownMeets_none hown, ite_self,
    Bool.false_eq_true, if_false]
  rfl

/-- What WRITEF and SETE do at a word of a scratchpad. -/
theorem feSet_at {full : Bool} (hheld : s.rangeHeld c.core [p] 8 = false)
    (haddr : s.feAddr t c.core (eaOf (s.getG a) (immS i)) .store = .ok p) :
    s.feSet full d a i = (s.setBegun t c.core p full).feStores core off full (s.getG d) := by
  have hcore : s.curCore = c.core := by rw [State.curCore, hcur]
  unfold State.feSet State.whenOn
  rw [if_pos hon]
  dsimp only
  rw [hme]
  dsimp only
  rw [hcore, haddr]
  simp only [State.onChk, hloc, hheld, Bool.false_or, storesLeft_none hown, ownMeets_none hown, ite_self,
    Bool.false_eq_true, if_false]
  rfl

end

end

end Sys2Proof.Machine
end

section
/-! PROOF. O41, at issue: what a full/empty access that is performed, that waits, and that its port keeps leaves (14 R365,
R366). -/

namespace Sys2Proof.Machine

open Sys2Proof

section
variable {s u : State} {core off : Nat}

theorem FeKept.wf (h : FeKept s u) (hs : s.mem.wf = true) : u.mem.wf = true := by
  obtain ⟨hbytes, hsram⟩ := Mem.wf_iff.mp hs
  exact Mem.wf_iff.mpr ⟨by rw [h.bytes]; exact hbytes, by rw [h.sram]; exact hsram⟩

theorem FeKept.no_waiter {word : Nat} (h : FeKept s u) (hnone : ∀ w ∈ (s.core core).feWaits, w.word ≠ word) :
    ∀ w ∈ (u.core core).feWaits, w.word ≠ word := by
  rw [(h.core core).1]
  exact hnone

/-! ## A store to a word that no access waits for -/

section
variable {full : Bool} {data : Word}

theorem feStores_eq (hnone : ∀ w ∈ (u.core core).feWaits, w.word ≠ off / 8) :
    u.feStores core off full data = (u.sramWrite core off (natLe 8 data.toNat)).setFull core off full :=
  feChanged_none (s := (u.sramWrite core off (natLe 8 data.toNat)).setFull core off full) hnone

/-- What `stores` of the statement asks of a store. -/
structure FeStored (s v : State) (core off : Nat) (full : Bool) (data : Word) : Prop where
  cur : SameCur s v
  regs : SameRegs s v
  bytes : v.bytesAt (.sram core off) 8 = natLe 8 data.toNat
  others : SameBytesBut [.sram core off] 8 s v
  bit : v.wordFull core off = full

theorem feStored_of_kept (h : FeKept s u) (hs : s.mem.wf = true)
    (hnone : ∀ w ∈ (s.core core).feWaits, w.word ≠ off / 8) :
    FeStored s (u.feStores core off full data) core off full data := by
  have hlen : (natLe 8 data.toNat).length = 8 := natLe_length _ _
  have hwrote := wrote_sramWrite (s := u) (core := core) (off := off) (bs := natLe 8 data.toNat) (h.wf hs)
  have hbytes := hwrote.bytes
  have hothers := hwrote.others
  rw [hlen] at hbytes hothers
  rw [feStores_eq (h.no_waiter hnone)]
  refine ⟨h.cur, h.sameRegs, hbytes, ⟨fun a ha => ?_, fun a ha => ?_⟩, wordFull_setFull _ _ _ _⟩
  · exact (hothers.1 a ha).trans (by rw [h.bytes])
  · exact (hothers.2 a ha).trans (by rw [h.sram])

end

/-! ## A read of a word that no access waits for -/

section
variable {kind : Nat} {t : Task} {c : Nat} {d : Reg}

theorem feReads_eq (hnone : ∀ w ∈ (u.core core).feWaits, w.word ≠ off / 8) :
    u.feReads core off kind = if kind = 1 then u.setFull core off false else u := by
  unfold State.feReads
  rw [feChanged_none (s := u.setFull core off false) hnone]

/-- What `reads` of the statement asks of a read. -/
structure FeRead (s v : State) (core off : Nat) (d : Reg) (full : Bool) : Prop where
  regs : SameRegs s v
  same : SameBytes s v
  result : Interlocked s v
    [(.g d, BitVec.allOnes 64, .word (BitVec.ofNat 64 (leNat (s.bytesAt (.sram core off) 8))))]
  bit : v.wordFull core off = full

theorem feReads_kept (h : FeKept s u) (hnone : ∀ w ∈ (s.core core).feWaits, w.word ≠ off / 8) :
    SameRegs s (u.feReads core off kind) ∧ SameBytes s (u.feReads core off kind) ∧ SameCur s (u.feReads core off kind) ∧
      (u.feReads core off kind).wordFull core off = if kind = 1 then false else s.wordFull core off := by
  rw [feReads_eq (h.no_waiter hnone)]
  split
  · exact ⟨h.sameRegs, h.sameBytes, h.cur, wordFull_setFull _ _ _ _⟩
  · exact ⟨h.sameRegs, h.sameBytes, h.cur, h.wordFull _ _⟩

theorem feRead_of_kept (h : FeKept s u) (hnone : ∀ w ∈ (s.core core).feWaits, w.word ≠ off / 8) :
    FeRead s (((u.feReads core off kind).acquireBy t.tid c .pkg).putLoad t (.g d) (BitVec.allOnes 64)
      (.word (leWord (u.sramRead core off 8))) none) core off d (if kind = 1 then false else s.wordFull core off) := by
  obtain ⟨hregs, hbytes, hcur, hbit⟩ := feReads_kept (kind := kind) h hnone
  have hdata : leWord (u.sramRead core off 8) = BitVec.ofNat 64 (leNat (s.bytesAt (.sram core off) 8)) := by
    rw [State.sramRead, h.sram]
    rfl
  rw [hdata]
  generalize u.feReads core off kind = x at hregs hbytes hcur hbit ⊢
  refine ⟨(acquireBy_sameRegs x t.tid c).trans hregs, hbytes, ?_, hbit⟩
  exact (putLoad_interlocked _ t _ _ _).of_sameCur (SameCur.trans hcur (sameCur_of_eq (acquireBy_cur x t.tid c)))

end

/-! ## An access that is kept or waits -/

section
variable {kind : Nat} {t : Task} {d : Reg} {data : Word}

/-- The place that an access whose condition does not hold takes. -/
def State.fePlaced (s : State) (t : Task) (src core off kind : Nat) (d : Reg) (data : Word) : State :=
  let s3 := s.feEntered t kind d
  let w := s.feWaiter t kind off data
  (if s3.fePort core src then s3.feKeep core w (.behind false) else s3.feQueue core w false).onCur
    fun x => { x with wait := some (.fullEmpty w.id) }

/-- What `keeps` and `waits` of the statement ask, beside the place that is taken. -/
structure FeWaiting (s v : State) (t : Task) (core off : Nat) (w : FeWait) : Prop where
  cur : ∃ x, v.cur = some x ∧ x.wait = some (.fullEmpty w.id)
  tid : w.tid = t.tid
  word : w.word = off / 8
  same : SameBytes s v
  regs : SameRegs s v
  bit : v.wordFull core off = s.wordFull core off

/-- Memory, the tasks and an open bundle stand. -/
structure FeOpen (s u : State) : Prop where
  bytes : u.mem.bytes = s.mem.bytes
  sram : u.mem.sram = s.mem.sram
  full : u.mem.full = s.mem.full
  tasks : u.tasks = s.tasks
  cur : ∃ x, u.cur = some x

theorem FeKept.isOpen {c : Cur} (h : FeKept s u) (hcur : s.cur = some c) : FeOpen s u :=
  ⟨h.bytes, h.sram, h.full, h.tasks, by obtain ⟨tr, hu⟩ := h.cur; exact ⟨_, by rw [hu, hcur]; rfl⟩⟩

theorem FeOpen.entered (h : FeOpen s u) : FeOpen s (u.feEntered t kind d) := by
  obtain ⟨hbytes, hsram, hfull, htasks, x, hx⟩ := h
  unfold State.feEntered
  dsimp only
  split
  · exact ⟨hbytes, hsram, hfull, htasks, x, hx⟩
  · exact ⟨hbytes, hsram, hfull, htasks, by rw [State.putInfl, State.onCur_cur, hx]; exact ⟨_, rfl⟩⟩

theorem FeOpen.waiting (h : FeOpen s u) {w : FeWait} (htid : w.tid = t.tid) (hword : w.word = off / 8) :
    FeWaiting s (u.onCur fun x => { x with wait := some (.fullEmpty w.id) }) t core off w := by
  obtain ⟨x, hx⟩ := h.cur
  refine ⟨⟨{ x with wait := some (.fullEmpty w.id) }, by rw [State.onCur_cur, hx]; rfl, rfl⟩, htid, hword,
    ⟨fun a => ?_, fun a => ?_⟩, ?_, ?_⟩
  · rw [State.onCur_mem, h.bytes]
  · rw [State.onCur_mem, h.sram]
  · rw [SameRegs, State.onCur_tasks, h.tasks]
  · rw [State.wordFull, State.wordFull, State.onCur_mem, h.full]

theorem feEntered_core (s : State) (c : Nat) : (s.feEntered t kind d).core c = s.core c := by
  unfold State.feEntered
  dsimp only
  split <;> rfl

theorem feEntered_fePort (s : State) (c src : Nat) : (s.feEntered t kind d).fePort c src = s.fePort c src := by
  unfold State.feEntered
  dsimp only
  split <;> rfl

/-- An access whose port has a ticketed one is kept behind it. -/
theorem fePlaced_ported {c : Cur} {src : Nat} (h : FeKept s u) (hcur : s.cur = some c) (hport : s.fePort core src = true) :
    FeWaiting s (u.fePlaced t src core off kind d data) t core off (u.feWaiter t kind off data) ∧
      ((u.fePlaced t src core off kind d data).core core).feRefused =
        (s.core core).feRefused ++ [(u.feWaiter t kind off data, core, .behind false)] := by
  have hport' : (u.feEntered t kind d).fePort core src = true := by rw [feEntered_fePort, h.fePort, hport]
  obtain ⟨hbytes, hsram, hfull, htasks, hopen⟩ := (h.isOpen hcur).entered (t := t) (kind := kind) (d := d)
  unfold State.fePlaced
  dsimp only
  rw [if_pos hport']
  have hkept : FeOpen s ((u.feEntered t kind d).feKeep core (u.feWaiter t kind off data) (.behind false)) :=
    ⟨hbytes, hsram, hfull, htasks, hopen⟩
  refine ⟨hkept.waiting rfl rfl, ?_⟩
  change (((u.feEntered t kind d).feKeep core (u.feWaiter t kind off data) (.behind false)).core core).feRefused = _
  rw [State.feKeep, State.core_modCore_same, feEntered_core, (h.core core).2]

/-- An access takes a free place of a list that has refused none. -/
theorem fePlaced_waits {c : Cur} {src : Nat} (h : FeKept s u) (hcur : s.cur = some c)
    (hroom : (s.core core).feWaits.length < 32) (hnone : (s.core core).feRefused = []) :
    FeWaiting s (u.fePlaced t src core off kind d data) t core off (u.feWaiter t kind off data) ∧
      ((u.fePlaced t src core off kind d data).core core).feWaits =
        (s.core core).feWaits ++ [u.feWaiter t kind off data] := by
  have hrefused : ((u.feEntered t kind d).core core).feRefused = [] := by rw [feEntered_core, (h.core core).2, hnone]
  have hwaits : ((u.feEntered t kind d).core core).feWaits = (s.core core).feWaits := by rw [feEntered_core, (h.core core).1]
  have hport : ¬(u.feEntered t kind d).fePort core src = true := by rw [State.fePort, hrefused]; exact Bool.false_ne_true
  have hplace : (u.feEntered t kind d).fePlaces core < 32 ∧
      (false = true ∨ (u.feEntered t kind d).feTicketed core = false) := by
    rw [State.fePlaces, State.feTicketed, hrefused, hwaits]
    exact ⟨hroom, .inr rfl⟩
  obtain ⟨hbytes, hsram, hfull, htasks, hopen⟩ := (h.isOpen hcur).entered (t := t) (kind := kind) (d := d)
  unfold State.fePlaced
  dsimp only
  rw [if_neg hport, State.feQueue, if_pos hplace]
  have hlisted : FeOpen s ((u.feEntered t kind d).feList core (u.feWaiter t kind off data)) :=
    ⟨hbytes, hsram, hfull, htasks, hopen⟩
  refine ⟨hlisted.waiting rfl rfl, ?_⟩
  change (((u.feEntered t kind d).feList core (u.feWaiter t kind off data)).core core).feWaits = _
  rw [State.feList, State.core_modCore_same, hwaits]

end

end

/-! ## At issue -/

section
variable {s : State} {c : Cur} {t : Task} {d a : Reg} {i : Imm 5} {p : Piece} {core off kind : Nat}
  (hcur : s.cur = some c) (hme : s.me? = some t) (hon : s.enabled = true) (hown : s.ownStores t.tid = [])
  (hloc : p.loc = .sram core off) (hheld : s.rangeHeld c.core [p] 8 = false)
include hcur hme hon hown hloc hheld

/-- WRITEF and SETE are performed whatever the bit is. -/
theorem feSet_stores {full : Bool} (hs : s.mem.wf = true) (hnone : ∀ w ∈ (s.core core).feWaits, w.word ≠ off / 8)
    (haddr : s.feAddr t c.core (eaOf (s.getG a) (immS i)) .store = .ok p) :
    FeStored s (s.feSet full d a i) core off full (s.getG d) := by
  rw [feSet_at hcur hme hon hown hloc hheld haddr]
  exact feStored_of_kept (feKept_setBegun full hown) hs hnone

section
variable (haddr : s.feAddr t c.core (eaOf (s.getG a) (immS i)) (if kind = 0 then .store else .load) = .ok p)
include haddr

/-- The condition holds and no ticketed access is before it: FILL is performed. -/
theorem feWaitSlot_stores (hs : s.mem.wf = true) (hnone : ∀ w ∈ (s.core core).feWaits, w.word ≠ off / 8)
    (hkind : kind = 0) (hempty : s.wordFull core off = false) (hport : ¬s.fePort core c.core = true) :
    FeStored s (s.feWaitSlot kind d a i) core off true (s.getG d) := by
  have hkept := feKept_feBegun (core := c.core) (p := p) kind hown
  rw [feWaitSlot_at hcur hme hon hown hloc hheld haddr]
  dsimp only
  rw [hkept.wordFull, hkept.fePort, hempty, Bool.eq_false_iff.2 hport, if_pos (by rw [hkind]; rfl), if_pos hkind]
  exact feStored_of_kept hkept hs hnone

/-- The condition holds and no ticketed access is before it: TAKE or READF is performed. -/
theorem feWaitSlot_reads (hnone : ∀ w ∈ (s.core core).feWaits, w.word ≠ off / 8)
    (hkind : kind ≠ 0) (hfull : s.wordFull core off = true) (hport : ¬s.fePort core c.core = true) :
    FeRead s (s.feWaitSlot kind d a i) core off d (if kind = 1 then false else true) := by
  have hkept := feKept_feBegun (core := c.core) (p := p) kind hown
  have hready : feReady true kind = true := by rw [feReady, if_neg hkind]
  rw [feWaitSlot_at hcur hme hon hown hloc hheld haddr]
  dsimp only
  rw [hkept.wordFull, hkept.fePort, hfull, hready, Bool.eq_false_iff.2 hport, if_pos (show (true && !false) = true from rfl),
    if_neg hkind]
  have hread := feRead_of_kept (kind := kind) (t := t) (c := c.core) (d := d) hkept hnone
  rw [hfull] at hread
  exact hread

/-- The condition does not hold, or a ticketed access of the port is before it. -/
theorem feWaitSlot_placed (h : feReady (s.wordFull core off) kind = false ∨ s.fePort core c.core = true) :
    s.feWaitSlot kind d a i = (s.feBegun t c.core p kind).fePlaced t c.core core off kind d (s.getG d) := by
  have hkept := feKept_feBegun (core := c.core) (p := p) kind hown
  rw [feWaitSlot_at hcur hme hon hown hloc hheld haddr]
  dsimp only
  rw [hkept.wordFull, hkept.fePort, if_neg]
  · rfl
  · rcases h with h | h <;> simp [h]

end

end

theorem exec_fill (s : State) (d a : Reg) (i : Imm 5) : exec (.fill d a i) s = .next (s.feWaitSlot 0 d a i) := rfl
theorem exec_take (s : State) (d a : Reg) (i : Imm 5) : exec (.take d a i) s = .next (s.feWaitSlot 1 d a i) := rfl
theorem exec_readf (s : State) (d a : Reg) (i : Imm 5) : exec (.readf d a i) s = .next (s.feWaitSlot 2 d a i) := rfl
theorem exec_writef (s : State) (d a : Reg) (i : Imm 5) : exec (.writef d a i) s = .next (s.feSet true d a i) := rfl
theorem exec_sete (s : State) (d a : Reg) (i : Imm 5) : exec (.sete d a i) s = .next (s.feSet false d a i) := rfl

/-- O41, at issue. -/
theorem fullEmptyResults : Claim.FullEmptyResults := by
  intro s c t d a i p core off hinv hcur hme hon hown _ hloc hnone hheld ea full stores reads ported keeps waits
  have hstores {ins : Instr} {u : State} {b : Bool} (hexec : exec ins s = .next u)
      (h : FeStored s u core off b (s.getG d)) : stores ins b :=
    ⟨u, hexec, h.cur, h.regs, h.bytes, h.others, h.bit⟩
  have hreads {ins : Instr} {u : State} {b : Bool} (hexec : exec ins s = .next u) (h : FeRead s u core off d b) :
      reads ins b :=
    ⟨u, hexec, h.regs, h.same, h.result, h.bit⟩
  have hkept (kind : Nat) := feKept_feBegun (core := c.core) (p := p) kind hown
  have hkeeps {ins : Instr} {kind : Nat} (hexec : exec ins s = .next (s.feWaitSlot kind d a i))
      (haddr : s.feAddr t c.core ea (if kind = 0 then .store else .load) = .ok p) : keeps ins := by
    intro hported
    obtain ⟨hw, hplace⟩ := fePlaced_ported (t := t) (kind := kind) (d := d) (off := off) (data := s.getG d)
      (hkept kind) hcur hported
    rw [← feWaitSlot_placed hcur hme hon hown hloc hheld haddr (.inr hported)] at hw hplace
    obtain ⟨x, hx, hwait⟩ := hw.cur
    exact ⟨_, x, _, hexec, hx, hwait, hw.tid, hw.word, hplace, hw.same, hw.regs, hw.bit⟩
  have hwaits {ins : Instr} {kind : Nat} (hexec : exec ins s = .next (s.feWaitSlot kind d a i))
      (haddr : s.feAddr t c.core ea (if kind = 0 then .store else .load) = .ok p) (hnot : feReady full kind = false) :
      waits ins := by
    intro hroom hempty
    obtain ⟨hw, hplace⟩ := fePlaced_waits (t := t) (kind := kind) (d := d) (off := off) (data := s.getG d)
      (src := c.core) (hkept kind) hcur hroom hempty
    rw [← feWaitSlot_placed hcur hme hon hown hloc hheld haddr (.inl hnot)] at hw hplace
    obtain ⟨x, hx, hwait⟩ := hw.cur
    exact ⟨_, x, _, hexec, hx, hwait, hw.tid, hw.word, hplace, hw.same, hw.regs, hw.bit⟩
  constructor
  · intro haddr
    refine ⟨fun hempty hport => ?_, fun hfull => ?_, hkeeps (exec_fill s d a i) haddr, ?_, ?_⟩
    · exact hstores (exec_fill s d a i)
        (feWaitSlot_stores hcur hme hon hown hloc hheld haddr hinv.1 hnone rfl hempty hport)
    · exact hwaits (exec_fill s d a i) haddr (by rw [hfull]; rfl)
    · exact hstores (exec_writef s d a i) (feSet_stores hcur hme hon hown hloc hheld hinv.1 hnone haddr)
    · exact hstores (exec_sete s d a i) (feSet_stores hcur hme hon hown hloc hheld hinv.1 hnone haddr)
  · intro haddr
    refine ⟨fun hfull hport => ⟨?_, ?_⟩, fun hempty => ⟨?_, ?_⟩, hkeeps (exec_take s d a i) haddr,
      hkeeps (exec_readf s d a i) haddr⟩
    · exact hreads (exec_take s d a i)
        (feWaitSlot_reads hcur hme hon hown hloc hheld (kind := 1) haddr hnone (by decide) hfull hport)
    · exact hreads (exec_readf s d a i)
        (feWaitSlot_reads hcur hme hon hown hloc hheld (kind := 2) haddr hnone (by decide) hfull hport)
    · exact hwaits (exec_take s d a i) haddr (by rw [hempty]; rfl)
    · exact hwaits (exec_readf s d a i) haddr (by rw [hempty]; rfl)

end Sys2Proof.Machine
end

section
/-! PROOF. O41: full/empty accesses that come again (14 R366; 01 R14, R15). -/

namespace Sys2Proof.Machine

open Sys2Proof

/-! ## Offers and releases leave the waiting lists -/

/-- Memory, the tasks and the waiting lists stand, and the same accesses have no place. -/
structure FeMoved (s u : State) : Prop where
  same : SameMemTasks s u
  waits c : (u.core c).feWaits = (s.core c).feWaits
  refused c : (u.core c).feRefused.map (·.1) = (s.core c).feRefused.map (·.1)

section
variable {s u v : State}

theorem FeMoved.refl (s : State) : FeMoved s s := ⟨⟨rfl, rfl⟩, fun _ => rfl, fun _ => rfl⟩

theorem FeMoved.trans (h : FeMoved s u) (k : FeMoved u v) : FeMoved s v :=
  ⟨h.same.trans k.same, fun c => (k.waits c).trans (h.waits c), fun c => (k.refused c).trans (h.refused c)⟩

theorem FeMoved.post (h : FeMoved s u) (n : Nat) (i : Instr) (a : EvArg) : FeMoved s (u.post n i a) :=
  ⟨h.same, h.waits, h.refused⟩

theorem feMoved_setFe (s : State) (core id : Nat) (p : FePhase) : FeMoved s (s.setFe core id p) := by
  have hmove (r : FeWait × Nat × FePhase) : (if r.1.id == id then (r.1, r.2.1, p) else r).1 = r.1 := by split <;> rfl
  have hcore (c : Nat) : ((s.setFe core id p).core c).feWaits = (s.core c).feWaits ∧
      ((s.setFe core id p).core c).feRefused.map (·.1) = (s.core c).feRefused.map (·.1) := by
    unfold State.setFe
    by_cases h : c = core
    · subst h
      rw [State.core_modCore_same]
      exact ⟨rfl, by rw [List.map_map]; exact List.map_congr_left fun r _ => hmove r⟩
    · rw [State.core_modCore_other s _ h]
      exact ⟨rfl, rfl⟩
  exact ⟨⟨rfl, rfl⟩, fun c => (hcore c).1, fun c => (hcore c).2⟩

theorem feMoved_feOffer (s : State) (core n : Nat) : FeMoved s (s.feOffer core n) := by
  induction n generalizing s with
  | zero => exact FeMoved.refl s
  | succ n ih =>
    unfold State.feOffer
    split
    · exact FeMoved.refl s
    · next r _ =>
      split
      · have hchoose : FeMoved s (s.choose 65).2 := ⟨⟨rfl, rfl⟩, fun _ => rfl, fun _ => rfl⟩
        exact ((hchoose.trans (feMoved_setFe _ core r.1.id .held)).post _ _ _).trans (ih _)
      · exact FeMoved.refl s

theorem feMoved_feRelease (s : State) (core : Nat) : FeMoved s (s.feRelease core) := by
  unfold State.feRelease
  refine List.foldlRecOn (motive := fun u => FeMoved s u) _ _ (FeMoved.refl s) fun u hu r _ => ?_
  split
  · split
    · exact hu
    · exact (hu.trans (feMoved_setFe u core r.1.id _)).post _ _ _
  · exact hu

theorem feMoved_feFreed (s : State) (core : Nat) : FeMoved s (s.feFreed core) := by
  unfold State.feFreed
  split
  · exact FeMoved.refl s
  · exact (feMoved_feOffer s core _).trans (feMoved_feRelease _ core)

/-- Accesses that are withdrawn leave the others waiting. -/
theorem feDrop_waits (s : State) (core c : Nat) (p : FeWait → Bool) :
    ∀ x ∈ ((s.feDrop core p).core c).feWaits, x ∈ (s.core c).feWaits := by
  intro x hx
  unfold State.feDrop at hx
  rw [(feMoved_feFreed _ core).waits c] at hx
  by_cases h : c = core
  · subst h
    rw [State.core_modCore_same] at hx
    exact (List.mem_filter.1 hx).1
  · rwa [State.core_modCore_other s _ h] at hx

end

/-! ## A waiting access that is performed -/

/-- What an access that is performed leaves of memory and of its task. -/
def FePerformed (s u : State) (core : Nat) (w : FeWait) (t : Task) : Prop :=
  ∃ y, u.task? w.tid = some y ∧ y.wait = none ∧
    (w.kind = 0 → u.bytesAt (.sram core (w.word * 8)) 8 = natLe 8 w.data.toNat ∧
      SameBytesBut [.sram core (w.word * 8)] 8 s u ∧ u.wordFull core (w.word * 8) = true ∧ y.r = t.r) ∧
    (w.kind ≠ 0 → SameBytes s u ∧ u.wordFull core (w.word * 8) = decide (w.kind ≠ 1) ∧
      ∀ e, (t.infl.find? fun x => x.id == w.inflId) = some e → e.toShadow = false →
        y.r = t.r.write e.reg e.mask
          (.word (BitVec.ofNat 64 (leNat (s.bytesAt (.sram core (w.word * 8)) 8)))))

section
variable {s u v : State} {core : Nat} {w : FeWait} {t : Task}

theorem FePerformed.same (h : FePerformed s u core w t) (k : SameMemTasks u v) : FePerformed s v core w t := by
  obtain ⟨hmem, htasks⟩ := k
  obtain ⟨y, hy, hwait, hfill, hread⟩ := h
  refine ⟨y, by rw [task?_of_tasks htasks, hy], hwait, fun hk => ?_, fun hk => ?_⟩
  · obtain ⟨hbytes, hothers, hbit, hr⟩ := hfill hk
    exact ⟨by simpa only [State.bytesAt, hmem] using hbytes, by simpa only [SameBytesBut, hmem] using hothers,
      by simpa only [State.wordFull, hmem] using hbit, hr⟩
  · obtain ⟨hbytes, hbit, hr⟩ := hread hk
    exact ⟨by simpa only [SameBytes, hmem] using hbytes, by simpa only [State.wordFull, hmem] using hbit, hr⟩

/-- A FILL that waited is performed. -/
theorem performFe_fill (hs : s.mem.wf = true) (ht : s.task? w.tid = some t) (hkind : w.kind = 0) :
    FePerformed s (s.performFe core w) core w t ∧
      ∀ x ∈ ((s.performFe core w).core core).feWaits, x ∈ (s.core core).feWaits := by
  unfold State.performFe
  dsimp only
  rw [if_pos hkind]
  have hdrop := feDrop_same s core (·.id == w.id)
  have hwaits := feDrop_waits s core core (·.id == w.id)
  generalize s.feDrop core (·.id == w.id) = s1 at hdrop hwaits ⊢
  obtain ⟨hmem, htasks⟩ := hdrop
  have hlen : (natLe 8 w.data.toNat).length = 8 := natLe_length _ _
  have hwrote := wrote_sramWrite (s := s1) (core := core) (off := w.word * 8) (bs := natLe 8 w.data.toNat) (by rw [hmem, hs])
  have hbytes := hwrote.bytes
  have hothers := hwrote.others
  rw [hlen] at hbytes hothers
  have hbit := wordFull_setFull (s1.sramWrite core (w.word * 8) (natLe 8 w.data.toNat)) core (w.word * 8) true
  have hfound : ((s1.sramWrite core (w.word * 8) (natLe 8 w.data.toNat)).setFull core (w.word * 8) true).task? w.tid = some t :=
    (task?_of_tasks htasks w.tid).trans ht
  have hwoken := woken_wake hfound
  obtain ⟨_, _, _, hy⟩ := hwoken.task t hfound
  refine ⟨⟨_, hy, rfl, fun _ => ⟨?_, ⟨fun a ha => ?_, fun a ha => ?_⟩, ?_, rfl⟩, fun hk => absurd hkind hk⟩, ?_⟩
  · rw [State.bytesAt, hwoken.mem]
    exact hbytes
  · rw [hwoken.mem]
    exact (hothers.1 a ha).trans (by rw [hmem])
  · rw [hwoken.mem]
    exact (hothers.2 a ha).trans (by rw [hmem])
  · rw [State.wordFull, hwoken.mem]
    exact hbit
  · rw [(hwoken.waits core).1]
    exact hwaits

/-- Data lands for a bound task: its task is found again, with the value where its register waits for it. -/
theorem landFor_task (n : Nat) (val : RegVal) (ht : s.task? w.tid = some t) (hp : t.phase = .bound) :
    (s.landFor w.tid n val).mem = s.mem ∧ (∀ c, (s.landFor w.tid n val).core c = s.core c) ∧
    ∃ y, (s.landFor w.tid n val).task? w.tid = some y ∧
      ∀ e, (t.infl.find? fun x => x.id == n) = some e → e.toShadow = false → y.r = t.r.write e.reg e.mask val := by
  cases he : t.infl.find? fun x => x.id == n with
  | none =>
    have heq : s.landFor w.tid n val = s := by simp only [State.landFor, ht, he]
    rw [heq]
    exact ⟨rfl, fun _ => rfl, t, ht, fun e h => nomatch h⟩
  | some e =>
    rw [landFor_bound val ht he hp]
    refine ⟨rfl, fun _ => rfl, t.land n val, task?_modTask_same ht fun x => Task.land_tid x n val, fun e' h hs => ?_⟩
    obtain rfl := Option.some.inj h
    exact (Task.land_fields val he hs).1

/-- A TAKE or READF that waited is performed. -/
theorem performFe_read (ht : s.task? w.tid = some t) (hp : t.phase = .bound) (hkind : w.kind ≠ 0)
    (hfull : s.wordFull core (w.word * 8) = true) :
    FePerformed s (s.performFe core w) core w t ∧
      ∀ x ∈ ((s.performFe core w).core core).feWaits, x ∈ (s.core core).feWaits := by
  unfold State.performFe
  dsimp only
  rw [if_neg hkind]
  have hdrop := feDrop_same s core (·.id == w.id)
  have hwaits := feDrop_waits s core core (·.id == w.id)
  obtain ⟨val, hval⟩ : ∃ v, RegVal.word (leWord (s.sramRead core (w.word * 8) 8)) = v := ⟨_, rfl⟩
  rw [hval]
  generalize s.feDrop core (·.id == w.id) = s1 at hdrop hwaits ⊢
  obtain ⟨hmem, htasks⟩ := hdrop
  have hbit : (if w.kind = 1 then s1.setFull core (w.word * 8) false else s1).wordFull core (w.word * 8) =
      decide (w.kind ≠ 1) := by
    by_cases hk : w.kind = 1
    · rw [if_pos hk, wordFull_setFull, hk]
      rfl
    · rw [if_neg hk, decide_eq_true hk, State.wordFull, hmem]
      exact hfull
  have hsame1 : SameBytes s s1 := ⟨fun a => by rw [hmem], fun a => by rw [hmem]⟩
  have hsame : SameBytes s (if w.kind = 1 then s1.setFull core (w.word * 8) false else s1) := by
    split <;> exact hsame1
  have hfound : (if w.kind = 1 then s1.setFull core (w.word * 8) false else s1).task? w.tid = some t := by
    split <;> exact (task?_of_tasks htasks w.tid).trans ht
  have hcore (c : Nat) : (if w.kind = 1 then s1.setFull core (w.word * 8) false else s1).core c = s1.core c := by
    split <;> rfl
  generalize (if w.kind = 1 then s1.setFull core (w.word * 8) false else s1) = s2 at hbit hsame hfound hcore ⊢
  rw [hfound]
  dsimp only
  have hacquired : (s2.acquireBy w.tid (Task.onCore t) .pkg).task? w.tid = some _ :=
    task?_modTask_same (s := s2.dropL1 (Task.onCore t)) hfound fun _ => rfl
  obtain ⟨hlandMem, hlandCore, y, hy, hr⟩ := landFor_task w.inflId val hacquired hp
  have hwoken := woken_wake hy
  obtain ⟨_, _, _, hz⟩ := hwoken.task y hy
  have hwmem := hwoken.mem.trans (hlandMem.trans (acquireBy_mem s2 w.tid (Task.onCore t)))
  refine ⟨⟨_, hz, rfl, fun hk => absurd hk hkind, fun _ => ⟨?_, ?_, fun e he hshadow => ?_⟩⟩, ?_⟩
  · exact ⟨fun a => by rw [hwmem]; exact hsame.1 a, fun a => by rw [hwmem]; exact hsame.2 a⟩
  · rw [State.wordFull, hwmem]
    exact hbit
  · exact (hr e he hshadow).trans (congrArg (t.r.write e.reg e.mask) hval.symm)
  · rw [(hwoken.waits core).1, hlandCore, (acquireBy_waits _ _ _ _).1, hcore]
    exact hwaits

end

end Sys2Proof.Machine
end

section
/-! PROOF. O41: where a full/empty access that comes again goes (14 R366; 01 R14, R15). -/

namespace Sys2Proof.Machine

open Sys2Proof

/-- The state in which an access that comes again is examined: it stands in no port any more. -/
def State.feTaken (s : State) (core : Nat) (w : FeWait) : State :=
  s.modCore core fun c => { c with feRefused := c.feRefused.filter (·.1.id != w.id) }

section
variable {s : State} {id core : Nat} {p : FePhase} {w : FeWait}

theorem exec_fullEmptyRetry (harg : s.arg = .num id)
    (hfind : (s.cores.cores.findSome? fun x => x.2.feRefused.find? fun y => y.1.id == id) = some (w, core, p)) :
    exec .fullEmptyRetry s = .next (s.feAgain core w p) := by
  change execFullEmptyRetry s = _
  simp only [execFullEmptyRetry, harg, hfind]

/-! ## What it finds -/

theorem feTaken_core (s : State) (core : Nat) (w : FeWait) : (s.feTaken core w).core core =
    { s.core core with feRefused := (s.core core).feRefused.filter (·.1.id != w.id) } := by
  rw [State.feTaken, State.core_modCore_same]

theorem feTaken_fePort : (s.feTaken core w).fePort core ((s.feTaken core w).feSource w) = true ↔
    ∃ x ∈ (s.core core).feRefused.filter fun x => x.1.id != w.id,
      (x.2.2 = .ticket ∨ x.2.2 = .held) ∧ s.feSource x.1 = s.feSource w := by
  have hsource (x : FeWait) : (s.feTaken core w).feSource x = s.feSource x := rfl
  simp only [State.fePort, feTaken_core, List.any_eq_true, Bool.and_eq_true, Bool.or_eq_true, beq_iff_eq, hsource]

theorem feTaken_fePlaces : (s.feTaken core w).fePlaces core = (s.core core).feWaits.length +
    (((s.core core).feRefused.filter fun x => x.1.id != w.id).filter fun x => x.2.2 == .held).length := by
  rw [State.fePlaces, feTaken_core, List.countP_eq_length_filter]

theorem feTaken_feTicketed : (s.feTaken core w).feTicketed core = true ↔
    ∃ x ∈ (s.core core).feRefused.filter fun x => x.1.id != w.id, x.2.2 = .ticket := by
  simp only [State.feTicketed, feTaken_core, List.any_eq_true, beq_iff_eq]

theorem feReady_iff (full : Bool) (kind : Nat) :
    feReady full kind = true ↔ if kind = 0 then full = false else full = true := by
  unfold feReady
  split <;> simp

/-! ## Where it goes -/

theorem setFe_mem (hmem : (w, core, p) ∈ (s.core core).feRefused) (q : FePhase) :
    (w, core, q) ∈ ((s.setFe core w.id q).core core).feRefused := by
  rw [State.setFe, State.core_modCore_same]
  exact List.mem_map.2 ⟨_, hmem, by simp⟩

/-- An access whose port has a ticketed one waits behind it. -/
theorem feAgain_ported {b : Bool} (h : (s.feTaken core w).fePort core ((s.feTaken core w).feSource w) = true) :
    s.feAgain core w (.coming b) = s.setFe core w.id (.behind b) :=
  if_pos h

/-- An access whose port has none arrives. -/
theorem feAgain_arrives {b : Bool} (h : ¬(s.feTaken core w).fePort core ((s.feTaken core w).feSource w) = true) :
    s.feAgain core w (.coming b) = (s.feTaken core w).feArrive core w b :=
  if_neg h

theorem feArrive_performed {b : Bool} (h : feReady (s.wordFull core (w.word * 8)) w.kind = true) :
    s.feArrive core w b = (s.performFe core w).feChanged core w.word :=
  if_pos h

theorem feArrive_queues {b : Bool} (h : ¬feReady (s.wordFull core (w.word * 8)) w.kind = true) :
    s.feArrive core w b = s.feQueue core w b :=
  if_neg h

theorem feAgain_claims (h : feReady (s.wordFull core (w.word * 8)) w.kind = true) :
    s.feAgain core w .held = (((s.feTaken core w).performFe core w).feChanged core w.word).feFreed core :=
  if_pos h

theorem feAgain_claims_place (h : ¬feReady (s.wordFull core (w.word * 8)) w.kind = true) :
    s.feAgain core w .held = ((s.feTaken core w).feList core w).feRelease core :=
  if_neg h

theorem feQueue_lists {b : Bool} (h : s.fePlaces core < 32 ∧ (b = true ∨ s.feTicketed core = false)) :
    s.feQueue core w b = s.feList core w :=
  if_pos h

theorem feQueue_refuses (h : ¬(s.fePlaces core < 32 ∧ s.feTicketed core = false)) :
    s.feQueue core w false = (s.feKeep core w (.coming true)).post 32 .fullEmptyRetry (.num w.id) := by
  unfold State.feQueue
  rw [if_neg (by simpa using h), if_neg Bool.false_ne_true]

theorem feQueue_tickets (h : ¬s.fePlaces core < 32) : s.feQueue core w true = s.feKeep core w .ticket := by
  unfold State.feQueue
  rw [if_neg fun k => h k.1, if_pos rfl]

/-! ## What that leaves -/

/-- What `lists` of the statement asks. -/
structure FeListed (s u : State) (core : Nat) (w : FeWait) : Prop where
  same : SameMemTasks s u
  waits : (u.core core).feWaits = (s.core core).feWaits ++ [w]
  gone : ∀ x ∈ (u.core core).feRefused, x.1.id ≠ w.id

theorem feListed_feList (s : State) (core : Nat) (w : FeWait) : FeListed s ((s.feTaken core w).feList core w) core w := by
  refine ⟨⟨rfl, rfl⟩, ?_, fun x hx => ?_⟩
  · rw [State.feList, State.core_modCore_same, feTaken_core]
  · rw [State.feList, State.core_modCore_same, feTaken_core] at hx
    simpa using (List.mem_filter.1 hx).2

theorem FeListed.moved {u v : State} (h : FeListed s u core w) (k : FeMoved u v) : FeListed s v core w := by
  refine ⟨h.same.trans k.same, (k.waits core).trans h.waits, fun x hx => ?_⟩
  have hx' : x.1 ∈ (u.core core).feRefused.map (·.1) := by
    rw [← k.refused core]
    exact List.mem_map_of_mem hx
  obtain ⟨y, hy, hxy⟩ := List.mem_map.1 hx'
  rw [← hxy]
  exact h.gone y hy

/-- What an access that is kept leaves. -/
theorem feKeep_taken (s : State) (core : Nat) (w : FeWait) (q : FePhase) :
    (((s.feTaken core w).feKeep core w q).core core).feWaits = (s.core core).feWaits ∧
      (w, core, q) ∈ (((s.feTaken core w).feKeep core w q).core core).feRefused := by
  rw [State.feKeep, State.core_modCore_same, feTaken_core]
  exact ⟨rfl, by simp⟩

/-- The access is performed, in a state of the same memory and tasks, where no other waits for its word. -/
theorem feTaken_performed {t : Task} (hs : s.mem.wf = true) (ht : s.task? w.tid = some t) (hp : t.phase = .bound)
    (hready : feReady (s.wordFull core (w.word * 8)) w.kind = true)
    (hnone : ∀ x ∈ (s.core core).feWaits, x.word ≠ w.word) :
    FePerformed s (((s.feTaken core w).performFe core w).feChanged core w.word) core w t := by
  have hperformed : FePerformed s ((s.feTaken core w).performFe core w) core w t ∧
      ∀ x ∈ (((s.feTaken core w).performFe core w).core core).feWaits, x ∈ ((s.feTaken core w).core core).feWaits := by
    by_cases hkind : w.kind = 0
    · exact performFe_fill (s := s.feTaken core w) hs ht hkind
    · have hfull : s.wordFull core (w.word * 8) = true := by
        have := (feReady_iff _ _).1 hready
        rwa [if_neg hkind] at this
      exact performFe_read (s := s.feTaken core w) ht hp hkind hfull
  obtain ⟨hperformed, hwaits⟩ := hperformed
  rw [feChanged_none]
  · exact hperformed
  · intro x hx
    refine hnone x ?_
    have := hwaits x hx
    rwa [feTaken_core] at this

end

/-- O41, where an access comes again. -/
theorem fullEmptyRetryRules : Claim.FullEmptyRetryRules := by
  intro s id core p w hinv harg hfind hmem off rest places ticketed ported full holds stays lists
  have hexec := exec_fullEmptyRetry harg hfind
  have hport : (s.feTaken core w).fePort core ((s.feTaken core w).feSource w) = true ↔ ported := feTaken_fePort
  have hready : feReady (s.wordFull core off) w.kind = true ↔ holds := feReady_iff _ _
  have hplaces : (s.feTaken core w).fePlaces core = places := feTaken_fePlaces
  have hticketed : (s.feTaken core w).feTicketed core = true ↔ ticketed := feTaken_feTicketed
  have hlists {u : State} (he : s.feAgain core w p = u) (h : FeListed s u core w) : lists :=
    ⟨u, hexec.trans (congrArg _ he), h.same.1, h.same.2, h.waits, h.gone⟩
  have hqueues {b : Bool} (hp : p = .coming b) (hnport : ¬ported) (hnot : ¬holds) :
      s.feAgain core w p = (s.feTaken core w).feQueue core w b := by
    rw [hp, feAgain_arrives (hport.not.2 hnport)]
    exact feArrive_queues (hready.not.2 hnot)
  refine ⟨fun b hp => ⟨fun hported => ?_, fun hnport hnot hroom hturn => ?_, fun hnport hnot hb hfullList => ?_,
    fun hnport hnot hb hfullList => ?_⟩, fun hp hnot => ?_, fun hholds hway hnone t ht hbound => ?_⟩
  · have he : s.feAgain core w p = s.setFe core w.id (.behind b) := by rw [hp, feAgain_ported (hport.2 hported)]
    have hmoved := feMoved_setFe s core w.id (.behind b)
    exact ⟨_, hexec.trans (congrArg _ he), hmoved.same.1, hmoved.same.2, hmoved.waits core, setFe_mem hmem _, rfl⟩
  · refine hlists ((hqueues hp hnport hnot).trans (feQueue_lists ⟨hplaces ▸ hroom, ?_⟩)) (feListed_feList s core w)
    exact hturn.imp_right fun h => Bool.eq_false_iff.2 (hticketed.not.2 h)
  · have hno : ¬((s.feTaken core w).fePlaces core < 32 ∧ (s.feTaken core w).feTicketed core = false) := by
      rw [hplaces]
      rintro ⟨hlt, hticket⟩
      rcases hfullList with h | h
      · omega
      · exact absurd (hticketed.2 h) (Bool.eq_false_iff.1 hticket)
    obtain ⟨hwaits, hkept⟩ := feKeep_taken s core w (.coming true)
    have he := hqueues hp hnport hnot
    rw [hb, feQueue_refuses hno] at he
    exact ⟨_, hexec.trans (congrArg _ he), rfl, rfl, hwaits, hkept, mem_insertDue.2 (.inl rfl)⟩
  · obtain ⟨hwaits, hkept⟩ := feKeep_taken s core w .ticket
    have he := hqueues hp hnport hnot
    rw [hb, feQueue_tickets (by rw [hplaces]; omega)] at he
    exact ⟨_, hexec.trans (congrArg _ he), rfl, rfl, hwaits, hkept, rfl⟩
  · refine hlists (u := ((s.feTaken core w).feList core w).feRelease core) ?_
      ((feListed_feList s core w).moved (feMoved_feRelease _ core))
    rw [hp, feAgain_claims_place (hready.not.2 hnot)]
  · have hperformed := feTaken_performed hinv.1 ht hbound (hready.2 hholds) hnone
    rcases hway with hp | ⟨hnport, b, hp⟩
    · have he := feAgain_claims (hready.2 hholds)
      rw [← hp] at he
      exact ⟨_, (hperformed.same (feFreed_same _ core)).imp fun y hy => ⟨hexec.trans (congrArg _ he), hy⟩⟩
    · have he : s.feAgain core w p = ((s.feTaken core w).performFe core w).feChanged core w.word := by
        rw [hp, feAgain_arrives (hport.not.2 hnport)]
        exact feArrive_performed (hready.2 hholds)
      exact ⟨_, hperformed.imp fun y hy => ⟨hexec.trans (congrArg _ he), hy⟩⟩

/-- Settles O41, by what a full/empty access does at its word, and by where one that comes again goes. -/
theorem fullEmptyRules : Obligations.FullEmptyRules := ⟨fullEmptyResults, fullEmptyRetryRules⟩

end Sys2Proof.Machine
end

section
/-! PROOF. Lock objects (09 R229 to R240): what is read after one is stored or its holders are marked, where a request stands
in a queue, what a new holder leaves, and what the grant step grants. -/

namespace Sys2Proof.Machine

open Sys2Proof

/-! ## Objects that are stored and read -/

section
variable {s u : State}

theorem lockObj_key (s : State) (asid : BitVec 16) (lw : Word) :
    (s.lockObj asid lw).asid = asid ∧ (s.lockObj asid lw).lw = lw := by
  unfold State.lockObj
  cases h : s.prefects.objs.find? fun o => o.asid == asid && o.lw == lw with
  | none => exact ⟨rfl, rfl⟩
  | some o => simpa using List.find?_some h

theorem lockObj_of_objs (h : u.prefects.objs = s.prefects.objs) (asid : BitVec 16) (lw : Word) :
    u.lockObj asid lw = s.lockObj asid lw := by
  rw [State.lockObj, State.lockObj, h]

/-- A holder or waiter that is read stands in an object. -/
theorem lockObj_mem {asid : BitVec 16} {lw : Word} {h : Word × LockMode × Bool} (hh : h ∈ (s.lockObj asid lw).holders) :
    s.lockObj asid lw ∈ s.prefects.objs := by
  unfold State.lockObj at hh ⊢
  cases hf : s.prefects.objs.find? fun o => o.asid == asid && o.lw == lw with
  | none => rw [hf] at hh; exact absurd hh List.not_mem_nil
  | some o => exact List.mem_of_find?_eq_some hf

/-- An object that is stored is read back; a freed one reads empty. -/
theorem lockObj_setLockObj (s : State) (o : LockObj) : (s.setLockObj o).lockObj o.asid o.lw = o := by
  have hrest : (s.prefects.objs.filter fun q => !(q.asid == o.asid && q.lw == o.lw)).find?
      (fun q => q.asid == o.asid && q.lw == o.lw) = none := by
    rw [List.find?_eq_none]
    intro q hq
    simpa only [Bool.not_eq_true', Bool.not_eq_true] using (List.mem_filter.1 hq).2
  unfold State.lockObj State.setLockObj
  rw [State.onPrefects_prefects]
  dsimp only
  split
  · next hempty =>
    rw [hrest, Option.getD_none]
    obtain ⟨asid, lw, holders, queue⟩ := o
    simp only [Bool.and_eq_true, List.isEmpty_iff] at hempty
    rw [hempty.1, hempty.2]
  · rw [List.find?_append, hrest, Option.none_or, List.find?_singleton]
    simp

/-- The same where the object's key is known. -/
theorem lockObj_setLockObj_at {o : LockObj} {asid : BitVec 16} {lw : Word} (hasid : o.asid = asid) (hlw : o.lw = lw) :
    (s.setLockObj o).lockObj asid lw = o := by
  rw [← hasid, ← hlw, lockObj_setLockObj]

/-- An object whose holders that a wound is sent to are marked. -/
def LockObj.marked (o : LockObj) (hit : List Word) : LockObj :=
  { o with holders := o.holders.map fun h => if hit.contains h.1 then (h.1, h.2.1, true) else h }

theorem lockObj_markWounds (s : State) (hit : List Word) (asid : BitVec 16) (lw : Word) :
    (s.markWounds hit).lockObj asid lw = (s.lockObj asid lw).marked hit := by
  have hpred : ((fun o : LockObj => o.asid == asid && o.lw == lw) ∘ fun o : LockObj => o.marked hit) =
      fun o : LockObj => o.asid == asid && o.lw == lw := rfl
  change ((s.prefects.objs.map fun o => o.marked hit).find? fun o => o.asid == asid && o.lw == lw).getD
    ⟨asid, lw, [], []⟩ = _
  rw [List.find?_map, hpred, State.lockObj]
  cases s.prefects.objs.find? fun o => o.asid == asid && o.lw == lw <;> rfl

theorem marked_mem {o : LockObj} {hit : List Word} {h : Word × LockMode × Bool} (hh : h ∈ o.holders) (hhit : h.1 ∈ hit) :
    (h.1, h.2.1, true) ∈ (o.marked hit).holders :=
  List.mem_map.2 ⟨h, hh, by simp [hhit]⟩

end

/-! ## Queues and holders -/

section
variable {mx : BitVec 25} {o : LockObj} {tid : Word} {m : LockMode}

/-- A request stands behind the older ones and before the younger (09 R229). -/
theorem queueByAge_split (tid : Word) (m : LockMode) (l : List (Word × LockMode)) :
    ∃ before after, l = before ++ after ∧ queueByAge tid m l = before ++ (tid, m) :: after ∧
      (∀ q ∈ before, tidOlder tid q.1 = false) ∧ ∀ q, after.head? = some q → tidOlder tid q.1 = true := by
  induction l with
  | nil => exact ⟨[], [], rfl, rfl, fun q hq => absurd hq List.not_mem_nil, fun q hq => nomatch hq⟩
  | cons x l ih =>
    by_cases h : tidOlder tid x.1 = true
    · refine ⟨[], x :: l, rfl, by rw [queueByAge, if_pos h]; rfl, fun q hq => absurd hq List.not_mem_nil, fun q hq => ?_⟩
      obtain rfl : x = q := Option.some.inj hq
      exact h
    · obtain ⟨before, after, hl, hqueue, hbefore, hafter⟩ := ih
      refine ⟨x :: before, after, by rw [hl]; rfl, by rw [queueByAge, if_neg h, hqueue]; rfl, fun q hq => ?_, hafter⟩
      rcases List.mem_cons.1 hq with rfl | hq
      · exact Bool.eq_false_iff.2 h
      · exact hbefore q hq

theorem grantAtOnce_iff : grantAtOnce mx o tid m = true ↔
    (∀ h ∈ o.holders, h.1 = tid ∨ modesCompat mx h.2.1 m = true) ∧ ∀ q ∈ o.queue, tidOlder tid q.1 = true := by
  simp only [grantAtOnce, compatHolders, Bool.and_eq_true, List.all_eq_true, Bool.or_eq_true, beq_iff_eq]

theorem compatHolders_iff : compatHolders mx o tid m = true ↔
    ∀ h ∈ o.holders, h.1 = tid ∨ modesCompat mx h.2.1 m = true := by
  simp only [compatHolders, List.all_eq_true, Bool.or_eq_true, beq_iff_eq]

theorem addHolder_key (o : LockObj) (tid : Word) (m : LockMode) : (addHolder o tid m).asid = o.asid ∧
    (addHolder o tid m).lw = o.lw ∧ (addHolder o tid m).queue = o.queue := by
  unfold addHolder
  split <;> exact ⟨rfl, rfl, rfl⟩

theorem addHolder_mem (o : LockObj) (tid : Word) (m : LockMode) : ∃ b, (tid, m, b) ∈ (addHolder o tid m).holders := by
  unfold addHolder
  split
  · next h =>
    obtain ⟨x, hx, htid⟩ := List.any_eq_true.1 h
    exact ⟨x.2.2, List.mem_map.2 ⟨x, hx, if_pos htid⟩⟩
  · exact ⟨false, by simp⟩

theorem addHolder_keeps {h : Word × LockMode × Bool} (hh : h ∈ o.holders) (hne : h.1 ≠ tid) :
    h ∈ (addHolder o tid m).holders := by
  unfold addHolder
  split
  · exact List.mem_map.2 ⟨h, hh, if_neg (by simpa using hne)⟩
  · exact List.mem_append_left _ hh

/-- Holders a request wounds: the younger ones that it is not compatible with and that have no wound (09 R234). -/
theorem mem_woundsOf {h : Word × LockMode × Bool} (hh : h ∈ o.holders) (hne : h.1 ≠ tid) (hunmarked : h.2.2 = false)
    (hclash : modesCompat mx h.2.1 m = false) (hyoung : tidOlder tid h.1 = true) : h.1 ∈ woundsOf mx o tid m :=
  List.mem_map.2 ⟨h, List.mem_filter.2 ⟨hh, by simp [hne, hunmarked, hclash, hyoung]⟩, rfl⟩

/-! ## The grant step (09 R230) -/

theorem grantStep_key (mx : BitVec 25) (n : Nat) (o : LockObj) :
    (grantStep mx n o).1.asid = o.asid ∧ (grantStep mx n o).1.lw = o.lw := by
  induction n generalizing o with
  | zero => exact ⟨rfl, rfl⟩
  | succ n ih =>
    unfold grantStep
    split
    · exact ⟨rfl, rfl⟩
    · next t m qs _ =>
      split
      · obtain ⟨hasid, hlw⟩ := ih { addHolder o t m with queue := qs }
        obtain ⟨kasid, klw, _⟩ := addHolder_key o t m
        exact ⟨hasid.trans kasid, hlw.trans klw⟩
      · exact ⟨rfl, rfl⟩

/-- A holder stays while no request of its own is granted. -/
theorem grantStep_keeps (mx : BitVec 25) (n : Nat) {o : LockObj} {h : Word × LockMode × Bool} (hh : h ∈ o.holders)
    (hnot : ∀ q ∈ o.queue, q.1 ≠ h.1) : h ∈ (grantStep mx n o).1.holders := by
  induction n generalizing o with
  | zero => exact hh
  | succ n ih =>
    unfold grantStep
    split
    · exact hh
    · next t m qs hq =>
      rw [hq] at hnot
      split
      · exact ih (o := { addHolder o t m with queue := qs })
          (addHolder_keeps hh (hnot (t, m) List.mem_cons_self).symm) fun q hq => hnot q (List.mem_cons_of_mem _ hq)
      · exact hh

theorem grantStep_empty (mx : BitVec 25) (n : Nat) (h : o.queue = []) : grantStep mx n o = (o, []) := by
  cases n with
  | zero => rfl
  | succ n => rw [grantStep, h]

theorem grantStep_blocked {q : Word} {more : List (Word × LockMode)} (n : Nat) (hq : o.queue = (q, m) :: more)
    (h : ¬compatHolders mx o q m = true) : grantStep mx n o = (o, []) := by
  cases n with
  | zero => rfl
  | succ n => simp only [grantStep, hq, if_neg h]

/-- The head of the queue that is compatible is granted first. -/
theorem grantStep_grants {q : Word} {more : List (Word × LockMode)} (n : Nat) (hq : o.queue = (q, m) :: more)
    (h : compatHolders mx o q m = true) :
    (q, m) ∈ (grantStep mx (n + 1) o).2 ∧
      ((∃ b, (q, m, b) ∈ (grantStep mx (n + 1) o).1.holders) ∨ ∃ x ∈ more, x.1 = q) := by
  simp only [grantStep, hq, if_pos h]
  refine ⟨List.mem_cons_self, ?_⟩
  by_cases hmore : ∃ x ∈ more, x.1 = q
  · exact .inr hmore
  · obtain ⟨b, hb⟩ := addHolder_mem o q m
    exact .inl ⟨b, grantStep_keeps mx n (o := { addHolder o q m with queue := more }) hb
      fun x hx hxq => hmore ⟨x, hx, hxq⟩⟩

end

/-! ## Room for a request (09 R237) -/

section
variable {s : State} {o : LockObj} {tid : Word} {grant : Bool}

theorem lacksRoom_of_free (h : s.pfEntries (lwHome o.lw) < 65536) (k : s.pfRecords (lwHome o.lw) < 262144) :
    s.lacksRoom o tid grant = false := by
  simp only [State.lacksRoom, decide_eq_false (Nat.not_le.2 h), decide_eq_false (Nat.not_le.2 k), Bool.and_false,
    Bool.or_false]

theorem lacksRoom_of_crowded (h : ∀ x ∈ o.holders, x.1 ≠ tid) (k : 262144 ≤ s.pfRecords (lwHome o.lw)) :
    s.lacksRoom o tid grant = true := by
  have hany : (o.holders.any fun x => x.1 == tid) = false := by
    rw [List.any_eq_false]
    exact fun x hx => by simpa using h x hx
  simp only [State.lacksRoom, hany, decide_eq_true k, Bool.and_false, Bool.not_false, Bool.and_true, Bool.or_true]

theorem ticketed_false {home : Nat} (h : ∀ k ∈ s.prefects.tickets, k.1 ≠ home) : s.ticketed home = false := by
  rw [State.ticketed, List.any_eq_false]
  exact fun k hk => by simpa using h k hk

end

end Sys2Proof.Machine
end

section
/-! PROOF. What a Prefect's answer does to its task: a grant that reaches it (09 R232, R233), and a request that is not
decided, or queued, for which it parks (04 R107, R108). -/

namespace Sys2Proof.Machine

open Sys2Proof

section
variable {s u : State} {tid lw : Word} {m : LockMode} {t : Task}

/-! ## A grant -/

theorem addLock_mem (t : Task) (lw : Word) (m : LockMode) : (lw, m) ∈ (Task.addLock t lw m).locks := by
  unfold Task.addLock
  split
  · next h =>
    rw [Task.holds, Option.isSome_map, List.find?_isSome] at h
    obtain ⟨l, hl, hlw⟩ := h
    exact List.mem_map.2 ⟨l, hl, if_pos hlw⟩
  · simp

theorem addLock_keeps {l : Word × LockMode} (hl : l ∈ t.locks) (hne : l.1 ≠ lw) : l ∈ (Task.addLock t lw m).locks := by
  unfold Task.addLock
  split
  · exact List.mem_map.2 ⟨l, hl, if_neg (by simpa using hne)⟩
  · exact List.mem_append_left _ hl

theorem addLock_fields (t : Task) (lw : Word) (m : LockMode) : (Task.addLock t lw m).tid = t.tid ∧
    (Task.addLock t lw m).r = t.r ∧ (Task.addLock t lw m).phase = t.phase ∧ (Task.addLock t lw m).infl = t.infl ∧
    (Task.addLock t lw m).wait = t.wait := by
  unfold Task.addLock
  split <;> exact ⟨rfl, rfl, rfl, rfl, rfl⟩

theorem toRedo_fields (t : Task) : t.toRedo.tid = t.tid ∧ t.toRedo.locks = t.locks := by
  unfold Task.toRedo
  split <;> exact ⟨rfl, rfl⟩

/-- The task holds the lock beside its others. -/
def HasLock (t y : Task) (lw : Word) (m : LockMode) : Prop := (lw, m) ∈ y.locks ∧ ∀ l ∈ t.locks, l.1 ≠ lw → l ∈ y.locks

theorem hasLock_addLock (t : Task) (lw : Word) (m : LockMode) : HasLock t (Task.addLock t lw m) lw m :=
  ⟨addLock_mem t lw m, fun _ hl hne => addLock_keeps hl hne⟩

/-- A grant has reached its task: memory and the Prefects stand, the task holds the lock and waits no more. -/
structure GrantReached (s u : State) (t : Task) (lw : Word) (m : LockMode) : Prop where
  mem : u.mem = s.mem
  prefects : u.prefects = s.prefects
  task : ∃ y, u.task? t.tid = some y ∧ HasLock t y lw m ∧ y.wait = none ∧ (t.phase = .bound → y.r = t.r)

theorem acquireBy_task? (h : s.task? tid = some t) (core : Nat) : (s.acquireBy tid core .pkg).task? tid =
    some { t with clock := joinClock t.clock (s.clocks.heardClock (coreDie core)) } :=
  task?_modTask_same (s := s.dropL1 core) h fun _ => rfl

/-- The task of a grant is woken. -/
theorem grantReached_wake {y : Task} (hmem : u.mem = s.mem) (hprefects : u.prefects = s.prefects)
    (hy : u.task? t.tid = some y) (hlocks : HasLock t y lw m) (hr : t.phase = .bound → y.r = t.r) :
    GrantReached s (u.wake t.tid) t lw m := by
  have hwoken := woken_wake hy
  obtain ⟨_, _, _, hz⟩ := hwoken.task y hy
  exact ⟨hwoken.mem.trans hmem, hwoken.prefects.trans hprefects, _, hz, hlocks, rfl, hr⟩

theorem lockGranted_reached (ht : s.task? tid = some t) (lw : Word) (m : LockMode) :
    GrantReached s (s.lockGranted tid lw m) t lw m := by
  obtain rfl : t.tid = tid := task?_tid ht
  have hlocked : (s.modTask t.tid fun t => Task.addLock t lw m).task? t.tid = some (Task.addLock t lw m) :=
    task?_modTask_same ht fun x => (addLock_fields x lw m).1
  obtain ⟨_, hr, hphase, _, _⟩ := addLock_fields t lw m
  unfold State.lockGranted
  simp only [hlocked]
  have hacquired := acquireBy_task? hlocked (Task.onCore (Task.addLock t lw m))
  split
  · next hfault =>
    have hredo := task?_modTask_same hacquired fun x => (toRedo_fields x).1
    refine grantReached_wake rfl rfl hredo ?_ fun hbound => ?_
    · unfold HasLock
      rw [(toRedo_fields _).2]
      exact hasLock_addLock t lw m
    · rw [hphase, hbound] at hfault
      simp at hfault
  · exact grantReached_wake rfl rfl hacquired (hasLock_addLock t lw m) fun _ => hr

/-! ## Parking -/

/-- A task has parked: memory, the Prefects, the contexts and every task's registers stand, its own wait is set and it is
bound no more. -/
structure ParkedFor (s u : State) (t : Task) (w : Wait) : Prop where
  mem : u.mem = s.mem
  prefects : u.prefects = s.prefects
  host : u.host = s.host
  cycle : u.cycle = s.cycle
  due : ∀ x ∈ s.due, x ∈ u.due
  regs : SameRegs s u
  task : ∃ y, u.task? t.tid = some y ∧ y.locks = t.locks ∧ y.wait = some w ∧
    (t.core ≠ none → t.sq ≠ none → y.phase ≠ .bound)

theorem SameRegs.trans {v : State} (h : SameRegs s u) (k : SameRegs u v) : SameRegs s v := Eq.trans k h

theorem mem_due_post (s : State) (n : Nat) (i : Instr) (a : EvArg) : ∀ x ∈ s.due, x ∈ (s.post n i a).due :=
  fun _ hx => mem_insertDue.2 (.inr hx)

/-- A task whose wait is set goes to its frame. -/
theorem frameOut_parked {w : Wait} {y : Task} {reason : Nat} (ht : u.task? t.tid = some y) (hlocks : y.locks = t.locks)
    (hwait : y.wait = some w) (hmem : u.mem = s.mem) (hprefects : u.prefects = s.prefects) (hhost : u.host = s.host)
    (hcycle : u.cycle = s.cycle) (hdue : u.due = s.due) (hregs : SameRegs s u) :
    ParkedFor s (u.frameOut t.tid reason) t w := by
  have hframed : (u.modTask t.tid fun t => { t with phase := .framed, saving := some reason, readyToBind := false }).task?
      t.tid = some { y with phase := .framed, saving := some reason, readyToBind := false } :=
    task?_modTask_same ht fun _ => rfl
  have hregs' : SameRegs s
      (u.modTask t.tid fun t => { t with phase := .framed, saving := some reason, readyToBind := false }) :=
    hregs.trans (modTask_sameRegs fun _ => ⟨rfl, rfl, rfl⟩)
  have hgrows : ∀ x ∈ s.due, x ∈ u.due := fun x hx => by rw [hdue]; exact hx
  unfold State.frameOut
  simp only [ht]
  split
  all_goals exact ⟨hmem, hprefects, hhost, hcycle, fun x hx => mem_insertDue.2 (.inr (hgrows x hx)), hregs', _, hframed,
    hlocks, hwait, fun _ _ => nofun⟩

theorem parkStall_parked {w : Wait} (ht : s.task? t.tid = some t) : ParkedFor s (s.parkStall t.tid w) t w := by
  have hwaiting : (s.modTask t.tid fun t => { t with wait := some w }).task? t.tid = some { t with wait := some w } :=
    task?_modTask_same ht fun _ => rfl
  have hregs : SameRegs s (s.modTask t.tid fun t => { t with wait := some w }) := modTask_sameRegs fun _ => ⟨rfl, rfl, rfl⟩
  unfold State.parkStall
  simp only [ht]
  split
  · next c q _ _ =>
    split
    · have hstalled : (((s.modTask t.tid fun t => { t with wait := some w }).modCore c fun x =>
          { x with stalls := x.stalls ++ [t.tid] }).modTask t.tid fun t =>
            { t with phase := .stalled, stalling := true, readyToBind := false }).task? t.tid = some _ :=
        task?_modTask_same (s := (s.modTask t.tid fun t => { t with wait := some w }).modCore c fun x =>
          { x with stalls := x.stalls ++ [t.tid] }) hwaiting fun _ => rfl
      refine ⟨rfl, rfl, rfl, rfl, fun x hx => mem_insertDue.2 (.inr hx), ?_, _, hstalled, rfl, rfl, fun _ _ => nofun⟩
      exact hregs.trans (modTask_sameRegs (s := (s.modTask t.tid fun t => { t with wait := some w }).modCore c fun x =>
          { x with stalls := x.stalls ++ [t.tid] }) fun _ => ⟨rfl, rfl, rfl⟩)
    · exact frameOut_parked hwaiting rfl rfl rfl rfl rfl rfl rfl hregs
  · next h =>
    refine ⟨rfl, rfl, rfl, rfl, fun _ hx => hx, hregs, _, hwaiting, rfl, rfl, fun hcore hsq => ?_⟩
    obtain ⟨c, hc⟩ := Option.ne_none_iff_exists'.1 hcore
    obtain ⟨q, hq⟩ := Option.ne_none_iff_exists'.1 hsq
    exact absurd hq (h c q hc)

/-- A task that waits already parks where it is bound, and stands where it is not. -/
theorem parkedFor_of_waiting {w : Wait} (ht : s.task? t.tid = some t) (hwait : t.wait = some w) :
    ParkedFor s (if t.phase = .bound then s.parkStall t.tid w else s) t w := by
  split
  · exact parkStall_parked ht
  · next hbound =>
    exact ⟨rfl, rfl, rfl, rfl, fun _ hx => hx, rfl, t, ht, rfl, hwait, fun _ _ => hbound⟩

end

end Sys2Proof.Machine
end

section
/-! PROOF. What the decision of a Prefect leaves (09 R229, R234): a request that is granted at once, and one that is queued
and wounds; a refusal that is dropped, and an entry and a record that are offered (01 R14, R15; 09 R237). -/

namespace Sys2Proof.Machine

open Sys2Proof

/-- A request has been granted: `granted` of the statement. -/
structure GrantOutcome (s u : State) (t : Task) (asid : BitVec 16) (lw : Word) (m : LockMode) : Prop where
  same : SameBytes s u
  holder : ∃ b, (t.tid, m, b) ∈ (u.lockObj asid lw).holders
  others : ∀ h ∈ (s.lockObj asid lw).holders, h.1 ≠ t.tid → h ∈ (u.lockObj asid lw).holders
  task : ∃ y, u.task? t.tid = some y ∧ HasLock t y lw m ∧ y.wait = none ∧ (t.phase = .bound → y.r = t.r)

/-- A request has been queued: `queued` of the statement. -/
structure QueueOutcome (s u : State) (t : Task) (asid : BitVec 16) (mx : BitVec 25) (lw : Word) (m : LockMode) : Prop where
  same : SameBytes s u
  regs : SameRegs s u
  task : ∃ y, u.task? t.tid = some y ∧ y.locks = t.locks ∧ y.wait = some (.lock lw m) ∧
    (t.core ≠ none → t.sq ≠ none → y.phase ≠ .bound)
  queue : ∃ before after, (s.lockObj asid lw).queue = before ++ after ∧
    (u.lockObj asid lw).queue = before ++ (t.tid, m) :: after ∧
    (∀ q ∈ before, tidOlder t.tid q.1 = false) ∧ ∀ q, after.head? = some q → tidOlder t.tid q.1 = true
  wounds : ∀ h ∈ (s.lockObj asid lw).holders, ¬(h.1 = t.tid ∨ modesCompat mx h.2.1 m = true) → s.woundSent h.1 = false →
    tidOlder t.tid h.1 = true →
    (s.cycle, .wound, .task h.1) ∈ u.due ∧ (h.1, h.2.1, true) ∈ (u.lockObj asid lw).holders

/-- The Prefects stand but for their lock objects. -/
def OnlyObjs (s u : State) : Prop := ∃ objs, u.prefects = { s.prefects with objs := objs }

section
variable {s u v : State} {t : Task} {lw : Word} {m : LockMode}

theorem sameBytes_of_mem (h : u.mem = s.mem) : SameBytes s u := ⟨fun _ => by rw [h], fun _ => by rw [h]⟩

/-! ## A request that is granted at once -/

/-- A grant reaches the task of a request for which the object has a holder. -/
theorem GrantReached.outcome {asid : BitVec 16} (h : GrantReached u v t lw m) (hmem : u.mem = s.mem)
    (hholder : ∃ b, (t.tid, m, b) ∈ (u.lockObj asid lw).holders)
    (hothers : ∀ x ∈ (s.lockObj asid lw).holders, x.1 ≠ t.tid → x ∈ (u.lockObj asid lw).holders) :
    GrantOutcome s v t asid lw m := by
  have hobj : v.lockObj asid lw = u.lockObj asid lw := lockObj_of_objs (by rw [h.prefects]) asid lw
  exact ⟨sameBytes_of_mem (h.mem.trans hmem), by rwa [hobj], by rwa [hobj], h.task⟩

/-- The object with its new holder, stored. -/
theorem lockObj_added (s : State) (asid : BitVec 16) (lw tid : Word) (m : LockMode) :
    (s.setLockObj (addHolder (s.lockObj asid lw) tid m)).lockObj asid lw = addHolder (s.lockObj asid lw) tid m := by
  obtain ⟨hasid, hlw⟩ := lockObj_key s asid lw
  obtain ⟨kasid, klw, _⟩ := addHolder_key (s.lockObj asid lw) tid m
  exact lockObj_setLockObj_at (kasid.trans hasid) (klw.trans hlw)

theorem decideLock_grants (ht : s.task? t.tid = some t)
    (hnow : grantAtOnce (s.ctx t.ctx).lkcompat (s.lockObj (s.ctx t.ctx).asid lw) t.tid m = true) :
    GrantOutcome s (s.decideLock t lw m) t (s.ctx t.ctx).asid lw m ∧ OnlyObjs s (s.decideLock t lw m) := by
  have hdecide : s.decideLock t lw m =
      (s.setLockObj (addHolder (s.lockObj (s.ctx t.ctx).asid lw) t.tid m)).lockGranted t.tid lw m := if_pos hnow
  have hreached := lockGranted_reached
    (s := s.setLockObj (addHolder (s.lockObj (s.ctx t.ctx).asid lw) t.tid m)) ht lw m
  have hobj := lockObj_added s (s.ctx t.ctx).asid lw t.tid m
  rw [hdecide]
  refine ⟨hreached.outcome rfl ?_ ?_, _, hreached.prefects⟩
  · rw [hobj]
    exact addHolder_mem _ _ _
  · rw [hobj]
    exact fun x hx hne => addHolder_keeps hx hne

/-! ## A request that is queued -/

/-- The state with the request in its queue and the wounds sent. -/
def State.woundedBy (s : State) (t : Task) (lw : Word) (m : LockMode) : State :=
  let c := s.ctx t.ctx
  let o := s.lockObj c.asid lw
  let hit := (woundsOf c.lkcompat o t.tid m).filter fun h => !s.woundSent h
  let s1 := (s.setLockObj { o with queue := queueByAge t.tid m o.queue }).markWounds hit
  let s2 := s1.modCtx t.ctx fun c => { c with lkWounds := min (c.lkWounds + hit.length) (2 ^ 32 - 1) }
  hit.foldl (fun s h => s.post 0 .wound (.task h)) s2

theorem wounds_posted (hit : List Word) (s : State) :
    ∃ due, hit.foldl (fun s h => s.post 0 .wound (.task h)) s = { s with due := due } ∧ (∀ x ∈ s.due, x ∈ due) ∧
      ∀ h ∈ hit, (s.cycle, .wound, .task h) ∈ due := by
  induction hit generalizing s with
  | nil => exact ⟨s.due, rfl, fun _ hx => hx, fun _ hx => absurd hx List.not_mem_nil⟩
  | cons x hit ih =>
    obtain ⟨due, hfold, hkeep, hpost⟩ := ih (s.post 0 .wound (.task x))
    refine ⟨due, hfold, fun y hy => hkeep y (mem_due_post s 0 _ _ y hy), fun h hh => ?_⟩
    rcases List.mem_cons.1 hh with rfl | hh
    · exact hkeep _ (mem_insertDue.2 (.inl rfl))
    · exact hpost h hh

/-- What has been queued before its task parks. -/
structure Wounded (s u : State) (t : Task) (asid : BitVec 16) (mx : BitVec 25) (lw : Word) (m : LockMode) : Prop where
  mem : u.mem = s.mem
  tasks : u.tasks = s.tasks
  objs : OnlyObjs s u
  obj : u.lockObj asid lw = ({ s.lockObj asid lw with queue := queueByAge t.tid m (s.lockObj asid lw).queue } : LockObj).marked
    ((woundsOf mx (s.lockObj asid lw) t.tid m).filter fun h => !s.woundSent h)
  sent : ∀ h ∈ (woundsOf mx (s.lockObj asid lw) t.tid m).filter fun h => !s.woundSent h,
    (s.cycle, .wound, .task h) ∈ u.due

theorem wounded_woundedBy (s : State) (t : Task) (lw : Word) (m : LockMode) :
    Wounded s (s.woundedBy t lw m) t (s.ctx t.ctx).asid (s.ctx t.ctx).lkcompat lw m := by
  obtain ⟨hasid, hlw⟩ := lockObj_key s (s.ctx t.ctx).asid lw
  unfold State.woundedBy
  dsimp only
  generalize hhit : (woundsOf (s.ctx t.ctx).lkcompat (s.lockObj (s.ctx t.ctx).asid lw) t.tid m).filter
    (fun h => !s.woundSent h) = hit
  generalize (s.ctx t.ctx).asid = asid at hasid hlw hhit ⊢
  have hobj : ((s.setLockObj { s.lockObj asid lw with queue := queueByAge t.tid m (s.lockObj asid lw).queue }).markWounds
      hit).lockObj asid lw =
      ({ s.lockObj asid lw with queue := queueByAge t.tid m (s.lockObj asid lw).queue } : LockObj).marked hit := by
    rw [lockObj_markWounds]
    exact congrArg (LockObj.marked · hit) (lockObj_setLockObj_at
      (o := { s.lockObj asid lw with queue := queueByAge t.tid m (s.lockObj asid lw).queue }) hasid hlw)
  obtain ⟨due, hfold, _, hposted⟩ := wounds_posted hit
    (((s.setLockObj { s.lockObj asid lw with queue := queueByAge t.tid m (s.lockObj asid lw).queue }).markWounds
      hit).modCtx t.ctx fun c => { c with lkWounds := min (c.lkWounds + hit.length) (2 ^ 32 - 1) })
  rw [hfold]
  exact ⟨rfl, rfl, ⟨_, rfl⟩, by rw [hhit]; exact hobj, by rw [hhit]; exact hposted⟩

/-- A clashing holder of an object that has no wound anywhere has none here. -/
theorem unmarked_of_woundSent {asid : BitVec 16} {h : Word × LockMode × Bool}
    (hh : h ∈ (s.lockObj asid lw).holders) (hsent : s.woundSent h.1 = false) : h.2.2 = false := by
  rw [State.woundSent, List.any_eq_false] at hsent
  have hnone := hsent _ (lockObj_mem hh)
  rw [List.any_eq_true] at hnone
  by_contra hmarked
  exact hnone ⟨h, hh, by simpa using hmarked⟩

theorem Wounded.outcome {asid : BitVec 16} {mx : BitVec 25} (h : Wounded s u t asid mx lw m)
    (k : ParkedFor u v t (.lock lw m)) : QueueOutcome s v t asid mx lw m := by
  have hobj : v.lockObj asid lw = _ := (lockObj_of_objs (by rw [k.prefects]) asid lw).trans h.obj
  obtain ⟨before, after, hqueue, hinserted, hbefore, hafter⟩ := queueByAge_split t.tid m (s.lockObj asid lw).queue
  refine ⟨sameBytes_of_mem (k.mem.trans h.mem), ?_, k.task,
    ⟨before, after, hqueue, by rw [hobj]; exact hinserted, hbefore, hafter⟩, fun x hx hclash hsent hyoung => ?_⟩
  · exact SameRegs.trans (by rw [SameRegs, h.tasks]) k.regs
  · obtain ⟨hne, hmodes⟩ := not_or.1 hclash
    have hhit : x.1 ∈ (woundsOf mx (s.lockObj asid lw) t.tid m).filter fun h => !s.woundSent h :=
      List.mem_filter.2 ⟨mem_woundsOf hx hne (unmarked_of_woundSent hx hsent) (Bool.eq_false_iff.2 hmodes) hyoung,
        by rw [hsent]; rfl⟩
    refine ⟨k.due _ (h.sent _ hhit), ?_⟩
    rw [hobj]
    exact marked_mem hx hhit

theorem decideLock_queues (ht : s.task? t.tid = some t) (hwait : t.wait = some (.lock lw m))
    (hnot : ¬grantAtOnce (s.ctx t.ctx).lkcompat (s.lockObj (s.ctx t.ctx).asid lw) t.tid m = true) :
    QueueOutcome s (s.decideLock t lw m) t (s.ctx t.ctx).asid (s.ctx t.ctx).lkcompat lw m ∧
      OnlyObjs s (s.decideLock t lw m) := by
  have hdecide : s.decideLock t lw m = if t.phase = .bound then (s.woundedBy t lw m).parkStall t.tid (.lock lw m)
      else s.woundedBy t lw m := if_neg hnot
  have hwounded := wounded_woundedBy s t lw m
  have hparked := parkedFor_of_waiting ((task?_of_tasks hwounded.tasks t.tid).trans ht) hwait
  rw [hdecide]
  obtain ⟨objs, hobjs⟩ := hwounded.objs
  exact ⟨hwounded.outcome hparked, objs, hparked.prefects.trans hobjs⟩

/-! ## A refusal that is dropped (01 R14, R15) -/

/-- A state in which some refusals, tickets and places in ports are gone, and the requests that waited behind them are due. -/
structure Unrefused (s u : State) : Prop where
  shape : ∃ refused behind due, u =
    { s with prefects := { s.prefects with refused := refused, behind := behind }, due := due }
  refused : ∀ x ∈ u.prefects.refused, x ∈ s.prefects.refused
  behind : ∀ x ∈ u.prefects.behind, x ∈ s.prefects.behind
  due : ∀ x ∈ s.due, x ∈ u.due

theorem Unrefused.refl (s : State) : Unrefused s s :=
  ⟨⟨_, _, _, rfl⟩, fun _ h => h, fun _ h => h, fun _ h => h⟩

theorem Unrefused.trans (h : Unrefused s u) (k : Unrefused u v) : Unrefused s v := by
  refine ⟨?_, fun x hx => h.refused x (k.refused x hx), fun x hx => h.behind x (k.behind x hx),
    fun x hx => k.due x (h.due x hx)⟩
  obtain ⟨_, _, _, rfl⟩ := h.shape
  obtain ⟨_, _, _, rfl⟩ := k.shape
  exact ⟨_, _, _, rfl⟩

theorem Unrefused.post (h : Unrefused s u) (n : Nat) (i : Instr) (a : EvArg) : Unrefused s (u.post n i a) := by
  refine ⟨?_, h.refused, h.behind, fun x hx => mem_insertDue.2 (.inr (h.due x hx))⟩
  obtain ⟨_, _, _, rfl⟩ := h.shape
  exact ⟨_, _, _, rfl⟩

theorem unrefused_freeBehind (s : State) (core home : Nat) : Unrefused s (s.freeBehind core home) := by
  unfold State.freeBehind
  refine List.foldlRecOn (motive := fun u => Unrefused s u) _ _ (Unrefused.refl s) fun u hu r _ => hu.trans ?_
  have hleft (refused : List LockRefusal) (h : ∀ x ∈ refused, x ∈ u.prefects.refused) :
      Unrefused u (u.onPrefects fun p => { p with behind := p.behind.filter (· != (home, r.tid)), refused := refused }) :=
    ⟨⟨_, _, _, rfl⟩, h, fun x hx => (List.mem_filter.1 hx).1, fun _ h => h⟩
  dsimp only
  split
  · exact (hleft (u.prefects.refused.filter (·.tid != r.tid)) fun x hx => (List.mem_filter.1 hx).1).post _ _ _
  · exact (hleft u.prefects.refused fun _ hx => hx).post _ _ _

/-- Nothing of a task's refused request stands: `gone` of the statement. -/
structure NoRefusal (u : State) (tid : Word) : Prop where
  refused : ∀ x ∈ u.prefects.refused, x.tid ≠ tid
  tickets : ∀ k ∈ u.prefects.tickets, k.2 ≠ tid
  held : ∀ k ∈ u.prefects.held, k.2 ≠ tid
  behind : ∀ k ∈ u.prefects.behind, k.2 ≠ tid

/-- A refusal has been dropped: only the Prefects' refusals, and what is due, have changed. -/
structure Dropped (s u : State) (tid : Word) : Prop where
  shape : ∃ refused tickets held behind due, u =
    { s with
      prefects := { s.prefects with refused := refused, tickets := tickets, held := held, behind := behind }, due := due }
  gone : NoRefusal u tid

theorem dropped_dropRefusal (s : State) (tid : Word) : Dropped s (s.dropRefusal tid) tid := by
  have hnot {α : Type} {f : α → Word} {l : List α} {x : α} (hx : x ∈ l.filter fun y => f y != tid) : f x ≠ tid := by
    simpa using (List.mem_filter.1 hx).2
  unfold State.dropRefusal
  dsimp only
  have hfreed (l : List LockRefusal) (u : State) : Unrefused u (l.foldl (fun s r => s.freeBehind r.core (lwHome r.lw)) u) :=
    List.foldlRecOn (motive := fun v => Unrefused u v) l _ (Unrefused.refl u)
      fun v hv r _ => hv.trans (unrefused_freeBehind v r.core (lwHome r.lw))
  have h := hfreed (s.prefects.refused.filter fun r => r.tid == tid && r.refusals == 2) (s.onPrefects fun p =>
    { p with
      refused := p.refused.filter (·.tid != tid), tickets := p.tickets.filter (·.2 != tid)
      held := p.held.filter (·.2 != tid), behind := p.behind.filter (·.2 != tid) })
  have hrefused := h.refused
  have hbehind := h.behind
  obtain ⟨refused, behind, due, hshape⟩ := h.shape
  refine ⟨⟨refused, _, _, behind, due, hshape⟩, fun x hx => hnot (hrefused x hx), fun k hk => ?_, fun k hk => ?_,
    fun k hk => hnot (hbehind k hk)⟩
  · rw [hshape] at hk
    exact hnot hk
  · rw [hshape] at hk
    exact hnot hk

theorem NoRefusal.onlyObjs {tid : Word} (h : NoRefusal s tid) (k : OnlyObjs s u) : NoRefusal u tid := by
  obtain ⟨objs, hobjs⟩ := k
  exact ⟨by rw [hobjs]; exact h.refused, by rw [hobjs]; exact h.tickets, by rw [hobjs]; exact h.held,
    by rw [hobjs]; exact h.behind⟩

theorem Dropped.tasks {tid : Word} (h : Dropped s u tid) : u.tasks = s.tasks := by
  obtain ⟨_, _, _, _, _, rfl⟩ := h.shape
  rfl

theorem Dropped.ctx {tid : Word} (h : Dropped s u tid) (n : Nat) : u.ctx n = s.ctx n := by
  obtain ⟨_, _, _, _, _, rfl⟩ := h.shape
  rfl

theorem Dropped.lockObj {tid : Word} (h : Dropped s u tid) (asid : BitVec 16) (lw : Word) :
    u.lockObj asid lw = s.lockObj asid lw := by
  obtain ⟨_, _, _, _, _, rfl⟩ := h.shape
  rfl

/-- The decision after a refusal is dropped is the decision of the state before. -/
theorem Dropped.grantOutcome {asid : BitVec 16} {tid : Word} (h : Dropped s u tid) (k : GrantOutcome u v t asid lw m) :
    GrantOutcome s v t asid lw m := by
  obtain ⟨_, _, _, _, _, rfl⟩ := h.shape
  exact ⟨k.same, k.holder, k.others, k.task⟩

theorem Dropped.queueOutcome {asid : BitVec 16} {mx : BitVec 25} {tid : Word} (h : Dropped s u tid)
    (k : QueueOutcome u v t asid mx lw m) : QueueOutcome s v t asid mx lw m := by
  obtain ⟨_, _, _, _, _, rfl⟩ := h.shape
  exact ⟨k.same, k.regs, k.task, k.queue, k.wounds⟩

/-- A request that was refused is decided: granted, with nothing of the refusal left. -/
theorem dropRefusal_grants (ht : s.task? t.tid = some t)
    (hnow : grantAtOnce (s.ctx t.ctx).lkcompat (s.lockObj (s.ctx t.ctx).asid lw) t.tid m = true) :
    GrantOutcome s ((s.dropRefusal t.tid).decideLock t lw m) t (s.ctx t.ctx).asid lw m ∧
      NoRefusal ((s.dropRefusal t.tid).decideLock t lw m) t.tid := by
  have hdropped := dropped_dropRefusal s t.tid
  generalize s.dropRefusal t.tid = u at hdropped ⊢
  have hnow' : grantAtOnce (u.ctx t.ctx).lkcompat (u.lockObj (u.ctx t.ctx).asid lw) t.tid m = true := by
    rw [hdropped.ctx, hdropped.lockObj, hnow]
  obtain ⟨hgrant, honly⟩ := decideLock_grants ((task?_of_tasks hdropped.tasks t.tid).trans ht) hnow'
  rw [hdropped.ctx] at hgrant
  exact ⟨hdropped.grantOutcome hgrant, hdropped.gone.onlyObjs honly⟩

/-- The same for one that is queued. -/
theorem dropRefusal_queues (ht : s.task? t.tid = some t) (hwait : t.wait = some (.lock lw m))
    (hnot : ¬grantAtOnce (s.ctx t.ctx).lkcompat (s.lockObj (s.ctx t.ctx).asid lw) t.tid m = true) :
    QueueOutcome s ((s.dropRefusal t.tid).decideLock t lw m) t (s.ctx t.ctx).asid (s.ctx t.ctx).lkcompat lw m ∧
      NoRefusal ((s.dropRefusal t.tid).decideLock t lw m) t.tid := by
  have hdropped := dropped_dropRefusal s t.tid
  generalize s.dropRefusal t.tid = u at hdropped ⊢
  have hnot' : ¬grantAtOnce (u.ctx t.ctx).lkcompat (u.lockObj (u.ctx t.ctx).asid lw) t.tid m = true := by
    rw [hdropped.ctx, hdropped.lockObj]
    exact hnot
  obtain ⟨hqueue, honly⟩ := decideLock_queues ((task?_of_tasks hdropped.tasks t.tid).trans ht) hwait hnot'
  rw [hdropped.ctx] at hqueue
  exact ⟨hdropped.queueOutcome hqueue, hdropped.gone.onlyObjs honly⟩

end

end Sys2Proof.Machine
end

section
/-! PROOF. O19: a request and a try at their Prefect, and what is offered to a ticket (09 R229 to R231, R237; 01 R14, R15). -/

namespace Sys2Proof.Machine

open Sys2Proof

section
variable {s : State} {t : Task} {lw : Word} {m : LockMode} {id : Nat}

/-! ## The order of messages (09 R229, R240) -/

theorem inLockOrder_later {tid : Word} {home : Nat} {i : Instr} {f : State → State}
    (h : ¬∀ d ∈ s.due, s.lockFirst tid home d = false) : s.inLockOrder tid home i f = s.post 0 i s.arg := by
  refine if_pos (List.any_eq_true.2 ?_)
  obtain ⟨d, hd⟩ := not_forall.1 h
  obtain ⟨hmem, hfirst⟩ := Classical.not_imp.1 hd
  exact ⟨d, hmem, by simpa using hfirst⟩

theorem inLockOrder_first {tid : Word} {home : Nat} {i : Instr} {f : State → State}
    (h : ∀ d ∈ s.due, s.lockFirst tid home d = false) : s.inLockOrder tid home i f = f s :=
  if_neg (by simpa using h)

/-! ## A request (09 R229, R237) -/

theorem exec_prefectLockRequest (harg : s.arg = .lock t.tid lw m id) (ht : s.task? t.tid = some t)
    (hwait : t.wait = some (.lock lw m)) : exec .prefectLockRequest s =
      .next (s.inLockOrder t.tid (lwHome lw) .prefectLockRequest fun s => s.lockRequest t lw m) := by
  change execPrefectLockRequest s = _
  simp only [execPrefectLockRequest, harg, ht, if_pos hwait]

/-- Is a request granted at once? -/
def State.grantsNow (s : State) (t : Task) (lw : Word) (m : LockMode) : Bool :=
  grantAtOnce (s.ctx t.ctx).lkcompat (s.lockObj (s.ctx t.ctx).asid lw) t.tid m

theorem lacksRoom_free (hentries : s.pfEntries (lwHome lw) < 65536) (hrecords : s.pfRecords (lwHome lw) < 262144)
    (asid : BitVec 16) (tid : Word) (grant : Bool) : s.lacksRoom (s.lockObj asid lw) tid grant = false := by
  refine lacksRoom_of_free ?_ ?_ <;> rw [(lockObj_key s asid lw).2] <;> assumption

theorem lacksRoom_crowded {asid : BitVec 16} {tid : Word} (hnew : ∀ h ∈ (s.lockObj asid lw).holders, h.1 ≠ tid)
    (hrecords : 262144 ≤ s.pfRecords (lwHome lw)) (grant : Bool) : s.lacksRoom (s.lockObj asid lw) tid grant = true :=
  lacksRoom_of_crowded hnew (by rwa [(lockObj_key s asid lw).2])

theorem lockRequest_decides (hport : s.portTicket (Task.onCore t) (lwHome lw) = false)
    (hentries : s.pfEntries (lwHome lw) < 65536) (hrecords : s.pfRecords (lwHome lw) < 262144)
    (hticket : ∀ k ∈ s.prefects.tickets, k.1 ≠ lwHome lw) : s.lockRequest t lw m = s.decideLock t lw m := by
  simp only [State.lockRequest, hport, lacksRoom_free hentries hrecords, ticketed_false hticket, Bool.and_false,
    Bool.or_false, Bool.false_eq_true, if_false]

theorem lockRequest_crowded (hport : s.portTicket (Task.onCore t) (lwHome lw) = false)
    (hnew : ∀ h ∈ (s.lockObj (s.ctx t.ctx).asid lw).holders, h.1 ≠ t.tid)
    (hrecords : 262144 ≤ s.pfRecords (lwHome lw)) :
    s.lockRequest t lw m = ((s.refuseLock t).parkRefused t ⟨t.tid, lw, m, 1, Task.onCore t⟩).post 32 .lockRefusalRetry
      (.task t.tid) := by
  simp only [State.lockRequest, hport, lacksRoom_crowded hnew hrecords, Bool.true_or, Bool.false_eq_true, if_false, if_true]

theorem lockRequest_ported (hport : s.portTicket (Task.onCore t) (lwHome lw) = true) :
    s.lockRequest t lw m = (s.parkRefused t ⟨t.tid, lw, m, 0, Task.onCore t⟩).onPrefects fun p =>
      { p with behind := p.behind ++ [(lwHome lw, t.tid)] } :=
  if_pos hport

/-- A task with a request that has not been decided: it is parked, and the request is kept. -/
theorem parkRefused_parked {r : LockRefusal} (ht : s.task? t.tid = some t) (hwait : t.wait = some (.lock r.lw r.mode)) :
    ParkedFor (s.onPrefects fun p => { p with refused := p.refused ++ [r] }) (s.parkRefused t r) t (.lock r.lw r.mode) :=
  parkedFor_of_waiting (s := s.onPrefects fun p => { p with refused := p.refused ++ [r] }) ht hwait

/-! ## A try (09 R231) -/

theorem exec_prefectLockTry (harg : s.arg = .lock t.tid lw m id) (ht : s.task? t.tid = some t) :
    exec .prefectLockTry s =
      .next (s.inLockOrder t.tid (lwHome lw) .prefectLockTry fun s => s.lockTry t lw m id) := by
  change execPrefectLockTry s = _
  simp only [execPrefectLockTry, harg, ht]

/-- The state in which a try that is granted is answered. -/
def State.tryGranted (s : State) (t : Task) (lw : Word) (m : LockMode) : State :=
  ((s.setLockObj (addHolder (s.lockObj (s.ctx t.ctx).asid lw) t.tid m)).modTask t.tid fun t =>
    Task.addLock t lw m).acquireBy t.tid (Task.onCore t) .pkg

theorem lockTry_granted (hnow : s.grantsNow t lw m = true) (hentries : s.pfEntries (lwHome lw) < 65536)
    (hrecords : s.pfRecords (lwHome lw) < 262144) (hticket : ∀ k ∈ s.prefects.tickets, k.1 ≠ lwHome lw) :
    s.lockTry t lw m id = (s.tryGranted t lw m).landFor t.tid id (.word 1) := by
  unfold State.grantsNow at hnow
  simp only [State.lockTry, hnow, lacksRoom_free hentries hrecords, ticketed_false hticket, Bool.and_false, Bool.not_false,
    Bool.and_true, if_true]
  rfl

theorem lockTry_busy (h : s.grantsNow t lw m = false ∨
    (∀ h ∈ (s.lockObj (s.ctx t.ctx).asid lw).holders, h.1 ≠ t.tid) ∧ 262144 ≤ s.pfRecords (lwHome lw)) :
    s.lockTry t lw m id = s.landFor t.tid id (.word 0) := by
  unfold State.grantsNow at h
  rcases h with h | ⟨hnew, hrecords⟩
  · simp only [State.lockTry, h, Bool.false_and, Bool.false_eq_true, if_false]
  · simp only [State.lockTry, lacksRoom_crowded hnew hrecords, Bool.not_true, Bool.and_false, Bool.false_and,
      Bool.false_eq_true, if_false]

/-- A try that is granted: the object has its holder, and the task the lock. -/
theorem tryGranted_task (ht : s.task? t.tid = some t) : ∃ y, (s.tryGranted t lw m).task? t.tid = some y ∧
    HasLock t y lw m ∧ y.r = t.r ∧ y.phase = t.phase ∧ y.infl = t.infl ∧ y.wait = t.wait := by
  have hlocked : ((s.setLockObj (addHolder (s.lockObj (s.ctx t.ctx).asid lw) t.tid m)).modTask t.tid fun t =>
      Task.addLock t lw m).task? t.tid = some (Task.addLock t lw m) :=
    task?_modTask_same (s := s.setLockObj _) ht fun x => (addLock_fields x lw m).1
  obtain ⟨_, hr, hphase, hinfl, hwait⟩ := addLock_fields t lw m
  exact ⟨_, acquireBy_task? hlocked _, hasLock_addLock t lw m, hr, hphase, hinfl, hwait⟩

/-- `holds` of the statement. -/
def HeldAfter (s u : State) (asid : BitVec 16) (lw tid : Word) (m : LockMode) : Prop :=
  (∃ b, (tid, m, b) ∈ (u.lockObj asid lw).holders) ∧
    ∀ h ∈ (s.lockObj asid lw).holders, h.1 ≠ tid → h ∈ (u.lockObj asid lw).holders

theorem heldAfter_tryGranted (s : State) (t : Task) (lw : Word) (m : LockMode) :
    HeldAfter s (s.tryGranted t lw m) (s.ctx t.ctx).asid lw t.tid m := by
  have hobj : (s.tryGranted t lw m).lockObj (s.ctx t.ctx).asid lw = _ := lockObj_added s (s.ctx t.ctx).asid lw t.tid m
  unfold HeldAfter
  rw [hobj]
  exact ⟨addHolder_mem _ _ _, fun x hx hne => addHolder_keeps hx hne⟩

/-- The answer of a try lands in the register that waits for it. -/
theorem landFor_answers {u : State} {y : Task} {e : Infl} (v : Word) (hy : u.task? t.tid = some y)
    (hinfl : y.infl = t.infl) (hr : y.r = t.r) (hphase : y.phase = .bound)
    (he : (t.infl.find? fun e => e.id == id) = some e) (hshadow : e.toShadow = false) :
    ∃ z, (u.landFor t.tid id (.word v)).task? t.tid = some z ∧ z.r = t.r.write e.reg e.mask (.word v) ∧
      z.wait = y.wait ∧ z.locks = y.locks ∧ (u.landFor t.tid id (.word v)).mem = u.mem ∧
      (u.landFor t.tid id (.word v)).prefects = u.prefects := by
  rw [← hinfl] at he
  rw [landFor_bound (.word v) hy he hphase]
  refine ⟨y.land id (.word v), task?_modTask_same hy fun x => Task.land_tid x id _, ?_, ?_, ?_, rfl, rfl⟩
  all_goals rw [Task.land_plain (.word v) he hshadow]
  exact congrArg (fun r : Regs => r.write e.reg e.mask (.word v)) hr

/-- An answer for which no register waits changes nothing. -/
theorem landFor_none {u : State} {y : Task} (v : RegVal) (hy : u.task? t.tid = some y) (h : ∀ e ∈ y.infl, e.id ≠ id) :
    u.landFor t.tid id v = u := by
  have hfind : (y.infl.find? fun e => e.id == id) = none := by
    rw [List.find?_eq_none]
    exact fun e he => by simpa using h e he
  simp only [State.landFor, hy, hfind]

/-! ## Offers to tickets (01 R14, R15; 09 R237) -/

theorem offerLocks_keeps (home n : Nat) (s : State) : (∀ k ∈ s.prefects.held, k ∈ (s.offerLocks home n).prefects.held) ∧
    ∀ x ∈ s.due, x ∈ (s.offerLocks home n).due := by
  induction n generalizing s with
  | zero => exact ⟨fun _ h => h, fun _ h => h⟩
  | succ n ih =>
    unfold State.offerLocks
    split
    · exact ⟨fun _ h => h, fun _ h => h⟩
    · next k _ =>
      split
      · obtain ⟨hheld, hdue⟩ := ih (((s.choose 65).2.onPrefects fun p =>
          { p with tickets := p.tickets.erase k, held := p.held ++ [k] }).post (s.choose 65).1 .lockRefusalRetry (.task k.2))
        exact ⟨fun x hx => hheld x (List.mem_append_left _ hx), fun x hx => hdue x (mem_insertDue.2 (.inr hx))⟩
      · exact ⟨fun _ h => h, fun _ h => h⟩

/-- What is free is held for the oldest ticket. -/
theorem offerLock_offers {home : Nat} {k : Nat × Word} (hk : (s.prefects.tickets.find? fun k => k.1 == home) = some k)
    (hentries : s.pfEntries home < 65536) (hrecords : s.pfRecords home < 262144) :
    ∃ d, d ≤ 64 ∧ k ∈ (s.offerLock home).prefects.held ∧
      (s.cycle + d, .lockRefusalRetry, .task k.2) ∈ (s.offerLock home).due := by
  obtain ⟨n, hn⟩ : ∃ n, s.prefects.tickets.length = n + 1 :=
    Nat.exists_eq_succ_of_ne_zero (List.length_pos_of_mem (List.mem_of_find?_eq_some hk)).ne'
  have hoffer : s.offerLock home = (((s.choose 65).2.onPrefects fun p =>
      { p with tickets := p.tickets.erase k, held := p.held ++ [k] }).post (s.choose 65).1 .lockRefusalRetry
        (.task k.2)).offerLocks home n := by
    rw [State.offerLock, hn, State.offerLocks, hk]
    exact if_pos ⟨hentries, hrecords⟩
  rw [hoffer]
  obtain ⟨hheld, hdue⟩ := offerLocks_keeps home n (((s.choose 65).2.onPrefects fun p =>
      { p with tickets := p.tickets.erase k, held := p.held ++ [k] }).post (s.choose 65).1 .lockRefusalRetry (.task k.2))
  exact ⟨(s.choose 65).1, Nat.le_of_lt_succ (choose_lt s (by decide)), hheld k (List.mem_append_right _ List.mem_cons_self),
    hdue _ (mem_insertDue.2 (.inl rfl))⟩

/-- Without a ticket, or without room, nothing is offered. -/
theorem offerLock_none {home : Nat} (h : ∀ k ∈ s.prefects.tickets, k.1 ≠ home) : s.offerLock home = s := by
  have hfind : (s.prefects.tickets.find? fun k => k.1 == home) = none := by
    rw [List.find?_eq_none]
    exact fun k hk => by simpa using h k hk
  unfold State.offerLock
  cases s.prefects.tickets.length with
  | zero => rfl
  | succ n => rw [State.offerLocks, hfind]

theorem offerLock_full {home : Nat} (h : 262144 ≤ s.pfRecords home) : s.offerLock home = s := by
  unfold State.offerLock
  cases s.prefects.tickets.length with
  | zero => rfl
  | succ n =>
    rw [State.offerLocks]
    split
    · rfl
    · exact if_neg fun k => absurd k.2 (Nat.not_lt.2 h)

/-! ## A release (09 R230) -/

theorem exec_prefectLockRelease (harg : s.arg = .lock t.tid lw m id) (ht : s.task? t.tid = some t)
    (hholds : ∃ h ∈ (s.lockObj (s.ctx t.ctx).asid lw).holders, h.1 = t.tid) :
    exec .prefectLockRelease s = .next ((s.runGrants (s.ctx t.ctx).lkcompat
      { s.lockObj (s.ctx t.ctx).asid lw with
        holders := (s.lockObj (s.ctx t.ctx).asid lw).holders.filter (·.1 != t.tid) }).offerLock (lwHome lw)) := by
  have hany : ((s.lockObj (s.ctx t.ctx).asid lw).holders.any (·.1 == t.tid)) = true := by
    obtain ⟨h, hh, htid⟩ := hholds
    exact List.any_eq_true.2 ⟨h, hh, by rw [htid]; exact beq_self_eq_true _⟩
  change execPrefectLockRelease s = _
  simp only [execPrefectLockRelease, harg, ht, hany, if_true]

theorem sendGrants_shape (gs : List (Word × LockMode)) (s : State) : ∃ due, s.sendGrants gs = { s with due := due } ∧
    (∀ x ∈ s.due, x ∈ due) ∧ ∀ g ∈ gs, (s.cycle, .lockGrant, .task g.1) ∈ due := by
  induction gs generalizing s with
  | nil => exact ⟨s.due, rfl, fun _ hx => hx, fun _ hx => absurd hx List.not_mem_nil⟩
  | cons g gs ih =>
    obtain ⟨due, hfold, hkeep, hpost⟩ := ih (s.post 0 .lockGrant (.task g.1))
    refine ⟨due, hfold, fun y hy => hkeep y (mem_due_post s 0 _ _ y hy), fun x hx => ?_⟩
    rcases List.mem_cons.1 hx with rfl | hx
    · exact hkeep _ (mem_insertDue.2 (.inl rfl))
    · exact hpost x hx

/-- What the grant step leaves of the state. -/
structure GrantsRun (s u : State) (mx : BitVec 25) (o : LockObj) : Prop where
  mem : u.mem = s.mem
  tasks : u.tasks = s.tasks
  tickets : u.prefects.tickets = s.prefects.tickets
  obj : u.lockObj o.asid o.lw = (grantStep mx o.queue.length o).1
  sent : ∀ g ∈ (grantStep mx o.queue.length o).2, (s.cycle, .lockGrant, .task g.1) ∈ u.due
  none : (grantStep mx o.queue.length o).2 = [] → u.due = s.due

theorem grantsRun_runGrants (s : State) (mx : BitVec 25) (o : LockObj) : GrantsRun s (s.runGrants mx o) mx o := by
  obtain ⟨hasid, hlw⟩ := grantStep_key mx o.queue.length o
  have hrun : s.runGrants mx o = (s.setLockObj (grantStep mx o.queue.length o).1).sendGrants
      (grantStep mx o.queue.length o).2 := rfl
  have hobj := lockObj_setLockObj_at (s := s) hasid hlw
  obtain ⟨due, hsend, _, hsent⟩ := sendGrants_shape (grantStep mx o.queue.length o).2
    (s.setLockObj (grantStep mx o.queue.length o).1)
  rw [hrun]
  refine ⟨by rw [hsend]; rfl, by rw [hsend]; rfl, by rw [hsend]; rfl, by rw [hsend]; exact hobj,
    by rw [hsend]; exact hsent, fun hnil => by rw [hnil]; rfl⟩

end

end Sys2Proof.Machine
end

section
/-! PROOF. O19: a grant that reaches its task, and a refused request that comes again (09 R230, R237; 01 R14, R15). -/

namespace Sys2Proof.Machine

open Sys2Proof

section
variable {s : State} {t : Task} {lw : Word} {m : LockMode} {id : Nat}

/-! ## A grant (09 R230) -/

theorem exec_lockGrant (harg : s.arg = .task t.tid) (ht : s.task? t.tid = some t) (hwait : t.wait = some (.lock lw m))
    (hholds : ∃ h ∈ (s.lockObj (s.ctx t.ctx).asid lw).holders, h.1 = t.tid ∧ h.2.1 = m) :
    exec .lockGrant s = .next (s.lockGranted t.tid lw m) := by
  have hany : ((s.lockObj (s.ctx t.ctx).asid lw).holders.any fun h => h.1 == t.tid && h.2.1 == m) = true := by
    obtain ⟨h, hh, htid, hmode⟩ := hholds
    exact List.any_eq_true.2 ⟨h, hh, by rw [htid, hmode]; simp⟩
  change execLockGrant s = _
  simp only [execLockGrant, harg, ht, hwait, hany, if_true]

/-- A grant of the grant step reaches its task. -/
theorem lockGrant_outcome (ht : s.task? t.tid = some t)
    (hholds : ∃ h ∈ (s.lockObj (s.ctx t.ctx).asid lw).holders, h.1 = t.tid ∧ h.2.1 = m) :
    GrantOutcome s (s.lockGranted t.tid lw m) t (s.ctx t.ctx).asid lw m ∧
      (s.lockGranted t.tid lw m).prefects = s.prefects := by
  have hreached := lockGranted_reached ht lw m
  refine ⟨hreached.outcome rfl ?_ fun _ hx _ => hx, hreached.prefects⟩
  obtain ⟨⟨tid, mode, b⟩, hh, htid, hmode⟩ := hholds
  dsimp only at htid hmode
  rw [htid, hmode] at hh
  exact ⟨b, hh⟩

/-! ## A refused request that comes again (09 R237) -/

section
variable {r : LockRefusal}

theorem exec_lockRefusalRetry (harg : s.arg = .task t.tid) (ht : s.task? t.tid = some t)
    (hr : (s.prefects.refused.find? fun r => r.tid == t.tid) = some r)
    (hfirst : ∀ d ∈ s.due, s.lockFirst t.tid (lwHome r.lw) d = false) :
    exec .lockRefusalRetry s = .next (s.lockRetry t r) := by
  change execLockRefusalRetry s = _
  simp only [execLockRefusalRetry, harg, ht, hr, inLockOrder_first hfirst]

/-- With an entry held for it, it is decided; without one nothing comes of it. -/
theorem lockRetry_held (h2 : r.refusals = 2) (hheld : (lwHome r.lw, t.tid) ∈ s.prefects.held) :
    s.lockRetry t r = (s.dropRefusal t.tid).decideLock t r.lw r.mode := by
  simp only [State.lockRetry, if_pos h2, if_pos (List.contains_iff_mem.2 hheld)]

theorem lockRetry_unheld (h2 : r.refusals = 2) (hheld : (lwHome r.lw, t.tid) ∉ s.prefects.held) :
    s.lockRetry t r = s := by
  simp only [State.lockRetry, if_pos h2, if_neg (mt List.contains_iff_mem.1 hheld)]

theorem lockRetry_behind (h2 : r.refusals ≠ 2) (hbehind : (lwHome r.lw, t.tid) ∈ s.prefects.behind) :
    s.lockRetry t r = s := by
  simp only [State.lockRetry, if_neg h2, if_pos (List.contains_iff_mem.2 hbehind)]

section
variable (h2 : r.refusals ≠ 2) (hbehind : (lwHome r.lw, t.tid) ∉ s.prefects.behind)
include h2 hbehind

theorem lockRetry_ported (hport : s.portTicket r.core (lwHome r.lw) = true) : s.lockRetry t r =
    s.onPrefects fun p => { p with behind := p.behind ++ [(lwHome r.lw, t.tid)] } := by
  simp only [State.lockRetry, if_neg h2, if_neg (mt List.contains_iff_mem.1 hbehind), hport, if_true]

theorem lockRetry_decides (hport : s.portTicket r.core (lwHome r.lw) = false)
    (hentries : s.pfEntries (lwHome r.lw) < 65536) (hrecords : s.pfRecords (lwHome r.lw) < 262144) :
    s.lockRetry t r = (s.dropRefusal t.tid).decideLock t r.lw r.mode := by
  simp only [State.lockRetry, if_neg h2, if_neg (mt List.contains_iff_mem.1 hbehind), hport,
    lacksRoom_free hentries hrecords, Bool.false_eq_true, if_false]

/-- The state in which a second refusal has its ticket. -/
def State.ticketGiven (s : State) (t : Task) (home : Nat) : State :=
  (s.refuseLock t).onPrefects fun p =>
    { p with
      refused := p.refused.map fun x => if x.tid == t.tid then { x with refusals := 2 } else x
      tickets := p.tickets ++ [(home, t.tid)] }

theorem lockRetry_tickets (hport : s.portTicket r.core (lwHome r.lw) = false)
    (hnew : ∀ h ∈ (s.lockObj (s.ctx t.ctx).asid r.lw).holders, h.1 ≠ t.tid)
    (hrecords : 262144 ≤ s.pfRecords (lwHome r.lw)) : s.lockRetry t r = s.ticketGiven t (lwHome r.lw) := by
  have hfull : (s.ticketGiven t (lwHome r.lw)).offerLock (lwHome r.lw) = s.ticketGiven t (lwHome r.lw) :=
    offerLock_full (s := s.ticketGiven t (lwHome r.lw)) hrecords
  rw [← hfull]
  simp only [State.lockRetry, if_neg h2, if_neg (mt List.contains_iff_mem.1 hbehind), hport,
    lacksRoom_crowded hnew hrecords, Bool.false_eq_true, if_false, if_true]
  rfl

end

end

/-! ## A request that parks undecided (09 R232, R237) -/

/-- `parks` of the statement. -/
structure ParkOutcome (s u : State) (t : Task) (lw : Word) (m : LockMode) (n : Nat) : Prop where
  same : SameBytes s u
  regs : SameRegs s u
  task : ∃ y, u.task? t.tid = some y ∧ y.wait = some (.lock lw m)
  objs : u.prefects.objs = s.prefects.objs
  refused : u.prefects.refused = s.prefects.refused ++ [⟨t.tid, lw, m, n, Task.onCore t⟩]

theorem ParkedFor.outcome {s1 u : State} {host : HostSide} {n : Nat} (hs : s1 = { s with host := host })
    (h : ParkedFor (s1.onPrefects fun p => { p with refused := p.refused ++ [⟨t.tid, lw, m, n, Task.onCore t⟩] }) u t
      (.lock lw m)) : ParkOutcome s u t lw m n := by
  subst hs
  obtain ⟨y, hy, _, hwait, _⟩ := h.task
  exact ⟨sameBytes_of_mem h.mem, h.regs, ⟨y, hy, hwait⟩, by rw [h.prefects]; rfl, by rw [h.prefects]; rfl⟩

/-- The first request is refused: it is counted, and it comes again 32 cycles later. -/
theorem lockRequest_refuses (ht : s.task? t.tid = some t) (hwait : t.wait = some (.lock lw m)) :
    let u := ((s.refuseLock t).parkRefused t ⟨t.tid, lw, m, 1, Task.onCore t⟩).post 32 .lockRefusalRetry (.task t.tid)
    ParkOutcome s u t lw m 1 ∧ (u.ctx t.ctx).lkRefusals = min ((s.ctx t.ctx).lkRefusals + 1) (2 ^ 32 - 1) ∧
      (s.cycle + 32, .lockRefusalRetry, .task t.tid) ∈ u.due := by
  have hparked := parkRefused_parked (s := s.refuseLock t) (r := ⟨t.tid, lw, m, 1, Task.onCore t⟩) ht hwait
  obtain ⟨hsame, hregs, htask, hobjs, hrefused⟩ := hparked.outcome (s := s) rfl
  have hctx := State.ctx_modCtx_same s t.ctx fun c => { c with lkRefusals := min (c.lkRefusals + 1) (2 ^ 32 - 1) }
  have hhost := hparked.host
  have hcycle : ((s.refuseLock t).parkRefused t ⟨t.tid, lw, m, 1, Task.onCore t⟩).cycle = s.cycle := hparked.cycle
  generalize (s.refuseLock t).parkRefused t ⟨t.tid, lw, m, 1, Task.onCore t⟩ = v at hsame hregs htask hobjs hrefused hhost hcycle
  refine ⟨⟨hsame, hregs, htask, hobjs, hrefused⟩, ?_, ?_⟩
  · have hv : v.ctx t.ctx = (s.refuseLock t).ctx t.ctx := by
      rw [State.ctx, State.ctx, hhost]
      rfl
    exact (congrArg Ctx.lkRefusals hv).trans (congrArg Ctx.lkRefusals hctx)
  · rw [← hcycle]
    exact mem_insertDue.2 (.inl rfl)

/-- The first request finds a ticketed one in its port, and waits there. -/
theorem lockRequest_waits_behind (ht : s.task? t.tid = some t) (hwait : t.wait = some (.lock lw m)) (home : Nat) :
    let u := (s.parkRefused t ⟨t.tid, lw, m, 0, Task.onCore t⟩).onPrefects fun p =>
      { p with behind := p.behind ++ [(home, t.tid)] }
    ParkOutcome s u t lw m 0 ∧ u.prefects.behind = s.prefects.behind ++ [(home, t.tid)] := by
  have hparked := parkRefused_parked (s := s) (r := ⟨t.tid, lw, m, 0, Task.onCore t⟩) ht hwait
  obtain ⟨hsame, hregs, htask, hobjs, hrefused⟩ := hparked.outcome (s := s) rfl
  have hprefects := hparked.prefects
  generalize s.parkRefused t ⟨t.tid, lw, m, 0, Task.onCore t⟩ = v at hsame hregs htask hobjs hrefused hprefects
  refine ⟨⟨hsame, hregs, htask, hobjs, hrefused⟩, ?_⟩
  rw [State.onPrefects_prefects, hprefects]
  rfl

/-! ## A try that is answered (09 R231) -/

/-- A try that is granted and for which no register waits. -/
theorem lockTry_silent (ht : s.task? t.tid = some t) (hinfl : ∀ e ∈ t.infl, e.id ≠ id) :
    (s.tryGranted t lw m).landFor t.tid id (.word 1) = s.tryGranted t lw m := by
  obtain ⟨y, hy, _, _, _, hyinfl, _⟩ := tryGranted_task (lw := lw) (m := m) ht
  exact landFor_none _ hy (by rw [hyinfl]; exact hinfl)

/-- `answers` of the statement. -/
structure TryAnswer (s u : State) (t y : Task) (e : Infl) (v : Word) : Prop where
  same : SameBytes s u
  task : u.task? t.tid = some y
  reg : y.r = t.r.write e.reg e.mask (.word v)
  wait : y.wait = t.wait

section
variable {e : Infl} (ht : s.task? t.tid = some t) (he : (t.infl.find? fun e => e.id == id) = some e)
  (hshadow : e.toShadow = false) (hphase : t.phase = .bound)
include ht he hshadow hphase

theorem lockTry_one : ∃ y, TryAnswer s ((s.tryGranted t lw m).landFor t.tid id (.word 1)) t y e 1 ∧ HasLock t y lw m ∧
    ((s.tryGranted t lw m).landFor t.tid id (.word 1)).prefects = (s.tryGranted t lw m).prefects := by
  obtain ⟨y, hy, hlock, hr, hyphase, hinfl, hwait⟩ := tryGranted_task (lw := lw) (m := m) ht
  obtain ⟨z, hz, hreg, hzwait, hlocks, hmem, hprefects⟩ :=
    landFor_answers 1 hy hinfl hr (hyphase.trans hphase) he hshadow
  refine ⟨z, ⟨sameBytes_of_mem hmem, hz, hreg, hzwait.trans hwait⟩, ?_, hprefects⟩
  unfold HasLock
  rw [hlocks]
  exact hlock

theorem lockTry_zero : ∃ y, TryAnswer s (s.landFor t.tid id (.word 0)) t y e 0 ∧ y.locks = t.locks ∧
    (s.landFor t.tid id (.word 0)).prefects = s.prefects := by
  obtain ⟨z, hz, hreg, hwait, hlocks, hmem, hprefects⟩ := landFor_answers 0 ht rfl rfl hphase he hshadow
  exact ⟨z, ⟨sameBytes_of_mem hmem, hz, hreg, hwait⟩, hlocks, hprefects⟩

end

/-! ## A release (09 R230) -/

/-- The object from which a task has left as holder. -/
def LockObj.released (o : LockObj) (tid : Word) : LockObj := { o with holders := o.holders.filter (·.1 != tid) }

/-- What the grant step does for the head of the queue after a release. -/
structure ReleaseOutcome (s u : State) (mx : BitVec 25) (o : LockObj) (asid : BitVec 16) (lw : Word) : Prop where
  same : SameBytes s u
  tasks : u.tasks = s.tasks
  empty : o.queue = [] → (u.lockObj asid lw).holders = o.holders ∧ (u.lockObj asid lw).queue = [] ∧ u.due = s.due
  fits : ∀ q mode more, o.queue = (q, mode) :: more → compatHolders mx o q mode = true →
    (s.cycle, .lockGrant, .task q) ∈ u.due ∧ (∃ b, (q, mode, b) ∈ (u.lockObj asid lw).holders) ∨ ∃ h ∈ more, h.1 = q
  blocked : ∀ q mode more, o.queue = (q, mode) :: more → ¬compatHolders mx o q mode = true →
    (u.lockObj asid lw).holders = o.holders ∧ (u.lockObj asid lw).queue = o.queue ∧ u.due = s.due

theorem GrantsRun.outcome {u : State} {mx : BitVec 25} {o : LockObj} {asid : BitVec 16} (h : GrantsRun s u mx o)
    (hasid : o.asid = asid) (hlw : o.lw = lw) : ReleaseOutcome s u mx o asid lw := by
  have hobj := h.obj
  rw [hasid, hlw] at hobj
  refine ⟨sameBytes_of_mem h.mem, h.tasks, fun hq => ?_, fun q mode more hq hfits => ?_, fun q mode more hq hclash => ?_⟩
  · have hgrants := grantStep_empty mx o.queue.length hq
    rw [hgrants] at hobj
    exact ⟨by rw [hobj], by rw [hobj, hq], h.none (by rw [hgrants])⟩
  · obtain ⟨hsent, hholder⟩ := grantStep_grants more.length hq hfits
    have hlen : o.queue.length = more.length + 1 := by rw [hq]; rfl
    rw [← hlen] at hsent hholder
    rw [hobj]
    exact hholder.imp_left fun hb => ⟨h.sent _ hsent, hb⟩
  · have hgrants := grantStep_blocked o.queue.length hq hclash
    rw [hgrants] at hobj
    exact ⟨by rw [hobj], by rw [hobj], h.none (by rw [hgrants])⟩

/-- A release at a Prefect where no ticket waits. -/
theorem prefectLockRelease_outcome (hticket : ∀ k ∈ s.prefects.tickets, k.1 ≠ lwHome lw) (mx : BitVec 25)
    (asid : BitVec 16) (tid : Word) :
    ReleaseOutcome s ((s.runGrants mx ((s.lockObj asid lw).released tid)).offerLock (lwHome lw)) mx
      ((s.lockObj asid lw).released tid) asid lw := by
  have hrun := grantsRun_runGrants s mx ((s.lockObj asid lw).released tid)
  obtain ⟨hasid, hlw⟩ := lockObj_key s asid lw
  rw [offerLock_none (by rw [hrun.tickets]; exact hticket)]
  exact hrun.outcome hasid hlw

end

/-- Settles O19, by the way a request, a try, a release, a grant and a refused request take at their Prefect. -/
theorem prefectRules : Obligations.PrefectRules := by
  intro s tid lw m id t ht c o home compatible now free room core first crowded holds has granted queued
  obtain rfl : t.tid = tid := task?_tid ht
  have hnow : s.grantsNow t lw m = true ↔ now := grantAtOnce_iff
  have hgranted {i : Instr} {u : State} {p : State → Prop} (hexec : exec i s = .next u)
      (h : GrantOutcome s u t c.asid lw m) (hp : p u) : granted i p := by
    obtain ⟨y, hy, hlock, hwait, hr⟩ := h.task
    exact ⟨u, y, hexec, h.same, ⟨h.holder, h.others⟩, hy, hlock, hwait, hr, hp⟩
  have hqueued {i : Instr} {u : State} {p : State → Prop} (hexec : exec i s = .next u)
      (h : QueueOutcome s u t c.asid c.lkcompat lw m) (hp : p u) : queued i p := by
    obtain ⟨y, hy, hlocks, hwait, hphase⟩ := h.task
    obtain ⟨before, after, hqueue, hinserted, hbefore, hafter⟩ := h.queue
    exact ⟨u, y, before, after, hexec, h.same, h.regs, hy, hlocks, hwait, hqueue, hinserted, hbefore, hafter, h.wounds,
      fun _ => hphase, hp⟩
  have hheld {u v : State} (hprefects : v.prefects = u.prefects) (h : HeldAfter s u c.asid lw t.tid m) : holds v := by
    have hobj : v.lockObj c.asid lw = u.lockObj c.asid lw := lockObj_of_objs (by rw [hprefects]) c.asid lw
    obtain ⟨hholder, hothers⟩ := h
    exact ⟨by rw [hobj]; exact hholder, by rw [hobj]; exact hothers⟩
  have hbusy : ¬now ∨ crowded → s.grantsNow t lw m = false ∨ crowded := Or.imp_left fun h => Bool.eq_false_iff.2 (hnow.not.2 h)
  refine ⟨?request, ?tried, ?answer, ?offer, ?release, ?grant, ?retry⟩
  case request =>
    intro harg hwait parks
    have hexec := exec_prefectLockRequest harg ht hwait
    refine ⟨fun hlater => hexec.trans (congrArg _ (inLockOrder_later hlater)), fun hfirst hport => ?_,
      fun hfirst hport => ?_⟩
    · rw [inLockOrder_first hfirst] at hexec
      refine ⟨fun hn hroom => ?_, fun hn hroom => ?_, fun hcrowded => ?_⟩
      · rw [lockRequest_decides hport hroom.1.1 hroom.1.2 hroom.2] at hexec
        exact hgranted hexec (decideLock_grants ht (hnow.2 hn)).1 trivial
      · rw [lockRequest_decides hport hroom.1.1 hroom.1.2 hroom.2] at hexec
        exact hqueued hexec (decideLock_queues ht hwait (hnow.not.2 hn)).1 trivial
      · rw [lockRequest_crowded hport hcrowded.1 hcrowded.2] at hexec
        obtain ⟨hpark, hcount, hdue⟩ := lockRequest_refuses ht hwait
        obtain ⟨y, hy, hywait⟩ := hpark.task
        exact ⟨_, y, hexec, hpark.same, hpark.regs, hy, hywait, hpark.objs, hpark.refused, hcount, hdue⟩
    · rw [inLockOrder_first hfirst, lockRequest_ported hport] at hexec
      obtain ⟨hpark, hbehind⟩ := lockRequest_waits_behind ht hwait (lwHome lw)
      obtain ⟨y, hy, hywait⟩ := hpark.task
      exact ⟨_, y, hexec, hpark.same, hpark.regs, hy, hywait, hpark.objs, hpark.refused, hbehind⟩
  case tried =>
    intro harg hfirst hn hroom hinfl
    have hexec := exec_prefectLockTry harg ht
    rw [inLockOrder_first hfirst, lockTry_granted (hnow.2 hn) hroom.1.1 hroom.1.2 hroom.2, lockTry_silent ht hinfl] at hexec
    obtain ⟨y, hy, hlock, hr, _⟩ := tryGranted_task (lw := lw) (m := m) ht
    exact ⟨_, y, hexec, sameBytes_of_mem rfl, hy, heldAfter_tryGranted s t lw m, hlock, hr⟩
  case answer =>
    intro e harg hfirst he hshadow hphase answers
    have hexec := exec_prefectLockTry harg ht
    rw [inLockOrder_first hfirst] at hexec
    refine ⟨fun hn hroom => ?_, fun hno => ?_⟩
    · rw [lockTry_granted (hnow.2 hn) hroom.1.1 hroom.1.2 hroom.2] at hexec
      obtain ⟨y, hanswer, hlock, hprefects⟩ := lockTry_one (lw := lw) (m := m) ht he hshadow hphase
      exact ⟨_, y, hexec, hanswer.same, hanswer.task, hanswer.reg, hanswer.wait,
        hheld hprefects (heldAfter_tryGranted s t lw m), hlock⟩
    · rw [lockTry_busy (hbusy hno)] at hexec
      obtain ⟨y, hanswer, hlocks, hprefects⟩ := lockTry_zero ht he hshadow hphase
      exact ⟨_, y, hexec, hanswer.same, hanswer.task, hanswer.reg, hanswer.wait, hprefects, hlocks⟩
  case offer => exact fun k hk hfree => offerLock_offers hk hfree.1 hfree.2
  case release =>
    intro harg hholds hticket
    have houtcome := prefectLockRelease_outcome (s := s) (lw := lw) hticket c.lkcompat c.asid t.tid
    refine ⟨_, exec_prefectLockRelease harg ht hholds, houtcome.same, houtcome.tasks, ?_⟩
    intro rest
    have hrest : (o.released t.tid).holders = rest := List.filter_congr fun h _ => by by_cases hh : h.1 = t.tid <;> simp [hh]
    rw [← hrest]
    refine ⟨houtcome.empty, fun q mode more hq => ⟨fun hfits => ?_, fun hclash => ?_⟩⟩
    · exact houtcome.fits q mode more hq (compatHolders_iff.2 hfits)
    · exact houtcome.blocked q mode more hq (compatHolders_iff.not.2 hclash)
  case grant =>
    intro harg hwait hholds
    obtain ⟨houtcome, hprefects⟩ := lockGrant_outcome ht hholds
    exact hgranted (exec_lockGrant harg ht hwait hholds) houtcome hprefects
  case retry =>
    intro r harg hr hlw hmode hwait hfirst gone mine waiting
    subst hlw hmode
    have hexec := exec_lockRefusalRetry harg ht hr hfirst
    have hgrants (he : s.lockRetry t r = (s.dropRefusal t.tid).decideLock t r.lw r.mode) (hn : now) :
        granted .lockRefusalRetry gone := by
      obtain ⟨houtcome, hgone⟩ := dropRefusal_grants ht (hnow.2 hn)
      exact hgranted (hexec.trans (congrArg _ he)) houtcome ⟨hgone.refused, hgone.tickets, hgone.held, hgone.behind⟩
    have hqueues (he : s.lockRetry t r = (s.dropRefusal t.tid).decideLock t r.lw r.mode) (hn : ¬now) :
        queued .lockRefusalRetry gone := by
      obtain ⟨houtcome, hgone⟩ := dropRefusal_queues ht hwait (hnow.not.2 hn)
      exact hqueued (hexec.trans (congrArg _ he)) houtcome ⟨hgone.refused, hgone.tickets, hgone.held, hgone.behind⟩
    refine ⟨fun h2 hbehind => hexec.trans (congrArg _ (lockRetry_behind h2 hbehind)), fun h2 hbehind hport => ?_,
      fun h2 hbehind hport => ⟨fun hn hfree => ?_, fun hn hfree => ?_, fun hcrowded => ?_⟩, fun h2 hmine => ⟨fun hn => ?_,
      fun hn => ?_⟩, fun h2 hmine => hexec.trans (congrArg _ (lockRetry_unheld h2 hmine))⟩
    · exact ⟨_, hexec.trans (congrArg _ (lockRetry_ported h2 hbehind hport)), rfl, rfl, rfl⟩
    · exact hgrants (lockRetry_decides h2 hbehind hport hfree.1 hfree.2) hn
    · exact hqueues (lockRetry_decides h2 hbehind hport hfree.1 hfree.2) hn
    · refine ⟨_, hexec.trans (congrArg _ (lockRetry_tickets h2 hbehind hport hcrowded.1 hcrowded.2)), rfl, rfl, rfl, ?_⟩
      have htid : r.tid = t.tid := by simpa using List.find?_some hr
      exact List.mem_map.2 ⟨r, List.mem_of_find?_eq_some hr, by rw [htid, if_pos (beq_self_eq_true _)]⟩
    · exact hgrants (lockRetry_held h2 hmine) hn
    · exact hqueues (lockRetry_held h2 hmine) hn

end Sys2Proof.Machine
end

section
/-! PROOF. What the work of an engine leaves of its unit (15 R406): the clock of cycles, the operations in flight, and the
canonical form of memory; and what waits for rolls that end leave (14 R381). -/

namespace Sys2Proof.Machine

open Sys2Proof

/-- The clock of cycles and the operations in flight stand, and memory keeps its canonical form. -/
structure Worked (s u : State) : Prop where
  cycle : u.cycle = s.cycle
  ops : u.engines.ops = s.engines.ops
  wf : s.mem.wf = true → u.mem.wf = true

/-- The ends of waits for rolls: the fabric, the engines, the clock and the scratchpads stand. -/
structure RollsPoked (s u : State) : Prop where
  fabric : u.fabric = s.fabric
  engines : u.engines = s.engines
  cycle : u.cycle = s.cycle
  sram : u.mem.sram = s.mem.sram
  wf : s.mem.wf = true → u.mem.wf = true

section
variable {s u v : State}

theorem Worked.refl (s : State) : Worked s s := ⟨rfl, rfl, id⟩

theorem Worked.trans (h : Worked s u) (k : Worked u v) : Worked s v :=
  ⟨k.cycle.trans h.cycle, k.ops.trans h.ops, fun hs => k.wf (h.wf hs)⟩

theorem Sent.worked (h : Sent s u) : Worked s u := ⟨h.cycle, by rw [h.engines], fun hs => by rw [h.mem]; exact hs⟩

theorem Noted.worked (h : Noted s u) : Worked s u := by
  have hwf := h.wf
  obtain ⟨_, _, _, _, _, _, _, _, _, _, _, _, rfl⟩ := h.shape
  exact ⟨rfl, rfl, fun hs => by rw [hwf]; exact hs⟩

theorem worked_foldl {α : Type} (f : State → α → State) (h : ∀ s a, Worked s (f s a)) (l : List α) (s : State) :
    Worked s (l.foldl f s) := by
  induction l generalizing s with
  | nil => exact Worked.refl s
  | cons a l ih => exact (h s a).trans (ih _)

/-! ## Waits for rolls that end -/

theorem RollsPoked.refl (s : State) : RollsPoked s s := ⟨rfl, rfl, rfl, rfl, id⟩

theorem RollsPoked.trans (h : RollsPoked s u) (k : RollsPoked u v) : RollsPoked s v :=
  ⟨k.fabric.trans h.fabric, k.engines.trans h.engines, k.cycle.trans h.cycle, k.sram.trans h.sram,
    fun hs => k.wf (h.wf hs)⟩

theorem RollsPoked.worked (h : RollsPoked s u) : Worked s u := ⟨h.cycle, by rw [h.engines], h.wf⟩

theorem rollsPoked_physWrite (s : State) (slot pa : Nat) (bs : List Byte) : RollsPoked s (s.physWrite slot pa bs) := by
  have hrekey (u : State) (l : Nat) : RollsPoked u (u.rekey slot l) := by
    refine ⟨?_, ?_, ?_, ?_, fun hs => State.rekey_wf hs slot l⟩
    all_goals
      unfold State.rekey
      split
      · rfl
      · dsimp only
        split <;> rfl
  have hall : RollsPoked s ((linesOf pa bs.length).foldl (fun s l => s.rekey slot l) s) :=
    List.foldlRecOn (motive := fun u => RollsPoked s u) _ _ (RollsPoked.refl s) fun u hu l _ => hu.trans (hrekey u l)
  have hwf (hs : s.mem.wf = true) := State.physWrite_wf hs slot pa bs
  obtain ⟨hfabric, hengines, hcycle, hsram, _⟩ := hall
  refine ⟨?_, ?_, ?_, ?_, hwf⟩
  all_goals
    unfold State.physWrite
    split
    · rfl
    · assumption

theorem RollsPoked.modTask (h : RollsPoked s u) (w : Word) (f : Task → Task) : RollsPoked s (u.modTask w f) :=
  ⟨h.fabric, h.engines, h.cycle, h.sram, h.wf⟩

theorem rollsPoked_physRead (s : State) (slot pa n : Nat) : RollsPoked s (s.physRead slot pa n).2 := by
  unfold State.physRead
  dsimp only
  split
  · exact RollsPoked.refl s
  · exact ⟨rfl, rfl, rfl, rfl, id⟩

theorem rollsPoked_landFor (s : State) (tid : Word) (id : Nat) (v : RegVal) : RollsPoked s (s.landFor tid id v) := by
  have hframe (t : Task) (e : Infl) : RollsPoked s (s.landFrame t e v) :=
    (rollsPoked_physRead s _ _ _).trans (rollsPoked_physWrite _ _ _ _)
  unfold State.landFor
  split
  · exact RollsPoked.refl s
  · split
    · exact RollsPoked.refl s
    · dsimp only
      refine RollsPoked.modTask ?_ _ _
      split
      · exact hframe _ _
      · exact RollsPoked.refl s

theorem Woken.rollsPoked {w : Word} (h : Woken s u w) : RollsPoked s u := by
  obtain ⟨_, _, _, rfl⟩ := h.shape
  exact ⟨rfl, rfl, rfl, rfl, id⟩

/-- A fault that joins the queue of a task whose wait has just ended. -/
theorem rollsPoked_wake_fault (s : State) (tid : Word) (f : FaultRec) :
    RollsPoked s (s.wake tid) ∧ RollsPoked s ((s.wake tid).queueFault tid f) := by
  cases ht : s.task? tid with
  | none =>
    have hwake : s.wake tid = s := by simp only [State.wake, ht]
    have hfault : s.queueFault tid f = s := by simp only [State.queueFault, ht]
    rw [hwake, hfault]
    exact ⟨RollsPoked.refl s, RollsPoked.refl s⟩
  | some t =>
    have hwoken := woken_wake ht
    obtain ⟨_, _, _, hy⟩ := hwoken.task t ht
    rw [queueFault_stays hy (.inr (.inl rfl))]
    exact ⟨hwoken.rollsPoked, hwoken.rollsPoked.modTask _ _⟩

theorem rollsPoked_pokeRolls (s : State) (faddr : Nat) : RollsPoked s (s.pokeRolls faddr) := by
  unfold State.pokeRolls
  refine List.foldlRecOn (motive := fun u => RollsPoked s u) _ _ (RollsPoked.refl s) fun u hu t _ => hu.trans ?_
  split
  · next a id _ _ =>
    dsimp only
    split
    · exact RollsPoked.refl u
    · have hland := rollsPoked_landFor u t.tid id
        (.word (leWord ((u.sramRead (scratchCore a) (a % 2 ^ 21) 16).drop 8)))
      generalize u.landFor t.tid id _ = x at hland ⊢
      have hready : RollsPoked u ((x.acquireBy t.tid (Task.onCore t) .pkg).modTask t.tid fun t => { t with redo := none }) := by
        obtain ⟨hfabric, hengines, hcycle, hsram, hwf⟩ := hland
        exact ⟨hfabric, hengines, hcycle, hsram, hwf⟩
      obtain ⟨hwake, hfault⟩ := rollsPoked_wake_fault
        ((x.acquireBy t.tid (Task.onCore t) .pkg).modTask t.tid fun t => { t with redo := none }) t.tid
        { code := BitVec.ofNat 16 (Roll.ofBytes (u.sramRead (scratchCore a) (a % 2 ^ 21) 16)).code
          addr := BitVec.ofNat 64 faddr, info := BitVec.ofNat 64 a, deferred := true, engine := true }
      split
      · exact hready.trans hwake
      · exact hready.trans hfault
  · exact RollsPoked.refl u

/-! ## Writes of an engine -/

theorem worked_sramWrite (s : State) (core off : Nat) (bs : List Byte) : Worked s (s.sramWrite core off bs) :=
  ⟨rfl, rfl, fun hs => State.sramWrite_wf hs core off bs⟩

theorem worked_locWrite (s : State) (ctx va : Nat) (loc : Loc) (bs : List Byte) (evf : Bool) :
    Worked s (s.locWrite ctx va loc bs evf) := by
  unfold State.locWrite
  split
  · exact (rollsPoked_physWrite _ _ _ _).worked.trans (worked_foldl _ (fun s l => (noted_touchL2 _ _ _ _ _).worked) _ _)
  · exact (worked_sramWrite _ _ _ _).trans (rollsPoked_pokeRolls _ _).worked
  · exact Worked.refl s

theorem worked_remoteSend (s : State) (die : Nat) (unit : BitVec 16) (ctx : Nat) (p : Packet) (use : RemoteUse) :
    Worked s (s.remoteSend die unit ctx p use) := by
  unfold State.remoteSend State.remoteSendVia
  dsimp only
  have hentered (f : Fabric → Fabric) : Worked s (s.fresh.2.onFabric f) := ⟨rfl, rfl, id⟩
  exact (hentered _).trans (sent_pumpRemotes _).worked

theorem worked_engStore (o : EngineOp) (plan : List (Nat × Nat × Loc)) (s : State) (bs : List Byte) :
    Worked s (s.engStore o plan bs) := by
  induction plan generalizing s bs with
  | nil => exact Worked.refl s
  | cons x plan ih =>
    obtain ⟨va, n, loc⟩ := x
    unfold State.engStore
    refine Worked.trans ?_ (ih _ _)
    split
    · exact worked_foldl _ (fun s x => worked_remoteSend s _ _ _ _ _) _ s
    · exact worked_locWrite s _ _ _ _ _

end

/-! ## The work of an operation (15 R406) -/

/-- A piece of an operation's work leaves its unit as it was. -/
def Eng.Works {α : Type} (m : Eng α) : Prop := ∀ s, Worked s (m s).2

section
variable {α β : Type}

theorem Eng.works_pure (a : α) : Eng.Works (pure a : Eng α) := Worked.refl

theorem Eng.works_modify {f : State → State} (h : ∀ s, Worked s (f s)) : Eng.Works (modify f : Eng PUnit) := h

theorem Eng.Works.bind {m : Eng α} {f : α → Eng β} (h : m.Works) (k : ∀ a, (f a).Works) : (m >>= f).Works := by
  intro s
  have hm := h s
  change Worked s ((ExceptT.bindCont f (m s).1) (m s).2).2
  revert hm
  cases m s with
  | mk r u =>
    cases r with
    | error e => exact fun hm => hm
    | ok a => exact fun hm => hm.trans (k a u)

end

end Sys2Proof.Machine
end

section
/-! PROOF. O54: the bytes that a collective that stops early may have written leave the unit as it was (02 R57; 15 R406). -/

namespace Sys2Proof.Machine

open Sys2Proof

section
variable {α β : Type}

/-- A piece of work that begins with the state it finds. -/
theorem Eng.works_get_bind {f : State → Eng β} (h : ∀ s, Worked s (f s s).2) : Eng.Works (get >>= f) := h

theorem Eng.works_mapM {f : α → Eng β} (h : ∀ a, (f a).Works) (l : List α) : (l.mapM f).Works := by
  induction l with
  | nil => rw [List.mapM_nil]; exact Eng.works_pure _
  | cons a l ih =>
    rw [List.mapM_cons]
    exact (h a).bind fun b => ih.bind fun bs => Eng.works_pure _

theorem works_engLoc (o : EngineOp) (va n : Nat) (kind : AccKind) : (engLoc o va n kind).Works := by
  unfold engLoc
  refine Eng.works_get_bind fun s => ?_
  cases (s.opNow o).pinLoc va with
  | some loc => exact Worked.refl s
  | none =>
    cases s.ctxAccess o.ctx va n kind with
    | bad => exact Worked.refl s
    | miss => exact Worked.refl s
    | resolve => exact Worked.refl s
    | ok loc =>
      dsimp only
      cases s.viaForward o.die loc va with
      | bad => exact Worked.refl s
      | miss => exact Worked.refl s
      | resolve => exact Worked.refl s
      | ok l => exact (noted_fwdUse s o.die _).worked

theorem works_engTurn (o : EngineOp) (remote : Bool) : (engTurn o remote).Works := by
  unfold engTurn
  refine Eng.works_get_bind fun s => ?_
  split <;> exact Worked.refl s

theorem works_engLocs (o : EngineOp) (va n : Nat) (kind : AccKind) : (engLocs o va n kind).Works := by
  unfold engLocs
  refine Eng.works_mapM (fun x => ?_) _
  exact (works_engLoc o x.1 x.2 kind).bind fun loc => Eng.works_pure (x.1, x.2, loc)

theorem works_engPlan (o : EngineOp) (va n : Nat) : (engPlan o va n).Works := by
  unfold engPlan
  refine (works_engLocs o va n .store).bind fun locs => ?_
  refine (works_engTurn o _).bind fun _ => Eng.works_get_bind fun s => ?_
  cases locs.find? fun x => s.partPoison x.2.2 x.2.1 with
  | some x => exact Worked.refl s
  | none => exact Worked.refl s

theorem works_engFree (n : Nat) : (engFree n).Works := by
  unfold engFree
  refine Eng.works_get_bind fun s => ?_
  have hfree : Worked s (s.freeBytes n).2 := (sent_bumpFree s n).worked
  generalize s.freeBytes n = r at hfree ⊢
  exact hfree

theorem works_engPut (o : EngineOp) (plan : List (Nat × Nat × Loc)) (bs : List Byte) : (engPut o plan bs).Works := by
  unfold engPut engCount
  exact (Eng.works_modify fun s => (noted_countBytes s _ _ _).worked).bind fun _ =>
    Eng.works_modify fun s => worked_engStore o plan s bs

end

theorem worked_choose (s : State) (n : Nat) : Worked s (s.choose n).2 := (sent_bumpFree s 1).worked

theorem worked_dirtyRange (s : State) (o : EngineOp) : Worked s (s.dirtyRange o).2.2 := by
  have hchosen (n m : Nat) : Worked s ((s.choose n).2.choose m).2 := (worked_choose s n).trans (worked_choose _ m)
  have hbody (dst lo hi : Nat) : Eng.Works (do
      let plan ← engPlan o (dst + lo) (hi - lo)
      engPut o plan (← engFree (hi - lo))) :=
    (works_engPlan o _ _).bind fun plan => (works_engFree _).bind fun bs => works_engPut o plan bs
  unfold State.dirtyRange
  dsimp only
  split
  · exact hchosen ((collDst o).2 + 1) ((s.choose ((collDst o).2 + 1)).1 + 1)
  · split
    · next hwork =>
      exact (hchosen ((collDst o).2 + 1) ((s.choose ((collDst o).2 + 1)).1 + 1)).trans
        (congrArg Prod.snd hwork ▸ hbody _ _ _ _)
    · exact hchosen ((collDst o).2 + 1) ((s.choose ((collDst o).2 + 1)).1 + 1)

theorem worked_sendAborts (s : State) (hub : Nat) (c : CollState) : Worked s (s.sendAborts hub c) := by
  unfold State.sendAborts
  exact worked_foldl _ (fun s m => (sent_sendPacket s _ _).worked) _ s

end Sys2Proof.Machine
end

section
/-! PROOF. O54: a collective that stops leaves its status in its block, and is open no longer (02 R57; 15 R406, R413). -/

namespace Sys2Proof.Machine

open Sys2Proof

/-! ## Places in the window of the scratchpads (05 R141) -/

/-- The key of the byte at a window offset. -/
def windowKey (off : Nat) : Nat := sramKey (windowPlace off).1 (windowPlace off).2

/-- The bytes of a block of 128 lie one behind the other. -/
theorem windowKey_block {b k : Nat} (hb : b % 128 = 0) (hk : k < 128) : windowKey (b + k) = windowKey b + k := by
  have hblock : (scratchBase + (b + k)) / 2 ^ 21 = (scratchBase + b) / 2 ^ 21 := by unfold scratchBase; omega
  have hcore : scratchCore (scratchBase + (b + k)) = scratchCore (scratchBase + b) := by
    have hwide : (scratchBase + (b + k)) / 2 ^ 29 = (scratchBase + b) / 2 ^ 29 := by unfold scratchBase; omega
    have hcluster : (scratchBase + (b + k)) / 2 ^ 24 = (scratchBase + b) / 2 ^ 24 := by unfold scratchBase; omega
    unfold scratchCore scratchCluster
    rw [hblock, hwide, hcluster]
  unfold windowKey windowPlace sramKey
  rw [hcore]
  dsimp only
  omega

section
variable {s u v : State}

theorem windowRead_eq (s : State) (off n : Nat) : s.windowRead off n = cellsRead s.mem.sram (windowKey off) n := rfl

theorem windowWrite_sram (s : State) (off : Nat) (bs : List Byte) :
    (s.windowWrite off bs).mem.sram = cellsWrite s.mem.sram (windowKey off) bs := rfl

theorem windowRead_windowWrite_same (hs : s.mem.wf = true) (off : Nat) (bs : List Byte) :
    (s.windowWrite off bs).windowRead off bs.length = bs := by
  rw [windowRead_eq, windowWrite_sram, cellsRead_cellsWrite_same (Mem.wf_iff.1 hs).2]

theorem windowRead_windowWrite_other {off off' n : Nat} {bs : List Byte}
    (h : windowKey off + n ≤ windowKey off' ∨ windowKey off' + bs.length ≤ windowKey off) :
    (s.windowWrite off' bs).windowRead off n = s.windowRead off n := by
  rw [windowRead_eq, windowWrite_sram, cellsRead_cellsWrite_outside _ _ _ _ _ h, ← windowRead_eq]

/-! ## The status in the block (15 R413) -/

/-- CSTAT reads what was written. -/
theorem windowRead_writeCstat {o : EngineOp} (hs : s.mem.wf = true) (hblock : o.pblk % 128 = 0) {at_ : Nat}
    (hat : (o.eop = 0x0B ∧ at_ = 0x60) ∨ (o.eop = 0x0A ∧ at_ = 0x68)) (st lo hi : Nat) :
    (s.writeCstat o st lo hi).windowRead (o.pblk + at_) 4 = natLe 4 st := by
  have hlen (n m : Nat) : (natLe n m).length = n := natLe_length _ _
  obtain ⟨a, hstat, ha⟩ : ∃ a, collStat o = (a, a + 8, a + 16) ∧ a = at_ ∧ a + 24 ≤ 128 := by
    unfold collStat
    rcases hat with ⟨heop, rfl⟩ | ⟨heop, rfl⟩
    · exact ⟨0x60, if_pos heop, rfl, by decide⟩
    · exact ⟨0x68, if_neg (by rw [heop]; decide), rfl, by decide⟩
  obtain ⟨rfl, hend⟩ := ha
  unfold State.writeCstat
  rw [hstat]
  dsimp only
  have hkey (k : Nat) (hk : k < 128) := windowKey_block hblock hk
  rw [windowRead_windowWrite_other, windowRead_windowWrite_other]
  · have hsame := windowRead_windowWrite_same hs (o.pblk + a) (natLe 4 st)
    rwa [hlen] at hsame
  · left
    rw [hkey a (by omega), hkey (a + 8) (by omega)]
    omega
  · left
    rw [hkey a (by omega), hkey (a + 16) (by omega)]
    omega

/-! ## The end of the command (15 R406; 07 R199) -/

/-- What the end of a command leaves of its block, of what is remembered of collectives, and of its operation. -/
structure CommandEnded (s u : State) (o : EngineOp) : Prop where
  block : ∀ k, 16 ≤ k → k + 4 ≤ 128 → u.windowRead (o.pblk + k) 4 = s.windowRead (o.pblk + k) 4
  done : u.fabric.collDone = s.fabric.collDone
  op : (∀ x ∈ s.engines.ops, x.id = o.id → x.coll = none) →
    ∀ x ∈ u.engines.ops, x.id = o.id → x.coll = none ∧ (x.ended = true ∨ x.release.isSome = true)

theorem mem_ops_modOp {id : Nat} {f : EngineOp → EngineOp} {x : EngineOp} (hx : x ∈ (s.modOp id f).engines.ops)
    (h : x.id = id) : ∃ y ∈ s.engines.ops, y.id = id ∧ x = f y := by
  obtain ⟨y, hy, rfl⟩ := List.mem_map.1 hx
  by_cases hyid : y.id = id
  · exact ⟨y, hy, hyid, if_pos (by simpa using hyid)⟩
  · rw [if_neg (by simpa using hyid)] at h
    exact absurd h hyid

/-- An operation that leaves stays ended in the list, or is taken from it. -/
theorem opLeaves_eq (s : State) (o : EngineOp) : ∃ u : State, u.mem.sram = s.mem.sram ∧ u.fabric = s.fabric ∧
    (s.opLeaves o = u.modOp o.id (fun o => { o with ended := true, started := true, coll := none }) ∨
      s.opLeaves o = u.onEngines fun e => { e with ops := e.ops.filter (·.id != o.id) }) := by
  unfold State.opLeaves
  dsimp only
  cases o.driveKey with
  | none =>
    dsimp only
    split
    · refine ⟨_, ?_, ?_, .inl rfl⟩ <;> rfl
    · refine ⟨_, ?_, ?_, .inr rfl⟩ <;> rfl
  | some k =>
    dsimp only
    split
    · refine ⟨_, ?_, ?_, .inl rfl⟩ <;> rfl
    · refine ⟨_, ?_, ?_, .inr rfl⟩ <;> rfl

theorem opLeaves_ops (s : State) (o : EngineOp) :
    ∀ x ∈ (s.opLeaves o).engines.ops, x.id = o.id → x.coll = none ∧ (x.ended = true ∨ x.release.isSome = true) := by
  intro x hx hid
  obtain ⟨u, _, _, h | h⟩ := opLeaves_eq s o
  · rw [h] at hx
    obtain ⟨y, _, _, rfl⟩ := mem_ops_modOp hx hid
    exact ⟨rfl, .inl rfl⟩
  · rw [h] at hx
    have hne := (List.mem_filter.1 hx).2
    simp [hid] at hne

theorem opLeaves_rest (s : State) (o : EngineOp) :
    (s.opLeaves o).mem.sram = s.mem.sram ∧ (s.opLeaves o).fabric = s.fabric := by
  obtain ⟨u, hsram, hfabric, h | h⟩ := opLeaves_eq s o
  · rw [h]
    exact ⟨hsram, hfabric⟩
  · rw [h]
    exact ⟨hsram, hfabric⟩

theorem engRelease_rest (s : State) (o : EngineOp) : (s.engRelease o).2.mem = s.mem ∧
    (s.engRelease o).2.fabric = s.fabric ∧ (s.engRelease o).2.engines = s.engines := by
  unfold State.engRelease
  split <;> exact ⟨rfl, rfl, rfl⟩

theorem Roll.bytes_length (r : Roll) : r.bytes.length = 16 := by
  have hlen (n m : Nat) : (natLe n m).length = n := natLe_length _ _
  simp only [Roll.bytes, List.length_append, hlen]

/-- The roll has its bytes: nothing else of the scratchpads changes. -/
theorem setRoll_rest (s : State) (off : Nat) (r : Roll) (faddr : Nat) :
    (s.setRoll (windowPlace off).1 (windowPlace off).2 r faddr).mem.sram = (s.windowWrite off r.bytes).mem.sram ∧
      (s.setRoll (windowPlace off).1 (windowPlace off).2 r faddr).fabric = s.fabric := by
  have hpoked := rollsPoked_pokeRolls (s.sramWrite (windowPlace off).1 (windowPlace off).2 r.bytes) faddr
  exact ⟨hpoked.sram, hpoked.fabric⟩

theorem engFinish_ended {o : EngineOp} (hblock : o.pblk % 128 = 0)
    (hroll : windowKey o.roll + 16 ≤ windowKey o.pblk ∨ windowKey o.pblk + 128 ≤ windowKey o.roll) (code faddr : Nat) :
    CommandEnded s (s.engFinish o code faddr) o := by
  have hlen (n m : Nat) : (natLe n m).length = n := natLe_length _ _
  obtain ⟨hmem, hfabric, hengines⟩ := engRelease_rest s o
  unfold State.engFinish
  dsimp only
  generalize s.engRelease o = released at hmem hfabric hengines ⊢
  obtain ⟨k, s0⟩ := released
  dsimp only at hmem hfabric hengines ⊢
  split
  · refine ⟨fun _ _ _ => ?_, by rw [← hfabric]; rfl, fun hcoll x hx hid => ?_⟩
    · rw [windowRead_eq, windowRead_eq, ← hmem]
      rfl
    · obtain ⟨y, hy, hyid, rfl⟩ := mem_ops_modOp hx hid
      rw [hengines] at hy
      exact ⟨hcoll y hy hyid, .inr rfl⟩
  · generalize (if code = 0 then
        ((s0.windowWrite (o.pblk + 8) (natLe 8 faddr)).roll (windowPlace o.roll).1 (windowPlace o.roll).2).arrive
          (o.field 0 4)
      else ((s0.windowWrite (o.pblk + 8) (natLe 8 faddr)).roll (windowPlace o.roll).1
        (windowPlace o.roll).2).complete code) = r
    obtain ⟨hsram, hrolled⟩ := setRoll_rest (s0.windowWrite (o.pblk + 8) (natLe 8 faddr)) o.roll r faddr
    obtain ⟨hleftSram, hleftFabric⟩ := opLeaves_rest
      ((s0.windowWrite (o.pblk + 8) (natLe 8 faddr)).setRoll (windowPlace o.roll).1 (windowPlace o.roll).2 r faddr) o
    refine ⟨fun k hk hend => ?_, by rw [hleftFabric, hrolled, ← hfabric]; rfl, fun _ => opLeaves_ops _ o⟩
    have hkey := windowKey_block hblock (show k < 128 by omega)
    have hkey8 := windowKey_block hblock (show 8 < 128 by decide)
    rw [windowRead_eq, hleftSram, hsram, ← windowRead_eq, windowRead_windowWrite_other, windowRead_windowWrite_other,
      windowRead_eq, windowRead_eq, hmem]
    · right
      rw [hlen, hkey, hkey8]
      omega
    · rw [Roll.bytes_length, hkey]
      omega

/-! ## A collective that stops -/

/-- What `stops` of the statement asks. -/
structure CollStopped (s u : State) (o : EngineOp) (c : CollState) (st at_ : Nat) : Prop where
  status : u.windowRead (o.pblk + at_) 4 = natLe 4 st
  done : (c.collid, s.cycle) ∈ u.fabric.collDone
  op : ∀ x ∈ u.engines.ops, x.id = o.id → x.coll = none ∧ (x.ended = true ∨ x.release.isSome = true)

theorem writeCstat_rest (s : State) (o : EngineOp) (st lo hi : Nat) : (s.writeCstat o st lo hi).cycle = s.cycle ∧
    (s.writeCstat o st lo hi).fabric = s.fabric := ⟨rfl, rfl⟩

theorem collStop_stopped {o : EngineOp} {c : CollState} {st at_ : Nat} (hs : s.mem.wf = true) (hblock : o.pblk % 128 = 0)
    (hroll : windowKey o.roll + 16 ≤ windowKey o.pblk ∨ windowKey o.pblk + 128 ≤ windowKey o.roll)
    (hat : (o.eop = 0x0B ∧ at_ = 0x60) ∨ (o.eop = 0x0A ∧ at_ = 0x68)) :
    CollStopped s (s.collStop o c st) o c st at_ := by
  have hworked := worked_dirtyRange s o
  unfold State.collStop
  generalize s.dirtyRange o = range at hworked ⊢
  obtain ⟨lo, hi, s1⟩ := range
  dsimp only at hworked ⊢
  have hstatus := windowRead_writeCstat (hworked.wf hs) hblock hat st lo hi
  obtain ⟨hcycle, _⟩ := writeCstat_rest s1 o st lo hi
  generalize s1.writeCstat o st lo hi = s2 at hstatus hcycle ⊢
  have hended := engFinish_ended (s := (s2.collClosed c.collid).modOp o.id fun o => { o with coll := none })
    (o := { o with coll := none }) hblock hroll 0 0
  have hrange : 16 ≤ at_ ∧ at_ + 4 ≤ 128 := by omega
  refine ⟨(hended.block at_ hrange.1 hrange.2).trans hstatus, ?_, hended.op fun x hx hid => ?_⟩
  · rw [hended.done]
    exact List.mem_cons.2 (.inl (by rw [hcycle, hworked.cycle]))
  · obtain ⟨y, _, _, rfl⟩ := mem_ops_modOp hx hid
    rfl

/-- A collective that this chip leaves, with abort frames sent. -/
theorem collAbort_stopped {o : EngineOp} {c : CollState} {at_ : Nat} (hs : s.mem.wf = true) (hblock : o.pblk % 128 = 0)
    (hroll : windowKey o.roll + 16 ≤ windowKey o.pblk ∨ windowKey o.pblk + 128 ≤ windowKey o.roll)
    (hat : (o.eop = 0x0B ∧ at_ = 0x60) ∨ (o.eop = 0x0A ∧ at_ = 0x68)) :
    CollStopped s (s.collAbort o c) o c 1 at_ := by
  have hsent := worked_sendAborts s o.die c
  obtain ⟨hstatus, hdone, hop⟩ := collStop_stopped (c := c) (st := 1) (hsent.wf hs) hblock hroll hat
  exact ⟨hstatus, by rw [← hsent.cycle]; exact hdone, hop⟩

end

end Sys2Proof.Machine
end

section
/-! PROOF. O54: collective data, abort frames and the limit of a collective (02 R56, R57; 15 R413). -/

namespace Sys2Proof.Machine

open Sys2Proof

section
variable {s : State} {o : EngineOp} {c : CollState} {hub : Nat} {p : Packet} {b : CollBody}

/-- The part that data of a packet is. -/
def partOf (p : Packet) (b : CollBody) : CollPart := ⟨p.src, if p.circuit then 0 else 1, 0, b⟩

theorem collOp_mem {collid : BitVec 32} (h : s.collOp collid = some (o, c)) : o ∈ s.engines.ops ∧ o.coll = some c := by
  obtain ⟨x, hx, hfound⟩ := List.exists_of_findSome?_eq_some h
  cases hcoll : x.coll with
  | none => rw [hcoll] at hfound; exact nomatch hfound
  | some d =>
    rw [hcoll] at hfound
    dsimp only at hfound
    split at hfound
    · obtain ⟨rfl, rfl⟩ := Prod.mk.inj (Option.some.inj hfound)
      exact ⟨hx, hcoll⟩
    · exact nomatch hfound

/-! ## Data that arrives -/

theorem exec_collectiveData (harg : s.arg = .coll hub p b) :
    exec .collectiveData s = .next (s.collTake p.collid (partOf p b)) := by
  change execCollectiveData s = _
  simp only [execCollectiveData, harg]
  rfl

theorem collTake_agrees {collid : BitVec 32} {x : CollPart} (h : s.collOp collid = some (o, c))
    (hagrees : collAgrees o x.body = true) : s.collTake collid x =
      (s.modOp o.id fun o => { o with coll := some { c with arrived := c.arrived ++ [x], lastProgress := s.cycle } }).post 0
        .engineComplete (.num o.id) := by
  simp only [State.collTake, h, hagrees, Bool.not_true, Bool.false_eq_true, if_false]

theorem collTake_disagrees {collid : BitVec 32} {x : CollPart} (h : s.collOp collid = some (o, c))
    (hagrees : collAgrees o x.body = false) : s.collTake collid x = s.collAbort o c := by
  simp only [State.collTake, h, hagrees, Bool.not_false, if_true]

theorem collTake_discards {collid : BitVec 32} {x : CollPart} (h : s.collOp collid = none)
    (hdone : ∃ d ∈ s.fabric.collDone, d.1 = collid ∧ s.cycle ≤ d.2 + 1048576) : s.collTake collid x = s := by
  have hany : (s.fabric.collDone.any fun d => d.1 == collid && decide (s.cycle ≤ d.2 + 2 ^ 20)) = true := by
    obtain ⟨d, hd, hid, htime⟩ := hdone
    exact List.any_eq_true.2 ⟨d, hd, by rw [hid]; simpa using htime⟩
  simp only [State.collTake, h, hany, if_true]

theorem collTake_keeps {collid : BitVec 32} {x : CollPart} (h : s.collOp collid = none)
    (hdone : ∀ d ∈ s.fabric.collDone, d.1 = collid → d.2 + 1048576 < s.cycle) : s.collTake collid x =
      s.onFabric fun f => { f with collEarly := f.collEarly ++ [(collid, x)] } := by
  have hany : (s.fabric.collDone.any fun d => d.1 == collid && decide (s.cycle ≤ d.2 + 2 ^ 20)) = false := by
    rw [List.any_eq_false]
    intro d hd
    by_cases hid : d.1 = collid
    · have := hdone d hd hid
      simpa [hid] using this
    · simp [hid]
  simp only [State.collTake, h, hany, Bool.false_eq_true, if_false]

/-! ## Abort frames and the limit -/

theorem exec_collectiveAbortFrame (harg : s.arg = .packet hub p) :
    exec .collectiveAbortFrame s = .next (match s.collOp p.collid with
      | some (o, c) => s.collAbort o c
      | none => s) := by
  change execCollectiveAbortFrame s = _
  simp only [execCollectiveAbortFrame, harg] <;> rfl

theorem exec_collectiveLimitTimeout (harg : s.arg = .num o.id) (ho : s.engines.ops.find? (·.id == o.id) = some o)
    (hc : o.coll = some c) : exec .collectiveLimitTimeout s = .next (if s.cycle < c.lastProgress + c.limit then
      s.post (c.lastProgress + c.limit - s.cycle) .collectiveLimitTimeout (.num o.id) else s.collStop o c 2) := by
  change execCollectiveLimitTimeout s = _
  simp only [execCollectiveLimitTimeout, harg, ho, hc]

end

/-- O54, collectives. -/
theorem collectiveRules : Claim.CollectiveRules := by
  intro s o c hinv key stops
  have hstops {ins : Instr} {st : Nat} {u : State} (hexec : exec ins s = .next u)
      (h : ∀ at_, (o.eop = 0x0B ∧ at_ = 0x60) ∨ (o.eop = 0x0A ∧ at_ = 0x68) → o.pblk % 128 = 0 →
        (windowKey o.roll + 16 ≤ windowKey o.pblk ∨ windowKey o.pblk + 128 ≤ windowKey o.roll) →
        CollStopped s u o c st at_) : stops ins st := by
    intro at_ hat hblock _ hroll
    obtain ⟨hstatus, hdone, hop⟩ := h at_ hat hblock hroll
    exact ⟨u, hexec, hstatus, hdone, hop⟩
  have haborts {ins : Instr} (hexec : exec ins s = .next (s.collAbort o c)) : stops ins 1 :=
    hstops hexec fun _ hat hblock hroll => collAbort_stopped hinv.1 hblock hroll hat
  refine ⟨fun hub p b harg => ?_, fun hub p harg => ?_, fun harg ho hc => ?_⟩
  · have hexec := exec_collectiveData harg
    refine ⟨fun hop hagrees => ?_, fun hop hagrees => ?_, fun hop => ⟨fun hdone => ?_, fun hdone => ?_⟩⟩
    · rw [collTake_agrees hop hagrees] at hexec
      refine ⟨_, _, hexec, ?_, rfl, mem_insertDue.2 (.inl rfl), rfl⟩
      exact List.mem_map.2 ⟨o, (collOp_mem hop).1, if_pos (beq_self_eq_true _)⟩
    · rw [collTake_disagrees hop hagrees] at hexec
      exact haborts hexec
    · rw [collTake_discards hop hdone] at hexec
      exact hexec
    · rw [collTake_keeps hop hdone] at hexec
      exact ⟨_, hexec, rfl⟩
  · have hexec := exec_collectiveAbortFrame harg
    refine ⟨fun hop => ?_, fun hop => ?_⟩
    · rw [hop] at hexec
      exact haborts hexec
    · rw [hop] at hexec
      exact hexec
  · have hexec := exec_collectiveLimitTimeout harg ho hc
    refine ⟨fun hover => ?_, fun hrest => ?_⟩
    · rw [if_neg (Nat.not_lt.2 hover)] at hexec
      exact hstops hexec fun _ hat hblock hroll => collStop_stopped hinv.1 hblock hroll hat
    · rw [if_pos hrest] at hexec
      refine ⟨_, hexec, mem_insertDue.2 (.inl ?_), rfl, rfl⟩
      rw [Nat.add_sub_cancel' hrest.le]

end Sys2Proof.Machine
end

section
/-! PROOF. O54: the devices of the CXL ports join the pool as far as it has room (02 R58). -/

namespace Sys2Proof.Machine

open Sys2Proof

/-- What a device can bring to the pool. -/
def cxlMost (d : CxlDevice) : Nat := d.capacity + d.logical.sum

/-- What enumeration leaves of a device's port. -/
def CxlEnumerated (d : CxlDevice) (u : State) : Prop :=
  (d.typeNo = 3 → ∃ n, (if d.logical = [] then n = d.capacity else n ∈ d.logical) ∧
    u.fabric.cxl.getD {} d.port = { enabled := true, capacity := n }) ∧
  (d.typeNo ≠ 3 → u.fabric.cxl.getD {} d.port = { enabled := false, capacity := 0 })

/-- The CXL ports have changed. -/
structure CxlChanged (s u : State) : Prop where
  mem : u.mem = s.mem
  tasks : u.tasks = s.tasks

section
variable {s u v : State}

theorem CxlChanged.trans (h : CxlChanged s u) (k : CxlChanged u v) : CxlChanged s v :=
  ⟨k.mem.trans h.mem, k.tasks.trans h.tasks⟩

/-- A port binds no more than its device has. -/
theorem cxlBind_bound (s : State) (d : CxlDevice) : (s.cxlBind d).1 ≤ cxlMost d ∧
    (if d.logical = [] then (s.cxlBind d).1 = d.capacity else (s.cxlBind d).1 ∈ d.logical) ∧
    (s.cxlBind d).2.mem = s.mem ∧ (s.cxlBind d).2.tasks = s.tasks ∧ (s.cxlBind d).2.fabric = s.fabric := by
  unfold State.cxlBind cxlMost
  cases hlogical : d.logical with
  | nil => exact ⟨Nat.le_add_right _ _, rfl, rfl, rfl, rfl⟩
  | cons x l =>
    dsimp only [List.isEmpty_cons]
    rw [if_neg Bool.false_ne_true, if_neg (List.cons_ne_nil _ _)]
    dsimp only
    have hlt : (s.choose (x :: l).length).1 < (x :: l).length := choose_lt s (Nat.succ_pos _)
    have hmem : (x :: l).getD (s.choose (x :: l).length).1 0 ∈ x :: l := by
      rw [List.getD_eq_getElem _ _ hlt]
      exact List.getElem_mem hlt
    exact ⟨(List.single_le_sum (fun _ _ => Nat.zero_le _) _ hmem).trans (Nat.le_add_left _ _), hmem, rfl, rfl, rfl⟩

/-- The pool grows by no more than the capacity that a port is given. -/
theorem cxlBelow_put {p : Nat} {x : CxlPort} (hp : p < 4) (hu : u.fabric.cxl = s.fabric.cxl.put p x) :
    u.cxlBelow 4 ≤ s.cxlBelow 4 + if x.enabled then x.capacity else 0 := by
  have hsame : u.cxlCap p = if x.enabled then x.capacity else 0 := by
    unfold State.cxlCap
    rw [hu, Tbl.getD_put_same]
  have hother (q : Nat) (hq : q ≠ p) : u.cxlCap q = s.cxlCap q := by
    unfold State.cxlCap
    rw [hu, Tbl.getD_put_other _ _ _ hq]
  simp only [State.cxlBelow]
  rw [← hsame]
  obtain rfl | rfl | rfl | rfl : p = 0 ∨ p = 1 ∨ p = 2 ∨ p = 3 := by omega
  · rw [hother 1 (by decide), hother 2 (by decide), hother 3 (by decide)]; omega
  · rw [hother 0 (by decide), hother 2 (by decide), hother 3 (by decide)]; omega
  · rw [hother 0 (by decide), hother 1 (by decide), hother 3 (by decide)]; omega
  · rw [hother 0 (by decide), hother 1 (by decide), hother 2 (by decide)]; omega

theorem recordEvent_fabric (s : State) (a b c d e : Nat) : (s.recordEvent a b c d e).fabric = s.fabric := by
  unfold State.recordEvent
  split <;> rfl

theorem recordEvent_tasks (s : State) (a b c d e : Nat) : (s.recordEvent a b c d e).tasks = s.tasks := by
  unfold State.recordEvent
  split <;> rfl

/-- One device: its port is as the statement asks where the pool has room, and the other ports stand. -/
theorem cxlDevice_enumerates {d : CxlDevice} (hport : d.port < 4) (hroom : s.cxlBelow 4 + cxlMost d ≤ 2 ^ 44) :
    CxlChanged s (s.cxlDevice d) ∧ CxlEnumerated d (s.cxlDevice d) ∧
      (∀ q, q ≠ d.port → (s.cxlDevice d).fabric.cxl.getD {} q = s.fabric.cxl.getD {} q) ∧
      (s.cxlDevice d).cxlBelow 4 ≤ s.cxlBelow 4 + cxlMost d := by
  obtain ⟨hmost, hbound, hmem, htasks, hfabric⟩ := cxlBind_bound s d
  unfold State.cxlDevice
  rw [if_neg (Nat.not_le.2 hport)]
  by_cases htype : d.typeNo = 3
  · rw [if_pos htype]
    dsimp only
    generalize s.cxlBind d = bound at hmost hbound hmem htasks hfabric ⊢
    obtain ⟨n, s1⟩ := bound
    dsimp only at hmost hbound hmem htasks hfabric ⊢
    have hmin : min n (poolMax - s.cxlBelow 4) = n := by unfold poolMax; omega
    rw [hmin]
    have hcxl : (s1.onFabric fun f => { f with cxl := f.cxl.put d.port { enabled := true, capacity := n } }).fabric.cxl =
        s.fabric.cxl.put d.port { enabled := true, capacity := n } := by
      rw [State.onFabric_fabric, hfabric]
    refine ⟨⟨hmem, htasks⟩, ⟨fun _ => ⟨n, hbound, by rw [hcxl, Tbl.getD_put_same]⟩, fun h => absurd htype h⟩, fun q hq => ?_,
      (cxlBelow_put hport hcxl).trans (Nat.add_le_add_left hmost _)⟩
    rw [hcxl, Tbl.getD_put_other _ _ _ hq]
  · rw [if_neg htype]
    have hcxl : ((s.onFabric fun f => { f with cxl := f.cxl.put d.port { enabled := false, capacity := 0 } }).recordEvent 5
        (cxlHub d.port) d.port 0 0).fabric.cxl = s.fabric.cxl.put d.port { enabled := false, capacity := 0 } := by
      rw [recordEvent_fabric, State.onFabric_fabric]
    refine ⟨⟨State.recordEvent_mem _ _ _ _ _ _, recordEvent_tasks _ _ _ _ _ _⟩,
      ⟨fun h => absurd h htype, fun _ => by rw [hcxl, Tbl.getD_put_same]⟩, fun q hq => ?_,
      (cxlBelow_put hport hcxl).trans (Nat.add_le_add_left (Nat.zero_le _) _)⟩
    rw [hcxl, Tbl.getD_put_other _ _ _ hq]

/-- All devices, on ports of their own. -/
theorem cxlDevices_enumerate (l : List CxlDevice) (s : State) (hports : (l.map (·.port)).Nodup)
    (hport : ∀ d ∈ l, d.port < 4) (hroom : s.cxlBelow 4 + (l.map cxlMost).sum ≤ 2 ^ 44) :
    CxlChanged s (l.foldl State.cxlDevice s) ∧ (∀ d ∈ l, CxlEnumerated d (l.foldl State.cxlDevice s)) ∧
      ∀ q, q ∉ l.map (·.port) → (l.foldl State.cxlDevice s).fabric.cxl.getD {} q = s.fabric.cxl.getD {} q := by
  induction l generalizing s with
  | nil => exact ⟨⟨rfl, rfl⟩, fun _ h => absurd h List.not_mem_nil, fun _ _ => rfl⟩
  | cons d l ih =>
    rw [List.map_cons, List.nodup_cons] at hports
    rw [List.map_cons, List.sum_cons] at hroom
    obtain ⟨hchanged, hdone, hothers, hbelow⟩ :=
      cxlDevice_enumerates (s := s) (hport d List.mem_cons_self) (by omega)
    obtain ⟨kchanged, kdone, kothers⟩ := ih (s.cxlDevice d) hports.2 (fun x hx => hport x (List.mem_cons_of_mem _ hx))
      (by omega)
    rw [List.foldl_cons]
    refine ⟨hchanged.trans kchanged, fun x hx => ?_, fun q hq => ?_⟩
    · rcases List.mem_cons.1 hx with rfl | hx
      · unfold CxlEnumerated
        rw [kothers x.port hports.1]
        exact hdone
      · exact kdone x hx
    · rw [List.map_cons, List.mem_cons, not_or] at hq
      rw [kothers q hq.2, hothers q hq.1]

/-- One of the allowed interleavings is taken. -/
theorem cxlWays_chosen (s : State) :
    s.cxlWaysAllowed.getD (s.choose s.cxlWaysAllowed.length).1 1 ∈ s.cxlWaysAllowed := by
  have hpos : 0 < s.cxlWaysAllowed.length := by
    unfold State.cxlWaysAllowed
    dsimp only
    split
    · exact Nat.succ_pos _
    · split <;> exact Nat.succ_pos _
  have hlt := choose_lt s hpos
  rw [List.getD_eq_getElem _ _ hlt]
  exact List.getElem_mem hlt

end

theorem exec_cxlEnumeration {s : State} {l : List CxlDevice} (harg : s.arg = .devs l) :
    ∃ u v, exec .cxlEnumeration s = .next u ∧ v = l.foldl State.cxlDevice (s.onFabric fun f => { f with cxl := [], cxlWays := 1 }) ∧
      CxlChanged v u ∧ u.fabric.cxl = v.fabric.cxl ∧ u.fabric.cxlWays ∈ u.cxlWaysAllowed := by
  have hexec : exec .cxlEnumeration s = execCxlEnumeration s := rfl
  rw [hexec]
  simp only [execCxlEnumeration, harg]
  generalize hv : l.foldl State.cxlDevice (s.onFabric fun f => { f with cxl := [], cxlWays := 1 }) = v
  exact ⟨_, v, rfl, rfl, ⟨rfl, rfl⟩, rfl, cxlWays_chosen v⟩

/-- O54, the CXL ports. -/
theorem cxlEnumeration_pool {s : State} {l : List CxlDevice} (harg : s.arg = .devs l) (hports : (l.map (·.port)).Nodup)
    (hport : ∀ d ∈ l, d.port < 4) (hroom : (l.map cxlMost).sum ≤ 2 ^ 44) :
    ∃ u, exec .cxlEnumeration s = .next u ∧ u.mem = s.mem ∧ u.tasks = s.tasks ∧
      u.fabric.cxlWays ∈ u.cxlWaysAllowed ∧ ∀ d ∈ l, CxlEnumerated d u := by
  obtain ⟨u, v, hexec, hv, hchanged, hcxl, hways⟩ := exec_cxlEnumeration harg
  obtain ⟨kchanged, kdone, _⟩ := cxlDevices_enumerate l (s.onFabric fun f => { f with cxl := [], cxlWays := 1 }) hports
    hport (by rw [show State.cxlBelow _ 4 = 0 from rfl, Nat.zero_add]; exact hroom)
  rw [← hv] at kchanged kdone
  refine ⟨u, hexec, hchanged.mem.trans kchanged.mem, hchanged.tasks.trans kchanged.tasks, hways, fun d hd => ?_⟩
  unfold CxlEnumerated
  rw [hcxl]
  exact kdone d hd

end Sys2Proof.Machine
end

section
/-! PROOF. O54: the groups of dies that the girth still links, and the one that goes on (02 R60). -/

namespace Sys2Proof.Machine

open Sys2Proof

/-! ## Dies that are held -/

/-- What hubs that are held leave: the package, the side of the host that the Coachman serves, and the failed links. -/
structure LinksDowned (s u : State) : Prop where
  package : u.package = s.package
  activeHub : u.host.activeHub = s.host.activeHub
  welomUp : u.host.welomUp = s.host.welomUp
  girthDown : u.fabric.girthDown = s.fabric.girthDown

section
variable {s u v : State}

theorem LinksDowned.refl (s : State) : LinksDowned s s := ⟨rfl, rfl, rfl, rfl⟩

theorem LinksDowned.trans (h : LinksDowned s u) (k : LinksDowned u v) : LinksDowned s v :=
  ⟨k.package.trans h.package, k.activeHub.trans h.activeHub, k.welomUp.trans h.welomUp, k.girthDown.trans h.girthDown⟩

theorem Sent.linksDowned (h : Sent s u) : LinksDowned s u := by
  obtain ⟨_, _, _, _, _, rfl⟩ := h.shape
  exact ⟨rfl, rfl, rfl, rfl⟩

theorem linksDowned_recordEvent (s : State) (a b c d e : Nat) : LinksDowned s (s.recordEvent a b c d e) := by
  unfold State.recordEvent
  split <;> exact ⟨rfl, rfl, rfl, rfl⟩

theorem sent_reissuePort (s : State) (port : Nat) : Sent s (s.reissuePort port) := by
  unfold State.reissuePort
  refine Sent.foldl _ (fun s r => ?_) _ s
  split
  · exact (sent_modRemote s r.id _).trans (sent_transmitBut _ _ none)
  · exact Sent.refl s

theorem linksDowned_linkDown (s : State) (port : Nat) : LinksDowned s (s.linkDown port) := by
  unfold State.linkDown
  dsimp only
  refine LinksDowned.trans ?_ (Sent.foldl _ (fun s p => sent_sendPacket s _ p) _ _).linksDowned
  exact ((sent_onLink s port _).linksDowned.trans (linksDowned_recordEvent _ _ _ _ _ _)).trans
    (sent_reissuePort _ port).linksDowned

theorem linksDowned_foldl {α : Type} (f : State → α → State) (h : ∀ s a, LinksDowned s (f s a)) (l : List α) (s : State) :
    LinksDowned s (l.foldl f s) := by
  induction l generalizing s with
  | nil => exact LinksDowned.refl s
  | cons a l ih => exact (h s a).trans (ih _)

theorem linksDowned_holdGroup (s : State) (dies : List Nat) :
    LinksDowned (s.onPackage fun p => { p with held := p.held ++ dies }) (s.holdGroup dies) := by
  unfold State.holdGroup
  dsimp only
  refine LinksDowned.trans ?_ (linksDowned_foldl _ linksDowned_linkDown _ _)
  exact linksDowned_foldl (fun (s : State) h => s.modHub h fun x => { x with epoch := x.epoch + 1 })
    (fun s h => ⟨rfl, rfl, rfl, rfl⟩) _ _

end

/-! ## What a die reaches -/

section
variable {failed : List (Nat × Nat)} {live : List Nat}

/-- The step of reaching, from one die to a live one beside it. -/
def GirthNext (failed : List (Nat × Nat)) (live : List Nat) (a b : Nat) : Prop :=
  b ∈ live ∧ girthLinked b a = true ∧ (a, b) ∉ failed ∧ (b, a) ∉ failed

theorem mem_girthGrow {set : List Nat} {d : Nat} : d ∈ girthGrow failed live set ↔
    d ∈ live ∧ (d ∈ set ∨ ∃ e ∈ set, GirthNext failed live e d) := by
  unfold girthGrow GirthNext girthFailed
  rw [List.mem_filter]
  simp only [Bool.or_eq_true, List.any_eq_true, Bool.and_eq_true, Bool.not_eq_true', Bool.or_eq_false_iff,
    List.contains_eq_mem, decide_eq_true_eq, decide_eq_false_iff_not]
  constructor
  · rintro ⟨hd, h | ⟨e, he, hlink, hno, hno'⟩⟩
    · exact ⟨hd, .inl h⟩
    · exact ⟨hd, .inr ⟨e, he, hd, hlink, hno', hno⟩⟩
  · rintro ⟨hd, h | ⟨e, he, _, hlink, hno, hno'⟩⟩
    · exact ⟨hd, .inl h⟩
    · exact ⟨hd, .inr ⟨e, he, hlink, hno', hno⟩⟩

/-- What is reached is linked to the set by steps. -/
theorem girthGroup_sound (n : Nat) (set : List Nat) {d : Nat} (h : d ∈ girthGroup failed live n set) :
    ∃ e ∈ set, Relation.ReflTransGen (GirthNext failed live) e d := by
  induction n generalizing set with
  | zero => exact ⟨d, h, .refl⟩
  | succ n ih =>
    obtain ⟨e, he, hreach⟩ := ih _ h
    rcases (mem_girthGrow.1 he).2 with hset | ⟨x, hx, hnext⟩
    · exact ⟨e, hset, hreach⟩
    · exact ⟨x, hx, .head hnext hreach⟩

/-- A set is closed when no step leaves it. -/
def GirthClosed (failed : List (Nat × Nat)) (live set : List Nat) : Prop :=
  ∀ e ∈ set, ∀ d, GirthNext failed live e d → d ∈ set

theorem mem_girthGroup_of_closed (n : Nat) {set : List Nat} (hlive : ∀ d ∈ set, d ∈ live)
    (hclosed : GirthClosed failed live set) {d : Nat} : d ∈ girthGroup failed live n set ↔ d ∈ set := by
  induction n generalizing set with
  | zero => exact Iff.rfl
  | succ n ih =>
    have hgrow (x : Nat) : x ∈ girthGrow failed live set ↔ x ∈ set := by
      rw [mem_girthGrow]
      constructor
      · rintro ⟨_, h | ⟨e, he, hnext⟩⟩
        · exact h
        · exact hclosed e he x hnext
      · exact fun h => ⟨hlive x h, .inl h⟩
    have := ih (set := girthGrow failed live set) (fun x hx => hlive x ((hgrow x).1 hx)) fun e he x hnext =>
      (hgrow x).2 (hclosed e ((hgrow e).1 he) x hnext)
    exact this.trans (hgrow d)

/-- Every step adds a die, until the set is closed. -/
theorem girthGroup_closed_or_grows (n : Nat) (set : List Nat) (hlive : ∀ d ∈ set, d ∈ live) :
    GirthClosed failed live (girthGroup failed live n set) ∨
      set.toFinset.card + n ≤ (girthGroup failed live n set).toFinset.card := by
  induction n generalizing set with
  | zero => exact .inr le_rfl
  | succ n ih =>
    by_cases hclosed : GirthClosed failed live set
    · left
      intro e he d hnext
      rw [mem_girthGroup_of_closed _ hlive hclosed] at he ⊢
      exact hclosed e he d hnext
    · have hsub : set.toFinset ⊂ (girthGrow failed live set).toFinset := by
        rw [Finset.ssubset_iff_of_subset fun x hx => by
          rw [List.mem_toFinset] at hx ⊢
          exact mem_girthGrow.2 ⟨hlive x hx, .inl hx⟩]
        unfold GirthClosed at hclosed
        push Not at hclosed
        obtain ⟨e, he, d, hnext, hd⟩ := hclosed
        refine ⟨d, ?_, by rwa [List.mem_toFinset]⟩
        rw [List.mem_toFinset]
        exact mem_girthGrow.2 ⟨hnext.1, .inr ⟨e, he, hnext⟩⟩
      have hcard := Finset.card_lt_card hsub
      refine (ih (girthGrow failed live set) fun d hd => (mem_girthGrow.1 hd).1).imp_right fun h => ?_
      exact le_trans (by omega) h

theorem girthGroup_live (n : Nat) {set : List Nat} (hlive : ∀ d ∈ set, d ∈ live) {d : Nat}
    (hd : d ∈ girthGroup failed live n set) : d ∈ live := by
  induction n generalizing set with
  | zero => exact hlive d hd
  | succ n ih => exact ih (fun x hx => (mem_girthGrow.1 hx).1) hd

theorem mem_girthGroup_self (n : Nat) {set : List Nat} (hlive : ∀ d ∈ set, d ∈ live) {d : Nat} (hd : d ∈ set) :
    d ∈ girthGroup failed live n set := by
  induction n generalizing set with
  | zero => exact hd
  | succ n ih => exact ih (fun x hx => (mem_girthGrow.1 hx).1) (mem_girthGrow.2 ⟨hlive d hd, .inl hd⟩)

/-- Fourteen steps are enough for fourteen dies: the group is what a die reaches. -/
theorem mem_girthGroup_iff (hdies : ∀ d ∈ live, d < 14) {h : Nat} (hh : h ∈ live) (d : Nat) :
    d ∈ girthGroup failed live 14 [h] ↔ Relation.ReflTransGen (GirthNext failed live) h d := by
  have hlive : ∀ x ∈ [h], x ∈ live := fun x hx => by rwa [List.mem_singleton.1 hx]
  have hclosed : GirthClosed failed live (girthGroup failed live 14 [h]) := by
    refine (girthGroup_closed_or_grows 14 [h] hlive).resolve_right fun hcard => ?_
    have hsub : (girthGroup failed live 14 [h]).toFinset ⊆ Finset.range 14 := fun x hx => by
      rw [List.mem_toFinset] at hx
      exact Finset.mem_range.2 (hdies x (girthGroup_live 14 hlive hx))
    have hle := Finset.card_le_card hsub
    rw [Finset.card_range] at hle
    have hone : ([h] : List Nat).toFinset.card = 1 := by simp
    omega
  constructor
  · intro hd
    obtain ⟨e, he, hreach⟩ := girthGroup_sound 14 [h] hd
    rwa [List.mem_singleton.1 he] at hreach
  · intro hreach
    induction hreach with
    | refl => exact mem_girthGroup_self 14 hlive (List.mem_singleton.2 rfl)
    | tail _ hnext ih => exact hclosed _ ih _ hnext

end

/-! ## The group that goes on -/

/-- The dies of the package that are released and not held. -/
def State.liveDies (s : State) : List Nat := s.package.released.filter fun d => !s.package.held.contains d

section
variable {s u : State}

theorem mem_liveDies {d : Nat} : d ∈ s.liveDies ↔ d ∈ s.package.released ∧ d ∉ s.package.held := by
  unfold State.liveDies
  rw [List.mem_filter, Bool.not_eq_true', List.contains_eq_mem, decide_eq_false_iff_not]

/-- `goesOn` of the statement: the group `g` of a hub goes on. -/
structure GoesOn (s u : State) (hub : Nat) (g : List Nat) : Prop where
  held : ∀ d, d ∈ u.package.held ↔ d ∈ s.package.held ∨ (d ∈ s.liveDies ∧ d ∉ g)
  activeHub : u.host.activeHub = if hub = 4 then s.host.activeHub else some 5
  welomUp : u.host.welomUp = if hub = 4 then s.host.welomUp else false

theorem mem_held_holdGroup (s : State) (dies : List Nat) (d : Nat) :
    d ∈ (s.holdGroup dies).package.held ↔ d ∈ s.package.held ∨ d ∈ dies := by
  rw [(linksDowned_holdGroup s dies).package, State.onPackage_package]
  exact List.mem_append

/-- The state after one hub's group goes on. -/
theorem goesOn_first (hs : u.package = s.package) (hhost : u.host = s.host) (g : List Nat) :
    GoesOn s (u.holdGroup (s.liveDies.filter fun d => !g.contains d)) 4 g := by
  have hdown := linksDowned_holdGroup u (s.liveDies.filter fun d => !g.contains d)
  refine ⟨fun d => ?_, ?_, ?_⟩
  · rw [mem_held_holdGroup, hs, List.mem_filter, Bool.not_eq_true', List.contains_eq_mem, decide_eq_false_iff_not]
  · rw [hdown.activeHub, if_pos rfl, ← hhost]
    rfl
  · rw [hdown.welomUp, if_pos rfl, ← hhost]
    rfl

theorem goesOn_second (hs : u.package = s.package) (g : List Nat) :
    GoesOn s (((u.holdGroup (s.liveDies.filter fun d => !g.contains d)).onHost fun h =>
      { h with activeHub := some 5 }).loseWelom) 5 g := by
  refine ⟨fun d => ?_, rfl, rfl⟩
  have hheld := mem_held_holdGroup u (s.liveDies.filter fun d => !g.contains d) d
  rw [hs, List.mem_filter, Bool.not_eq_true', List.contains_eq_mem, decide_eq_false_iff_not] at hheld
  exact hheld

/-- What a partition leaves. -/
structure Partitioned (s u : State) (g0 g1 reach : List Nat) : Prop where
  girthDown : u.fabric.girthDown = s.fabric.girthDown
  first : g0.any reach.contains = true → ¬g1.any reach.contains = true → GoesOn s u 4 g0
  second : ¬g0.any reach.contains = true → g1.any reach.contains = true → GoesOn s u 5 g1
  either : g0.any reach.contains = true → g1.any reach.contains = true → GoesOn s u 4 g0 ∨ GoesOn s u 5 g1
  neither : ¬g0.any reach.contains = true → ¬g1.any reach.contains = true →
    (∀ d ∈ s.liveDies, d ∈ u.package.held) ∧ u.host.activeHub = none ∧ u.host.welomUp = false

theorem partition_partitioned (s : State) (g0 g1 reach : List Nat) :
    Partitioned s (s.partition s.liveDies g0 g1 reach) g0 g1 reach := by
  have hdown (u : State) (dies : List Nat) (h : u.fabric = s.fabric) :
      (u.holdGroup dies).fabric.girthDown = s.fabric.girthDown := by
    rw [(linksDowned_holdGroup u dies).girthDown, ← h]
    rfl
  unfold State.partition
  dsimp only
  cases hr0 : g0.any reach.contains with
  | true =>
    cases hr1 : g1.any reach.contains with
    | true =>
      have hboth {u : State} (h : GoesOn s u 4 g0 ∨ GoesOn s u 5 g1) (hgirth : u.fabric.girthDown = s.fabric.girthDown) :
          Partitioned s u g0 g1 reach :=
        ⟨hgirth, fun _ h => absurd hr1 h, fun h => absurd hr0 h, fun _ _ => h, fun h => absurd hr0 h⟩
      simp only [Bool.and_self, if_true, Bool.not_true, Bool.false_eq_true, if_false]
      split
      · exact hboth (.inl (goesOn_first (s := s) (u := (s.choose 2).2) rfl rfl g0)) (hdown _ _ rfl)
      · exact hboth (.inr (goesOn_second (s := s) (u := (s.choose 2).2) rfl g1)) (hdown _ _ rfl)
    | false =>
      have hno := Bool.eq_false_iff.1 hr1
      simp only [Bool.and_false, Bool.false_eq_true, if_false, if_true, Bool.not_true, Bool.false_and]
      exact ⟨hdown _ _ rfl, fun _ _ => goesOn_first (u := s) rfl rfl g0, fun h => absurd hr0 h, fun _ h => absurd h hno,
        fun h => absurd hr0 h⟩
  | false =>
    have hno := Bool.eq_false_iff.1 hr0
    cases hr1 : g1.any reach.contains with
    | true =>
      simp only [Bool.false_and, Bool.false_eq_true, if_false, Bool.not_true, Bool.and_false, one_ne_zero]
      exact ⟨hdown _ _ rfl, fun h => absurd h hno, fun _ _ => goesOn_second (u := s) rfl g1, fun h => absurd h hno,
        fun _ h => absurd hr1 h⟩
    | false =>
      simp only [Bool.false_eq_true, if_false, Bool.not_false, Bool.and_self, if_true]
      refine ⟨hdown _ _ rfl, fun h => absurd h hno, fun _ h => absurd h (Bool.eq_false_iff.1 hr1), fun h => absurd h hno,
        fun _ _ => ⟨fun d hd => ?_, rfl, rfl⟩⟩
      exact (mem_held_holdGroup s s.liveDies d).2 (.inr hd)

end

end Sys2Proof.Machine
end

section
/-! PROOF. O54: the check of the girth, the state of an Ultra Ethernet port and the adapter's own reset (01 R19; 02 R60;
03 R83). -/

namespace Sys2Proof.Machine

open Sys2Proof

section
variable {s : State}

/-! ## The check of the girth (02 R60) -/

/-- The state in which the hubs have found the failures. -/
def State.girthFound (s : State) (failed : List (Nat × Nat)) (reach : List Nat) : State :=
  s.onFabric fun f =>
    { f with girthDown := failed, sidebandDown := (List.range 14).filter fun d => !reach.contains d }

theorem exec_girthCheck_found {failed : List (Nat × Nat)} {reach : List Nat} (harg : s.arg = .girth failed reach) :
    exec .girthCheck s = .next (s.girthFound failed reach).girthDecide := by
  change execGirthCheck s = _
  simp only [execGirthCheck, harg]
  rfl

theorem girthDecide_few (h : s.fabric.girthDown.length < 2) : s.girthDecide = s :=
  if_neg fun k => absurd k.1 (Nat.not_le.2 h)

theorem exec_girthCheck_periodic (harg : s.arg = .none) (hphase : s.package.phase = .ready)
    (hfew : s.fabric.girthDown.length < 2) :
    exec .girthCheck s = .next (s.postTime (10 * usUnits) .girthCheck .none) := by
  change execGirthCheck s = _
  simp only [execGirthCheck, harg, girthDecide_few hfew, hphase, if_true]

/-- The sidebands that the Proctor's reach leaves. -/
def sidebandReach (reach : List Nat) : List Nat :=
  (List.range 14).filter fun d => !((List.range 14).filter fun d => !reach.contains d).contains d

theorem mem_sidebandReach {reach : List Nat} {d : Nat} : d ∈ sidebandReach reach ↔ d < 14 ∧ d ∈ reach := by
  unfold sidebandReach
  simp only [List.mem_filter, List.mem_range, Bool.not_eq_true', List.contains_eq_mem, decide_eq_false_iff_not, not_and]
  exact ⟨fun ⟨hd, h⟩ => ⟨hd, by simpa using h hd⟩, fun ⟨hd, h⟩ => ⟨hd, fun _ => by simpa using h⟩⟩

/-- The groups still reach each other, or too few links have failed: nothing more is done. -/
theorem girthDecide_whole {failed : List (Nat × Nat)} {reach : List Nat}
    (h : failed.length < 2 ∨ 5 ∈ girthGroup failed s.liveDies 14 [4]) :
    (s.girthFound failed reach).girthDecide = s.girthFound failed reach := by
  refine if_neg fun ⟨hfailed, _, _, hsplit⟩ => ?_
  rcases h with h | h
  · exact absurd hfailed (Nat.not_le.2 h)
  · exact absurd (List.contains_iff_mem.2 h) (Bool.eq_false_iff.1 hsplit)

/-- The groups are parted. -/
theorem girthDecide_parted {failed : List (Nat × Nat)} {reach : List Nat} (h4 : 4 ∈ s.liveDies) (h5 : 5 ∈ s.liveDies)
    (h2 : 2 ≤ failed.length) (h : 5 ∉ girthGroup failed s.liveDies 14 [4]) :
    (s.girthFound failed reach).girthDecide =
      (s.girthFound failed reach).partition s.liveDies (girthGroup failed s.liveDies 14 [4])
        (girthGroup failed s.liveDies 14 [5]) (sidebandReach reach) :=
  if_pos ⟨h2, List.contains_iff_mem.2 h4, List.contains_iff_mem.2 h5,
    Bool.eq_false_iff.2 fun k => h (List.contains_iff_mem.1 k)⟩

/-- A group reaches the Proctor when one of its dies does. -/
theorem group_any_reach {g reach : List Nat} (hg : ∀ d ∈ g, d < 14) :
    g.any (sidebandReach reach).contains = true ↔ ∃ d ∈ reach, d ∈ g := by
  rw [List.any_eq_true]
  constructor
  · rintro ⟨d, hd, h⟩
    exact ⟨d, (mem_sidebandReach.1 (List.contains_iff_mem.1 h)).2, hd⟩
  · rintro ⟨d, hd, h⟩
    exact ⟨d, h, List.contains_iff_mem.2 (mem_sidebandReach.2 ⟨hg d h, hd⟩)⟩

/-! ## A port's state (03 R83) -/

theorem exec_ultraEthernetPortState {port : Nat} {up : Bool} (hport : port < 8) (harg : s.arg = .numFlag port up) :
    exec .ultraEthernetPortState s = .next (s.onFabric fun x =>
      { x with uet := x.uet.put port (up && s.package.phase != .halted) }) := by
  change execUltraEthernetPortState s = _
  simp only [execUltraEthernetPortState, harg, if_pos hport]

end

end Sys2Proof.Machine
end

section
/-! PROOF. O54: packets of the Ultra Ethernet ports (02 R59). -/

namespace Sys2Proof.Machine

open Sys2Proof

/-- Only the connections and the packets that leave have changed. -/
structure UetOnly (s u : State) : Prop where
  shape : ∃ ctr conns out, u =
    { s with freeCtr := ctr, fabric := { s.fabric with uetConns := conns, uetOut := out } }
  out : ∀ x ∈ s.fabric.uetOut, x ∈ u.fabric.uetOut

/-- A packet has been sent from a hub. -/
def UetSent (u : State) (hub : Nat) (q : UetPacket) : Prop := ∃ hd, (hub, hd, q) ∈ u.fabric.uetOut

section
variable {s u v : State} {hub : Nat} {q : UetPacket}

theorem UetOnly.refl (s : State) : UetOnly s s := ⟨⟨_, _, _, rfl⟩, fun _ h => h⟩

theorem UetOnly.trans (h : UetOnly s u) (k : UetOnly u v) : UetOnly s v := by
  refine ⟨?_, fun x hx => k.out x (h.out x hx)⟩
  obtain ⟨_, _, _, rfl⟩ := h.shape
  obtain ⟨_, _, _, rfl⟩ := k.shape
  exact ⟨_, _, _, rfl⟩

theorem UetOnly.mem (h : UetOnly s u) : u.mem = s.mem := by obtain ⟨_, _, _, rfl⟩ := h.shape; rfl
theorem UetOnly.tasks (h : UetOnly s u) : u.tasks = s.tasks := by obtain ⟨_, _, _, rfl⟩ := h.shape; rfl
theorem UetOnly.engines (h : UetOnly s u) : u.engines = s.engines := by obtain ⟨_, _, _, rfl⟩ := h.shape; rfl
theorem UetOnly.collEarly (h : UetOnly s u) : u.fabric.collEarly = s.fabric.collEarly := by
  obtain ⟨_, _, _, rfl⟩ := h.shape; rfl
theorem UetOnly.collDone (h : UetOnly s u) : u.fabric.collDone = s.fabric.collDone := by
  obtain ⟨_, _, _, rfl⟩ := h.shape; rfl
theorem UetOnly.collOp (h : UetOnly s u) (collid : BitVec 32) : u.collOp collid = s.collOp collid := by
  obtain ⟨_, _, _, rfl⟩ := h.shape; rfl
theorem UetOnly.ownChip (h : UetOnly s u) (n : Nat) : u.ownChip n = s.ownChip n := by
  obtain ⟨_, _, _, rfl⟩ := h.shape; rfl
theorem UetOnly.uetUp (h : UetOnly s u) (n : Nat) : u.uetUp n = s.uetUp n := by
  obtain ⟨_, _, _, rfl⟩ := h.shape; rfl
theorem UetOnly.ctx (h : UetOnly s u) (n : Nat) : u.ctx n = s.ctx n := by obtain ⟨_, _, _, rfl⟩ := h.shape; rfl

/-- Only an address of the scratch window leads to a scratchpad. -/
theorem ctxAccess_sram {ctx va n core off : Nat} {kind : AccKind} (h : s.ctxAccess ctx va n kind = .ok (.sram core off)) :
    inScratch va = true ∧ s.checkScratch ctx va n = .ok (.sram core off) := by
  unfold State.ctxAccess at h
  split at h
  · next hscratch => exact ⟨hscratch, h⟩
  · have hleaf (level : Nat) (e : BitVec 64) : leafCheck s level e va kind false ≠ .ok (.sram core off) := by
      unfold leafCheck
      split
      · nofun
      · nofun
      · nofun
      · unfold leafLoc
        dsimp only
        split
        · nofun
        · split <;> nofun
    have hheap : heapCheck s (s.ctx ctx).heap va ≠ some (.ok (.sram core off)) := by
      unfold heapCheck
      dsimp only
      split
      · split
        · nofun
        · split <;> nofun
      · nofun
    split at h
    · next heq => exact absurd (heq.trans (congrArg some h)) hheap
    · split at h
      · exact nomatch h
      · exact nomatch h
      · exact absurd h (hleaf _ _)

theorem UetOnly.ctxAccess (h : UetOnly s u) {ctx va n core off : Nat} {kind : AccKind}
    (hloc : s.ctxAccess ctx va n kind = .ok (.sram core off)) : u.ctxAccess ctx va n kind = .ok (.sram core off) := by
  obtain ⟨hscratch, hcheck⟩ := ctxAccess_sram hloc
  have hsame : u.checkScratch ctx va n = s.checkScratch ctx va n := by
    obtain ⟨_, _, _, rfl⟩ := h.shape
    rfl
  rw [State.ctxAccess, if_pos hscratch, hsame, hcheck]

theorem UetSent.mono (h : UetSent s hub q) (k : ∀ x ∈ s.fabric.uetOut, x ∈ u.fabric.uetOut) : UetSent u hub q :=
  h.imp fun _ hmem => k _ hmem

theorem uetOnly_modUet (s : State) (hub conn : Nat) (f : UetConn → UetConn) : UetOnly s (s.modUet hub conn f) :=
  ⟨⟨_, _, _, rfl⟩, fun _ h => h⟩

/-- A hub with a port up sends. -/
theorem uetPut_sends (hup : s.uetUp hub = true) (psn : Nat) (q : UetPacket) :
    UetOnly s (s.uetPut hub psn q) ∧ UetSent (s.uetPut hub psn q) hub q := by
  unfold State.uetPut
  rw [if_pos hup]
  exact ⟨⟨⟨_, _, _, rfl⟩, fun _ h => List.mem_append_left _ h⟩, _, List.mem_append_right _ (List.mem_singleton.2 rfl)⟩

theorem uetSend_sends (hup : s.uetUp hub = true) {conn : Nat} (hconn : conn < 65536) (q : UetPacket) :
    UetOnly s (s.uetSend hub conn q) ∧ UetSent (s.uetSend hub conn q) hub q := by
  unfold State.uetSend
  rw [if_neg (Nat.not_le.2 hconn)]
  have hkept := uetOnly_modUet s hub conn fun c =>
    { c with sent := (s.uetConn hub conn).sent + 1, unacked := c.unacked ++ [((s.uetConn hub conn).sent, q)] }
  obtain ⟨hput, hsent⟩ := uetPut_sends ((hkept.uetUp hub).trans hup) (s.uetConn hub conn).sent q
  exact ⟨hkept.trans hput, hsent⟩

/-- The hub of a port that is up has a port up. -/
theorem uetUp_of_port {port : Nat} (h8 : port < 8) (hup : s.fabric.uet.getD false port = true) :
    s.uetUp (if port < 4 then 4 else 5) = true := by
  unfold State.uetUp
  rw [List.any_eq_true]
  by_cases h : port < 4
  · exact ⟨port, List.mem_range.2 h, by rw [if_pos h, if_pos rfl]; exact hup⟩
  · refine ⟨port - 4, List.mem_range.2 (by omega), ?_⟩
    rw [if_neg h, if_neg (by decide), Nat.sub_add_cancel (by omega)]
    exact hup

/-! ## A packet that arrives -/

/-- A packet that has been delivered is acknowledged once more. -/
theorem uetArrive_again {h : UetHead} {p : UetPacket} (hpsn : h.psn < (s.uetConn hub (UetPacket.conn p)).next) :
    s.uetArrive hub h p = s.uetPut hub 0 (.ack (UetPacket.conn p) h.psn false) := by
  unfold State.uetArrive
  simp only [decide_eq_true hpsn, Bool.true_or, if_true]

/-- The next packet of a connection is acknowledged and delivered, whether or not its message asks for order. -/
theorem uetArrive_next {h : UetHead} {p : UetPacket} (hup : s.uetUp hub = true)
    (hpsn : h.psn = (s.uetConn hub (UetPacket.conn p)).next) (htaken : (s.uetConn hub (UetPacket.conn p)).taken = [])
    (hearly : (s.uetConn hub (UetPacket.conn p)).early = []) : ∃ u, UetOnly s u ∧
      UetSent u hub (.ack (UetPacket.conn p) h.psn false) ∧ s.uetArrive hub h p = u.uetTake hub h.psn p := by
  obtain ⟨hput, hsent⟩ := uetPut_sends hup 0 (.ack (UetPacket.conn p) h.psn false)
  unfold State.uetArrive
  simp only [hpsn, htaken, hearly, lt_irrefl, decide_false, List.contains_nil, List.any_nil, Bool.or_self,
    Bool.false_eq_true, if_false, if_true]
  rw [← hpsn]
  generalize s.uetPut hub 0 (.ack (UetPacket.conn p) h.psn false) = s1 at hput hsent ⊢
  by_cases hordered : h.ordered = true
  · rw [hordered, Bool.not_true, if_neg Bool.false_ne_true]
    exact ⟨_, hput.trans (uetOnly_modUet s1 hub _ _), hsent, rfl⟩
  · rw [Bool.eq_false_iff.2 hordered, Bool.not_false, if_pos rfl]
    exact ⟨_, hput.trans (uetOnly_modUet s1 hub _ _), hsent, rfl⟩

/-! ## What a delivered packet does -/

/-- Collective data for another chip is not taken. -/
theorem uetTake_send_elsewhere {psn conn part parts : Nat} {src dst : BitVec 12} {collid : BitVec 32} {b : CollBody}
    (hdst : dst ≠ s.ownChip hub) : s.uetTake hub psn (.send conn src dst collid part parts b) = s :=
  if_pos hdst

theorem insertNat_length_pos (a : Nat) (l : List Nat) : 1 ≤ (insertNat a l).length :=
  List.length_pos_of_mem (mem_insertNat.2 (.inl rfl))

/-- A message of one packet, whose collective is not open here yet, is kept. -/
theorem uetTake_send_kept {psn conn : Nat} {src dst : BitVec 12} {collid : BitVec 32} {b : CollBody}
    (hdst : dst = s.ownChip hub) (hop : s.collOp collid = none) (hdone : ∀ d ∈ s.fabric.collDone, d.1 ≠ collid) :
    (s.uetTake hub psn (.send conn src dst collid 0 1 b)).fabric.collEarly =
        s.fabric.collEarly ++ [(collid, ⟨src, 2, conn, b⟩)] ∧
      (s.uetTake hub psn (.send conn src dst collid 0 1 b)).fabric.uetOut = s.fabric.uetOut := by
  have hkept := uetOnly_modUet s hub conn fun c => { c with parts := c.parts.del (psn - 0) }
  have htake := collTake_keeps (s := s.modUet hub conn fun c => { c with parts := c.parts.del (psn - 0) })
    (x := ⟨src, 2, conn, b⟩) ((hkept.collOp collid).trans hop)
    fun d hd hid => absurd hid (hdone d (by rw [← hkept.collDone]; exact hd))
  have heq : s.uetTake hub psn (.send conn src dst collid 0 1 b) =
      (s.modUet hub conn fun c => { c with parts := c.parts.del (psn - 0) }).collTake collid ⟨src, 2, conn, b⟩ := by
    unfold State.uetTake
    dsimp only
    rw [if_neg (not_not_intro hdst), if_pos (insertNat_length_pos _ _)]
  rw [heq, htake]
  exact ⟨rfl, rfl⟩

section
variable {psn conn ctx va core off : Nat}

/-- An RMA write to a scratchpad. -/
theorem uetTake_write {bs : List Byte} (hs : s.mem.wf = true) (hlive : (s.ctx ctx).phase = .live) (hlen : bs.length ≤ 4096)
    (hloc : s.ctxAccess ctx va bs.length .store = .ok (.sram core off)) :
    let u := s.uetTake hub psn (.rmaWrite conn ctx va bs)
    u.fabric = s.fabric ∧ u.bytesAt (.sram core off) bs.length = bs ∧
      ∀ a, a < sramKey core off ∨ sramKey core off + bs.length ≤ a → cellGet u.mem.sram a = cellGet s.mem.sram a := by
  have heq : s.uetTake hub psn (.rmaWrite conn ctx va bs) = (s.sramWrite core off bs).pokeRolls 0 := by
    have hopen : ¬((s.ctx ctx).phase ≠ .live ∨ 4096 < bs.length) := by
      rintro (h | h)
      · exact h hlive
      · omega
    change s.uetWrite ctx va bs = _
    unfold State.uetWrite
    rw [if_neg hopen, hloc]
    rfl
  have hpoked := rollsPoked_pokeRolls (s.sramWrite core off bs) 0
  have hwrote := wrote_sramWrite (s := s) (core := core) (off := off) (bs := bs) hs
  rw [heq]
  refine ⟨hpoked.fabric, ?_, fun a ha => ?_⟩
  · exact (congrArg (fun m => cellsRead m (sramKey core off) bs.length) hpoked.sram).trans hwrote.bytes
  · rw [hpoked.sram]
    refine hwrote.others.2 a fun l hl => ?_
    rw [List.mem_singleton.1 hl]
    exact fun ⟨_, hlo, hhi⟩ => ha.elim (fun h => absurd hlo (Nat.not_le.2 h)) fun h => absurd hhi (Nat.not_lt.2 h)

/-- An RMA read of a scratchpad: its data goes back. -/
theorem uetTake_read {n : Nat} (hup : s.uetUp hub = true) (hconn : conn < 65536) (hlive : (s.ctx ctx).phase = .live)
    (hlen : n ≤ 4096) (hloc : s.ctxAccess ctx va n .load = .ok (.sram core off)) :
    let u := s.uetTake hub psn (.rmaRead conn ctx va n)
    UetOnly s u ∧ UetSent u hub (.rmaData conn va (s.bytesAt (.sram core off) n)) := by
  have hread : s.uetRead ctx va n = (s.bytesAt (.sram core off) n, s) := by
    have hopen : ¬((s.ctx ctx).phase ≠ .live ∨ 4096 < n) := by
      rintro (h | h)
      · exact h hlive
      · omega
    unfold State.uetRead
    rw [if_neg hopen, hloc]
    rfl
  have heq : s.uetTake hub psn (.rmaRead conn ctx va n) =
      s.uetSend hub conn (.rmaData conn va (s.bytesAt (.sram core off) n)) := by
    simp only [State.uetTake, hread]
  rw [heq]
  exact uetSend_sends hup hconn _

end

end

end Sys2Proof.Machine
end

section
/-! PROOF. O54: what a hub does with a packet of an Ultra Ethernet port, and the rules of the edge together (02 R58 to R60;
03 R83; 01 R19). -/

namespace Sys2Proof.Machine

open Sys2Proof

/-! ## A packet that reaches its hub (02 R59) -/

/-- What a hub does with a packet that reaches it. -/
def State.uetReceived (s : State) (hub : Nat) (h : UetHead) (p : UetPacket) : State :=
  match p with
  | .ack conn psn again => s.uetAck hub conn psn again
  | p => if h.trimmed then s.uetPut hub 0 (.ack (UetPacket.conn p) h.psn true) else s.uetArrive hub h p

/-- The hub of a port. -/
def uetHub (port : Nat) : Nat := if port < 4 then 4 else 5

/-- Does a packet reach its hub: the port is up, nothing is held, the packet is authentic and keeps to the limits? -/
structure UetReached (s : State) (port : Nat) (h : UetHead) (p : UetPacket) : Prop where
  up : s.fabric.uet.getD false port = true
  free : uetHub port ∉ s.package.held
  running : s.package.phase ≠ .halted
  auth : h.auth = true
  fits : UetPacket.fits p = true

section
variable {s : State} {port : Nat} {h : UetHead} {p : UetPacket}

theorem exec_ultraEthernetPacket (harg : s.arg = .uet port h p) : exec .ultraEthernetPacket s =
    .next (if s.fabric.uet.getD false port = false ∨ s.package.held.contains (uetHub port) = true ∨
      s.package.phase = .halted ∨ h.auth = false ∨ UetPacket.fits p = false then s
    else s.uetReceived (uetHub port) h p) := by
  change execUltraEthernetPacket s = _
  simp only [execUltraEthernetPacket, harg]
  rfl

theorem exec_ultraEthernetPacket_lost (harg : s.arg = .uet port h p) (hlost : ¬UetReached s port h p) :
    exec .ultraEthernetPacket s = .next s := by
  rw [exec_ultraEthernetPacket harg]
  refine congrArg _ (if_pos ?_)
  by_contra hreached
  simp only [not_or, Bool.not_eq_false, Bool.not_eq_true, List.contains_eq_mem, decide_eq_false_iff_not] at hreached
  obtain ⟨hup, hfree, hrunning, hauth, hfits⟩ := hreached
  exact hlost ⟨hup, hfree, hrunning, hauth, hfits⟩

theorem exec_ultraEthernetPacket_reached (harg : s.arg = .uet port h p) (hr : UetReached s port h p) :
    exec .ultraEthernetPacket s = .next (s.uetReceived (uetHub port) h p) := by
  rw [exec_ultraEthernetPacket harg]
  refine congrArg _ (if_neg ?_)
  rintro (hup | hheld | hhalted | hauth | hfits)
  · exact Bool.noConfusion (hr.up.symm.trans hup)
  · exact hr.free (List.contains_iff_mem.1 hheld)
  · exact hr.running hhalted
  · exact Bool.noConfusion (hr.auth.symm.trans hauth)
  · exact Bool.noConfusion (hr.fits.symm.trans hfits)

theorem uetReceived_data {hub : Nat} (hno : ∀ k psn again, p ≠ .ack k psn again) : s.uetReceived hub h p =
    if h.trimmed then s.uetPut hub 0 (.ack (UetPacket.conn p) h.psn true) else s.uetArrive hub h p := by
  cases p with
  | ack k psn again => exact absurd rfl (hno k psn again)
  | send => rfl
  | rmaWrite => rfl
  | rmaRead => rfl
  | rmaData => rfl

theorem conn_of_fits (hfits : UetPacket.fits p = true) : UetPacket.conn p < 65536 := by
  unfold UetPacket.fits at hfits
  exact of_decide_eq_true (Bool.and_eq_true _ _ ▸ hfits).1

theorem write_of_fits {conn ctx va : Nat} {bs : List Byte} (hfits : UetPacket.fits (.rmaWrite conn ctx va bs) = true) :
    bs.length ≤ 4096 := by
  simp only [UetPacket.fits, Bool.and_eq_true, decide_eq_true_eq] at hfits
  exact hfits.2

theorem read_of_fits {conn ctx va n : Nat} (hfits : UetPacket.fits (.rmaRead conn ctx va n) = true) : n ≤ 4096 := by
  simp only [UetPacket.fits, Bool.and_eq_true, decide_eq_true_eq] at hfits
  exact hfits.2

/-- The next packet of its connection is acknowledged, and then delivered. -/
theorem uetReceived_next {hub : Nat} (hup : s.uetUp hub = true) (hno : ∀ k psn again, p ≠ .ack k psn again)
    (htrim : h.trimmed = false) (hpsn : h.psn = (s.uetConn hub (UetPacket.conn p)).next)
    (htaken : (s.uetConn hub (UetPacket.conn p)).taken = []) (hearly : (s.uetConn hub (UetPacket.conn p)).early = []) :
    ∃ u, UetOnly s u ∧ UetSent u hub (.ack (UetPacket.conn p) h.psn false) ∧
      s.uetReceived hub h p = u.uetTake hub h.psn p := by
  rw [uetReceived_data hno, htrim, if_neg Bool.false_ne_true]
  exact uetArrive_next hup hpsn htaken hearly

end

/-- `takes` of the statement's clause on packets, for a packet that reached its hub. -/
theorem exec_received {s : State} {port : Nat} {h : UetHead} {p : UetPacket} (harg : s.arg = .uet port h p)
    (hr : UetReached s port h p) {q : State → Prop} (hq : q (s.uetReceived (uetHub port) h p)) :
    ∃ u, exec .ultraEthernetPacket s = .next u ∧ q u :=
  ⟨_, exec_ultraEthernetPacket_reached harg hr, hq⟩

/-- O54, the rest of the edge. -/
theorem edgeRules : Claim.EdgeRules := by
  intro s
  refine ⟨?cxl, ?periodic, ?girth, ?state, ?packet, rfl, rfl⟩
  case cxl => exact fun l harg hports hport hroom => cxlEnumeration_pool harg hports hport hroom
  case periodic =>
    exact fun harg hphase hfew =>
      ⟨_, exec_girthCheck_periodic harg hphase hfew, rfl, rfl, mem_insertDue.2 (.inl rfl)⟩
  case girth =>
    intro failed reach harg live next group reaches goesOn hdies h4 h5
    have hexec := exec_girthCheck_found harg
    have hlive (d : Nat) : d ∈ s.liveDies ↔ live d := mem_liveDies
    have hnext : GirthNext failed s.liveDies = next := by
      funext a b
      simp only [GirthNext, hlive]
      rfl
    have hbelow (d : Nat) (hd : d ∈ s.liveDies) : d < 14 := hdies d ((hlive d).1 hd).1
    have hgroup {g : Nat} (hg : live g) (d : Nat) : d ∈ girthGroup failed s.liveDies 14 [g] ↔ group g d := by
      rw [mem_girthGroup_iff hbelow ((hlive g).2 hg), hnext]
    have hreaches {g : Nat} (hg : live g) :
        (girthGroup failed s.liveDies 14 [g]).any (sidebandReach reach).contains = true ↔ reaches g := by
      have hsmall : ∀ d ∈ girthGroup failed s.liveDies 14 [g], d < 14 := fun d hd =>
        hbelow d (girthGroup_live 14 (fun x hx => by rw [List.mem_singleton.1 hx]; exact (hlive g).2 hg) hd)
      rw [group_any_reach hsmall]
      exact exists_congr fun d => and_congr_right fun _ => hgroup hg d
    have hgoesOn {u : State} {g : Nat} (hg : live g)
        (h : GoesOn (s.girthFound failed reach) u g (girthGroup failed s.liveDies 14 [g])) : goesOn u g := by
      refine ⟨fun d => (h.held d).trans (or_congr_right ?_), h.activeHub, h.welomUp⟩
      exact and_congr (hlive d) (hgroup hg d).not
    refine ⟨fun h => ?_, fun h2 hparted => ?_⟩
    · rw [girthDecide_whole (h.imp_right (hgroup h4 5).2)] at hexec
      exact hexec
    · have hpartition := partition_partitioned (s.girthFound failed reach) (girthGroup failed s.liveDies 14 [4])
        (girthGroup failed s.liveDies 14 [5]) (sidebandReach reach)
      rw [girthDecide_parted ((hlive 4).2 h4) ((hlive 5).2 h5) h2 ((hgroup h4 5).not.2 hparted)] at hexec
      refine ⟨_, hexec, hpartition.girthDown, fun hr0 hr1 => ?_, fun hr0 hr1 => ?_, fun hr0 hr1 => ?_, fun hr0 hr1 => ?_⟩
      · exact hgoesOn h4 (hpartition.first ((hreaches h4).2 hr0) ((hreaches h5).not.2 hr1))
      · exact hgoesOn h5 (hpartition.second ((hreaches h4).not.2 hr0) ((hreaches h5).2 hr1))
      · exact (hpartition.either ((hreaches h4).2 hr0) ((hreaches h5).2 hr1)).imp (hgoesOn h4) (hgoesOn h5)
      · obtain ⟨hheld, hactive, hwelom⟩ := hpartition.neither ((hreaches h4).not.2 hr0) ((hreaches h5).not.2 hr1)
        exact ⟨fun d hd => hheld d ((hlive d).2 hd), hactive, hwelom⟩
  case state =>
    intro port up hport harg
    refine ⟨_, exec_ultraEthernetPortState hport harg, ?_, fun n hn => ?_⟩
    · rw [State.onFabric_fabric, Tbl.getD_put_same]
    · rw [State.onFabric_fabric, Tbl.getD_put_other _ _ _ hn]
  case packet =>
    intro port h p harg hub conn c takes sent reached
    have hreached : reached → UetReached s port h p := fun ⟨hup, hfree, hrunning, hauth, hfits⟩ =>
      ⟨hup, hfree, hrunning, hauth, hfits⟩
    have hlost : ¬reached → ¬UetReached s port h p := mt fun hr => ⟨hr.up, hr.free, hr.running, hr.auth, hr.fits⟩
    refine ⟨fun hno => exec_ultraEthernetPacket_lost harg (hlost hno), fun hyes h8 => ?_⟩
    have hr := hreached hyes
    have hup : s.uetUp hub = true := uetUp_of_port h8 hr.up
    have hconn : conn < 65536 := conn_of_fits hr.fits
    refine ⟨fun hdata htrim => ?_, fun hdata htrim hpsn => ?_, fun psn hp => ?_, fun psn q hp hkept => ?_,
      fun htrim hpsn htaken hearly => ⟨fun src dst collid b hp => ⟨fun hdst => ?_, fun hdst hop hdone => ?_⟩,
        fun ctx va bs core off hp hinv hlive hloc => ?_, fun ctx va n core off hp hlive hloc => ?_⟩⟩
    · obtain ⟨hput, hsent⟩ := uetPut_sends hup 0 (.ack conn h.psn true)
      refine exec_received harg hr ?_
      rw [uetReceived_data hdata, if_pos htrim]
      exact ⟨hsent, hput.mem, hput.tasks⟩
    · obtain ⟨hput, hsent⟩ := uetPut_sends hup 0 (.ack conn h.psn false)
      refine exec_received harg hr ?_
      rw [uetReceived_data hdata, htrim, if_neg Bool.false_ne_true, uetArrive_again (hub := uetHub port) hpsn]
      exact ⟨hsent, hput.mem, hput.tasks, hput.engines⟩
    · refine (exec_ultraEthernetPacket_reached harg hr).trans (congrArg _ ?_)
      exact congrArg (s.uetReceived hub h) hp
    · refine exec_received harg hr ?_
      have hagain : s.uetReceived (uetHub port) h p = s.uetPut hub psn q := by
        refine (congrArg (s.uetReceived hub h) hp).trans ?_
        change s.uetAck hub conn psn true = _
        unfold State.uetAck
        rw [if_pos rfl, hkept]
      rw [hagain]
      exact (uetPut_sends hup psn q).2
    · obtain ⟨u, honly, hsent, heq⟩ := uetReceived_next hup (fun k n again hk => nomatch hp.symm.trans hk) htrim hpsn htaken hearly
      refine exec_received harg hr ?_
      have htake : s.uetReceived (uetHub port) h p = u :=
        heq.trans ((congrArg (u.uetTake hub h.psn) hp).trans (uetTake_send_elsewhere fun hown => hdst (hown.trans (honly.ownChip hub))))
      rw [htake]
      exact ⟨hsent, honly.mem, honly.engines, honly.collEarly⟩
    · obtain ⟨u, honly, hsent, heq⟩ := uetReceived_next hup (fun k n again hk => nomatch hp.symm.trans hk) htrim hpsn htaken hearly
      obtain ⟨hcoll, hout⟩ := uetTake_send_kept (s := u) (hub := hub) (psn := h.psn) (conn := conn) (src := src)
        (dst := dst) (collid := collid) (b := b)
        (by rw [honly.ownChip]; exact hdst) (by rw [honly.collOp]; exact hop) (by rw [honly.collDone]; exact hdone)
      refine exec_received harg hr ?_
      have htake := heq.trans (congrArg (u.uetTake hub h.psn) hp)
      change s.uetReceived (uetHub port) h p = _ at htake
      rw [htake]
      exact ⟨hsent.mono fun x hx => by rw [hout]; exact hx, by rw [hcoll, honly.collEarly]⟩
    · obtain ⟨u, honly, hsent, heq⟩ := uetReceived_next hup (fun k n again hk => nomatch hp.symm.trans hk) htrim hpsn htaken hearly
      have hlen : bs.length ≤ 4096 := write_of_fits ((congrArg UetPacket.fits hp).symm.trans hr.fits)
      obtain ⟨hfabric, hbytes, hothers⟩ := uetTake_write (s := u) (hub := hub) (psn := h.psn) (conn := conn)
        (by rw [honly.mem]; exact hinv.1) (by rw [honly.ctx]; exact hlive) hlen (honly.ctxAccess hloc)
      refine exec_received harg hr ?_
      have htake := heq.trans (congrArg (u.uetTake hub h.psn) hp)
      change s.uetReceived (uetHub port) h p = _ at htake
      rw [htake]
      exact ⟨hsent.mono fun x hx => by rw [hfabric]; exact hx, hbytes, fun a ha => by rw [hothers a ha, honly.mem]⟩
    · obtain ⟨u, honly, hsent, heq⟩ := uetReceived_next hup (fun k n again hk => nomatch hp.symm.trans hk) htrim hpsn htaken hearly
      have hlen : n ≤ 4096 := read_of_fits ((congrArg UetPacket.fits hp).symm.trans hr.fits)
      obtain ⟨hread, hdata⟩ := uetTake_read (s := u) (hub := hub) (psn := h.psn) (conn := conn)
        ((honly.uetUp hub).trans hup) hconn (by rw [honly.ctx]; exact hlive) hlen (honly.ctxAccess hloc)
      refine exec_received harg hr ?_
      have htake := heq.trans (congrArg (u.uetTake hub h.psn) hp)
      change s.uetReceived (uetHub port) h p = _ at htake
      have hbytes : u.bytesAt (.sram core off) n = s.bytesAt (.sram core off) n := by
        rw [State.bytesAt, State.bytesAt, honly.mem]
      rw [htake, ← hbytes]
      exact ⟨hsent.mono hread.out, hdata⟩

/-- Settles O54, by what becomes of collective data and of what comes to the edge of the package. -/
theorem collectiveAndEdgeRules : Obligations.CollectiveAndEdgeRules := ⟨collectiveRules, edgeRules⟩

end Sys2Proof.Machine
end

section
/-! PROOF. Links that send (02 R37 to R45): what a link that lets its packets go leaves of itself, and where a packet is
once a hub has sent it. -/

namespace Sys2Proof.Machine

open Sys2Proof

/-! ## One link that sends (02 R37, R42) -/

/-- A packet as a link carries it: its place in the sequence and where it came from are the link's own. -/
def SameLoad (q p : Packet) : Prop := { q with pseq := p.pseq, via := p.via } = p

theorem SameLoad.refl (p : Packet) : SameLoad p p := rfl

theorem SameLoad.trans {p q r : Packet} (h : SameLoad r q) (k : SameLoad q p) : SameLoad r p := by
  unfold SameLoad at *
  rw [← k, ← h]

/-- A link that has sent some of what waits: what it has received, its lanes and its STATE stand, the replay buffer keeps
what it holds, and each packet that waited waits still or stands in the replay buffer. -/
structure Link.SentOn (l v : Link) : Prop where
  shape : ∃ txSeq replay replayAt sentReq sentRpl sinceResync wire txWait, v = { l with
    txSeq := txSeq, replay := replay, replayAt := replayAt, sentReq := sentReq, sentRpl := sentRpl, sinceResync := sinceResync
    wire := wire, txWait := txWait }
  replay : ∀ q ∈ l.replay, q ∈ v.replay
  waits : ∀ p ∈ l.txWait, ∃ q, (q ∈ v.replay ∨ q ∈ v.txWait) ∧ SameLoad q p

theorem Link.SentOn.refl (l : Link) : l.SentOn l :=
  ⟨⟨_, _, _, _, _, _, _, _, rfl⟩, fun _ h => h, fun p h => ⟨p, .inr h, .refl p⟩⟩

theorem Link.SentOn.trans {l v w : Link} (h : l.SentOn v) (k : v.SentOn w) : l.SentOn w where
  shape := by
    obtain ⟨_, _, _, _, _, _, _, _, rfl⟩ := h.shape
    obtain ⟨_, _, _, _, _, _, _, _, rfl⟩ := k.shape
    exact ⟨_, _, _, _, _, _, _, _, rfl⟩
  replay q hq := k.replay q (h.replay q hq)
  waits p hp := by
    obtain ⟨q, hq | hq, hload⟩ := h.waits p hp
    · exact ⟨q, .inl (k.replay q hq), hload⟩
    · obtain ⟨r, hr, hload'⟩ := k.waits q hq
      exact ⟨r, hr, hload'.trans hload⟩

/-- Putting a packet on the wire counts its flits, and changes nothing else. -/
theorem Link.putWire_shape (l : Link) (ret : Nat × Nat) (p : Packet) : ∃ sentReq sentRpl sinceResync wire,
    l.putWire ret p = { l with sentReq := sentReq, sentRpl := sentRpl, sinceResync := sinceResync, wire := wire } := by
  unfold Link.putWire Link.countSent
  split <;> exact ⟨_, _, _, _, rfl⟩

/-- A new packet as a link sends it. -/
def Link.numbered (l : Link) (p : Packet) : Packet := { p with pseq := l.txSeq + 1, via := none }

/-- A new packet is put on the wire, and stands at the end of the replay buffer. -/
theorem Link.send_shape (l : Link) (ret : Nat × Nat) (p : Packet) : ∃ sentReq sentRpl sinceResync wire,
    l.send ret p = { l with
      txSeq := l.txSeq + 1, replay := l.replay ++ [l.numbered p], sentReq := sentReq, sentRpl := sentRpl
      sinceResync := sinceResync, wire := wire } :=
  Link.putWire_shape { l with txSeq := l.txSeq + 1, replay := l.replay ++ [l.numbered p] } ret (l.numbered p)

/-- What a link may change as it lets packets of `held ++ ps` go. -/
theorem Link.pump_sends (l : Link) (ret : Nat × Nat) (held ps : List Packet) :
    ∃ txSeq replay sentReq sentRpl sinceResync wire txWait, l.pump ret held ps = { l with
      txSeq := txSeq, replay := replay, sentReq := sentReq, sentRpl := sentRpl, sinceResync := sinceResync, wire := wire
      txWait := txWait } ∧ (∀ q ∈ l.replay, q ∈ replay) ∧
    ∀ p ∈ held ++ ps, ∃ q, (q ∈ replay ∨ q ∈ txWait) ∧ SameLoad q p := by
  induction ps generalizing l held with
  | nil =>
    exact ⟨_, _, _, _, _, _, _, rfl, fun _ h => h, fun p hp => ⟨p, .inr (by simpa using hp), .refl p⟩⟩
  | cons x ps ih =>
    unfold Link.pump
    split
    · obtain ⟨_, _, _, _, hsend⟩ := Link.send_shape l ret x
      obtain ⟨_, replay, _, _, _, _, txWait, hpump, hkept, hwaits⟩ := ih (l.send ret x) held
      rw [hsend] at hpump hkept
      refine ⟨_, replay, _, _, _, _, txWait, by rw [hsend, hpump], fun q hq => hkept q (List.mem_append_left _ hq), ?_⟩
      intro p hp
      rcases List.mem_append.1 hp with hp | hp
      · exact hwaits p (List.mem_append_left _ hp)
      · rcases List.mem_cons.1 hp with rfl | hp
        · exact ⟨l.numbered p, .inl (hkept _ (by simp)), .refl _⟩
        · exact hwaits p (List.mem_append_right _ hp)
    · obtain ⟨_, replay, _, _, _, _, txWait, hpump, hkept, hwaits⟩ := ih l (held ++ [x])
      exact ⟨_, replay, _, _, _, _, txWait, hpump, hkept, fun p hp => hwaits p (by simpa using hp)⟩

theorem Link.sentOn_pump (l : Link) (ret : Nat × Nat) : l.SentOn (l.pump ret [] l.txWait) := by
  obtain ⟨_, _, _, _, _, _, _, hpump, hkept, hwaits⟩ := Link.pump_sends l ret [] l.txWait
  rw [hpump]
  exact ⟨⟨_, _, _, _, _, _, _, _, rfl⟩, hkept, hwaits⟩

/-! ## The links of a chip -/

section
variable {s u v : State}

@[simp] theorem link_modLink_same (s : State) (p : Nat) (f : Link → Link) : (s.modLink p f).link p = f (s.link p) := by
  simp only [State.link, State.modLink, State.onFabric_fabric, Tbl.upd, Tbl.getD_put_same]

theorem link_modLink_other {n p : Nat} (s : State) (f : Link → Link) (h : n ≠ p) : (s.modLink p f).link n = s.link n := by
  simp only [State.link, State.modLink, State.onFabric_fabric, Tbl.upd, Tbl.getD_put_other _ _ _ h]

theorem link_of_fabric (h : u.fabric.links = s.fabric.links) (n : Nat) : u.link n = s.link n := by
  rw [State.link, State.link, h]

/-- What comes after the links of a port are set does not touch them: a timer, and a RESYNC that is due. -/
theorem onLink_fabric (s : State) (p : Nat) (f : Link → Link) :
    (s.onLink p f).fabric = (s.modLink p fun _ => { f (s.link p) with
      replayAt := (s.link p).replayDue (f (s.link p)) s.time }).fabric := by
  unfold State.onLink
  dsimp only
  split <;> split <;> (try split) <;> rfl

theorem link_onLink_same (s : State) (p : Nat) (f : Link → Link) :
    (s.onLink p f).link p = { f (s.link p) with replayAt := (s.link p).replayDue (f (s.link p)) s.time } := by
  rw [link_of_fabric (congrArg Fabric.links (onLink_fabric s p f)), link_modLink_same]

theorem link_onLink_other {n p : Nat} (s : State) (f : Link → Link) (h : n ≠ p) : (s.onLink p f).link n = s.link n := by
  rw [link_of_fabric (congrArg Fabric.links (onLink_fabric s p f)), link_modLink_other _ _ h]

/-- Packets have been sent on the links of a chip. -/
structure LinksSent (s u : State) : Prop where
  sent : Sent s u
  link : ∀ n, (s.link n).SentOn (u.link n)

theorem LinksSent.refl (s : State) : LinksSent s s := ⟨.refl s, fun _ => .refl _⟩

theorem LinksSent.trans (h : LinksSent s u) (k : LinksSent u v) : LinksSent s v :=
  ⟨h.sent.trans k.sent, fun n => (h.link n).trans (k.link n)⟩

theorem LinksSent.foldl {α : Type} (f : State → α → State) (h : ∀ s a, LinksSent s (f s a)) (l : List α) (s : State) :
    LinksSent s (l.foldl f s) :=
  List.foldlRecOn l f (.refl s) fun u hu a _ => hu.trans (h u a)

theorem Link.SentOn.phase {l v : Link} (h : l.SentOn v) : v.phase = l.phase := by
  obtain ⟨_, _, _, _, _, _, _, _, rfl⟩ := h.shape; rfl

/-- Where links stand as they did. -/
theorem linksSent_of (h : Sent s u) (hlinks : u.fabric.links = s.fabric.links) : LinksSent s u :=
  ⟨h, fun n => by rw [link_of_fabric hlinks]; exact .refl _⟩

/-- The replay timer of a link that sends is its own affair. -/
theorem Link.SentOn.timed {l v : Link} (h : l.SentOn v) (at_ : Option Nat) : l.SentOn { v with replayAt := at_ } := by
  obtain ⟨_, _, _, _, _, _, _, _, hv⟩ := h.shape
  exact ⟨⟨_, _, _, _, _, _, _, _, by rw [hv]⟩, h.replay, h.waits⟩

theorem linksSent_onLink {p : Nat} {f : Link → Link} (hf : (s.link p).SentOn (f (s.link p))) : LinksSent s (s.onLink p f) := by
  refine ⟨sent_onLink s p f, fun n => ?_⟩
  by_cases h : n = p
  · subst h
    rw [link_onLink_same]
    exact hf.timed _
  · rw [link_onLink_other s f h]
    exact .refl _

theorem linksSent_pumpLink (s : State) (p : Nat) : LinksSent s (s.pumpLink p) :=
  linksSent_onLink (Link.sentOn_pump _ _)

/-- A packet queued at a port. -/
theorem Link.sentOn_queue (l : Link) (p : Packet) : l.SentOn { l with txWait := l.txWait ++ [p] } :=
  ⟨⟨_, _, _, _, _, _, _, _, rfl⟩, fun _ h => h, fun q hq => ⟨q, .inr (List.mem_append_left _ hq), .refl q⟩⟩

/-- A packet queued at a port is on that link or waits for it. -/
theorem linkSend_sends (s : State) (port : Nat) (p : Packet) : LinksSent s (s.linkSend port p) ∧
    ∃ q, (q ∈ ((s.linkSend port p).link port).replay ∨ q ∈ ((s.linkSend port p).link port).txWait) ∧ SameLoad q p := by
  have hqueue : LinksSent s (s.modLink port fun l => { l with txWait := l.txWait ++ [p] }) := by
    refine ⟨sent_modLink _ _ _, fun n => ?_⟩
    by_cases h : n = port
    · subst h
      rw [link_modLink_same]
      exact Link.sentOn_queue _ _
    · rw [link_modLink_other s _ h]
      exact .refl _
  have hpump := linksSent_pumpLink (s.modLink port fun l => { l with txWait := l.txWait ++ [p] }) port
  refine ⟨hqueue.trans hpump, (hpump.link port).waits p ?_⟩
  rw [link_modLink_same]
  simp

theorem linksSent_deliver (s : State) (hub : Nat) (p : Packet) : LinksSent s (s.deliver hub p) := by
  refine linksSent_of (sent_deliver s hub p) ?_
  unfold State.deliver
  split <;> rfl

/-- Choosing a port touches no link. -/
theorem pickPortBut_fabric (s : State) (h : Nat) (chip : BitVec 12) (avoid : Option Nat) :
    (s.pickPortBut h chip avoid).2.fabric = s.fabric := by
  unfold State.pickPortBut
  dsimp only
  split <;> rfl

theorem linksSent_pickPortBut (s : State) (h : Nat) (chip : BitVec 12) (avoid : Option Nat) :
    LinksSent s (s.pickPortBut h chip avoid).2 :=
  linksSent_of (sent_pickPortBut s h chip avoid) (by rw [pickPortBut_fabric])

theorem linksSent_sendPacket (s : State) (hub : Nat) (p : Packet) : LinksSent s (s.sendPacket hub p) := by
  unfold State.sendPacket
  split
  · exact linksSent_deliver _ _ _
  · dsimp only
    split
    · exact (linksSent_pickPortBut _ _ _ _).trans (linkSend_sends _ _ _).1
    · exact linksSent_pickPortBut _ _ _ _

theorem linksSent_modRemote (s : State) (id : Nat) (f : RemoteReq → RemoteReq) : LinksSent s (s.modRemote id f) :=
  linksSent_of (sent_modRemote s id f) rfl

theorem linksSent_post (s : State) (n : Nat) (i : Instr) (a : EvArg) : LinksSent s (s.post n i a) :=
  linksSent_of (sent_post s n i a) rfl

theorem linksSent_transmitBut (s : State) (r : RemoteReq) (avoid : Option Nat) : LinksSent s (s.transmitBut r avoid) := by
  unfold State.transmitBut
  dsimp only
  split
  · exact ((linksSent_deliver _ _ _).trans (linksSent_modRemote _ _ _)).trans (linksSent_post _ _ _ _)
  · split
    · exact (((linksSent_pickPortBut _ _ _ _).trans (linkSend_sends _ _ _).1).trans (linksSent_modRemote _ _ _)).trans
        (linksSent_post _ _ _ _)
    · exact ((linksSent_pickPortBut _ _ _ _).trans (linksSent_modRemote _ _ _)).trans (linksSent_post _ _ _ _)

/-! ## What sending leaves of the fabric -/

/-- All of the fabric but links and requests stands. -/
theorem Sent.fabric (h : Sent s u) : ∃ links remotes, u.fabric = { s.fabric with links := links, remotes := remotes } := by
  obtain ⟨links, remotes, _, _, _, rfl⟩ := h.shape
  exact ⟨links, remotes, rfl⟩

theorem Sent.hubs (h : Sent s u) : u.fabric.hubs = s.fabric.hubs := by
  obtain ⟨_, _, he⟩ := h.fabric; rw [he]

theorem Sent.hubOf (h : Sent s u) (hub : Nat) : u.hubOf hub = s.hubOf hub := by rw [State.hubOf, State.hubOf, h.hubs]

theorem Sent.slipEntry (h : Sent s u) (i : Nat) : u.slipEntry i = s.slipEntry i := by
  obtain ⟨_, _, he⟩ := h.fabric; rw [State.slipEntry, State.slipEntry, he]

theorem Sent.timetable (h : Sent s u) (r : RouterOut) : u.timetable r = s.timetable r := by
  obtain ⟨_, _, he⟩ := h.fabric; rw [State.timetable, State.timetable, he]

/-! ## A packet that a hub sends (02 R44, R45) -/

/-- A hub finds the same ways out: its identity, its routes, and which links are up. -/
structure SameWays (s u : State) (hub : Nat) : Prop where
  chip : u.ownChip hub = s.ownChip hub
  routes : (u.hubOf hub).routes = (s.hubOf hub).routes
  phase : ∀ n, (u.link n).phase = (s.link n).phase
  cycle : u.cycle = s.cycle

theorem SameWays.trans {hub : Nat} (h : SameWays s u hub) (k : SameWays u v hub) : SameWays s v hub :=
  ⟨k.chip.trans h.chip, k.routes.trans h.routes, fun n => (k.phase n).trans (h.phase n), k.cycle.trans h.cycle⟩

theorem SameWays.route {hub : Nat} (h : SameWays s u hub) (chip : BitVec 12) : u.route hub chip = s.route hub chip := by
  rw [State.route, State.route, h.routes]

/-- The fabric's hubs and links stand. -/
theorem sameWays_of {hub : Nat} (hhubs : u.fabric.hubs = s.fabric.hubs) (hlinks : u.fabric.links = s.fabric.links)
    (hcycle : u.cycle = s.cycle) : SameWays s u hub := by
  have hhub : u.hubOf hub = s.hubOf hub := by rw [State.hubOf, State.hubOf, hhubs]
  exact ⟨congrArg Hub.chip hhub, congrArg Hub.routes hhub, fun n => by rw [link_of_fabric hlinks], hcycle⟩

/-- The candidates of a route that are up. -/
def State.upPorts (s : State) (hub : Nat) (chip : BitVec 12) : List Nat :=
  (candidates (s.route hub chip)).filter fun p => (s.link p).phase == .up

/-- Of some candidates that are up, those that owe their peer a number of flits. -/
def State.portsOwing (s : State) (hub : Nat) (chip : BitVec 12) (m : Nat) : List Nat :=
  (s.upPorts hub chip).filter fun p => (s.link p).occupancy == m

/-- With no port to avoid, one of the least-occupied candidates is chosen. -/
theorem pickPort_of_min {hub : Nat} {chip : BitVec 12} {m : Nat} (hr : (s.route hub chip).getLsbD 0 = true)
    (hm : ((s.upPorts hub chip).map fun p => (s.link p).occupancy).min? = some m) :
    (s.pickPort hub chip).1 = (s.portsOwing hub chip m)[(s.choose (s.portsOwing hub chip m).length).1]? := by
  have hall (l : List Nat) : l.filter (fun p => some p != (none : Option Nat)) = l := List.filter_eq_self.2 fun _ _ => rfl
  unfold State.upPorts at hm
  unfold State.pickPort State.pickPortBut
  simp only [hr, if_true, hall, ite_self, hm]
  rfl

/-- With a candidate that is up, one of the candidates is chosen. -/
theorem pickPort_some {hub : Nat} {chip : BitVec 12} (hr : (s.route hub chip).getLsbD 0 = true)
    (hup : ∃ k ∈ candidates (s.route hub chip), (s.link k).phase = .up) :
    ∃ k ∈ candidates (s.route hub chip), (s.pickPort hub chip).1 = some k := by
  obtain ⟨k, hk, hkup⟩ := hup
  have hkmem : k ∈ s.upPorts hub chip := List.mem_filter.2 ⟨hk, beq_iff_eq.2 hkup⟩
  cases hm : ((s.upPorts hub chip).map fun p => (s.link p).occupancy).min? with
  | none =>
    rw [List.map_eq_nil_iff.1 (List.min?_eq_none_iff.1 hm)] at hkmem
    exact absurd hkmem (List.not_mem_nil)
  | some m =>
    obtain ⟨x, hx, hxm⟩ := List.mem_map.1 (List.min?_mem hm)
    have hlt := choose_lt s (List.length_pos_of_mem (List.mem_filter.2 ⟨hx, beq_iff_eq.2 hxm⟩ : x ∈ s.portsOwing hub chip m))
    have hmem : (s.portsOwing hub chip m)[(s.choose (s.portsOwing hub chip m).length).1] ∈ s.portsOwing hub chip m :=
      List.getElem_mem hlt
    exact ⟨_, (List.mem_filter.1 (List.mem_filter.1 hmem).1).1, (pickPort_of_min hr hm).trans (List.getElem?_eq_getElem hlt)⟩

/-- What a hub sends is due on this chip, or stands on a link. -/
theorem sends_sendPacket {hub : Nat} {r : Packet} (h : SameWays s u hub) {j : Instr} (hj : packetEvent r.op.toNat = some j) :
    s.Sends (u.sendPacket hub r) hub r := by
  refine ⟨fun hown => ⟨j, hj, ?_⟩, fun hother hroute hup => ?_⟩
  · rw [State.sendPacket, if_pos (hown.trans h.chip.symm), State.deliver, hj, ← h.cycle]
    exact mem_insertDue.2 (.inl rfl)
  · have hup' : ∃ k ∈ candidates (u.route hub r.dst), (u.link k).phase = .up := by
      obtain ⟨k, hk, hkup⟩ := hup
      exact ⟨k, by rwa [h.route], by rwa [h.phase]⟩
    obtain ⟨k, hk, hpick⟩ := pickPort_some (by rwa [h.route]) hup'
    refine ⟨k, by rwa [h.route] at hk, ?_⟩
    rw [State.sendPacket, if_neg (fun he => hother (he.trans h.chip))]
    dsimp only
    rw [hpick]
    exact (linkSend_sends (u.pickPort hub r.dst).2 k r).2

end

end Sys2Proof.Machine
end

section
/-! PROOF. O53: timetables of router outputs (02 R47 to R49). -/

namespace Sys2Proof.Machine

open Sys2Proof

section
variable {s u v : State}

/-! ## Storing a timetable -/

theorem timetable_setTimetable_same (s : State) (r : RouterOut) (t : Timetable) : (s.setTimetable r t).timetable r = t := by
  simp [State.timetable, State.setTimetable]

theorem timetable_setTimetable_other {q r : RouterOut} (s : State) (t : Timetable) (h : q ≠ r) :
    (s.setTimetable r t).timetable q = s.timetable q := by
  have hne : (r == q) = false := beq_false_of_ne (Ne.symm h)
  have hfilter (l : List (RouterOut × Timetable)) :
      (l.filter fun y => y.1 != r).find? (fun y => y.1 == q) = l.find? fun y => y.1 == q := by
    rw [List.find?_filter]
    congr 1
    funext y
    by_cases hy : y.1 = q
    · simp [hy, h]
    · simp [hy]
  simp [State.timetable, State.setTimetable, hne, hfilter]

/-- A router's next slot is only looked forward to. -/
theorem sent_postSlots (s : State) (r : RouterOut) (k : Nat) (i : Instr) (a : EvArg) : Sent s (s.postSlots r k i a) := by
  unfold State.postSlots
  split
  · exact sent_postTime _ _ _ _
  · exact sent_post _ _ _ _

theorem sent_circuitNext (s : State) (r : RouterOut) (n : Nat) : Sent s (s.circuitNext r n) := by
  unfold State.circuitNext
  dsimp only
  split
  · split
    · exact .refl s
    · exact sent_postSlots _ _ _ _ _
  · exact .refl s

theorem sent_nextHop (s : State) (r : RouterOut) (n : Nat) (f : CircFlit) : Sent s (s.nextHop r n f) := by
  unfold State.nextHop
  dsimp only
  split
  · split
    · exact sent_postSlots _ _ _ _ _
    · exact sent_post _ _ _ _
  · exact .refl s

/-- A flit that has crossed is recorded, and goes on its way. -/
theorem sent_circuitCrossed (s : State) (r : RouterOut) (n : Nat) (f : CircFlit) :
    Sent (s.onFabric fun x => { x with circuitOut := (r, f.pkt) :: x.circuitOut }) (s.circuitCrossed r n f) := by
  unfold State.circuitCrossed
  dsimp only
  split
  · exact sent_linkSend _ _ _
  · split
    · exact .refl _
    · exact sent_nextHop _ _ _ _

/-! ## What circuit flits leave of the timetables -/

/-- Circuit flits have crossed or wait: each output keeps its banks, and which is in force when, and only the slot from which
it is free moves. -/
structure SameBanks (s u : State) : Prop where
  bank : ∀ q, ∃ free, u.timetable q = { s.timetable q with free := free }

theorem SameBanks.refl (s : State) : SameBanks s s := ⟨fun _ => ⟨_, rfl⟩⟩

theorem SameBanks.trans (h : SameBanks s u) (k : SameBanks u v) : SameBanks s v where
  bank q := by
    obtain ⟨_, hu⟩ := h.bank q
    obtain ⟨free, hv⟩ := k.bank q
    exact ⟨free, by rw [hv, hu]⟩

theorem sameBanks_of (h : ∀ q, u.timetable q = s.timetable q) : SameBanks s u := ⟨fun q => ⟨_, h q⟩⟩

theorem Sent.sameBanks (h : Sent s u) : SameBanks s u := sameBanks_of h.timetable

/-- The slots for which a flit takes an output: one, or more at a port below 16 lanes. -/
def State.crossSlots (s : State) (r : RouterOut) : Nat := if r.kind = 2 then 2 ^ (s.link r.index).width else 1

/-- The output as a flit that crosses in slot `n` takes it. -/
def State.takeSlots (s : State) (r : RouterOut) (n : Nat) : State :=
  s.setTimetable r { s.timetable r with free := n + s.crossSlots r }

/-- The last flit of a packet that crosses waits no longer. -/
theorem circuitCross_last {r : RouterOut} {n : Nat} {f : CircFlit} (h : f.left ≤ 1) : s.circuitCross r n f =
    ((s.takeSlots r n).onFabric fun x => { x with circuitWait := x.circuitWait.erase f }).circuitCrossed r n f := by
  unfold State.circuitCross
  dsimp only
  rw [if_pos h]
  rfl

/-- Of a flit before the last, one less is left. -/
theorem circuitCross_more {r : RouterOut} {n : Nat} {f : CircFlit} (h : 1 < f.left) : s.circuitCross r n f =
    (s.takeSlots r n).onFabric fun x =>
      { x with circuitWait := x.circuitWait.replace f { f with left := f.left - 1 } } := by
  unfold State.circuitCross
  dsimp only
  rw [if_neg (Nat.not_le.2 h)]
  rfl

theorem sameBanks_takeSlots (s : State) (r : RouterOut) (n : Nat) : SameBanks s (s.takeSlots r n) := by
  refine ⟨fun q => ?_⟩
  by_cases hq : q = r
  · subst hq
    exact ⟨_, timetable_setTimetable_same _ _ _⟩
  · exact ⟨_, timetable_setTimetable_other _ _ hq⟩

theorem sameBanks_circuitCross (s : State) (r : RouterOut) (n : Nat) (f : CircFlit) : SameBanks s (s.circuitCross r n f) := by
  rcases Nat.lt_or_ge 1 f.left with h | h
  · rw [circuitCross_more h]
    exact (sameBanks_takeSlots s r n).trans (sameBanks_of fun _ => rfl)
  · rw [circuitCross_last h]
    refine SameBanks.trans ?_ (sent_circuitCrossed _ r n f).sameBanks
    exact (sameBanks_takeSlots s r n).trans (sameBanks_of fun _ => rfl)

theorem sameBanks_circuitSlot (s : State) (r : RouterOut) (n : Nat) : SameBanks s (s.circuitSlot r n) := by
  unfold State.circuitSlot
  dsimp only
  split
  · exact (sameBanks_circuitCross _ _ _ _).trans (sent_circuitNext _ _ _).sameBanks
  · exact (sent_circuitNext _ _ _).sameBanks

theorem sameBanks_circuitInject (s : State) (hub circuit : Nat) (p : Packet) : SameBanks s (s.circuitInject hub circuit p) := by
  unfold State.circuitInject State.circuitArrive
  split
  · refine SameBanks.trans ?_ (sameBanks_circuitSlot _ _ _)
    exact sameBanks_of fun _ => rfl
  · exact sameBanks_of fun _ => rfl

theorem sameBanks_circuitRetry (s : State) : SameBanks s s.circuitRetry := by
  unfold State.circuitRetry
  refine List.foldlRecOn (motive := fun u => SameBanks s u) _ _ ?_ fun u hu f _ => hu.trans (sameBanks_circuitInject u _ _ _)
  exact sameBanks_of fun _ => rfl

/-! ## Banks (02 R47, R48) -/

theorem whenBar_open (f : State → State) (hup : s.host.welomUp = true) (hready : s.package.phase = .ready) :
    s.whenBar f = f s := by
  simp [State.whenBar, hup, hready]

theorem exec_timetableBankWrite {r : RouterOut} {entries : List (BitVec 32)} {n : Nat} (harg : s.arg = .bank r entries n)
    (hup : s.host.welomUp = true) (hready : s.package.phase = .ready) : exec .timetableBankWrite s = .next
      (if routerThere r = false ∨ s.ttConflict r entries = true then s else s.loadBank r entries n) := by
  change execTimetableBankWrite s = _
  rw [execTimetableBankWrite, harg]
  exact congrArg _ (whenBar_open _ hup hready)

theorem mem_postSlots (s : State) (r : RouterOut) (k : Nat) (i : Instr) (a : EvArg) :
    ∃ m, (m, i, a) ∈ (if r.kind = 2 then (s.postSlots r k i a).timers else (s.postSlots r k i a).due) := by
  unfold State.postSlots
  split
  · exact ⟨_, mem_insertDue.2 (.inl rfl)⟩
  · exact ⟨_, mem_insertDue.2 (.inl rfl)⟩

/-- The slot 0 at or after a slot and after the one now. -/
def nextSlotZero (n now : Nat) : Nat := (max n (now + 1) + 255) / 256 * 256

theorem nextSlotZero_spec (n now : Nat) : nextSlotZero n now % 256 = 0 ∧ n ≤ nextSlotZero n now := by
  unfold nextSlotZero
  omega

/-- The timetable with a bank loaded that waits for its switch. -/
def Timetable.loaded (t : Timetable) (entries : List (BitVec 32)) (n : Nat) : Timetable :=
  let bank := (List.range slotsPerTable).map (slotOf entries)
  { t with
    bank0 := if t.active then bank else t.bank0
    bank1 := if t.active then t.bank1 else bank
    switchAt := some n }

theorem Timetable.loaded_now (t : Timetable) (entries : List (BitVec 32)) (n : Nat) : (t.loaded entries n).now = t.now := by
  cases h : t.active <;> simp [Timetable.now, Timetable.loaded, h]

theorem Timetable.loaded_other (t : Timetable) (entries : List (BitVec 32)) (n : Nat) {i : Nat} (hi : i < 256) :
    (t.loaded entries n).other[i]? = some (entries.getD i 0) := by
  have hother : (t.loaded entries n).other = (List.range slotsPerTable).map (slotOf entries) := by
    cases h : t.active <;> simp [Timetable.other, Timetable.loaded, h]
  rw [hother, List.getElem?_map, List.getElem?_range hi]
  rfl

/-- A bank that is loaded comes into force at a slot 0 at or after its switch slot. -/
theorem loadBank_loads (s : State) (r : RouterOut) (entries : List (BitVec 32)) (n : Nat) : ∃ m k,
    Sent (s.setTimetable r ((s.timetable r).loaded entries n)) (s.loadBank r entries n) ∧
    (m, .timetableBankSwitch, .router r k) ∈
      (if r.kind = 2 then (s.loadBank r entries n).timers else (s.loadBank r entries n).due) ∧ k % 256 = 0 ∧ n ≤ k := by
  let s1 := s.setTimetable r ((s.timetable r).loaded entries n)
  let k := nextSlotZero n (s1.slotCount r)
  obtain ⟨m, hm⟩ := mem_postSlots s1 r (k - s1.slotCount r) .timetableBankSwitch (.router r k)
  obtain ⟨hzero, hle⟩ := nextSlotZero_spec n (s1.slotCount r)
  exact ⟨m, k, sent_postSlots s1 r _ _ _, hm, hzero, hle⟩

/-- The two banks change places. -/
def Timetable.switched (t : Timetable) : Timetable := { t with active := !t.active, switchAt := none }

theorem Timetable.switched_banks (t : Timetable) : t.switched.now = t.other ∧ t.switched.other = t.now := by
  cases h : t.active <;> simp [Timetable.now, Timetable.other, Timetable.switched, h]

theorem exec_timetableBankSwitch {r : RouterOut} {n k : Nat} (harg : s.arg = .router r n)
    (hk : (s.timetable r).switchAt = some k) (hn : n % 256 = 0) (hkn : k ≤ n) : exec .timetableBankSwitch s = .next
      (if s.fabric.circuitWait.isEmpty then s.setTimetable r (s.timetable r).switched
       else ((s.setTimetable r (s.timetable r).switched).circuitSlot r n).circuitRetry) := by
  change execTimetableBankSwitch s = _
  simp only [execTimetableBankSwitch, harg, hk, hn, hkn, and_self, if_true, Timetable.switched]

/-! ## Circuit data (02 R47, R49) -/

/-- Does an entry assign its slot to a circuit flit at an input? -/
def entryFits (e : BitVec 32) (input circuit : Nat) : Prop :=
  e.getLsbD 0 = true ∧ (e.extractLsb' 2 6).toNat = input ∧ (e.extractLsb' 8 12).toNat = circuit

theorem takes_iff {f : CircFlit} {r : RouterOut} {e : BitVec 32} (h : f.router = r) :
    f.takes r e = true ↔ entryFits e f.input f.circuit := by
  simp only [CircFlit.takes, ttValid, ttInput, ttCircuit, h, beq_self_eq_true, Bool.and_true, Bool.and_eq_true, beq_iff_eq,
    entryFits, and_assoc]
  exact and_congr_right fun _ => and_congr eq_comm eq_comm

/-- The flits of a packet that has come to an input. -/
def arrivedFlit (r : RouterOut) (input circuit : Nat) (p : Packet) : CircFlit := ⟨r, input, circuit, p, pktFlits p⟩

/-- The same chip with a flit at the end of those that wait. -/
def State.withFlit (s : State) (f : CircFlit) : State := s.onFabric fun x => { x with circuitWait := x.circuitWait ++ [f] }

/-- Of the flits that wait, only the one that has just come can take a slot of its output. -/
theorem find?_withFlit {r : RouterOut} (f : CircFlit) (e : BitVec 32) (halone : ∀ x ∈ s.fabric.circuitWait, x.router ≠ r) :
    (s.withFlit f).fabric.circuitWait.find? (fun x => x.takes r e) = if f.takes r e then some f else none := by
  have hnone : s.fabric.circuitWait.find? (fun x => x.takes r e) = none := by
    refine List.find?_eq_none.2 fun x hx htake => halone x hx ?_
    simp only [CircFlit.takes, Bool.and_eq_true, beq_iff_eq] at htake
    exact htake.1.1.2
  rw [State.withFlit, State.onFabric_fabric, List.find?_append, hnone, Option.none_or, List.find?_singleton]

theorem exec_circuitData_circuit {r : RouterOut} {input circuit n : Nat} {p : Packet}
    (harg : s.arg = .circuit r input circuit n p) :
    exec .circuitData s = .next ((s.withFlit (arrivedFlit r input circuit p)).circuitSlot r n) := by
  change execCircuitData s = _
  rw [execCircuitData, harg]
  rfl

theorem exec_circuitData_packet {hub : Nat} {p : Packet} (harg : s.arg = .packet hub p) : exec .circuitData s =
    .next (s.onFabric fun x => { x with circuitIn := (hub, p) :: x.circuitIn }) := by
  change execCircuitData s = _
  rw [execCircuitData, harg]

/-- What a slot leaves in which no flit crosses. -/
theorem circuitSlot_none {r : RouterOut} {n : Nat} (h : (s.timetable r).free ≤ n →
      s.fabric.circuitWait.find? (fun f => f.takes r (slotOf (s.timetable r).now (n % slotsPerTable))) = none) :
    s.circuitSlot r n = s.circuitNext r n := by
  unfold State.circuitSlot
  dsimp only
  have hnone : (if (s.timetable r).free ≤ n then
      s.fabric.circuitWait.find? fun f => f.takes r (slotOf (s.timetable r).now (n % slotsPerTable)) else none) = none := by
    split
    · next hfree => exact h hfree
    · rfl
  rw [hnone]

/-- What a slot leaves in which a flit crosses. -/
theorem circuitSlot_some {r : RouterOut} {n : Nat} {f : CircFlit} (hfree : (s.timetable r).free ≤ n)
    (h : s.fabric.circuitWait.find? (fun f => f.takes r (slotOf (s.timetable r).now (n % slotsPerTable))) = some f) :
    s.circuitSlot r n = (s.circuitCross r n f).circuitNext r n := by
  unfold State.circuitSlot
  dsimp only
  rw [if_pos hfree, h]

/-- Circuit data leaves memory and tasks alone. -/
structure Crossed (s u : State) (out : List (RouterOut × Packet)) (wait : List CircFlit) (r : RouterOut) (free : Nat) : Prop where
  mem : u.mem = s.mem
  tasks : u.tasks = s.tasks
  out : u.fabric.circuitOut = out
  wait : u.fabric.circuitWait = wait
  free : (u.timetable r).free = free

theorem Crossed.sent {out : List (RouterOut × Packet)} {wait : List CircFlit} {r : RouterOut} {free : Nat}
    (h : Crossed s u out wait r free) (k : Sent u v) : Crossed s v out wait r free := by
  obtain ⟨_, _, he⟩ := k.fabric
  exact ⟨k.mem.trans h.mem, k.tasks.trans h.tasks, by rw [he]; exact h.out, by rw [he]; exact h.wait,
    by rw [k.timetable]; exact h.free⟩

theorem takeSlots_free (s : State) (r : RouterOut) (n : Nat) : ((s.takeSlots r n).timetable r).free = n + s.crossSlots r :=
  congrArg Timetable.free (timetable_setTimetable_same s r _)

/-- The last flit of a packet crosses. -/
theorem crossed_last {f : CircFlit} {n : Nat} (hleft : f.left ≤ 1) (halone : ∀ x ∈ s.fabric.circuitWait, x.router ≠ f.router) :
    Crossed s ((s.withFlit f).circuitCross f.router n f) ((f.router, f.pkt) :: s.fabric.circuitOut) s.fabric.circuitWait f.router
      (n + s.crossSlots f.router) := by
  have hnot : f ∉ s.fabric.circuitWait := fun h => halone f h rfl
  rw [circuitCross_last hleft]
  refine Crossed.sent ?_ (sent_circuitCrossed _ f.router n f)
  refine ⟨rfl, rfl, rfl, ?_, takeSlots_free (s.withFlit f) f.router n⟩
  change (s.fabric.circuitWait ++ [f]).erase f = s.fabric.circuitWait
  rw [List.erase_append_right _ hnot, List.erase_cons_head, List.append_nil]

/-- A flit before the last crosses. -/
theorem crossed_more {f : CircFlit} {n : Nat} (hleft : 1 < f.left) (halone : ∀ x ∈ s.fabric.circuitWait, x.router ≠ f.router) :
    Crossed s ((s.withFlit f).circuitCross f.router n f) s.fabric.circuitOut
      (s.fabric.circuitWait ++ [{ f with left := f.left - 1 }]) f.router (n + s.crossSlots f.router) := by
  have hnot : f ∉ s.fabric.circuitWait := fun h => halone f h rfl
  rw [circuitCross_more hleft]
  refine ⟨rfl, rfl, rfl, ?_, takeSlots_free (s.withFlit f) f.router n⟩
  change (s.fabric.circuitWait ++ [f]).replace f { f with left := f.left - 1 } = _
  rw [List.replace_append_right hnot]
  simp

end

theorem timetableRules : Claim.TimetableRules := by
  intro s r
  refine ⟨fun entries n harg hup hready => ⟨fun hthere hconf => ?_, fun hbad => ?_⟩, fun n k harg hk hn hkn => ?_,
    fun input circuit n p harg halone => ?_, fun hub p harg => ?_⟩
  · have hexec := exec_timetableBankWrite harg hup hready
    rw [if_neg (by simp [hthere, hconf])] at hexec
    obtain ⟨m, k, hsent, hm, hzero, hle⟩ := loadBank_loads s r entries n
    have hmine := (hsent.timetable r).trans (timetable_setTimetable_same s r _)
    refine ⟨_, m, k, hexec, ⟨fun q hq => (hsent.timetable q).trans (timetable_setTimetable_other s _ hq), hsent.mem, hsent.tasks⟩,
      ?_, fun i hi => ?_, ?_, hm, hzero, hle⟩
    · rw [hmine, Timetable.loaded_now]
    · rw [hmine, Timetable.loaded_other _ _ _ hi]
    · rw [hmine]
      rfl
  · rw [exec_timetableBankWrite harg hup hready, if_pos hbad]
  · have hbanks : ∃ u, exec .timetableBankSwitch s = .next u ∧ SameBanks (s.setTimetable r (s.timetable r).switched) u ∧
        (s.fabric.circuitWait = [] → u = s.setTimetable r (s.timetable r).switched) := by
      refine ⟨_, exec_timetableBankSwitch harg hk hn hkn, ?_, fun hempty => by simp [hempty]⟩
      split
      · exact .refl _
      · exact (sameBanks_circuitSlot _ _ _).trans (sameBanks_circuitRetry _)
    obtain ⟨u, hu, hsame, hquiet⟩ := hbanks
    obtain ⟨free, hr⟩ := hsame.bank r
    rw [timetable_setTimetable_same] at hr
    obtain ⟨hnow, hother⟩ := (s.timetable r).switched_banks
    refine ⟨u, hu, fun hempty => ?_, by rw [hr]; exact hnow, by rw [hr]; exact hother, by rw [hr]; rfl⟩
    rw [hquiet hempty]
    exact ⟨fun q hq => timetable_setTimetable_other s _ hq, rfl, rfl⟩
  · have hexec := exec_circuitData_circuit harg
    have hfind := find?_withFlit (r := r) (arrivedFlit r input circuit p)
      (slotOf ((s.withFlit (arrivedFlit r input circuit p)).timetable r).now (n % slotsPerTable)) halone
    have hcross (hfits : entryFits ((s.timetable r).now.getD (n % 256) 0) input circuit) (hfree : (s.timetable r).free ≤ n) :
        exec .circuitData s = .next (((s.withFlit (arrivedFlit r input circuit p)).circuitCross r n
          (arrivedFlit r input circuit p)).circuitNext r n) := by
      rw [hexec, circuitSlot_some (s := s.withFlit (arrivedFlit r input circuit p)) hfree
        (hfind.trans (if_pos ((takes_iff rfl).2 hfits)))]
    refine ⟨fun hfits hfree hpay => ?_, fun hfits hfree hpay => ?_, fun hno => ?_⟩
    · have hdone := (crossed_last (n := n) (f := arrivedFlit r input circuit p)
        (by simp [arrivedFlit, pktFlits, hpay]) halone).sent (sent_circuitNext _ r n)
      exact ⟨_, hcross hfits hfree, hdone.mem, hdone.tasks, hdone.out, hdone.wait, hdone.free⟩
    · have hdone := (crossed_more (n := n) (f := arrivedFlit r input circuit p)
        (by simp [arrivedFlit, pktFlits, List.length_pos_iff.2 hpay]) halone).sent (sent_circuitNext _ r n)
      refine ⟨_, hcross hfits hfree, hdone.mem, hdone.tasks, hdone.out, hdone.wait.trans ?_, hdone.free⟩
      simp [arrivedFlit, pktFlits]
    · have hnone := circuitSlot_none (s := s.withFlit (arrivedFlit r input circuit p)) (r := r) (n := n) fun hfree =>
        hfind.trans (if_neg fun htake => hno.elim (fun h => h ((takes_iff (f := arrivedFlit r input circuit p) rfl).1 htake)) (Nat.not_lt.2 hfree))
      have hsent := sent_circuitNext (s.withFlit (arrivedFlit r input circuit p)) r n
      obtain ⟨_, _, hfabric⟩ := hsent.fabric
      refine ⟨_, hexec.trans (congrArg _ hnone), hsent.mem, hsent.tasks, by rw [hfabric]; rfl, hsent.timetable r, ?_⟩
      rw [hfabric]
      rfl
  · exact exec_circuitData_packet harg

end Sys2Proof.Machine
end

section
/-! PROOF. O53: what a request that is performed leaves of the fabric (02 R45, R46): memory, caches, rolls and page faults
are no business of the hubs. -/

namespace Sys2Proof.Machine

open Sys2Proof

section
variable {s u v : State}

/-! ## Caches and tables -/

theorem hbmActive_fabric (s : State) (line : Nat) : (s.hbmActive line).fabric = s.fabric := by
  unfold State.hbmActive
  split <;> rfl

theorem leaveL2_fabric (s : State) (l : L2Line) : (s.leaveL2 l).fabric = s.fabric := by
  have hdirty : (if l.dirty = true then s.hbmActive l.line else s).fabric = s.fabric := by
    split
    · exact hbmActive_fabric _ _
    · rfl
  unfold State.leaveL2
  dsimp only
  split
  · rw [recordEvent_fabric]
    exact hdirty
  · exact hdirty

theorem makeWay_fabric (s : State) (line : Nat) : (s.makeWay line).fabric = s.fabric := by
  unfold State.makeWay
  dsimp only
  split
  · rfl
  · split
    · exact leaveL2_fabric _ _
    · rfl

theorem touchL2_fabric (s : State) (ctx pa : Nat) (how : LineClass × Option Nat) (d : Bool) :
    (s.touchL2 ctx pa how d).fabric = s.fabric := by
  unfold State.touchL2
  split
  · rfl
  · dsimp only
    rw [State.onMem_fabric]
    split
    · rfl
    · rw [hbmActive_fabric, makeWay_fabric]

theorem unitTouch_fabric (s : State) (ctx va pa n : Nat) (evf d : Bool) : (s.unitTouch ctx va pa n evf d).fabric = s.fabric :=
  List.foldlRecOn (motive := fun u : State => u.fabric = s.fabric) _ _ rfl fun _ hu _ _ => (touchL2_fabric _ _ _ _ _).trans hu

theorem evictL2_fabric (s : State) (line : Nat) : (s.evictL2 line).fabric = s.fabric := by
  unfold State.evictL2
  split
  · exact leaveL2_fabric _ _
  · rfl

theorem unitAtom_fabric (s : State) (ctx va pa n : Nat) (place : Place) : (s.unitAtom ctx va pa n place).fabric = s.fabric := by
  unfold State.unitAtom State.atHome
  split
  · exact unitTouch_fabric _ _ _ _ _ _ _
  · rw [hbmActive_fabric, evictL2_fabric]

theorem recordPageFault_fabric (s : State) (ctx va : Nat) (cow : Bool) (level : Nat) (engine : Bool) :
    (s.recordPageFault ctx va cow level engine).fabric = s.fabric := by
  unfold State.recordPageFault
  dsimp only
  split
  · rfl
  · split <;> rfl

/-! ## Bytes -/

theorem locRead_fabric (s : State) (ctx va : Nat) (loc : Loc) (n : Nat) (evf : Bool) :
    (s.locRead ctx va loc n evf).2.fabric = s.fabric := by
  unfold State.locRead
  split
  · exact (unitTouch_fabric _ _ _ _ _ _ _).trans (rollsPoked_physRead _ _ _ _).fabric
  · rfl
  · rfl

theorem locWrite_fabric (s : State) (ctx va : Nat) (loc : Loc) (bs : List Byte) (evf : Bool) :
    (s.locWrite ctx va loc bs evf).fabric = s.fabric := by
  unfold State.locWrite
  split
  · exact (unitTouch_fabric _ _ _ _ _ _ _).trans (rollsPoked_physWrite _ _ _ _).fabric
  · exact (rollsPoked_pokeRolls _ _).fabric
  · rfl

theorem atomPhys_fabric (s : State) (ctx pa : Nat) (a : AtomSpec) : (s.atomPhys ctx pa a).2.fabric = s.fabric := by
  unfold State.atomPhys State.atomKey
  split
  · rfl
  · dsimp only
    split
    · exact (rollsPoked_physWrite _ _ _ _).fabric.trans (rollsPoked_physRead _ _ _ _).fabric
    · exact (rollsPoked_physRead _ _ _ _).fabric

theorem atomSram_fabric (s : State) (core off : Nat) (a : AtomSpec) : (s.atomSram core off a).2.fabric = s.fabric := by
  unfold State.atomSram
  dsimp only
  split <;> rfl

/-! ## Requests that are performed -/

theorem answer_hubs (s : State) (hub : Nat) (p reply : Packet) : (s.answer hub p reply).fabric.hubs = s.fabric.hubs :=
  (sent_sendPacket _ hub reply).hubs

theorem targetRead_hubs (s : State) (hub ctx : Nat) (p : Packet) (loc : Loc) :
    (s.targetRead hub ctx p loc).fabric.hubs = s.fabric.hubs :=
  (answer_hubs _ _ _ _).trans (congrArg Fabric.hubs (locRead_fabric s ctx _ loc _ _))

theorem targetWrite_hubs (s : State) (hub ctx : Nat) (p : Packet) (loc : Loc) :
    (s.targetWrite hub ctx p loc).fabric.hubs = s.fabric.hubs := by
  have hwrite := congrArg Fabric.hubs (locWrite_fabric s ctx p.vaddr.toNat loc (payloadBytes p) false)
  have hpoison (u : State) (ls : List Nat) : (ls.foldl (State.poisonLine · 1 hub) u).fabric = u.fabric :=
    List.foldlRecOn (motive := fun v : State => v.fabric = u.fabric) _ _ rfl fun _ hv _ _ => hv
  unfold State.targetWrite
  cases loc with
  | phys pa place evf =>
    dsimp only
    split
    · exact answer_hubs _ _ _ _
    · exact (answer_hubs _ _ _ _).trans ((congrArg Fabric.hubs (hpoison _ _)).trans hwrite)
  | sram c o =>
    dsimp only
    split
    · exact answer_hubs _ _ _ _
    · exact (answer_hubs _ _ _ _).trans hwrite
  | peer chip fctx a =>
    dsimp only
    split
    · exact answer_hubs _ _ _ _
    · exact (answer_hubs _ _ _ _).trans hwrite

theorem targetAtomic_hubs (s : State) (hub ctx : Nat) (p : Packet) (loc : Loc) :
    (s.targetAtomic hub ctx p loc).fabric.hubs = s.fabric.hubs := by
  unfold State.targetAtomic
  dsimp only
  split
  · next pa place _ =>
    have hatom := atomPhys_fabric s ctx pa (atomOfPkt p)
    revert hatom
    generalize s.atomPhys ctx pa (atomOfPkt p) = x
    obtain ⟨old, u⟩ := x
    intro hatom
    cases old with
    | none => exact (answer_hubs _ _ _ _).trans (congrArg Fabric.hubs hatom)
    | some old =>
      exact (answer_hubs _ _ _ _).trans (congrArg Fabric.hubs ((unitAtom_fabric _ _ _ _ _ _).trans hatom))
  · next c o =>
    exact (answer_hubs _ _ _ _).trans (congrArg Fabric.hubs
      ((rollsPoked_pokeRolls _ _).fabric.trans (atomSram_fabric s c o (atomOfPkt p))))
  · rfl

theorem perform_hubs (s : State) (hub : Nat) (p : Packet) : (s.perform hub p).fabric.hubs = s.fabric.hubs := by
  unfold State.perform
  split
  · exact answer_hubs _ _ _ _
  · split
    · exact answer_hubs _ _ _ _
    · dsimp only
      split
      · exact answer_hubs _ _ _ _
      · exact answer_hubs _ _ _ _
      · rw [State.onFabric_fabric, recordPageFault_fabric]
      · split
        · exact targetRead_hubs _ _ _ _ _
        · exact targetWrite_hubs _ _ _ _ _
        · exact targetAtomic_hubs _ _ _ _ _

theorem performHeld_hubs (s : State) (hub : Nat) (p : Packet) : (s.performHeld hub p).fabric.hubs = s.fabric.hubs := by
  unfold State.performHeld
  split
  · split
    · exact targetWrite_hubs _ _ _ _ _
    · exact targetWrite_hubs _ _ _ _ _
  · exact targetWrite_hubs _ _ _ _ _
  · exact perform_hubs _ _ _

end

end Sys2Proof.Machine
end

section
/-! PROOF. O53: slips that are asked about, answered and freed, and the writes that wait for them (02 R50 to R55). -/

namespace Sys2Proof.Machine

open Sys2Proof

section
variable {s u v : State}

/-! ## The slip table (02 R50, R51) -/

theorem slipEntry_modSlip_same (s : State) (i : Nat) (f : SlipEntry → SlipEntry) :
    (s.modSlip i f).slipEntry i = f (s.slipEntry i) := by
  simp only [State.slipEntry, State.modSlip, State.onFabric_fabric, Tbl.upd, Tbl.getD_put_same]

theorem exec_slipEntryFree {i : Nat} (harg : s.arg = .num i)
    (hphase : (s.slipEntry i).phase = .landed ∨ (s.slipEntry i).phase = .expired)
    (hleft : (s.slipEntry i).leftAt + 1048576 ≤ s.cycle) :
    exec .slipEntryFree s = .next (s.modSlip i fun e => { e with phase := .free }) := by
  change execSlipEntryFree s = _
  simp only [execSlipEntryFree, harg]
  rw [if_pos ⟨hphase, hleft⟩]

theorem slipIndex_eq (t : BitVec 32) : slipIndex t = t.toNat / 2 ^ 8 % 2 ^ 12 := by
  rw [slipIndex, BitVec.extractLsb'_toNat, Nat.shiftRight_eq_div_pow]

theorem slipCount_eq (t : BitVec 32) : slipCount t = t.setWidth 8 := by
  apply BitVec.eq_of_toNat_eq
  rw [slipCount, BitVec.extractLsb'_toNat, BitVec.toNat_setWidth, Nat.shiftRight_zero]

/-- What EXPMAP answers of a slip whose entry has gone on. -/
def SlipEntry.byMap (e : SlipEntry) (t : BitVec 32) : Nat := if e.expmap.getLsbD (t.toNat % 256) then 2 else 0

/-- An answer, with the interest map that it leaves at its entry. -/
structure SlipAnswered (s : State) (t : BitVec 32) (chip : BitVec 12) (a : Nat) (interest : BitVec 512) : Prop where
  answer : (s.slipAnswer t chip).1 = a
  shape : ∃ slips, (s.slipAnswer t chip).2 = s.onFabric fun x => { x with slips := slips }
  entry : (s.slipAnswer t chip).2.slipEntry (slipIndex t) = { s.slipEntry (slipIndex t) with interest := interest }

section
variable {t : BitVec 32} {chip : BitVec 12}

theorem slipAnswered_quiet {a : Nat} (h : s.slipAnswer t chip = (a, s)) :
    SlipAnswered s t chip a (s.slipEntry (slipIndex t)).interest :=
  ⟨by rw [h], ⟨s.fabric.slips, by rw [h]; rfl⟩, by rw [h]⟩

theorem slipAnswered_pending (hcount : (s.slipEntry (slipIndex t)).count = t.setWidth 8)
    (hphase : (s.slipEntry (slipIndex t)).phase = .pending) :
    SlipAnswered s t chip 1 ((s.slipEntry (slipIndex t)).interest ||| (1#512 <<< chip.toNat)) := by
  have h : s.slipAnswer t chip = (1, s.modSlip (slipIndex t) fun e =>
      { e with interest := e.interest ||| (1#512 <<< chip.toNat) }) := by
    simp only [State.slipAnswer, slipCount_eq, hcount, hphase, if_true]
  exact ⟨by rw [h], ⟨_, by rw [h]; rfl⟩, by rw [h]; exact slipEntry_modSlip_same _ _ _⟩

theorem slipAnswered_landed (hcount : (s.slipEntry (slipIndex t)).count = t.setWidth 8)
    (hphase : (s.slipEntry (slipIndex t)).phase = .landed) :
    SlipAnswered s t chip 0 (s.slipEntry (slipIndex t)).interest :=
  slipAnswered_quiet (by simp only [State.slipAnswer, slipCount_eq, hcount, hphase, if_true])

theorem slipAnswered_expired (hcount : (s.slipEntry (slipIndex t)).count = t.setWidth 8)
    (hphase : (s.slipEntry (slipIndex t)).phase = .expired) :
    SlipAnswered s t chip 2 (s.slipEntry (slipIndex t)).interest :=
  slipAnswered_quiet (by simp only [State.slipAnswer, slipCount_eq, hcount, hphase, if_true])

theorem slipAnswered_map (h : (s.slipEntry (slipIndex t)).count ≠ t.setWidth 8 ∨ (s.slipEntry (slipIndex t)).phase = .free) :
    SlipAnswered s t chip ((s.slipEntry (slipIndex t)).byMap t) (s.slipEntry (slipIndex t)).interest := by
  refine slipAnswered_quiet ?_
  have hmap : (if (s.slipEntry (slipIndex t)).expmap.getLsbD (t.setWidth 8).toNat = true then 2 else 0) =
      (s.slipEntry (slipIndex t)).byMap t := by rw [BitVec.toNat_setWidth, SlipEntry.byMap]
  simp only [State.slipAnswer, slipCount_eq, hmap]
  split
  · next hcount => simp only [h.resolve_left (fun hne => hne hcount)]
  · rfl

end

/-! ## A query (02 R51, R53) -/

/-- The answer to a query, as the hub of the slip's entry sends it. -/
def State.slipReply (s : State) (p : Packet) (a : Nat) : Packet :=
  { op := 0x0A, dst := p.src, src := s.ownChip (slipHub (slipIndex p.slip0)), slip0 := p.slip0, opnd0 := BitVec.ofNat 64 a }

theorem exec_slipQuery_held {h : Nat} {p : Packet} (harg : s.arg = .packet h p)
    (hheld : slipHub (slipIndex p.slip0) ∈ s.package.held) : exec .slipQuery s = .next s := by
  change execSlipQuery s = _
  simp only [execSlipQuery, harg]
  rw [if_pos (by simpa using hheld)]

theorem exec_slipQuery {h : Nat} {p : Packet} (harg : s.arg = .packet h p)
    (hheld : slipHub (slipIndex p.slip0) ∉ s.package.held) : exec .slipQuery s = .next
      ((s.slipAnswer p.slip0 p.src).2.sendPacket (slipHub (slipIndex p.slip0))
        (s.slipReply p (s.slipAnswer p.slip0 p.src).1)) := by
  change execSlipQuery s = _
  simp only [execSlipQuery, harg]
  rw [if_neg (by simpa using hheld)]
  rfl

/-- A query is answered from the entry, whose interest map alone may change. -/
theorem slipQuery_answers {h : Nat} {p : Packet} {a : Nat} {interest : BitVec 512} (harg : s.arg = .packet h p)
    (hheld : slipHub (slipIndex p.slip0) ∉ s.package.held) (hans : SlipAnswered s p.slip0 p.src a interest) :
    ∃ u r, exec .slipQuery s = .next u ∧ s.Sends u (slipHub (slipIndex p.slip0)) r ∧ r.op = 0x0A ∧ r.dst = p.src ∧
      r.slip0 = p.slip0 ∧ r.opnd0 = BitVec.ofNat 64 a ∧
      u.slipEntry (slipIndex p.slip0) = { s.slipEntry (slipIndex p.slip0) with interest := interest } ∧
      u.mem = s.mem ∧ u.tasks = s.tasks := by
  obtain ⟨slips, hshape⟩ := hans.shape
  have hways : SameWays s (s.slipAnswer p.slip0 p.src).2 (slipHub (slipIndex p.slip0)) := by
    rw [hshape]
    exact sameWays_of rfl rfl rfl
  have hsent := sent_sendPacket (s.slipAnswer p.slip0 p.src).2 (slipHub (slipIndex p.slip0)) (s.slipReply p a)
  have hexec := exec_slipQuery harg hheld
  rw [hans.answer] at hexec
  refine ⟨_, s.slipReply p a, hexec, sends_sendPacket hways (j := .slipAnswer) rfl, rfl, rfl, rfl, rfl,
    (hsent.slipEntry _).trans hans.entry, ?_, ?_⟩
  · rw [hsent.mem, hshape]
    rfl
  · rw [hsent.tasks, hshape]
    rfl

/-! ## Entries of a hold queue that are given to tickets (02 R55; 01 R14) -/

theorem hubOf_modHub_other {h g : Nat} (s : State) (f : Hub → Hub) (hne : g ≠ h) : (s.modHub h f).hubOf g = s.hubOf g := by
  simp only [State.hubOf, State.modHub, State.onFabric_fabric, Tbl.upd, Tbl.getD_put_other _ _ _ hne]

/-- Free entries go to tickets, and the queue itself stands. -/
theorem Hub.offerHold_shape (h : Hub) (n : Nat) :
    ∃ tickets held, h.offerHold n = { h with holdTickets := tickets, holdHeld := held } := by
  induction n generalizing h with
  | zero => exact ⟨_, _, rfl⟩
  | succ n ih =>
    unfold Hub.offerHold
    split
    · exact ⟨_, _, rfl⟩
    · split
      · obtain ⟨_, _, hn⟩ := ih { h with holdTickets := _, holdHeld := _ }
        exact ⟨_, _, hn⟩
      · exact ⟨_, _, rfl⟩

/-- What offering a hub's free entries leaves: only its tickets change, and when an issuer of this chip comes again. -/
structure Offered (s u : State) (hub : Nat) : Prop where
  fabric : ∃ tickets held, u.fabric = (s.modHub hub fun h => { h with holdTickets := tickets, holdHeld := held }).fabric
  mem : u.mem = s.mem
  tasks : u.tasks = s.tasks
  cycle : u.cycle = s.cycle

theorem offered_offerHold (s : State) (hub : Nat) : Offered s (s.offerHold hub) hub := by
  obtain ⟨tickets, held, hoffer⟩ := Hub.offerHold_shape (s.hubOf hub) (s.hubOf hub).holdTickets.length
  unfold State.offerHold
  dsimp only
  refine List.foldlRecOn (motive := fun u : State => Offered s u hub) _ _
    ⟨⟨tickets, held, by rw [hoffer]; rfl⟩, rfl, rfl, rfl⟩ fun u hu w _ => ?_
  obtain ⟨hfabric, hmem, htasks, hcycle⟩ := hu
  split <;> exact ⟨hfabric, hmem, htasks, hcycle⟩

/-- What a write that leaves the hold queue leaves: the queue without it, and the ways out of its hub as they stood. -/
structure Unheld (s u : State) (hub id : Nat) : Prop where
  hold : (u.hubOf hub).hold = (s.hubOf hub).hold.filter (·.id != id)
  other : ∀ g, g ≠ hub → u.hubOf g = s.hubOf g
  ways : SameWays s u hub
  mem : u.mem = s.mem
  tasks : u.tasks = s.tasks

theorem unheld_unhold (s : State) (hub id : Nat) (i : Instr) (a : EvArg) : Unheld s ((s.unhold hub id).unpost i a) hub id := by
  let s1 := s.modHub hub fun h => { h with hold := h.hold.filter (·.id != id) }
  obtain ⟨⟨tickets, held, hoffer⟩, hmem, htasks, hcycle⟩ := offered_offerHold s1 hub
  have hfabric : ((s.unhold hub id).unpost i a).fabric =
      (s1.modHub hub fun h => { h with holdTickets := tickets, holdHeld := held }).fabric := hoffer
  have hmine : ((s.unhold hub id).unpost i a).hubOf hub = { s.hubOf hub with
      hold := (s.hubOf hub).hold.filter (·.id != id), holdTickets := tickets, holdHeld := held } := by
    rw [State.hubOf, hfabric]
    refine (hubOf_modHub_same s1 hub _).trans ?_
    rw [hubOf_modHub_same]
  have hlinks (n : Nat) : ((s.unhold hub id).unpost i a).link n = s.link n := by
    rw [State.link, hfabric]
    rfl
  refine ⟨by rw [hmine], fun g hg => ?_, ⟨?_, by rw [hmine], fun n => by rw [hlinks], hcycle⟩, hmem, htasks⟩
  · rw [State.hubOf, hfabric]
    exact (hubOf_modHub_other s1 _ hg).trans (hubOf_modHub_other s _ hg)
  · rw [State.ownChip, hmine]
    rfl

/-! ## A held write that is dropped (02 R54) -/

/-- What SLIP_DROPPED says to the source of a held write. -/
structure HoldDropped (s u : State) (hub : Nat) (w : HeldWrite) : Prop where
  hold : (u.hubOf hub).hold = (s.hubOf hub).hold.filter (·.id != w.id)
  other : ∀ g, g ≠ hub → u.hubOf g = s.hubOf g
  mem : u.mem = s.mem
  tasks : u.tasks = s.tasks
  reply : ∃ r, s.Sends u hub r ∧ r.op = 0x08 ∧ r.dst = w.pkt.src ∧ r.reqid = w.pkt.reqid ∧ r.opnd0 = 5

theorem dropped_dropHeld (s : State) (hub : Nat) (w : HeldWrite) : HoldDropped s (s.dropHeld hub w) hub w := by
  have hun := unheld_unhold s hub w.id .holdLimitExpiry (.num2 hub w.id)
  unfold State.dropHeld State.answer
  generalize (s.unhold hub w.id).unpost .holdLimitExpiry (.num2 hub w.id) = x at hun ⊢
  generalize ((x.filter? w.pkt).getD {}).finish w.pkt.reqid (s.statusTo hub w.pkt 5 0) = f
  have hsent := sent_sendPacket (x.setFilter w.pkt f) hub (s.statusTo hub w.pkt 5 0)
  have hways : SameWays s (x.setFilter w.pkt f) hub := hun.ways.trans (sameWays_of rfl rfl rfl)
  refine ⟨?_, fun g hg => (hsent.hubOf g).trans (hun.other g hg), hsent.mem.trans hun.mem, hsent.tasks.trans hun.tasks,
    s.statusTo hub w.pkt 5 0, sends_sendPacket hways (j := .statusReply) rfl, rfl, rfl, rfl, rfl⟩
  rw [hsent.hubOf]
  exact hun.hold

theorem exec_holdLimitExpiry {hub id : Nat} {w : HeldWrite} (harg : s.arg = .num2 hub id)
    (hw : (s.hubOf hub).hold.find? (·.id == id) = some w) : exec .holdLimitExpiry s = .next (s.dropHeld hub w) := by
  change execHoldLimitExpiry s = _
  simp only [execHoldLimitExpiry, harg, hw]

/-! ## A slip that is known (02 R54) -/

/-- What becomes of one held write once a slip of it is known. -/
def State.slipKnownFor (s : State) (hub : Nat) (t : BitVec 32) (landed : Bool) (w : HeldWrite) : State :=
  if landed then
    let rest := w.waiting.filter (· != t)
    if rest.isEmpty then ((s.unhold hub w.id).unpost .holdLimitExpiry (.num2 hub w.id)).performHeld hub w.pkt
    else s.modHub hub fun h => { h with hold := h.hold.map fun x => if x.id == w.id then { x with waiting := rest } else x }
  else s.dropHeld hub w

/-- What becomes of a hub's held writes. -/
def State.slipKnownAt (s : State) (hub : Nat) (t : BitVec 32) (landed : Bool) : State :=
  ((s.hubOf hub).hold.filter fun w => w.waiting.contains t).foldl (fun s w => s.slipKnownFor hub t landed w) s

theorem slipKnown_eq (s : State) (t : BitVec 32) (landed : Bool) :
    s.slipKnown t landed = (s.slipKnownAt 4 t landed).slipKnownAt 5 t landed := rfl

/-- No write has joined the hold queue of a hub, and the other hub stands. -/
structure HoldShrinks (s u : State) (hub : Nat) : Prop where
  ids : ∀ x ∈ (u.hubOf hub).hold, ∃ y ∈ (s.hubOf hub).hold, y.id = x.id
  other : ∀ g, g ≠ hub → u.hubOf g = s.hubOf g

theorem HoldShrinks.refl (s : State) (hub : Nat) : HoldShrinks s s hub := ⟨fun x hx => ⟨x, hx, rfl⟩, fun _ _ => rfl⟩

theorem HoldShrinks.trans {hub : Nat} (h : HoldShrinks s u hub) (k : HoldShrinks u v hub) : HoldShrinks s v hub where
  ids x hx := by
    obtain ⟨y, hy, hyx⟩ := k.ids x hx
    obtain ⟨z, hz, hzy⟩ := h.ids y hy
    exact ⟨z, hz, hzy.trans hyx⟩
  other g hg := (k.other g hg).trans (h.other g hg)

/-- Is there a write of a number in a hub's hold queue? -/
def State.Holds (s : State) (hub id : Nat) : Prop := ∃ x ∈ (s.hubOf hub).hold, x.id = id

theorem HoldShrinks.holds {hub id : Nat} (h : HoldShrinks s u hub) (k : u.Holds hub id) : s.Holds hub id := by
  obtain ⟨x, hx, rfl⟩ := k
  exact h.ids x hx

/-- A queue without the writes of a number. -/
theorem holdShrinks_filter {hub id : Nat} (hhold : (u.hubOf hub).hold = (s.hubOf hub).hold.filter (·.id != id))
    (hother : ∀ g, g ≠ hub → u.hubOf g = s.hubOf g) : HoldShrinks s u hub ∧ ¬u.Holds hub id := by
  refine ⟨⟨fun x hx => ?_, hother⟩, ?_⟩
  · rw [hhold] at hx
    exact ⟨x, (List.mem_filter.1 hx).1, rfl⟩
  · rintro ⟨x, hx, rfl⟩
    rw [hhold] at hx
    exact absurd (List.mem_filter.1 hx).2 (by simp)

/-- A held write whose last slip has landed, or one of whose slips has expired, leaves the queue. -/
theorem slipKnownFor_shrinks (s : State) (hub : Nat) (t : BitVec 32) (landed : Bool) (w : HeldWrite) :
    HoldShrinks s (s.slipKnownFor hub t landed w) hub ∧
    (landed = false ∨ w.waiting = [t] → ¬(s.slipKnownFor hub t landed w).Holds hub w.id) := by
  unfold State.slipKnownFor
  cases landed with
  | false =>
    have hdrop := dropped_dropHeld s hub w
    obtain ⟨hshrinks, hgone⟩ := holdShrinks_filter hdrop.hold hdrop.other
    exact ⟨hshrinks, fun _ => hgone⟩
  | true =>
    rw [if_pos rfl]
    dsimp only
    split
    · have hun := unheld_unhold s hub w.id .holdLimitExpiry (.num2 hub w.id)
      generalize (s.unhold hub w.id).unpost .holdLimitExpiry (.num2 hub w.id) = x at hun ⊢
      have hhub (g : Nat) : (x.performHeld hub w.pkt).hubOf g = x.hubOf g := by
        rw [State.hubOf, State.hubOf, performHeld_hubs]
      obtain ⟨hshrinks, hgone⟩ := holdShrinks_filter (u := x.performHeld hub w.pkt) (by rw [hhub]; exact hun.hold)
        fun g hg => (hhub g).trans (hun.other g hg)
      exact ⟨hshrinks, fun _ => hgone⟩
    · next hrest =>
      refine ⟨⟨fun x hx => ?_, fun g hg => hubOf_modHub_other s _ hg⟩, fun hlast => ?_⟩
      · rw [hubOf_modHub_same] at hx
        obtain ⟨y, hy, rfl⟩ := List.mem_map.1 hx
        exact ⟨y, hy, by split <;> rfl⟩
      · obtain hlast | hlast := hlast
        · exact nomatch hlast
        · exact absurd (by simp [hlast]) hrest

/-- The same of all the writes of a list. -/
theorem slipKnown_list_shrinks (hub : Nat) (t : BitVec 32) (landed : Bool) (ws : List HeldWrite) (s : State) :
    HoldShrinks s (ws.foldl (fun s w => s.slipKnownFor hub t landed w) s) hub ∧
    ∀ w ∈ ws, landed = false ∨ w.waiting = [t] → ¬(ws.foldl (fun s w => s.slipKnownFor hub t landed w) s).Holds hub w.id := by
  induction ws generalizing s with
  | nil => exact ⟨.refl s hub, fun _ h => nomatch h⟩
  | cons x ws ih =>
    obtain ⟨hfirst, hgone⟩ := slipKnownFor_shrinks s hub t landed x
    obtain ⟨hrest, hothers⟩ := ih (s.slipKnownFor hub t landed x)
    refine ⟨hfirst.trans hrest, fun w hw hlast => ?_⟩
    rcases List.mem_cons.1 hw with rfl | hw
    · exact fun h => hgone hlast (hrest.holds h)
    · exact hothers w hw hlast

/-- The queue of a hub once a slip is known. -/
theorem slipKnownAt_shrinks (s : State) (hub : Nat) (t : BitVec 32) (landed : Bool) :
    HoldShrinks s (s.slipKnownAt hub t landed) hub ∧
    ∀ w ∈ (s.hubOf hub).hold, t ∈ w.waiting → landed = false ∨ w.waiting = [t] →
      ¬(s.slipKnownAt hub t landed).Holds hub w.id := by
  obtain ⟨hshrinks, hgone⟩ := slipKnown_list_shrinks hub t landed ((s.hubOf hub).hold.filter fun w => w.waiting.contains t) s
  exact ⟨hshrinks, fun w hw ht => hgone w (List.mem_filter.2 ⟨hw, by simpa using ht⟩)⟩

/-- No write of a queue waits for the slip: nothing becomes of it. -/
theorem slipKnownAt_empty {hub : Nat} (t : BitVec 32) (landed : Bool) (h : (s.hubOf hub).hold = []) :
    s.slipKnownAt hub t landed = s := by
  rw [State.slipKnownAt, h]
  rfl

/-- Both hubs. -/
theorem slipKnown_gone {g : Nat} (hg : g = 4 ∨ g = 5) (t : BitVec 32) (landed : Bool) {w : HeldWrite}
    (hw : w ∈ (s.hubOf g).hold) (ht : t ∈ w.waiting) (hlast : landed = false ∨ w.waiting = [t]) :
    ¬(s.slipKnown t landed).Holds g w.id := by
  obtain ⟨hfour, hgone⟩ := slipKnownAt_shrinks s 4 t landed
  obtain ⟨hfive, hgone'⟩ := slipKnownAt_shrinks (s.slipKnownAt 4 t landed) 5 t landed
  rw [slipKnown_eq]
  rcases hg with rfl | rfl
  · rw [State.Holds, hfive.other 4 (by decide)]
    exact hgone w hw ht hlast
  · exact hgone' w (by rwa [hfour.other 5 (by decide)]) ht hlast

/-- The only held write of the chip is dropped once a slip of it has expired. -/
theorem slipKnown_only {g : Nat} (hg : g = 4 ∨ g = 5) {t : BitVec 32} {w : HeldWrite} (hw : (s.hubOf g).hold = [w])
    (hother : (s.hubOf (9 - g)).hold = []) (ht : t ∈ w.waiting) : s.slipKnown t false = s.dropHeld g w := by
  have hat : s.slipKnownAt g t false = s.dropHeld g w := by
    rw [State.slipKnownAt, hw, List.filter_cons_of_pos (by simpa using ht)]
    rfl
  rw [slipKnown_eq]
  rcases hg with rfl | rfl
  · rw [hat]
    refine slipKnownAt_empty t false ?_
    rw [(dropped_dropHeld s 4 w).other 5 (by decide)]
    exact hother
  · rw [slipKnownAt_empty t false hother, hat]

/-- A landed notice and an answer to a query tell of a slip. -/
theorem exec_slipTold {h : Nat} {p : Packet} {ins : Instr} {landed : Bool} (harg : s.arg = .packet h p)
    (hins : (ins = .landedNotice ∧ landed = !p.opnd0.getLsbD 0) ∨
      (ins = .slipAnswer ∧ ((landed = true ∧ p.opnd0.toNat % 4 = 0) ∨ (landed = false ∧ p.opnd0.toNat % 4 = 2)))) :
    exec ins s = .next (s.slipKnown p.slip0 landed) := by
  rcases hins with ⟨rfl, rfl⟩ | ⟨rfl, ⟨rfl, hzero⟩ | ⟨rfl, htwo⟩⟩
  · change execLandedNotice s = _
    simp only [execLandedNotice, harg]
  · change execSlipAnswer s = _
    simp only [execSlipAnswer, harg, hzero, if_true]
  · change execSlipAnswer s = _
    simp only [execSlipAnswer, harg, htwo, if_true]
    rfl

end

theorem slipTableRules : Claim.SlipTableRules := by
  intro s
  refine ⟨fun i harg hphase hleft => exec_slipEntryFree harg hphase hleft, fun h p harg => ?_, fun hub id w harg hw => ?_⟩
  · dsimp only
    rw [← slipIndex_eq]
    refine ⟨fun hheld => ⟨fun hcount hphase => ?_, fun hcount hphase => ?_, fun hcount hphase => ?_, fun hmap => ?_⟩,
      fun hheld => exec_slipQuery_held harg hheld, fun ins landed hins => ?_⟩
    · exact slipQuery_answers harg hheld (slipAnswered_pending hcount hphase)
    · exact slipQuery_answers harg hheld (slipAnswered_landed hcount hphase)
    · exact slipQuery_answers harg hheld (slipAnswered_expired hcount hphase)
    · exact slipQuery_answers harg hheld (slipAnswered_map hmap)
    · refine ⟨_, exec_slipTold harg hins, fun g hg w hw => ⟨fun hland hlast x hx hid => ?_, fun hland ht x hx hid => ?_,
        fun hland ht hmine hother => ?_⟩⟩
      · exact slipKnown_gone hg _ _ hw (by simp [hlast]) (.inr hlast) ⟨x, hx, hid⟩
      · exact slipKnown_gone hg _ _ hw ht (.inl hland) ⟨x, hx, hid⟩
      · rw [hland, slipKnown_only hg hmine hother ht]
        exact (dropped_dropHeld s g w).reply
  · have hdrop := dropped_dropHeld s hub w
    obtain ⟨r, hsends, hop, hdst, hreqid, hstatus⟩ := hdrop.reply
    have hid : w.id = id := by simpa using List.find?_some hw
    refine ⟨_, r, exec_holdLimitExpiry harg hw, hsends, hop, hdst, hreqid, hstatus, hdrop.mem, hdrop.tasks, fun x => ?_⟩
    rw [hdrop.hold, hid, List.mem_filter]
    simp

end Sys2Proof.Machine
end

section
/-! PROOF. O53: the slip table, holds and timetables (02 R47 to R55). -/

namespace Sys2Proof.Machine

open Sys2Proof

/-- Settles O53: slips and the writes they hold back, and timetables that come into force at a slot 0. -/
theorem slipAndTimetableRules : Obligations.SlipAndTimetableRules :=
  ⟨slipTableRules, timetableRules⟩

end Sys2Proof.Machine
end

section
/-! PROOF. O52: a remote atomic that disarms a roll ends the wait of a task that has left for its frame, and the roll's value
lands in that frame (02 R45; 14 R367, R381). -/

namespace Sys2Proof.Machine

open Sys2Proof

/-- A task that has left for its frame while it waits for the roll at offset 0x100 of core 0; the roll's value goes to G2. -/
def framedRollTask : Task :=
  { tid := 0, ctx := 0, phase := .framed, core := some 0, entry := 0x10000, args := 0, count := 1, place := 0, scrBytes := 0x1000
    alloc := some (0, 0x1000), frame := 0, prio := 0, wait := some (.roll 0x1FFFFFF80000100 1 2)
    infl := [{ id := 1, reg := .g 2, mask := BitVec.allOnes 64, val := .word 0, ord := 0 }] }

/-- The chip of that task: the roll is armed, fabric context 5 is context 0, and the frames of context 0 stand at 0x10000. -/
def framedRollState : State :=
  { State.reset with
    tasks := [framedRollTask]
    cores := { State.reset.cores with cores := [(0, { allocs := [(0, 0x1000, 0, 0)] })] }
    host := { State.reset.host with ctxs := [(0, { phase := .live, frbase := 1 })] }
    mem := { State.reset.mem with sram := [(0x108, 3)] }
    fabric := { State.reset.fabric with fctxmap := [(5, 1)] } }

/-- An atomic AND of chip 3 that leaves of the roll's high half its PHASE alone. -/
def disarmPacket : Packet :=
  { src := 3, op := 0x05, aop := 1, fctx := 5, vaddr := 0x1FFFFFF80000108, size := 3, opnd0 := 1 }

/-- The same chip as the atomic arrives at hub 4. -/
def disarmState : State := { framedRollState with arg := .packet 4 disarmPacket }

/-- What the atomic leaves. -/
def disarmed : State := disarmState.onRequest 4 disarmPacket fun s => s.perform 4 disarmPacket

theorem disarmState_inv : disarmState.Inv := by unfold State.Inv; decide +kernel

theorem disarmState_finds : disarmState.fctxOf disarmPacket.fctx = some 0 ∧
    disarmState.targetCheck 0 disarmPacket.vaddr.toNat (pktBytes disarmPacket) (pktKind disarmPacket)
      (atomOfPkt disarmPacket).pcie = .at_ (.sram 0 0x108) := by decide +kernel

/-- The low byte of G2 in the frame: 0 before, and the roll's PHASE once the wait has ended. -/
theorem disarmed_frame : cellGet disarmState.mem.bytes 0x10110 = 0 ∧ cellGet disarmed.mem.bytes 0x10110 = 1 := by
  decide +kernel

/-- Refutes O52: a remote atomic that disarms a roll ends the wait of a task in its frame, whose saved register takes the
value; so bytes other than the atomic's own do not stay as they were. -/
theorem not_remoteAccessRules : ¬ Obligations.RemoteAccessRules := by
  unfold Obligations.RemoteAccessRules
  rintro ⟨htarget, -⟩
  obtain ⟨hfctx, hfound⟩ := disarmState_finds
  obtain ⟨hbefore, hafter⟩ := disarmed_frame
  obtain ⟨-, hepoch⟩ := htarget disarmState 4 disarmPacket .atomicRequest rfl rfl rfl (by simp [disarmPacket])
  obtain ⟨-, hnew⟩ := hepoch rfl
  obtain ⟨-, -, hfresh, -⟩ := hnew (.inl (by decide +kernel))
  obtain ⟨-, hmapped⟩ := hfresh (fun d hd => nomatch hd) (fun hd => nomatch hd) rfl
  obtain ⟨-, -, -, -, hatomic⟩ := hmapped 0 hfctx
  obtain ⟨u, -, hu, ⟨-, hbytes, -⟩, -⟩ :=
    hatomic (.sram 0 0x108) hfound disarmState_inv rfl rfl (fun pa pl e hloc => nomatch hloc)
  have hdone : u = disarmed := (Host.Outcome.next.inj hu).symm
  have hsame := hbytes 0x10110 fun l hl => by
    rw [List.mem_singleton.1 hl]
    exact fun h => nomatch h.1
  rw [hdone, hbefore, hafter] at hsame
  exact absurd hsame (by decide)

end Sys2Proof.Machine
end

section
/-! PROOF. O51: what each event of a link leaves of its port (02 R33 to R43; 18 R428). -/

namespace Sys2Proof.Machine

open Sys2Proof

section
variable {s u v : State} {port : Nat}

/-! ## One port -/

/-- Of the links only that of a port may have changed, and memory and tasks stand. -/
structure PortOnly (s u : State) (port : Nat) : Prop where
  other : ∀ n, n ≠ port → u.link n = s.link n
  mem : u.mem = s.mem
  tasks : u.tasks = s.tasks

theorem PortOnly.trans (h : PortOnly s u port) (k : PortOnly u v port) : PortOnly s v port :=
  ⟨fun n hn => (k.other n hn).trans (h.other n hn), k.mem.trans h.mem, k.tasks.trans h.tasks⟩

theorem portOnly_modLink (s : State) (port : Nat) (f : Link → Link) : PortOnly s (s.modLink port f) port :=
  ⟨fun _ hn => link_modLink_other s f hn, rfl, rfl⟩

theorem portOnly_onLink (s : State) (port : Nat) (f : Link → Link) : PortOnly s (s.onLink port f) port :=
  ⟨fun _ hn => link_onLink_other s f hn, (sent_onLink s port f).mem, (sent_onLink s port f).tasks⟩

theorem portOnly_pumpLink (s : State) (port : Nat) : PortOnly s (s.pumpLink port) port := portOnly_onLink s port _

/-- What does not touch the links. -/
theorem portOnly_of (hlinks : u.fabric.links = s.fabric.links) (hmem : u.mem = s.mem) (htasks : u.tasks = s.tasks) :
    PortOnly s u port := ⟨fun n _ => link_of_fabric hlinks n, hmem, htasks⟩

/-- A pump lets packets go, and nothing else of its port changes. -/
theorem pumpLink_sentOn (s : State) (port : Nat) : (s.link port).SentOn ((s.pumpLink port).link port) :=
  (linksSent_pumpLink s port).link port

theorem Link.SentOn.rx {l v : Link} (h : l.SentOn v) : v.rx = l.rx := by obtain ⟨_, _, _, _, _, _, _, _, rfl⟩ := h.shape; rfl
theorem Link.SentOn.dropRest {l v : Link} (h : l.SentOn v) : v.dropRest = l.dropRest := by
  obtain ⟨_, _, _, _, _, _, _, _, rfl⟩ := h.shape; rfl
theorem Link.SentOn.rxSeq {l v : Link} (h : l.SentOn v) : v.rxSeq = l.rxSeq := by
  obtain ⟨_, _, _, _, _, _, _, _, rfl⟩ := h.shape; rfl
theorem Link.SentOn.ctlOut {l v : Link} (h : l.SentOn v) : v.ctlOut = l.ctlOut := by
  obtain ⟨_, _, _, _, _, _, _, _, rfl⟩ := h.shape; rfl
theorem Link.SentOn.duplicates {l v : Link} (h : l.SentOn v) : v.duplicates = l.duplicates := by
  obtain ⟨_, _, _, _, _, _, _, _, rfl⟩ := h.shape; rfl
theorem Link.SentOn.replays {l v : Link} (h : l.SentOn v) : v.replays = l.replays := by
  obtain ⟨_, _, _, _, _, _, _, _, rfl⟩ := h.shape; rfl
theorem Link.SentOn.stopped {l v : Link} (h : l.SentOn v) : v.stopped = l.stopped := by
  obtain ⟨_, _, _, _, _, _, _, _, rfl⟩ := h.shape; rfl
theorem Link.SentOn.delay {l v : Link} (h : l.SentOn v) : v.delay = l.delay := by
  obtain ⟨_, _, _, _, _, _, _, _, rfl⟩ := h.shape; rfl
theorem Link.SentOn.width {l v : Link} (h : l.SentOn v) : v.width = l.width := by
  obtain ⟨_, _, _, _, _, _, _, _, rfl⟩ := h.shape; rfl

/-- An acknowledgement takes packets out of the replay buffer. -/
theorem Link.ackTo_shape (l : Link) (x : BitVec 16) : ∃ acked replay, l.ackTo x = { l with acked := acked, replay := replay } := by
  unfold Link.ackTo
  dsimp only
  split
  · exact ⟨_, _, rfl⟩
  · exact ⟨_, _, rfl⟩

/-- Flits that have come are counted. -/
theorem Link.countGot_shape (l : Link) (cls : Option Bool) (n : Nat) : ∃ gotReq gotRpl freedReq freedRpl,
    l.countGot cls n = { l with gotReq := gotReq, gotRpl := gotRpl, freedReq := freedReq, freedRpl := freedRpl } := by
  unfold Link.countGot
  split <;> exact ⟨_, _, _, _, rfl⟩

/-! ## Flits (02 R33, R34) -/

theorem exec_flitReceive {h : BitVec 128} {d : BeatBits} (harg : s.arg = .flit port h d) (hup : (s.link port).phase = .up) :
    exec .flitReceive s = .next ((if flitOk h d then s.flitGood port h d else s.flitBad port h).pumpLink port) := by
  change execFlitReceive s = _
  simp only [execFlitReceive, harg, hup, if_true]

/-- A flit that fails is discarded with its packet, and asked for again once. -/
theorem flitBad_link (s : State) (port : Nat) (h : BitVec 128) : PortOnly s (s.flitBad port h) port ∧
    ((s.flitBad port h).link port).rx = none ∧ ((s.flitBad port h).link port).dropRest = true ∧
    ((s.flitBad port h).link port).rxSeq = (s.link port).rxSeq ∧
    ((s.flitBad port h).link port).ctlOut = (if (s.link port).dropRest then (s.link port).ctlOut
      else (s.link port).ctlOut ++ [.nack (s.link port).rxSeq]) := by
  refine ⟨portOnly_modLink s port _, ?_⟩
  unfold State.flitBad
  rw [link_modLink_same]
  refine ⟨rfl, rfl, ?_, rfl⟩
  obtain ⟨_, _, _, _, hcount⟩ := (s.link port).countGot_shape
    (match (s.link port).rx with | some r => r.cls | none => hdrClass h) 1
  have hseq := congrArg Link.rxSeq hcount
  exact hseq

/-- What the header of a good flit tells: the packets acknowledged and the slots freed. -/
def State.flitHeard (s : State) (port : Nat) (h : BitVec 128) : State :=
  s.onLink port fun l => (l.ackTo (BitVec.ofNat 16 (hdrField h 8 16))).takeReturns (hdrField h 24 12) (hdrField h 36 12)

theorem flitHeard_rx (s : State) (port : Nat) (h : BitVec 128) : ((s.flitHeard port h).link port).rx = (s.link port).rx := by
  obtain ⟨_, _, hack⟩ := (s.link port).ackTo_shape (BitVec.ofNat 16 (hdrField h 8 16))
  rw [State.flitHeard, link_onLink_same, hack]
  rfl

/-- The packet of a header flit as it is received. -/
def headReceived (h : BitVec 128) (d : BeatBits) : RxPacket :=
  { head := { headerPacket d with headPoison := flitPoison h d 0 }, cls := hdrClass h, left := headerLen d, beats := [] }

/-- A header flit with payload to come begins its packet. -/
theorem flitGood_header {h : BitVec 128} {d : BeatBits} (hkind : hdrField h 0 2 = 1) (hlen : 0 < headerLen d)
    (hlast : h.getLsbD 2 = false) : PortOnly s (s.flitGood port h d) port ∧
      ((s.flitGood port h d).link port).rx = some (headReceived h d) := by
  have hok : lastOk h (headerLen d) = true := by
    rw [lastOk, hlast, beq_false_of_ne hlen.ne']
    rfl
  have heq : s.flitGood port h d = ((s.flitHeard port h).modLink port fun l =>
      { l.countGot (hdrClass h) 1 with dropRest := false }).modLink port fun l => { l with rx := some (headReceived h d) } := by
    simp only [State.flitGood, hkind, hok, if_true, State.rxDone, hlen.ne', if_false]
    rfl
  rw [heq]
  refine ⟨((portOnly_onLink s port _).trans (portOnly_modLink _ port _)).trans (portOnly_modLink _ port _), ?_⟩
  rw [link_modLink_same]

/-- A payload flit before the last joins its packet. -/
theorem flitGood_payload {h : BitVec 128} {d : BeatBits} {r : RxPacket} (hkind : hdrField h 0 2 = 2)
    (hrx : (s.link port).rx = some r) (hleft : 1 < r.left) (hlast : h.getLsbD 2 = false) :
    PortOnly s (s.flitGood port h d) port ∧ ((s.flitGood port h d).link port).rx =
      some { r with left := r.left - 1, beats := r.beats ++ [⟨d, flitPoison h d (checkAddr r.head r.beats.length)⟩] } := by
  have hne : r.left - 1 ≠ 0 := by omega
  have hok : lastOk h (r.left - 1) = true := by
    rw [lastOk, hlast, beq_false_of_ne hne]
    rfl
  have heq : s.flitGood port h d = ((s.flitHeard port h).modLink port fun l => l.countGot (hdrClass h) 1).modLink port fun l =>
      { l with rx := some { r with left := r.left - 1
                                   beats := r.beats ++ [⟨d, flitPoison h d (checkAddr r.head r.beats.length)⟩] } } := by
    have hheard : ((s.flitHeard port h).link port).rx = some r := (flitHeard_rx s port h).trans hrx
    unfold State.flitHeard at *
    simp only [State.flitGood, hkind, hheard, hok, if_true, State.rxDone, hne, if_false]
  rw [heq]
  refine ⟨((portOnly_onLink s port _).trans (portOnly_modLink _ port _)).trans (portOnly_modLink _ port _), ?_⟩
  rw [link_modLink_same]

/-! ## Packets (02 R37, R38) -/

/-- The state in which the acknowledgement of a packet has been taken, and its flits are counted. -/
def State.packetHeard (s : State) (port : Nat) (p : Packet) (ackseq : BitVec 16) : State :=
  s.onLink port fun l => (l.ackTo ackseq).countGot (pktSlotClass p) (pktFlits p)

theorem exec_linkPacketReceive {p : Packet} {ackseq : BitVec 16} (harg : s.arg = .linkPacket port p ackseq)
    (hup : (s.link port).phase = .up) :
    exec .linkPacketReceive s = .next (((s.packetHeard port p ackseq).takePacket port p).pumpLink port) := by
  change execLinkPacketReceive s = _
  simp only [execLinkPacketReceive, harg, hup, if_true]
  rfl

theorem packetHeard_link (s : State) (port : Nat) (p : Packet) (ackseq : BitVec 16) :
    ((s.packetHeard port p ackseq).link port).rxSeq = (s.link port).rxSeq ∧
    ((s.packetHeard port p ackseq).link port).ctlOut = (s.link port).ctlOut ∧
    ((s.packetHeard port p ackseq).link port).duplicates = (s.link port).duplicates := by
  obtain ⟨_, _, hack⟩ := (s.link port).ackTo_shape ackseq
  obtain ⟨_, _, _, _, hcount⟩ := ((s.link port).ackTo ackseq).countGot_shape (pktSlotClass p) (pktFlits p)
  rw [State.packetHeard, link_onLink_same, hcount, hack]
  exact ⟨rfl, rfl, rfl⟩

theorem opKnown_of_event {op : Nat} {i : Instr} (h : packetEvent op = some i) : opKnown op = true := by
  unfold packetEvent at h
  split at h <;> simp_all [opKnown]

/-- The next packet in order, for this chip, is delivered. -/
theorem takePacket_next {p : Packet} {i : Instr} (hseq : p.pseq = (s.link port).rxSeq + 1)
    (hi : packetEvent p.op.toNat = some i) (hdst : p.dst = s.ownChip (portHub port)) :
    s.takePacket port p = (s.modLink port fun l => { l with rxSeq := p.pseq }).post 0 i
      (packetArg (portHub port) { p with via := none }) := by
  have hd : (p.pseq - ((s.link port).rxSeq + 1)).toNat = 0 := by rw [hseq, BitVec.sub_self]; rfl
  have hown : p.dst = (s.modLink port fun l => { l with rxSeq := p.pseq }).ownChip (portHub port) := hdst
  simp only [State.takePacket, hd, if_true, opKnown_of_event hi, if_pos hdst]
  rw [State.sendPacket, if_pos hown, State.deliver]
  dsimp only
  rw [hi]

/-- A packet ahead of its order is asked for again; one that has been taken is dropped. -/
theorem takePacket_other {p : Packet} {k : BitVec 16} (hseq : p.pseq = (s.link port).rxSeq + k) :
    (1 < k.toNat → k.toNat ≤ 32768 → s.takePacket port p =
      s.modLink port fun l => { l with ctlOut := l.ctlOut ++ [.nack l.rxSeq] }) ∧
    (k.toNat = 0 ∨ 32768 < k.toNat → s.takePacket port p =
      s.modLink port fun l => { l with duplicates := l.duplicates + 1 }) := by
  have hd : p.pseq - ((s.link port).rxSeq + 1) = k - 1 := by rw [hseq]; bv_omega
  refine ⟨fun hlo hhi => ?_, fun hk => ?_⟩
  · have hne : ¬(k - 1).toNat = 0 := by bv_omega
    have hlt : ¬32768 ≤ (k - 1).toNat := by bv_omega
    simp only [State.takePacket, hd, hne, hlt, if_false]
  · have hne : ¬(k - 1).toNat = 0 := by bv_omega
    have hle : 32768 ≤ (k - 1).toNat := by bv_omega
    simp only [State.takePacket, hd, hne, hle, if_false, if_true]

/-! ## Packets sent again (02 R39) -/

/-- Packets that are sent again are counted in REPLAYS. -/
theorem Link.resend_list (ret : Nat × Nat) (ps : List Packet) (l : Link) (h : l.replays + ps.length < 65536) :
    ∃ sentReq sentRpl sinceResync wire,
      ps.foldl (fun l p => Link.putWire { l with replays := satAdd 16 l.replays 1 } ret p) l = { l with
        replays := l.replays + ps.length, sentReq := sentReq, sentRpl := sentRpl, sinceResync := sinceResync, wire := wire } := by
  induction ps generalizing l with
  | nil => exact ⟨_, _, _, _, rfl⟩
  | cons p ps ih =>
    rw [List.length_cons] at h
    have hadd : satAdd 16 l.replays 1 = l.replays + 1 := Nat.min_eq_left (by omega)
    obtain ⟨_, _, _, _, hput⟩ := Link.putWire_shape { l with replays := satAdd 16 l.replays 1 } ret p
    rw [hadd] at hput
    obtain ⟨_, _, _, _, hrest⟩ := ih (Link.putWire { l with replays := satAdd 16 l.replays 1 } ret p) (by
      rw [hadd, hput]
      change l.replays + 1 + ps.length < 65536
      omega)
    rw [List.foldl_cons, hrest, hadd, hput, List.length_cons]
    exact ⟨_, _, _, _, by rw [Nat.add_assoc, Nat.add_comm 1]⟩

theorem Link.resend_shape (l : Link) (ret : Nat × Nat) (h : l.replays + l.replay.length < 65536) :
    ∃ sentReq sentRpl sinceResync wire, l.resend ret = { l with
      replays := l.replays + l.replay.length, sentReq := sentReq, sentRpl := sentRpl, sinceResync := sinceResync
      wire := wire } := Link.resend_list ret l.replay l h

/-- What an acknowledgement of later packets leaves in the replay buffer. -/
theorem Link.ackTo_replay {l : Link} {x : BitVec 16} (hlo : 0 < (x - l.acked).toNat) (hhi : (x - l.acked).toNat < 32768)
    (hle : (x - l.acked).toNat ≤ (l.txSeq - l.acked).toNat) : ∀ p ∈ (l.ackTo x).replay, p ∈ l.replay ∧ p.pseq ≠ x := by
  intro p hp
  unfold Link.ackTo at hp
  dsimp only at hp
  rw [if_pos ⟨hlo, hhi, hle⟩] at hp
  obtain ⟨hmem, hpos⟩ := List.mem_filter.1 hp
  refine ⟨hmem, fun he => ?_⟩
  rw [he, BitVec.sub_self] at hpos
  exact absurd hpos (by decide)

theorem exec_nack {x : BitVec 16} (harg : s.arg = .seq port x) (hup : (s.link port).phase = .up)
    (hrun : (s.link port).stopped = false) :
    exec .nack s = .next ((s.onLink port fun l => (l.ackTo x).resend (s.returns port)).pumpLink port) := by
  change execNack s = _
  simp only [execNack, harg, hup, hrun, decide_true, Bool.not_false, Bool.and_self, if_true]

theorem exec_resume {x : BitVec 16} (harg : s.arg = .seq port x) (hup : (s.link port).phase = .up)
    (hstop : (s.link port).stopped = true) (hwait : (s.link port).waitAnswer = false) : exec .resume s = .next
      ((s.onLink port fun l => { (l.ackTo x).resend (s.returns port) with stopped := false }).pumpLink port) := by
  change execResume s = _
  simp only [execResume, harg, hup, hstop, hwait, and_self, if_true]

theorem resent_replays {x : BitVec 16} (h : (s.link port).replays + ((s.link port).ackTo x).replay.length < 65536) :
    (((s.link port).ackTo x).resend (s.returns port)).replays =
      (s.link port).replays + ((s.link port).ackTo x).replay.length := by
  obtain ⟨_, _, hack⟩ := (s.link port).ackTo_shape x
  obtain ⟨_, _, _, _, hresend⟩ := ((s.link port).ackTo x).resend_shape (s.returns port) (by rw [hack] at h ⊢; exact h)
  rw [hresend, hack]

/-- A NACK. -/
theorem nack_replays {x : BitVec 16} (harg : s.arg = .seq port x) (hup : (s.link port).phase = .up)
    (hrun : (s.link port).stopped = false) (h : (s.link port).replays + ((s.link port).ackTo x).replay.length < 65536) :
    ∃ u, exec .nack s = .next u ∧ (u.link port).replays = (s.link port).replays + ((s.link port).ackTo x).replay.length ∧
      PortOnly s u port := by
  refine ⟨_, exec_nack harg hup hrun, ?_, (portOnly_onLink s port _).trans (portOnly_pumpLink _ port)⟩
  rw [(pumpLink_sentOn _ port).replays, link_onLink_same]
  exact resent_replays h

/-- A RESUME. -/
theorem resume_replays {x : BitVec 16} (harg : s.arg = .seq port x) (hup : (s.link port).phase = .up)
    (hstop : (s.link port).stopped = true) (hwait : (s.link port).waitAnswer = false)
    (h : (s.link port).replays + ((s.link port).ackTo x).replay.length < 65536) :
    ∃ u, exec .resume s = .next u ∧ ((u.link port).replays = (s.link port).replays + ((s.link port).ackTo x).replay.length ∧
      (u.link port).stopped = false) ∧ PortOnly s u port := by
  refine ⟨_, exec_resume harg hup hstop hwait, ⟨?_, ?_⟩, (portOnly_onLink s port _).trans (portOnly_pumpLink _ port)⟩
  · rw [(pumpLink_sentOn _ port).replays, link_onLink_same]
    exact resent_replays h
  · rw [(pumpLink_sentOn _ port).stopped, link_onLink_same]

/-! ## The replay timer (02 R39) -/

theorem exec_replayTimeout_over {at_ : Nat} (harg : s.arg = .num port) (hat : (s.link port).replayAt = some at_)
    (hover : at_ ≤ s.time) : exec .replayTimeout s =
      .next ((s.onLink port fun l => { l.resend (s.returns port) with replayAt := none }).pumpLink port) := by
  change execReplayTimeout s = _
  simp only [execReplayTimeout, harg, hat, hover, if_true]

theorem exec_replayTimeout_early {at_ : Nat} (harg : s.arg = .num port) (hat : (s.link port).replayAt = some at_)
    (hearly : s.time < at_) : exec .replayTimeout s = .next s := by
  change execReplayTimeout s = _
  simp only [execReplayTimeout, harg, hat, Nat.not_le.2 hearly, if_false]

/-- A timer that runs goes on. -/
theorem mem_timers_onLink (s : State) (f : Link → Link) {d : Nat × Instr × EvArg} (h : d ∈ s.timers) :
    d ∈ (s.onLink port f).timers := by
  have hset (n : Nat) : d ∈ insertDue n .replayTimeout (.num port) s.timers := mem_insertDue.2 (.inr h)
  unfold State.onLink
  dsimp only
  split <;> split
  · split
    · exact h
    · exact hset _
  · exact h
  · split
    · exact h
    · exact hset _
  · exact h

/-- A replay timer that starts anew is set. -/
theorem onLink_timer_starts {f : Link → Link} {t : Nat} (hdue : (s.link port).replayDue (f (s.link port)) s.time = some t)
    (hnone : (f (s.link port)).replayAt = none) (ht : s.time ≤ t) :
    (t, .replayTimeout, .num port) ∈ (s.onLink port f).timers := by
  have hset : (t, Instr.replayTimeout, EvArg.num port) ∈ insertDue (s.time + (t - s.time)) .replayTimeout (.num port) s.timers :=
    mem_insertDue.2 (.inl (by rw [Nat.add_sub_cancel' ht]))
  unfold State.onLink
  dsimp only
  simp only [hdue, hnone, reduceCtorEq, if_false]
  split
  · exact hset
  · exact hset

/-- The replay timer runs on while packets go. -/
theorem pumpLink_replayAt {at_ : Nat} (hup : (s.link port).phase = .up) (hne : (s.link port).replay ≠ [])
    (hat : (s.link port).replayAt = some at_) : ((s.pumpLink port).link port).replayAt = some at_ := by
  obtain ⟨_, replay, _, _, _, _, _, hpump, hkept, -⟩ := (s.link port).pump_sends (s.returns port) [] (s.link port).txWait
  have hreplay : replay.isEmpty = false := by
    obtain ⟨q, hq⟩ := List.exists_mem_of_ne_nil _ hne
    cases replay with
    | nil => exact nomatch hkept q hq
    | cons => rfl
  rw [State.pumpLink, link_onLink_same, hpump]
  simp [Link.replayDue, hup, hreplay, hat]

/-- The replay timer of an up link whose packets are not acknowledged. -/
theorem replayTimeout_resends {at_ : Nat} (harg : s.arg = .num port) (hat : (s.link port).replayAt = some at_)
    (hover : at_ ≤ s.time) (hup : (s.link port).phase = .up) (hne : (s.link port).replay ≠ [])
    (h : (s.link port).replays + (s.link port).replay.length < 65536) :
    ∃ u, exec .replayTimeout s = .next u ∧ ((u.link port).replays = (s.link port).replays + (s.link port).replay.length ∧
      (u.link port).replayAt = some (s.time + 4096 * (s.link port).flitTime) ∧
      (s.time + 4096 * (s.link port).flitTime, .replayTimeout, .num port) ∈ u.timers) ∧ PortOnly s u port := by
  let f (l : Link) : Link := { l.resend (s.returns port) with replayAt := none }
  obtain ⟨_, _, _, _, hresend⟩ := (s.link port).resend_shape (s.returns port) h
  have hempty : (s.link port).replay.isEmpty = false := by simpa using hne
  have hdue : (s.link port).replayDue (f (s.link port)) s.time = some (s.time + 4096 * (s.link port).flitTime) := by
    simp only [f, hresend, Link.replayDue, hup, hempty, Link.flitTime]
    simp
  have hlink : (s.onLink port f).link port =
      { f (s.link port) with replayAt := some (s.time + 4096 * (s.link port).flitTime) } := by
    rw [link_onLink_same, hdue]
  refine ⟨_, exec_replayTimeout_over harg hat hover, ⟨?_, ?_, mem_timers_onLink _ _
    (onLink_timer_starts hdue rfl (Nat.le_add_right _ _))⟩, (portOnly_onLink s port f).trans (portOnly_pumpLink _ port)⟩
  · rw [(pumpLink_sentOn _ port).replays, hlink]
    simp only [f, hresend]
  · refine pumpLink_replayAt ?_ ?_ ?_
    · rw [hlink]
      simp only [f, hresend, hup]
    · rw [hlink]
      simpa only [f, hresend] using hne
    · rw [hlink]

end

end Sys2Proof.Machine
end

section
/-! PROOF. O51: lanes, retraining, training and slot counts (02 R38, R40, R41, R43; 18 R428). -/

namespace Sys2Proof.Machine

open Sys2Proof

section
variable {s u v : State} {port : Nat}

/-! ## Groups of lanes (02 R40) -/

/-- The lanes of group `g` at width `w` hold none that is retired. -/
def cleanLanes (failed : BitVec 16) (w g : Nat) : Prop :=
  ∀ lane, lane < 16 → lane / (16 / 2 ^ w) = g → failed.getLsbD lane = false

theorem groupMask_lanes {w g lane : Nat} (hw : w = 1 ∨ w = 2) (hg : g < 2 ^ w) (hlane : lane < 16) :
    (groupMask w g).getLsbD lane = decide (lane / (16 / 2 ^ w) = g) := by
  have hone : ∀ g < 2, ∀ lane < 16, (groupMask 1 g).getLsbD lane = decide (lane / (16 / 2 ^ 1) = g) := by decide
  have htwo : ∀ g < 4, ∀ lane < 16, (groupMask 2 g).getLsbD lane = decide (lane / (16 / 2 ^ 2) = g) := by decide
  rcases hw with rfl | rfl
  · exact hone g hg lane hlane
  · exact htwo g hg lane hlane

theorem groupMask_clean {failed : BitVec 16} {w g : Nat} (hw : w = 1 ∨ w = 2) (hg : g < 2 ^ w) :
    (groupMask w g &&& failed == 0) = true ↔ cleanLanes failed w g := by
  rw [beq_iff_eq]
  refine ⟨fun h lane hlane hin => ?_, fun h => BitVec.eq_of_getLsbD_eq fun lane hlane => ?_⟩
  · have hbit := congrArg (BitVec.getLsbD · lane) h
    simpa [groupMask_lanes hw hg hlane, hin] using hbit
  · rw [BitVec.getLsbD_and, groupMask_lanes hw hg hlane]
    by_cases hin : lane / (16 / 2 ^ w) = g
    · simp [hin, h lane hlane hin]
    · simp [hin]

theorem cleanGroup_some {failed : BitVec 16} {w g : Nat} (hw : w = 1 ∨ w = 2) (hg : g < 2 ^ w) (hclean : cleanLanes failed w g)
    (hleast : ∀ k, k < 2 ^ w → cleanLanes failed w k → g ≤ k) : cleanGroup failed w = some (w, g) := by
  have hfind : (List.range (2 ^ w)).find? (fun g => groupMask w g &&& failed == 0) = some g := by
    rw [List.find?_range_eq_some]
    refine ⟨(groupMask_clean hw hg).2 hclean, List.mem_range.2 hg, fun k hk => ?_⟩
    rw [Bool.not_eq_true']
    refine Bool.eq_false_iff.2 fun h => absurd (hleast k (hk.trans hg) ((groupMask_clean hw (hk.trans hg)).1 h)) (Nat.not_le.2 hk)
  rw [cleanGroup, hfind, Option.map_some]

theorem cleanGroup_none {failed : BitVec 16} {w : Nat} (hw : w = 1 ∨ w = 2) (h : ∀ g, g < 2 ^ w → ¬cleanLanes failed w g) :
    cleanGroup failed w = none := by
  have hfind : (List.range (2 ^ w)).find? (fun g => groupMask w g &&& failed == 0) = none := by
    rw [List.find?_eq_none]
    intro g hg
    have hlt := List.mem_range.1 hg
    exact fun hc => h g hlt ((groupMask_clean hw hlt).1 hc)
  rw [cleanGroup, hfind, Option.map_none]

/-- A narrower width than the one in use, with a group that holds no retired lane. -/
structure CleanChoice (failed : BitVec 16) (width w g : Nat) : Prop where
  narrower : width < w
  least : w ≤ 2
  group : g < 2 ^ w
  clean : cleanLanes failed w g

theorem CleanChoice.width {failed : BitVec 16} {width w g : Nat} (h : CleanChoice failed width w g) : w = 1 ∨ w = 2 := by
  have := h.narrower
  have := h.least
  omega

theorem narrower_some {failed : BitVec 16} {width w g : Nat} (h : CleanChoice failed width w g)
    (hbest : ∀ w' g', CleanChoice failed width w' g' → w ≤ w' ∧ (w' = w → g ≤ g')) : narrower failed width = some (w, g) := by
  have hgroup : cleanGroup failed w = some (w, g) := cleanGroup_some h.width h.group h.clean fun k hk hclean =>
    (hbest w k ⟨h.narrower, h.least, hk, hclean⟩).2 rfl
  have hlt := h.narrower
  rcases h.width with rfl | rfl
  · obtain rfl : width = 0 := by omega
    rw [narrower, if_pos rfl, hgroup, Option.some_or]
  · have hwidth : width = 0 ∨ width = 1 := by omega
    rcases hwidth with rfl | rfl
    · have hnone : cleanGroup failed 1 = none := cleanGroup_none (.inl rfl) fun k hk hclean =>
        absurd (hbest 1 k ⟨by decide, by decide, hk, hclean⟩).1 (by decide)
      rw [narrower, if_pos rfl, hnone, Option.none_or, hgroup]
    · rw [narrower, if_neg (by decide), if_pos rfl, hgroup]

theorem narrower_none {failed : BitVec 16} {width : Nat} (h : ¬∃ w g, CleanChoice failed width w g) :
    narrower failed width = none := by
  have hnone (w : Nat) (hw : w = 1 ∨ w = 2) (hlt : width < w) : cleanGroup failed w = none :=
    cleanGroup_none hw fun g hg hclean => h ⟨w, g, hlt, by omega, hg, hclean⟩
  unfold narrower
  split
  · rw [hnone 1 (.inl rfl) (by omega), hnone 2 (.inr rfl) (by omega), Option.none_or]
  · split
    · exact hnone 2 (.inr rfl) (by omega)
    · rfl

/-! ## A link that goes down (02 R41) -/

theorem linksSent_reissuePort (s : State) (port : Nat) : LinksSent s (s.reissuePort port) := by
  unfold State.reissuePort
  refine LinksSent.foldl _ (fun s r => ?_) _ s
  split
  · exact (linksSent_modRemote s r.id _).trans (linksSent_transmitBut _ _ none)
  · exact .refl s

theorem link_recordEvent (s : State) (a b c d e n : Nat) : (s.recordEvent a b c d e).link n = s.link n :=
  link_of_fabric (congrArg Fabric.links (recordEvent_fabric s a b c d e)) n

theorem linkDown_phase (s : State) (port : Nat) : ((s.linkDown port).link port).phase = .down := by
  unfold State.linkDown
  dsimp only
  have hroute (u : State) (ps : List Packet) : LinksSent u (ps.foldl (fun s p => s.sendPacket (portHub port) p) u) :=
    LinksSent.foldl (fun s p => s.sendPacket (portHub port) p) (fun s p => linksSent_sendPacket s _ p) ps u
  rw [((hroute _ _).link port).phase, ((linksSent_reissuePort _ port).link port).phase, link_recordEvent, link_onLink_same]

/-! ## Retraining (02 R41) -/

/-- The port once RETRAIN has come. -/
def Link.retrained (l : Link) (failed : BitVec 16) (now : Nat) : Link :=
  { l with
    failed := failed, stopped := true, phase := .retraining, waitAnswer := false, rx := none, dropRest := false
    chosen := narrower failed l.width, equalAt := now + equalUnits
    ctlOut := if l.waitAnswer then l.ctlOut else l.ctlOut ++ [.retrain failed] }

/-- The state once RETRAIN has come. -/
def State.retrained (s : State) (port : Nat) (mask : BitVec 16) : State :=
  s.onLink port fun l => l.retrained ((s.link port).failed ||| mask) s.time

theorem exec_retrain {x : BitVec 16} (harg : s.arg = .seq port x) (hup : (s.link port).phase = .up) :
    exec .retrain s = .next
      (if (narrower ((s.link port).failed ||| x) (s.link port).width).isNone then (s.retrained port x).linkDown port
       else ((s.retrained port x).choose 2).2.postTime equalUnits .equalisationDone
        (.numFlag port (((s.retrained port x).choose 2).1 == 0))) := by
  change execRetrain s = _
  simp only [execRetrain, harg, hup, if_true]
  rfl

theorem time_onLink (s : State) (port : Nat) (f : Link → Link) : (s.onLink port f).time = s.time := by
  obtain ⟨_, _, _, _, _, hshape⟩ := (sent_onLink s port f).shape
  rw [hshape]

/-- RETRAIN with a group left: the link retrains on the choice. -/
theorem retrain_chooses {x : BitVec 16} {w g : Nat} (harg : s.arg = .seq port x) (hup : (s.link port).phase = .up)
    (h : narrower ((s.link port).failed ||| x) (s.link port).width = some (w, g)) : ∃ u b, exec .retrain s = .next u ∧
      u.link port = { (s.link port).retrained ((s.link port).failed ||| x) s.time with replayAt := none } ∧
      (s.time + 3 * usUnits, .equalisationDone, .numFlag port b) ∈ u.timers ∧ PortOnly s u port := by
  have honly : PortOnly s (s.retrained port x) port := portOnly_onLink s port _
  refine ⟨((s.retrained port x).choose 2).2.postTime equalUnits .equalisationDone
      (.numFlag port (((s.retrained port x).choose 2).1 == 0)), ((s.retrained port x).choose 2).1 == 0, (exec_retrain harg hup).trans (by rw [h]; rfl), ?_, ?_,
    honly.trans (portOnly_of rfl rfl rfl)⟩
  · refine (link_onLink_same s port _).trans ?_
    simp only [Link.replayDue, Link.retrained, ne_eq, reduceCtorEq, not_false_eq_true, true_or, if_true]
  · refine mem_insertDue.2 (.inl ?_)
    rw [equalUnits]
    exact congrArg (fun n => (n + 3 * usUnits, Instr.equalisationDone, _)) (time_onLink s port _).symm

theorem retrain_down {x : BitVec 16} (harg : s.arg = .seq port x) (hup : (s.link port).phase = .up)
    (h : narrower ((s.link port).failed ||| x) (s.link port).width = none) :
    ∃ u, exec .retrain s = .next u ∧ (u.link port).phase = .down :=
  ⟨_, (exec_retrain harg hup).trans (by rw [h]; rfl), linkDown_phase _ port⟩

theorem retrainAnswerTimeout_down (harg : s.arg = .num port) (hwait : (s.link port).waitAnswer = true)
    (hover : (s.link port).answerAt ≤ s.time) : ∃ u, exec .retrainAnswerTimeout s = .next u ∧ (u.link port).phase = .down := by
  refine ⟨s.linkDown port, ?_, linkDown_phase s port⟩
  change execRetrainAnswerTimeout s = _
  simp only [execRetrainAnswerTimeout, harg, hwait, hover, and_self, if_true]

theorem retrainAnswerTimeout_early (harg : s.arg = .num port)
    (h : (s.link port).waitAnswer = false ∨ s.time < (s.link port).answerAt) : exec .retrainAnswerTimeout s = .next s := by
  change execRetrainAnswerTimeout s = _
  have hno : ¬((s.link port).waitAnswer = true ∧ (s.link port).answerAt ≤ s.time) := by
    rintro ⟨hwait, hover⟩
    rcases h with h | h
    · rw [hwait] at h
      exact nomatch h
    · omega
  simp only [execRetrainAnswerTimeout, harg, if_neg hno]

/-- The port once this end has sent RETRAIN. -/
def Link.asksRetrain (l : Link) (now : Nat) : Link :=
  { l with
    stopped := true, waitAnswer := true, answerAt := now + answerUnits, ctlOut := l.ctlOut ++ [.retrain l.failed] }

theorem startRetrain_link (s : State) (port : Nat) : (s.startRetrain port).link port = (s.link port).asksRetrain s.time ∧
    (s.time + 2 * usUnits, .retrainAnswerTimeout, .num port) ∈ (s.startRetrain port).timers ∧
    PortOnly s (s.startRetrain port) port :=
  ⟨link_modLink_same s port _, mem_insertDue.2 (.inl rfl),
    (portOnly_modLink s port fun l => l.asksRetrain s.time).trans (portOnly_of rfl rfl rfl)⟩

/-! ## Lanes (02 R40) -/

/-- The port without a lane. -/
def Link.retires (l : Link) (lane : Nat) : Link :=
  { l with failed := l.failed ||| (1#16 <<< lane), lossOfLock := l.lossOfLock.filter (· != lane) }

/-- What a retired lane leaves of its port; one that was in use starts a retrain. -/
structure LaneRetired (s u : State) (port lane : Nat) : Prop where
  failed : (u.link port).failed = (s.link port).failed ||| (1#16 <<< lane)
  lossOfLock : lane ∉ (u.link port).lossOfLock
  retrain : (s.link port).phase = .up → (s.link port).uses lane = true →
    u.link port = ((s.link port).retires lane).asksRetrain s.time ∧
      (s.time + 2 * usUnits, .retrainAnswerTimeout, .num port) ∈ u.timers
  only : PortOnly s u port

theorem laneRetired_retireLane (s : State) (port lane : Nat) : LaneRetired s (s.retireLane port lane) port lane := by
  have hnot : lane ∉ ((s.link port).retires lane).lossOfLock := by simp [Link.retires]
  have hlink : (s.modLink port fun l => l.retires lane).link port = (s.link port).retires lane := link_modLink_same s port _
  have honly := portOnly_modLink s port fun l => l.retires lane
  have heq : s.retireLane port lane = if (s.link port).phase = .up ∧ (s.link port).uses lane = true then
      (s.modLink port fun l => l.retires lane).startRetrain port else s.modLink port fun l => l.retires lane := rfl
  rw [heq]
  split
  · obtain ⟨hstart, htimer, honly'⟩ := startRetrain_link (s.modLink port fun l => l.retires lane) port
    rw [hlink] at hstart
    exact ⟨by rw [hstart]; rfl, by rw [hstart]; exact hnot, fun _ _ => ⟨hstart, htimer⟩, honly.trans honly'⟩
  · next hno => exact ⟨by rw [hlink]; rfl, by rw [hlink]; exact hnot, fun hup huse => absurd ⟨hup, huse⟩ hno, honly⟩

theorem exec_laneRetire {lane : Nat} (harg : s.arg = .num2 port lane) (hlane : lane < 16)
    (hloss : lane ∈ (s.link port).lossOfLock) : exec .laneRetire s = .next (s.retireLane port lane) := by
  change execLaneRetire s = _
  simp only [execLaneRetire, harg]
  rw [if_pos ⟨by simpa using hloss, hlane⟩]

theorem exec_laneSymbolRateExpiry {lane : Nat} (harg : s.arg = .num2 port lane) (hlane : lane < 16)
    (hup : (s.link port).phase = .up) (hgood : (s.link port).failed.getLsbD lane = false) :
    exec .laneSymbolRateExpiry s = .next (s.retireLane port lane) := by
  change execLaneSymbolRateExpiry s = _
  simp only [execLaneSymbolRateExpiry, harg, hup, hlane, hgood, and_self, if_true]

/-- A lane that loses lock is retired within 256 flit times. -/
theorem laneLossOfLock_timed {lane : Nat} (harg : s.arg = .num2 port lane) (hlane : lane < 16)
    (hphase : (s.link port).phase = .up ∨ (s.link port).phase = .retraining)
    (hgood : (s.link port).failed.getLsbD lane = false) (hnew : lane ∉ (s.link port).lossOfLock) :
    ∃ u, exec .laneLossOfLock s = .next u ∧
      (u.link port = { s.link port with lossOfLock := (s.link port).lossOfLock ++ [lane] } ∧
        ∃ n, n ≤ 256 * (s.link port).flitTime ∧ (s.time + n, .laneRetire, .num2 port lane) ∈ u.timers) ∧
      PortOnly s u port := by
  let n := (s.choose (256 * (s.link port).flitTime + 1)).1
  have hn : n < 256 * (s.link port).flitTime + 1 := choose_lt s (Nat.succ_pos _)
  refine ⟨((s.choose (256 * (s.link port).flitTime + 1)).2.modLink port fun l =>
      { l with lossOfLock := l.lossOfLock ++ [lane] }).postTime n .laneRetire (.num2 port lane), ?_,
    ⟨link_modLink_same (s.bumpFree 1) port _, n, Nat.le_of_lt_succ hn, mem_insertDue.2 (.inl rfl)⟩,
    (portOnly_modLink s port fun l => { l with lossOfLock := l.lossOfLock ++ [lane] }).trans (portOnly_of rfl rfl rfl)⟩
  change execLaneLossOfLock s = _
  simp only [execLaneLossOfLock, harg]
  rw [if_pos ⟨hphase, hlane, hgood, by simpa using hnew⟩]

/-! ## Equalisation (02 R41 steps 4 and 5) -/

/-- The port once its equalisation has succeeded. -/
def Link.equalised (l : Link) (w g : Nat) : Link :=
  { l with
    phase := .up, width := w, group := g, degraded := true, chosen := none, ctlOut := l.ctlOut ++ [.resume l.rxSeq] }

/-- The state once the equalisation of a port has succeeded. -/
def State.equalised (s : State) (port w g : Nat) : State :=
  (s.onLink port fun l => l.equalised w g).recordEvent 4 (portHub port) port 0 0

theorem equalised_link (s : State) (port w g : Nat) : ∃ at_, (s.equalised port w g).link port =
    { (s.link port).equalised w g with replayAt := at_ } :=
  ⟨_, (link_recordEvent _ _ _ _ _ _ _).trans (link_onLink_same s port _)⟩

theorem portOnly_equalised (s : State) (port w g : Nat) : PortOnly s (s.equalised port w g) port :=
  (portOnly_onLink s port _).trans (portOnly_of (congrArg Fabric.links (recordEvent_fabric _ _ _ _ _ _))
    (State.recordEvent_mem _ _ _ _ _ _) (recordEvent_tasks _ _ _ _ _ _))

theorem exec_equalisationDone_up {w g : Nat} (harg : s.arg = .numFlag port true) (hphase : (s.link port).phase = .retraining)
    (hover : (s.link port).equalAt ≤ s.time) (hchosen : (s.link port).chosen = some (w, g)) :
    exec .equalisationDone s = .next (if groupMask w g &&& (s.link port).failed = 0 then s.equalised port w g
      else (s.equalised port w g).startRetrain port) := by
  change execEqualisationDone s = _
  simp only [execEqualisationDone, harg, hphase, hover, hchosen, and_self, if_true]
  rfl

theorem exec_equalisationDone_down {ok : Bool} (harg : s.arg = .numFlag port ok) (hphase : (s.link port).phase = .retraining)
    (hover : (s.link port).equalAt ≤ s.time) (hbad : ok = false ∨ (s.link port).chosen = none) :
    exec .equalisationDone s = .next (s.linkDown port) := by
  change execEqualisationDone s = _
  rcases hbad with rfl | hnone
  · simp only [execEqualisationDone, harg, hphase, hover, and_self, if_true]
  · cases ok <;> simp only [execEqualisationDone, harg, hphase, hover, hnone, and_self, if_true]

/-- The link is up on the group chosen, and retrains again where a lane of it has been retired meanwhile. -/
theorem equalisationDone_up {w g : Nat} (harg : s.arg = .numFlag port true) (hphase : (s.link port).phase = .retraining)
    (hover : (s.link port).equalAt ≤ s.time) (hchosen : (s.link port).chosen = some (w, g)) :
    ∃ u at_, exec .equalisationDone s = .next u ∧ PortOnly s u port ∧
      (groupMask w g &&& (s.link port).failed = 0 → u.link port = { (s.link port).equalised w g with replayAt := at_ }) ∧
      (groupMask w g &&& (s.link port).failed ≠ 0 → u.link port =
        { ((s.link port).equalised w g).asksRetrain u.time with replayAt := at_ }) := by
  obtain ⟨at_, hlink⟩ := equalised_link s port w g
  have hexec := exec_equalisationDone_up harg hphase hover hchosen
  obtain ⟨hstart, -, honly⟩ := startRetrain_link (s.equalised port w g) port
  by_cases hclean : groupMask w g &&& (s.link port).failed = 0
  · refine ⟨_, at_, hexec.trans (congrArg _ (if_pos hclean)), portOnly_equalised s port w g, fun _ => hlink,
      fun h => absurd hclean h⟩
  · refine ⟨_, at_, hexec.trans (congrArg _ (if_neg hclean)), (portOnly_equalised s port w g).trans honly,
      fun h => absurd h hclean, fun _ => ?_⟩
    rw [hstart, hlink]
    rfl

theorem equalisationDone_down {ok : Bool} (harg : s.arg = .numFlag port ok) (hphase : (s.link port).phase = .retraining)
    (hover : (s.link port).equalAt ≤ s.time) (hbad : ok = false ∨ (s.link port).chosen = none) :
    ∃ u, exec .equalisationDone s = .next u ∧ (u.link port).phase = .down :=
  ⟨s.linkDown port, exec_equalisationDone_down harg hphase hover hbad, linkDown_phase s port⟩

/-! ## Training (02 R38, R45; 18 R428) -/

theorem exec_linkTrained_begins (harg : s.arg = .num port) (hport : port < 18) (hdown : (s.link port).phase = .down)
    (hheld : portHub port ∉ s.package.held) :
    exec .linkTrained s = .next (s.modLink port fun l => { l with phase := .training }) := by
  change execLinkTrained s = _
  simp only [execLinkTrained, harg]
  rw [if_pos ⟨hport, hdown, by simpa using hheld⟩]

/-- The port as both directions begin anew. -/
def Link.begun (l : Link) (delay : BitVec 8) : Link :=
  { phase := .up, delay := delay, degraded := l.degraded, replays := l.replays, discards := l.discards
    resyncFix := l.resyncFix, duplicates := l.duplicates }

theorem exec_linkTrained_up {delay : BitVec 8} {epochs : List (Nat × BitVec 8)} (harg : s.arg = .linkUp port delay epochs)
    (hport : port < 18) (hphase : (s.link port).phase = .down ∨ (s.link port).phase = .training)
    (hheld : portHub port ∉ s.package.held) : exec .linkTrained s =
      .next (((s.modLink port fun _ => (s.link port).begun delay).resetPeers epochs).sendHeld) := by
  change execLinkTrained s = _
  simp only [execLinkTrained, harg]
  rw [if_pos ⟨hport, hphase, by simpa using hheld⟩]
  rfl

theorem linksSent_sendHeld (s : State) : LinksSent s s.sendHeld := by
  unfold State.sendHeld
  refine LinksSent.foldl _ (fun s r => ?_) _ s
  split
  · exact linksSent_transmitBut _ _ none
  · exact .refl s

/-- Peers that have been reset lose their tickets; the links stand, and the epochs are learned. -/
theorem resetPeers_fabric (s : State) (epochs : List (Nat × BitVec 8)) : (s.resetPeers epochs).fabric.links = s.fabric.links ∧
    (s.resetPeers epochs).fabric.peerEpochs = epochs.foldl (fun t e => Tbl.put t e.1 e.2) s.fabric.peerEpochs := by
  have hoffer (u : State) (hub : Nat) : (u.offerHold hub).fabric.links = u.fabric.links ∧
      (u.offerHold hub).fabric.peerEpochs = u.fabric.peerEpochs := by
    obtain ⟨_, _, h⟩ := (offered_offerHold u hub).fabric
    rw [h]
    exact ⟨rfl, rfl⟩
  unfold State.resetPeers
  dsimp only
  rw [(hoffer _ 5).1, (hoffer _ 4).1, (hoffer _ 5).2, (hoffer _ 4).2]
  exact ⟨rfl, rfl⟩

/-- A link comes up at full width, with the delay and the epochs that its training shows. -/
theorem linkTrained_up {delay : BitVec 8} {chip : Nat} {epoch : BitVec 8} (harg : s.arg = .linkUp port delay [(chip, epoch)])
    (hport : port < 18) (hphase : (s.link port).phase = .down ∨ (s.link port).phase = .training)
    (hheld : portHub port ∉ s.package.held) : ∃ u, exec .linkTrained s = .next u ∧ (u.link port).phase = .up ∧
      (u.link port).delay = delay ∧ (u.link port).width = 0 ∧ u.fabric.peerEpochs.getD 0 chip = epoch := by
  refine ⟨_, exec_linkTrained_up harg hport hphase hheld, ?_⟩
  let s1 := s.modLink port fun _ => (s.link port).begun delay
  obtain ⟨hlinks, hepochs⟩ := resetPeers_fabric s1 [(chip, epoch)]
  have hsent := linksSent_sendHeld (s1.resetPeers [(chip, epoch)])
  have hlink : (s1.resetPeers [(chip, epoch)]).link port = (s.link port).begun delay :=
    (link_of_fabric hlinks port).trans (link_modLink_same s port _)
  have hport' := hsent.link port
  rw [hlink] at hport'
  obtain ⟨_, _, hfabric⟩ := hsent.sent.fabric
  refine ⟨hport'.phase, hport'.delay, hport'.width, ?_⟩
  rw [hfabric]
  change (s1.resetPeers [(chip, epoch)]).fabric.peerEpochs.getD 0 chip = epoch
  rw [hepochs]
  exact Tbl.getD_put_same _ _ _ _

/-! ## Slot counts (02 R43) -/

theorem resyncSend_sends (harg : s.arg = .num port) (h : 65536 ≤ (s.link port).sinceResync) :
    ∃ u, exec .resyncSend s = .next u ∧ u.link port = { s.link port with
      sinceResync := (s.link port).sinceResync - 65536
      ctlOut := (s.link port).ctlOut ++ [.resync (s.link port).sentReq (s.link port).sentRpl] } ∧ PortOnly s u port := by
  let s1 := s.modLink port fun l =>
    { l with sinceResync := l.sinceResync - 65536, ctlOut := l.ctlOut ++ [.resync l.sentReq l.sentRpl] }
  refine ⟨if 65536 ≤ (s1.link port).sinceResync then s1.post 0 .resyncSend (.num port) else s1, ?_, ?_, ?_⟩
  · change execResyncSend s = _
    simp only [execResyncSend, harg, h, if_true, s1]
  · split <;> exact link_modLink_same s port _
  · split
    · exact (portOnly_modLink s port _).trans (portOnly_of rfl rfl rfl)
    · exact portOnly_modLink s port _

/-- The port once the other end has told how many flits it has sent. -/
def Link.resynced (req rpl : Nat) (l : Link) : Link :=
  if l.phase ≠ .up ∨ (l.gotReq = req ∧ l.gotRpl = rpl) then l
  else
    { l with
      freedReq := l.freedReq + (req - l.gotReq), freedRpl := l.freedRpl + (rpl - l.gotRpl)
      gotReq := max l.gotReq req, gotRpl := max l.gotRpl rpl, resyncFix := satAdd 8 l.resyncFix 1 }

theorem exec_resync {req rpl : Nat} (harg : s.arg = .num3 port req rpl) (hup : (s.link port).phase = .up)
    (hne : (s.link port).gotReq ≠ req ∨ (s.link port).gotRpl ≠ rpl) : ∃ u, exec .resync s = .next u ∧
      u.link port = { s.link port with
        freedReq := (s.link port).freedReq + (req - (s.link port).gotReq)
        freedRpl := (s.link port).freedRpl + (rpl - (s.link port).gotRpl), gotReq := max (s.link port).gotReq req
        gotRpl := max (s.link port).gotRpl rpl, resyncFix := satAdd 8 (s.link port).resyncFix 1 } ∧ PortOnly s u port := by
  have hno : ¬((s.link port).phase ≠ .up ∨ ((s.link port).gotReq = req ∧ (s.link port).gotRpl = rpl)) := by
    rintro (h | ⟨hreq, hrpl⟩)
    · exact h hup
    · exact hne.elim (· hreq) (· hrpl)
  refine ⟨s.modLink port (Link.resynced req rpl), ?_, (link_modLink_same s port _).trans (if_neg hno), portOnly_modLink s port _⟩
  change execResync s = _
  simp only [execResync, harg]
  rfl

end

end Sys2Proof.Machine
end

section
/-! PROOF. O51: links, flits and a hub's registers (02 R32 to R44; 18 R428). -/

namespace Sys2Proof.Machine

open Sys2Proof

section
variable {s u v : State} {port : Nat}

/-! ## Links (02 R32 to R41, R43; 18 R428) -/

/-- An event of a port changes nothing of the other ports, of memory and of the tasks. -/
def LinkStep (s : State) (port : Nat) (i : Instr) (p : State → Link → Prop) : Prop :=
  ∃ u, exec i s = .next u ∧ p u (u.link port) ∧ (∀ n, n ≠ port → u.link n = s.link n) ∧ u.mem = s.mem ∧ u.tasks = s.tasks

theorem linkStep_of {i : Instr} {p : State → Link → Prop} (hexec : exec i s = .next u) (hp : p u (u.link port))
    (honly : PortOnly s u port) : LinkStep s port i p :=
  ⟨u, hexec, hp, honly.other, honly.mem, honly.tasks⟩

/-- What taking flits leaves once the port's waiting packets have gone too. -/
theorem linkStep_pumped {i : Instr} {p : Link → Prop} (hexec : exec i s = .next (u.pumpLink port)) (honly : PortOnly s u port)
    (hp : p ((u.pumpLink port).link port)) : LinkStep s port i fun _ v => p v :=
  linkStep_of hexec hp (honly.trans (portOnly_pumpLink u port))

theorem flitReceive_bad {h : BitVec 128} {d : BeatBits} (harg : s.arg = .flit port h d) (hup : (s.link port).phase = .up)
    (hbad : flitOk h d = false) : LinkStep s port .flitReceive fun _ v => v.rx = none ∧ v.dropRest = true ∧
      v.rxSeq = (s.link port).rxSeq ∧ v.ctlOut = if (s.link port).dropRest then (s.link port).ctlOut
        else (s.link port).ctlOut ++ [.nack (s.link port).rxSeq] := by
  have hexec := exec_flitReceive harg hup
  rw [hbad] at hexec
  obtain ⟨honly, hrx, hdrop, hseq, hctl⟩ := flitBad_link s port h
  have hsent := pumpLink_sentOn (s.flitBad port h) port
  exact linkStep_pumped hexec honly
    ⟨hsent.rx.trans hrx, hsent.dropRest.trans hdrop, hsent.rxSeq.trans hseq, hsent.ctlOut.trans hctl⟩

theorem flitReceive_good {h : BitVec 128} {d : BeatBits} {r : RxPacket} (harg : s.arg = .flit port h d)
    (hup : (s.link port).phase = .up) (hok : flitOk h d = true)
    (hgood : PortOnly s (s.flitGood port h d) port ∧ ((s.flitGood port h d).link port).rx = some r) :
    LinkStep s port .flitReceive fun _ v => v.rx = some r := by
  have hexec := exec_flitReceive harg hup
  rw [hok] at hexec
  exact linkStep_pumped hexec hgood.1 ((pumpLink_sentOn _ port).rx.trans hgood.2)

theorem packetHeard_only (s : State) (port : Nat) (p : Packet) (x : BitVec 16) : PortOnly s (s.packetHeard port p x) port :=
  portOnly_onLink s port _

theorem packetReceive_next {p : Packet} {x : BitVec 16} {i : Instr} (harg : s.arg = .linkPacket port p x)
    (hup : (s.link port).phase = .up) (hseq : p.pseq = (s.link port).rxSeq + 1)
    (hi : packetEvent p.op.toNat = some i) (hdst : p.dst = s.ownChip (portHub port)) :
    LinkStep s port .linkPacketReceive fun u v =>
      v.rxSeq = p.pseq ∧ (s.cycle, i, packetArg (portHub port) { p with via := none }) ∈ u.due := by
  obtain ⟨hrxSeq, -, -⟩ := packetHeard_link s port p x
  have hheard := (sent_onLink s port fun l => (l.ackTo x).countGot (pktSlotClass p) (pktFlits p))
  have hchip : (s.packetHeard port p x).ownChip (portHub port) = s.ownChip (portHub port) :=
    congrArg Hub.chip (hheard.hubOf _)
  have hcycle : (s.packetHeard port p x).cycle = s.cycle := hheard.cycle
  have htake := takePacket_next (s := s.packetHeard port p x) (hseq.trans (congrArg (· + 1) hrxSeq.symm)) hi (hdst.trans hchip.symm)
  have honly : PortOnly s ((s.packetHeard port p x).takePacket port p) port := by
    rw [htake]
    exact (packetHeard_only s port p x).trans
      ((portOnly_modLink _ port fun l => { l with rxSeq := p.pseq }).trans (portOnly_of rfl rfl rfl))
  refine linkStep_of (exec_linkPacketReceive harg hup) ⟨?_, ?_⟩ (honly.trans (portOnly_pumpLink _ port))
  · rw [(pumpLink_sentOn _ port).rxSeq, htake]
    exact congrArg Link.rxSeq (link_modLink_same _ port _)
  · refine ((linksSent_pumpLink _ port).sent.due _ ?_)
    rw [htake, ← hcycle]
    exact mem_insertDue.2 (.inl rfl)

theorem packetReceive_other {p : Packet} {x k : BitVec 16} (harg : s.arg = .linkPacket port p x)
    (hup : (s.link port).phase = .up) (hseq : p.pseq = (s.link port).rxSeq + k) :
    (1 < k.toNat → k.toNat ≤ 32768 → LinkStep s port .linkPacketReceive fun _ v =>
      v.rxSeq = (s.link port).rxSeq ∧ v.ctlOut = (s.link port).ctlOut ++ [.nack (s.link port).rxSeq]) ∧
    (k.toNat = 0 ∨ 32768 < k.toNat → LinkStep s port .linkPacketReceive fun _ v =>
      v.rxSeq = (s.link port).rxSeq ∧ v.ctlOut = (s.link port).ctlOut ∧ v.duplicates = (s.link port).duplicates + 1) := by
  obtain ⟨hrxSeq, hctl, hdup⟩ := packetHeard_link s port p x
  obtain ⟨hahead, htaken⟩ := takePacket_other (s := s.packetHeard port p x) (hseq.trans (congrArg (· + k) hrxSeq.symm))
  refine ⟨fun hlo hhi => ?_, fun hk => ?_⟩
  · have hsent := pumpLink_sentOn ((s.packetHeard port p x).takePacket port p) port
    rw [hahead hlo hhi, link_modLink_same] at hsent
    refine linkStep_of (exec_linkPacketReceive harg hup) ?_
      ((packetHeard_only s port p x).trans ?_ |>.trans (portOnly_pumpLink _ port))
    · rw [hahead hlo hhi]
      exact ⟨hsent.rxSeq.trans hrxSeq, hsent.ctlOut.trans (by rw [hctl, hrxSeq])⟩
    · rw [hahead hlo hhi]
      exact portOnly_modLink _ port _
  · have hsent := pumpLink_sentOn ((s.packetHeard port p x).takePacket port p) port
    rw [htaken hk, link_modLink_same] at hsent
    refine linkStep_of (exec_linkPacketReceive harg hup) ?_
      ((packetHeard_only s port p x).trans ?_ |>.trans (portOnly_pumpLink _ port))
    · rw [htaken hk]
      exact ⟨hsent.rxSeq.trans hrxSeq, hsent.ctlOut.trans hctl, hsent.duplicates.trans (by rw [hdup])⟩
    · rw [htaken hk]
      exact portOnly_modLink _ port _

theorem retrain_narrows {x : BitVec 16} {w g : Nat} (harg : s.arg = .seq port x) (hup : (s.link port).phase = .up)
    (h : CleanChoice ((s.link port).failed ||| x) (s.link port).width w g)
    (hbest : ∀ w' g', CleanChoice ((s.link port).failed ||| x) (s.link port).width w' g' → w ≤ w' ∧ (w' = w → g ≤ g')) :
    LinkStep s port .retrain fun u v => v.phase = .retraining ∧ v.failed = (s.link port).failed ||| x ∧ v.stopped = true ∧
      v.ctlOut = (if (s.link port).waitAnswer then (s.link port).ctlOut else (s.link port).ctlOut ++ [.retrain v.failed]) ∧
      v.chosen = some (w, g) ∧ v.equalAt = s.time + 3 * usUnits ∧
      ∃ b, (s.time + 3 * usUnits, .equalisationDone, .numFlag port b) ∈ u.timers := by
  have hchoice := narrower_some h hbest
  obtain ⟨u, b, hexec, hlink, htimer, honly⟩ := retrain_chooses harg hup hchoice
  refine linkStep_of hexec ?_ honly
  rw [hlink]
  exact ⟨rfl, rfl, rfl, rfl, hchoice, rfl, b, htimer⟩

theorem replayTimeout_step {at_ : Nat} (harg : s.arg = .num port) (hat : (s.link port).replayAt = some at_) :
    (at_ ≤ s.time → (s.link port).phase = .up → (s.link port).replay ≠ [] →
      (s.link port).replays + (s.link port).replay.length < 65536 → LinkStep s port .replayTimeout fun u v =>
        v.replays = (s.link port).replays + (s.link port).replay.length ∧
        v.replayAt = some (s.time + 4096 * (s.link port).flitTime) ∧
        (s.time + 4096 * (s.link port).flitTime, .replayTimeout, .num port) ∈ u.timers) ∧
    (s.time < at_ → exec .replayTimeout s = .next s) := by
  refine ⟨fun hover hup hne hlt => ?_, exec_replayTimeout_early harg hat⟩
  obtain ⟨u, hexec, hp, honly⟩ := replayTimeout_resends harg hat hover hup hne hlt
  exact linkStep_of hexec hp honly

/-- A lane that is retired: the port without it, and the retrain it starts. -/
theorem laneRetired_step {i : Instr} {lane : Nat} (hexec : exec i s = .next (s.retireLane port lane)) :
    LinkStep s port i fun u v => v.failed = (s.link port).failed ||| (1#16 <<< lane) ∧ lane ∉ v.lossOfLock ∧
      ((s.link port).phase = .up → (s.link port).uses lane = true → v.stopped = true ∧ v.waitAnswer = true ∧
        v.answerAt = s.time + 2 * usUnits ∧ v.ctlOut = (s.link port).ctlOut ++ [.retrain v.failed] ∧
        (s.time + 2 * usUnits, .retrainAnswerTimeout, .num port) ∈ u.timers) := by
  obtain ⟨hfailed, hloss, hretrain, honly⟩ := laneRetired_retireLane s port lane
  refine linkStep_of hexec ⟨hfailed, hloss, fun hup huse => ?_⟩ honly
  obtain ⟨hlink, htimer⟩ := hretrain hup huse
  rw [hlink]
  exact ⟨rfl, rfl, rfl, rfl, htimer⟩

theorem equalisationDone_step {w g : Nat} (harg : s.arg = .numFlag port true) (hphase : (s.link port).phase = .retraining)
    (hover : (s.link port).equalAt ≤ s.time) (hchosen : (s.link port).chosen = some (w, g)) :
    LinkStep s port .equalisationDone fun _ v => v.phase = .up ∧ v.width = w ∧ v.group = g ∧ v.degraded = true ∧
      (groupMask w g &&& (s.link port).failed = 0 → v.ctlOut = (s.link port).ctlOut ++ [.resume (s.link port).rxSeq]) ∧
      (groupMask w g &&& (s.link port).failed ≠ 0 →
        v.ctlOut = (s.link port).ctlOut ++ [.resume (s.link port).rxSeq, .retrain (s.link port).failed] ∧
        v.stopped = true ∧ v.waitAnswer = true) := by
  obtain ⟨u, at_, hexec, honly, hclean, hagain⟩ := equalisationDone_up harg hphase hover hchosen
  refine linkStep_of hexec ?_ honly
  by_cases hmask : groupMask w g &&& (s.link port).failed = 0
  · rw [hclean hmask]
    exact ⟨rfl, rfl, rfl, rfl, fun _ => rfl, fun h => absurd hmask h⟩
  · rw [hagain hmask]
    exact ⟨rfl, rfl, rfl, rfl, fun h => absurd h hmask, fun _ => ⟨List.append_assoc _ _ _, rfl, rfl⟩⟩

theorem linkRules : Claim.LinkRules := by
  intro s port
  refine ⟨fun h d harg hup => ⟨flitReceive_bad harg hup, fun hok hkind hlen hlast => ?_, fun r hok hkind hrx hleft hlast => ?_⟩,
    fun p x harg hup => ⟨fun i => packetReceive_next harg hup, fun k => packetReceive_other harg hup⟩,
    fun x harg hup => ⟨Link.ackTo_replay, fun hlt => ⟨fun hrun => ?_, fun hstop hwait => ?_⟩, fun w g hclean hbest => ?_,
      fun hnone => ?_⟩,
    fun harg => ⟨fun hport hdown hheld => ?_, fun at_ => replayTimeout_step harg, retrainAnswerTimeout_down harg,
      retrainAnswerTimeout_early harg, fun hover => ?_⟩,
    fun lane harg hlane => ⟨fun hphase hgood hnew => ?_, fun hloss => laneRetired_step (exec_laneRetire harg hlane hloss),
      fun hup hgood => laneRetired_step (exec_laneSymbolRateExpiry harg hlane hup hgood)⟩,
    fun ok harg hphase hover => ⟨fun w g hok hchosen => ?_, equalisationDone_down harg hphase hover⟩,
    fun delay chip epoch => linkTrained_up, fun req rpl harg hup hne => ?_⟩
  · exact flitReceive_good harg hup hok (flitGood_header hkind hlen hlast)
  · obtain ⟨u, hexec, hv, honly⟩ := flitReceive_good harg hup hok (flitGood_payload hkind hrx hleft hlast)
    refine ⟨u, hexec, ⟨_, hv, rfl, fun hpoison => ?_⟩, honly⟩
    simp only [flitPoison, hpoison, Bool.true_or]
  · obtain ⟨u, hexec, hreplays, honly⟩ := nack_replays harg hup hrun hlt
    exact ⟨u, hexec, hreplays, honly.other, honly.mem, honly.tasks⟩
  · obtain ⟨u, hexec, hresumed, honly⟩ := resume_replays harg hup hstop hwait hlt
    exact ⟨u, hexec, hresumed, honly.other, honly.mem, honly.tasks⟩
  · obtain ⟨hnarrower, hleast, hgroup, hlanes⟩ := hclean
    exact retrain_narrows harg hup ⟨hnarrower, hleast, hgroup, hlanes⟩ fun w' g' hc =>
      hbest w' g' ⟨hc.narrower, hc.least, hc.group, hc.clean⟩
  · exact retrain_down harg hup (narrower_none fun ⟨w, g, hc⟩ => hnone ⟨w, g, hc.narrower, hc.least, hc.group, hc.clean⟩)
  · exact ⟨_, exec_linkTrained_begins harg hport hdown hheld, congrArg Link.phase (link_modLink_same s port _),
      (portOnly_modLink s port _).other, rfl, rfl⟩
  · obtain ⟨u, hexec, hlink, honly⟩ := resyncSend_sends harg hover
    exact ⟨u, hexec, hlink, honly.other, honly.mem, honly.tasks⟩
  · obtain ⟨u, hexec, hp, honly⟩ := laneLossOfLock_timed harg hlane hphase hgood hnew
    exact ⟨u, hexec, hp, honly.other, honly.mem, honly.tasks⟩
  · rw [hok] at harg
    exact equalisationDone_step harg hphase hover hchosen
  · obtain ⟨u, hexec, hlink, honly⟩ := exec_resync harg hup hne
    refine ⟨u, hexec, ?_, honly.other, honly.mem, honly.tasks⟩
    rw [hlink]
    exact ⟨rfl, rfl, rfl, rfl, rfl⟩

/-! ## A hub's registers (02 R44) -/

/-- An event of a hub's registers changes nothing of the other hub, of memory, of the tasks and of the links. -/
def HubStep (s : State) (hub : Nat) (i : Instr) (p : Hub → Prop) : Prop :=
  ∃ u, exec i s = .next u ∧ p (u.hubOf hub) ∧ (∀ n, n ≠ hub → u.hubOf n = s.hubOf n) ∧ u.mem = s.mem ∧ u.tasks = s.tasks ∧
    u.fabric.links = s.fabric.links

theorem hubStep_modHub {hub : Nat} {i : Instr} {f : Hub → Hub} {p : Hub → Prop} (hexec : exec i s = .next (s.modHub hub f))
    (hp : p (f (s.hubOf hub))) : HubStep s hub i p :=
  ⟨_, hexec, by rwa [hubOf_modHub_same], fun _ hn => hubOf_modHub_other s f hn, rfl, rfl, rfl⟩

theorem isHub_of {hub : Nat} (h : hub = 4 ∨ hub = 5) : isHub hub = true := by
  rcases h with rfl | rfl <;> rfl

theorem all_down_iff (s : State) :
    ((List.range 18).all fun p => (s.link p).phase == .down) = true ↔ ∀ p, p < 18 → (s.link p).phase = .down := by
  simp only [List.all_eq_true, List.mem_range, beq_iff_eq]

theorem writeFabid_full {hub : Nat} {v : Word} (hhub : hub = 4 ∨ hub = 5) : s.writeFabid hub .full v =
    if ((List.range 18).all fun p => (s.link p).phase == .down) = true ∧ (v.extractLsb' 0 12).toNat ≤ 511 then
      s.modHub hub fun x => { x with chip := v.extractLsb' 0 12, domain := v.extractLsb' 12 9 }
    else s := by
  have hchip : wordField v 0 12 = (v.extractLsb' 0 12).toNat := by
    rw [wordField_zero, BitVec.extractLsb'_toNat, Nat.shiftRight_zero]
  simp only [State.writeFabid, regMerge_full, isHub_of hhub, hchip, Bool.true_and, Bool.and_eq_true,
    decide_eq_true_eq]

theorem candidates_all_iff (w : BitVec 23) : (candidates w).all (· ≤ 17) = true ↔
    ∀ k, k ≤ (w.extractLsb' 1 2).toNat → (w.extractLsb' (3 + 5 * k) 5).toNat ≤ 17 := by
  simp only [candidates, List.all_map, List.all_eq_true, List.mem_range, Function.comp_apply, decide_eq_true_eq, Nat.lt_succ_iff]

theorem writeRoute_full {hub c : Nat} {v : Word} (hhub : hub = 4 ∨ hub = 5) (hc : c < 512) : s.writeRoute hub c .full v =
    if (candidates (v.setWidth 23)).all (· ≤ 17) = true then
      s.modHub hub fun x => { x with routes := x.routes.put c (v.setWidth 23) }
    else s := by
  have hlow : v.extractLsb' 0 23 = v.setWidth 23 := (BitVec.setWidth_eq_extractLsb' (by decide)).symm
  simp only [State.writeRoute, regMerge_full, isHub_of hhub, hc, decide_true, Bool.true_and, hlow]

theorem exec_fabidWrite {hub a : Nat} {v : Word} (harg : s.arg = .reg hub a .full v) (hup : s.host.welomUp = true)
    (hready : s.package.phase = .ready) : exec .fabidWrite s = .next (s.writeFabid hub .full v) := by
  change execFabidWrite s = _
  simp only [execFabidWrite, harg, whenBar_open _ hup hready]

theorem exec_routeWrite {hub a : Nat} {v : Word} (harg : s.arg = .reg hub a .full v) (hup : s.host.welomUp = true)
    (hready : s.package.phase = .ready) : exec .routeWrite s = .next (s.writeRoute hub a .full v) := by
  change execRouteWrite s = _
  simp only [execRouteWrite, harg, whenBar_open _ hup hready]

theorem fabidWrite_takes {hub a : Nat} {v : Word} (harg : s.arg = .reg hub a .full v) (hhub : hub = 4 ∨ hub = 5)
    (hup : s.host.welomUp = true) (hready : s.package.phase = .ready) :
    ((∀ p, p < 18 → (s.link p).phase = .down) → (v.extractLsb' 0 12).toNat ≤ 511 → HubStep s hub .fabidWrite fun x =>
      x = { s.hubOf hub with chip := v.extractLsb' 0 12, domain := v.extractLsb' 12 9 }) ∧
    ((∃ p, p < 18 ∧ (s.link p).phase ≠ .down) ∨ 511 < (v.extractLsb' 0 12).toNat → exec .fabidWrite s = .next s) := by
  have hexec := exec_fabidWrite harg hup hready
  rw [writeFabid_full hhub] at hexec
  refine ⟨fun hdown hchip => ?_, fun hno => ?_⟩
  · rw [if_pos ⟨(all_down_iff s).2 hdown, hchip⟩] at hexec
    exact hubStep_modHub hexec rfl
  · rwa [if_neg] at hexec
    rintro ⟨hdown, hchip⟩
    rcases hno with ⟨p, hp, hup'⟩ | hbig
    · exact hup' ((all_down_iff s).1 hdown p hp)
    · omega

theorem routeWrite_takes {hub a : Nat} {v : Word} (harg : s.arg = .reg hub a .full v) (hhub : hub = 4 ∨ hub = 5) (ha : a < 512)
    (hup : s.host.welomUp = true) (hready : s.package.phase = .ready) :
    ((candidates (v.setWidth 23)).all (· ≤ 17) = true → HubStep s hub .routeWrite fun x => x.routes.getD 0 a = v.setWidth 23 ∧
      (∀ c, c ≠ a → x.routes.getD 0 c = (s.hubOf hub).routes.getD 0 c) ∧ x.chip = (s.hubOf hub).chip) ∧
    ((candidates (v.setWidth 23)).all (· ≤ 17) ≠ true → exec .routeWrite s = .next s) := by
  have hexec := exec_routeWrite harg hup hready
  rw [writeRoute_full hhub ha] at hexec
  refine ⟨fun hall => ?_, fun hno => by rwa [if_neg hno] at hexec⟩
  rw [if_pos hall] at hexec
  exact hubStep_modHub hexec ⟨Tbl.getD_put_same _ _ _ _, fun c hc => Tbl.getD_put_other _ _ _ hc, rfl⟩

theorem fctxmapWrite_takes {f a : Nat} {v : Word} (harg : s.arg = .reg f a .full v) (hf : f < 4096)
    (hup : s.host.welomUp = true) (hready : s.package.phase = .ready) : ∃ u, exec .fctxmapWrite s = .next u ∧
      u.fctxWord f = v.setWidth 7 ∧ ∀ n, n ≠ f → u.fctxWord n = s.fctxWord n := by
  refine ⟨s.onFabric fun x => { x with fctxmap := x.fctxmap.put f (v.setWidth 7) }, ?_, Tbl.getD_put_same _ _ _ _,
    fun n hn => Tbl.getD_put_other _ _ _ hn⟩
  have hlow : v.extractLsb' 0 7 = v.setWidth 7 := (BitVec.setWidth_eq_extractLsb' (by decide)).symm
  change execFctxmapWrite s = _
  simp only [execFctxmapWrite, harg, whenBar_open _ hup hready, State.writeFctxmap, hf, if_true, regMerge_full,
    hlow]

theorem fwdCacheFlush_flushes {hub : Nat} (harg : s.arg = .num hub) (hhub : hub = 4 ∨ hub = 5) (hup : s.host.welomUp = true)
    (hready : s.package.phase = .ready) : ∃ u n, exec .fwdCacheFlush s = .next u ∧
      u.hubOf hub = { s.hubOf hub with flushBusy := true, fwd := [] } ∧ (n, .fwdCacheFlushDone, .num hub) ∈ u.due := by
  refine ⟨(s.modHub hub fun x => { x with flushBusy := true, fwd := [] }).postFree .fwdCacheFlushDone (.num hub), _, ?_,
    hubOf_modHub_same s hub _, mem_insertDue.2 (.inl rfl)⟩
  change execFwdCacheFlush s = _
  simp only [execFwdCacheFlush, harg, whenBar_open _ hup hready, State.fwdFlush, isHub_of hhub, if_true]

theorem fwdCacheFlushDone_clears {hub : Nat} (harg : s.arg = .num hub) :
    HubStep s hub .fwdCacheFlushDone fun x => x = { s.hubOf hub with flushBusy := false } := by
  refine hubStep_modHub (f := fun x => { x with flushBusy := false }) ?_ rfl
  change execFwdCacheFlushDone s = _
  rw [execFwdCacheFlushDone, harg]

theorem hubRegisterRules : Claim.HubRegisterRules := by
  intro s hup hready hub hhub
  refine ⟨fun a v harg => ?_, fun f a v hf harg => fctxmapWrite_takes harg hf hup hready, fun harg => ⟨?_, ?_⟩⟩
  · obtain ⟨htakes, hignored⟩ := fabidWrite_takes harg hhub hup hready
    refine ⟨htakes, hignored, fun w ha hw => ?_⟩
    obtain ⟨hroute, hkept⟩ := routeWrite_takes harg hhub ha hup hready
    rw [← hw, candidates_all_iff] at hroute
    rw [← hw, ne_eq, candidates_all_iff] at hkept
    exact ⟨hroute, fun ⟨k, hk, hbig⟩ => hkept fun hall => absurd (hall k hk) (Nat.not_le.2 hbig)⟩
  · exact fwdCacheFlush_flushes harg hhub hup hready
  · exact fwdCacheFlushDone_clears harg

end

/-- Settles O51: links event by event, and a hub's registers write by write. -/
theorem linkAndHubRules : Obligations.LinkAndHubRules :=
  ⟨linkRules, hubRegisterRules⟩

end Sys2Proof.Machine
end

section
/-! PROOF. Requests to peers (02 R35, R45): what an access that is noted leaves of the running task, and what issuing a
remote request leaves. -/

namespace Sys2Proof.Machine

open Sys2Proof

section
variable {s u v : State}

/-! ## The running task once its access is noted -/

theorem Noted.me? (h : Noted s u) : u.me? = s.me? := by
  obtain ⟨_, hcur⟩ := h.cur
  have htasks : u.tasks = s.tasks := by
    obtain ⟨_, _, _, _, _, _, _, _, _, _, _, _, hu⟩ := h.shape
    rw [hu]
  unfold State.me?
  rw [hcur]
  cases s.cur with
  | none => rfl
  | some c => exact task?_of_tasks htasks c.tid

theorem Noted.getG (h : Noted s u) (n : Reg) : u.getG n = s.getG n := by rw [State.getG, State.getG, State.regs, State.regs, h.me?]

theorem Noted.versioned (h : Noted s u) : u.versioned = s.versioned := by
  have hlaunch : u.launch? = s.launch? := by
    obtain ⟨_, _, _, _, _, _, _, _, _, _, _, _, rfl⟩ := h.shape
    rfl
  rw [State.versioned, State.versioned, State.curLaunch?, State.curLaunch?, h.me?, hlaunch]

theorem Noted.curCore (h : Noted s u) : u.curCore = s.curCore := by
  obtain ⟨_, hcur⟩ := h.cur
  rw [State.curCore, State.curCore, hcur]
  cases s.cur <;> rfl

theorem Noted.tagOf (h : Noted s u) : u.tagOf = s.tagOf := by
  obtain ⟨_, hcur⟩ := h.cur
  rw [State.tagOf, State.tagOf, State.bundlePc, State.bundlePc, hcur]
  cases s.cur <;> rfl

theorem Noted.handlingHub (h : Noted s u) (die : Nat) : u.handlingHub die = s.handlingHub die := by
  obtain ⟨_, _, _, _, _, _, _, _, _, _, _, _, rfl⟩ := h.shape
  rfl

theorem Noted.slips (h : Noted s u) : u.fabric.slips = s.fabric.slips := by
  obtain ⟨_, _, _, _, _, _, _, _, _, _, _, _, rfl⟩ := h.shape
  rfl

theorem Noted.reqids (h : Noted s u) : u.fabric.reqids = s.fabric.reqids := by
  obtain ⟨_, _, _, _, _, _, _, _, _, _, _, _, rfl⟩ := h.shape
  rfl

theorem Noted.stores (h : Noted s u) : u.mem.stores = s.mem.stores := by
  obtain ⟨_, _, _, _, _, _, _, _, _, _, _, _, rfl⟩ := h.shape
  rfl

theorem Noted.slipFree? (h : Noted s u) (die : Nat) : u.slipFree? die = s.slipFree? die := by
  simp only [State.slipFree?, State.slipHalf, State.slipEntry, h.handlingHub, h.slips]

/-! ## A hub's identity once an access is noted (02 R46) -/

theorem traceEvent_fabric (s : State) (tid : Word) (k aux : Nat) (st : Bool) (v : Word) :
    (s.traceEvent tid k aux st v).fabric = s.fabric := by
  unfold State.traceEvent
  split
  · rfl
  · split
    · dsimp only
      split <;> rfl
    · rfl

theorem traceTrigger_fabric (s : State) (tid : Word) (k : Nat) (hit : Trace → Bool) :
    (s.traceTrigger tid k hit).fabric = s.fabric := by
  unfold State.traceTrigger
  split
  · rfl
  · split
    · dsimp only
      split <;> rfl
    · rfl

theorem traceOne_fabric (s : State) (tid : Word) (slot : Nat) (e : TraceEv) : (s.traceOne tid slot e).fabric = s.fabric := by
  cases e with
  | branch => exact traceEvent_fabric ..
  | kwrite => exact traceEvent_fabric ..
  | access => exact (traceTrigger_fabric ..).trans (traceEvent_fabric ..)

theorem traceAccess_fabric (s : State) (tid : Word) (va size : Nat) (store : Bool) :
    (s.traceAccess tid va size store).fabric = s.fabric := by
  unfold State.traceAccess
  dsimp only
  split
  · split
    · rfl
    · exact traceOne_fabric ..
  · exact traceOne_fabric ..

theorem noteL2_fabric (s : State) (t : Task) (k : AccKind) (p : Piece) : (s.noteL2 t k p).fabric = s.fabric := by
  unfold State.noteL2
  split
  · split
    · rfl
    · exact touchL2_fabric ..
  · rfl

theorem tlbUse_fabric (s : State) (core : Nat) (asid : BitVec 16) (va : Nat) : (s.tlbUse core asid va).fabric = s.fabric := by
  unfold State.tlbUse
  split
  · rfl
  · split <;> rfl

theorem ownChip_of_fabric (h : u.fabric = s.fabric) (hub : Nat) : u.ownChip hub = s.ownChip hub := by
  rw [State.ownChip, State.ownChip, State.hubOf, State.hubOf, h]

theorem fwdUse_ownChip (s : State) (die : Nat) (e : Option FwdEntry) (hub : Nat) : (s.fwdUse die e).ownChip hub = s.ownChip hub := by
  cases e with
  | none => rfl
  | some x =>
    unfold State.fwdUse State.fwdInsert State.ownChip State.hubOf State.modHub
    by_cases h : hub = s.handlingHub die
    · subst h
      simp only [State.onFabric_fabric, Tbl.upd, Tbl.getD_put_same]
    · simp only [State.onFabric_fabric, Tbl.upd, Tbl.getD_put_other _ _ _ h]

theorem notePiece_ownChip (s : State) (t : Task) (core : Nat) (k : AccKind) (p : Piece) (hub : Nat) :
    (s.notePiece t core k p).ownChip hub = s.ownChip hub :=
  ((ownChip_of_fabric (tlbUse_fabric ..) hub).trans (fwdUse_ownChip ..)).trans (ownChip_of_fabric (noteL2_fabric ..) hub)

theorem noteAccess_ownChip (s : State) (t : Task) (core : Nat) (k : AccKind) (ps : List Piece) (n : Nat)
    (acq rel : Option Scope) (hub : Nat) : (s.noteAccess t core k ps n acq rel).ownChip hub = s.ownChip hub := by
  have hpieces (l : List Piece) (s : State) : (l.foldl (fun s p => s.notePiece t core k p) s).ownChip hub = s.ownChip hub := by
    induction l generalizing s with
    | nil => rfl
    | cons p l ih => exact (ih _).trans (notePiece_ownChip ..)
  cases ps with
  | nil => rfl
  | cons p ps =>
    unfold State.noteAccess
    dsimp only
    refine (hpieces (p :: ps) _).trans (ownChip_of_fabric (u := State.countBytes _ _ _ _) ?_ hub)
    refine (State.modCtx_fabric ..).trans ?_
    split
    · exact traceAccess_fabric ..
    · exact traceAccess_fabric ..

/-! ## Requests that are sent stay listed (02 R45) -/

/-- Each request of one state stands in the other, wherever it is on its way. -/
def RequestsKept (s u : State) : Prop :=
  ∀ r ∈ s.fabric.remotes, ∃ q ∈ u.fabric.remotes, q.use = r.use ∧ q.pkt = r.pkt

theorem requestsKept_of (h : u.fabric.remotes = s.fabric.remotes) : RequestsKept s u :=
  fun r hr => ⟨r, by rwa [h], rfl, rfl⟩

theorem RequestsKept.trans (h : RequestsKept s u) (k : RequestsKept u v) : RequestsKept s v := by
  intro r hr
  obtain ⟨q, hq, huse, hpkt⟩ := h r hr
  obtain ⟨q', hq', huse', hpkt'⟩ := k q hq
  exact ⟨q', hq', huse'.trans huse, hpkt'.trans hpkt⟩

theorem requestsKept_modRemote (s : State) (id : Nat) {f : RemoteReq → RemoteReq}
    (hf : ∀ r, (f r).use = r.use ∧ (f r).pkt = r.pkt) : RequestsKept s (s.modRemote id f) := by
  intro r hr
  refine ⟨_, List.mem_map_of_mem hr, ?_⟩
  split
  · exact hf r
  · exact ⟨rfl, rfl⟩

theorem deliver_remotes (s : State) (hub : Nat) (p : Packet) : (s.deliver hub p).fabric.remotes = s.fabric.remotes := by
  unfold State.deliver
  split <;> rfl

theorem linkSend_remotes (s : State) (port : Nat) (p : Packet) : (s.linkSend port p).fabric.remotes = s.fabric.remotes := by
  rw [State.linkSend, State.pumpLink, onLink_fabric]
  rfl

theorem requestsKept_transmitBut (s : State) (r : RemoteReq) (avoid : Option Nat) : RequestsKept s (s.transmitBut r avoid) := by
  have hset (u : State) (hub : Nat) (port : Option Nat) (n m : Nat) (hu : u.fabric.remotes = s.fabric.remotes) :
      RequestsKept s ((u.modRemote r.id fun x =>
        { x with heldAtUnit := false, hub := hub, port := port, deadline := n }).post m .remtoExpiry (.num r.id)) := by
    have hmod : RequestsKept u (u.modRemote r.id fun x =>
        { x with heldAtUnit := false, hub := hub, port := port, deadline := n }) :=
      requestsKept_modRemote u r.id fun _ => ⟨rfl, rfl⟩
    exact (requestsKept_of hu).trans (hmod.trans (requestsKept_of rfl))
  have hpick (hub : Nat) := congrArg Fabric.remotes (pickPortBut_fabric s hub r.pkt.dst avoid)
  unfold State.transmitBut
  dsimp only
  split
  · exact hset _ _ _ _ _ (deliver_remotes ..)
  · split
    · exact hset _ _ _ _ _ ((linkSend_remotes ..).trans (hpick _))
    · exact hset _ _ _ _ _ (hpick _)

theorem requestsKept_pumpRemotes (s : State) : RequestsKept s s.pumpRemotes := by
  have hlist (rs before : List RemoteReq) (s : State) : RequestsKept s (pumpList s before rs) := by
    induction rs generalizing before s with
    | nil => exact requestsKept_of rfl
    | cons r rs ih =>
      unfold pumpList
      dsimp only
      split
      · exact (requestsKept_transmitBut s r none).trans (ih _ _)
      · exact ih _ _
  exact hlist _ _ s

/-! ## A remote request that is issued (02 R35, R45) -/

/-- A unit has issued a request with its next REQID, and nothing else of the running slot, of memory, of the tasks and of the
slip table has changed. -/
structure Requested (s u : State) (unit : BitVec 16) (p : Packet) (use : RemoteUse) : Prop where
  request : ∃ r ∈ u.fabric.remotes, r.use = use ∧ r.pkt = { p with
    src := r.pkt.src, tepoch := r.pkt.tepoch, srcunit := unit, reqid := s.fabric.reqids.getD 0 unit.toNat }
  reqid : u.fabric.reqids.getD 0 unit.toNat = s.fabric.reqids.getD 0 unit.toNat + 1
  slips : u.fabric.slips = s.fabric.slips
  mem : u.mem = s.mem
  tasks : u.tasks = s.tasks
  cur : u.cur = s.cur

theorem requested_remoteSendVia (s : State) (hub : Nat) (unit : BitVec 16) (ctx : Nat) (p : Packet) (use : RemoteUse) :
    Requested s (s.remoteSendVia hub unit ctx p use) unit p use := by
  unfold State.remoteSendVia
  dsimp only
  generalize hs2 : State.onFabric _ _ = s2
  have hsent := sent_pumpRemotes s2
  obtain ⟨_, _, hfabric⟩ := hsent.fabric
  have hreq : s2.fabric.reqids = s.fabric.reqids.put unit.toNat (s.fabric.reqids.getD 0 unit.toNat + 1) := by rw [← hs2]; rfl
  refine ⟨?_, ?_, ?_, hsent.mem.trans (by rw [← hs2]; rfl), hsent.tasks.trans (by rw [← hs2]; rfl), ?_⟩
  · have hmem := requestsKept_pumpRemotes s2
    rw [RequestsKept, ← hs2] at hmem
    obtain ⟨q, hq, huse, hpkt⟩ := hmem _ (List.mem_append_right _ (List.mem_singleton.2 rfl))
    rw [hs2] at hq
    exact ⟨q, hq, huse, by rw [hpkt]⟩
  · rw [hfabric]
    change s2.fabric.reqids.getD 0 _ = _
    rw [hreq]
    exact Tbl.getD_put_same _ _ _ _
  · rw [hfabric]
    change s2.fabric.slips = _
    rw [← hs2]
    rfl
  · obtain ⟨_, _, _, _, _, hu⟩ := hsent.shape
    rw [hu, ← hs2]
    rfl

end

end Sys2Proof.Machine
end

section
/-! PROOF. O43: slip stores, and accesses to pages of a peer, at issue (14 R358, R382 to R384; 02 R35, R45, R50, R51). -/

namespace Sys2Proof.Machine

open Sys2Proof

section
variable {s u v : State} {c : Cur} {t : Task} {p : Piece}

/-! ## The bytes of a write packet (02 R35, R36) -/

/-- A scalar access of a register's low bytes. -/
def scalarBytes (n : Nat) : Prop := n = 1 ∨ n = 2 ∨ n = 4 ∨ n = 8

theorem scalarBytes_ty {ty : Ty} (h : ty.isMem = true) : scalarBytes (tyBits ty / 8) := by
  unfold scalarBytes
  cases ty <;> simp_all [Ty.isMem, tyBits]

theorem scalarBytes_aw (w : AWidth) : scalarBytes (awBytes w) := by
  unfold scalarBytes
  cases w <;> simp [awBytes]

theorem sizeCode_bytes {n : Nat} (h : scalarBytes n) : 2 ^ (sizeCode n).toNat = n := by
  rcases h with rfl | rfl | rfl | rfl <;> decide

/-- A word of as many bits as some bytes have holds them. -/
theorem natLe_ofNat_leNat {w : Nat} (bs : List Byte) (hw : w = 8 * bs.length) :
    natLe bs.length (BitVec.ofNat w (leNat bs)).toNat = bs := by
  have hlt : leNat bs < 2 ^ w := by
    rw [hw, Nat.pow_mul]
    exact leNat_lt bs
  rw [BitVec.toNat_ofNat, Nat.mod_eq_of_lt hlt, natLe_leNat]

theorem beatBytes_beatOf {bs : List Byte} (h : bs.length = 64) : beatBytes (beatOf bs) = bs := by
  have hword := natLe_ofNat_leNat (w := 512) bs (by rw [h])
  rwa [h] at hword

/-- The payload of at most one beat. -/
theorem payloadOf_one {bs : List Byte} (hpos : bs ≠ []) (hlen : bs.length ≤ 64) :
    payloadOf bs = [⟨beatOf (bs ++ List.replicate (64 - bs.length) 0), false⟩] := by
  have hempty : bs.isEmpty = false := by simpa using hpos
  have hrest : beatsOf 31 (bs.drop 64) = [] := by
    rw [List.drop_eq_nil_of_le hlen]
    rfl
  rw [payloadOf, beatsOf, hempty, hrest, List.take_of_length_le hlen]
  rfl

theorem payloadBytes_write {q : Packet} {bs : List Byte} (hop : q.op = 0x03) (hopnd : q.opnd2 = 0)
    (hsize : q.size = sizeCode bs.length) (hload : q.payload = payloadOf bs) (hn : scalarBytes bs.length) :
    payloadBytes q = bs := by
  have hbounds : 0 < bs.length ∧ bs.length ≤ 64 := by
    rcases hn with h | h | h | h <;> rw [h] <;> decide
  have hbytes : pktBytes q = bs.length := by
    simp only [pktBytes, hop, hopnd, hsize, sizeCode_bytes hn, bne_self_eq_false, Bool.and_false, Bool.false_eq_true, if_false]
  rw [payloadBytes, hbytes, hload, payloadOf_one (List.ne_nil_of_length_pos hbounds.1) hbounds.2, List.flatMap_singleton,
    beatBytes_beatOf (by rw [List.length_append, List.length_replicate]; omega), List.take_left]

/-! ## What stands before a request leaves -/

/-- The state in which a request leaves: memory and registers as at issue, the bundle but for what it traces, and the
numbers of requests. -/
structure BeforeSend (s u : State) : Prop where
  bytes : SameBytes s u
  regs : SameRegs s u
  cur : SameCur s u
  reqids : u.fabric.reqids = s.fabric.reqids

theorem SameBytes.trans (h : SameBytes s u) (k : SameBytes u v) : SameBytes s v :=
  ⟨fun a => (k.1 a).trans (h.1 a), fun a => (k.2 a).trans (h.2 a)⟩

theorem BeforeSend.trans (h : BeforeSend s u) (k : BeforeSend u v) : BeforeSend s v :=
  ⟨h.bytes.trans k.bytes, h.regs.trans k.regs, h.cur.trans k.cur, k.reqids.trans h.reqids⟩

theorem sameRegs_of_tasks (h : u.tasks = s.tasks) : SameRegs s u := by rw [SameRegs, h]

theorem beforeSend_noteAccess (s : State) (t : Task) (core : Nat) (k : AccKind) (ps : List Piece) (n : Nat)
    (acq rel : Option Scope) : BeforeSend s (s.noteAccess t core k ps n acq rel) :=
  have hkept := feKept_noteAccess s t core k ps n acq rel
  ⟨hkept.sameBytes, hkept.sameRegs, hkept.cur, (noteAccess_noted s t core k ps n acq rel).reqids⟩

/-- A release of a task that has no store of its own left counts itself at most. -/
theorem beforeSend_releaseBy {tid : Word} (core : Nat) (sc : Scope) (h : s.ownStores tid = []) :
    BeforeSend s (s.releaseBy tid core sc) := by
  have hnone : BeforeSend s s := ⟨sameBytes_of_mem rfl, sameRegs_of_tasks rfl, sameCur_of_eq rfl, rfl⟩
  have hcount : BeforeSend s (s.countRelease (coreDie core) tid) :=
    ⟨sameBytes_of_mem rfl, sameRegs_of_tasks rfl, sameCur_of_eq rfl, rfl⟩
  unfold State.releaseBy
  rw [flushStores_none h]
  cases sc with
  | seq | core | cluster | die => exact hnone
  | pkg | fabric => exact hcount

theorem beforeSend_acquireOpt (s : State) (tid : Word) (core : Nat) (acq : Option Scope) :
    BeforeSend s (s.acquireOpt tid core acq) := by
  obtain ⟨_, f, hshape, hf, -⟩ := acquireOpt_shape s tid core acq
  rw [hshape]
  refine ⟨sameBytes_of_mem rfl, ?_, sameCur_of_eq rfl, rfl⟩
  unfold SameRegs
  rw [List.map_map]
  refine List.map_congr_left fun t _ => ?_
  obtain ⟨htid, hr, htrap⟩ := hf t
  rw [Function.comp_apply, htid, hr, htrap]

theorem Entered.of_cur {es : List Infl} (h : Entered s u es) (k : v.cur = u.cur) : Entered s v es := by
  obtain ⟨tr, h⟩ := h
  exact ⟨tr, k.trans h⟩

theorem SameCur.of_cur (h : SameCur s u) (k : v.cur = u.cur) : SameCur s v := by
  obtain ⟨tr, h⟩ := h
  exact ⟨tr, k.trans h⟩

theorem entered_putInfl (s : State) (e : Infl) : Entered s (s.putInfl e) [e] :=
  ⟨[], by cases h : s.cur <;> simp [State.putInfl, h]⟩

theorem SameCur.tagOf (h : SameCur s u) (hcur : s.cur = some c) : u.tagOf = c.pc.extractLsb' 2 16 := by
  obtain ⟨tr, h⟩ := h
  rw [State.tagOf, State.bundlePc, h, hcur]
  rfl

/-! ## A request that has left (14 R358; 02 R45) -/

/-- A request of a unit that has left with the next REQID, to an address of a peer's page; memory and the registers stand. -/
structure RemoteSent (s u : State) (r : RemoteReq) (unit : BitVec 16) (q : Packet) : Prop where
  listed : r ∈ u.fabric.remotes
  packet : r.pkt = { q with
    src := r.pkt.src, tepoch := r.pkt.tepoch, srcunit := unit, reqid := s.fabric.reqids.getD 0 unit.toNat }
  reqid : u.fabric.reqids.getD 0 unit.toNat = s.fabric.reqids.getD 0 unit.toNat + 1
  bytes : SameBytes s u
  regs : SameRegs s u

theorem remoteSent_of {unit : BitVec 16} {q : Packet} {use : RemoteUse} (h : Requested s u unit q use) :
    ∃ r, RemoteSent s u r unit q ∧ r.use = use := by
  obtain ⟨r, hr, huse, hpkt⟩ := h.request
  exact ⟨r, ⟨hr, hpkt, h.reqid, sameBytes_of_mem h.mem, sameRegs_of_tasks h.tasks⟩, huse⟩

theorem RemoteSent.since {r : RemoteReq} {unit : BitVec 16} {q : Packet} (h : BeforeSend s u) (k : RemoteSent u v r unit q) :
    RemoteSent s v r unit q :=
  ⟨k.listed, by rw [← h.reqids]; exact k.packet, by rw [← h.reqids]; exact k.reqid, h.bytes.trans k.bytes,
    h.regs.trans k.regs⟩

/-! ## Remote loads, stores and atomics (14 R358) -/

/-- The read packet of a load. -/
def readPkt (chip : BitVec 12) (fctx : BitVec 16) (va n : Nat) (tag : BitVec 16) (acquire : Bool) : Packet :=
  { op := 0x01, dst := chip, fctx := fctx, vaddr := BitVec.ofNat 57 va, size := sizeCode n, tag := tag, acquire := acquire }

/-- A result is entered, and a request leaves that will bring it. -/
theorem entered_remoteSend (w : State) (e : Infl) (die : Nat) (unit : BitVec 16) (ctx : Nat) (q : Packet) (use : RemoteUse) :
    Entered w ((w.putInfl e).remoteSend die unit ctx q use) [e] ∧
      ∃ r, RemoteSent w ((w.putInfl e).remoteSend die unit ctx q use) r unit q ∧ r.use = use := by
  have hreq : Requested (w.putInfl e) ((w.putInfl e).remoteSend die unit ctx q use) unit q use :=
    requested_remoteSendVia _ _ _ _ _ _
  obtain ⟨r, hsent, huse⟩ := remoteSent_of hreq
  exact ⟨(entered_putInfl w e).of_cur hreq.cur, r, ⟨hsent.listed, hsent.packet, hsent.reqid, hsent.bytes, hsent.regs⟩, huse⟩

theorem remoteLoad_sends (w : State) (t : Task) (core : Nat) (chip : BitVec 12) (fctx : BitVec 16) (va n : Nat) (acq : Bool)
    (d : Reg) (sext : Bool) :
    ∃ e r own, Entered w (w.remoteLoad t core chip fctx va n acq (.g d) (BitVec.allOnes 64) none sext) [e] ∧ e.reg = .g d ∧
      e.mask = BitVec.allOnes 64 ∧ e.remote = true ∧
      RemoteSent w (w.remoteLoad t core chip fctx va n acq (.g d) (BitVec.allOnes 64) none sext) r (taskUnit t core)
        (readPkt chip fctx va n w.tagOf acq) ∧ r.use = .load t.tid e.id none n sext own := by
  obtain ⟨hentered, r, hsent, huse⟩ := entered_remoteSend w.fresh.2
    { id := w.nextId, reg := .g d, mask := BitVec.allOnes 64, val := .word 0, ord := 0, remote := true, load := true
      buf := t.r.buf } (coreDie core) (taskUnit t core) t.ctx (readPkt chip fctx va n w.tagOf acq)
    (.load t.tid w.nextId none n sext (commitOver t.commitQ va n))
  exact ⟨_, r, _, hentered, rfl, rfl, rfl, ⟨hsent.listed, hsent.packet, hsent.reqid, hsent.bytes, hsent.regs⟩, huse⟩

theorem atomRemote_sends (w : State) (t : Task) (core : Nat) (d : Reg) (sext : Bool) (q : Packet) (n : Nat) :
    ∃ e r own, Entered w (w.atomRemote t core (.g d sext) q n) [e] ∧ e.reg = .g d ∧ e.mask = BitVec.allOnes 64 ∧
      e.remote = true ∧ RemoteSent w (w.atomRemote t core (.g d sext) q n) r (taskUnit t core) q ∧
      r.use = .load t.tid e.id none n sext own := by
  obtain ⟨hentered, r, hsent, huse⟩ := entered_remoteSend w.fresh.2.fresh.2
    { id := w.nextId, reg := .g d, mask := BitVec.allOnes 64, val := .word 0, ord := 0, remote := true } (coreDie core)
    (taskUnit t core) t.ctx q (.load t.tid w.nextId none n sext [])
  exact ⟨_, r, _, hentered, rfl, rfl, rfl, ⟨hsent.listed, hsent.packet, hsent.reqid, hsent.bytes, hsent.regs⟩, huse⟩

end

end Sys2Proof.Machine
end

section
/-! PROOF. O43: loads, stores and atomics to a peer, and slip stores (14 R358, R382 to R384; 02 R35, R45, R50, R51). -/

namespace Sys2Proof.Machine

open Sys2Proof

section
variable {s u v : State} {c : Cur} {t : Task} {p : Piece}

theorem curCore_of (hcur : s.cur = some c) : s.curCore = c.core := by rw [State.curCore, hcur]

/-- A request of a sequencer's slot that has left for a peer, as the statement reads it. -/
theorem RemoteSent.fields {r : RemoteReq} {unit : BitVec 16} {q : Packet} (h : RemoteSent s u r unit q) :
    r ∈ u.fabric.remotes ∧ r.pkt.op = q.op ∧ r.pkt.dst = q.dst ∧ r.pkt.fctx = q.fctx ∧ r.pkt.vaddr = q.vaddr ∧
      r.pkt.size = q.size ∧ r.pkt.srcunit = unit ∧ r.pkt.reqid = s.fabric.reqids.getD 0 unit.toNat ∧
      u.fabric.reqids.getD 0 unit.toNat = s.fabric.reqids.getD 0 unit.toNat + 1 ∧ r.pkt.tag = q.tag ∧ SameBytes s u ∧
      SameRegs s u := by
  have hpacket := h.packet
  refine ⟨h.listed, ?_, ?_, ?_, ?_, ?_, ?_, ?_, h.reqid, ?_, h.bytes, h.regs⟩ <;> rw [hpacket]

/-! ## Loads (14 R358, R360) -/

theorem exec_ld_peer {ty : Ty} {d a : Reg} {i : Imm 5} {chip : BitVec 12} {fctx : BitVec 16} {va : Nat}
    (hcur : s.cur = some c) (hme : s.me? = some t) (hon : s.enabled = true) (hloc : p.loc = .peer chip fctx va)
    (hok : s.checkOne t c.core false (eaOf (s.getG a) (immS i)) 0 (scalarReq (tyBits ty / 8) .load) = .ok p) :
    exec (.ld ty d a i) s = .next ((s.noteAccess t c.core .load [p] (tyBits ty / 8) none none).remoteLoad t c.core chip fctx va
      (tyBits ty / 8) false (.g d) (BitVec.allOnes 64) none (tySigned ty)) := by
  change execLd ty d a i s = _
  simp only [execLd, State.loadSlot, State.whenOn_of_enabled _ hon, hme, curCore_of hcur, hok, State.onChk, hloc,
    State.acquireOpt]
  rfl

theorem ld_sends {ty : Ty} {d a : Reg} {i : Imm 5} {chip : BitVec 12} {fctx : BitVec 16} {va : Nat}
    (hcur : s.cur = some c) (hme : s.me? = some t) (hon : s.enabled = true) (hloc : p.loc = .peer chip fctx va)
    (hok : s.checkOne t c.core false (eaOf (s.getG a) (immS i)) 0 (scalarReq (tyBits ty / 8) .load) = .ok p) :
    ∃ u r e own, exec (.ld ty d a i) s = .next u ∧ RemoteSent s u r (taskUnit t c.core)
        (readPkt chip fctx va (tyBits ty / 8) (c.pc.extractLsb' 2 16) false) ∧
      (Entered s u [e] ∧ e.reg = .g d ∧ e.mask = BitVec.allOnes 64 ∧ e.remote = true) ∧
      r.use = .load t.tid e.id none (tyBits ty / 8) (tySigned ty) own := by
  have hbefore := beforeSend_noteAccess s t c.core .load [p] (tyBits ty / 8) none none
  obtain ⟨e, r, own, hentered, hreg, hmask, hremote, hsent, huse⟩ := remoteLoad_sends
    (s.noteAccess t c.core .load [p] (tyBits ty / 8) none none) t c.core chip fctx va (tyBits ty / 8) false d (tySigned ty)
  rw [hbefore.cur.tagOf hcur] at hsent
  exact ⟨_, r, e, own, exec_ld_peer hcur hme hon hloc hok, hsent.since hbefore,
    ⟨hentered.of_sameCur hbefore.cur, hreg, hmask, hremote⟩, huse⟩

/-! ## Stores (14 R358, R360) -/

theorem exec_st_peer {ty : Ty} {d a : Reg} {i : Imm 5} {chip : BitVec 12} {fctx : BitVec 16} {va : Nat}
    (hcur : s.cur = some c) (hme : s.me? = some t) (hon : s.enabled = true) (hvers : s.versioned = false)
    (hloc : p.loc = .peer chip fctx va) (hheld : s.rangeHeld c.core [p] (tyBits ty / 8) = false)
    (hok : s.checkOne t c.core false (eaOf (s.getG a) (immS i)) 0 (scalarReq (tyBits ty / 8) .store) = .ok p) :
    let w := s.noteAccess t c.core .store [p] (tyBits ty / 8) none none
    exec (.st ty d a i) s = .next (w.remoteSend (coreDie c.core) (taskUnit t c.core) t.ctx
      (writePkt chip fctx va (natLe (tyBits ty / 8) (s.getG d).toNat) w.tagOf) (.store t.tid)) := by
  change execSt ty d a i s = _
  simp only [execSt, State.storeSlot, State.whenOn_of_enabled _ hon, hme, curCore_of hcur, hok, State.onChk, State.storePieces,
    State.storeEach, List.flatten_cons, List.flatten_nil, List.append_nil, List.map_cons, List.map_nil, natLe_length,
    List.headD_cons, hheld, hvers, Bool.false_and, Bool.false_eq_true, if_false, State.afterCommit, Bool.not_false,
    List.foldl_cons, List.foldl_nil, State.storeNow, hloc, List.filterMap_cons, List.filterMap_nil, Loc.place,
    StorePlace.memOp, storeGroups, Option.isSome_none, lineGroups, List.eraseDups_nil]
  rfl

theorem st_sends {ty : Ty} {d a : Reg} {i : Imm 5} {chip : BitVec 12} {fctx : BitVec 16} {va : Nat}
    (hcur : s.cur = some c) (hme : s.me? = some t) (hon : s.enabled = true) (hvers : s.versioned = false)
    (hloc : p.loc = .peer chip fctx va) (hheld : s.rangeHeld c.core [p] (tyBits ty / 8) = false)
    (hok : s.checkOne t c.core false (eaOf (s.getG a) (immS i)) 0 (scalarReq (tyBits ty / 8) .store) = .ok p) :
    ∃ u r, exec (.st ty d a i) s = .next u ∧ RemoteSent s u r (taskUnit t c.core)
        (writePkt chip fctx va (natLe (tyBits ty / 8) (s.getG d).toNat) (c.pc.extractLsb' 2 16)) ∧ SameCur s u ∧
      r.use = .store t.tid := by
  have hbefore := beforeSend_noteAccess s t c.core .store [p] (tyBits ty / 8) none none
  have hreq := requested_remoteSendVia (s.noteAccess t c.core .store [p] (tyBits ty / 8) none none)
    ((s.noteAccess t c.core .store [p] (tyBits ty / 8) none none).handlingHub (coreDie c.core)) (taskUnit t c.core) t.ctx
    (writePkt chip fctx va (natLe (tyBits ty / 8) (s.getG d).toNat) (c.pc.extractLsb' 2 16)) (.store t.tid)
  have hexec := exec_st_peer (d := d) hcur hme hon hvers hloc hheld hok
  dsimp only at hexec
  rw [hbefore.cur.tagOf hcur] at hexec
  obtain ⟨r, hsent, huse⟩ := remoteSent_of hreq
  exact ⟨_, r, hexec, hsent.since hbefore, hbefore.cur.of_cur hreq.cur, huse⟩

/-! ## Atomics (14 R358, R368, R369) -/

/-- An atomic at a page of a peer follows the task's own stores on this chip alone: with none left, it waits for nothing. -/
theorem atomHeld_peer {rel : Option Scope} {spec : AtomSpec} {ret : AtomRet} {chip : BitVec 12} {fctx : BitVec 16} {va : Nat}
    (hown : s.ownStores t.tid = []) (hloc : p.loc = .peer chip fctx va) :
    s.atomHeld t c.core rel [(p, spec, ret)] = false := by
  have hmeets : s.ownMeets t.tid [] = false := by rw [State.ownMeets, hown, List.any_nil]
  have hleft : s.storesLeft t.tid = false := by
    rw [State.storesLeft, hown]
    rfl
  unfold State.atomHeld
  cases rel <;>
    simp [hloc, Loc.place, StorePlace.memOp, Piece.homeDie, hmeets, hleft]

/-- The state in which an atomic to a peer leaves: its access is noted, and it has released and acquired (14 R368). -/
def State.atomBegun (s : State) (t : Task) (core : Nat) (o : AOrd) (p : Piece) (n : Nat) : State :=
  let s1 := s.noteAccess t core .atomic [p] n (AOrd.acqScope o) (AOrd.relScope o)
  let s2 := match AOrd.relScope o with
    | some sc => s1.releaseBy t.tid core sc
    | none => s1.flushStores t.tid
  s2.acquireOpt t.tid core (AOrd.acqScope o)

theorem beforeSend_atomBegun (o : AOrd) (p : Piece) (core n : Nat) (hown : s.ownStores t.tid = []) :
    BeforeSend s (s.atomBegun t core o p n) := by
  have hnoted := beforeSend_noteAccess s t core .atomic [p] n (AOrd.acqScope o) (AOrd.relScope o)
  have hown1 := ((noteAccess_noted s t core .atomic [p] n (AOrd.acqScope o) (AOrd.relScope o)).ownStores t.tid).trans hown
  unfold State.atomBegun
  dsimp only
  split
  · exact (hnoted.trans (beforeSend_releaseBy core _ hown1)).trans (beforeSend_acquireOpt ..)
  · rw [flushStores_none hown1]
    exact hnoted.trans (beforeSend_acquireOpt ..)

/-- The atomic that AADD asks for. -/
def addSpec (w : AWidth) (x y : Word) : AtomSpec :=
  ⟨0, awBytes w, x.toNat % 2 ^ (8 * awBytes w), y.toNat % 2 ^ (8 * awBytes w)⟩

theorem atomSlot_ok {o : AOrd} {a : Reg} {spec : AtomSpec} {ret : AtomRet} (hcur : s.cur = some c) (hme : s.me? = some t)
    (hon : s.enabled = true) (hok : s.checkOne t c.core false (eaOf (s.getG a) 0) 0
      { scalarReq spec.n .atomic with pcie := spec.pcie } = .ok p) :
    s.atomSlot o a spec ret = s.atomPieces t o [(p, spec, ret)] := by
  simp only [State.atomSlot, State.whenOn_of_enabled _ hon, hme, curCore_of hcur, hok, State.onChk]

section
variable {o : AOrd} {w : AWidth} {d a b : Reg} {chip : BitVec 12} {fctx : BitVec 16} {va : Nat}
  (hcur : s.cur = some c) (hme : s.me? = some t) (hon : s.enabled = true) (hvers : s.versioned = false)
  (hloc : p.loc = .peer chip fctx va) (hown : s.ownStores t.tid = [])
  (hok : s.checkOne t c.core false (eaOf (s.getG a) 0) 0
    { n := awBytes w, align := awBytes w, info := (awBytes w).log2, kind := .atomic, pcie := true } = .ok p)
  (hheld : s.rangeHeld c.core [p] (awBytes w) = false)
  (hbusy : AOrd.relScope o = some .fabric → s.remoteBusy t.tid = false)
include hcur hme hon hvers hloc hown hok hheld hbusy

theorem exec_aadd_peer : let v := s.atomBegun t c.core o p (awBytes w)
    exec (.aadd o w d a b) s = .next (v.atomRemote t c.core (.g d false)
      (atomPkt chip fctx va (addSpec w (s.getG b) (s.getG d)) o v.tagOf) (awBytes w)) := by
  have hwait : (AOrd.relScope o == some .fabric && s.remoteBusy t.tid) = false := by
    by_cases hrel : AOrd.relScope o = some .fabric
    · rw [hbusy hrel, Bool.and_false]
    · rw [beq_false_of_ne hrel, Bool.false_and]
  have hexec : exec (.aadd o w d a b) s = .next (s.atomSlot o a (addSpec w (s.getG b) (s.getG d)) (.g d false)) := rfl
  rw [hexec, atomSlot_ok hcur hme hon hok]
  have hn : (addSpec w (s.getG b) (s.getG d)).n = awBytes w := rfl
  simp only [State.atomPieces, hn, curCore_of hcur, List.map_cons, List.map_nil, List.headD_cons, hheld, hwait,
    flushStores_none hown, atomHeld_peer hown hloc, Bool.or_self, Bool.false_eq_true, if_false, State.afterCommit, hvers,
    Bool.and_false, List.foldl_cons, List.foldl_nil, State.atomOne, hloc]
  rfl

theorem aadd_sends : ∃ u r e own, exec (.aadd o w d a b) s = .next u ∧
    RemoteSent s u r (taskUnit t c.core)
      (atomPkt chip fctx va (addSpec w (s.getG b) (s.getG d)) o (c.pc.extractLsb' 2 16)) ∧
    (Entered s u [e] ∧ e.reg = .g d ∧ e.mask = BitVec.allOnes 64 ∧ e.remote = true) ∧
    r.use = .load t.tid e.id none (awBytes w) false own := by
  have hbefore := beforeSend_atomBegun o p c.core (awBytes w) hown
  obtain ⟨e, r, own, hentered, hreg, hmask, hremote, hsent, huse⟩ := atomRemote_sends (s.atomBegun t c.core o p (awBytes w)) t
    c.core d false (atomPkt chip fctx va (addSpec w (s.getG b) (s.getG d)) o (c.pc.extractLsb' 2 16)) (awBytes w)
  have hexec := exec_aadd_peer (d := d) (b := b) hcur hme hon hvers hloc hown hok hheld hbusy
  dsimp only at hexec
  rw [hbefore.cur.tagOf hcur] at hexec
  exact ⟨_, r, e, own, hexec, hsent.since hbefore, ⟨hentered.of_sameCur hbefore.cur, hreg, hmask, hremote⟩, huse⟩

end

theorem addSpec_opnd (chip : BitVec 12) (fctx : BitVec 16) (va : Nat) (w : AWidth) (x y : Word) (o : AOrd) (tag : BitVec 16) :
    (atomPkt chip fctx va (addSpec w x y) o tag).opnd0.toNat = x.toNat % 2 ^ (8 * awBytes w) := by
  have hx := x.isLt
  have hopnd : (atomPkt chip fctx va (addSpec w x y) o tag).opnd0 = BitVec.ofNat 64 (x.toNat % 2 ^ (8 * awBytes w) / 2 ^ (64 * 0)) :=
    rfl
  rw [hopnd, BitVec.toNat_ofNat]
  have hle := Nat.mod_le x.toNat (2 ^ (8 * awBytes w))
  omega

theorem remoteIssueResults : Claim.RemoteIssueResults := by
  intro s c t ty o w d a b i p chip fctx va hcur hme hon hvers hty hloc hown hqueue
  refine ⟨fun hok => ?_, fun hok hheld => ?_, fun hok hheld hbusy => ?_⟩
  · obtain ⟨u, r, e, own, hexec, hsent, hawaits, huse⟩ := ld_sends hcur hme hon hloc hok
    obtain ⟨hr, hop, hdst, hfctx, hvaddr, hsize, hrest⟩ := hsent.fields
    exact ⟨u, r, e, own, hexec, ⟨hr, hop, hdst, hfctx, hvaddr, by rw [hsize]; exact sizeCode_bytes (scalarBytes_ty hty), hrest⟩,
      hawaits, huse⟩
  · obtain ⟨u, r, hexec, hsent, hsame, huse⟩ := st_sends (d := d) hcur hme hon hvers hloc hheld hok
    obtain ⟨hr, hop, hdst, hfctx, hvaddr, hsize, hrest⟩ := hsent.fields
    have hlen : scalarBytes (natLe (tyBits ty / 8) (s.getG d).toNat).length := by
      rw [natLe_length]
      exact scalarBytes_ty hty
    refine ⟨u, r, hexec, ⟨hr, hop, hdst, hfctx, hvaddr, ?_, hrest⟩, hsame, huse,
      payloadBytes_write hop ?_ hsize ?_ hlen⟩
    · rw [hsize]
      exact (sizeCode_bytes hlen).trans (natLe_length _ _)
    · rw [hsent.packet]
      rfl
    · rw [hsent.packet]
      rfl
  · obtain ⟨u, r, e, own, hexec, hsent, hawaits, huse⟩ := aadd_sends (d := d) (b := b) hcur hme hon hvers hloc hown hok hheld hbusy
    obtain ⟨hr, hop, hdst, hfctx, hvaddr, hsize, hrest⟩ := hsent.fields
    refine ⟨u, r, e, own, hexec, ⟨hr, hop, hdst, hfctx, hvaddr, by rw [hsize]; exact sizeCode_bytes (scalarBytes_aw w), hrest⟩,
      hawaits, huse, ?_, ?_⟩
    · rw [hsent.packet]
      rfl
    · rw [hsent.packet]
      exact addSpec_opnd chip fctx va w (s.getG b) (s.getG d) o (c.pc.extractLsb' 2 16)

end

end Sys2Proof.Machine
end

section
/-! PROOF. O43: slip stores (14 R382 to R384; 02 R50, R51). -/

namespace Sys2Proof.Machine

open Sys2Proof

section
variable {s u v : State} {c : Cur} {t : Task} {p : Piece} {d a b : Reg}

/-! ## Stores to this chip (07 R179; 14 R382) -/

theorem storeOp_of_isHere {loc : Loc} (h : loc.isHere = true) (bs : List Byte) :
    ∃ op, loc.storeOp bs = some op ∧ (loc.place.memOp bs).toList = [op] := by
  cases loc with
  | sram k o => exact ⟨_, rfl, rfl⟩
  | phys pa place evf =>
    refine ⟨_, rfl, ?_⟩
    by_cases hpa : pa < 2 ^ 51
    · rw [if_pos hpa, Loc.place, StorePlace.memOp, if_neg (Nat.not_le.2 hpa), Option.toList_some]
    · rw [if_neg hpa, Loc.place, StorePlace.memOp, if_pos (Nat.not_lt.1 hpa), Option.toList_some]
  | peer chip fctx va => exact nomatch h

/-- A store that issues waits to be performed; nothing else of memory, the tasks and the bundle changes. -/
theorem issueStore_one (w : State) (t : Task) (core : Nat) (op : MemOp) (slip : Nat) : ∃ x : PendStore,
    (w.issueStore t core [op] none (some slip) []).mem = { w.mem with stores := w.mem.stores ++ [x] } ∧
    x.tid = t.tid ∧ x.ops = [op] ∧ x.slipTo = some slip ∧
    (w.issueStore t core [op] none (some slip) []).tasks = w.tasks ∧ (w.issueStore t core [op] none (some slip) []).cur = w.cur :=
  ⟨_, rfl, rfl, rfl, rfl, rfl, rfl⟩

/-! ## What the slip stores have in common (14 R382) -/

/-- The state in which a slip store goes on: its access is noted. -/
def State.slipBegun (s : State) (t : Task) (core : Nat) (p : Piece) : State := s.noteAccess t core .store [p] 8 none none

theorem slipBegun_noted (s : State) (t : Task) (core : Nat) (p : Piece) : Noted s (s.slipBegun t core p) :=
  noteAccess_noted ..

theorem beforeSend_slipBegun (s : State) (t : Task) (core : Nat) (p : Piece) : BeforeSend s (s.slipBegun t core p) :=
  beforeSend_noteAccess ..

theorem slipBegun_ownChip (s : State) (t : Task) (core : Nat) (p : Piece) (hub : Nat) :
    (s.slipBegun t core p).ownChip hub = s.ownChip hub := noteAccess_ownChip ..

theorem slipTake_entry (w : State) (n : Nat) : ((w.slipTake n).slipEntry n).count = (w.slipEntry n).count + 1 ∧
    ((w.slipTake n).slipEntry n).phase = .pending := by
  simp only [State.slipTake, State.modSlip, State.slipEntry, State.onFabric_fabric, Tbl.upd, Tbl.getD_put_same, and_self]

theorem onOwn_none {tid : Word} {ops : List MemOp} {f : State → State} {hold : State} (hown : s.ownStores tid = []) :
    s.onOwn tid ops f hold = f s := by
  rw [State.onOwn, ownMeets_none hown, flushStores_none hown, if_neg Bool.false_ne_true]

/-- The slips that a store takes from its register: the low half, and the high one. -/
def slipsOf (two : Bool) (g : Word) : List (BitVec 32) :=
  if two then [g.extractLsb' 0 32, g.extractLsb' 32 32] else [g.extractLsb' 0 32]

/-- A store that carries slips is a write request: to its peer, or to the hold queue of this chip. -/
theorem sendWithSlips_requests (w : State) (t : Task) (core va : Nat) (loc : Loc) (bs : List Byte)
    (slips : List (BitVec 32)) (tag : BitVec 16) : ∃ chip fctx ea use,
      Requested w (w.sendWithSlips t core va loc.place bs slips tag) (taskUnit t core)
        (Packet.carrySlips (writePkt chip fctx ea bs tag) slips) use ∧
      (∀ dst f x, loc = .peer dst f x → use = .store t.tid ∧ chip = dst) ∧
      ∀ pa place evf, loc = .phys pa place evf → use = .localHold t.tid (.phys pa) := by
  cases loc with
  | sram k o => exact ⟨_, _, _, _, requested_remoteSendVia _ _ _ _ _ _, by simp, by simp⟩
  | phys pa place evf => exact ⟨_, _, _, _, requested_remoteSendVia _ _ _ _ _ _, by simp, by simp [Loc.place]⟩
  | peer dst f x => exact ⟨_, _, _, _, requested_remoteSendVia _ _ _ _ _ _, by simp, by simp⟩

section
variable (hcur : s.cur = some c) (hme : s.me? = some t) (hon : s.enabled = true) (hvers : s.versioned = false)
  (hheld : s.rangeHeld c.core [p] 8 = false)
  (hok : s.checkOne t c.core false (eaOf (s.getG a) 0) 0 (scalarReq 8 .store) = .ok p)
include hcur hme hon hheld hok

theorem slipSlot_ok (f : State → Task → Piece → State) : s.slipSlot a f = f (s.slipBegun t c.core p) t p := by
  simp only [State.slipSlot, State.whenOn_of_enabled _ hon, hme, curCore_of hcur, hok, State.onChk, hheld, Bool.false_eq_true,
    if_false]
  rfl

include hvers

/-! ## STSLIP -/

theorem exec_stslip_here (hhere : p.loc.isHere = true) : let v := s.slipBegun t c.core p
    exec (.stslip d a b) s = .next ((v.fresh.2.putInfl
        { id := v.nextId, reg := .g d, mask := BitVec.allOnes 64, val := .word 0, ord := 0 }).issueStore t c.core
      (p.loc.place.memOp (natLe 8 (s.getG b).toNat)).toList none (some v.nextId) []) := by
  have hnoted := slipBegun_noted s t c.core p
  change execStslip d a b s = _
  rw [execStslip, slipSlot_ok hcur hme hon hheld hok]
  simp only [hnoted.versioned, hvers, hnoted.getG, hnoted.curCore, curCore_of hcur, Bool.false_eq_true, if_false]
  cases hloc : p.loc with
  | sram k o => rfl
  | phys pa place evf => rfl
  | peer chip fctx va =>
    rw [hloc] at hhere
    exact nomatch hhere

theorem stslip_here (hhere : p.loc.isHere = true) : ∃ u op x e, exec (.stslip d a b) s = .next u ∧
    (SameBytes s u ∧ SameRegs s u) ∧ p.loc.storeOp (natLe 8 (s.getG b).toNat) = some op ∧
    u.mem.stores = s.mem.stores ++ [x] ∧ x.tid = t.tid ∧ x.ops = [op] ∧ x.slipTo = some e.id ∧ Entered s u [e] ∧
    e.reg = .g d ∧ e.mask = BitVec.allOnes 64 := by
  have hbefore := beforeSend_slipBegun s t c.core p
  have hstores := (slipBegun_noted s t c.core p).stores
  have hexec := exec_stslip_here (d := d) (b := b) hcur hme hon hvers hheld hok hhere
  obtain ⟨op, hop, hops⟩ := storeOp_of_isHere hhere (natLe 8 (s.getG b).toNat)
  dsimp only at hexec
  rw [hops] at hexec
  generalize s.slipBegun t c.core p = v at hbefore hstores hexec
  have hentered := entered_putInfl v.fresh.2
    { id := v.nextId, reg := .g d, mask := BitVec.allOnes 64, val := .word 0, ord := 0 }
  obtain ⟨x, hmem, htid, hxops, hslip, htasks, hxcur⟩ := issueStore_one (v.fresh.2.putInfl
    { id := v.nextId, reg := .g d, mask := BitVec.allOnes 64, val := .word 0, ord := 0 }) t c.core op v.nextId
  refine ⟨_, op, x, _, hexec, ⟨hbefore.bytes.trans ?_, hbefore.regs.trans (sameRegs_of_tasks htasks)⟩, hop, ?_, htid, hxops,
    hslip, (hentered.of_cur hxcur).of_sameCur hbefore.cur, rfl, rfl⟩
  · exact ⟨fun a => by rw [hmem]; rfl, fun a => by rw [hmem]; rfl⟩
  · rw [hmem, ← hstores]
    rfl

/-- The packet of a store that asks for a slip. -/
def slipPkt (chip : BitVec 12) (fctx : BitVec 16) (va : Nat) (bs : List Byte) (tag : BitVec 16) (tok : BitVec 32) : Packet :=
  { writePkt chip fctx va bs tag with wantslip := true, slip0 := tok }

theorem exec_stslip_peer {chip : BitVec 12} {fctx : BitVec 16} {va n : Nat} (hloc : p.loc = .peer chip fctx va)
    (hfree : s.slipFree? (coreDie c.core) = some n) : let v := s.slipBegun t c.core p
    let w := v.fresh.2.slipTake n
    exec (.stslip d a b) s = .next ((w.remoteSend (coreDie c.core) (taskUnit t c.core) t.ctx
      (slipPkt chip fctx va (natLe 8 (s.getG b).toNat) v.tagOf (w.slipToken (slipHub n) n)) (.store t.tid)).putResult (.g d)
        (BitVec.allOnes 64) (.word ((w.slipToken (slipHub n) n).setWidth 64))) := by
  have hnoted := slipBegun_noted s t c.core p
  change execStslip d a b s = _
  rw [execStslip, slipSlot_ok hcur hme hon hheld hok]
  simp only [hnoted.versioned, hvers, hnoted.getG, hnoted.curCore, curCore_of hcur, hnoted.slipFree?, Bool.false_eq_true,
    if_false, hloc, hfree]
  rfl

theorem stslip_peer {chip : BitVec 12} {fctx : BitVec 16} {va n : Nat} (hloc : p.loc = .peer chip fctx va)
    (hfree : s.slipFree? (coreDie c.core) = some n) : ∃ u tok r, exec (.stslip d a b) s = .next u ∧
      (SameBytes s u ∧ SameRegs s u) ∧ tok = s.ownChip (slipHub n) ++ BitVec.ofNat 12 n ++ ((s.slipEntry n).count + 1) ∧
      Interlocked s u [(.g d, BitVec.allOnes 64, .word (tok.setWidth 64))] ∧
      (u.slipEntry n).phase = .pending ∧ (u.slipEntry n).count = (s.slipEntry n).count + 1 ∧
      r ∈ u.fabric.remotes ∧ r.use = .store t.tid ∧ r.pkt.op = 0x03 ∧ r.pkt.dst = chip ∧
      r.pkt.vaddr = BitVec.ofNat 57 va ∧ r.pkt.wantslip = true ∧ payloadBytes r.pkt = natLe 8 (s.getG b).toNat := by
  have hnoted := slipBegun_noted s t c.core p
  have hbefore := beforeSend_slipBegun s t c.core p
  have hchip := slipBegun_ownChip s t c.core p (slipHub n)
  have hexec := exec_stslip_peer (d := d) (b := b) hcur hme hon hvers hheld hok hloc hfree
  have hentry : (s.slipBegun t c.core p).slipEntry n = s.slipEntry n := by
    rw [State.slipEntry, State.slipEntry, hnoted.slips]
  dsimp only at hexec
  generalize s.slipBegun t c.core p = v at hbefore hchip hexec hentry
  obtain ⟨hcount, hphase⟩ := slipTake_entry v.fresh.2 n
  have htok : (v.fresh.2.slipTake n).slipToken (slipHub n) n =
      s.ownChip (slipHub n) ++ BitVec.ofNat 12 n ++ ((s.slipEntry n).count + 1) := by
    rw [State.slipToken, hcount, ← hchip, ← hentry]
    rfl
  rw [htok] at hexec
  generalize s.ownChip (slipHub n) ++ BitVec.ofNat 12 n ++ ((s.slipEntry n).count + 1) = tok at hexec
  have hreq := requested_remoteSendVia (v.fresh.2.slipTake n) ((v.fresh.2.slipTake n).handlingHub (coreDie c.core))
    (taskUnit t c.core) t.ctx (slipPkt chip fctx va (natLe 8 (s.getG b).toNat) v.tagOf tok) (.store t.tid)
  change exec (.stslip d a b) s = .next (((v.fresh.2.slipTake n).remoteSendVia _ _ _ _ _).putResult _ _ _) at hexec
  generalize (v.fresh.2.slipTake n).remoteSendVia _ _ _ _ _ = y at hexec hreq
  obtain ⟨r, hr, huse, hpkt⟩ := hreq.request
  have hslip (i : Nat) : (y.putResult (.g d) (BitVec.allOnes 64) (.word (tok.setWidth 64))).slipEntry i =
      (v.fresh.2.slipTake n).slipEntry i := by
    change y.fabric.slips.getD {} i = _
    rw [hreq.slips]
    rfl
  refine ⟨_, tok, r, hexec, ⟨hbefore.bytes.trans (sameBytes_of_mem hreq.mem), hbefore.regs.trans (sameRegs_of_tasks hreq.tasks)⟩,
    rfl, (putResult_interlocked y _ _ _).of_sameCur (hbefore.cur.of_cur hreq.cur), (congrArg _ (hslip n)).trans hphase,
    ((congrArg _ (hslip n)).trans hcount).trans (congrArg (·.count + 1) hentry), hr, huse, ?_⟩
  rw [hpkt]
  refine ⟨rfl, rfl, rfl, rfl, payloadBytes_write rfl rfl ?_ rfl ?_⟩
  · rw [natLe_length]
    rfl
  · rw [natLe_length]
    exact .inr (.inr (.inr rfl))

/-! ## STWAIT1 and STWAIT2 -/

theorem exec_stwait (two : Bool) (hown : s.ownStores t.tid = []) : let v := s.slipBegun t c.core p
    exec (if two then .stwait2 d a b else .stwait1 d a b) s = .next (v.sendWithSlips t c.core p.va p.loc.place
      (natLe 8 (s.getG b).toNat) (slipsOf two (s.getG d)) v.tagOf) := by
  have hnoted := slipBegun_noted s t c.core p
  have hown1 := (hnoted.ownStores t.tid).trans hown
  have hexec : exec (if two then .stwait2 d a b else .stwait1 d a b) s = .next (s.stwait two d a b) := by cases two <;> rfl
  rw [hexec, State.stwait, slipSlot_ok hcur hme hon hheld hok]
  simp only [hnoted.versioned, hvers, hnoted.getG, Bool.false_eq_true, if_false, onOwn_none hown1, hnoted.curCore,
    curCore_of hcur]
  rfl

theorem stwait_sends (two : Bool) (hown : s.ownStores t.tid = []) :
    ∃ u r, exec (if two then .stwait2 d a b else .stwait1 d a b) s = .next u ∧ (SameBytes s u ∧ SameRegs s u) ∧ SameCur s u ∧
      r ∈ u.fabric.remotes ∧ r.pkt.op = 0x03 ∧ payloadBytes r.pkt = natLe 8 (s.getG b).toNat ∧
      r.pkt.slipn.toNat = (if two then 2 else 1) ∧ r.pkt.slip0 = (s.getG d).extractLsb' 0 32 ∧
      (two = true → r.pkt.slip1 = (s.getG d).extractLsb' 32 32) ∧
      (∀ chip fctx va, p.loc = .peer chip fctx va → r.use = .store t.tid ∧ r.pkt.dst = chip) ∧
      ∀ pa place evf, p.loc = .phys pa place evf → r.use = .localHold t.tid (.phys pa) := by
  have hbefore := beforeSend_slipBegun s t c.core p
  have hexec := exec_stwait (d := d) (b := b) hcur hme hon hvers hheld hok two hown
  dsimp only at hexec
  generalize s.slipBegun t c.core p = v at hbefore hexec
  obtain ⟨chip, fctx, ea, use, hreq, hpeer, hphys⟩ := sendWithSlips_requests v t c.core p.va p.loc (natLe 8 (s.getG b).toNat)
    (slipsOf two (s.getG d)) v.tagOf
  obtain ⟨r, hr, huse, hpkt⟩ := hreq.request
  refine ⟨_, r, hexec, ⟨hbefore.bytes.trans (sameBytes_of_mem hreq.mem), hbefore.regs.trans (sameRegs_of_tasks hreq.tasks)⟩,
    hbefore.cur.of_cur hreq.cur, hr, ?_⟩
  rw [hpkt, huse]
  refine ⟨rfl, payloadBytes_write rfl rfl ?_ rfl ?_, ?_, ?_, ?_, hpeer, hphys⟩
  · rw [natLe_length]
    rfl
  · rw [natLe_length]
    exact .inr (.inr (.inr rfl))
  · cases two <;> rfl
  · cases two <;> rfl
  · rintro rfl
    rfl

end

theorem slipStoreResults : Claim.SlipStoreResults := by
  intro s c t d a b p hcur hme hon hvers hheld hok
  exact ⟨stslip_here hcur hme hon hvers hheld hok, fun chip fctx va n => stslip_peer hcur hme hon hvers hheld hok,
    fun two => stwait_sends hcur hme hon hvers hheld hok two⟩

end

/-- Settles O43: a slip store takes an entry or carries its slips, and an access to a peer's page leaves as a request. -/
theorem slipAndRemoteIssue : Obligations.SlipAndRemoteIssue :=
  ⟨slipStoreResults, remoteIssueResults⟩

end Sys2Proof.Machine
end

section
/-! PROOF. The ends of waits: what they leave of the tasks, the bells, the contexts and memory (04 R107; 07 R189; 14 R376). -/

namespace Sys2Proof.Machine

open Sys2Proof

/-- A task keeps its registers, its trap state and its bells; its wait stands, or it has ended. -/
structure Task.WaitEnds (t x : Task) : Prop where
  tid : x.tid = t.tid
  regs : x.r = t.r
  trap : x.trap = t.trap
  bells : x.bells = t.bells
  wait : x.wait = t.wait ∨ x.wait = none

/-- Waits have ended: the counts of contexts, the cores and the tasks' waits may have changed, and all the rest stands. -/
structure WaitsEnd (s u : State) : Prop where
  shape : ∃ ctxs cores tasks, u = { s with
    host := { s.host with ctxs := ctxs }, cores := { s.cores with cores := cores }, tasks := tasks }
  ctx : ∀ n, ∃ hot, u.ctx n = { s.ctx n with hot := hot }
  tasks : ∃ f : Task → Task, u.tasks = s.tasks.map f ∧ ∀ t, Task.WaitEnds t (f t)

section
variable {s u v : State}

theorem Task.WaitEnds.refl (t : Task) : t.WaitEnds t := ⟨rfl, rfl, rfl, rfl, .inl rfl⟩

theorem Task.WaitEnds.trans {t x y : Task} (h : t.WaitEnds x) (k : x.WaitEnds y) : t.WaitEnds y where
  tid := k.tid.trans h.tid
  regs := k.regs.trans h.regs
  trap := k.trap.trans h.trap
  bells := k.bells.trans h.bells
  wait := k.wait.elim (fun hk => h.wait.imp hk.trans hk.trans) .inr

theorem WaitsEnd.refl (s : State) : WaitsEnd s s :=
  ⟨⟨_, _, _, rfl⟩, fun _ => ⟨_, rfl⟩, id, (List.map_id _).symm, Task.WaitEnds.refl⟩

theorem WaitsEnd.trans (h : WaitsEnd s u) (k : WaitsEnd u v) : WaitsEnd s v where
  shape := by
    obtain ⟨_, _, _, rfl⟩ := h.shape
    obtain ⟨_, _, _, rfl⟩ := k.shape
    exact ⟨_, _, _, rfl⟩
  ctx n := by
    obtain ⟨_, h⟩ := h.ctx n
    obtain ⟨hot, k⟩ := k.ctx n
    exact ⟨hot, by rw [k, h]⟩
  tasks := by
    obtain ⟨f, hf, hkept⟩ := h.tasks
    obtain ⟨g, hg, kkept⟩ := k.tasks
    exact ⟨g ∘ f, by rw [hg, hf, List.map_map], fun t => (hkept t).trans (kkept (f t))⟩

theorem WaitsEnd.mem (h : WaitsEnd s u) : u.mem = s.mem := by obtain ⟨_, _, _, rfl⟩ := h.shape; rfl
theorem WaitsEnd.cur (h : WaitsEnd s u) : u.cur = s.cur := by obtain ⟨_, _, _, rfl⟩ := h.shape; rfl
theorem WaitsEnd.bell (h : WaitsEnd s u) (k : Nat) : u.bell k = s.bell k := by obtain ⟨_, _, _, rfl⟩ := h.shape; rfl
theorem WaitsEnd.dcond (h : WaitsEnd s u) (n : Nat) : (u.ctx n).dcond = (s.ctx n).dcond := by
  obtain ⟨_, h⟩ := h.ctx n
  rw [h]

theorem WaitsEnd.regs (h : WaitsEnd s u) : SameRegs s u := by
  obtain ⟨f, hf, hkept⟩ := h.tasks
  rw [SameRegs, hf, List.map_map]
  refine List.map_congr_left fun t _ => ?_
  obtain ⟨htid, hr, htrap, _, _⟩ := hkept t
  rw [Function.comp_apply, htid, hr, htrap]

/-- The task of a TID is found again, with its bells. -/
theorem WaitsEnd.task? (h : WaitsEnd s u) {w : Word} {t : Task} (ht : s.task? w = some t) :
    ∃ x, u.task? w = some x ∧ t.WaitEnds x := by
  obtain ⟨f, hf, hkept⟩ := h.tasks
  have hpred : ((fun x : Task => x.tid == w) ∘ f) = fun x => x.tid == w := funext fun x => by
    rw [Function.comp_apply, (hkept x).tid]
  exact ⟨f t, by rw [State.task?, hf, List.find?_map, hpred, ← State.task?, ht]; rfl, hkept t⟩

theorem waitsEnd_modTask (s : State) (w : Word) {f : Task → Task} (hf : ∀ t, Task.WaitEnds t (f t)) : WaitsEnd s (s.modTask w f) :=
  ⟨⟨_, _, _, rfl⟩, fun _ => ⟨_, rfl⟩, _, rfl, fun t => by
    split
    · exact hf t
    · exact Task.WaitEnds.refl t⟩

theorem waitsEnd_modCore (s : State) (c : Nat) (f : CoreSt → CoreSt) : WaitsEnd s (s.modCore c f) :=
  ⟨⟨_, _, _, rfl⟩, fun _ => ⟨_, rfl⟩, id, (List.map_id _).symm, Task.WaitEnds.refl⟩

theorem waitsEnd_acquireBy (s : State) (w : Word) (core : Nat) (sc : Scope) : WaitsEnd s (s.acquireBy w core sc) := by
  have hclock := (waitsEnd_modCore s core fun c => { c with l1 := [] }).trans (waitsEnd_modTask _ w
    (f := fun t => { t with clock := joinClock t.clock (s.clocks.heardClock (coreDie core)) })
    fun t => ⟨rfl, rfl, rfl, rfl, .inl rfl⟩)
  cases sc with
  | seq | core => exact WaitsEnd.refl s
  | cluster | die => exact waitsEnd_modCore s core _
  | pkg | fabric => exact hclock

theorem waitsEnd_countHeldLoad (s : State) (t : Task) : WaitsEnd s (s.countHeldLoad t) := by
  unfold State.countHeldLoad
  split
  · refine ⟨⟨_, _, _, rfl⟩, fun n => ?_, id, (List.map_id _).symm, Task.WaitEnds.refl⟩
    by_cases h : n = t.ctx
    · subst h
      exact ⟨_, State.ctx_modCtx_same _ _ _⟩
    · exact ⟨_, State.ctx_modCtx_other _ _ h⟩
  · exact WaitsEnd.refl s

theorem waitsEnd_wake (s : State) (w : Word) : WaitsEnd s (s.wake w) ∧
    ∀ x ∈ (s.wake w).tasks, x.tid = w → s.task? w ≠ none → x.wait = none := by
  cases ht : s.task? w with
  | none =>
    have hwake : s.wake w = s := by simp only [State.wake, ht]
    rw [hwake]
    exact ⟨WaitsEnd.refl s, fun _ _ _ h => absurd rfl h⟩
  | some t =>
    let s1 := (s.countHeldLoad t).modTask w fun t => { t with wait := none, heldLoad := none }
    have h1 : WaitsEnd s s1 := (waitsEnd_countHeldLoad s t).trans
      (waitsEnd_modTask _ w fun t => ⟨rfl, rfl, rfl, rfl, .inr rfl⟩)
    have hnone : ∀ x ∈ s1.tasks, x.tid = w → x.wait = none := by
      intro x hx hxw
      obtain ⟨y, _, rfl⟩ := List.mem_map.1 hx
      split at hxw <;> simp_all
    have after {z : State} (h : WaitsEnd s1 z) : WaitsEnd s z ∧ ∀ x ∈ z.tasks, x.tid = w → some t ≠ none → x.wait = none := by
      refine ⟨h1.trans h, fun x hx hxw _ => ?_⟩
      obtain ⟨f, hf, hkept⟩ := h.tasks
      rw [hf] at hx
      obtain ⟨y, hy, rfl⟩ := List.mem_map.1 hx
      have hyw := hnone y hy ((hkept y).tid.symm.trans hxw)
      exact (hkept y).wait.elim (fun h => h.trans hyw) id
    have hjoin : WaitsEnd s1 (s1.modTask w fun t => t.joinBind s.cycle) :=
      waitsEnd_modTask s1 w fun t => ⟨rfl, rfl, rfl, rfl, .inl rfl⟩
    simp only [State.wake, ht]
    split
    · split
      · exact after (waitsEnd_modCore s1 _ _)
      · exact after (WaitsEnd.refl s1)
    · split
      · exact after (WaitsEnd.refl s1)
      · exact after hjoin
    · split
      · exact after (WaitsEnd.refl s1)
      · unfold State.holdTiles
        split
        · exact after hjoin
        · exact after (hjoin.trans (waitsEnd_modCore _ _ _))
    · exact after (WaitsEnd.refl s1)

/-! ## The waits at a bell (14 R376) -/

/-- One task whose wait at a bell has come to its end is woken, with an acquire at the bell's scope where one is due. -/
def State.bellWakeOne (key : Nat) (acquire : Bool) (p : BitVec 32 → Bool) (s : State) (t : Task) : State :=
  match t.wait with
  | some (.bell k gen) =>
    if k = key ∧ p gen = true then
      let s1 := if acquire then s.acquireBy t.tid (Task.onCore t) (bellScope key) else s
      s1.wake t.tid
    else s
  | _ => s

theorem bellWake_eq (s : State) (key : Nat) (acquire : Bool) (p : BitVec 32 → Bool) :
    s.bellWake key acquire p = s.tasks.foldl (State.bellWakeOne key acquire p) s := rfl

theorem waitsEnd_bellWakeOne (key : Nat) (acquire : Bool) (p : BitVec 32 → Bool) (s : State) (t : Task) :
    WaitsEnd s (s.bellWakeOne key acquire p t) := by
  unfold State.bellWakeOne
  split
  · split
    · dsimp only
      refine WaitsEnd.trans ?_ (waitsEnd_wake _ _).1
      split
      · exact waitsEnd_acquireBy _ _ _ _
      · exact WaitsEnd.refl s
    · exact WaitsEnd.refl s
  · exact WaitsEnd.refl s

/-- Every wait at the bell that the test takes has ended. -/
theorem bellWakeOne_ends {key : Nat} {p : BitVec 32 → Bool} {gen : BitVec 32} {t : Task} (acquire : Bool)
    (ht : s.task? t.tid ≠ none) (hwait : t.wait = some (.bell key gen)) (hp : p gen = true) :
    ∀ x ∈ (s.bellWakeOne key acquire p t).tasks, x.tid = t.tid → x.wait = none := by
  intro x hx hxt
  simp only [State.bellWakeOne, hwait, hp, and_self, if_true] at hx
  obtain ⟨y, hy⟩ := Option.ne_none_iff_exists'.1 ht
  refine (waitsEnd_wake _ t.tid).2 x hx hxt ?_
  split
  · obtain ⟨z, hz, _⟩ := (waitsEnd_acquireBy s t.tid (Task.onCore t) (bellScope key)).task? hy
    rw [hz]
    exact Option.some_ne_none z
  · exact ht

theorem bellWake_fold {key : Nat} {p : BitVec 32 → Bool} (acquire : Bool) (l : List Task) (s : State)
    (hl : ∀ t ∈ l, s.task? t.tid ≠ none) : WaitsEnd s (l.foldl (State.bellWakeOne key acquire p) s) ∧
      ∀ t ∈ l, ∀ gen, t.wait = some (.bell key gen) → p gen = true →
        ∀ x ∈ (l.foldl (State.bellWakeOne key acquire p) s).tasks, x.tid = t.tid → x.wait = none := by
  induction l generalizing s with
  | nil => exact ⟨WaitsEnd.refl s, fun t ht => nomatch ht⟩
  | cons a l ih =>
    have hone := waitsEnd_bellWakeOne key acquire p s a
    have hfound : ∀ t ∈ l, (s.bellWakeOne key acquire p a).task? t.tid ≠ none := fun t ht => by
      obtain ⟨y, hy⟩ := Option.ne_none_iff_exists'.1 (hl t (List.mem_cons_of_mem _ ht))
      obtain ⟨z, hz, _⟩ := hone.task? hy
      rw [hz]
      exact Option.some_ne_none z
    obtain ⟨hrest, hends⟩ := ih (s.bellWakeOne key acquire p a) hfound
    refine ⟨hone.trans hrest, fun t ht gen hwait hp x hx hxt => ?_⟩
    rcases List.mem_cons.1 ht with rfl | ht
    · obtain ⟨f, hf, hkept⟩ := hrest.tasks
      rw [List.foldl_cons, hf] at hx
      obtain ⟨y, hy, rfl⟩ := List.mem_map.1 hx
      have hy := bellWakeOne_ends acquire (hl t (List.mem_cons_self ..)) hwait hp y hy ((hkept y).tid.symm.trans hxt)
      exact (hkept y).wait.elim (fun h => h.trans hy) id
    · exact hends t ht gen hwait hp x hx hxt

theorem waitsEnd_bellWake (s : State) (key : Nat) (acquire : Bool) (p : BitVec 32 → Bool) :
    WaitsEnd s (s.bellWake key acquire p) ∧
      ∀ gen, p gen = true → ∀ x ∈ (s.bellWake key acquire p).tasks, x.wait ≠ some (.bell key gen) := by
  have hfound : ∀ t ∈ s.tasks, s.task? t.tid ≠ none := fun t ht hnone =>
    List.find?_eq_none.1 hnone t ht (beq_self_eq_true _)
  obtain ⟨hend, hends⟩ := bellWake_fold (key := key) (p := p) acquire s.tasks s hfound
  rw [bellWake_eq]
  refine ⟨hend, fun gen hp x hx hwait => ?_⟩
  obtain ⟨f, hf, hkept⟩ := hend.tasks
  have hx' := hx
  rw [hf] at hx'
  obtain ⟨y, hy, rfl⟩ := List.mem_map.1 hx'
  rcases (hkept y).wait with h | h
  · have := hends y hy gen (h.symm.trans hwait) hp (f y) hx (hkept y).tid
    exact nomatch this.symm.trans hwait
  · exact nomatch h.symm.trans hwait

end

end Sys2Proof.Machine
end

section
/-! PROOF. Bells (14 R375 to R377): what setting a bell, the end of a generation and an arrival leave; and what a release
leaves, once its task has no store of its own. -/

namespace Sys2Proof.Machine

open Sys2Proof

section
variable {s u v : State}

/-! ## Bells that are set (14 R374, R375) -/

@[simp] theorem bell_setBell_same (s : State) (key : Nat) (b : Bell) : (s.setBell key b).bell key = b :=
  Tbl.getD_put_same _ _ _ _

theorem bell_setBell_other {key k : Nat} (s : State) (b : Bell) (h : k ≠ key) : (s.setBell key b).bell k = s.bell k :=
  Tbl.getD_put_other _ _ _ h

/-- Memory, the registers and every other bell stand. -/
structure BellQuiet (s u : State) (key : Nat) : Prop where
  bytes : SameBytes s u
  regs : SameRegs s u
  others : ∀ k, k ≠ key → u.bell k = s.bell k

theorem BellQuiet.and (h : BellQuiet s u key) : SameBytes s u ∧ SameRegs s u ∧ ∀ k, k ≠ key → u.bell k = s.bell k :=
  ⟨h.bytes, h.regs, h.others⟩

theorem BellQuiet.trans {key : Nat} (h : BellQuiet s u key) (k : BellQuiet u v key) : BellQuiet s v key :=
  ⟨h.bytes.trans k.bytes, h.regs.trans k.regs, fun n hn => (k.others n hn).trans (h.others n hn)⟩

theorem WaitsEnd.bellQuiet (h : WaitsEnd s u) (key : Nat) : BellQuiet s u key :=
  ⟨sameBytes_of_mem h.mem, h.regs, fun n _ => h.bell n⟩

theorem bellQuiet_setBell (s : State) (key : Nat) (b : Bell) : BellQuiet s (s.setBell key b) key :=
  ⟨sameBytes_of_mem rfl, sameRegs_of_tasks rfl, fun _ h => bell_setBell_other s b h⟩

/-- A bell takes no membership, or one: a bell without members lets its waits end. -/
theorem bellSet_quiet (s : State) (key : Nat) (m : BitVec 32) (b : Bell) :
    let u := if m = 0 then (s.setBell key b).bellWake key false fun _ => true else s.setBell key b
    u.cur = s.cur ∧ BellQuiet s u key ∧ u.bell key = b := by
  dsimp only
  split
  · have hend := (waitsEnd_bellWake (s.setBell key b) key false fun _ => true).1
    exact ⟨hend.cur, (bellQuiet_setBell s key b).trans (hend.bellQuiet key), (hend.bell key).trans (bell_setBell_same s key b)⟩
  · exact ⟨rfl, bellQuiet_setBell s key b, bell_setBell_same s key b⟩

/-! ## The end of a generation (14 R376; 03 R89) -/

theorem bellKey_fields (g core : Nat) : bellLevel (bellKey g core) = bellLevel g ∧ bellNumber (bellKey g core) = bellNumber g := by
  unfold bellKey bellLevel bellNumber
  dsimp only
  split
  · split
    · omega
    · split <;> omega
  · exact ⟨rfl, rfl⟩

/-- The number of a package bell is below 32 (14 R373). -/
theorem bellNumber_of_package {g core : Nat} (hg : bellBad g = false) (h : bellLevel (bellKey g core) = 2) :
    bellNumber (bellKey g core) < 32 := by
  rw [(bellKey_fields g core).1] at h
  rw [(bellKey_fields g core).2]
  simp only [bellBad, h, Bool.or_eq_false_iff] at hg
  obtain ⟨⟨⟨⟨_, hnumber⟩, _⟩, _⟩, _⟩ := hg
  simpa using hnumber

theorem genLater_succ (g : BitVec 32) : genLater (g + 1) g = true := by
  have h : g + 1 - g = 1 := by rw [BitVec.add_comm, BitVec.add_sub_cancel]
  rw [genLater, h]
  rfl

theorem pkgBellRang_quiet (s : State) (owner : Option Nat) (number key : Nat) : BellQuiet s (s.pkgBellRang owner number) key ∧
    (s.pkgBellRang owner number).cur = s.cur ∧ (s.pkgBellRang owner number).tasks = s.tasks ∧
    (s.pkgBellRang owner number).bell key = s.bell key := by
  cases owner <;> exact ⟨⟨sameBytes_of_mem rfl, sameRegs_of_tasks rfl, fun _ _ => rfl⟩, rfl, rfl, rfl⟩

/-- DCOND of the owner takes the bell's bit. -/
theorem pkgBellRang_dcond (s : State) (n : Nat) {number : Nat} (h : number < 64) :
    ((s.pkgBellRang (some n) number).ctx n).dcond.getLsbD number = true := by
  let c : Ctx := { s.ctx n with dcond := (s.ctx n).dcond ||| (1#64 <<< number) }
  let f (_ : Nat) (c : Ctx) : Ctx := { c with iv := c.iv.map fun (j, w) =>
    (j, if w.arm && w.bellv && w.bell.toNat == number then { w with interval := w.interval + 1 } else w) }
  have hctx : (s.pkgBellRang (some n) number).ctx n = f n c := by
    change ((Tbl.find? (((s.host.ctxs.put n c)).map fun x => (x.1, f x.1 x.2)) n).getD {}) = _
    rw [Tbl.find?_map, Tbl.find?_put_same]
    rfl
  rw [hctx]
  simp [f, c, h]

/-- The bell of a new generation. -/
def Bell.next (b : Bell) : Bell := { b with gen := b.gen + 1, arr := 0, isOpen := false, arrivers := [] }

/-- The last arrival: the bell begins its next generation, every wait for the one that ended is over, and the owner of a
package bell has its condition. -/
theorem bellArrive_completes {key n : Nat} {b : Bell} (h : b.arr = b.memb) (howner : b.owner = some n) :
    (s.bellArrive key b).cur = s.cur ∧ BellQuiet s (s.bellArrive key b) key ∧ (s.bellArrive key b).bell key = b.next ∧
      (∀ w t, s.task? w = some t → ∃ x, (s.bellArrive key b).task? w = some x ∧ x.bells = t.bells) ∧
      (∀ x ∈ (s.bellArrive key b).tasks, x.wait ≠ some (.bell key b.gen)) ∧
      (bellLevel key = 2 → bellNumber key < 64 → ((s.bellArrive key b).ctx n).dcond.getLsbD (bellNumber key) = true) := by
  let rung : State := if bellLevel key = 2 then (s.setBell key b.next).pkgBellRang b.owner (bellNumber key)
    else s.setBell key b.next
  have harrive : s.bellArrive key b = rung.bellWake key true fun gen => genLater b.next.gen gen := if_pos h
  have hrung : rung.cur = s.cur ∧ BellQuiet s rung key ∧ rung.bell key = b.next ∧ rung.tasks = s.tasks := by
    have hset := bellQuiet_setBell s key b.next
    have hbell := bell_setBell_same s key b.next
    obtain ⟨hquiet, hcur, htasks, hkept⟩ := pkgBellRang_quiet (s.setBell key b.next) b.owner (bellNumber key) key
    by_cases h2 : bellLevel key = 2
    · rw [show rung = (s.setBell key b.next).pkgBellRang b.owner (bellNumber key) from if_pos h2]
      exact ⟨hcur, hset.trans hquiet, hkept.trans hbell, htasks⟩
    · rw [show rung = s.setBell key b.next from if_neg h2]
      exact ⟨rfl, hset, hbell, rfl⟩
  obtain ⟨hcur, hquiet, hbell, htasks⟩ := hrung
  obtain ⟨hend, hends⟩ := waitsEnd_bellWake rung key true fun gen => genLater b.next.gen gen
  rw [harrive]
  refine ⟨hend.cur.trans hcur, hquiet.trans (hend.bellQuiet key), (hend.bell key).trans hbell, fun w t ht => ?_,
    hends b.gen (genLater_succ b.gen), fun h2 hn => ?_⟩
  · obtain ⟨x, hx, hkept⟩ := hend.task? ((task?_of_tasks htasks w).trans ht)
    exact ⟨x, hx, hkept.bells⟩
  · rw [hend.dcond, show rung = (s.setBell key b.next).pkgBellRang b.owner (bellNumber key) from if_pos h2, howner]
    exact pkgBellRang_dcond _ n hn

/-- An arrival that is counted: the bell is open, with one arrival more. -/
def Bell.arrived (b : Bell) (key : Nat) (tid : Word) (bit : BitVec 32) : Bell :=
  { b with isOpen := true, arrivers := tidLnum tid :: b.arrivers.filter (· != tidLnum tid)
           arr := if bellLevel key = 0 then b.arr ||| bit else b.arr + 1 }

theorem bellCount_arrives {key : Nat} {tid : Word} {bit : BitVec 32} {n : Nat} (howner : (s.bell key).owner = some n)
    (hbit : bellLevel key = 0 → (s.bell key).arr &&& bit = 0) :
    s.bellCount key tid bit = s.bellArrive key ((s.bell key).arrived key tid bit) := by
  have hcounts : ¬((s.bell key).owner.isNone = true ∨ (bellLevel key = 0 ∧ (s.bell key).arr &&& bit ≠ 0)) := by
    rintro (h | ⟨h0, h⟩)
    · rw [howner] at h
      exact nomatch h
    · exact h (hbit h0)
  simp only [State.bellCount]
  rw [if_neg hcounts]
  rfl

/-! ## A release (07 R189) -/

/-- A release of a task that has no store of its own left counts itself at most. -/
theorem releaseBy_shape {tid : Word} (core : Nat) (sc : Scope) (h : s.ownStores tid = []) : ∃ counts unsettled due,
    s.releaseBy tid core sc =
      { s with clocks := { s.clocks with counts := counts, unsettled := unsettled }, due := due } := by
  unfold State.releaseBy
  rw [flushStores_none h]
  cases sc <;> exact ⟨_, _, _, rfl⟩

/-- A message that waits: for its die, to be applied there, and its event is due. -/
theorem sendStamped_waits (s : State) (t : Task) (core die : Nat) (act : StampAct) : ∃ m n,
    (s.sendStamped t core die act).clocks.waiting = s.clocks.waiting ++ [m] ∧ m.die = die ∧ m.act = act ∧
      (n, .stampedMessageApply, .num m.id) ∈ (s.sendStamped t core die act).due :=
  ⟨_, _, rfl, rfl, rfl, mem_insertDue.2 (.inl rfl)⟩

end

end Sys2Proof.Machine
end

section
/-! PROOF. O42: BELLM, BELLA and BELLW (14 R375 to R377; 03 R89; 07 R189). -/

namespace Sys2Proof.Machine

open Sys2Proof

theorem exec_bellm (a b : Reg) (s : State) : exec (.bellm a b) s = execBellm a b s := rfl
theorem exec_bella (a : Reg) (s : State) : exec (.bella a) s = execBella a s := rfl
theorem exec_bellw (a : Reg) (s : State) : exec (.bellw a) s = execBellw a s := rfl

/-- The task may arrive at the bell with this key, and wait at it (14 R376). -/
structure State.BellMine (s : State) (t : Task) (g core : Nat) : Prop where
  good : bellBad g = false
  covers : bellCovers (bellKey g core) core = true
  owner : (s.bell (bellKey g core)).owner = some t.ctx
  member : bellLevel (bellKey g core) = 0 → (s.bell (bellKey g core)).memb &&& bellBit core (t.sq.getD 0) ≠ 0

/-- The generation that a wait of the task at a bell is for: the one it has noted last, or the bell's (14 R377, R378). -/
def Task.bellGen (t : Task) (key : Nat) (gen : BitVec 32) : BitVec 32 :=
  match t.bells.find? (·.1 == key) with
  | some r => r.2
  | none => gen

section
variable {s : State} {c : Cur} {t : Task} {a b : Reg}

theorem bellFor_mine {w : Word} (hcur : s.cur = some c) (h : s.BellMine t w.toNat c.core) :
    s.bellFor t w = some (bellKey w.toNat c.core, s.bell (bellKey w.toNat c.core)) := by
  obtain ⟨hgood, hcovers, howner, hmember⟩ := h
  have hmay : (bellLevel (bellKey w.toNat c.core) != 0 ||
      (s.bell (bellKey w.toNat c.core)).memb &&& bellBit c.core (t.sq.getD 0) != 0) = true := by
    by_cases h0 : bellLevel (bellKey w.toNat c.core) = 0
    · simpa [h0] using hmember h0
    · simp [h0]
  simp only [State.bellFor, hgood, Bool.false_eq_true, if_false, curCore_of hcur, howner, hcovers, hmay, beq_self_eq_true,
    Bool.and_self, if_true]

theorem bellFor_none {w : Word} (hcur : s.cur = some c) (h : ¬s.BellMine t w.toNat c.core) : s.bellFor t w = none := by
  unfold State.bellFor
  rw [curCore_of hcur]
  split
  · rfl
  · next hgood =>
    refine if_neg fun hmay => h ?_
    simp only [Bool.and_eq_true, beq_iff_eq, Bool.or_eq_true, bne_iff_ne] at hmay
    obtain ⟨⟨howner, hcovers⟩, hmember⟩ := hmay
    exact ⟨Bool.eq_false_iff.2 hgood, hcovers, howner, fun h0 => hmember.resolve_left (not_not_intro h0)⟩

section
variable (hcur : s.cur = some c) (hme : s.me? = some t) (hon : s.enabled = true)
include hcur hme hon

theorem exec_bellm_free {key : Nat} (hkey : key = bellKey (s.getG a).toNat c.core) (hgood : bellBad (s.getG a).toNat = false)
    (hcovers : bellCovers key c.core = true) (hclosed : (s.bell key).isOpen = false)
    (howner : (s.bell key).owner = none ∨ (s.bell key).owner = some t.ctx) :
    let m : BitVec 32 := if bellLevel key = 0 then (s.getG b).setWidth 32 else ((s.getG b).setWidth 16).setWidth 32
    let x : Bell := { s.bell key with memb := m, arr := 0, arrivers := [], owner := if m = 0 then none else some t.ctx }
    exec (.bellm a b) s = .next (if m = 0 then (s.setBell key x).bellWake key false fun _ => true else s.setBell key x) := by
  subst hkey
  have hfree : ((s.bell (bellKey (s.getG a).toNat c.core)).owner.isSome &&
      (s.bell (bellKey (s.getG a).toNat c.core)).owner != some t.ctx) = false := by
    rcases howner with h | h <;> rw [h] <;> simp
  rw [exec_bellm, execBellm, State.whenOn_of_enabled _ hon]
  simp only [hme, curCore_of hcur, hgood, hcovers, hclosed, hfree, Bool.not_true, Bool.or_self, Bool.false_eq_true, if_false]

theorem exec_bellm_busy {key : Nat} (hkey : key = bellKey (s.getG a).toNat c.core) (hbusy : bellBad (s.getG a).toNat = true ∨
    bellCovers key c.core = false ∨ (s.bell key).isOpen = true ∨ ∃ n, (s.bell key).owner = some n ∧ n ≠ t.ctx) :
    exec (.bellm a b) s = .next (s.raise 0x0113 0 (s.getG a).toNat) := by
  subst hkey
  have hbusy : (bellBad (s.getG a).toNat || !bellCovers (bellKey (s.getG a).toNat c.core) c.core ||
      (s.bell (bellKey (s.getG a).toNat c.core)).isOpen || ((s.bell (bellKey (s.getG a).toNat c.core)).owner.isSome &&
      (s.bell (bellKey (s.getG a).toNat c.core)).owner != some t.ctx)) = true := by
    rcases hbusy with h | h | h | ⟨n, h, hne⟩
    · simp [h]
    · simp [h]
    · simp [h]
    · simp [h, hne]
  rw [exec_bellm, execBellm, State.whenOn_of_enabled _ hon]
  simp only [hme, curCore_of hcur]
  rw [if_pos hbusy]
  rfl

theorem exec_bell_not_mine (h : ¬s.BellMine t (s.getG a).toNat c.core) :
    exec (.bella a) s = .next s ∧ exec (.bellw a) s = .next s := by
  have hnone := bellFor_none hcur h
  constructor
  · rw [exec_bella, execBella, State.whenOn_of_enabled _ hon]
    simp only [hme, hnone]
  · rw [exec_bellw, execBellw, State.whenOn_of_enabled _ hon]
    simp only [hme, hnone]

/-- The state in which an arrival leaves: the release is counted, and the task has noted the bell and its generation. -/
def State.bellBegun (s : State) (t : Task) (core key : Nat) : State :=
  (s.releaseBy t.tid core (bellScope key)).modTask t.tid fun x => Task.recordBell x key (s.bell key).gen

omit hcur hme hon in
theorem bellBegun_kept {key core : Nat} (hown : s.ownStores t.tid = []) (ht : s.task? t.tid = some t) :
    (s.bellBegun t core key).cur = s.cur ∧ BellQuiet s (s.bellBegun t core key) key ∧
      (s.bellBegun t core key).bell key = s.bell key ∧
      (s.bellBegun t core key).task? t.tid = some (Task.recordBell t key (s.bell key).gen) ∧
      (s.bellBegun t core key).clocks.waiting = s.clocks.waiting := by
  obtain ⟨_, _, _, hshape⟩ := releaseBy_shape core (bellScope key) hown
  unfold State.bellBegun
  rw [hshape]
  exact ⟨rfl, ⟨sameBytes_of_mem rfl, modTask_sameRegs (s := { s with clocks := _, due := _ }) fun _ => ⟨rfl, rfl, rfl⟩,
    fun _ _ => rfl⟩, rfl, task?_modTask_same (s := { s with clocks := _, due := _ }) ht fun _ => rfl, rfl⟩

theorem exec_bella_mine {key : Nat} (hkey : key = bellKey (s.getG a).toNat c.core) (h : s.BellMine t (s.getG a).toNat c.core)
    (hbit : bellLevel key = 0 → (s.bell key).arr &&& bellBit c.core (t.sq.getD 0) = 0) :
    exec (.bella a) s = .next (if (s.releaseBy t.tid c.core (bellScope key)).messageWaits t c.core (s.bellHome key) then
        (s.bellBegun t c.core key).sendStamped t c.core (s.bellHome key) (.bell key t.tid (bellBit c.core (t.sq.getD 0)))
      else (s.bellBegun t c.core key).bellCount key t.tid (bellBit c.core (t.sq.getD 0))) := by
  subst hkey
  have hcounts : ¬(bellLevel (bellKey (s.getG a).toNat c.core) = 0 ∧
      (s.bell (bellKey (s.getG a).toNat c.core)).arr &&& bellBit c.core (t.sq.getD 0) ≠ 0) := fun h => h.2 (hbit h.1)
  rw [exec_bella, execBella, State.whenOn_of_enabled _ hon]
  simp only [hme, bellFor_mine hcur h, curCore_of hcur]
  rw [if_neg hcounts]
  rfl

/-- BELLA of a member: by a message that waits, or at once. -/
theorem bella_arrives {key : Nat} (hkey : key = bellKey (s.getG a).toNat c.core) (h : s.BellMine t (s.getG a).toNat c.core)
    (hown : s.ownStores t.tid = [])
    (hbit : bellLevel key = 0 → (s.bell key).arr &&& bellBit c.core (t.sq.getD 0) = 0) :
    let later := (s.releaseBy t.tid c.core (bellScope key)).messageWaits t c.core (s.bellHome key)
    let bit := bellBit c.core (t.sq.getD 0)
    let arr := if bellLevel key = 0 then (s.bell key).arr ||| bit else (s.bell key).arr + 1
    ∃ u, exec (.bella a) s = .next u ∧ u.cur = s.cur ∧ BellQuiet s u key ∧
      (∃ x, u.task? t.tid = some x ∧ x.bells.head? = some (key, (s.bell key).gen)) ∧
      (later = true → u.bell key = s.bell key ∧ ∃ m n, u.clocks.waiting = s.clocks.waiting ++ [m] ∧
        m.die = s.bellHome key ∧ m.act = .bell key t.tid bit ∧ (n, .stampedMessageApply, .num m.id) ∈ u.due) ∧
      (later = false → arr ≠ (s.bell key).memb →
        (u.bell key).arr = arr ∧ (u.bell key).gen = (s.bell key).gen ∧ (u.bell key).isOpen = true) ∧
      (later = false → arr = (s.bell key).memb →
        (u.bell key).arr = 0 ∧ (u.bell key).gen = (s.bell key).gen + 1 ∧ (u.bell key).isOpen = false ∧
        (∀ x ∈ u.tasks, x.wait ≠ some (.bell key (s.bell key).gen)) ∧
        (bellLevel key = 2 → (u.ctx t.ctx).dcond.getLsbD (bellNumber key) = true)) := by
  intro later bit arr
  have ht : s.task? t.tid = some t := by
    rw [State.me?, hcur] at hme
    rwa [task?_tid hme]
  have hexec := exec_bella_mine hcur hme hon hkey h hbit
  obtain ⟨hbcur, hquiet, hbell, htask, hwaiting⟩ := bellBegun_kept (key := key) (core := c.core) hown ht
  have howner : ((s.bellBegun t c.core key).bell key).owner = some t.ctx := by rw [hbell, hkey]; exact h.owner
  generalize s.bellBegun t c.core key = v at hexec hbcur hquiet hbell htask hwaiting howner
  have hhead : (Task.recordBell t key (s.bell key).gen).bells.head? = some (key, (s.bell key).gen) := rfl
  by_cases hlater : later = true
  · obtain ⟨m, n, hsent, hdie, hact, hdue⟩ := sendStamped_waits v t c.core (s.bellHome key) (.bell key t.tid bit)
    rw [hwaiting] at hsent
    refine ⟨_, hexec.trans (congrArg _ (if_pos hlater)), hbcur, ⟨hquiet.bytes, hquiet.regs, hquiet.others⟩, ⟨_, htask, hhead⟩,
      fun _ => ⟨hbell, m, n, hsent, hdie, hact, hdue⟩, fun hno => ?_, fun hno => ?_⟩
    · exact absurd hlater (Bool.eq_false_iff.1 hno)
    · exact absurd hlater (Bool.eq_false_iff.1 hno)
  · rw [if_neg hlater, bellCount_arrives howner (by rw [hbell]; exact hbit), hbell] at hexec
    let x := (s.bell key).arrived key t.tid bit
    by_cases hlast : arr = (s.bell key).memb
    · obtain ⟨hucur, huquiet, hubell, hutask, hends, hdcond⟩ := bellArrive_completes (s := v) (key := key) (b := x)
        (n := t.ctx) hlast (by rw [hbell] at howner; exact howner)
      obtain ⟨y, hy, hybells⟩ := hutask _ _ htask
      refine ⟨_, hexec, hucur.trans hbcur, hquiet.trans huquiet, ⟨y, hy, by rw [hybells]; exact hhead⟩,
        fun hyes => absurd hyes hlater, fun _ hne => absurd hlast hne, fun _ _ => ⟨?_, ?_, ?_, hends, fun h2 => ?_⟩⟩
      · rw [hubell]; rfl
      · rw [hubell]; rfl
      · rw [hubell]; rfl
      · refine hdcond h2 (lt_of_lt_of_le (b := 32) ?_ (by decide))
        rw [hkey] at h2 ⊢
        exact bellNumber_of_package h.good h2
    · have hset : v.bellArrive key x = v.setBell key x := if_neg hlast
      rw [hset] at hexec
      refine ⟨_, hexec, hbcur, hquiet.trans (bellQuiet_setBell v key x), ⟨_, htask, hhead⟩, fun hyes => absurd hyes hlater,
        fun _ _ => ?_, fun _ h => absurd h hlast⟩
      rw [bell_setBell_same]
      exact ⟨rfl, rfl, rfl⟩

theorem exec_bellw_mine {key : Nat} (hkey : key = bellKey (s.getG a).toNat c.core) (h : s.BellMine t (s.getG a).toNat c.core) :
    let gen := Task.bellGen t key (s.bell key).gen
    let v := s.modTask t.tid fun x => Task.recordBell x key gen
    exec (.bellw a) s = .next (if genLater (s.bell key).gen gen then v.acquireBy t.tid c.core (bellScope key)
      else v.onCur fun x => { x with wait := some (.bell key gen) }) := by
  subst hkey
  rw [exec_bellw, execBellw, State.whenOn_of_enabled _ hon]
  simp only [hme, bellFor_mine hcur h, curCore_of hcur]
  rfl

/-- BELLW of a member: an acquire where the generation has ended, and a wait where it has not. -/
theorem bellw_waits {key : Nat} (hkey : key = bellKey (s.getG a).toNat c.core) (h : s.BellMine t (s.getG a).toNat c.core) :
    let gen := Task.bellGen t key (s.bell key).gen
    ∃ u, exec (.bellw a) s = .next u ∧ BellQuiet s u key ∧ u.bell key = s.bell key ∧
      u.cur = if genLater (s.bell key).gen gen then s.cur else s.cur.map fun x => { x with wait := some (.bell key gen) } := by
  intro gen
  have hexec := exec_bellw_mine hcur hme hon hkey h
  dsimp only at hexec
  have hquiet : BellQuiet s (s.modTask t.tid fun x => Task.recordBell x key gen) key :=
    ⟨sameBytes_of_mem rfl, modTask_sameRegs fun _ => ⟨rfl, rfl, rfl⟩, fun _ _ => rfl⟩
  by_cases hgone : genLater (s.bell key).gen gen = true
  · rw [if_pos hgone] at hexec ⊢
    have hend := waitsEnd_acquireBy (s.modTask t.tid fun x => Task.recordBell x key gen) t.tid c.core (bellScope key)
    exact ⟨_, hexec, hquiet.trans (hend.bellQuiet _), hend.bell _, hend.cur⟩
  · rw [if_neg hgone] at hexec ⊢
    exact ⟨_, hexec, ⟨hquiet.bytes, hquiet.regs, hquiet.others⟩, rfl, rfl⟩

end

end

theorem bellResults : Claim.BellResults := by
  intro s c t a b hcur hme hon hown g key old bit cluster quiet later mine gen
  have hmine : bellBad g = false ∧ bellCovers key c.core = true ∧ mine ↔ s.BellMine t (s.getG a).toNat c.core :=
    ⟨fun ⟨hgood, hcovers, howner, hmember⟩ => ⟨hgood, hcovers, howner, hmember⟩,
      fun ⟨hgood, hcovers, howner, hmember⟩ => ⟨hgood, hcovers, howner, hmember⟩⟩
  refine ⟨fun hgood hcovers hclosed howner => ?_, fun hbusy => exec_bellm_busy hcur hme hon rfl hbusy,
    fun hgood hcovers hm => ⟨fun hbit => ?_, ?_⟩, fun hnot => exec_bell_not_mine hcur hme hon (mt hmine.2 hnot)⟩
  · intro m
    obtain ⟨hucur, hquiet, hbell⟩ := bellSet_quiet s key m
      { old with memb := m, arr := 0, arrivers := [], owner := if m = 0 then none else some t.ctx }
    exact ⟨_, exec_bellm_free hcur hme hon rfl hgood hcovers hclosed howner, hucur, hquiet.and, hbell⟩
  · obtain ⟨u, hexec, hucur, hquiet, hrest⟩ := bella_arrives hcur hme hon (a := a) rfl (hmine.1 ⟨hgood, hcovers, hm⟩) hown hbit
    exact ⟨u, hexec, hucur, hquiet.and, hrest⟩
  · obtain ⟨u, hexec, hquiet, hbell, hucur⟩ := bellw_waits hcur hme hon (a := a) rfl (hmine.1 ⟨hgood, hcovers, hm⟩)
    exact ⟨u, hexec, hquiet.and, hbell, hucur⟩

end Sys2Proof.Machine
end

section
/-! PROOF. Rolls (14 R379, R380): a roll and its bytes, and what a roll that is set leaves. -/

namespace Sys2Proof.Machine

open Sys2Proof

/-! ## A roll and its bytes (14 R379) -/

/-- A field of bytes that stand between others. -/
theorem fieldAt_between (xs ys zs : List Byte) : fieldAt (xs ++ ys ++ zs) xs.length ys.length = leNat ys := by
  rw [fieldAt, List.append_assoc, List.drop_left, List.take_left]

/-- The fields of a roll fit their places. -/
structure Roll.Fits (r : Roll) : Prop where
  expect : r.expect < 256 ^ 4
  arrived : r.arrived < 256 ^ 4
  code : r.code < 2 ^ 16

theorem Roll.high_fields {r : Roll} (h : r.Fits) : r.high < 256 ^ 8 ∧ (bitsOf r.high 0 1 == 1) = r.phase ∧
    (bitsOf r.high 1 1 == 1) = r.armed ∧ bitsOf r.high 16 16 = r.code := by
  obtain ⟨_, _, hcode⟩ := h
  unfold Roll.high bitsOf flag
  cases r.phase <;> cases r.armed <;>
    simp only [Bool.false_eq_true, if_true, if_false, Bool.beq_eq_decide_eq, decide_eq_true_eq, decide_eq_false_iff_not] <;>
    omega

/-- A roll is read back from its bytes. -/
theorem Roll.ofBytes_bytes {r : Roll} (h : r.Fits) : Roll.ofBytes r.bytes = r := by
  have hlen (n x : Nat) : (natLe n x).length = n := natLe_length n x
  have hexpect : fieldAt r.bytes 0 4 = r.expect := by
    have := fieldAt_between [] (natLe 4 r.expect) (natLe 4 r.arrived ++ natLe 8 r.high)
    rw [hlen, leNat_natLe, Nat.mod_eq_of_lt h.expect] at this
    rwa [Roll.bytes, List.append_assoc]
  have harrived : fieldAt r.bytes 4 4 = r.arrived := by
    have := fieldAt_between (natLe 4 r.expect) (natLe 4 r.arrived) (natLe 8 r.high)
    rwa [hlen, hlen, leNat_natLe, Nat.mod_eq_of_lt h.arrived] at this
  obtain ⟨hlt, hphase, harmed, hcode⟩ := Roll.high_fields h
  have hhigh : fieldAt r.bytes 8 8 = r.high := by
    have := fieldAt_between (natLe 4 r.expect ++ natLe 4 r.arrived) (natLe 8 r.high) []
    rwa [List.length_append, hlen, hlen, hlen, leNat_natLe, Nat.mod_eq_of_lt hlt, List.append_nil] at this
  rw [Roll.ofBytes, hexpect, harrived, hhigh, hphase, harmed, hcode]

theorem leNat_lt_of_length {bs : List Byte} {n : Nat} (h : bs.length ≤ n) : leNat bs < 256 ^ n :=
  lt_of_lt_of_le (leNat_lt bs) (Nat.pow_le_pow_right (by decide) h)

theorem Roll.ofBytes_fits (bs : List Byte) : (Roll.ofBytes bs).Fits :=
  ⟨leNat_lt_of_length (n := 4) (List.length_take_le _ _), leNat_lt_of_length (n := 4) (List.length_take_le _ _),
    Nat.mod_lt _ (by decide)⟩

/-- The fields of the 16 bytes of a roll. -/
theorem Roll.ofBytes_fields {bs : List Byte} (h : bs.length = 16) : (Roll.ofBytes bs).expect = leNat (bs.take 4) ∧
    (Roll.ofBytes bs).arrived = leNat ((bs.drop 4).take 4) ∧ (Roll.ofBytes bs).phase = (leNat (bs.drop 8)).testBit 0 ∧
    (Roll.ofBytes bs).armed = (leNat (bs.drop 8)).testBit 1 ∧ (Roll.ofBytes bs).code = leNat (bs.drop 8) / 2 ^ 16 % 2 ^ 16 := by
  have hhigh : fieldAt bs 8 8 = leNat (bs.drop 8) := by
    rw [fieldAt, List.take_of_length_le (by rw [List.length_drop, h])]
  have hbit (x k : Nat) : (bitsOf x k 1 == 1) = x.testBit k := by
    rw [Nat.testBit_eq_decide_div_mod_eq, bitsOf, pow_one]
    rfl
  simp only [Roll.ofBytes, hhigh, hbit]
  exact ⟨rfl, rfl, trivial, trivial, rfl⟩

/-! ## What an operation makes of a roll (14 R380) -/

theorem Roll.init_eq (r : Roll) (e : Nat) : r.init e = if e = 0 then
    { expect := 0, arrived := 0, phase := !r.phase, armed := false, code := 0 }
    else { expect := e, arrived := 0, phase := r.phase, armed := true, code := 0 } := by
  unfold Roll.init Roll.complete
  split <;> simp_all

/-- Bytes that arrive: too many, the last that are expected, or fewer. -/
theorem Roll.arrive_eq (r : Roll) (e : Nat) : r.arrive e =
    let total := min (r.arrived + e) (2 ^ 32 - 1)
    if r.expect < total then
      { expect := r.expect, arrived := total, phase := if r.armed then !r.phase else r.phase, armed := false, code := 0x0301 }
    else if r.armed = true ∧ total = r.expect then
      { expect := r.expect, arrived := total, phase := !r.phase, armed := false, code := 0 }
    else { r with arrived := total } := by
  unfold Roll.arrive Roll.complete
  dsimp only
  split
  · cases h : r.armed
    · rw [if_neg Bool.false_ne_true, if_neg Bool.false_ne_true]; rfl
    · rfl
  · rfl

theorem Roll.init_fits (r : Roll) {e : Nat} (he : e < 256 ^ 4) : (r.init e).Fits := by
  rw [Roll.init_eq]
  split
  · exact ⟨Nat.pow_pos (by decide), Nat.pow_pos (by decide), Nat.pow_pos (by decide)⟩
  · exact ⟨he, Nat.pow_pos (by decide), Nat.pow_pos (by decide)⟩

theorem Roll.Fits.arrive {r : Roll} (h : r.Fits) (e : Nat) : (r.arrive e).Fits := by
  have htotal : min (r.arrived + e) (2 ^ 32 - 1) < 256 ^ 4 := by omega
  rw [Roll.arrive_eq]
  dsimp only
  split
  · exact ⟨h.expect, htotal, show 0x0301 < 2 ^ 16 by decide⟩
  · split
    · exact ⟨h.expect, htotal, Nat.pow_pos (by decide)⟩
    · exact ⟨h.expect, htotal, h.code⟩

/-! ## A roll that is set -/

/-- A roll has its new fields; the rest of memory, the registers and the bundle stand. -/
structure RollSet (s u : State) (core off : Nat) (r : Roll) : Prop where
  cur : u.cur = s.cur
  roll : u.roll core off = r
  others : SameBytesBut [.sram core off] 16 s u
  regs : SameRegs s u

theorem rollSet_setRoll {s : State} {core off : Nat} {r : Roll} (hs : s.mem.wf = true)
    (hwaits : ∀ x ∈ s.tasks, ∀ v n e, x.wait ≠ some (.roll v n e)) (h : r.Fits) : RollSet s (s.setRoll core off r 0) core off r := by
  have hpoke : s.setRoll core off r 0 = s.sramWrite core off r.bytes :=
    pokeRolls_none (s := s.sramWrite core off r.bytes) hwaits 0
  have hwrote := wrote_sramWrite (core := core) (off := off) (bs := r.bytes) hs
  have hbytes := hwrote.bytes
  have hothers := hwrote.others
  rw [Roll.bytes_length] at hbytes hothers
  rw [hpoke]
  refine ⟨rfl, ?_, hothers, sameRegs_of_tasks rfl⟩
  rw [State.roll, show (s.sramWrite core off r.bytes).sramRead core off 16 = r.bytes from hbytes, Roll.ofBytes_bytes h]

end Sys2Proof.Machine
end

section
/-! PROOF. O42: ROLLI, ROLLA and ROLLW (14 R379 to R381; 07 R189). -/

namespace Sys2Proof.Machine

open Sys2Proof

theorem exec_rolli (a b : Reg) (s : State) : exec (.rolli a b) s = execRolli a b s := rfl
theorem exec_rolla (a b : Reg) (s : State) : exec (.rolla a b) s = execRolla a b s := rfl
theorem exec_rollw (d a : Reg) (s : State) : exec (.rollw d a) s = execRollw d a s := rfl

section
variable {s : State} {c : Cur} {t : Task} {a b d : Reg} {core off e : Nat}

theorem rollSlot_ok (hme : s.me? = some t) (hon : s.enabled = true) (hown : s.ownStores t.tid = [])
    (hok : s.checkRoll t.ctx (s.getG a).toNat = .ok (core, off)) (f : State → Task → Nat → Nat → Nat → State) :
    s.rollSlot a f = f s t (s.getG a).toNat core off := by
  simp only [State.rollSlot, State.whenOn_of_enabled _ hon, hme, hok, State.onChk, onOwn_none hown]

theorem exec_rolli_ok (hme : s.me? = some t) (hon : s.enabled = true) (hown : s.ownStores t.tid = [])
    (hok : s.checkRoll t.ctx (s.getG a).toNat = .ok (core, off)) : exec (.rolli a b) s =
      .next (s.setRoll core off ((s.roll core off).init ((s.getG b).toNat % 2 ^ 32)) 0) := by
  rw [exec_rolli, execRolli, rollSlot_ok hme hon hown hok]

theorem exec_rolla_ok (hcur : s.cur = some c) (hme : s.me? = some t) (hon : s.enabled = true) (hown : s.ownStores t.tid = [])
    (hok : s.checkRoll t.ctx (s.getG a).toNat = .ok (core, off)) :
    let n := (s.getG b).toNat % 2 ^ 32
    let v := s.releaseBy t.tid c.core .pkg
    exec (.rolla a b) s = .next (if v.messageWaits t c.core (coreDie core) then
      v.sendStamped t c.core (coreDie core) (.roll core off n) else v.setRoll core off ((v.roll core off).arrive n) 0) := by
  rw [exec_rolla, execRolla, rollSlot_ok hme hon hown hok, curCore_of hcur]
  rfl

theorem exec_rollw_ok (hcur : s.cur = some c) (hme : s.me? = some t) (hon : s.enabled = true) (hown : s.ownStores t.tid = [])
    (hok : s.checkRoll t.ctx (s.getG a).toNat = .ok (core, off)) :
    let g := (s.getG a).toNat
    let r := s.roll core off
    let v := (s.acquireBy t.tid c.core .pkg).putResult (.g d) (BitVec.allOnes 64)
      (.word (leWord ((s.sramRead core off 16).drop 8)))
    exec (.rollw d a) s = .next (if r.armed then
        (s.fresh.2.putInfl { id := s.fresh.1, reg := .g d, mask := BitVec.allOnes 64, val := .word 0, ord := 0 }).onCur
          fun x => { x with wait := some (.roll g s.fresh.1 d) }
      else if r.code = 0 then v
      else v.queueFault t.tid
        { code := BitVec.ofNat 16 r.code, info := BitVec.ofNat 64 g, deferred := true, engine := true }) := by
  rw [exec_rollw, execRollw, rollSlot_ok hme hon hown hok, curCore_of hcur]
  rfl

/-- ROLLW of a roll that is not armed enters its high half, and takes the code of a roll that ended badly as a fault. -/
theorem rollw_ends {r : Roll} {w : Word} (core g : Nat) (ht : s.task? t.tid = some t) (hwait : t.wait = none) :
    let v := (s.acquireBy t.tid core .pkg).putResult (.g d) (BitVec.allOnes 64) (.word w)
    let f : FaultRec := { code := BitVec.ofNat 16 r.code, info := BitVec.ofNat 64 g, deferred := true, engine := true }
    let u := if r.code = 0 then v else v.queueFault t.tid f
    SameBytes s u ∧ SameRegs s u ∧ Interlocked s u [(.g d, BitVec.allOnes 64, .word w)] ∧
      (r.code ≠ 0 → t.faults.length < 8 → ∃ x, u.task? t.tid = some x ∧ x.faults = t.faults ++ [f]) := by
  intro v f u
  have hcurs : SameCur s (s.acquireBy t.tid core .pkg) := sameCur_of_eq rfl
  have hin : Interlocked s v [(.g d, BitVec.allOnes 64, .word w)] := (putResult_interlocked _ _ _ _).of_sameCur hcurs
  have hregs : SameRegs s v := acquireBy_sameRegs s t.tid core
  let x : Task := { t with clock := joinClock t.clock (s.clocks.heardClock (coreDie core)) }
  have hx : v.task? t.tid = some x := (task?_of_tasks (s := s.acquireBy t.tid core .pkg) rfl t.tid).trans
    (task?_modTask_same (s := s.dropL1 core) ht fun _ => rfl)
  have hmem : SameBytes s v := sameBytes_of_mem rfl
  have hxkept : x.wait = none ∧ x.faults = t.faults := ⟨hwait, rfl⟩
  clear_value v x
  obtain ⟨hxwait, hxfaults⟩ := hxkept
  by_cases hcode : r.code = 0
  · rw [show u = v from if_pos hcode]
    exact ⟨hmem, hregs, hin, fun h => absurd hcode h⟩
  · have hstays : Task.staysWaiting x := .inr (.inl hxwait)
    have hu : u = v.modTask t.tid (Task.takeFault f) := (if_neg hcode).trans (queueFault_stays hx hstays)
    have htake (y : Task) : (Task.takeFault f y).tid = y.tid ∧ (Task.takeFault f y).r = y.r ∧
        (Task.takeFault f y).trap = y.trap := by
      unfold Task.takeFault
      split <;> exact ⟨rfl, rfl, rfl⟩
    rw [hu]
    refine ⟨⟨hmem.1, hmem.2⟩, hregs.trans (modTask_sameRegs htake), hin, fun _ hroom => ?_⟩
    exact ⟨_, task?_modTask_same hx (Task.takeFault_tid f), by
      rw [Task.takeFault_joins (by rw [hxfaults]; exact hroom), ← hxfaults]⟩

/-- A roll that is set once a release has been counted. -/
theorem rollSet_released (hs : s.mem.wf = true) (hown : s.ownStores t.tid = [])
    (hwaits : ∀ x ∈ s.tasks, ∀ v n e, x.wait ≠ some (.roll v n e)) (n : Nat) :
    RollSet s ((s.releaseBy t.tid n .pkg).setRoll core off (((s.releaseBy t.tid n .pkg).roll core off).arrive e) 0) core off
      ((s.roll core off).arrive e) := by
  have hv : (s.releaseBy t.tid n .pkg).mem = s.mem ∧ (s.releaseBy t.tid n .pkg).tasks = s.tasks ∧
      (s.releaseBy t.tid n .pkg).cur = s.cur := by
    obtain ⟨_, _, _, hshape⟩ := releaseBy_shape n .pkg hown
    rw [hshape]
    exact ⟨rfl, rfl, rfl⟩
  generalize s.releaseBy t.tid n .pkg = v at hv ⊢
  obtain ⟨hmem, htasks, hvcur⟩ := hv
  have hroll : v.roll core off = s.roll core off := by rw [State.roll, State.roll, State.sramRead, State.sramRead, hmem]
  have hset := rollSet_setRoll (s := v) (core := core) (off := off) (by rw [hmem]; exact hs) (by rw [htasks]; exact hwaits)
    (Roll.Fits.arrive (Roll.ofBytes_fits (s.sramRead core off 16)) e)
  rw [hroll]
  refine ⟨hset.cur.trans hvcur, hset.roll, ?_, SameRegs.trans (sameRegs_of_tasks htasks) hset.regs⟩
  have hothers := hset.others
  rwa [SameBytesBut, hmem] at hothers

theorem rollResults : Claim.RollResults := by
  intro s c t d a b core off hinv hcur hme hon hown hwait hwaits g e bs r total later sets hok
  have hs : s.mem.wf = true := hinv.1
  have ht : s.task? t.tid = some t := by
    rw [State.me?, hcur] at hme
    rwa [task?_tid hme]
  have hlen : bs.length = 16 := State.bytesAt_length (loc := .sram core off) rfl 16
  have hsets {ins : Instr} {u : State} {x : Roll} (hexec : exec ins s = .next u) (h : RollSet s u core off x) : sets ins x :=
    ⟨u, hexec, h.cur, h.roll, h.others, h.regs⟩
  obtain ⟨_, _, _, hshape⟩ := releaseBy_shape c.core .pkg hown
  have hrolla := exec_rolla_ok (b := b) hcur hme hon hown hok
  have hrollw := exec_rollw_ok (d := d) hcur hme hon hown hok
  refine ⟨Roll.ofBytes_fields hlen, ?_, fun hlater => ?_, fun hnow => ?_, fun harmed => ?_, fun hdone => ?_⟩
  · rw [← Roll.init_eq]
    exact hsets (exec_rolli_ok hme hon hown hok) (rollSet_setRoll hs hwaits (Roll.init_fits r (Nat.mod_lt _ (by decide))))
  · obtain ⟨m, n, hsent, hdie, hact, hdue⟩ := sendStamped_waits (s.releaseBy t.tid c.core .pkg) t c.core (coreDie core)
      (.roll core off e)
    refine ⟨_, m, n, hrolla.trans (congrArg _ (if_pos hlater)), ?_, ?_, ?_, ?_, hdie, hact, hdue⟩
    · rw [hshape]; rfl
    · rw [hshape]; exact sameBytes_of_mem rfl
    · rw [hshape]; exact sameRegs_of_tasks rfl
    · rw [hsent, hshape]
  · have hset := rollSet_released (core := core) (off := off) (e := e) hs hown hwaits c.core
    rw [Roll.arrive_eq (s.roll core off)] at hset
    exact hsets (hrolla.trans (congrArg _ (if_neg (Bool.eq_false_iff.1 hnow)))) hset
  · have hexec := hrollw.trans (congrArg _ (if_pos harmed))
    exact ⟨_, _, hexec, by rw [State.onCur_cur]; simp [State.putInfl, State.fresh, hcur]; rfl, ⟨_, rfl⟩, sameBytes_of_mem rfl,
      sameRegs_of_tasks rfl⟩
  · have hexec := hrollw.trans (congrArg _ (if_neg (Bool.eq_false_iff.1 hdone)))
    obtain ⟨hbytes, hregs, hin, hfault⟩ := rollw_ends (d := d) (r := r) (w := leWord (bs.drop 8)) c.core g ht hwait
    refine ⟨_, hexec, hbytes, hregs, hin, fun hcode hroom => ?_⟩
    obtain ⟨x, hx, hfaults⟩ := hfault hcode hroom
    refine ⟨x, hx, ?_⟩
    have hcode16 : r.code % 2 ^ 16 = r.code := Nat.mod_eq_of_lt (Roll.ofBytes_fits (s.sramRead core off 16)).code
    have hg : g % 2 ^ 64 = g := Nat.mod_eq_of_lt (s.getG a).isLt
    rw [hfaults, List.map_append, List.map_singleton]
    simp only [BitVec.toNat_ofNat, hcode16, hg]

end

/-- Settles O42: bells and rolls, set, arrived at at once or by a message, and waited for. -/
theorem bellsAndRolls : Obligations.BellsAndRolls := ⟨bellResults, rollResults⟩

end Sys2Proof.Machine
end

section
/-! PROOF. What the end of tasks, a write of memory and the like leave of the Coachman's side: its cards, queues and
runners, and the phases of the contexts (03 R70, R77). -/

namespace Sys2Proof.Machine

open Sys2Proof

/-- Of the host's side only the contexts' own records, the event table, the vectors, the validated images, the drive cards'
waiting list and the drive commands in flight may have changed, and each context is in its phase with its ASID. -/
structure CoachKept (s u : State) : Prop where
  host : ∃ ctxs events evlost msix images waiting entries, u.host =
    { s.host with
      ctxs := ctxs, events := events, evlost := evlost, msix := msix, images := images, driveWaiting := waiting
      driveEntries := entries }
  phase : ∀ n, (u.ctx n).phase = (s.ctx n).phase
  asid : ∀ n, (u.ctx n).asid = (s.ctx n).asid

section
variable {s u v : State}

theorem coachKept_of_host (h : u.host = s.host) : CoachKept s u where
  host := ⟨_, _, _, _, _, _, _, h⟩
  phase n := by rw [State.ctx, State.ctx, h]
  asid n := by rw [State.ctx, State.ctx, h]

theorem CoachKept.refl (s : State) : CoachKept s s := coachKept_of_host rfl

theorem CoachKept.trans (h : CoachKept s u) (k : CoachKept u v) : CoachKept s v where
  host := by
    obtain ⟨_, _, _, _, _, _, _, h⟩ := h.host
    obtain ⟨_, _, _, _, _, _, _, k⟩ := k.host
    exact ⟨_, _, _, _, _, _, _, by rw [k, h]⟩
  phase n := (k.phase n).trans (h.phase n)
  asid n := (k.asid n).trans (h.asid n)

theorem CoachKept.cards (h : CoachKept s u) : u.host.cards = s.host.cards := by
  obtain ⟨_, _, _, _, _, _, _, h⟩ := h.host
  rw [h]

theorem CoachKept.runners (h : CoachKept s u) : u.host.runners = s.host.runners := by
  obtain ⟨_, _, _, _, _, _, _, h⟩ := h.host
  rw [h]

theorem CoachKept.queue (h : CoachKept s u) (q : Nat) : u.queue q = s.queue q := by
  obtain ⟨_, _, _, _, _, _, _, h⟩ := h.host
  rw [State.queue, State.queue, h]

theorem coachKept_foldl {α : Type} (f : State → α → State) (h : ∀ s a, CoachKept s (f s a)) (l : List α) (s : State) :
    CoachKept s (l.foldl f s) := by
  induction l generalizing s with
  | nil => exact CoachKept.refl s
  | cons a l ih => exact (h s a).trans (ih _)

theorem Noted.coachKept (h : Noted s u) : CoachKept s u := by
  obtain ⟨_, ctxs, events, evlost, msix, _, _, _, _, _, _, _, hu⟩ := h.shape
  refine ⟨⟨ctxs, events, evlost, msix, _, _, _, by rw [hu]⟩, fun n => ?_, fun n => ?_⟩
  all_goals
    obtain ⟨hot, hn⟩ := h.ctx n
    rw [hn]

theorem Sent.coachKept (h : Sent s u) : CoachKept s u := coachKept_of_host h.host

theorem WaitsEnd.coachKept (h : WaitsEnd s u) : CoachKept s u := by
  obtain ⟨ctxs, _, _, hu⟩ := h.shape
  refine ⟨⟨ctxs, _, _, _, _, _, _, by rw [hu]⟩, fun n => ?_, fun n => ?_⟩
  all_goals
    obtain ⟨hot, hn⟩ := h.ctx n
    rw [hn]

theorem coachKept_modCtx (s : State) (n : Nat) {f : Ctx → Ctx} (hphase : (f (s.ctx n)).phase = (s.ctx n).phase)
    (hasid : (f (s.ctx n)).asid = (s.ctx n).asid) :
    CoachKept s (s.modCtx n f) := by
  refine ⟨⟨_, _, _, _, _, _, _, rfl⟩, fun m => ?_, fun m => ?_⟩
  all_goals
    by_cases hm : m = n
    · subst hm
      rw [State.ctx_modCtx_same]
      assumption
    · rw [State.ctx_modCtx_other s f hm]

/-! ## Memory (07 R183, R192) -/

theorem host_foldl {α : Type} (f : State → α → State) (h : ∀ s a, (f s a).host = s.host) (l : List α) (s : State) :
    (l.foldl f s).host = s.host := by
  induction l generalizing s with
  | nil => rfl
  | cons a l ih => exact (ih _).trans (h s a)

theorem rekey_host (s : State) (slot line : Nat) : (s.rekey slot line).host = s.host := by
  unfold State.rekey
  split
  · rfl
  · dsimp only
    split <;> rfl

theorem physWrite_host (s : State) (slot pa : Nat) (bs : List Byte) : (s.physWrite slot pa bs).host = s.host := by
  have hall : ((linesOf pa bs.length).foldl (fun s l => s.rekey slot l) s).host = s.host :=
    host_foldl _ (fun u l => rekey_host u slot l) _ s
  unfold State.physWrite
  split
  · rfl
  · exact hall

theorem coachKept_physWrite (s : State) (slot pa : Nat) (bs : List Byte) : CoachKept s (s.physWrite slot pa bs) :=
  coachKept_of_host (physWrite_host s slot pa bs)

theorem physRead_host (s : State) (slot pa n : Nat) : (s.physRead slot pa n).2.host = s.host := by
  unfold State.physRead
  dsimp only
  split <;> rfl

theorem landFor_host (s : State) (tid : Word) (id : Nat) (v : RegVal) : (s.landFor tid id v).host = s.host := by
  have hframe (t : Task) (e : Infl) : (s.landFrame t e v).host = s.host :=
    (physWrite_host _ _ _ _).trans (physRead_host s _ _ _)
  unfold State.landFor
  split
  · rfl
  · split
    · rfl
    · dsimp only
      rw [State.modTask_host]
      split
      · exact hframe _ _
      · rfl

theorem performOp_host (s : State) (ctx core : Nat) (op : MemOp) : (s.performOp ctx core op).host = s.host := by
  cases op with
  | phys pa d => exact physWrite_host s _ _ _
  | host pa d => exact physWrite_host s _ _ _
  | sram c o d => rfl

theorem performStore_host (s : State) (p : PendStore) : (s.performStore p).host = s.host := by
  have hops : (p.ops.foldl (fun s op => s.performOp p.ctx p.core op) s).host = s.host :=
    host_foldl _ (fun u op => performOp_host u _ _ op) _ s
  unfold State.performStore
  dsimp only
  split
  · exact (landFor_host _ _ _ _).trans hops
  · exact hops

theorem flushStores_host (s : State) (tid : Word) : (s.flushStores tid).host = s.host := by
  unfold State.flushStores
  refine host_foldl _ (fun u p => ?_) _ s
  split
  · rfl
  · exact performStore_host u p

theorem releaseBy_host (s : State) (tid : Word) (core : Nat) (sc : Scope) : (s.releaseBy tid core sc).host = s.host := by
  unfold State.releaseBy
  dsimp only
  split <;> exact flushStores_host s tid

/-! ## Locks (09 R228, R232) -/

theorem runGrants_host (s : State) (mx : BitVec 25) (o : LockObj) : (s.runGrants mx o).host = s.host := by
  unfold State.runGrants State.sendGrants
  dsimp only
  exact host_foldl (fun u (g : Word × LockMode) => u.post 0 .lockGrant (.task g.1)) (fun u g => rfl) _ _

theorem freeBehind_host (s : State) (core home : Nat) : (s.freeBehind core home).host = s.host := by
  unfold State.freeBehind
  refine host_foldl _ (fun u r => ?_) _ s
  dsimp only
  split <;> rfl

theorem dropRefusal_host (s : State) (tid : Word) : (s.dropRefusal tid).host = s.host := by
  unfold State.dropRefusal
  exact host_foldl _ (fun u r => freeBehind_host u _ _) _ _

theorem offerLocks_host (s : State) (home n : Nat) : (s.offerLocks home n).host = s.host := by
  induction n generalizing s with
  | zero => rfl
  | succ n ih =>
    unfold State.offerLocks
    split
    · rfl
    · split
      · exact ih _
      · rfl

theorem prefectLeave_host (s : State) (tid : Word) (ctx : Nat) : (s.prefectLeave tid ctx).host = s.host := by
  have hgrants (l : List LockObj) (mx : BitVec 25) :
      (l.foldl (fun s o => s.runGrants mx ((s.lockObj o.asid o.lw).leave tid)) s).host = s.host :=
    host_foldl _ (fun u o => runGrants_host u mx _) l s
  unfold State.prefectLeave
  dsimp only
  exact (host_foldl _ (fun u h => offerLocks_host u h _) _ _).trans ((dropRefusal_host _ tid).trans (hgrants _ _))

theorem releaseLocks_host (s : State) (t : Task) : (s.releaseLocks t).host = s.host :=
  (prefectLeave_host _ _ _).trans (host_foldl _ (fun u _ => releaseBy_host u _ _ _) _ s)

/-! ## What a task waits for (14 R367) -/

theorem feOffer_host (s : State) (core n : Nat) : (s.feOffer core n).host = s.host := by
  induction n generalizing s with
  | zero => rfl
  | succ n ih =>
    unfold State.feOffer
    split
    · rfl
    · split
      · exact ih _
      · rfl

theorem feFreed_host (s : State) (core : Nat) : (s.feFreed core).host = s.host := by
  unfold State.feFreed
  split
  · rfl
  · refine (host_foldl _ (fun u r => ?_) _ _).trans (feOffer_host s core _)
    split
    · split <;> rfl
    · rfl

theorem feWithdraw_host (s : State) (p : FeWait → Bool) : (s.feWithdraw p).host = s.host :=
  host_foldl (fun u (x : Nat × CoreSt) => u.feDrop x.1 p) (fun _ x => feFreed_host _ x.1) _ s

theorem coachKept_leavePageFault (s : State) (t : Task) : CoachKept s (s.leavePageFault t) := by
  unfold State.leavePageFault
  split
  · exact coachKept_modCtx s t.ctx rfl rfl
  · exact CoachKept.refl s

theorem coachKept_withdraw (s : State) (t : Task) : CoachKept s (s.withdraw t) :=
  (coachKept_leavePageFault s t).trans (coachKept_of_host (feWithdraw_host _ _))

theorem coachKept_discardVersion (s : State) (t : Task) (cause : Nat) : CoachKept s (s.discardVersion t cause) := by
  unfold State.discardVersion
  dsimp only
  have hdropped (f : Task → Task) : CoachKept s ((s.versionDrop t.tid).modTask t.tid f) := coachKept_of_host rfl
  split
  · split
    · exact (hdropped _).trans (coachKept_modCtx _ t.ctx rfl rfl)
    · exact hdropped _
  · exact hdropped _

/-! ## The end of a task (04 R100, R121) -/

theorem releaseTiles_host (s : State) (t : Task) : (s.releaseTiles t).host = s.host := by
  unfold State.releaseTiles
  split
  · rfl
  · refine host_foldl _ (fun u t => ?_) _ _
    unfold State.holdTiles
    split <;> rfl

theorem freeSeq_host (s : State) (t : Task) : (s.freeSeq t).host = s.host := by
  unfold State.freeSeq
  split <;> rfl

theorem freeAlloc_host (s : State) (t : Task) : (s.freeAlloc t).host = s.host := by
  unfold State.freeAlloc
  split <;> rfl

theorem coachKept_freeFrame (s : State) (n f : Nat) : CoachKept s (s.freeFrame n f) := coachKept_modCtx s n rfl rfl

theorem coachKept_leaveTandem (s : State) (t : Task) : CoachKept s (s.leaveTandem t) := by
  unfold State.leaveTandem
  split
  · unfold State.checkRejoin
    split
    · exact CoachKept.refl s
    · split
      · refine (coachKept_foldl _ (fun s u => ?_) _ s).trans (coachKept_of_host rfl)
        split
        · split
          · exact (waitsEnd_wake s u).1.coachKept.trans (coachKept_of_host rfl)
          · exact CoachKept.refl s
        · exact CoachKept.refl s
      · exact CoachKept.refl s
  · exact CoachKept.refl s

theorem launchMinus_host (s : State) (n : BitVec 32) : (s.launchMinus n).host = s.host := by
  unfold State.launchMinus
  split
  · rfl
  · dsimp only
    split
    · split <;> rfl
    · rfl

theorem coachKept_endTail (s : State) (t : Task) : CoachKept s (s.endTail t) := by
  let s2 := (((s.releaseTiles t).freeSeq t).freeAlloc t).freeFrame t.ctx t.frame
  let s3 := { s2 with tasks := s2.tasks.filter (·.tid != t.tid) }
  have hfreed : CoachKept s (((s.releaseTiles t).freeSeq t).freeAlloc t) :=
    coachKept_of_host ((freeAlloc_host _ t).trans ((freeSeq_host _ t).trans (releaseTiles_host s t)))
  have h3 : CoachKept s s3 := hfreed.trans ((coachKept_freeFrame _ t.ctx t.frame).trans (coachKept_of_host rfl))
  exact (h3.trans (coachKept_leaveTandem s3 t)).trans (coachKept_of_host (launchMinus_host (s3.leaveTandem t) _))

theorem coachKept_leaveWith (s : State) (t : Task) (l : Leaving) : CoachKept s (s.leaveWith t l State.endTail) := by
  unfold State.leaveWith
  split
  · exact coachKept_of_host rfl
  · exact coachKept_endTail s t

theorem coachKept_endOne (s : State) (t : Task) (cause : Option Nat) : CoachKept s (s.endOne t cause) := by
  unfold State.endOne
  split
  · exact CoachKept.refl s
  · exact (coachKept_of_host (releaseLocks_host s t)).trans (coachKept_leaveWith _ t _)
  · have hend (v : State) : CoachKept v
        ((((v.flushStores t.tid).releaseLocks t).withdraw t).leaveWith t .finish State.endTail) :=
      ((coachKept_of_host ((releaseLocks_host _ t).trans (flushStores_host v t.tid))).trans
        (coachKept_withdraw _ t)).trans (coachKept_leaveWith _ t _)
    dsimp only
    split
    · exact (coachKept_discardVersion s t _).trans (hend _)
    · exact hend s

theorem coachKept_stopCreating (s : State) (n : BitVec 32) : CoachKept s (s.stopCreating n) := by
  unfold State.stopCreating
  split
  · exact CoachKept.refl s
  · next l _ =>
    dsimp only
    exact (coachKept_of_host (State.modLaunch_host s n _)).trans
      (coachKept_foldl _ (fun s f => coachKept_freeFrame s l.ctx f) _ _)

theorem coachKept_endLaunchTasks (s : State) (n : BitVec 32) (cause : Nat) : CoachKept s (s.endLaunchTasks n cause) :=
  (coachKept_stopCreating s n).trans (coachKept_foldl _ (fun s t => coachKept_endOne s t _) _ _)

end

end Sys2Proof.Machine
end

section
/-! PROOF. What the edges of cards leave when they are looked at (03 R76; 04 R99): cards that wait on none, and the launches
and drive places of such cards, stand. -/

namespace Sys2Proof.Machine

open Sys2Proof

/-! ## Queues and cards that are set -/

section
variable {s u v : State}

@[simp] theorem queue_modQueue_same (s : State) (q : Nat) (f : Queue → Queue) : (s.modQueue q f).queue q = f (s.queue q) :=
  Tbl.getD_put_same _ _ _ _

theorem queue_modQueue_other {q k : Nat} (s : State) (f : Queue → Queue) (h : k ≠ q) :
    (s.modQueue q f).queue k = s.queue k := Tbl.getD_put_other _ _ _ h

theorem mem_modCard {id : Nat} {f : Card → Card} {y : Card} :
    y ∈ (s.modCard id f).host.cards ↔ ∃ c ∈ s.host.cards, (if c.id == id then f c else c) = y := List.mem_map

theorem mem_modCard_other {id : Nat} {f : Card → Card} {y : Card} (hy : y ∈ s.host.cards) (h : y.id ≠ id) :
    y ∈ (s.modCard id f).host.cards := mem_modCard.2 ⟨y, hy, if_neg (by simpa using h)⟩

theorem mem_modCard_same {id : Nat} {f : Card → Card} {y : Card} (hy : y ∈ s.host.cards) (h : y.id = id) :
    f y ∈ (s.modCard id f).host.cards := mem_modCard.2 ⟨y, hy, if_pos (by simpa using h)⟩

/-- The cards, the drive cards' waiting list and the launches have changed, and events have come due; the cards `P` has none
of, and what they lend or wait for, are as they were. -/
structure Settled (P : Card → Prop) (s u : State) : Prop where
  shape : ∃ cards waiting launches freeCtr due, u = { s with
    host := { s.host with cards := cards, driveWaiting := waiting }, launches := launches, freeCtr := freeCtr, due := due }
  due : ∀ d ∈ s.due, d ∈ u.due
  card : ∀ y ∈ s.host.cards, (∀ c, P c → c.id ≠ y.id) → y ∈ u.host.cards
  ids : ∀ y ∈ u.host.cards, ∃ x ∈ s.host.cards, x.id = y.id
  waits : ∀ k ∈ s.host.driveWaiting, (∀ c, P c → c.id ≠ k) → k ∈ u.host.driveWaiting
  launch : ∀ l ∈ s.launches, l.phase ≠ .waiting → (∀ c, P c → c.lnum ≠ some l.lnum) → l ∈ u.launches
  lnums : ∀ l ∈ u.launches, ∃ x ∈ s.launches, x.lnum = l.lnum

variable {P : Card → Prop}

theorem Settled.refl (s : State) : Settled P s s :=
  ⟨⟨_, _, _, _, _, rfl⟩, fun _ h => h, fun _ h _ => h, fun y h => ⟨y, h, rfl⟩, fun _ h _ => h, fun _ h _ _ => h,
    fun l h => ⟨l, h, rfl⟩⟩

theorem Settled.trans (h : Settled P s u) (k : Settled P u v) : Settled P s v where
  shape := by
    obtain ⟨_, _, _, _, _, rfl⟩ := h.shape
    obtain ⟨_, _, _, _, _, rfl⟩ := k.shape
    exact ⟨_, _, _, _, _, rfl⟩
  due d hd := k.due d (h.due d hd)
  card y hy hP := k.card y (h.card y hy hP) hP
  ids y hy := by
    obtain ⟨x, hx, hxy⟩ := k.ids y hy
    obtain ⟨w, hw, hwx⟩ := h.ids x hx
    exact ⟨w, hw, hwx.trans hxy⟩
  waits n hn hP := k.waits n (h.waits n hn hP) hP
  launch l hl hphase hP := k.launch l (h.launch l hl hphase hP) hphase hP
  lnums l hl := by
    obtain ⟨x, hx, hxl⟩ := k.lnums l hl
    obtain ⟨w, hw, hwx⟩ := h.lnums x hx
    exact ⟨w, hw, hwx.trans hxl⟩

theorem Settled.mem (h : Settled P s u) : u.mem = s.mem := by obtain ⟨_, _, _, _, _, rfl⟩ := h.shape; rfl
theorem Settled.queues (h : Settled P s u) : u.host.queues = s.host.queues := by
  obtain ⟨_, _, _, _, _, rfl⟩ := h.shape; rfl
theorem Settled.queue (h : Settled P s u) (q : Nat) : u.queue q = s.queue q := by rw [State.queue, State.queue, h.queues]
theorem Settled.nextRead (h : Settled P s u) : u.host.nextRead = s.host.nextRead := by
  obtain ⟨_, _, _, _, _, rfl⟩ := h.shape; rfl
theorem Settled.nextCard (h : Settled P s u) : u.host.nextCard = s.host.nextCard := by
  obtain ⟨_, _, _, _, _, rfl⟩ := h.shape; rfl
theorem Settled.nextLnum (h : Settled P s u) : u.nextLnum = s.nextLnum := by
  obtain ⟨_, _, _, _, _, rfl⟩ := h.shape; rfl
theorem Settled.msix (h : Settled P s u) : u.host.msix = s.host.msix := by
  obtain ⟨_, _, _, _, _, rfl⟩ := h.shape; rfl

/-! ## The steps -/

theorem mem_post {dt : Nat} {i : Instr} {a : EvArg} {d : Nat × Instr × EvArg} (h : d ∈ s.due) : d ∈ (s.post dt i a).due :=
  mem_insertDue.2 (.inr h)

theorem mem_post_self (s : State) (dt : Nat) (i : Instr) (a : EvArg) : (s.cycle + dt, i, a) ∈ (s.post dt i a).due :=
  mem_insertDue.2 (.inl rfl)

theorem settled_bumpFree_post (s : State) (k n : Nat) (i : Instr) (a : EvArg) : Settled P s ((s.bumpFree k).post n i a) :=
  ⟨⟨_, _, _, _, _, rfl⟩, fun _ h => mem_post h, fun _ h _ => h, fun y h => ⟨y, h, rfl⟩, fun _ h _ => h, fun _ h _ _ => h,
    fun l h => ⟨l, h, rfl⟩⟩

theorem settled_post (s : State) (n : Nat) (i : Instr) (a : EvArg) : Settled P s (s.post n i a) :=
  settled_bumpFree_post s 0 n i a

theorem settled_prioSoon (s : State) : Settled P s s.prioSoon := settled_bumpFree_post s 1 _ _ _

theorem settled_modCard {c : Card} {f : Card → Card} (hP : P c) (hid : ∀ x, x.id = c.id → (f x).id = c.id) :
    Settled P s (s.modCard c.id f) where
  shape := ⟨_, _, _, _, _, rfl⟩
  due _ h := h
  card y hy hP' := mem_modCard_other hy (hP' c hP).symm
  ids y hy := by
    obtain ⟨x, hx, rfl⟩ := mem_modCard.1 hy
    refine ⟨x, hx, ?_⟩
    split
    · next h => exact (by simpa using h : x.id = c.id).trans (hid x (by simpa using h)).symm
    · rfl
  waits _ h _ := h
  launch _ h _ _ := h
  lnums l h := ⟨l, h, rfl⟩

theorem settled_endCard {c : Card} (hP : P c) (status : Nat) (fcode : BitVec 16) (detail : Word) :
    Settled P s (s.endCard c.id status fcode detail) :=
  (settled_modCard hP fun _ h => by exact h).trans (settled_post _ _ _ _)

theorem settled_dropLaunch {c : Card} (hP : P c) :
    Settled P s { s with launches := s.launches.filter fun l => some l.lnum != c.lnum } where
  shape := ⟨_, _, _, _, _, rfl⟩
  due _ h := h
  card _ h _ := h
  ids y h := ⟨y, h, rfl⟩
  waits _ h _ := h
  launch l hl _ hP' := List.mem_filter.2 ⟨hl, by simpa using (hP' c hP).symm⟩
  lnums l hl := ⟨l, List.mem_of_mem_filter hl, rfl⟩

theorem settled_unwait {c : Card} (hP : P c) :
    Settled P s (s.onHost fun h => { h with driveWaiting := h.driveWaiting.filter (· != c.id) }) where
  shape := ⟨_, _, _, _, _, rfl⟩
  due _ h := h
  card _ h _ := h
  ids y h := ⟨y, h, rfl⟩
  waits k hk hP' := List.mem_filter.2 ⟨hk, by simpa using (hP' c hP).symm⟩
  launch _ h _ _ := h
  lnums l h := ⟨l, h, rfl⟩

/-- The launch of a card is made eligible, where it waits. -/
theorem settled_eligible {n : BitVec 32} {c : Card} (hP : P c) (hn : c.lnum = some n) :
    Settled P s (s.modLaunch n fun l => if l.phase = .waiting then { l with phase := .eligible } else l) where
  shape := ⟨_, _, _, _, _, rfl⟩
  due _ h := h
  card _ h _ := h
  ids y h := ⟨y, h, rfl⟩
  waits _ h _ := h
  launch l hl _ hP' := List.mem_map.2 ⟨l, hl, if_neg fun h => hP' c hP (hn.trans (congrArg some (by simpa using h)).symm)⟩
  lnums l hl := by
    obtain ⟨x, hx, rfl⟩ := List.mem_map.1 hl
    refine ⟨x, hx, ?_⟩
    split
    · dsimp only
      split <;> rfl
    · rfl

theorem settled_cardReady {c : Card} (hP : P c) : Settled P s (s.cardReady c) := by
  unfold State.cardReady
  dsimp only
  split
  · exact ((settled_dropLaunch hP).trans (settled_unwait hP)).trans (settled_endCard hP _ _ _)
  · split
    · next n _ hn => exact settled_eligible hP hn
    · exact settled_endCard hP _ _ _
    · exact Settled.refl s

theorem Settled.of_same {Q : Card → Prop} {c d : Card} (hid : d.id = c.id) (hlnum : d.lnum = c.lnum) (hQ : Q c)
    (h : Settled (· = d) s u) : Settled Q s u where
  shape := h.shape
  due := h.due
  card y hy hQ' := h.card y hy fun _ he => by subst he; rw [hid]; exact hQ' c hQ
  ids := h.ids
  waits k hk hQ' := h.waits k hk fun _ he => by subst he; rw [hid]; exact hQ' c hQ
  launch l hl hp hQ' := h.launch l hl hp fun _ he => by subst he; rw [hlnum]; exact hQ' c hQ
  lnums := h.lnums

/-- One card whose edges are looked at. -/
def State.settleCard (s : State) (c : Card) : State :=
  if c.edges.isEmpty || c.status.isSome then s
  else
    let c1 := s.meetEdges c
    if c1.edges == c.edges then s
    else
      let s1 := (s.modCard c.id fun _ => c1).prioSoon
      if c1.edges.isEmpty then s1.cardReady c1 else s1

theorem settleEdges_eq (s : State) : s.settleEdges = s.host.cards.foldl State.settleCard s := rfl

/-- Does a card wait on edges? -/
def Card.Unsettled (c : Card) : Prop := c.edges ≠ [] ∧ c.status = none

theorem settled_settleCard {c : Card} (hP : c.Unsettled → P c) : Settled P s (s.settleCard c) := by
  unfold State.settleCard
  split
  · exact Settled.refl s
  · next hopen =>
    have hc : P c := hP (by simpa [Card.Unsettled] using hopen)
    have hset : Settled P s ((s.modCard c.id fun _ => s.meetEdges c).prioSoon) :=
      (settled_modCard hc fun _ _ => by rfl).trans (settled_prioSoon _)
    dsimp only
    split
    · exact Settled.refl s
    · split
      · exact hset.trans (Settled.of_same (c := c) (d := s.meetEdges c) rfl rfl hc (settled_cardReady rfl))
      · exact hset

theorem settled_fold (l : List Card) (hP : ∀ c ∈ l, c.Unsettled → P c) (s : State) :
    Settled P s (l.foldl State.settleCard s) := by
  induction l generalizing s with
  | nil => exact Settled.refl s
  | cons c l ih =>
    exact (settled_settleCard (hP c (List.mem_cons_self ..))).trans
      (ih (fun c hc => hP c (List.mem_cons_of_mem _ hc)) _)

theorem settled_settleEdges (s : State) : Settled (fun c => c ∈ s.host.cards ∧ c.Unsettled) s s.settleEdges := by
  rw [settleEdges_eq]
  exact settled_fold _ (fun _ hc hu => ⟨hc, hu⟩) s

end

end Sys2Proof.Machine
end

section
/-! PROOF. A queue that is enabled or disabled (03 R71). -/

namespace Sys2Proof.Machine

open Sys2Proof

section
variable {s : State} {q : Nat} {a : Nat} {v : Word}

/-- Has another queue the context? -/
def State.queueBusy (s : State) (q : Nat) (ctx : BitVec 6) : Bool :=
  (List.range 64).any fun i => i != q && (s.queue i).enable && (s.queue i).ctx == ctx

theorem queueBusy_iff {ctx : BitVec 6} : s.queueBusy q ctx = true ↔
    ∃ n, n < 64 ∧ n ≠ q ∧ (s.queue n).enable = true ∧ (s.queue n).ctx = ctx := by
  simp [State.queueBusy, and_assoc]

/-- What a write of the full QCTL makes of a queue, ENABLE apart. -/
def Queue.written (x : Queue) (v : Word) : Queue :=
  { x with
    ctx := if x.enable then x.ctx else v.extractLsb' 1 6
    prio := v.extractLsb' 7 3, weight := if v.extractLsb' 10 8 = 0 then 1 else v.extractLsb' 10 8, irqv := v.extractLsb' 18 6
    overrun := x.overrun && !bitSet .full v 24, badbase := x.badbase && !bitSet .full v 25
    ctxbusy := x.ctxbusy && !bitSet .full v 26 }

/-- Only queue `q` may differ, and memory stands. -/
structure QueueOnly (s u : State) (q : Nat) (y : Queue) : Prop where
  same : u.queue q = y
  other : ∀ n, n ≠ q → u.queue n = s.queue n
  mem : u.mem = s.mem

theorem queueOnly_modQueue (s : State) (q : Nat) (y : Queue) : QueueOnly s (s.modQueue q fun _ => y) q y :=
  ⟨queue_modQueue_same s q _, fun _ h => queue_modQueue_other s _ h, rfl⟩

theorem exec_queueEnable (harg : s.arg = .reg q a .full v) (hq : q < 64) (hup : s.host.welomUp = true)
    (hready : s.package.phase = .ready) : exec .queueEnable s = .next (s.writeQctl q .full v) := by
  have hexec : exec .queueEnable s = execQueueEnable s := rfl
  rw [hexec, execQueueEnable, harg]
  dsimp only
  rw [whenBar_open _ hup hready, if_pos hq]

theorem writeQctl_full (s : State) (q : Nat) (v : Word) : s.writeQctl q .full v =
    let x := s.queue q
    let y := x.written v
    let busy := s.queueBusy q y.ctx
    let dead := (s.ctx y.ctx.toNat).phase != .live
    let bad := decide (x.log2.toNat < 4) || decide (16 < x.log2.toNat)
    if v.getLsbD 0 && !x.enable then
      if busy || dead || bad then
        s.modQueue q fun _ => { y with ctxbusy := y.ctxbusy || busy || dead, badbase := y.badbase || bad }
      else
        (s.modQueue q fun _ => { y with enable := true, stopped := false, wr := 0, rd := 0, done := 0 }).onHost fun h =>
          { h with cardStatus := h.cardStatus.filter fun e => e.1.1 != q }
    else (s.modQueue q fun _ => { y with enable := v.getLsbD 0 }).settleEdges := by
  simp only [State.writeQctl, regMerge_full]
  rfl

/-- The write disables the queue. -/
theorem writeQctl_disable (hv : v.getLsbD 0 = false) :
    QueueOnly s (s.writeQctl q .full v) q { (s.queue q).written v with enable := false } := by
  have hset := settled_settleEdges (s.modQueue q fun _ => { (s.queue q).written v with enable := false })
  obtain ⟨hsame, hother, hmem⟩ := queueOnly_modQueue s q { (s.queue q).written v with enable := false }
  rw [writeQctl_full]
  simp only [hv, Bool.false_and, Bool.false_eq_true, if_false]
  exact ⟨(hset.queue q).trans hsame, fun n h => (hset.queue n).trans (hother n h), hset.mem.trans hmem⟩

/-- The write enables the queue, or names what refuses it. -/
theorem writeQctl_enable (hv : v.getLsbD 0 = true) (hoff : (s.queue q).enable = false) :
    let x := s.queue q
    let y := x.written v
    let busy := s.queueBusy q y.ctx
    let dead := (s.ctx y.ctx.toNat).phase != .live
    let bad := decide (x.log2.toNat < 4) || decide (16 < x.log2.toNat)
    QueueOnly s (s.writeQctl q .full v) q (if busy || dead || bad then
        { y with ctxbusy := y.ctxbusy || busy || dead, badbase := y.badbase || bad }
      else { y with enable := true, stopped := false, wr := 0, rd := 0, done := 0 }) := by
  rw [writeQctl_full]
  simp only [hv, hoff, Bool.not_false, Bool.and_self, if_true]
  split
  · exact queueOnly_modQueue s q _
  · obtain ⟨hsame, hother, hmem⟩ := queueOnly_modQueue s q
      { (s.queue q).written v with enable := true, stopped := false, wr := 0, rd := 0, done := 0 }
    exact ⟨hsame, hother, hmem⟩

/-- 03 R71. -/
theorem queueEnable_rules (harg : s.arg = .reg q a .full v) (hq : q < 64) (hup : s.host.welomUp = true)
    (hready : s.package.phase = .ready) :
    let x := s.queue q
    let ctx : BitVec 6 := v.extractLsb' 1 6
    let sets (p : Queue → Prop) : Prop := ∃ u, exec .queueEnable s = .next u ∧ p (u.queue q) ∧
      (∀ n, n ≠ q → u.queue n = s.queue n) ∧ u.mem = s.mem
    let others : Prop := ∃ n, n < 64 ∧ n ≠ q ∧ (s.queue n).enable = true ∧ (s.queue n).ctx = ctx
    let dead : Prop := (s.ctx ctx.toNat).phase ≠ .live
    let bad : Prop := x.log2.toNat < 4 ∨ 16 < x.log2.toNat
    (v.getLsbD 0 = true → x.enable = false →
      (¬others → ¬dead → ¬bad → sets fun y => y.enable = true ∧ y.wr = 0 ∧ y.rd = 0 ∧ y.done = 0 ∧ y.ctx = ctx ∧
        y.prio = v.extractLsb' 7 3 ∧ y.irqv = v.extractLsb' 18 6 ∧ y.stopped = false) ∧
      (others ∨ dead ∨ bad → sets fun y => y.enable = false ∧ (others ∨ dead → y.ctxbusy = true) ∧
        (bad → y.badbase = true))) ∧
    (v.getLsbD 0 = false → sets fun y => y.enable = false) := by
  intro x ctx sets others dead bad
  have hexec := exec_queueEnable harg hq hup hready
  refine ⟨fun hv hoff => ?_, fun hv => ?_⟩
  · have hctx : ((s.queue q).written v).ctx = ctx := if_neg (by simp [x] at hoff; simp [hoff])
    have hset := writeQctl_enable hv hoff
    have hbusy : s.queueBusy q ctx = true ↔ others := queueBusy_iff
    have hdead : ((s.ctx ctx.toNat).phase != .live) = true ↔ dead := by simp [dead]
    have hbad : (decide (x.log2.toNat < 4) || decide (16 < x.log2.toNat)) = true ↔ bad := by simp [bad]
    have hrefused : (s.queueBusy q ctx || (s.ctx ctx.toNat).phase != .live ||
        (decide (x.log2.toNat < 4) || decide (16 < x.log2.toNat))) = true ↔ others ∨ dead ∨ bad := by
      rw [Bool.or_eq_true, Bool.or_eq_true, hbusy, hdead, hbad, or_assoc]
    dsimp only at hset
    rw [hctx] at hset
    obtain ⟨hsame, hother, hmem⟩ := hset
    refine ⟨fun ho hd hb => ⟨_, hexec, ?_, hother, hmem⟩, fun h => ⟨_, hexec, ?_, hother, hmem⟩⟩
    · rw [hsame, if_neg (hrefused.not.2 fun h => h.elim ho (·.elim hd hb))]
      exact ⟨rfl, rfl, rfl, rfl, rfl, rfl, rfl, rfl⟩
    · rw [hsame, if_pos (hrefused.2 h)]
      refine ⟨hoff, fun h => ?_, fun h => ?_⟩
      · simp only [Bool.or_eq_true, hbusy, hdead]
        exact h.elim (.inl ∘ .inr) .inr
      · rw [Bool.or_eq_true]
        exact .inr (hbad.2 h)
  · obtain ⟨hsame, hother, hmem⟩ := writeQctl_disable (s := s) (q := q) hv
    exact ⟨_, hexec, by rw [hsame], hother, hmem⟩

end

end Sys2Proof.Machine
end

section
/-! PROOF. A context that is created (03 R69), and one that is destroyed with everything of it (03 R70). -/

namespace Sys2Proof.Machine

open Sys2Proof

section
variable {s u v : State} {n : Nat}

/-! ## Creation -/

theorem exec_contextCreate (harg : s.arg = .num n) (hn : n < 64) (hup : s.host.welomUp = true)
    (hready : s.package.phase = .ready) : exec .contextCreate s = .next (s.createCtx n) := by
  have hexec : exec .contextCreate s = execContextCreate s := rfl
  rw [hexec, execContextCreate, harg]
  dsimp only
  rw [State.whenCtxBar, if_pos hn, whenBar_open _ hup hready]

theorem exec_contextDestroy (harg : s.arg = .num n) (hn : n < 64) (hup : s.host.welomUp = true)
    (hready : s.package.phase = .ready) : exec .contextDestroy s = .next (s.destroyCtx n) := by
  have hexec : exec .contextDestroy s = execContextDestroy s := rfl
  rw [hexec, execContextDestroy, harg]
  dsimp only
  rw [State.whenCtxBar, if_pos hn, whenBar_open _ hup hready]

theorem sent_foldl {α : Type} (f : State → α → State) (h : ∀ s a, Sent s (f s a)) (l : List α) (s : State) :
    Sent s (l.foldl f s) := by
  induction l generalizing s with
  | nil => exact Sent.refl s
  | cons a l ih => exact (h s a).trans (ih _)

theorem sent_postFree (s : State) (i : Instr) (a : EvArg) : Sent s (s.postFree i a) :=
  (sent_bumpFree s 1).trans (sent_post _ _ _ _)

/-- A key is loaded into controllers: the slot has one, each controller's load is on its way, and all but the package
stands. -/
structure KeyLoaded (s u : State) (slot : Nat) (ctls : List Nat) : Prop where
  key : (u.package.keys.find? slot).isSome = true
  loads : ∀ k ∈ ctls, (⟨slot, k, 0, s.time + keyLoadUnits⟩ : KeyLoad) ∈ u.package.keyLoads
  host : u.host = s.host
  cores : u.cores = s.cores
  mem : u.mem = s.mem

theorem keyLoaded_loadKey (s : State) (slot : Nat) (ctls : List Nat) : KeyLoaded s (s.loadKey slot ctls) slot ctls := by
  have hsent (v : State) : Sent v (ctls.foldl (fun s c => s.sendKey slot c) v) :=
    sent_foldl _ (fun s c => (sent_postFree s _ _).trans (sent_postTime _ _ _ _)) ctls v
  have hload {k : Nat} (hk : k ∈ ctls) (l : List KeyLoad) : (⟨slot, k, 0, s.time + keyLoadUnits⟩ : KeyLoad) ∈
      l ++ ctls.map fun c => { keySlot := slot, ctl := c, resends := 0, deadline := s.time + keyLoadUnits } :=
    List.mem_append.2 (.inr (List.mem_map.2 ⟨k, hk, rfl⟩))
  rcases hkey : s.package.keys.find? slot with _ | key <;>
    simp only [State.loadKey, State.onPackage, hkey]
  · refine ⟨?_, fun k hk => ?_, (hsent _).host, (hsent _).cores, (hsent _).mem⟩
    · rw [(hsent _).package]
      exact Option.isSome_iff_exists.2 ⟨_, Tbl.find?_put_same _ _ _⟩
    · rw [(hsent _).package]
      exact hload hk _
  · refine ⟨?_, fun k hk => ?_, (hsent _).host, (hsent _).cores, (hsent _).mem⟩
    · rw [(hsent _).package, hkey, Option.isSome_some]
    · rw [(hsent _).package]
      exact hload hk _

/-- No translation of an ASID is left. -/
theorem tlbDrop_gone (asid : BitVec 16) (l : List TlbEnt) : ∀ x ∈ tlbDrop asid none l, x.asid ≠ asid := fun x hx h => by
  have := (List.mem_filter.1 hx).2
  simp [h, inTlbRange] at this

/-- Is the ASID of a context in use in another? -/
def State.AsidTaken (s : State) (n : Nat) : Prop :=
  ∃ m, m < 64 ∧ m ≠ n ∧ (s.ctx m).phase ≠ .free ∧ (s.ctx m).asid = (s.ctx n).asid

theorem asidTaken_iff : s.AsidTaken n ↔ ((List.range 64).any fun m =>
    m != n && (s.ctx m).phase != .free && (s.ctx m).asid == (s.ctx n).asid) = true := by
  simp [State.AsidTaken, and_assoc]

theorem createCtx_taken (hfree : (s.ctx n).phase = .free) (ht : s.AsidTaken n) :
    s.createCtx n = s.modCtx n fun c => { c with dupasid := true } := by
  rw [State.createCtx]
  dsimp only
  rw [if_neg (not_not_intro hfree), if_pos (asidTaken_iff.1 ht)]

theorem createCtx_creates (hfree : (s.ctx n).phase = .free) (ht : ¬s.AsidTaken n) :
    ((s.createCtx n).ctx n).phase = .creating ∧ ((s.createCtx n).package.keys.find? (n + 1)).isSome = true ∧
    (∀ k ∈ controllers, (⟨n + 1, k, 0, s.time + keyLoadUnits⟩ : KeyLoad) ∈ (s.createCtx n).package.keyLoads) ∧
    (∀ x ∈ (s.createCtx n).cores.fabricTlb, x.asid ≠ (s.ctx n).asid) ∧ (s.createCtx n).mem = s.mem := by
  let s1 := s.modCtx n fun c => { c with phase := .creating, hot := [], vdcnt := 0 }
  have heq : s.createCtx n =
      ((s1.loadKey (n + 1) controllers).tlbDropAll (s.ctx n).asid none).icacheDrop (s.ctx n).asid := by
    rw [State.createCtx]
    dsimp only
    rw [if_neg (not_not_intro hfree), if_neg (asidTaken_iff.not.1 ht)]
  obtain ⟨hkey, hloads, hhost, _, hmem⟩ := keyLoaded_loadKey s1 (n + 1) controllers
  have hctx : ((s1.loadKey (n + 1) controllers).ctx n).phase = .creating := by
    rw [State.ctx, hhost, ← State.ctx, State.ctx_modCtx_same]
  rw [heq]
  exact ⟨hctx, hkey, hloads, tlbDrop_gone _ _, hmem⟩

theorem createCtx_refused (h : (s.ctx n).phase ≠ .free) : s.createCtx n = s := by
  rw [State.createCtx]
  exact if_pos h

/-! ## Cards that are killed (03 R70 steps 1 and 2) -/

/-- Cards have been killed: each is found again, KILLED where it was, and the runners and the contexts' phases stand. -/
structure Killed (s u : State) : Prop where
  cards : ∀ x ∈ s.host.cards, ∃ y ∈ u.host.cards, y.id = x.id ∧ (x.status = some (2, 0, 0) → y.status = some (2, 0, 0))
  runners : u.host.runners = s.host.runners
  phase : ∀ m, (u.ctx m).phase = (s.ctx m).phase
  asid : ∀ m, (u.ctx m).asid = (s.ctx m).asid

theorem CoachKept.killed (h : CoachKept s u) : Killed s u :=
  ⟨fun x hx => ⟨x, by rw [h.cards]; exact hx, rfl, id⟩, h.runners, h.phase, h.asid⟩

theorem Killed.trans (h : Killed s u) (k : Killed u v) : Killed s v where
  cards x hx := by
    obtain ⟨y, hy, hyx, hys⟩ := h.cards x hx
    obtain ⟨z, hz, hzy, hzs⟩ := k.cards y hy
    exact ⟨z, hz, hzy.trans hyx, hzs ∘ hys⟩
  runners := k.runners.trans h.runners
  phase m := (k.phase m).trans (h.phase m)
  asid m := (k.asid m).trans (h.asid m)

theorem killed_modCard (s : State) (k : Nat) {f : Card → Card} (hid : ∀ x, (f x).id = x.id)
    (hf : ∀ x, x.status = some (2, 0, 0) → (f x).status = some (2, 0, 0)) : Killed s (s.modCard k f) := by
  refine ⟨fun x hx => ?_, rfl, fun _ => rfl, fun _ => rfl⟩
  by_cases h : x.id = k
  · exact ⟨f x, mem_modCard_same hx h, hid x, hf x⟩
  · exact ⟨x, mem_modCard_other hx h, rfl, id⟩

theorem killed_killCard (s : State) (c : Card) : Killed s (s.killCard c) := by
  unfold State.killCard
  split
  · exact (CoachKept.refl s).killed
  · split
    · next l _ =>
      have hedges : Killed s (s.modCard c.id fun c => { c with edges := [] }) :=
        killed_modCard s c.id (fun _ => rfl) fun _ h => h
      have hends (v : State) (f : Launch → Launch) : Killed v ((v.modLaunch l.lnum f).endLaunchTasks l.lnum 0) :=
        ((coachKept_of_host (State.modLaunch_host v _ _)).trans (coachKept_endLaunchTasks _ _ 0)).killed
      have hretires (v : State) (f : Launch → Launch) :
          Killed v (((v.closeBells l.lnum).modLaunch l.lnum f).post 0 .cardComplete (.num c.id)) := by
        have hkept : CoachKept v (((v.closeBells l.lnum).modLaunch l.lnum f).post 0 .cardComplete (.num c.id)) :=
          coachKept_of_host rfl
        exact hkept.killed
      dsimp only
      split
      · exact hedges.trans (hends _ _)
      · exact (hedges.trans (hends _ _)).trans (hretires _ _)
    · split
      · exact (CoachKept.refl s).killed
      · have hunwait (f : List Nat → List Nat) :
            CoachKept s (s.onHost fun h => { h with driveWaiting := f h.driveWaiting }) :=
          ⟨⟨_, _, _, _, _, _, _, rfl⟩, fun _ => rfl, fun _ => rfl⟩
        have hend (v : State) : Killed v (v.endCard c.id 2 0 0) :=
          (killed_modCard v c.id (fun _ => by rfl) fun _ _ => by rfl).trans (sent_post _ _ _ _).coachKept.killed
        exact (hunwait fun l => l.filter (· != c.id)).killed.trans (hend _)

/-- A card that has no launch and no runner, and has not ended, ends KILLED. -/
theorem killCard_ends {d : Card} (hstatus : d.status = none) (hlnum : d.lnum = none)
    (hrun : ∀ r ∈ s.host.runners, r.2.card ≠ d.id) (hd : ∃ x ∈ s.host.cards, x.id = d.id) :
    ∃ y ∈ (s.killCard d).host.cards, y.id = d.id ∧ y.status = some (2, 0, 0) := by
  obtain ⟨x, hx, hxd⟩ := hd
  have hnorun : (s.host.runners.any fun r => r.2.card == d.id) = false := by
    simpa using hrun
  have heq : s.killCard d =
      (s.onHost fun h => { h with driveWaiting := h.driveWaiting.filter (· != d.id) }).endCard d.id 2 0 0 := by
    simp only [State.killCard, hstatus, hlnum, hnorun, Option.isSome_none, Option.bind_none, Bool.false_eq_true, if_false]
  rw [heq]
  exact ⟨_, mem_modCard_same hx hxd, hxd, rfl⟩

theorem killed_foldl (l : List Card) (s : State) : Killed s (l.foldl (fun s c => s.killCard c) s) := by
  induction l generalizing s with
  | nil => exact (CoachKept.refl s).killed
  | cons c l ih => exact (killed_killCard s c).trans (ih _)

theorem killCards_end {d : Card} (hstatus : d.status = none) (hlnum : d.lnum = none) (l : List Card) (hdl : d ∈ l) (s : State)
    (hrun : ∀ r ∈ s.host.runners, r.2.card ≠ d.id) (hd : ∃ x ∈ s.host.cards, x.id = d.id) :
    ∃ y ∈ (l.foldl (fun s c => s.killCard c) s).host.cards, y.id = d.id ∧ y.status = some (2, 0, 0) := by
  induction l generalizing s with
  | nil => exact nomatch hdl
  | cons c l ih =>
    rcases List.mem_cons.1 hdl with rfl | hdl
    · obtain ⟨x, hx, hxd, hxs⟩ := killCard_ends hstatus hlnum hrun hd
      obtain ⟨y, hy, hyx, hys⟩ := (killed_foldl l (s.killCard d)).cards x hx
      exact ⟨y, hy, hyx.trans hxd, hys hxs⟩
    · have hone := killed_killCard s c
      obtain ⟨x, hx, hxd⟩ := hd
      obtain ⟨y, hy, hyx, _⟩ := hone.cards x hx
      exact ih hdl _ (by rw [hone.runners]; exact hrun) ⟨y, hy, hyx.trans hxd⟩

/-- The runners that end keep their cards. -/
theorem killRunner_card {k : Nat} (h : ∀ r ∈ s.host.runners, r.2.card ≠ k) :
    ∀ r ∈ (s.killRunner n).host.runners, r.2.card ≠ k := by
  intro r hr
  obtain ⟨⟨i, x⟩, hx, rfl⟩ := List.mem_map.1 hr
  have hne := h _ hx
  dsimp only
  split <;> exact hne

/-- The context is DESTROYING, its runner ends, and its cards are killed. -/
def State.cardsKilled (s : State) (n : Nat) : State :=
  let s1 := (s.modCtx n fun c => { c with phase := .destroying }).killRunner n
  (s1.host.cards.filter fun c => c.ctx == n).foldl (fun s c => s.killCard c) s1

theorem cardsKilled_ctx (s : State) (n : Nat) :
    ((s.cardsKilled n).ctx n).phase = .destroying ∧ ((s.cardsKilled n).ctx n).asid = (s.ctx n).asid := by
  obtain ⟨_, _, hphase, hasid⟩ := killed_foldl
    (((s.modCtx n fun c => { c with phase := .destroying }).killRunner n).host.cards.filter fun c => c.ctx == n)
    ((s.modCtx n fun c => { c with phase := .destroying }).killRunner n)
  have hrunner (v : State) : (v.killRunner n).ctx n = v.ctx n := rfl
  refine ⟨(hphase n).trans ?_, (hasid n).trans ?_⟩ <;> rw [hrunner, State.ctx_modCtx_same]

theorem cardsKilled_ends {d : Card} (hd : d ∈ s.host.cards) (hdn : d.ctx = n) (hstatus : d.status = none)
    (hlnum : d.lnum = none) (hrun : ∀ r ∈ s.host.runners, r.2.card ≠ d.id) :
    ∃ y ∈ (s.cardsKilled n).host.cards, y.id = d.id ∧ y.status = some (2, 0, 0) :=
  killCards_end hstatus hlnum _ (List.mem_filter.2 ⟨hd, by simpa using hdn⟩) _
    (killRunner_card (s := s.modCtx n fun c => { c with phase := .destroying }) hrun) ⟨d, hd, rfl⟩

/-! ## What else a context leaves (03 R70 steps 3 to 5) -/

/-- The context's operations have stopped. -/
theorem stopOps_ended (s : State) (n : Nat) :
    CoachKept s (s.stopOps n) ∧ ∀ x ∈ (s.stopOps n).engines.ops, x.ctx = n → x.ended = true := by
  have haborts (v : State) (l : List EngineOp) : CoachKept v (l.foldl (fun s o =>
      match o.coll with
      | some c => s.sendAborts o.die c
      | none => s) v) :=
    coachKept_foldl _ (fun s o => by
      split
      · next c _ => exact (sent_foldl _ (fun s m => sent_sendPacket s o.die _) _ s).coachKept
      · exact CoachKept.refl s) l v
  have hentries (v : State) (l : List EngineOp) : CoachKept v (l.foldl (fun s o =>
      match o.driveKey with
      | some k => s.onHost fun h => { h with driveEntries := h.driveEntries.put k (h.driveEntries.getD 0 k - 1) }
      | none => s) v) :=
    coachKept_foldl _ (fun s o => by
      split
      · exact ⟨⟨_, _, _, _, _, _, _, rfl⟩, fun _ => rfl, fun _ => rfl⟩
      · exact CoachKept.refl s) l v
  refine ⟨((haborts s _).trans (hentries _ _)).trans (coachKept_of_host rfl), fun x hx hxn => ?_⟩
  obtain ⟨o, _, rfl⟩ := List.mem_map.1 hx
  split at hxn
  · next h => rw [if_pos h]
  · next h => exact absurd hxn (by simpa using h)

theorem dropTargetWaits_kept (s : State) (n : Nat) :
    (s.dropTargetWaits n).host = s.host ∧ (s.dropTargetWaits n).engines = s.engines := by
  have hall (l : List TargetWait) (v : State) :
      (l.foldl (fun s w => (s.unwait w.pkt).deliver w.hub w.pkt) v).host = v.host ∧
      (l.foldl (fun s w => (s.unwait w.pkt).deliver w.hub w.pkt) v).engines = v.engines := by
    induction l generalizing v with
    | nil => exact ⟨rfl, rfl⟩
    | cons w l ih =>
      have hsent := sent_deliver (v.unwait w.pkt) w.hub w.pkt
      obtain ⟨hhost, hengines⟩ := ih ((v.unwait w.pkt).deliver w.hub w.pkt)
      exact ⟨hhost.trans hsent.host, hengines.trans hsent.engines⟩
  exact hall _ s

theorem clearCtx_host (s : State) (n : Nat) :
    (s.clearCtx n).host = { s.host with images := s.host.images.filter fun i => i.1 != n } := rfl

theorem coachKept_clearCtx (s : State) (n : Nat) : CoachKept s (s.clearCtx n) where
  host := ⟨_, _, _, _, _, _, _, clearCtx_host s n⟩
  phase _ := by rw [State.ctx, State.ctx, clearCtx_host]
  asid _ := by rw [State.ctx, State.ctx, clearCtx_host]

theorem clearCtx_fabricTlb (s : State) (n : Nat) :
    (s.clearCtx n).cores.fabricTlb = tlbDrop (s.ctx n).asid none s.cores.fabricTlb := rfl

theorem clearCtx_pins (s : State) (n : Nat) : (s.clearCtx n).mem.pins = s.mem.pins.filter fun p => p.2.1 != n := rfl

theorem clearCtx_ops (s : State) (n : Nat) : (s.clearCtx n).engines.ops = s.engines.ops := rfl

/-- What a context leaves behind is cleared (03 R70 steps 3 and 4). -/
def State.leftBehind (s : State) (n : Nat) : State := ((s.stopOps n).dropTargetWaits n).clearCtx n

/-- Nothing of a context is left in the TLBs of the hubs, the pins and the running operations. -/
structure LeftBehind (s u : State) (n : Nat) : Prop where
  kept : CoachKept s u
  tlb : ∀ x ∈ u.cores.fabricTlb, x.asid ≠ (s.ctx n).asid
  pins : ∀ x ∈ u.mem.pins, x.2.1 ≠ n
  ops : ∀ x ∈ u.engines.ops, x.ctx = n → x.ended = true

theorem leftBehind_clears (s : State) (n : Nat) : LeftBehind s (s.leftBehind n) n := by
  obtain ⟨hstop, hended⟩ := stopOps_ended s n
  obtain ⟨hhost, hengines⟩ := dropTargetWaits_kept (s.stopOps n) n
  have hkept : CoachKept s ((s.stopOps n).dropTargetWaits n) := hstop.trans (coachKept_of_host hhost)
  refine ⟨hkept.trans (coachKept_clearCtx _ n), ?_, fun x hx => ?_, ?_⟩
  · rw [State.leftBehind, clearCtx_fabricTlb, hkept.asid]
    exact tlbDrop_gone _ _
  · rw [State.leftBehind, clearCtx_pins] at hx
    simpa using (List.mem_filter.1 hx).2
  · rw [State.leftBehind, clearCtx_ops, hengines]
    exact hended

/-- A context's destruction: its cards first, then what it leaves behind, then its key. -/
structure Destroyed (s u : State) (n : Nat) : Prop where
  phase : (u.ctx n).phase = .destroying
  key : u.package.keys.find? (n + 1) = none
  zeroising : ∀ k ∈ controllers, (n + 1, k) ∈ u.package.zeroising
  tlb : ∀ x ∈ u.cores.fabricTlb, x.asid ≠ (s.ctx n).asid
  pins : ∀ x ∈ u.mem.pins, x.2.1 ≠ n
  ops : ∀ x ∈ u.engines.ops, x.ctx = n → x.ended = true
  cards : ∀ d ∈ s.host.cards, d.ctx = n → d.status = none → d.lnum = none → (∀ r ∈ s.host.runners, r.2.card ≠ d.id) →
    ∃ y ∈ u.host.cards, y.id = d.id ∧ y.status = some (2, 0, 0)

theorem destroyCtx_eq (hlive : (s.ctx n).phase = .live) : s.destroyCtx n =
    controllers.foldl (fun s k => s.postFree .keyZeroiseConfirm (.num2 (n + 1) k))
      (((s.cardsKilled n).leftBehind n).onPackage fun p =>
        { p with keys := p.keys.del (n + 1), zeroising := p.zeroising ++ controllers.map fun k => (n + 1, k) }) := by
  rw [State.destroyCtx, if_neg (not_not_intro hlive)]
  rfl

theorem destroyCtx_destroys (hlive : (s.ctx n).phase = .live) : Destroyed s (s.destroyCtx n) n := by
  obtain ⟨hphase, hasid⟩ := cardsKilled_ctx s n
  obtain ⟨hkept, htlb, hpins, hops⟩ := leftBehind_clears (s.cardsKilled n) n
  have hcards := hkept.cards
  have hphase3 := hkept.phase n
  rw [destroyCtx_eq hlive]
  generalize (s.cardsKilled n).leftBehind n = v at *
  have hsent := sent_foldl (fun s k => s.postFree .keyZeroiseConfirm (.num2 (n + 1) k)) (fun s k => sent_postFree s _ _)
    controllers (v.onPackage fun p =>
      { p with keys := p.keys.del (n + 1), zeroising := p.zeroising ++ controllers.map fun k => (n + 1, k) })
  refine ⟨?_, ?_, fun k hk => ?_, ?_, ?_, ?_, fun d hd hdn hstatus hlnum hrun => ?_⟩
  · rw [State.ctx, hsent.host]
    exact hphase3.trans hphase
  · rw [hsent.package]
    exact Tbl.find?_del_same _ _
  · rw [hsent.package]
    exact List.mem_append.2 (.inr (List.mem_map.2 ⟨k, hk, rfl⟩))
  · rw [hsent.cores, ← hasid]
    exact htlb
  · rw [hsent.mem]
    exact hpins
  · rw [hsent.engines]
    exact hops
  · rw [hsent.host]
    obtain ⟨y, hy, hyd⟩ := cardsKilled_ends hd hdn hstatus hlnum hrun
    exact ⟨y, by rw [State.onPackage_host, hcards]; exact hy, hyd⟩

theorem destroyCtx_refused (h : (s.ctx n).phase ≠ .live) : s.destroyCtx n = s := by
  rw [State.destroyCtx]
  exact if_pos h

end

theorem queueContextRules : Claim.QueueContextRules := by
  intro s hup hready
  refine ⟨fun q a v harg hq => queueEnable_rules harg hq hup hready, fun n harg hn => ?_⟩
  have hcreate := exec_contextCreate harg hn hup hready
  have hdestroy := exec_contextDestroy harg hn hup hready
  refine ⟨fun hfree ht => ?_, fun hfree ht => ?_, fun hlive => ?_, fun h => ?_, fun h => ?_⟩
  · rw [hcreate, createCtx_taken hfree ht]
  · exact ⟨_, hcreate, createCtx_creates hfree ht⟩
  · obtain ⟨hphase, hkey, hzero, htlb, hpins, hops, hcards⟩ := destroyCtx_destroys hlive
    exact ⟨_, hdestroy, hphase, hkey, hzero, htlb, hpins, hops, hcards⟩
  · rw [hcreate, createCtx_refused h]
  · rw [hdestroy, destroyCtx_refused h]

end Sys2Proof.Machine
end

section
/-! PROOF. The Coachman's reads see what it has not changed: queues, cards and validated images, and the instruction caches,
take no part in them (03 R81, R439). -/

namespace Sys2Proof.Machine

open Sys2Proof

/-- Queues, their turns, cards and images may differ, and in the cores what holds no allocation. -/
structure CoachReads (s v : State) : Prop where
  shape : ∃ queues rr nextRead cards nextCard images cores, v = { s with
    host := { s.host with
      queues := queues, rr := rr, nextRead := nextRead, cards := cards, nextCard := nextCard, images := images }
    cores := { s.cores with cores := cores } }
  allocs : ∀ c, (v.core c).allocs = (s.core c).allocs

section
variable {s u v : State}

theorem CoachReads.trans (h : CoachReads s u) (k : CoachReads u v) : CoachReads s v where
  shape := by
    obtain ⟨_, _, _, _, _, _, _, rfl⟩ := h.shape
    obtain ⟨_, _, _, _, _, _, _, rfl⟩ := k.shape
    exact ⟨_, _, _, _, _, _, _, rfl⟩
  allocs c := (k.allocs c).trans (h.allocs c)

theorem CoachReads.ctx (h : CoachReads s v) (n : Nat) : v.ctx n = s.ctx n := by
  obtain ⟨_, _, _, _, _, _, _, rfl⟩ := h.shape; rfl

theorem CoachReads.nextLnum (h : CoachReads s v) : v.nextLnum = s.nextLnum := by
  obtain ⟨_, _, _, _, _, _, _, rfl⟩ := h.shape; rfl

/-! ## Memory -/

theorem CoachReads.physExists (h : CoachReads s v) : physExists v = physExists s := by
  obtain ⟨_, _, _, _, _, _, _, rfl⟩ := h.shape; rfl

theorem CoachReads.physRead (h : CoachReads s v) (slot pa n : Nat) : (v.physRead slot pa n).1 = (s.physRead slot pa n).1 := by
  obtain ⟨_, _, _, _, _, _, _, rfl⟩ := h.shape; rfl

theorem CoachReads.sramRead (h : CoachReads s v) : v.sramRead = s.sramRead := by
  obtain ⟨_, _, _, _, _, _, _, rfl⟩ := h.shape; rfl

theorem CoachReads.locPoison (h : CoachReads s v) : v.locPoison = s.locPoison := by
  obtain ⟨_, _, _, _, _, _, _, rfl⟩ := h.shape; rfl

theorem CoachReads.checkScratch (h : CoachReads s v) : v.checkScratch = s.checkScratch := by
  have hcovered : v.scratchCovered = s.scratchCovered := by
    funext ctx core off n
    simp only [State.scratchCovered, h.allocs]
  funext ctx va n
  simp only [State.checkScratch, hcovered]

theorem CoachReads.heapCheck (h : CoachReads s v) : heapCheck v = heapCheck s := by
  obtain ⟨_, _, _, _, _, _, _, rfl⟩ := h.shape; rfl

theorem CoachReads.leafCheck (h : CoachReads s v) : leafCheck v = leafCheck s := by
  obtain ⟨_, _, _, _, _, _, _, rfl⟩ := h.shape; rfl

/-! ## Walks and reads of a context -/

theorem CoachReads.walkFrom (h : CoachReads s v) (va n node : Nat) : v.walkFrom va n node = s.walkFrom va n node := by
  induction n generalizing node with
  | zero => rfl
  | succ n ih => simp only [State.walkFrom, h.physExists, h.physRead, ih]

theorem CoachReads.ctxAccess (h : CoachReads s v) : v.ctxAccess = s.ctxAccess := by
  funext ctx va n kind
  simp only [State.ctxAccess, State.walk, h.checkScratch, h.heapCheck, h.leafCheck, h.walkFrom, h.ctx]

theorem CoachReads.coachPage (h : CoachReads s v) : v.coachPage = s.coachPage := by
  funext ctx va n
  simp only [State.coachPage, h.ctxAccess, h.locPoison, h.physRead, h.sramRead]

theorem CoachReads.coachReadAt (h : CoachReads s v) (ctx va n done fuel : Nat) :
    v.coachReadAt ctx va n done fuel = s.coachReadAt ctx va n done fuel := by
  induction fuel generalizing va n done with
  | zero => rfl
  | succ fuel ih => simp only [State.coachReadAt, h.coachPage, ih]

theorem CoachReads.coachRead (h : CoachReads s v) : v.coachRead = s.coachRead := by
  funext ctx va n
  exact h.coachReadAt ctx va n 0 _

/-! ## Images and geometry -/

theorem CoachReads.imgRead (h : CoachReads s v) : v.imgRead = s.imgRead := by
  funext ctx at_ off n
  simp only [State.imgRead, h.coachRead]

theorem CoachReads.entryTables (h : CoachReads s v) : v.entryTables = s.entryTables := by
  funext ctx at_ nk size l
  induction l with
  | nil => rfl
  | cons x l ih => simp only [State.entryTables, h.imgRead, ih]

theorem CoachReads.featureWord (h : CoachReads s v) : v.featureWord = s.featureWord := by
  obtain ⟨_, _, _, _, _, _, _, rfl⟩ := h.shape; rfl

theorem CoachReads.checkImage (h : CoachReads s v) (himages : v.host.images = s.host.images) : v.checkImage = s.checkImage := by
  have hcrc : v.imgCrc = s.imgCrc := by
    funext ctx at_ size check
    simp only [State.imgCrc, himages, h.imgRead]
  funext ctx at_ k
  simp only [State.checkImage, h.imgRead, h.entryTables, hcrc, h.featureWord]

theorem CoachReads.readGeometry (h : CoachReads s v) : v.readGeometry = s.readGeometry := by
  have hcap : v.scrCap = s.scrCap := by
    obtain ⟨_, _, _, _, _, _, _, rfl⟩ := h.shape; rfl
  funext ctx g n k
  simp only [State.readGeometry, h.coachRead, h.ctx, hcap]

/-- The cache of validated images takes no part in a read. -/
theorem coachReads_imageValid (s : State) (ctx at_ : Nat) (check : BitVec 32) : CoachReads s (s.imageValid ctx at_ check) := by
  unfold State.imageValid
  split
  · exact ⟨⟨_, _, _, _, _, _, _, rfl⟩, fun _ => rfl⟩
  · refine ⟨⟨_, _, _, _, _, _, _, rfl⟩, fun c => ?_⟩
    have hcore (v : State) (a : BitVec 16) : ((v.icacheDrop a).core c).allocs = (v.core c).allocs := by
      have hmap := Tbl.find?_map v.cores.cores (fun _ x => { x with icache := x.icache.filter (·.1 != a) }) c
      simp only [State.core, Tbl.getD]
      exact (congrArg (fun o : Option CoreSt => (o.getD {}).allocs) hmap).trans (by cases v.cores.cores.find? c <;> rfl)
    exact hcore _ _

end

end Sys2Proof.Machine
end

section
/-! PROOF. The next card of the queue whose turn it is (03 R72, R73): it is read, or the queue overruns; and what each kind of
card leads to (03 R74 to R76, R81; 04 R95, R96). -/

namespace Sys2Proof.Machine

open Sys2Proof

section
variable {s u v : State} {q : Nat} {b : BitVec 512}

/-! ## A card that waits on no edge -/

/-- The card read from a queue's slot. -/
def State.cardAt (s : State) (q : Nat) (b : BitVec 512) (edges : List Nat) : Card :=
  { id := s.host.nextCard, queue := q, ctx := (s.queue q).ctx.toNat, pos := (s.queue q).rd, bits := b, edges := edges }

/-- The state once a card read from a queue stands among the cards. -/
def State.entered (s : State) (q : Nat) (c : Card) : State :=
  ((s.countTurn q).modQueue q fun x => { x with rd := x.rd + 1 }).onHost fun h =>
    { h with nextCard := h.nextCard + 1, cards := h.cards ++ [c] }

/-- The card read, where it waits on no edge. -/
def State.newCard (s : State) (q : Nat) (b : BitVec 512) : Card := s.cardAt q b []

/-- The state once that card stands among the cards. -/
def State.taken (s : State) (q : Nat) (b : BitVec 512) : State := s.entered q (s.newCard q b)

/-- A card enters a list that has none of its number, and is set. -/
theorem cards_append_set {l : List Card} {c c' : Card} (hfresh : ∀ x ∈ l, x.id ≠ c.id) :
    ((l ++ [c]).map fun x => if x.id == c.id then c' else x) = l ++ [c'] := by
  rw [List.map_append, List.map_singleton, if_pos (beq_self_eq_true _)]
  congr 1
  refine (List.map_congr_left fun x hx => ?_).trans (List.map_id l)
  exact if_neg (by simpa using hfresh x hx)

theorem takeCard_eq (hturn : s.cardTurn = some q)
    (hroom : ((s.queue q).wr - (s.queue q).rd).toNat ≤ 2 ^ (s.queue q).log2.toNat) (hpeek : s.peekCard q = some b) (f : State → Card → State) :
    let c := s.cardAt q b (List.range (min (cardNdep b) 8))
    let c1 := if cardOk b then (s.entered q c).meetEdges c else s.newCard q b
    s.takeCard q f = (f ((s.entered q c).modCard s.host.nextCard fun _ => c1) c1).settleEdges := by
  dsimp only
  unfold State.takeCard
  rw [if_neg (not_not_intro hturn)]
  dsimp only
  rw [if_neg (Nat.not_lt.2 hroom), hpeek]
  rfl

theorem entered_set (hfresh : ∀ c ∈ s.host.cards, c.id ≠ s.host.nextCard) (edges : List Nat) :
    ((s.entered q (s.cardAt q b edges)).modCard s.host.nextCard fun _ => s.newCard q b) = s.taken q b := by
  have hcards := cards_append_set (l := s.host.cards) (c := s.cardAt q b edges) (c' := s.newCard q b) hfresh
  exact congrArg (fun l => { (s.taken q b) with host := { (s.taken q b).host with cards := l } }) hcards

theorem takeCard_reads (hturn : s.cardTurn = some q)
    (hroom : ((s.queue q).wr - (s.queue q).rd).toNat ≤ 2 ^ (s.queue q).log2.toNat) (hpeek : s.peekCard q = some b) (hedges : cardOk b = false ∨ cardNdep b = 0)
    (hfresh : ∀ c ∈ s.host.cards, c.id ≠ s.host.nextCard) (f : State → Card → State) :
    s.takeCard q f = (f (s.taken q b) (s.newCard q b)).settleEdges := by
  have hset (v : State) : (if cardOk b then v.meetEdges (s.cardAt q b (List.range (min (cardNdep b) 8))) else s.newCard q b) =
      s.newCard q b := by
    rcases hedges with hok | hnone
    · rw [hok]
      rfl
    · rw [hnone]
      exact ite_self _
  have heq := takeCard_eq hturn hroom hpeek f
  dsimp only at heq
  rw [heq, hset, entered_set hfresh]

/-- The card has been read: it is the last of the cards, and what the Coachman reads is as it was. -/
structure Took (s v : State) (q : Nat) (b : BitVec 512) : Prop where
  queue : v.queue q = { s.queue q with rd := (s.queue q).rd + 1 }
  nextRead : v.host.nextRead = s.cycle + 32
  nextCard : v.host.nextCard = s.host.nextCard + 1
  cards : v.host.cards = s.host.cards ++ [s.newCard q b]
  reads : CoachReads s v

theorem took_taken (s : State) (q : Nat) (b : BitVec 512) : Took s (s.taken q b) q b where
  queue := queue_modQueue_same (s.countTurn q) q fun x => { x with rd := x.rd + 1 }
  nextRead := rfl
  nextCard := rfl
  cards := rfl
  reads := ⟨⟨_, _, _, _, _, _, _, rfl⟩, fun _ => rfl⟩

theorem imageValid_host (s : State) (ctx at_ : Nat) (check : BitVec 32) :
    ∃ images, (s.imageValid ctx at_ check).host = { s.host with images := images } := by
  unfold State.imageValid
  split
  · exact ⟨_, rfl⟩
  · exact ⟨_, rfl⟩

theorem Took.imageValid (h : Took s v q b) (ctx at_ : Nat) (check : BitVec 32) : Took s (v.imageValid ctx at_ check) q b := by
  obtain ⟨images, hhost⟩ := imageValid_host v ctx at_ check
  obtain ⟨hqueue, hread, hcard, hcards, hreads⟩ := h
  refine ⟨?_, ?_, ?_, ?_, hreads.trans (coachReads_imageValid v ctx at_ check)⟩
  · rw [State.queue, hhost]
    exact hqueue
  all_goals
    rw [hhost]
    assumption

/-- What the reading of a card leaves of its queue, the Coachman's clock and the numbers of cards. -/
structure CardRead (s u : State) (q : Nat) : Prop where
  rd : (u.queue q).rd = (s.queue q).rd + 1
  nextRead : u.host.nextRead = s.cycle + 32
  nextCard : u.host.nextCard = s.host.nextCard + 1

theorem Took.read (h : Took s v q b) : CardRead s v q := ⟨by rw [h.queue], h.nextRead, h.nextCard⟩

theorem CardRead.settled {P : Card → Prop} (h : CardRead s v q) (k : Settled P v u) : CardRead s u q :=
  ⟨by rw [k.queue]; exact h.rd, k.nextRead.trans h.nextRead, k.nextCard.trans h.nextCard⟩

/-- The card read has ended with a status, and its completion is due. -/
def CardEnds (s u : State) (q : Nat) (b : BitVec 512) (status : Nat) (detail : Word) : Prop :=
  CardRead s u q ∧ ∃ c k, c ∈ u.host.cards ∧ c.id = s.host.nextCard ∧ c.bits = b ∧ c.status = some (status, 0, detail) ∧
    (k, .cardComplete, .num s.host.nextCard) ∈ u.due

theorem Took.ends (h : Took s v q b) (status : Nat) (detail : Word) :
    CardEnds s (v.endCard s.host.nextCard status 0 detail).settleEdges q b status detail := by
  have hset := settled_settleEdges (v.endCard s.host.nextCard status 0 detail)
  have hmem : s.newCard q b ∈ v.host.cards := by
    rw [h.cards]
    exact List.mem_append_right _ (List.mem_singleton.2 rfl)
  have hended : { s.newCard q b with status := some (status, 0, detail) } ∈
      (v.endCard s.host.nextCard status 0 detail).host.cards :=
    mem_modCard_same (f := fun c => { c with status := some (status, 0, detail) }) hmem rfl
  obtain ⟨hrd, hread, hnext⟩ := h.read
  have hcardRead : CardRead s (v.endCard s.host.nextCard status 0 detail) q := ⟨hrd, hread, hnext⟩
  refine ⟨hcardRead.settled hset,
    { s.newCard q b with status := some (status, 0, detail) }, _, ?_, rfl, rfl, rfl, hset.due _ (mem_post_self _ _ _ _)⟩
  refine hset.card _ hended fun c ⟨hc, _, hnone⟩ hid => ?_
  obtain ⟨x, _, rfl⟩ := mem_modCard.1 hc
  split at hid
  · next hx => rw [if_pos hx] at hnone; exact nomatch hnone
  · next hx => exact hx (beq_iff_eq.2 hid)

/-! ## What the cards do -/

theorem nextKind_of_peek (hpeek : s.peekCard q = some b) : s.nextKind q = if cardOk b then cardKind b else 0 := by
  simp only [State.nextKind, hpeek]

theorem exec_jobCardLaunch (harg : s.arg = .num q) (hk : s.nextKind q = 1) :
    exec .jobCardLaunch s = .next (s.takeCard q State.launchCard) := by
  have hexec : exec .jobCardLaunch s = execJobCardLaunch s := rfl
  rw [hexec, execJobCardLaunch, harg]
  dsimp only
  rw [if_pos hk]

theorem exec_jobCardDrive (harg : s.arg = .num q) (hk : s.nextKind q = 2) :
    exec .jobCardDrive s = .next (s.takeCard q fun s c =>
      let s1 := s.onHost fun h => { h with driveWaiting := h.driveWaiting ++ [c.id] }
      if c.edges.isEmpty then s1.cardReady c else s1) := by
  have hexec : exec .jobCardDrive s = execJobCardDrive s := rfl
  rw [hexec, execJobCardDrive, harg]
  dsimp only
  rw [if_pos hk]

theorem exec_jobCardNull (harg : s.arg = .num q) (hk : s.nextKind q = 3) :
    exec .jobCardNull s = .next (s.takeCard q fun s c => if c.edges.isEmpty then s.cardReady c else s) := by
  have hexec : exec .jobCardNull s = execJobCardNull s := rfl
  rw [hexec, execJobCardNull, harg]
  dsimp only
  rw [if_pos hk]

theorem exec_jobCardInvalid (harg : s.arg = .num q) (hk : s.nextKind q = 0) :
    exec .jobCardInvalid s = .next (s.takeCard q fun s c => s.endCard c.id 6 0 0) := by
  have hexec : exec .jobCardInvalid s = execJobCardInvalid s := rfl
  rw [hexec, execJobCardInvalid, harg]
  dsimp only
  rw [if_pos hk]

/-- Each instruction of a card takes it, where its kind is next. -/
theorem exec_jobCard (harg : s.arg = .num q) {i : Instr}
    (h : (i, s.nextKind q) ∈ [(Instr.jobCardLaunch, 1), (.jobCardDrive, 2), (.jobCardNull, 3), (.jobCardInvalid, 0)]) :
    ∃ f, exec i s = .next (s.takeCard q f) := by
  simp only [List.mem_cons, Prod.mk.injEq, List.not_mem_nil, or_false] at h
  rcases h with ⟨rfl, hk⟩ | ⟨rfl, hk⟩ | ⟨rfl, hk⟩ | ⟨rfl, hk⟩
  · exact ⟨_, exec_jobCardLaunch harg hk⟩
  · exact ⟨_, exec_jobCardDrive harg hk⟩
  · exact ⟨_, exec_jobCardNull harg hk⟩
  · exact ⟨_, exec_jobCardInvalid harg hk⟩

/-! ## Overruns (03 R72, R439) -/

theorem takeCard_overruns (hturn : s.cardTurn = some q)
    (hfull : 2 ^ (s.queue q).log2.toNat < ((s.queue q).wr - (s.queue q).rd).toNat) (f : State → Card → State) :
    s.takeCard q f = (s.countTurn q).overrun q := by
  unfold State.takeCard
  rw [if_neg (not_not_intro hturn)]
  exact if_pos hfull

theorem takeCard_unread (hturn : s.cardTurn = some q)
    (hroom : ((s.queue q).wr - (s.queue q).rd).toNat ≤ 2 ^ (s.queue q).log2.toNat) (hpeek : s.peekCard q = none)
    (f : State → Card → State) :
    s.takeCard q f = ((s.countTurn q).overrun q).recordEvent 9 s.coachDie q 0 (s.queue q).slotVa := by
  unfold State.takeCard
  rw [if_neg (not_not_intro hturn)]
  dsimp only
  rw [if_neg (Nat.not_lt.2 hroom), hpeek]

theorem overrun_queue (s : State) (q : Nat) :
    ((s.overrun q).queue q).overrun = true ∧ ((s.overrun q).queue q).stopped = true := by
  rw [State.overrun, queue_modQueue_same]
  exact ⟨rfl, rfl⟩

theorem Tbl.mem_of_find? {α : Type} {t : Tbl α} {k : Nat} {x : α} (h : t.find? k = some x) : (k, x) ∈ t := by
  induction t with
  | nil => exact nomatch h
  | cons y t ih =>
    obtain ⟨i, a⟩ := y
    simp only [Tbl.find?] at h
    split at h
    · next hik =>
      obtain rfl := Option.some.inj h
      exact hik ▸ List.mem_cons_self ..
    · exact List.mem_cons_of_mem _ (ih h)

/-- Where an entry of the event table is free, the event is recorded. -/
theorem recordEvent_recorded (source die code a b : Nat)
    (hfree : ∃ i < 64, ((Tbl.find? s.host.events i).any fun e => e.valid) = false) :
    ∃ e ∈ (s.recordEvent source die code a b).host.events, e.2 =
      { source := source, die := die, code := code, time := s.sinceReset, detailA := a, detailB := b } := by
  obtain ⟨i, hi, hany⟩ := hfree
  have hfound : ((List.range 64).find? fun i => !((Tbl.find? s.host.events i).any (·.valid))).isSome = true :=
    List.find?_isSome.2 ⟨i, List.mem_range.2 hi, by simpa using hany⟩
  obtain ⟨k, hk⟩ := Option.isSome_iff_exists.1 hfound
  unfold State.recordEvent
  simp only [hk]
  exact ⟨_, Tbl.mem_of_find? (Tbl.find?_put_same _ _ _), rfl⟩

end

end Sys2Proof.Machine
end

section
/-! PROOF. What the next card of a queue leads to, by its kind (03 R74, R75, R81; 04 R95, R96, R98). -/

namespace Sys2Proof.Machine

open Sys2Proof

section
variable {s u v : State} {q : Nat} {b : BitVec 512}

/-! ## A card whose edges are met -/

theorem cardReady_null {c : Card} (hdep : c.depFailed = false) (hlnum : c.lnum = none) (hkind : cardKind c.bits = 3) :
    s.cardReady c = s.endCard c.id 0 0 0 := by
  simp only [State.cardReady, hdep, hlnum, hkind, Bool.and_false, Bool.false_eq_true, if_false]

theorem cardReady_waits {c : Card} (hdep : c.depFailed = false) (hlnum : c.lnum = none) (hkind : cardKind c.bits ≠ 3) :
    s.cardReady c = s := by
  simp only [State.cardReady, hdep, hlnum, Bool.and_false, Bool.false_eq_true, if_false]

theorem cardReady_launch {c : Card} {n : BitVec 32} (hdep : c.depFailed = false) (hlnum : c.lnum = some n) :
    s.cardReady c = s.modLaunch n fun l => if l.phase = .waiting then { l with phase := .eligible } else l := by
  simp only [State.cardReady, hdep, hlnum, Bool.and_false, Bool.false_eq_true, if_false]

/-! ## Null and drive cards -/

/-- A null card completes at once. -/
theorem nullCard_ends (hk : cardKind b = 3) (v : State) :
    (if (s.newCard q b).edges.isEmpty then v.cardReady (s.newCard q b) else v) = v.endCard s.host.nextCard 0 0 0 :=
  cardReady_null rfl rfl hk

/-- The cards that are there before the new one wait; it does not. -/
theorem Took.unsettled (h : Took s v q b) (hfresh : ∀ c ∈ s.host.cards, c.id ≠ s.host.nextCard) {c : Card}
    (hc : c ∈ v.host.cards) (hu : c.Unsettled) : c ∈ s.host.cards ∧ c.id ≠ s.host.nextCard := by
  rw [h.cards] at hc
  rcases List.mem_append.1 hc with hc | hc
  · exact ⟨hc, hfresh c hc⟩
  · obtain rfl := List.mem_singleton.1 hc
    exact absurd rfl hu.1

/-- A drive card waits for a runner (03 R85). -/
theorem Took.waits (h : Took s v q b) (hfresh : ∀ c ∈ s.host.cards, c.id ≠ s.host.nextCard) (hk : cardKind b = 2) :
    let s1 := v.onHost fun h => { h with driveWaiting := h.driveWaiting ++ [s.host.nextCard] }
    let u := (if (s.newCard q b).edges.isEmpty then s1.cardReady (s.newCard q b) else s1).settleEdges
    CardRead s u q ∧ s.host.nextCard ∈ u.host.driveWaiting := by
  intro s1 u
  have hidle : (if (s.newCard q b).edges.isEmpty then s1.cardReady (s.newCard q b) else s1) = s1 :=
    cardReady_waits rfl rfl (by rw [show (s.newCard q b).bits = b from rfl, hk]; decide)
  have hset := settled_settleEdges s1
  obtain ⟨hrd, hread, hnext⟩ := h.read
  have hcardRead : CardRead s s1 q := ⟨hrd, hread, hnext⟩
  have hu : u = s1.settleEdges := congrArg State.settleEdges hidle
  rw [hu]
  exact ⟨hcardRead.settled hset, hset.waits _ (List.mem_append_right _ (List.mem_singleton.2 rfl))
    fun c ⟨hc, hun⟩ => (h.unsettled hfresh hc hun).2⟩

/-! ## Launches -/

section
variable {c : Card} {info : ImageInfo}

/-- The address of a card's geometry record: its own, or the image's default. -/
def geomAddr (c : Card) (info : ImageInfo) : Nat := if cardField c.bits 192 64 = 0 then info.geom else cardField c.bits 192 64

theorem launchCard_badImage {status detail : Nat} (hok : cardOk c.bits = true) (hk : cardKind c.bits = 1)
    (himage : s.checkImage c.ctx (cardImage c.bits) (cardField c.bits 16 16) = .error (status, detail)) :
    s.launchCard c = s.endCard c.id status 0 (BitVec.ofNat 64 (if status = 5 then detail else 0)) := by
  simp [State.launchCard, hok, hk, himage]

theorem launchCard_badGeometry (hok : cardOk c.bits = true) (hk : cardKind c.bits = 1)
    (himage : s.checkImage c.ctx (cardImage c.bits) (cardField c.bits 16 16) = .ok info)
    (h : 2 ^ 57 ≤ cardField c.bits 192 64 ∨ s.readGeometry c.ctx (geomAddr c info) info.nstage info.scratch = none) :
    s.launchCard c = (s.imageValid c.ctx (cardImage c.bits) info.check).endCard c.id 6 0 0 := by
  have hreads := (coachReads_imageValid s c.ctx (cardImage c.bits) info.check).readGeometry
  have hnone : (if 2 ^ 57 ≤ cardField c.bits 192 64 then none else
      (s.imageValid c.ctx (cardImage c.bits) info.check).readGeometry c.ctx
        (if cardField c.bits 192 64 = 0 then info.geom else cardField c.bits 192 64 % 2 ^ 57) info.nstage info.scratch) =
      none := by
    split
    · rfl
    · next hg =>
      have hg := Nat.lt_of_not_le hg
      rw [hreads, Nat.mod_eq_of_lt hg]
      exact h.resolve_left (Nat.not_le.2 hg)
  have hbad : (!cardOk c.bits || cardKind c.bits != 1) = false := by rw [hok, hk]; rfl
  unfold State.launchCard
  simp only [hbad, himage, hnone, Bool.false_eq_true, if_false]

theorem launchCard_creates {geom : List (BitVec 64)} (hok : cardOk c.bits = true) (hk : cardKind c.bits = 1)
    (himage : s.checkImage c.ctx (cardImage c.bits) (cardField c.bits 16 16) = .ok info) (hg : cardField c.bits 192 64 < 2 ^ 57)
    (hgeom : s.readGeometry c.ctx (geomAddr c info) info.nstage info.scratch = some geom) :
    s.launchCard c = (s.imageValid c.ctx (cardImage c.bits) info.check).createLaunch c
      (min (cardField c.bits 4 3) (s.queue c.queue).prio.toNat) info geom := by
  have hreads := (coachReads_imageValid s c.ctx (cardImage c.bits) info.check).readGeometry
  have hsome : (if 2 ^ 57 ≤ cardField c.bits 192 64 then none else
      (s.imageValid c.ctx (cardImage c.bits) info.check).readGeometry c.ctx
        (if cardField c.bits 192 64 = 0 then info.geom else cardField c.bits 192 64 % 2 ^ 57) info.nstage info.scratch) =
      some geom := by
    rw [if_neg (Nat.not_le.2 hg), hreads, Nat.mod_eq_of_lt hg]
    exact hgeom
  have hbad : (!cardOk c.bits || cardKind c.bits != 1) = false := by rw [hok, hk]; rfl
  unfold State.launchCard
  simp only [hbad, himage, hsome, Bool.false_eq_true, if_false]

/-- The launch of a card, as it is created. -/
def State.newLaunch (s : State) (c : Card) (prio : Nat) (info : ImageInfo) (geom : List (BitVec 64)) : Launch :=
  { lnum := s.nextLnum, ctx := c.ctx, card := c.id, prio := prio, eff := prio, vers := c.bits.getLsbD 7
    checked := c.bits.getLsbD 8, args := BitVec.ofNat 64 (cardField c.bits 128 64), scratch := info.scratch
    stages := info.entries.zip geom, hwb := (s.ctx c.ctx).hwb, hwl := (s.ctx c.ctx).hwl, hwo := (s.ctx c.ctx).hwo
    tvec := (s.ctx c.ctx).tvec, age := (s.ctx c.ctx).age, pdl := (s.ctx c.ctx).pdl, markgap := (s.ctx c.ctx).markgap }

/-- The state once that launch and its card are entered. -/
def State.launchEntered (s : State) (c : Card) (l : Launch) : State :=
  (({ s with launches := s.launches ++ [l], nextLnum := s.nextLnum + 1 }).modCard c.id
    fun _ => { c with lnum := some s.nextLnum }).prioSoon

/-- The launch of a card that waits on no edge is eligible. -/
theorem createLaunch_eq (prio : Nat) (geom : List (BitVec 64)) (hedges : c.edges = []) (hdep : c.depFailed = false) :
    s.createLaunch c prio info geom = (s.launchEntered c (s.newLaunch c prio info geom)).modLaunch s.nextLnum
      fun l => if l.phase = .waiting then { l with phase := .eligible } else l := by
  have hready := cardReady_launch (s := s.launchEntered c (s.newLaunch c prio info geom))
    (c := { c with lnum := some s.nextLnum }) hdep rfl
  unfold State.createLaunch
  rw [← hready]
  exact if_pos (by rw [hedges]; rfl)

end

/-- The launch of the card read has been created, and is eligible. -/
theorem Took.creates (h : Took s v q b)
    (hlnum : ∀ c ∈ s.host.cards, c.lnum ≠ some s.nextLnum) (prio : Nat) (info : ImageInfo) (geom : List (BitVec 64)) :
    let u := (v.createLaunch (s.newCard q b) prio info geom).settleEdges
    CardRead s u q ∧ u.nextLnum = s.nextLnum + 1 ∧
      { v.newLaunch (s.newCard q b) prio info geom with phase := .eligible } ∈ u.launches := by
  intro u
  have hnext : v.nextLnum = s.nextLnum := h.reads.nextLnum
  let l := v.newLaunch (s.newCard q b) prio info geom
  let w := (v.launchEntered (s.newCard q b) l).modLaunch v.nextLnum fun l =>
    if l.phase = .waiting then { l with phase := .eligible } else l
  have hu : u = w.settleEdges := congrArg State.settleEdges (createLaunch_eq prio geom rfl rfl)
  have hset := settled_settleEdges w
  obtain ⟨hrd, hread, hcard⟩ := h.read
  have hcardRead : CardRead s w q := ⟨hrd, hread, hcard⟩
  have hl : { l with phase := .eligible } ∈ w.launches := by
    exact List.mem_map.2 ⟨l, List.mem_append_right _ (List.mem_singleton.2 rfl), if_pos (beq_self_eq_true _)⟩
  rw [hu]
  refine ⟨hcardRead.settled hset, ?_, hset.launch _ hl nofun fun c ⟨hc, hedges, _⟩ hcl => ?_⟩
  · rw [hset.nextLnum, ← hnext]
    rfl
  · have hcl : c.lnum = some s.nextLnum := hcl.trans (congrArg some hnext)
    obtain ⟨x, hx, rfl⟩ := mem_modCard.1 (show c ∈ (v.modCard s.host.nextCard
      fun _ => { s.newCard q b with lnum := some v.nextLnum }).host.cards from hc)
    split at hedges
    · exact hedges rfl
    · next hne =>
      rw [if_neg hne] at hcl
      rw [h.cards] at hx
      rcases List.mem_append.1 hx with hx | hx
      · exact hlnum x hx hcl
      · rw [List.mem_singleton.1 hx] at hcl
        exact nomatch hcl

end

end Sys2Proof.Machine
end

section
/-! PROOF. A card that completes (03 R77, R78): its record, then QDONE and the vector; and one whose launch's writes are still
on their way. -/

namespace Sys2Proof.Machine

open Sys2Proof

section
variable {s u v : State}

/-! ## The completion record -/

theorem coachKept_wake_fault (s : State) (tid : Word) (f : FaultRec) : CoachKept s ((s.wake tid).queueFault tid f) := by
  have hwake := (waitsEnd_wake s tid).1.coachKept
  cases ht : s.task? tid with
  | none =>
    have hnone : s.wake tid = s := by simp only [State.wake, ht]
    have hfault : s.queueFault tid f = s := by simp only [State.queueFault, ht]
    rw [hnone, hfault]
    exact CoachKept.refl s
  | some t =>
    obtain ⟨_, _, _, hy⟩ := (woken_wake ht).task t ht
    rw [queueFault_stays hy (.inr (.inl rfl))]
    exact hwake.trans (coachKept_of_host rfl)

theorem coachKept_pokeRolls (s : State) (faddr : Nat) : CoachKept s (s.pokeRolls faddr) := by
  unfold State.pokeRolls
  refine coachKept_foldl _ (fun u t => ?_) _ s
  split
  · next a id _ _ =>
    dsimp only
    split
    · exact CoachKept.refl u
    · have hland := landFor_host u t.tid id (.word (leWord ((u.sramRead (scratchCore a) (a % 2 ^ 21) 16).drop 8)))
      generalize u.landFor t.tid id _ = x at hland ⊢
      have hready : CoachKept u ((x.acquireBy t.tid (Task.onCore t) .pkg).modTask t.tid fun t => { t with redo := none }) :=
        ((coachKept_of_host hland).trans (waitsEnd_acquireBy x _ _ _).coachKept).trans (coachKept_of_host rfl)
      split
      · exact hready.trans (waitsEnd_wake _ _).1.coachKept
      · exact hready.trans (coachKept_wake_fault _ _ _)
  · exact CoachKept.refl u

theorem coachKept_locWrite (s : State) (ctx va : Nat) (loc : Loc) (bs : List Byte) (evf : Bool) :
    CoachKept s (s.locWrite ctx va loc bs evf) := by
  cases loc with
  | phys pa p e => exact (coachKept_physWrite s _ _ _).trans (noted_unitTouch _ _ _ _ _ _ _).coachKept
  | sram c o =>
    have hwrite : CoachKept s (s.sramWrite c o bs) := coachKept_of_host rfl
    exact hwrite.trans (coachKept_pokeRolls (s.sramWrite c o bs) 0)
  | peer c f va => exact CoachKept.refl s

theorem coachKept_hotSnapshot (s : State) (n : Nat) : CoachKept s (s.hotSnapshot n) := by
  unfold State.hotSnapshot
  dsimp only
  split
  · exact CoachKept.refl s
  · exact coachKept_physWrite s _ _ _

theorem coachKept_writeRecord (s : State) (c : Card) (status : Nat) (fcode : BitVec 16) (detail : Word) :
    CoachKept s (s.writeRecord c status fcode detail) := by
  have hsnap := coachKept_hotSnapshot s c.ctx
  have hfailed (v : State) (die q done : Nat) : CoachKept v (v.recordEvent 10 die q 0 done) :=
    (noted_recordEvent v _ _ _ _ _).coachKept
  unfold State.writeRecord
  dsimp only
  split
  · exact CoachKept.refl s
  · split
    · exact hsnap.trans (coachKept_physWrite _ _ _ _)
    · split
      · exact hsnap.trans (hfailed _ _ _ _)
      · exact hsnap.trans (coachKept_locWrite _ _ _ _ _ _)
      · exact hsnap.trans (hfailed _ _ _ _)

/-- The sixteen bytes of a completion record. -/
def recordBytes (c : Card) (status : Nat) (fcode : BitVec 16) (detail : Word) : List Byte :=
  natLe 4 (cardField c.bits 32 32) ++ natLe 2 status ++ natLe 2 fcode.toNat ++ natLe 8 detail.toNat

/-- A record in a scratchpad is written there. -/
theorem writeRecord_sram {c : Card} {status core off : Nat} {fcode : BitVec 16} {detail : Word} (hs : s.mem.wf = true)
    (hdone : cardDone c.bits ≠ 0) (hlt : cardDone c.bits < 2 ^ 57) (hal : cardDone c.bits % 16 = 0)
    (hhot : (s.ctx c.ctx).hotbase = 0) (hloc : s.ctxAccess c.ctx (cardDone c.bits) 16 .store = .ok (.sram core off)) :
    (s.writeRecord c status fcode detail).bytesAt (.sram core off) 16 = recordBytes c status fcode detail := by
  have hsnap : s.hotSnapshot c.ctx = s := by
    unfold State.hotSnapshot
    exact if_pos hhot
  have hnohost : ¬2 ^ 63 ≤ cardDone c.bits := Nat.not_le.2 (hlt.trans (by decide))
  have heq : s.writeRecord c status fcode detail =
      (s.sramWrite core off (recordBytes c status fcode detail)).pokeRolls 0 := by
    unfold State.writeRecord
    dsimp only
    rw [if_neg (not_or.2 ⟨hdone, not_not_intro hal⟩), if_neg hnohost, hsnap, Nat.mod_eq_of_lt hlt, hloc]
    rfl
  have hpoked := (rollsPoked_pokeRolls (s.sramWrite core off (recordBytes c status fcode detail)) 0).sram
  have hlen : (recordBytes c status fcode detail).length = 16 := by
    simp [recordBytes, natLe_length]
  have hwrote := (wrote_sramWrite (core := core) (off := off) (bs := recordBytes c status fcode detail) hs).bytes
  rw [hlen] at hwrote
  rw [heq, State.bytesAt, hpoked]
  exact hwrote

/-! ## A context that may be free -/

theorem recordEvent_msix (s : State) (a b c d e : Nat) : ∀ x ∈ s.host.msix, x ∈ (s.recordEvent a b c d e).host.msix := by
  intro x hx
  unfold State.recordEvent
  split
  · exact hx
  · exact List.mem_cons_of_mem _ hx

/-- Of the host's side only the contexts, the event table and the vectors may have changed; launches and memory stand. -/
structure CtxFreed (s u : State) : Prop where
  host : ∃ ctxs events evlost msix, u.host = { s.host with ctxs := ctxs, events := events, evlost := evlost, msix := msix }
  msix : ∀ x ∈ s.host.msix, x ∈ u.host.msix
  launches : u.launches = s.launches
  mem : u.mem = s.mem

theorem ctxFreed_ctxFree (s : State) (n : Nat) : CtxFreed s (s.ctxFree n) := by
  unfold State.ctxFree
  split
  · exact ⟨⟨_, _, _, _, rfl⟩, fun _ h => h, rfl, rfl⟩
  · let s1 := s.modCtx n fun c => { c with phase := .free }
    have hmsix := recordEvent_msix s1 7 s.coachDie n 0 0
    have hmem := State.recordEvent_mem s1 7 s.coachDie n 0 0
    obtain ⟨_, ctxs, events, evlost, msix, _, _, _, _, _, _, _, hu⟩ := (noted_recordEvent s1 7 s.coachDie n 0 0).shape
    exact ⟨⟨ctxs, events, evlost, msix, by rw [hu]; rfl⟩, hmsix, by rw [hu]; rfl, hmem⟩

/-! ## The completion -/

/-- A card of a queue has completed: QDONE counts it, it and its launch are gone, and its vector is raised where it asks. -/
structure Completed (s u : State) (c : Card) : Prop where
  done : (u.queue c.queue).done = (s.queue c.queue).done + 1
  cards : ∀ d ∈ u.host.cards, d.id ≠ c.id
  launches : ∀ l ∈ u.launches, some l.lnum ≠ c.lnum
  msix : cardIrq c.bits = true → (s.queue c.queue).irqv.toNat ∈ u.host.msix

/-- The record once written, QDONE counts the card, its vector is raised, and it and its launch go. -/
def State.doneCounted (s : State) (c : Card) (status : Nat) : State :=
  let s2 := s.modQueue c.queue fun q => { q with done := q.done + 1 }
  let s3 := if cardIrq c.bits then s2.raiseVector (s2.queue c.queue).irqv.toNat else s2
  let s4 := { s3 with launches := s3.launches.filter fun l => some l.lnum != c.lnum }
  s4.onHost fun h =>
    { h with cards := h.cards.filter (·.id != c.id), cardStatus := ((c.queue, c.pos), status) :: h.cardStatus }

theorem completeCard_eq {c : Card} (hdrive : c.fromDrive = none) (status : Nat) (fcode : BitVec 16) (detail : Word) :
    s.completeCard c status fcode detail =
      ((((s.writeRecord c status fcode detail).countRelease s.coachDie 0).doneCounted c status).settleEdges.prioSoon).ctxFree
        c.ctx := by
  simp only [State.completeCard, hdrive]
  rfl

theorem doneCounted_mem (s : State) (c : Card) (status : Nat) : (s.doneCounted c status).mem = s.mem := by
  unfold State.doneCounted
  dsimp only
  split <;> rfl

theorem doneCounted_completed (s : State) (c : Card) (status : Nat) : Completed s (s.doneCounted c status) c := by
  have hqueue : (s.modQueue c.queue fun q => { q with done := q.done + 1 }).queue c.queue =
      { s.queue c.queue with done := (s.queue c.queue).done + 1 } := queue_modQueue_same s _ _
  refine ⟨?_, fun d hd => ?_, fun l hl => ?_, fun hirq => ?_⟩
  · have hsame : (s.doneCounted c status).queue c.queue =
        (s.modQueue c.queue fun q => { q with done := q.done + 1 }).queue c.queue := by
      unfold State.doneCounted
      dsimp only
      split <;> rfl
    rw [hsame, hqueue]
  · simpa using (List.mem_filter.1 hd).2
  · simpa using (List.mem_filter.1 hl).2
  · unfold State.doneCounted
    dsimp only
    rw [if_pos hirq, hqueue]
    exact List.mem_cons_self ..

theorem Completed.before {c : Card} (h : Completed u v c) (hqueue : u.queue c.queue = s.queue c.queue) : Completed s v c :=
  ⟨by rw [← hqueue]; exact h.done, h.cards, h.launches, by rw [← hqueue]; exact h.msix⟩

theorem Completed.after {c : Card} (h : Completed s u c) (hqueue : v.queue c.queue = u.queue c.queue)
    (hcards : ∀ y ∈ v.host.cards, ∃ x ∈ u.host.cards, x.id = y.id)
    (hlaunches : ∀ y ∈ v.launches, ∃ x ∈ u.launches, x.lnum = y.lnum) (hmsix : ∀ x ∈ u.host.msix, x ∈ v.host.msix) : Completed s v c where
  done := by rw [hqueue, h.done]
  cards d hd := by
    obtain ⟨x, hx, hxd⟩ := hcards d hd
    exact hxd ▸ h.cards x hx
  launches l hl := by
    obtain ⟨x, hx, hxl⟩ := hlaunches l hl
    exact hxl ▸ h.launches x hx
  msix hirq := hmsix _ (h.msix hirq)

theorem completeCard_completes {c : Card} (hdrive : c.fromDrive = none) (status : Nat) (fcode : BitVec 16) (detail : Word) :
    Completed s (s.completeCard c status fcode detail) c ∧
      (s.completeCard c status fcode detail).mem = (s.writeRecord c status fcode detail).mem := by
  rw [completeCard_eq hdrive]
  have hkept := coachKept_writeRecord s c status fcode detail
  have hreleased : CoachKept s ((s.writeRecord c status fcode detail).countRelease s.coachDie 0) :=
    hkept.trans (coachKept_of_host rfl)
  have hdone := (doneCounted_completed _ c status).before (hreleased.queue c.queue)
  have hmem := doneCounted_mem ((s.writeRecord c status fcode detail).countRelease s.coachDie 0) c status
  generalize ((s.writeRecord c status fcode detail).countRelease s.coachDie 0).doneCounted c status = w at hdone hmem
  have hset := (settled_settleEdges w).trans (settled_prioSoon _)
  have hfreed := ctxFreed_ctxFree w.settleEdges.prioSoon c.ctx
  have hsettled := hdone.after (hset.queue _) hset.ids hset.lnums fun x hx => by rw [hset.msix]; exact hx
  obtain ⟨⟨ctxs, events, evlost, msix, hhost⟩, hraised, hlaunches, hmem'⟩ := hfreed
  refine ⟨hsettled.after (by rw [State.queue, hhost]; rfl) (fun y hy => ⟨y, by rw [hhost] at hy; exact hy, rfl⟩)
    (fun l hl => ⟨l, by rw [hlaunches] at hl; exact hl, rfl⟩) hraised, ?_⟩
  rw [hmem', hset.mem, hmem]
  rfl

theorem exec_cardComplete {c : Card} (harg : s.arg = .num c.id) (hfind : s.host.cards.find? (·.id == c.id) = some c) :
    exec .cardComplete s = .next (match s.cardEnd c with
      | some (status, fcode, detail) => s.completeCard c status fcode detail
      | none => if s.cardWaits c then s.postFree .cardComplete (.num c.id) else s) := by
  have hexec : exec .cardComplete s = execCardComplete s := rfl
  rw [hexec, execCardComplete, harg]
  dsimp only
  rw [hfind] <;> rfl

/-- A launch whose tasks' writes are still on their way keeps its card. -/
theorem cardEnd_waits {c : Card} {l : Launch} (hstatus : c.status = none) (hl : c.lnum.bind s.launch? = some l)
    (hretiring : l.phase = .retiring) (hwrites : s.launchWrites l.lnum = true) :
    s.cardEnd c = none ∧ s.cardWaits c = true := by
  simp [State.cardEnd, State.cardWaits, hstatus, hl, hretiring, hwrites]

end

end Sys2Proof.Machine
end

section
/-! PROOF. The rules of job cards (03 R72 to R78, R81; 04 R95, R96, R98). -/

namespace Sys2Proof.Machine

open Sys2Proof

section
variable {s : State} {q : Nat} {b : BitVec 512}

/-- A queue with more cards than it has slots overruns, whatever its next card is. -/
theorem jobCard_overruns (harg : s.arg = .num q) (hturn : s.cardTurn = some q)
    (hfull : 2 ^ (s.queue q).log2.toNat < ((s.queue q).wr - (s.queue q).rd).toNat) {i : Instr}
    (hi : (i, s.nextKind q) ∈ [(Instr.jobCardLaunch, 1), (.jobCardDrive, 2), (.jobCardNull, 3), (.jobCardInvalid, 0)]) :
    ∃ u, exec i s = .next u ∧ (u.queue q).overrun = true ∧ (u.queue q).stopped = true ∧ u.host.cards = s.host.cards := by
  obtain ⟨f, hexec⟩ := exec_jobCard harg hi
  obtain ⟨hover, hstop⟩ := overrun_queue (s.countTurn q) q
  rw [takeCard_overruns hturn hfull] at hexec
  exact ⟨_, hexec, hover, hstop, rfl⟩

/-- A queue whose next card cannot be read overruns, and the event says where it stands. -/
theorem jobCard_unread (harg : s.arg = .num q) (hturn : s.cardTurn = some q)
    (hroom : ((s.queue q).wr - (s.queue q).rd).toNat ≤ 2 ^ (s.queue q).log2.toNat) (hpeek : s.peekCard q = none) :
    ∃ u, exec .jobCardInvalid s = .next u ∧ (u.queue q).overrun = true ∧ (u.queue q).stopped = true ∧
      ((∃ i < 64, ((Tbl.find? s.host.events i).any fun e => e.valid) = false) →
        ∃ e ∈ u.host.events, e.2.valid = true ∧ e.2.source = 9 ∧ e.2.die = s.coachDie ∧ e.2.code = q ∧
          e.2.detailA = 0 ∧ e.2.detailB = (s.queue q).slotVa) := by
  have hkind : s.nextKind q = 0 := by simp only [State.nextKind, hpeek]
  have hexec := exec_jobCardInvalid harg hkind
  rw [takeCard_unread hturn hroom hpeek] at hexec
  obtain ⟨hover, hstop⟩ := overrun_queue (s.countTurn q) q
  have hkept := (noted_recordEvent ((s.countTurn q).overrun q) 9 s.coachDie q 0 (s.queue q).slotVa).coachKept
  refine ⟨_, hexec, by rw [hkept.queue]; exact hover, by rw [hkept.queue]; exact hstop, fun hfree => ?_⟩
  obtain ⟨e, he, hrecord⟩ := recordEvent_recorded (s := (s.countTurn q).overrun q) 9 s.coachDie q 0 (s.queue q).slotVa hfree
  exact ⟨e, he, by rw [hrecord], by rw [hrecord], by rw [hrecord], by rw [hrecord], by rw [hrecord], by rw [hrecord]⟩

section
variable (harg : s.arg = .num q) (hturn : s.cardTurn = some q)
  (hroom : ((s.queue q).wr - (s.queue q).rd).toNat ≤ 2 ^ (s.queue q).log2.toNat) (hpeek : s.peekCard q = some b)
  (hfresh : ∀ c ∈ s.host.cards, c.id ≠ s.host.nextCard)

include harg hturn hroom hpeek hfresh

theorem jobCardInvalid_ends (hok : cardOk b = false) :
    ∃ u, exec .jobCardInvalid s = .next u ∧ CardEnds s u q b 6 0 := by
  have hkind : s.nextKind q = 0 := by rw [nextKind_of_peek hpeek, hok]; rfl
  rw [exec_jobCardInvalid harg hkind, takeCard_reads hturn hroom hpeek (.inl hok) hfresh]
  exact ⟨_, rfl, (took_taken s q b).ends 6 0⟩

variable (hok : cardOk b = true) (hdep : cardNdep b = 0)

include hok hdep

theorem jobCardNull_ends (hk : cardKind b = 3) : ∃ u, exec .jobCardNull s = .next u ∧ CardEnds s u q b 0 0 := by
  have hkind : s.nextKind q = 3 := by rw [nextKind_of_peek hpeek, hok, if_pos rfl, hk]
  rw [exec_jobCardNull harg hkind, takeCard_reads hturn hroom hpeek (.inr hdep) hfresh, nullCard_ends hk]
  exact ⟨_, rfl, (took_taken s q b).ends 0 0⟩

theorem jobCardDrive_waits (hk : cardKind b = 2) :
    ∃ u, exec .jobCardDrive s = .next u ∧ CardRead s u q ∧ s.host.nextCard ∈ u.host.driveWaiting := by
  have hkind : s.nextKind q = 2 := by rw [nextKind_of_peek hpeek, hok, if_pos rfl, hk]
  rw [exec_jobCardDrive harg hkind, takeCard_reads hturn hroom hpeek (.inr hdep) hfresh]
  exact ⟨_, rfl, (took_taken s q b).waits hfresh hk⟩

variable (hk : cardKind b = 1)

include hk

theorem exec_jobCardLaunch_taken : exec .jobCardLaunch s = .next ((s.taken q b).launchCard (s.newCard q b)).settleEdges := by
  have hkind : s.nextKind q = 1 := by rw [nextKind_of_peek hpeek, hok, if_pos rfl, hk]
  rw [exec_jobCardLaunch harg hkind, takeCard_reads hturn hroom hpeek (.inr hdep) hfresh]

theorem jobCardLaunch_badImage {status detail : Nat}
    (himage : s.checkImage (s.queue q).ctx.toNat (cardImage b) (cardField b 16 16) = .error (status, detail)) :
    ∃ u, exec .jobCardLaunch s = .next u ∧
      CardEnds s u q b status (BitVec.ofNat 64 (if status = 5 then detail else 0)) := by
  have htook := took_taken s q b
  rw [exec_jobCardLaunch_taken harg hturn hroom hpeek hfresh hok hdep hk, launchCard_badImage (c := s.newCard q b) hok hk
    (by rw [htook.reads.checkImage rfl]; exact himage)]
  exact ⟨_, rfl, htook.ends _ _⟩

variable {info : ImageInfo} (himage : s.checkImage (s.queue q).ctx.toNat (cardImage b) (cardField b 16 16) = .ok info)

include himage

theorem jobCardLaunch_badGeometry (hg : 2 ^ 57 ≤ cardField b 192 64 ∨
      s.readGeometry (s.queue q).ctx.toNat (geomAddr (s.newCard q b) info) info.nstage info.scratch = none) :
    ∃ u, exec .jobCardLaunch s = .next u ∧ CardEnds s u q b 6 0 := by
  have htook := took_taken s q b
  rw [exec_jobCardLaunch_taken harg hturn hroom hpeek hfresh hok hdep hk, launchCard_badGeometry (c := s.newCard q b) hok hk
    (by rw [htook.reads.checkImage rfl]; exact himage) (by rw [htook.reads.readGeometry]; exact hg)]
  exact ⟨_, rfl, (htook.imageValid _ _ _).ends 6 0⟩

theorem jobCardLaunch_creates {geom : List (BitVec 64)} (hg : cardField b 192 64 < 2 ^ 57)
    (hgeom : s.readGeometry (s.queue q).ctx.toNat (geomAddr (s.newCard q b) info) info.nstage info.scratch = some geom)
    (hlnum : ∀ c ∈ s.host.cards, c.lnum ≠ some s.nextLnum) :
    ∃ u l, exec .jobCardLaunch s = .next u ∧ CardRead s u q ∧ u.nextLnum = s.nextLnum + 1 ∧ l ∈ u.launches ∧
      l.lnum = s.nextLnum ∧ l.ctx = (s.queue q).ctx.toNat ∧ l.card = s.host.nextCard ∧ l.phase = .eligible ∧
      l.prio = min (cardField b 4 3) (s.queue q).prio.toNat ∧ l.args.toNat = cardField b 128 64 ∧
      l.stages = info.entries.zip geom ∧ l.scratch = info.scratch := by
  have htook := took_taken s q b
  have hvalid := htook.imageValid (s.queue q).ctx.toNat (cardImage b) info.check
  have hprio : ((s.taken q b).queue q).prio = (s.queue q).prio := by rw [htook.queue]
  rw [exec_jobCardLaunch_taken harg hturn hroom hpeek hfresh hok hdep hk, launchCard_creates (c := s.newCard q b) hok hk
    (by rw [htook.reads.checkImage rfl]; exact himage) hg (by rw [htook.reads.readGeometry]; exact hgeom)]
  obtain ⟨hread, hnext, hmem⟩ := hvalid.creates hlnum (min (cardField b 4 3) ((s.taken q b).queue q).prio.toNat) info geom
  refine ⟨_, _, rfl, hread, hnext, hmem, hvalid.reads.nextLnum, rfl, rfl, rfl, by rw [hprio]; rfl, ?_, rfl, rfl⟩
  exact (BitVec.toNat_ofNat _ 64).trans (Nat.mod_mod_of_dvd _ (dvd_refl _))

end

/-- What a card that has completed leaves (03 R77). -/
theorem cardComplete_completes {c : Card} {status : Nat} {fcode : BitVec 16} {detail : Word} (harg : s.arg = .num c.id)
    (hfind : s.host.cards.find? (·.id == c.id) = some c) (hdrive : c.fromDrive = none)
    (hend : s.cardEnd c = some (status, fcode, detail)) :
    ∃ u, exec .cardComplete s = .next u ∧ Completed s u c ∧ u.mem = (s.writeRecord c status fcode detail).mem := by
  have hexec := exec_cardComplete harg hfind
  rw [hend] at hexec
  exact ⟨_, hexec, completeCard_completes hdrive status fcode detail⟩

end

theorem jobCardRules : Claim.JobCardRules := by
  intro s q
  refine ⟨fun harg hturn hfresh => ⟨fun hfull i hi => jobCard_overruns harg hturn hfull hi,
    fun hroom hpeek => jobCard_unread harg hturn hroom hpeek, fun b hroom hpeek => ?_⟩, ?_, ?_⟩
  · have ends {i : Instr} {status : Nat} {detail : Word}
        (h : ∃ u, exec i s = .next u ∧ CardEnds s u q b status detail) : ∃ u c k, exec i s = .next u ∧
        ((u.queue q).rd = (s.queue q).rd + 1 ∧ u.host.nextRead = s.cycle + 32 ∧ u.host.nextCard = s.host.nextCard + 1) ∧
        c ∈ u.host.cards ∧ c.id = s.host.nextCard ∧ c.bits = b ∧ c.status = some (status, 0, detail) ∧
          (k, .cardComplete, .num s.host.nextCard) ∈ u.due := by
      obtain ⟨u, hexec, ⟨hrd, hread, hnext⟩, c, k, hc, hid, hbits, hstatus, hdue⟩ := h
      exact ⟨u, c, k, hexec, ⟨hrd, hread, hnext⟩, hc, hid, hbits, hstatus, hdue⟩
    refine ⟨fun hok => ends (jobCardInvalid_ends harg hturn hroom hpeek hfresh hok), fun hok hdep =>
      ⟨fun hk => ends (jobCardNull_ends harg hturn hroom hpeek hfresh hok hdep hk), fun hk => ?_, fun hk =>
        ⟨fun status detail himage => ends (jobCardLaunch_badImage harg hturn hroom hpeek hfresh hok hdep hk himage),
          fun info himage =>
            ⟨fun hg => ends (jobCardLaunch_badGeometry harg hturn hroom hpeek hfresh hok hdep hk himage hg),
              fun geom hg hgeom _ hlnum => ?_⟩⟩⟩⟩
    · obtain ⟨u, hexec, ⟨hrd, hread, hnext⟩, hwaits⟩ := jobCardDrive_waits harg hturn hroom hpeek hfresh hok hdep hk
      exact ⟨u, hexec, ⟨hrd, hread, hnext⟩, hwaits⟩
    · obtain ⟨u, l, hexec, ⟨hrd, hread, hnext⟩, hl⟩ :=
        jobCardLaunch_creates harg hturn hroom hpeek hfresh hok hdep hk himage hg hgeom hlnum
      exact ⟨u, l, hexec, ⟨hrd, hread, hnext⟩, hl⟩
  · intro c status fcode detail harg hfind hdrive hend
    obtain ⟨u, hexec, ⟨hdone, hcards, hlaunches, hmsix⟩, hmem⟩ := cardComplete_completes harg hfind hdrive hend
    refine ⟨u, hexec, hdone, hcards, hlaunches, hmsix, fun core off hinv hne hlt hal hhot hloc => ?_⟩
    rw [State.bytesAt, hmem]
    exact writeRecord_sram hinv.1 hne hlt hal hhot hloc
  · intro c l harg hfind hstatus hl hretiring hwrites
    obtain ⟨hend, hwaits⟩ := cardEnd_waits hstatus hl hretiring hwrites
    have hexec := exec_cardComplete harg hfind
    rw [hend] at hexec
    dsimp only at hexec
    rw [if_pos hwaits] at hexec
    exact ⟨_, _, hexec, rfl, rfl, rfl, mem_post_self _ _ _ _⟩

end Sys2Proof.Machine
end

section
/-! PROOF. Bindings (03 R86), and the start of drive programs (03 R85, R92). -/

namespace Sys2Proof.Machine

open Sys2Proof

section
variable {s u v : State}

/-! ## Bindings -/

/-- The table of 03 R86. -/
def State.InTable (s : State) (b : DBind) : Prop :=
  (b.target = 0 ∧ b.unit = 0) ∨ (b.target = 1 ∧ b.unit = 0 ∧ s.host.activeHub = some b.die.toNat) ∨
    (b.target = 2 ∧ b.die.toNat ≤ 3) ∨ ((b.target = 3 ∨ b.target = 4) ∧ b.unit = 0 ∧ 6 ≤ b.die.toNat ∧ b.die.toNat ≤ 13) ∨
    ((b.target = 5 ∨ b.target = 6) ∧ b.unit = 0 ∧ (b.die.toNat = 4 ∨ b.die.toNat = 5))

theorem bindOk_iff (b : DBind) : s.bindOk b = true ↔ s.InTable b := by
  have hlt := b.target.isLt
  simp only [State.InTable, State.bindOk, isHub, ← BitVec.toNat_inj]
  split
  case h_8 => simp_all
  all_goals simp_all [← BitVec.toNat_inj, and_assoc]

theorem padBinds_getD (l : List DBind) {j : Nat} (hj : j < 7) : (State.writeDbind.padBinds l).getD j {} = l.getD j {} := by
  simp [State.writeDbind.padBinds, List.getD_eq_getElem?_getD, hj]

theorem padBinds_length (l : List DBind) : (State.writeDbind.padBinds l).length = 7 := by
  simp [State.writeDbind.padBinds]

/-- The binding that a word names. -/
def DBind.ofWord (v : Word) : DBind := { target := v.extractLsb' 0 4, die := v.extractLsb' 4 4, unit := v.extractLsb' 8 2 }

theorem exec_dbindWrite {n i : Nat} {v : Word} (harg : s.arg = .reg n i .full v) (hn : n < 64) (hi : i < 7)
    (hup : s.host.welomUp = true) (hready : s.package.phase = .ready) :
    exec .dbindWrite s = .next (if s.bindOk (DBind.ofWord v) then
      s.modCtx n fun c => { c with dbind := (State.writeDbind.padBinds (s.ctx n).dbind).set i (DBind.ofWord v) }
      else s.modCtx n fun c => { c with bindbad := true }) := by
  have hexec : exec .dbindWrite s = execDbindWrite s := rfl
  rw [hexec, execDbindWrite, harg]
  dsimp only
  rw [State.whenCtxBar, if_pos hn, whenBar_open _ hup hready, State.writeDbind, if_neg (Nat.not_le.2 hi)]
  simp only [regMerge_full]
  rfl

theorem dbindWrite_rules {n i : Nat} {v : Word} (harg : s.arg = .reg n i .full v) (hn : n < 64) (hi : i < 7)
    (hup : s.host.welomUp = true) (hready : s.package.phase = .ready) :
    (s.InTable (DBind.ofWord v) → ∃ u, exec .dbindWrite s = .next u ∧ (u.ctx n).dbind.getD i {} = DBind.ofWord v ∧
      ∀ j, j < 7 → j ≠ i → (u.ctx n).dbind.getD j {} = (s.ctx n).dbind.getD j {}) ∧
    (¬s.InTable (DBind.ofWord v) → exec .dbindWrite s = .next (s.modCtx n fun c => { c with bindbad := true })) := by
  rw [exec_dbindWrite harg hn hi hup hready]
  refine ⟨fun h => ?_, fun h => ?_⟩
  · rw [if_pos (bindOk_iff _ |>.2 h)]
    refine ⟨_, rfl, ?_, fun j hj hne => ?_⟩
    · rw [State.ctx_modCtx_same]
      simp [List.getD_eq_getElem?_getD, padBinds_length, hi]
    · have hset (l : List DBind) : (l.set i (DBind.ofWord v)).getD j {} = l.getD j {} := by
        simp [List.getD_eq_getElem?_getD, List.getElem?_set_ne (Ne.symm hne)]
      rw [State.ctx_modCtx_same]
      exact (hset _).trans (padBinds_getD _ hj)
  · rw [if_neg ((bindOk_iff _).not.2 h)]

/-! ## The start of a program -/

/-- The runner that takes a card's program: the context's registers are latched. -/
def State.newRunner (s : State) (c : Card) (prog : List (BitVec 512)) : Runner :=
  { card := c.id, ctx := c.ctx, period := (s.ctx c.ctx).dperiod, dbind := (s.ctx c.ctx).dbind, dskew := (s.ctx c.ctx).dskew
    prog := prog, startAt := s.cycle }

theorem exec_driveProgramStart {c : Card} (harg : s.arg = .num c.id) (hnext : s.driveNext = some c) :
    exec .driveProgramStart s = .next (
      let s1 := s.onHost fun h => { h with driveWaiting := h.driveWaiting.filter (· != c.id) }
      let n := cardField c.bits 16 16
      match s.coachRead c.ctx (cardImage c.bits) (64 * n) with
      | .error d => s1.endCard c.id 8 0 (BitVec.ofNat 64 (d / 64 * 64))
      | .ok bs =>
        let prog := (List.range n).map fun i => beatOf ((bs.drop (64 * i)).take 64)
        match driveBad prog (s.ctx c.ctx).dbind with
        | some off => s1.endCard c.id 8 0 (BitVec.ofNat 64 off)
        | none =>
          let k := ((List.range 8).find? fun i => (Tbl.find? s.host.runners i).isNone).getD 0
          ((s1.onHost fun h => { h with runners := h.runners.put k (s.newRunner c prog) }).modCtx c.ctx fun c =>
            { c with driveRun := true, driveWord := 0 }).post 0 .drivePeriod (.num k)) := by
  have hexec : exec .driveProgramStart s = execDriveProgramStart s := rfl
  rw [hexec, execDriveProgramStart, harg]
  simp only [hnext, ne_eq, not_true_eq_false, if_false]
  rfl

theorem driveNext_card {c : Card} (h : s.driveNext = some c) : c ∈ s.host.cards := by
  unfold State.driveNext at h
  split at h
  · exact nomatch h
  · obtain ⟨k, _, hk⟩ := List.exists_of_findSome?_eq_some h
    exact List.mem_of_find?_eq_some hk

/-- A card whose program cannot start completes with status 8. -/
theorem driveStart_fails {c : Card} (hc : c ∈ s.host.cards) (detail : Nat) :
    let u := (s.onHost fun h => { h with driveWaiting := h.driveWaiting.filter (· != c.id) }).endCard c.id 8 0
      (BitVec.ofNat 64 detail)
    c.id ∉ u.host.driveWaiting ∧ ∃ y ∈ u.host.cards, y.id = c.id ∧ y.status = some (8, 0, BitVec.ofNat 64 detail) := by
  refine ⟨fun h => ?_, _, mem_modCard_same hc rfl, rfl, rfl⟩
  simpa using (List.mem_filter.1 h).2

theorem driveProgramStart_rules {c : Card} (harg : s.arg = .num c.id) (hnext : s.driveNext = some c) :
    let len := cardField c.bits 16 16
    let fails (detail : Nat) : Prop := ∃ u, exec .driveProgramStart s = .next u ∧ c.id ∉ u.host.driveWaiting ∧
      ∃ y ∈ u.host.cards, y.id = c.id ∧ y.status = some (8, 0, BitVec.ofNat 64 detail)
    (∀ d, s.coachRead c.ctx (cardImage c.bits) (64 * len) = .error d → fails (d / 64 * 64)) ∧
    (∀ bs, s.coachRead c.ctx (cardImage c.bits) (64 * len) = .ok bs →
      let prog := (List.range len).map fun i => beatOf ((bs.drop (64 * i)).take 64)
      (∀ off, driveBad prog (s.ctx c.ctx).dbind = some off → fails off) ∧
      (driveBad prog (s.ctx c.ctx).dbind = none → ∃ u k r, exec .driveProgramStart s = .next u ∧
        c.id ∉ u.host.driveWaiting ∧ u.host.runners.find? k = some r ∧ r.card = c.id ∧ r.ctx = c.ctx ∧ r.prog = prog ∧
        r.w = 0 ∧ r.period = (s.ctx c.ctx).dperiod ∧ r.dbind = (s.ctx c.ctx).dbind ∧ (u.ctx c.ctx).driveRun = true ∧
        (s.cycle, .drivePeriod, .num k) ∈ u.due)) := by
  have hc := driveNext_card hnext
  have hexec := exec_driveProgramStart harg hnext
  dsimp only at hexec ⊢
  refine ⟨fun d hd => ?_, fun bs hbs => ⟨fun off hoff => ?_, fun hgood => ?_⟩⟩
  · rw [hd] at hexec
    exact ⟨_, hexec, driveStart_fails hc _⟩
  · rw [hbs] at hexec
    dsimp only at hexec
    rw [hoff] at hexec
    exact ⟨_, hexec, driveStart_fails hc _⟩
  · rw [hbs] at hexec
    dsimp only at hexec
    rw [hgood] at hexec
    refine ⟨_, _, _, hexec, fun h => ?_, Tbl.find?_put_same _ _ _, rfl, rfl, rfl, rfl, rfl, rfl, ?_, mem_post_self _ _ _ _⟩
    · simpa using (List.mem_filter.1 h).2
    · rw [State.ctx, State.post_host, ← State.ctx, State.ctx_modCtx_same]

end

end Sys2Proof.Machine
end

section
/-! PROOF. A period of a drive program, and its end (15 R420, R421; 03 R70, R85, R87, R89, R90). -/

namespace Sys2Proof.Machine

open Sys2Proof

section
variable {s u v : State} {k : Nat} {r : Runner}

/-! ## The end of a program -/

theorem mem_endCard {id status : Nat} {fcode : BitVec 16} {detail : Word} {x : Card} (hx : x ∈ s.host.cards) (h : x.id = id) :
    { x with status := some (status, fcode, detail) } ∈ (s.endCard id status fcode detail).host.cards :=
  mem_modCard_same (f := fun c => { c with status := some (status, fcode, detail) }) hx h

/-- A program has ended: its runner is free, and its card has the status. -/
structure ProgramEnded (s u : State) (k : Nat) (r : Runner) (status : Nat) (detail : Word) : Prop where
  runner : u.host.runners.find? k = none
  driveRun : (u.ctx r.ctx).driveRun = false
  card : ∀ c ∈ s.host.cards, c.id = r.card → ∃ y ∈ u.host.cards, y.id = r.card ∧ y.status = some (status, 0, detail)

theorem endProgram_ended (s : State) (k : Nat) (r : Runner) (status : Nat) (detail : Word) :
    ProgramEnded s (s.endProgram k r status detail) k r status detail where
  runner := Tbl.find?_del_same s.host.runners k
  driveRun := by
    let s1 := (s.onHost fun h => { h with runners := h.runners.del k }).modCtx r.ctx fun c => { c with driveRun := false }
    have hsame : (s.endProgram k r status detail).ctx r.ctx = s1.ctx r.ctx := rfl
    rw [hsame, State.ctx_modCtx_same]
  card c hc hid := ⟨_, mem_endCard hc hid, hid, rfl⟩

/-! ## A period -/

/-- The state in which a runner has begun a period of a word. -/
def State.periodBegun (s : State) (k : Nat) (r : Runner) (w : BitVec 512) : State :=
  let q := ((s.host.cards.find? fun c => c.id == r.card).map (·.queue)).getD 0
  let s1 := if r.waited = 0 ∧ r.isDead r.w = false then s.sendSlots k r q w else s
  let s2 := s1.modCtx r.ctx fun c => { c with driveWord := BitVec.ofNat 16 r.w }
  (s2.onHost fun h => { h with runners := h.runners.put k (r.play w (s.ctx r.ctx).dcond) }).post (r.cycles w)
    .drivePeriod (.num k)

theorem exec_drivePeriod (harg : s.arg = .num k) (hrun : s.host.runners.find? k = some r) :
    exec .drivePeriod s = .next (match r.ending with
      | some (status, detail) => s.endProgram k r status detail
      | none =>
        match r.prog[r.w]? with
        | none => s.endProgram k r 0 0
        | some w => s.periodBegun k r w) := by
  have hexec : exec .drivePeriod s = execDrivePeriod s := rfl
  rw [hexec, execDrivePeriod, harg]
  dsimp only
  rw [hrun]
  rfl

/-- One slot of a word is sent, where it is valid. -/
def State.sendSlot (s : State) (k : Nat) (r : Runner) (q : Nat) (w : BitVec 512) (i : Nat) : State :=
  if dwSlotv w i then
    let b := r.dbind.getD i {}
    let a := dlat s.coachDie b.die.toNat + (r.dskew.getD i 0).toNat
    s.post a .driveCommandArrive
      (.drive k r.card r.ctx q (64 * r.w + 8 + 8 * i) b.target.toNat b.die.toNat b.unit.toNat (dwSlot w i))
  else s

theorem sendSlots_eq (s : State) (k : Nat) (r : Runner) (q : Nat) (w : BitVec 512) :
    s.sendSlots k r q w = (List.range 7).foldl (fun s i => s.sendSlot k r q w i) s := rfl

theorem sent_sendSlot (s : State) (k : Nat) (r : Runner) (q : Nat) (w : BitVec 512) (i : Nat) : Sent s (s.sendSlot k r q w i) := by
  unfold State.sendSlot
  split
  · exact sent_post _ _ _ _
  · exact Sent.refl s

theorem sent_sendSlots (s : State) (k : Nat) (r : Runner) (q : Nat) (w : BitVec 512) : Sent s (s.sendSlots k r q w) := by
  rw [sendSlots_eq]
  exact sent_foldl _ (fun s i => sent_sendSlot s k r q w i) _ s

/-- The command of a valid slot, on its way to its engine. -/
def slotDue (s : State) (k : Nat) (r : Runner) (q : Nat) (w : BitVec 512) (i : Nat) : Nat × Instr × EvArg :=
  let b := r.dbind.getD i {}
  (s.cycle + (dlat s.coachDie b.die.toNat + (r.dskew.getD i 0).toNat), .driveCommandArrive,
    .drive k r.card r.ctx q (64 * r.w + 8 + 8 * i) b.target.toNat b.die.toNat b.unit.toNat (dwSlot w i))

theorem sendSlots_due {q i : Nat} {w : BitVec 512} (hi : i < 7) (hv : dwSlotv w i = true) :
    slotDue s k r q w i ∈ (s.sendSlots k r q w).due := by
  have hall (l : List Nat) (hil : i ∈ l) (v : State) (hv' : Sent s v) :
      slotDue s k r q w i ∈ (l.foldl (fun s i => s.sendSlot k r q w i) v).due := by
    induction l generalizing v with
    | nil => exact nomatch hil
    | cons j l ih =>
      rcases List.mem_cons.1 hil with rfl | hil
      · have hrest := sent_foldl (fun s i => s.sendSlot k r q w i) (fun s i => sent_sendSlot s k r q w i) l
          (v.sendSlot k r q w i)
        have hdie : v.coachDie = s.coachDie := by rw [State.coachDie, State.coachDie, hv'.host]
        refine hrest.due _ ?_
        rw [State.sendSlot, if_pos hv]
        dsimp only
        rw [slotDue, ← hv'.cycle, ← hdie]
        exact mem_post_self _ _ _ _
      · exact ih hil _ (hv'.trans (sent_sendSlot v k r q w j))
  rw [sendSlots_eq]
  exact hall _ (List.mem_range.2 hi) s (Sent.refl s)

/-- The runner has begun its period: what it plays is its state from now, and the word is shown. -/
structure PeriodBegun (s u : State) (k : Nat) (r : Runner) (w : BitVec 512) : Prop where
  runner : u.host.runners.find? k = some (r.play w (s.ctx r.ctx).dcond)
  mem : u.mem = s.mem
  word : (u.ctx r.ctx).driveWord = BitVec.ofNat 16 r.w

theorem periodBegun_begun (s : State) (k : Nat) (r : Runner) (w : BitVec 512) : PeriodBegun s (s.periodBegun k r w) k r w := by
  have hsent (q : Nat) : Sent s (if r.waited = 0 ∧ r.isDead r.w = false then s.sendSlots k r q w else s) := by
    split
    · exact sent_sendSlots s k r q w
    · exact Sent.refl s
  have hword (v : State) (y : Runner) (d : Nat) : ((((v.modCtx r.ctx fun c => { c with driveWord := BitVec.ofNat 16 r.w }).onHost
      fun h => { h with runners := h.runners.put k y }).post d .drivePeriod (.num k)).ctx r.ctx).driveWord =
        BitVec.ofNat 16 r.w :=
    congrArg Ctx.driveWord (State.ctx_modCtx_same v r.ctx fun c => { c with driveWord := BitVec.ofNat 16 r.w })
  exact ⟨Tbl.find?_put_same _ _ _, (hsent _).mem, hword _ _ _⟩

/-- The period of a live word sends the word's valid slots. -/
theorem periodBegun_due {w : BitVec 512} {i : Nat} (hwaited : r.waited = 0) (hlive : r.isDead r.w = false) (hi : i < 7)
    (hv : dwSlotv w i = true) : ∃ q, slotDue s k r q w i ∈ (s.periodBegun k r w).due := by
  refine ⟨((s.host.cards.find? fun c => c.id == r.card).map (·.queue)).getD 0, ?_⟩
  unfold State.periodBegun
  dsimp only
  rw [if_pos ⟨hwaited, hlive⟩]
  exact mem_insertDue.2 (.inr (sendSlots_due hi hv))

theorem play_card (r : Runner) (w : BitVec 512) (cond : Word) :
    (r.play w cond).card = r.card ∧ (r.play w cond).prog = r.prog := by
  have hnext (r : Runner) : r.next.card = r.card ∧ r.next.prog = r.prog := by
    unfold Runner.next
    dsimp only
    split
    · split
      · split <;> exact ⟨rfl, rfl⟩
      · exact ⟨rfl, rfl⟩
    · exact ⟨rfl, rfl⟩
  have hdead (c : Prop) [Decidable c] (l : List (Nat × Nat)) :
      (if c then { r with dead := l } else r).card = r.card ∧ (if c then { r with dead := l } else r).prog = r.prog := by
    split <;> exact ⟨rfl, rfl⟩
  unfold Runner.play
  dsimp only
  split
  · exact ⟨(hnext _).1.trans (hdead _ _).1, (hnext _).2.trans (hdead _ _).2⟩
  · split
    · split
      · exact ⟨rfl, rfl⟩
      · exact hnext r
    · split
      · exact hnext r
      · split <;> exact ⟨rfl, rfl⟩
  · exact ⟨rfl, rfl⟩
  · exact ⟨rfl, rfl⟩
  · exact hnext r

/-! ## What a word does to its runner -/

/-- Outside a REPEAT the next word follows. -/
theorem next_follows (hrep : r.rep = none) : r.next = { r with w := r.w + 1, waited := 0 } := by
  simp only [Runner.next, hrep]

section
variable {w : BitVec 512} {cond : Word}

theorem play_send (hc : dwCtl w = 0) (hrep : r.rep = none) : r.play w cond = { r with w := r.w + 1, waited := 0 } := by
  simp only [Runner.play, hc, next_follows hrep]

theorem play_end (hc : dwCtl w = 4) : r.play w cond = { r with ending := r.ending.or (some (0, 0)) } := by
  simp only [Runner.play, hc]

theorem play_repeat (hc : dwCtl w = 3) : r.play w cond = { r with
    w := r.w + 1, rep := some (r.w + 1, dwLo w, dwArg2 w), waited := 0
    dead := r.dead.filter fun d => !(decide (r.w + 1 ≤ d.1) && decide (d.2 < r.w + 1 + dwLo w)) } := by
  simp only [Runner.play, hc]

/-- The words that a BRANCH passes over. -/
def branchDead (r : Runner) (w : BitVec 512) (cond : Word) : Nat × Nat :=
  if cond.getLsbD (dwField w 48 6) == w.getLsbD 54 then (r.w + dwLo w + 1, r.w + dwLo w + dwHi w) else (r.w + 1, r.w + dwLo w)

theorem play_branch (hc : dwCtl w = 1) (hrep : r.rep = none) (hlive : r.isDead r.w = false) :
    r.play w cond = { r with w := r.w + 1, waited := 0, dead := branchDead r w cond :: r.dead } := by
  have hlive' : (!r.isDead r.w) = true := by rw [hlive]; rfl
  simp only [Runner.play, hc, hlive', if_true]
  exact next_follows (r := { r with dead := branchDead r w cond :: r.dead }) hrep

theorem branchDead_iff {x : Nat} : ((branchDead r w cond).1 ≤ x ∧ x ≤ (branchDead r w cond).2) ↔
    if cond.getLsbD (dwField w 48 6) = w.getLsbD 54 then r.w + dwLo w < x ∧ x ≤ r.w + dwLo w + dwHi w
    else r.w < x ∧ x ≤ r.w + dwLo w := by
  unfold branchDead
  by_cases h : cond.getLsbD (dwField w 48 6) = w.getLsbD 54
  · rw [if_pos h, if_pos (beq_iff_eq.2 h), Nat.succ_le_iff]
  · rw [if_neg h, if_neg (fun e => h (beq_iff_eq.1 e)), Nat.succ_le_iff]

theorem isDead_cons (d : Nat × Nat) (x : Nat) :
    ({ r with w := r.w + 1, waited := 0, dead := d :: r.dead } : Runner).isDead x = true ↔
      r.isDead x = true ∨ (d.1 ≤ x ∧ x ≤ d.2) := by
  simp [Runner.isDead, or_comm]

theorem play_waitMet (hc : dwCtl w = 2) (hkind : dwField w 24 2 = 0) (hrep : r.rep = none)
    (hcond : cond.getLsbD (dwField w 16 6) = true) : r.play w cond = { r with w := r.w + 1, waited := 0 } := by
  simp only [Runner.play, hc, hkind, hcond, next_follows hrep, if_true]
  rfl

theorem play_waits (hc : dwCtl w = 2) (hkind : dwField w 24 2 = 0) (hcond : cond.getLsbD (dwField w 16 6) = false)
    (h : dwArg w = 0 ∨ r.waited + 1 < dwArg w) : r.play w cond = { r with waited := r.waited + 1 } := by
  have hno : ¬(dwArg w ≠ 0 ∧ dwArg w ≤ r.waited + 1) := fun ⟨hne, hle⟩ => h.elim hne (Nat.not_lt.2 hle)
  simp only [Runner.play, hc, hkind, hcond, Bool.false_eq_true, if_false, if_neg hno]
  rfl

theorem play_waitOver (hc : dwCtl w = 2) (hkind : dwField w 24 2 = 0) (hcond : cond.getLsbD (dwField w 16 6) = false)
    (hne : dwArg w ≠ 0) (hle : dwArg w ≤ r.waited + 1) :
    r.play w cond = { r with ending := r.ending.or (some (10, 0)) } := by
  simp only [Runner.play, hc, hkind, hcond, Bool.false_eq_true, if_false, if_pos (And.intro hne hle)]
  rfl

theorem play_delay (hc : dwCtl w = 2) (hkind : dwField w 24 2 = 1) (h : r.waited + 1 < dwArg w) :
    r.play w cond = { r with waited := r.waited + 1 } := by
  simp only [Runner.play, hc, hkind, if_true, if_pos h]

theorem play_delayOver (hc : dwCtl w = 2) (hkind : dwField w 24 2 = 1) (hrep : r.rep = none) (h : dwArg w ≤ r.waited + 1) :
    r.play w cond = { r with w := r.w + 1, waited := 0 } := by
  simp only [Runner.play, hc, hkind, if_true, if_neg (Nat.not_lt.2 h), next_follows hrep]

end

theorem drivePeriod_rules (harg : s.arg = .num k) (hrun : s.host.runners.find? k = some r) :
    let finishes (status : Nat) (detail : Word) : Prop := ∃ u, exec .drivePeriod s = .next u ∧
      u.host.runners.find? k = none ∧ (u.ctx r.ctx).driveRun = false ∧ ∀ c ∈ s.host.cards, c.id = r.card →
        ∃ y ∈ u.host.cards, y.id = r.card ∧ y.status = some (status, 0, detail)
    let becomes (p : Runner → Prop) : Prop := ∃ u y, exec .drivePeriod s = .next u ∧ u.host.runners.find? k = some y ∧
      p y ∧ y.card = r.card ∧ y.prog = r.prog ∧ u.mem = s.mem ∧ (u.ctx r.ctx).driveWord = BitVec.ofNat 16 r.w
    (∀ status detail, r.ending = some (status, detail) → finishes status detail) ∧
    (r.ending = none → r.prog.length ≤ r.w → finishes 0 0) ∧
    (∀ w, r.ending = none → r.prog[r.w]? = some w →
      (dwCtl w = 0 → r.rep = none → becomes fun y => y.w = r.w + 1 ∧ y.ending = none) ∧
      (dwCtl w = 4 → becomes fun y => y.ending = some (0, 0)) ∧
      (dwCtl w = 3 → becomes fun y => y.w = r.w + 1 ∧ y.rep = some (r.w + 1, dwLo w, dwArg2 w)) ∧
      (dwCtl w = 1 → r.rep = none → r.isDead r.w = false → becomes fun y => y.w = r.w + 1 ∧
        ∀ v, y.isDead v = true ↔ r.isDead v = true ∨
          if (s.ctx r.ctx).dcond.getLsbD (dwField w 48 6) = w.getLsbD 54 then
            r.w + dwLo w < v ∧ v ≤ r.w + dwLo w + dwHi w
          else r.w < v ∧ v ≤ r.w + dwLo w) ∧
      (dwCtl w = 2 → dwField w 24 2 = 0 → r.rep = none →
        ((s.ctx r.ctx).dcond.getLsbD (dwField w 16 6) = true → becomes fun y => y.w = r.w + 1 ∧ y.waited = 0) ∧
        ((s.ctx r.ctx).dcond.getLsbD (dwField w 16 6) = false →
          (dwArg w = 0 ∨ r.waited + 1 < dwArg w → becomes fun y => y.w = r.w ∧ y.waited = r.waited + 1) ∧
          (dwArg w ≠ 0 → dwArg w ≤ r.waited + 1 → becomes fun y => y.ending = some (10, 0)))) ∧
      (dwCtl w = 2 → dwField w 24 2 = 1 → r.rep = none →
        (r.waited + 1 < dwArg w → becomes fun y => y.w = r.w ∧ y.waited = r.waited + 1) ∧
        (dwArg w ≤ r.waited + 1 → becomes fun y => y.w = r.w + 1 ∧ y.waited = 0)) ∧
      (r.waited = 0 → r.isDead r.w = false → ∃ u, exec .drivePeriod s = .next u ∧
        ∀ i, i < 7 → dwSlotv w i = true →
          let b := r.dbind.getD i {}
          ∃ q, (s.cycle + (dlat s.coachDie b.die.toNat + (r.dskew.getD i 0).toNat), .driveCommandArrive,
            .drive k r.card r.ctx q (64 * r.w + 8 + 8 * i) b.target.toNat b.die.toNat b.unit.toNat (dwSlot w i)) ∈ u.due)) := by
  intro finishes becomes
  have hexec := exec_drivePeriod harg hrun
  have hfinishes {status : Nat} {detail : Word} (h : exec .drivePeriod s = .next (s.endProgram k r status detail)) :
      finishes status detail := by
    obtain ⟨hrunner, hdrive, hcard⟩ := endProgram_ended s k r status detail
    exact ⟨_, h, hrunner, hdrive, hcard⟩
  refine ⟨fun status detail hend => hfinishes (by rw [hexec, hend]), fun hend hlen =>
    hfinishes (by rw [hexec, hend, List.getElem?_eq_none hlen]), fun w hend hw => ?_⟩
  have hbegun : exec .drivePeriod s = .next (s.periodBegun k r w) := by rw [hexec, hend, hw]
  have hbecomes {p : Runner → Prop} (hp : p (r.play w (s.ctx r.ctx).dcond)) : becomes p := by
    obtain ⟨hrunner, hmem, hword⟩ := periodBegun_begun s k r w
    obtain ⟨hcard, hprog⟩ := play_card r w (s.ctx r.ctx).dcond
    exact ⟨_, _, hbegun, hrunner, hp, hcard, hprog, hmem, hword⟩
  refine ⟨fun hc hrep => hbecomes ?_, fun hc => hbecomes ?_, fun hc => hbecomes ?_, fun hc hrep hlive =>
    hbecomes ?_, fun hc hkind hrep => ⟨fun hcond => hbecomes ?_, fun hcond => ⟨fun h => hbecomes ?_, fun hne hle =>
      hbecomes ?_⟩⟩, fun hc hkind hrep => ⟨fun h => hbecomes ?_, fun h => hbecomes ?_⟩, fun hwaited hlive => ?_⟩
  · rw [play_send hc hrep]
    exact ⟨rfl, hend⟩
  · rw [play_end hc, hend]
    rfl
  · rw [play_repeat hc]
    exact ⟨rfl, rfl⟩
  · rw [play_branch hc hrep hlive]
    exact ⟨rfl, fun v => (isDead_cons _ v).trans (or_congr_right branchDead_iff)⟩
  · rw [play_waitMet hc hkind hrep hcond]
    exact ⟨rfl, rfl⟩
  · rw [play_waits hc hkind hcond h]
    exact ⟨rfl, rfl⟩
  · rw [play_waitOver hc hkind hcond hne hle, hend]
    rfl
  · rw [play_delay hc hkind h]
    exact ⟨rfl, rfl⟩
  · rw [play_delayOver hc hkind hrep h]
    exact ⟨rfl, rfl⟩
  · exact ⟨_, hbegun, fun i hi hv => periodBegun_due hwaited hlive hi hv⟩

end

end Sys2Proof.Machine
end

section
/-! PROOF. Commands at their engines (03 R88, R91; 11 R283, R285), and the job cards of LNCH commands (15 R418). -/

namespace Sys2Proof.Machine

open Sys2Proof

section
variable {s u v : State}

/-! ## Commands -/

/-- A block's or a roll's place in the window is the context's. -/
theorem windowAlloc_iff {n off k : Nat} : s.windowAlloc n off k = true ↔
    scratchCluster (scratchBase + off) ≤ 23 ∧ s.inOneAlloc n (windowPlace off).1 (windowPlace off).2 k = true := by
  simp [State.windowAlloc, windowPlace, Nat.lt_succ_iff]

/-- The operation that an engine takes from a drive command. -/
def State.driveOp (s : State) (n target die unit : Nat) (cmd : CmdWord) : EngineOp :=
  { id := 0, eop := cmdEop cmd, ctx := n, tid := none, core := none, die := die, unit := targetUnit target unit
    pblk := cmdBlock cmd, roll := cmdRoll cmd, block := s.windowRead (cmdBlock cmd) (blockBytes (cmdEop cmd)), cmd := cmd
    driveKey := some (driveKeyOf target die unit) }

/-- The command is accepted: its engine counts it. -/
def State.driveCounted (s : State) (key : Nat) : State :=
  s.onHost fun h => { h with driveEntries := h.driveEntries.put key (s.host.driveEntries.getD 0 key + 1) }

section
variable {k card n q byteOff target die unit : Nat} {cmd : CmdWord}

theorem exec_driveCommandArrive (harg : s.arg = .drive k card n q byteOff target die unit cmd)
    (hlive : (s.ctx n).phase = .live) : exec .driveCommandArrive s = .next (
      if 16 ≤ s.host.driveEntries.getD 0 (driveKeyOf target die unit) then s.endAtOnce k card 9 0
      else if !s.windowAlloc n (cmdBlock cmd) (blockBytes (cmdEop cmd)) || !s.windowAlloc n (cmdRoll cmd) 16 then
        s.endAtOnce k card 8 (BitVec.ofNat 64 byteOff)
      else if target = 1 ∧ cmdEop cmd = 0x20 then
        (s.driveCounted (driveKeyOf target die unit)).post 0 .lnch (.lnch n q cmd)
      else (s.driveCounted (driveKeyOf target die unit)).forkOp (s.driveOp n target die unit cmd)) := by
  have hexec : exec .driveCommandArrive s = execDriveCommandArrive s := rfl
  rw [hexec, execDriveCommandArrive, harg]
  dsimp only
  rw [if_neg (not_not_intro hlive)]
  rfl

theorem endAtOnce_ended {r : Runner} (hrun : s.host.runners.find? k = some r) (hcard : r.card = card) (status : Nat)
    (detail : Word) : ProgramEnded s (s.endAtOnce k card status detail) k r status detail := by
  have heq : s.endAtOnce k card status detail = s.endProgram k r status detail := by
    simp only [State.endAtOnce, hrun, hcard, if_true]
  rw [heq]
  exact endProgram_ended s k r status detail

theorem driveCounted_entries (s : State) (key : Nat) :
    (s.driveCounted key).host.driveEntries.getD 0 key = s.host.driveEntries.getD 0 key + 1 := Tbl.getD_put_same _ _ _ _

/-- An engine that takes a command keeps it among its operations, as it is, under a fresh number. -/
theorem forkOp_ops (s : State) (o : EngineOp) : (s.forkOp o).host = s.host ∧
    (s.forkOp o).engines.ops = s.engines.ops ++ [{ o with id := s.nextId }] := ⟨rfl, rfl⟩

theorem driveCommandArrive_rules {r : Runner} (harg : s.arg = .drive k card n q byteOff target die unit cmd)
    (hlive : (s.ctx n).phase = .live) (hrun : s.host.runners.find? k = some r) (hcard : r.card = card)
    (hhas : ∃ c ∈ s.host.cards, c.id = card) :
    let used := s.host.driveEntries.getD 0 (driveKeyOf target die unit)
    let finishes (status detail : Nat) : Prop := ∃ u, exec .driveCommandArrive s = .next u ∧
      u.host.runners.find? k = none ∧ ∃ y ∈ u.host.cards, y.id = card ∧ y.status = some (status, 0, BitVec.ofNat 64 detail)
    let held : Prop := s.windowAlloc n (cmdBlock cmd) (blockBytes (cmdEop cmd)) = true ∧ s.windowAlloc n (cmdRoll cmd) 16 = true
    (16 ≤ used → finishes 9 0) ∧ (used < 16 → ¬held → finishes 8 byteOff) ∧
    (used < 16 → held → ∃ u, exec .driveCommandArrive s = .next u ∧
      u.host.driveEntries.getD 0 (driveKeyOf target die unit) = used + 1 ∧
      (target = 1 → cmdEop cmd = 0x20 → (s.cycle, .lnch, .lnch n q cmd) ∈ u.due) ∧
      (target ≠ 1 ∨ cmdEop cmd ≠ 0x20 → ∃ o, u.engines.ops = s.engines.ops ++ [o] ∧ o.eop = cmdEop cmd ∧ o.ctx = n ∧
        o.die = die ∧ o.tid = none ∧ o.block = s.windowRead (cmdBlock cmd) (blockBytes (cmdEop cmd)))) := by
  intro used finishes held
  have hexec := exec_driveCommandArrive harg hlive
  obtain ⟨c, hc, hid⟩ := hhas
  have hfinishes {status detail : Nat}
      (h : exec .driveCommandArrive s = .next (s.endAtOnce k card status (BitVec.ofNat 64 detail))) : finishes status detail := by
    obtain ⟨hrunner, _, hended⟩ := endAtOnce_ended hrun hcard status (BitVec.ofNat 64 detail)
    obtain ⟨y, hy, hyid, hstatus⟩ := hended c hc (hid.trans hcard.symm)
    exact ⟨_, h, hrunner, y, hy, hyid.trans hcard, hstatus⟩
  have hrefused : (!s.windowAlloc n (cmdBlock cmd) (blockBytes (cmdEop cmd)) || !s.windowAlloc n (cmdRoll cmd) 16) = true ↔
      ¬held := by
    simp only [held, Bool.or_eq_true, Bool.not_eq_true', not_and_or, Bool.not_eq_true]
  refine ⟨fun h => hfinishes (by rw [hexec, if_pos h]; rfl), fun hlt hno => hfinishes ?_, fun hlt hyes => ?_⟩
  · rw [hexec, if_neg (Nat.not_le.2 hlt), if_pos (hrefused.2 hno)]
  · rw [if_neg (Nat.not_le.2 hlt), if_neg (fun h => hrefused.1 h hyes)] at hexec
    have hcounted := driveCounted_entries s (driveKeyOf target die unit)
    by_cases h : target = 1 ∧ cmdEop cmd = 0x20
    · rw [if_pos h] at hexec
      exact ⟨_, hexec, hcounted, fun _ _ => mem_post_self _ _ _ _, fun hne => absurd h (not_and_or.2 hne)⟩
    · rw [if_neg h] at hexec
      obtain ⟨hhost, hops⟩ := forkOp_ops (s.driveCounted (driveKeyOf target die unit)) (s.driveOp n target die unit cmd)
      exact ⟨_, hexec, by rw [hhost]; exact hcounted, fun h1 h2 => absurd ⟨h1, h2⟩ h, fun _ =>
        ⟨_, hops, rfl, rfl, rfl, rfl, rfl⟩⟩

end

/-! ## The card of a LNCH command -/

/-- The same card, but for its edges, its launch and its status. -/
def Card.Same (c y : Card) : Prop := y.id = c.id ∧ y.bits = c.bits ∧ y.ctx = c.ctx ∧ y.fromDrive = c.fromDrive

theorem Card.Same.refl (c : Card) : c.Same c := ⟨rfl, rfl, rfl, rfl⟩

/-- The engines stand, and a card is found again. -/
structure CardKept (s u : State) (c : Card) : Prop where
  engines : u.engines = s.engines
  card : (∃ x ∈ s.host.cards, c.Same x) → ∃ y ∈ u.host.cards, c.Same y

section
variable {c : Card}

theorem cardKept_of_same (hengines : u.engines = s.engines) (hcards : u.host.cards = s.host.cards) : CardKept s u c :=
  ⟨hengines, by rw [hcards]; exact id⟩

theorem CardKept.trans (h : CardKept s u c) (k : CardKept u v c) : CardKept s v c :=
  ⟨k.engines.trans h.engines, k.card ∘ h.card⟩

theorem cardKept_modCard {f : Card → Card} (hf : ∀ x, c.Same x → c.Same (f x)) : CardKept s (s.modCard c.id f) c :=
  ⟨rfl, fun ⟨x, hx, hsame⟩ => ⟨f x, mem_modCard_same hx hsame.1, hf x hsame⟩⟩

theorem cardKept_endCard (status : Nat) (fcode : BitVec 16) (detail : Word) :
    CardKept s (s.endCard c.id status fcode detail) c := by
  have hset : CardKept s (s.modCard c.id fun c => { c with status := some (status, fcode, detail) }) c :=
    cardKept_modCard fun _ h => h
  exact hset.trans (cardKept_of_same rfl rfl)

theorem cardKept_cardReady {d : Card} (hid : d.id = c.id) : CardKept s (s.cardReady d) c := by
  unfold State.cardReady
  dsimp only
  rw [hid]
  split
  · exact CardKept.trans (cardKept_of_same (by rfl) (by rfl)) (cardKept_endCard _ _ _)
  · split
    · exact cardKept_of_same rfl rfl
    · exact cardKept_endCard _ _ _
    · exact cardKept_of_same rfl rfl

theorem cardKept_imageValid (s : State) (ctx at_ : Nat) (check : BitVec 32) : CardKept s (s.imageValid ctx at_ check) c := by
  unfold State.imageValid
  split <;> exact cardKept_of_same rfl rfl

theorem cardKept_createLaunch (prio : Nat) (info : ImageInfo) (geom : List (BitVec 64)) :
    CardKept s (s.createLaunch c prio info geom) c := by
  have hentered (l : Launch) : CardKept s (s.launchEntered c l) c :=
    CardKept.trans (u := { s with launches := s.launches ++ [l], nextLnum := s.nextLnum + 1 }) (cardKept_of_same rfl rfl)
      ((cardKept_modCard (f := fun _ => { c with lnum := some s.nextLnum }) fun _ _ => Card.Same.refl c).trans
        (cardKept_of_same rfl rfl))
  have heq : s.createLaunch c prio info geom =
      if c.edges.isEmpty then
        (s.launchEntered c (s.newLaunch c prio info geom)).cardReady { c with lnum := some s.nextLnum }
      else s.launchEntered c (s.newLaunch c prio info geom) := rfl
  rw [heq]
  split
  · exact (hentered _).trans (cardKept_cardReady rfl)
  · exact hentered _

theorem cardKept_launchCard (s : State) (c : Card) : CardKept s (s.launchCard c) c := by
  unfold State.launchCard
  dsimp only
  split
  · exact cardKept_endCard _ _ _
  · split
    · exact cardKept_endCard _ _ _
    · split
      · exact (cardKept_imageValid s _ _ _).trans (cardKept_endCard _ _ _)
      · exact (cardKept_imageValid s _ _ _).trans (cardKept_createLaunch _ _ _)

/-- A card that breaks 03 R75, or is no launch, ends BAD_CARD. -/
theorem launchCard_badCard (hc : ∃ x ∈ s.host.cards, c.Same x) (h : cardOk c.bits = false ∨ cardKind c.bits ≠ 1) :
    ∃ y ∈ (s.launchCard c).host.cards, c.Same y ∧ y.status = some (6, 0, 0) := by
  obtain ⟨x, hx, hsame⟩ := hc
  have hbad : (!cardOk c.bits || cardKind c.bits != 1) = true := by simpa using h
  have heq : s.launchCard c = s.endCard c.id 6 0 0 := by
    unfold State.launchCard
    exact if_pos hbad
  rw [heq]
  exact ⟨_, mem_endCard hx hsame.1, hsame, rfl⟩

/-- The card at the offset of a parameter block. -/
theorem windowRead_card {b : Nat} (hb : b % 128 = 0) : ((s.windowRead b 128).drop 0x40).take 64 = s.windowRead (b + 0x40) 64 := by
  have hlen : (cellsRead s.mem.sram (windowKey b) 64).length = 64 := by simp [cellsRead]
  rw [windowRead_eq, windowRead_eq, windowKey_block hb (by decide), cellsRead_add _ _ 64 64, List.drop_left' hlen]
  exact List.take_of_length_le (by simp [cellsRead])

/-- The operation of a LNCH command. -/
def State.lnchOp (s : State) (n q : Nat) (cmd : CmdWord) : EngineOp :=
  { id := s.nextId, eop := 0x20, ctx := n, tid := none, core := none, die := s.coachDie, unit := q, pblk := cmdBlock cmd
    roll := cmdRoll cmd, block := s.windowRead (cmdBlock cmd) 128, cmd := cmd
    driveKey := some (driveKeyOf 1 s.coachDie 0) }

/-- The card that a LNCH operation's block holds, as it is read. -/
def State.lnchRead (s : State) (o : EngineOp) (q : Nat) (edges : List Nat) : Card :=
  { id := s.host.nextCard, queue := q, ctx := o.ctx, pos := (s.queue q).rd, bits := beatOf ((o.block.drop 0x40).take 64)
    edges := edges, fromDrive := some o.id }

/-- The launch unit takes the card of a LNCH operation: the card stands among the cards, and the operation has started. -/
theorem lnchCard_launches (o : EngineOp) (q : Nat) (hroom : s.launches.length < 2048) (ho : o ∈ s.engines.ops) :
    ∃ (w : State) (c1 : Card), s.lnchCard o q = w.launchCard c1 ∧ (s.lnchRead o q []).Same c1 ∧
      (∃ x ∈ w.host.cards, c1.Same x) ∧ { o with started := true } ∈ w.engines.ops := by
  let c := s.lnchRead o q (List.range (min (cardNdep (beatOf ((o.block.drop 0x40).take 64))) 8))
  let s1 := s.onHost fun h => { h with nextCard := h.nextCard + 1, cards := h.cards ++ [c] }
  let c1 := if cardOk c.bits then s1.meetEdges c else { c with edges := [] }
  have hsame : (s.lnchRead o q []).Same c1 := by
    simp only [c1]
    split <;> exact ⟨rfl, rfl, rfl, rfl⟩
  have hmem : c ∈ s1.host.cards := List.mem_append_right _ (List.mem_singleton.2 rfl)
  refine ⟨(s1.modCard c.id fun _ => c1).onEngines fun e =>
    { e with ops := e.ops.map fun p => if p.id == o.id then { p with started := true } else p }, c1, ?_, hsame,
    ⟨c1, mem_modCard_same (f := fun _ => c1) hmem rfl, Card.Same.refl c1⟩, ?_⟩
  · unfold State.lnchCard
    exact if_neg (Nat.not_le.2 hroom)
  · exact List.mem_map.2 ⟨o, ho, if_pos (beq_self_eq_true o.id)⟩

theorem lnch_rules {n q : Nat} {cmd : CmdWord} (harg : s.arg = .lnch n q cmd) (hroom : s.launches.length < 2048)
    (hblock : cmdBlock cmd % 128 = 0) :
    let b := beatOf (s.windowRead (cmdBlock cmd + 0x40) 64)
    ∃ u c o, exec .lnch s = .next u ∧ c ∈ u.host.cards ∧ c.id = s.host.nextCard ∧ c.bits = b ∧ c.ctx = n ∧
      c.fromDrive = some o.id ∧ o ∈ u.engines.ops ∧ o.eop = 0x20 ∧ o.ctx = n ∧ o.started = true ∧
      (cardOk b = false ∨ cardKind b ≠ 1 → c.status = some (6, 0, 0)) := by
  intro b
  let o := s.lnchOp n q cmd
  let s1 := { s with nextId := s.nextId + 1 }.onEngines fun e => { e with ops := e.ops ++ [o] }
  have hexec : exec .lnch s = .next (s1.lnchCard o q) := by
    have hexec : exec .lnch s = execLnch s := rfl
    rw [hexec, execLnch, harg]
    rfl
  have hbits : (s1.lnchRead o q []).bits = b := congrArg beatOf (windowRead_card hblock)
  obtain ⟨w, c1, heq, ⟨hid, hbits1, hctx, hfrom⟩, hc1, hop⟩ :=
    lnchCard_launches (s := s1) o q hroom (List.mem_append_right _ (List.mem_singleton.2 rfl))
  have hkept := cardKept_launchCard w c1
  rw [heq] at hexec
  have hop' : { o with started := true } ∈ (w.launchCard c1).engines.ops := by rw [hkept.engines]; exact hop
  have hcard : ∃ y ∈ (w.launchCard c1).host.cards, c1.Same y ∧
      (cardOk b = false ∨ cardKind b ≠ 1 → y.status = some (6, 0, 0)) := by
    by_cases hbad : cardOk b = false ∨ cardKind b ≠ 1
    · obtain ⟨y, hy, hsame, hstatus⟩ := launchCard_badCard hc1 (by rw [hbits1, hbits]; exact hbad)
      exact ⟨y, hy, hsame, fun _ => hstatus⟩
    · obtain ⟨y, hy, hsame⟩ := hkept.card hc1
      exact ⟨y, hy, hsame, fun h => absurd h hbad⟩
  obtain ⟨y, hy, ⟨hyid, hybits, hyctx, hyfrom⟩, hstatus⟩ := hcard
  exact ⟨_, y, { o with started := true }, hexec, hy, hyid.trans hid, hybits.trans (hbits1.trans hbits), hyctx.trans hctx,
    hyfrom.trans hfrom, hop', rfl, rfl, rfl, hstatus⟩

end

end

theorem driveRules : Claim.DriveRules := by
  intro s
  refine ⟨fun n i v harg hn hi hup hready => dbindWrite_rules harg hn hi hup hready,
    fun c harg hnext => driveProgramStart_rules harg hnext, fun k r harg hrun => drivePeriod_rules harg hrun, ?_,
    fun n q cmd harg hroom _ => lnch_rules harg hroom⟩
  intro k card n q byteOff target die unit cmd r harg hlive hrun hcard hhas
  obtain ⟨hfull, hrefused, haccepted⟩ := driveCommandArrive_rules harg hlive hrun hcard hhas
  have hheld : (scratchCluster (scratchBase + cmdBlock cmd) ≤ 23 ∧
      s.inOneAlloc n (windowPlace (cmdBlock cmd)).1 (windowPlace (cmdBlock cmd)).2 (blockBytes (cmdEop cmd)) = true ∧
      scratchCluster (scratchBase + cmdRoll cmd) ≤ 23 ∧
      s.inOneAlloc n (windowPlace (cmdRoll cmd)).1 (windowPlace (cmdRoll cmd)).2 16 = true) ↔
      s.windowAlloc n (cmdBlock cmd) (blockBytes (cmdEop cmd)) = true ∧ s.windowAlloc n (cmdRoll cmd) 16 = true := by
    rw [windowAlloc_iff, windowAlloc_iff, and_assoc]
  exact ⟨hfull, fun hlt hno => hrefused hlt (hheld.not.1 hno), fun hlt hyes => haccepted hlt (hheld.1 hyes)⟩

/-- Settles O56: it holds. Queues and contexts (03 R68 to R71), job cards (R72 to R81; 04 R93 to R98) and the drive
(03 R84 to R92; 15 R418 to R421) each by what their operations leave. GEOM at or above 2^57 as BAD_CARD is log 55; the room
for entries before the allocation check, BAD_DRIVE at the arriving byte, and a WAIT of kind 1 with ARG 0 are log 56. -/
theorem coachmanRules : Obligations.CoachmanRules := ⟨queueContextRules, jobCardRules, driveRules⟩

end Sys2Proof.Machine
end
